-- ==== Sys2Proof/Syntax.lean ====
section
/-! DEFINITION. The commands of the module: one constructor of `Instr` per row of the opcode table, with its operands. -/

namespace Sys2Proof

/-- What the error check of a word, a granule or a payload finds: no error, an error corrected, an error that cannot
be corrected. -/
inductive Ecc where
  | ok | corrected | uncorrectable
  deriving DecidableEq, Repr

/-- The execution units of a tile that a `FENCE` names (spec/03_compute_tile.md R78, R79). -/
inductive TUnit where
  | tensor | vector | ring | bobbin0 | bobbin1
  deriving DecidableEq, Repr

/-- Accumulator modes (spec/03_compute_tile.md Table 3.6a). -/
inductive AccMode where
  | comp | plain | int
  deriving DecidableEq, Repr

/-- A source of a vector-unit operation: scratchpad from a granule, a ring slot from `HEAD`, or the value that a `RECV`
moved to the vector unit. -/
inductive VSrc where
  | spad (granule : Nat)
  | ring (r off : Nat)
  | vec
  deriving DecidableEq, Repr

/-- A destination of a vector-unit operation: scratchpad, a ring slot from `TAIL`, or the vector unit. -/
inductive VDst where
  | spad (granule : Nat)
  | ring (r off : Nat)
  | vec
  deriving DecidableEq, Repr

/-- Comparisons of the vector unit. -/
inductive CmpOp where
  | eq | lt | le
  deriving DecidableEq, Repr

/-- Vector operations (spec/03_compute_tile.md R94, spec/02_numerics.md R68, R69); a special function is named by its
row and place in Table 2.7. -/
inductive VKind where
  | add | sub | mul | fma | div | sqrt | max | min | cmp (c : CmpOp) | select
  | recip | rsqrt | exp2 | log2 | exp | ln | tanh | sigmoid | erf
  deriving DecidableEq, Repr

/-- The count of a `LOOP`: an immediate, or a DL register and a step (spec/03_compute_tile.md R80). -/
inductive LoopCount where
  | imm (n : Nat)
  | dl (reg step : Nat)
  deriving DecidableEq, Repr

/-- An operation of a tile that is outstanding from its issue to its completion (spec/03_compute_tile.md Table 3.3). -/
inductive TileOp where
  | tmma (d a b : Nat)
  | vop (k : VKind) (a b c : VSrc) (dst : VDst) (n : Nat)
  | vcvt (src : VSrc) (dst : VDst) (fmt n : Nat)
  | vred (mx : Bool) (src : VSrc) (idx n : Nat)
  | accrd (m : AccMode) (base n : Nat) (dst : VDst)
  | accinit (m : AccMode) (base n : Nat)
  | accadd (m : AccMode) (src : VSrc) (base n : Nat)
  | rpub (r k : Nat)
  | rrel (r k : Nat)
  deriving DecidableEq, Repr

/-- What goes wrong in a tile operation as it runs: nothing, a corrected scratchpad word in a bank, an uncorrectable
error of a W-class bank, a parity error of an A-class bank, a parity error of the accumulator memory
(spec/03_compute_tile.md R97, R99). -/
inductive OpErr where
  | none
  | spCorr (bank : Nat)
  | spUncorr (bank : Nat)
  | spParity (bank : Nat)
  | accParity
  deriving DecidableEq, Repr

/-- An agent of a tile that waits: the tile program, a bobbin, a shuttle, the predicate unit. -/
inductive TAgent where
  | prog | bob (k : Nat) | shut (k : Nat) | pred
  deriving DecidableEq, Repr

/-- What an agent waits on: a channel queue or an output channel (spec/04_fabric_tokens_and_steering.md R121). -/
inductive Wait where
  | queue (q : Nat) | och (c : Nat)
  deriving DecidableEq, Repr

/-- What a wait that a progress monitor watches is for: a token of a queue, room on an output channel, a slot of a ring on
its producer's or its consumer's side, requests of a bobbin (spec/06_progress_deadlock_drain.md R194). -/
inductive WaitOn where
  | queue (q : Nat) | och (c : Nat) | ring (r : Nat) (prod : Bool) | req
  deriving DecidableEq, Repr

/-- A router port; `out` is the local port, or the one to a selvedge unit. -/
inductive Port where
  | north | east | south | west | out
  deriving DecidableEq, Repr

/-- A seam message as it arrives or leaves: the fields of the seam header, its body and its check word, and, for one that is
sent, the port of the receiving module to which its frame goes (spec/10_seam_ports_and_collectives.md Table 10.4, R316,
R318). -/
structure SMsg where
  ty : Nat
  ver : Nat
  src : Nat
  dst : Nat
  lseq : Nat
  lack : Nat
  free : Nat
  kid : Nat
  kep : Nat
  kstep : Nat
  group : Nat
  n : Nat
  line : Nat
  body : List Byte
  mcrc : W32
  rport : Nat := 0
  deriving DecidableEq, Repr

/-- The agent that issued a request to host memory: a bobbin with its request index, or a tape command. -/
inductive HostAgent where
  | bob (t b ridx epoch : Nat)
  | cmd (tag epoch : Nat)
  deriving DecidableEq, Repr

/-- How a request to host memory is answered: data or an acknowledgement, poisoned data, or a refusal of the link
(spec/11_host_interface_and_command_tape.md R357). -/
inductive HostAns where
  | ok (data : List Byte)
  | poisoned
  | unsupported
  deriving DecidableEq, Repr

/-- How a management message reached the endpoint: the binding (PCIe VDM, else SMBus), and the SPDM secured session
that carries it, if any (spec/12_thimble_management_security.md R398). -/
structure MVia where
  vdm : Bool
  sess : Option Nat
  deriving DecidableEq, Repr

/-- A repair record (spec/14_reset_bringup_selftest.md Table 14.11). -/
structure RepRec where
  kind : Nat
  source : Nat
  unit : Nat
  loc : Nat
  bits : Nat
  state : Nat
  deriving DecidableEq, Repr

/-- A signature with the public key it is to be checked with: modulus and signature big-endian, exponent little-endian,
as in spec/12_thimble_management_security.md Table 12.2. -/
structure RsaSig where
  modulus : List Byte
  exponent : List Byte
  sig : List Byte
  deriving DecidableEq, Repr

/-- A rail: a panel's, or one of spec/13_panels_clocks_power.md Table 13.4 by its order. -/
inductive Rail where
  | panel (p : Nat) | module (order : Nat)
  deriving DecidableEq, Repr

/-- What a temperature sample is of (spec/13_panels_clocks_power.md R429, R430). -/
inductive TSens where
  | panel (p : Nat) | package (n : Nat) | stage
  deriving DecidableEq, Repr

/-- A block that answers idle requests (spec/14_reset_bringup_selftest.md Table 14.4). -/
inductive Blk where
  | tape | press | bobbins | seam | cxl | loader | unpick
  deriving DecidableEq, Repr

/-- What `FUSE_BURN` names (spec/14_reset_bringup_selftest.md R451). -/
inductive FuseName where
  | keyIndex | seal | policyLock
  deriving DecidableEq, Repr

/-- What the checks of an instruction word and of the token payload that it reads find
(spec/03_compute_tile.md R81, spec/04_fabric_tokens_and_steering.md R115). -/
structure PayCheck where
  word : Ecc
  pay : Ecc
  deriving DecidableEq, Repr

/-- What the checks of an instruction word and of the scratchpad words that it reads find (spec/03_compute_tile.md R81,
R99). -/
structure SrcCheck where
  word : Ecc
  err : OpErr
  deriving DecidableEq, Repr

/-- An agent stalled on a ring, and for how many cycles it has been (spec/03_compute_tile.md R108, Table 3.9). -/
structure RingWait where
  agent : TAgent
  cycles : Nat
  deriving DecidableEq, Repr

/-- An entry of a tile's basting record, by its place from the oldest (spec/04_fabric_tokens_and_steering.md R135). -/
structure BasteAt where
  tile : Nat
  idx : Nat
  deriving DecidableEq, Repr

/-- A shuttle of a tile, with what the checks of the control and data payloads that it reads find
(spec/04_fabric_tokens_and_steering.md R115). -/
structure ShutRead where
  k : Nat
  ctl : Ecc
  dat : Ecc
  deriving DecidableEq, Repr

/-- The predicate unit of a tile, with what the check of the payload that it reads finds
(spec/04_fabric_tokens_and_steering.md R115). -/
structure PredRead where
  tile : Nat
  dat : Ecc
  deriving DecidableEq, Repr

/-- How a request reaches its controller: how long it has waited there, and what the check of the granules that it reads
finds (spec/08_memory_system.md R266, spec/09_bobbin_streams.md R304). -/
structure Arrival where
  wait : Nat
  e : Ecc
  deriving DecidableEq, Repr

/-- What a scrub read finds, and the errors that have arisen in stored granules and lining words since
(spec/08_memory_system.md R266, R267, R271; log entry 110). -/
structure ScrubFind where
  e : Ecc
  arisen : List (Nat × Ecc)
  deriving DecidableEq, Repr

/-- A frame as the filter of a port sees it: the port, its destination address and its EtherType
(spec/10_seam_ports_and_collectives.md R316). -/
structure AlienFrame where
  port : Nat
  da : List Byte
  etype : Nat
  deriving DecidableEq, Repr

/-- The header fields of a request token at a seam engine that the engine uses (spec/10_seam_ports_and_collectives.md
R341). -/
structure GatherHdr where
  tag : Nat
  gen : Nat
  deriving DecidableEq, Repr

/-- An address or offset of a host access, and whether the link protects it with IDE
(spec/11_host_interface_and_command_tape.md R358). -/
structure HostAt where
  addr : Nat
  prot : Bool
  deriving DecidableEq, Repr

/-- A host access to memory: as `HostAt`, with how long it has waited at its controller
(spec/09_bobbin_streams.md R304). -/
structure HostAccess extends HostAt where
  wait : Nat
  deriving DecidableEq, Repr

/-- The commands of the module, one constructor per row of the opcode table. -/
inductive Instr where
  -- registers (spec/00_scope.md R8 to R14)
  | regWrite (tile : Option Nat) (off : Nat) (wide : Bool) (v : W64)
  | regAccessMisaligned (off size : Nat) (write : Bool) (v : W64)
  | lowerWordLatchRead (tile : Option Nat) (off : Nat)
  | upperWordRead (tile : Option Nat) (off : Nat)
  | counterRead (tile : Option Nat) (off : Nat) (wide : Bool)
  | w1cClear (tile : Option Nat) (off : Nat) (v set : W32)
  | gcCommit (v : W32)
  | numCommit (v : W32)
  | tileCommit (t : Nat) (v : W32)
  | tileCommitApply (t : Nat)
  | tileCommitWait (t : Nat)
  | bankFillDone (t bank : Nat)
  | fabCommit (v : W32)
  | plCommit (v : W32)
  | unpCommit (v : W32)
  | prsCommit (v : W32)
  | mcCommit (n : Nat) (v : W32)
  | modeRegisterRead (n : Nat) (v : W64)
  | modeRegisterWrite (n : Nat) (v : W64)
  | hardPpr (n : Nat) (v : W64)
  | mcRepairDone (n : Nat) (fail : Bool) (rv : Byte)
  | spCommit (n : Nat) (v : W32)
  | seamGcommit (v : W32)
  | tpCommit (v : W32)
  | tpAbandon (v : W32)
  | thCommit (v : W32)
  | pnlCommit (p : Nat) (v : W32)
  | pwrCommit (v : W32)
  -- sequencer (spec/03_compute_tile.md Table 3.3)
  | halt (t : Nat) (e : Ecc)
  | nop (t : Nat) (e : Ecc)
  | fence (t : Nat) (e : Ecc) (units : List TUnit)
  | loop (t : Nat) (e : Ecc) (count : LoopCount) (last : Nat)
  | brctl (t : Nat) (e : PayCheck) (q target : Nat)
  | jmp (t : Nat) (e : Ecc) (target : Nat)
  | tmma (t : Nat) (e : Ecc) (d a b : Nat)
  | vop (t : Nat) (e : Ecc) (k : VKind) (a b c : VSrc) (dst : VDst) (n : Nat)
  | vcvt (t : Nat) (e : Ecc) (src : VSrc) (dst : VDst) (fmt n : Nat)
  | vred (t : Nat) (e : Ecc) (mx : Bool) (src : VSrc) (idx n : Nat)
  | accrd (t : Nat) (e : Ecc) (m : AccMode) (base n : Nat) (dst : VDst)
  | accinit (t : Nat) (e : Ecc) (m : AccMode) (base n : Nat)
  | accadd (t : Nat) (e : Ecc) (m : AccMode) (src : VSrc) (base n : Nat)
  | rpub (t : Nat) (e : Ecc) (r k : Nat)
  | rrel (t : Nat) (e : Ecc) (r k : Nat)
  | recv (t : Nat) (e pay : Ecc) (q : Nat) (dst : VDst)
  | send (t : Nat) (e : SrcCheck) (c slot : Nat) (src : VSrc) (len : Nat)
  | dlld (t : Nat) (e : PayCheck) (reg q : Nat)
  | bobgo (t : Nat) (e : Ecc) (b entry : Nat)
  | opComplete (t idx : Nat) (err : OpErr)
  | spCorrWriteback (t bank : Nat)
  | ringAccessResume (t : Nat) (agent : TAgent) (cycles : Nat)
  | tileRingStall (t : Nat) (w : RingWait)
  | basteSew (b : BasteAt)
  | basteSquash (t idx : Nat)
  -- tokens, shuttles and predicate units (spec/04_fabric_tokens_and_steering.md)
  | tokenRouterInput (r : Nat) (hdr : W64) (pay : List Byte) (e : Ecc)
  | tokenDelivery (dest : Nat) (hdr : W64) (pay : List Byte) (e : Ecc)
  | creditReturn (dest chan : Nat)
  | bucketRefill (t c : Nat)
  | vc3GuardExpiry (r : Nat) (p : Port)
  | fabChanDeadline (t : Nat) (agent : TAgent) (w : Wait)
  | shuttleFire (t : Nat) (k : ShutRead)
  | shuttleBaste (t : Nat) (k : ShutRead)
  | shuttleResolve (t : Nat) (k : ShutRead)
  | shuttleEndPass (t k : Nat)
  | shuttleHemPass (t k : Nat)
  | verdictToken (t q tag : Nat) (sew : Bool)
  | predicateFire (p : PredRead)
  | predicateHemPass (t : Nat)
  -- patterns (spec/05_patterns_and_reconfiguration.md)
  | patternLoad (tag : Nat)
  | loadPass2 (e : Ecc)
  | patternArm (tag : Nat)
  | arm (unit : Nat)
  | armAck (unit : Nat)
  | go (unit : Nat)
  | hemSend (t c : Nat)
  | tileSwitch (t : Nat)
  | selvedgeGenEnd (unit : Nat)
  | retireAck (unit : Nat)
  | discard (unit : Nat)
  | discardAck (unit : Nat)
  | patLoadDeadline
  | patRetireDeadline
  -- progress, unpick and drain (spec/06_progress_deadlock_drain.md)
  | monitorTrip (t : Nat) (agent : TAgent) (w : WaitOn)
  | stallReport (panel : Nat)
  | probe (t : Nat)
  | probeReply (t : Nat) (payload : W64)
  | confirmWindowEnd
  | unpProbeDeadline
  | spillCommand (t q : Nat)
  | spillArrival (t : Nat) (hdr : W64) (pay : List Byte)
  | spillRecord (t q : Nat)
  | refill (t q : Nat) (e : Ecc)
  | refillToken (t q : Nat)
  | switchNotice (t : Nat)
  | spillModeExit (t q : Nat)
  | drainQuiesce (tag : Nat)
  | drainFlush (tag : Nat)
  | quiesceStopInputs
  | quiesceProbeRound
  | unpDrainDeadline
  | flushDone
  | unpFlushDeadline
  | resume (tag : Nat)
  -- memory system (spec/08_memory_system.md)
  | memRead (agent addr len : Nat) (noalloc : Bool) (e : Arrival)
  | memWrite (agent addr : Nat) (bytes : List Byte) (noalloc : Bool) (basted : Option Nat) (e : Arrival)
  | f32add (agent addr set cnt seq salt : Nat) (addends : List W32) (basted : Option Nat) (e : Arrival)
  | pairadd (agent addr set cnt seq salt : Nat) (addends : List W32) (basted : Option Nat) (e : Arrival)
  | bf16add (agent addr set cnt seq salt : Nat) (addends : List W32) (basted : Option Nat) (e : Arrival)
  | i32add (agent addr set cnt seq salt : Nat) (addends : List W32) (basted : Option Nat) (e : Arrival)
  | setReset (agent mc set cnt : Nat)
  | atomTicketDeadline (mc idx : Nat)
  | scrubRead (chan : Nat) (e : ScrubFind)
  | rowRemap (chan bank row : Nat) (bad : List Nat)
  | channelFail (chan : Nat)
  | setClass (tag : Nat)
  | classFillEnd
  | move (tag : Nat) (hostData : List Byte)
  | moveDone
  | liningRequestsDrained (n g : Nat)
  | liningPdDeadline (n g : Nat)
  | liningWritebackDone (n g : Nat)
  | liningWritebackDeadline (n g : Nat)
  | liningPowerUpDone (n g : Nat)
  -- bobbins (spec/09_bobbin_streams.md Table 9.3)
  | bobEnd (t b : Nat)
  | bobLoop (t b : Nat)
  | endl (t b : Nat)
  | skipdl (t b : Nat)
  | seta (t b : Nat)
  | adda (t b : Nat)
  | seti (t b : Nat)
  | ldr (t b : Nat)
  | ldp (t b : Nat)
  | str (t b : Nat) (err : OpErr)
  | stp (t b : Nat) (err : OpErr)
  | pub (t b : Nat)
  | rel (t b : Nat)
  | emit (t b : Nat)
  | wait (t b : Nat)
  | bobbinRequest (target : Nat) (p0 p1 : W64) (data : List Byte) (wait : Nat) (e : Ecc)
  | bobbinResponse (t b ridx num status epoch : Nat) (data : List Byte)
  | retirementToken (target stream epoch : Nat)
  | bobReqDeadline (t b : Nat)
  -- training step and press units (spec/07_training_step_and_press.md)
  | stepOpen (tag : Nat)
  | stepOpenResume
  | closeToken (mc tag len : Nat) (payload : W64) (basted : Bool)
  | closeEnd (group : Nat)
  | partialNorm
  | sweepLine (mc group line : Nat) (e : Ecc)
  | audit (mc : Nat)
  | prsCloseDeadline
  | prsNormDeadline
  | prsSweepDeadline
  -- seam ports (spec/10_seam_ports_and_collectives.md)
  | linkTrained (p : Nat)
  | seamLinkTrain (p : Nat)
  | negotiateTick (p : Nat)
  | seamNegotiate (p : Nat) (m : SMsg)
  | seamNegFail (p : Nat)
  | ack (p : Nat) (m : SMsg)
  | nak (p : Nat) (m : SMsg)
  | hold (p : Nat) (m : SMsg)
  | stream (p : Nat) (m : SMsg)
  | streamCredit (p : Nat) (m : SMsg)
  | streamHem (p : Nat) (m : SMsg)
  | owner (p : Nat) (m : SMsg)
  | partialMsg (p : Nat) (m : SMsg)
  | returnMsg (p : Nat) (m : SMsg)
  | digest (p : Nat) (m : SMsg)
  | rereq (p : Nat) (m : SMsg)
  | normPart (p : Nat) (m : SMsg)
  | verdict (p : Nat) (m : SMsg)
  | abandon (p : Nat) (m : SMsg)
  | gatherReq (p : Nat) (m : SMsg)
  | gatherResp (p : Nat) (m : SMsg)
  | messageRelay (p : Nat) (m : SMsg)
  | otherFrame (f : AlienFrame)
  | fcsErrorFrame (p : Nat)
  | ackInterval (p : Nat)
  | rtxTimeout (p : Nat)
  | pfcFrame (p prio quanta : Nat)
  | peerSilence (p : Nat)
  | pcsLoss (p : Nat)
  | streamTokenOut (p : Nat) (hdr : W64) (pay : List Byte)
  | streamPackTimeout (p slot : Nat)
  | streamReinject (p slot : Nat)
  | creditGrantTimeout (p slot : Nat)
  | contribTimeout (group : Nat)
  | seamRedDeadline
  | seamRetDeadline
  | gatherRequest (p : Nat) (hdr : GatherHdr) (payload : List Byte) (basted : Bool)
  | seamGatherDeadline (p tag : Nat)
  | ownerDeferredAnswer (group : Nat)
  | holdTick (p : Nat)
  | reservedTypeMessage (p : Nat) (m : SMsg)
  -- host interface and tape (spec/11_host_interface_and_command_tape.md)
  | linkModeSettle (cxl : Bool) (speed width : Nat)
  | configAccess (write : Bool) (off : HostAt) (v : W32)
  | hdmDecoderCommit (d base size : Nat) (ways1 : Bool)
  | hdmRead (acc : HostAccess) (len : Nat) (e : Ecc)
  | hdmWrite (acc : HostAccess) (bytes : List Byte) (poisoned : Bool)
  | tapeWindowAccess (write : Bool) (off : HostAt) (len : Nat) (bytes : List Byte)
  | hostSnoop (acc : HostAt)
  | hostBiasAnswer (idx : Nat)
  | hostResponse (idx : Nat) (ans : HostAns)
  | hostCompletionTimeout (idx : Nat)
  | tapeNotice (off len : Nat) (e : Ecc)
  | tornTimeout
  | commandStart (tag : Nat)
  | replyWrite (hostRseq : W32)
  | replySpacePoll (hostRseq : W32)
  | tapeReplyDeadline
  | tapeNop (tag : Nat)
  | negotiate (tag : Nat)
  | cancel (tag : Nat)
  | bias (tag : Nat)
  | dbgRead (tag : Nat) (e : Ecc)
  | dbgWrite (tag : Nat) (data : List Byte)
  -- Thimble (spec/12_thimble_management_security.md)
  | thNegotiate (tag : Nat)
  | sensorRead (tag : Nat)
  | logRead (tag : Nat)
  | logClear (tag : Nat)
  | identity (tag : Nat)
  | measure (tag : Nat)
  | shutdownWithTest (tag : Nat)
  | shutdownWithoutTest (tag : Nat)
  | thCommandTimeout (tag : Nat)
  | finishingTestDone (found : List RepRec) (analog : Nat)
  | rstFtDeadline
  | romBoot
  | bootDeadline
  | getTid (v : MVia)
  | getPldmVersion (v : MVia)
  | getPldmTypes (v : MVia)
  | getPldmCommands (v : MVia) (ty : Nat)
  | getPdrRepositoryInfo (v : MVia)
  | getPdr (v : MVia) (record : Nat)
  | getSensorReading (v : MVia) (id : Nat)
  | setNumericSensorEnable (v : MVia) (id op : Nat)
  | setEventReceiver (v : MVia) (enable : Bool) (eid : Nat)
  | queryDeviceIdentifiers (v : MVia)
  | getFirmwareParameters (v : MVia)
  | requestUpdate (v : MVia) (maxXfer : Nat)
  | passComponentTable (v : MVia) (cls id : Nat)
  | updateComponent (v : MVia) (cls id size : Nat)
  | firmwareData (v : MVia) (off : Nat) (data : List Byte)
  | transferComplete (v : MVia)
  | verifyComplete (v : MVia)
  | applyComplete (v : MVia)
  | activateFirmware (v : MVia) (selfContained : Bool)
  | getStatus (v : MVia)
  | cancelUpdateComponent (v : MVia)
  | cancelUpdate (v : MVia)
  | getVersion (v : MVia)
  | getCapabilities (v : MVia)
  | negotiateAlgorithms (v : MVia) (common : Bool)
  | getDigests (v : MVia)
  | getCertificate (v : MVia) (slot off len : Nat)
  | challenge (v : MVia) (slot : Nat) (nonce : List Byte)
  | getMeasurements (v : MVia) (index : Nat) (nonce : List Byte)
  | keyExchange (v : MVia) (sess : Nat) (auth : Bool)
  | finish (v : MVia) (sess : Nat) (auth : Bool)
  | heartbeat (v : MVia) (sess : Nat) (auth : Bool)
  | keyUpdate (v : MVia) (sess : Nat) (auth : Bool)
  | endSession (v : MVia) (sess : Nat) (auth : Bool)
  | debugNonce (v : MVia)
  | debugUnlock (v : MVia) (nonce : List Byte) (sig : RsaSig)
  | debugLock (v : MVia)
  | optionWrite (v : MVia) (image : List Byte) (sig : Option RsaSig)
  | fuseBurn (v : MVia) (fuse : FuseName) (body : List Byte) (sig : Option RsaSig)
  | ideKmQuery (v : MVia) (stream : Nat)
  | ideKmKeyProg (v : MVia) (stream keySet : Nat) (key : List Byte)
  | ideKmKSetGo (v : MVia) (stream keySet : Nat)
  | ideKmKSetStop (v : MVia) (stream keySet : Nat)
  | setEndpointId (v : MVia) (eid : Nat)
  | getEndpointId (v : MVia)
  | getMctpVersionSupport (v : MVia)
  | getMessageTypeSupport (v : MVia)
  | smbusAlertResponse
  | sensorSample (readings : List (Option Int))
  | logWrite
  | faultRecord (unit : Nat)
  | watchdogExpiry
  -- panels and power (spec/13_panels_clocks_power.md)
  | neighbourAnnounce (p from_ f : Nat)
  | governorSlowLoop (p100 p1ms p1s vin iin : Nat)
  | governorFastLoop (p1ms : Nat)
  | envelopeTimeout (p100 : Nat)
  | thermalSample (src : TSens) (temp : Int)
  | thermalCapStep (p : Nat)
  | tripPersistTimeout
  | nbTempDeadline (p q : Nat)
  | droop (p : Nat)
  | droopEnd (p : Nat)
  | railOutOfTolerance (r : Rail)
  | inputOutOfRange (mv : Nat)
  | inputCollapse (mv : Nat)
  | refClockLoss
  | oscillatorFail
  -- reset, start-up and the safe state (spec/14_reset_bringup_selftest.md, spec/15_faults_and_safe_state.md)
  | vauxValid (bootSrc clkMode : Nat)
  | vauxLoss
  | auxRstN
  | input50vValid
  | sysRstN
  | sysRstNRelease
  | perstAssert
  | perstDeassert
  | hotReset
  | flr
  | blockIdle (b : Blk)
  | idleTimeout (b : Blk)
  | channelTrained (refused : List Nat)
  | zeroFillDone
  | startReady
  | rstReadyDeadline
  | safeStateEntry
  | fltSafeDeadline
  | pwrChangeDeadline (p : Nat)
  | panelChangeEnd (p : Nat)
  | neighbourCapAck (p q : Nat)
  | cxlLinkUp
  | liningModeChangeEnd (n g : Nat)
  | thimbleRestartDone
  | railsInRegulation
  | powerUpDeadline (r : Rail)
  | heartbeatTimeout (sess : Nat)
  deriving DecidableEq, Repr

end Sys2Proof
end

