-- ==== Sys2Proof/Decode.lean ====
section
/-! DEFINITION. The command that a word spells by the bits of the opcode table: the table gives no row any bits, so no
word spells a command. -/

namespace Sys2Proof

/-- The command spelt by a word of the opcode table. No row of the table has bits. -/
def decodeTableWord (_nbits _w : Nat) : Option Instr := none

end Sys2Proof
end

