-- ==== Sys2Proof/Config.lean ====
section
/-! DEFINITION. What an implementation fixes and the spec leaves open: opaque constants, of which no proof can see a
value. -/

namespace Sys2Proof

/-- A free value: the `n`-th value that the spec leaves open, of `w` bits (log entry 5). -/
opaque Config.freeValue : (w : Nat) → Nat → BitVec w

/-- The Varbex vendor identifier (spec/01_module_overview.md Table 1.6; log entry 4). -/
opaque Config.vendorId : BitVec 16

/-- The special functions of the vector unit, inside the bounds of spec/02_numerics.md Table 2.7 (log entry 7). -/
opaque Config.specialFn : Nat → W32 → W32

/-- The module serial (spec/12_thimble_management_security.md Table 12.12; log entry 4). -/
opaque Config.serial : BitVec 64

/-- The digest in a Varbex key slot, big-endian as a number (spec/12_thimble_management_security.md R385; log entry 4). -/
opaque Config.keyDigest : Nat → Nat

/-- The firmware image region of the flash as manufactured (spec/12_thimble_management_security.md Table 12.1;
log entry 4). -/
opaque Config.flashByte : Nat → Byte

/-- What a byte of the image region that has been erased and not written reads as
(spec/12_thimble_management_security.md R391; log entry 4). -/
opaque Config.erasedByte : Nat → Byte

/-- The flash-held option bytes as manufactured (spec/14_reset_bringup_selftest.md R448; log entry 4). -/
opaque Config.optionByte : Nat → Byte

/-- The contents of the boot ROM, measured at boot (spec/12_thimble_management_security.md Table 12.7; log entry 4). -/
opaque Config.romDigest : Nat

/-- The digest of measurement 4: SHA-256 of the option bytes, flash-held and fuse-held, whose order the spec does not give
(spec/12_thimble_management_security.md Table 12.7; log entry 4). -/
opaque Config.optDigest : List Byte → List Nat → Nat

/-- The digest of measurement 6: SHA-256 of the key-slot digests and revocation fuses, whose order the spec does not give
(spec/12_thimble_management_security.md Table 12.7; log entry 4). -/
opaque Config.hwDigest : List Nat → Nat

/-- The length of the device certificate chain (spec/12_thimble_management_security.md R393; log entry 4). -/
opaque Config.certLen : Nat

/-- The device certificate chain (spec/12_thimble_management_security.md R394; log entry 4). -/
opaque Config.certByte : Nat → Byte

/-- The SEC-DED check byte of a data word, by the word, its index and the granule's storage index; the code is internal to
the controller (spec/08_memory_system.md R256; log entry 4). -/
opaque Config.checkByte : W64 → Nat → Nat → Byte

/-- The set of the lining cache in which a controller keeps a line (spec/08_memory_system.md R272; log entry 4). -/
opaque Config.cacheSet : Nat → Nat → Nat

/-- The word that a comparison of the vector unit writes for false and for true (log entry 9). -/
opaque Config.cmpWord : Bool → W32

/-- The burst of a completion channel of a seam engine, less 1: its declared shape, which no source gives
(spec/05_patterns_and_reconfiguration.md R160; log entry 120). -/
opaque Config.doneShape : Nat

/-- Whether a word used as the condition of a select chooses the first source (log entry 9). -/
opaque Config.selects : W32 → Bool

/-- The operand fields of a word of a tile program that the loader checks: the end index of a `LOOP`, whether it names a
DL register with a step of zero, the target of a branch, the queue and the channel named, the granules of plain
scratchpad named by immediate addresses, the format descriptor of a `VCVT`, the bobbin and the entry of a `BOBGO`. -/
structure WordFields where
  last : Nat
  zeroStep : Bool
  target : Nat
  queue : Nat
  chan : Nat
  granules : List Nat
  fmt : Nat
  bobbin : Nat
  entry : Nat
  deriving DecidableEq, Repr, Inhabited

/-- The operand fields of a word; the spec gives no layout for them (spec/03_compute_tile.md "The sequencer", log entry
12). -/
opaque Config.wordFields : W64 → WordFields

end Sys2Proof
end

