-- ==== Sys2Proof/Machine/Kv.lean ====
section
/-! DEFINITION. Sparse tables as lists of key and value pairs, and byte memory in canonical form. -/

namespace Sys2Proof.Machine

/-- A sparse table: key and value pairs, keys rising. -/
abbrev Kv (α : Type) := List (Nat × α)

/-- The value under a key. -/
def kvGet? {α : Type} : Kv α → Nat → Option α
  | [], _ => none
  | (k', v) :: t, k => if k = k' then some v else kvGet? t k

/-- The value under a key, or a default. -/
def kvGet {α : Type} (d : α) (m : Kv α) (k : Nat) : α := (kvGet? m k).getD d

/-- The table with a value put under a key. -/
def kvSet {α : Type} : Kv α → Nat → α → Kv α
  | [], k, v => [(k, v)]
  | (k', v') :: t, k, v =>
    if k < k' then (k, v) :: (k', v') :: t
    else if k = k' then (k, v) :: t
    else (k', v') :: kvSet t k v

/-- The table without a key. -/
def kvErase {α : Type} : Kv α → Nat → Kv α
  | [], _ => []
  | (k', v') :: t, k => if k = k' then kvErase t k else (k', v') :: kvErase t k

/-- Byte memory: the cells that hold something else than zero, addresses strictly rising. An unlisted byte reads
zero, which is what the reset fill leaves (spec/08_memory_system.md R285). -/
abbrev Memory := List Host.Cell

/-- One byte of memory. -/
def memRead (m : Memory) (a : Nat) : Byte := kvGet 0 m a

/-- The memory with one byte written; writing zero takes the cell out, so that equal memories are equal lists. -/
def memWrite (m : Memory) (a : Nat) (b : Byte) : Memory :=
  if b = 0 then kvErase m a else kvSet m a b

/-- `n` bytes from an address up. -/
def memReadN (m : Memory) (a : Nat) : Nat → List Byte
  | 0 => []
  | n + 1 => memRead m a :: memReadN m (a + 1) n

/-- Bytes written from an address up. -/
def memWriteN (m : Memory) (a : Nat) : List Byte → Memory
  | [] => m
  | b :: t => memWriteN (memWrite m a b) (a + 1) t

/-- The memory with every cell of `[lo, hi)` zero. -/
def memZero (m : Memory) (lo hi : Nat) : Memory :=
  m.filter fun c => decide (c.1 < lo) || decide (hi ≤ c.1)

/-- The canonical form of a memory: addresses strictly rising and no zero byte listed. -/
def Memory.wf : Memory → Bool
  | [] => true
  | [c] => decide (c.2 ≠ 0)
  | c :: d :: t => decide (c.1 < d.1) && decide (c.2 ≠ 0) && Memory.wf (d :: t)

/-- Little-endian number of a list of bytes (spec/00_scope.md R5). -/
def leNat : List Byte → Nat
  | [] => 0
  | b :: t => b.toNat + 256 * leNat t

/-- The `n` little-endian bytes of a number (spec/00_scope.md R5). -/
def leBytes : Nat → Nat → List Byte
  | 0, _ => []
  | n + 1, v => BitVec.ofNat 8 v :: leBytes n (v / 256)

/-- Big-endian number of a list of bytes (spec/00_scope.md R6). -/
def beNat (l : List Byte) : Nat := l.foldl (fun a b => a * 256 + b.toNat) 0

/-- The `n` big-endian bytes of a number. -/
def beBytes (n v : Nat) : List Byte := (leBytes n v).reverse

/-- Bits `[lo + n - 1 : lo]` of a number (spec/00_scope.md R4). -/
def bits (v lo n : Nat) : Nat := v / 2 ^ lo % 2 ^ n

/-- One bit of a number. -/
def bit (v k : Nat) : Bool := bits v k 1 = 1

/-- A Boolean as a bit. -/
def b2n (b : Bool) : Nat := if b then 1 else 0

end Sys2Proof.Machine
end

