-- ==== Sys2Proof/Machine/Float.lean ====
section
/-! DEFINITION. Exact values of the floating-point encodings, rounding, and binary32 arithmetic
(spec/02_numerics.md R41, R42, R53, R63 to R69). -/

namespace Sys2Proof.Machine

/-- A decoded value: a NaN, an infinity, or `m * 2 ^ e` with a sign. -/
inductive Fv where
  | nan
  | inf (neg : Bool)
  | fin (neg : Bool) (m : Nat) (e : Int)
  deriving DecidableEq, Repr

/-- A floating-point element encoding (spec/02_numerics.md Table 2.1): exponent and mantissa widths, bias, the largest
finite code, and whether an infinity exists. -/
structure Ffmt where
  eb : Nat
  mb : Nat
  bias : Nat
  maxCode : Nat
  hasInf : Bool
  hasNan : Bool
  deriving DecidableEq, Repr

def fp32 : Ffmt := ⟨8, 23, 127, 0x7F7FFFFF, true, true⟩
def bf16 : Ffmt := ⟨8, 7, 127, 0x7F7F, true, true⟩
def fp16 : Ffmt := ⟨5, 10, 15, 0x7BFF, true, true⟩
def e4m3 : Ffmt := ⟨4, 3, 7, 0x7E, false, true⟩
def e5m2 : Ffmt := ⟨5, 2, 15, 0x7B, true, true⟩
def e3m2 : Ffmt := ⟨3, 2, 3, 0x1F, false, false⟩
def e2m3 : Ffmt := ⟨2, 3, 1, 0x1F, false, false⟩
def e2m1 : Ffmt := ⟨2, 1, 1, 0x7, false, false⟩

/-- The exponent of the subnormal spacing. -/
def Ffmt.eSub (f : Ffmt) : Int := 1 - (f.bias : Int) - (f.mb : Int)

/-- The value that a code encodes (spec/02_numerics.md R41). -/
def Ffmt.decode (f : Ffmt) (c : Nat) : Fv :=
  let neg := bit c (f.eb + f.mb)
  let mag := c % 2 ^ (f.eb + f.mb)
  if f.maxCode < mag then
    if f.hasInf && mag % 2 ^ f.mb = 0 then .inf neg
    else if f.hasNan then .nan
    else .fin neg 0 0
  else
    let ex := mag / 2 ^ f.mb
    let mant := mag % 2 ^ f.mb
    if ex = 0 then .fin neg mant f.eSub
    else .fin neg (2 ^ f.mb + mant) (f.eSub + (ex : Int) - 1)

/-- Rounding modes: to nearest even, or stochastic with a 16-bit draw (spec/02_numerics.md R53). -/
inductive Rnd where
  | rne
  | sr (draw : Nat)
  deriving DecidableEq, Repr

/-- `m * 2 ^ k` rounded to an integer by R53 of spec/02_numerics.md. -/
def roundMag (r : Rnd) (m : Nat) (k : Int) : Nat :=
  if 0 ≤ k then m * 2 ^ k.toNat
  else
    let d := 2 ^ (-k).toNat
    let q := m / d
    let rem := m % d
    match r with
    | .rne => if d < 2 * rem ∨ (2 * rem = d ∧ q % 2 = 1) then q + 1 else q
    | .sr draw => if 2 ^ 16 ≤ rem * 2 ^ 16 / d + draw then q + 1 else q

/-- The exponent of the spacing `u` of destination values in the binade of `m * 2 ^ e` (spec/02_numerics.md R53). -/
def Ffmt.spacing (f : Ffmt) (m : Nat) (e : Int) : Int :=
  max ((m.log2 : Int) + e - (f.mb : Int)) f.eSub

/-- The magnitude code of `m * 2 ^ e` rounded, not yet limited. -/
def Ffmt.magCode (f : Ffmt) (r : Rnd) (m : Nat) (e : Int) : Nat :=
  if m = 0 then 0
  else
    let u := f.spacing m e
    (u - f.eSub).toNat * 2 ^ f.mb + roundMag r m (e - u)

/-- A magnitude code with a sign. -/
def Ffmt.signed (f : Ffmt) (neg : Bool) (mag : Nat) : Nat := b2n neg * 2 ^ (f.eb + f.mb) + mag

/-- The code of an infinity of an encoding that has one. -/
def Ffmt.infCode (f : Ffmt) : Nat := (2 ^ f.eb - 1) * 2 ^ f.mb

/-- The canonical quiet NaN (spec/02_numerics.md R42). -/
def Ffmt.nanCode (f : Ffmt) : Nat := f.infCode + 2 ^ (f.mb - 1)

/-- A value in an encoding as IEEE 754 rounds it to nearest even, overflowing to an infinity. -/
def Ffmt.encodeIeee (f : Ffmt) : Fv → Nat
  | .nan => f.nanCode
  | .inf n => f.signed n f.infCode
  | .fin n m e =>
    let c := f.magCode .rne m e
    f.signed n (if f.infCode ≤ c then f.infCode else c)

/-- Compare `a * 2 ^ ea` with `b * 2 ^ eb`: is the first larger? -/
def dyLt (b : Nat) (eb : Int) (a : Nat) (ea : Int) : Bool :=
  let e := min ea eb
  decide (b * 2 ^ (eb - e).toNat < a * 2 ^ (ea - e).toNat)

/-- The signed mantissa of a finite value at an exponent no higher than its own. -/
def atExp (n : Bool) (m : Nat) (e lo : Int) : Int :=
  let v : Int := (m * 2 ^ (e - lo).toNat : Nat)
  if n then -v else v

/-- A finite value from a signed mantissa, `zneg` being the sign of a zero. -/
def ofMant (zneg : Bool) (v : Int) (e : Int) : Fv :=
  if v = 0 then .fin zneg 0 0 else .fin (decide (v < 0)) v.natAbs e

/-- The exact sum of two values, with the IEEE 754 sign of a zero sum under round to nearest even. -/
def Fv.add : Fv → Fv → Fv
  | .nan, _ => .nan
  | _, .nan => .nan
  | .inf a, .inf b => if a = b then .inf a else .nan
  | .inf a, _ => .inf a
  | _, .inf b => .inf b
  | .fin n1 m1 e1, .fin n2 m2 e2 =>
    let lo := min e1 e2
    ofMant (n1 && n2) (atExp n1 m1 e1 lo + atExp n2 m2 e2 lo) lo

/-- A value with its sign changed. -/
def Fv.neg : Fv → Fv
  | .nan => .nan
  | .inf a => .inf (!a)
  | .fin n m e => .fin (!n) m e

/-- The exact product of two values. -/
def Fv.mul : Fv → Fv → Fv
  | .nan, _ => .nan
  | _, .nan => .nan
  | .inf a, .inf b => .inf (a != b)
  | .inf a, .fin n m _ => if m = 0 then .nan else .inf (a != n)
  | .fin n m _, .inf a => if m = 0 then .nan else .inf (a != n)
  | .fin n1 m1 e1, .fin n2 m2 e2 => .fin (n1 != n2) (m1 * m2) (e1 + e2)

/-- The integer square root by digits, structurally on the number of digits. -/
def isqrtAux : Nat → Nat → Nat → Nat
  | 0, _, r => r
  | k + 1, v, r =>
    let t := r + 2 ^ k
    isqrtAux k v (if t * t ≤ v then t else r)

/-- A quotient carried to enough bits, with a sticky bit below. -/
def Fv.div : Fv → Fv → Fv
  | .nan, _ => .nan
  | _, .nan => .nan
  | .inf _, .inf _ => .nan
  | .inf a, .fin n _ _ => .inf (a != n)
  | .fin n _ _, .inf a => .fin (n != a) 0 0
  | .fin n1 m1 e1, .fin n2 m2 e2 =>
    if m2 = 0 then (if m1 = 0 then .nan else .inf (n1 != n2))
    else if m1 = 0 then .fin (n1 != n2) 0 0
    else
      let num := m1 * 2 ^ 64
      .fin (n1 != n2) (2 * (num / m2) + b2n (decide (num % m2 ≠ 0))) (e1 - e2 - 65)

/-- A square root carried to enough bits, with a sticky bit below. -/
def Fv.sqrt : Fv → Fv
  | .nan => .nan
  | .inf a => if a then .nan else .inf false
  | .fin n m e =>
    if m = 0 then .fin n 0 0
    else if n then .nan
    else
      let odd := e % 2 = 1
      let v := m * 2 ^ (if odd then 65 else 64)
      let e' := (if odd then e - 65 else e - 64) / 2
      let r := isqrtAux 96 v 0
      .fin false (2 * r + b2n (decide (r * r ≠ v))) (e' - 1)

/-- The value of a binary32 word. -/
def f32v (a : W32) : Fv := fp32.decode a.toNat

/-- A value rounded to binary32 to nearest even. -/
def toF32 (v : Fv) : W32 := BitVec.ofNat 32 (fp32.encodeIeee v)

/-- binary32 addition, subtraction, multiplication, fused multiply and add, division and square root, correctly
rounded to nearest even (spec/02_numerics.md R68). -/
def fadd (a b : W32) : W32 := toF32 ((f32v a).add (f32v b))
def fsub (a b : W32) : W32 := toF32 ((f32v a).add (f32v b).neg)
def fmul (a b : W32) : W32 := toF32 ((f32v a).mul (f32v b))
def ffma (a b c : W32) : W32 := toF32 (((f32v a).mul (f32v b)).add (f32v c))
def fdiv (a b : W32) : W32 := toF32 ((f32v a).div (f32v b))
def fsqrt (a : W32) : W32 := toF32 (f32v a).sqrt

/-- Is a binary32 word finite? -/
def isFinite (a : W32) : Bool :=
  match f32v a with
  | .fin _ _ _ => true
  | _ => false

/-- Is a binary32 word a NaN? -/
def isNan (a : W32) : Bool :=
  match f32v a with
  | .nan => true
  | _ => false

/-- The canonical quiet NaN in binary32 (spec/02_numerics.md R42). -/
def qnan : W32 := 0x7FC00000

/-- A result of an operation, a NaN made canonical (spec/02_numerics.md R42). -/
def canon (a : W32) : W32 := if isNan a then qnan else a

/-- The absolute value of a binary32 word, a NaN made canonical (spec/02_numerics.md R42). -/
def fabs (a : W32) : W32 := canon (a &&& 0x7FFFFFFF)

/-- The rank of a value in the order of spec/02_numerics.md R67, a NaN having none:
minus infinity, negative finite, minus zero, plus zero, positive finite, plus infinity. -/
def orderKey (a : W32) : Int :=
  if bit a.toNat 31 then -1 - (bits a.toNat 0 31 : Int) else (bits a.toNat 0 31 : Int)

/-- Is one binary32 value above another in the order of spec/02_numerics.md R67? Neither is a NaN. -/
def ordGt (a b : W32) : Bool := decide (orderKey b < orderKey a)

/-- A value with its 32-bit index (spec/02_numerics.md R67). -/
abbrev IdxPair := W32 × W32

/-- The combining rule of maximum with index (spec/02_numerics.md R67); `mx` false gives minimum. -/
def combIdx (mx : Bool) (a b : IdxPair) : IdxPair :=
  let low := if a.2.toNat ≤ b.2.toNat then a else b
  if isNan a.1 && isNan b.1 then low
  else if isNan a.1 then a
  else if isNan b.1 then b
  else if (if mx then ordGt a.1 b.1 else ordGt b.1 a.1) then a
  else if (if mx then ordGt b.1 a.1 else ordGt a.1 b.1) then b
  else low

/-- The reduction of a set of pairs to its winner, a NaN made canonical (spec/02_numerics.md R67). -/
def reduceIdx (mx : Bool) (l : List IdxPair) : IdxPair :=
  match l with
  | [] => (0, 0)
  | a :: t =>
    let w := t.foldl (combIdx mx) a
    if isNan w.1 then (qnan, w.2) else w

/-- Maximum or minimum of two values without an index (spec/02_numerics.md R67, R68). -/
def fmaxmin (mx : Bool) (a b : W32) : W32 := (reduceIdx mx [(a, 0), (b, 0)]).1

/-- A compensated pair (spec/02_numerics.md R63). -/
structure CPair where
  s : W32
  c : W32
  deriving DecidableEq, Repr

/-- Compensated addition of an addend to a pair (spec/02_numerics.md R63). -/
def cadd (p : CPair) (a : W32) : CPair :=
  let t := fadd p.s a
  if isFinite t then
    let z := fsub t p.s
    let e := fadd (fsub p.s (fsub t z)) (fsub a z)
    ⟨t, fadd p.c e⟩
  else ⟨t, 0⟩

/-- The read-out of a pair (spec/02_numerics.md R64). -/
def cread (p : CPair) : W32 :=
  if isFinite p.s then fadd p.s p.c else if isNan p.s then qnan else p.s

/-- Saturating addition into an INT32 entry, with whether it saturated (spec/02_numerics.md R66). -/
def satAdd32 (a : Int) (b : Int) : Int × Bool :=
  let t := a + b
  if 2 ^ 31 - 1 < t then (2 ^ 31 - 1, true)
  else if t < -(2 ^ 31) then (-(2 ^ 31), true)
  else (t, false)

end Sys2Proof.Machine
end

