-- ==== Sys2Proof/Machine/Convert.lean ====
section
/-! DEFINITION. The format descriptor, the stochastic-rounding generator, block-scaled conversion and its counters, and
reading of narrow data (spec/02_numerics.md R45 to R62, R71). -/

namespace Sys2Proof.Machine

/-- A 16-bit format descriptor (spec/02_numerics.md Table 2.2). -/
structure FmtD where
  salt : Nat
  sr : Bool
  fit : Bool
  blk : Nat
  fmt : Nat
  deriving DecidableEq, Repr

/-- The fields of a descriptor word. -/
def fmtOf (w : Nat) : FmtD := ⟨bits w 8 8, bit w 7, bit w 6, bits w 4 2, bits w 0 4⟩

/-- The block size in elements. -/
def FmtD.block (d : FmtD) : Nat := 16 * 2 ^ d.blk

/-- Is the format block-scaled (spec/02_numerics.md Table 2.3)? -/
def FmtD.scaled (d : FmtD) : Bool := decide (5 ≤ d.fmt) && decide (d.fmt ≤ 10)

/-- The width of an element in bits. -/
def fmtBits (fmt : Nat) : Nat :=
  match fmt with
  | 0 => 32 | 1 => 16 | 2 => 16 | 3 => 8 | 4 => 8 | 5 => 8 | 6 => 8 | 7 => 6 | 8 => 6 | 9 => 4 | 10 => 8 | 11 => 8
  | 12 => 32 | _ => 8

/-- The floating-point encoding of a format, none for the integer formats. -/
def fmtFloat (fmt : Nat) : Option Ffmt :=
  match fmt with
  | 0 => some fp32 | 1 => some bf16 | 2 => some fp16 | 3 => some e4m3 | 4 => some e5m2 | 5 => some e4m3
  | 6 => some e5m2 | 7 => some e3m2 | 8 => some e2m3 | 9 => some e2m1 | _ => none

/-- The check of a descriptor word where it is loaded (spec/02_numerics.md R46): the fault code, or none. `write` is
whether it describes a write. -/
def fmtCheck (write : Bool) (w : Nat) : Option Nat :=
  let d := fmtOf w
  if 13 ≤ d.fmt then some 0x0201
  else if !d.scaled && (d.blk ≠ 0 || d.fit) then some 0x0202
  else if d.sr && (d.fmt = 0 || d.fmt = 11 || d.fmt = 12) then some 0x0202
  else if !write && (d.sr || d.fit || d.salt ≠ 0) then some 0x0202
  else if write && (d.fmt = 3 || d.fmt = 4) then some 0x0203
  else none

/-- The element exponent of a block-scaled format (spec/02_numerics.md Table 2.4). -/
def emax (fmt : Nat) : Int :=
  match fmt with
  | 5 => 8 | 6 => 15 | 7 => 4 | 8 => 2 | 9 => 2 | _ => 0

/-- The largest finite element of a block-scaled format as `m * 2 ^ e`. -/
def maxFinite (fmt : Nat) : Nat × Int :=
  match fmtFloat fmt with
  | some f =>
    match f.decode f.maxCode with
    | .fin _ m e => (m, e)
    | _ => (0, 0)
  | none => (127, -6)

/-- Counter increments of a conversion (spec/02_numerics.md Table 2.9). -/
structure Cnt where
  sat : Nat := 0
  uflow : Nat := 0
  nonfin : Nat := 0
  isat : Nat := 0
  deriving DecidableEq, Repr

/-- The sum of two sets of increments. -/
def Cnt.add (a b : Cnt) : Cnt := ⟨a.sat + b.sat, a.uflow + b.uflow, a.nonfin + b.nonfin, a.isat + b.isat⟩

/-- The largest magnitude of a list of finite values, as `m * 2 ^ e`. -/
def amax : List Fv → Nat × Int
  | [] => (0, 0)
  | .fin _ m e :: t =>
    let r := amax t
    if dyLt r.1 r.2 m e then (m, e) else r
  | _ :: t => amax t

/-- The scale exponent of a block of finite values (spec/02_numerics.md R50). -/
def chooseScale (fmt : Nat) (fit : Bool) (vs : List Fv) : Int :=
  let a := amax vs
  if a.1 = 0 then 0
  else
    let x := (a.1.log2 : Int) + a.2 - emax fmt
    let mf := maxFinite fmt
    let x := if fit && dyLt mf.1 mf.2 a.1 (a.2 - x) then x + 1 else x
    if 127 < x then 127 else if x < -127 then -127 else x

/-- A signed integer as a code of `n` bits. -/
def intCode (n : Nat) (neg : Bool) (m : Nat) : Nat := if neg then (2 ^ n - m % 2 ^ n) % 2 ^ n else m % 2 ^ n

/-- A finite value `m * 2 ^ e` converted to a floating-point encoding with saturation (spec/02_numerics.md R53, R54),
with its counter increments. -/
def convFloat (f : Ffmt) (r : Rnd) (n : Bool) (m : Nat) (e : Int) : Nat × Cnt :=
  let mf := match f.decode f.maxCode with
    | .fin _ m e => (m, e)
    | _ => (0, 0)
  if dyLt mf.1 mf.2 m e then (f.signed n f.maxCode, { sat := 1 })
  else
    let c := f.magCode r m e
    (f.signed n c, { uflow := b2n (decide (m ≠ 0 ∧ c = 0)) })

/-- A finite value converted to an integer of `w` bits between limits (spec/02_numerics.md R53, R54). -/
def convInt (w : Nat) (lo hi : Nat) (r : Rnd) (n : Bool) (m : Nat) (e : Int) : Nat × Cnt :=
  let lim := if n then lo else hi
  if dyLt lim 0 m e then (intCode w n lim, { sat := 1 })
  else
    let q := roundMag r m e
    (intCode w n q, { uflow := b2n (decide (m ≠ 0 ∧ q = 0)) })

/-- One element of a block whose scale exponent is `x` (spec/02_numerics.md R52). -/
def convElem (fmt : Nat) (x : Int) (r : Rnd) : Fv → Nat × Cnt
  | .fin n m e =>
    match fmtFloat fmt with
    | some f => convFloat f r n m (e - x)
    | none => convInt 8 127 127 r n m (e - x + 6)
  | _ => (0, {})

/-- One value converted to a format that is not block-scaled (spec/02_numerics.md R53 to R55). -/
def convPlain (fmt : Nat) (r : Rnd) (v : Fv) : Nat × Cnt :=
  match fmtFloat fmt with
  | some f =>
    match v with
    | .nan => (f.nanCode, if fmt = 0 then {} else { nonfin := 1 })
    | .inf n => (f.signed n f.infCode, if fmt = 0 then {} else { nonfin := 1 })
    | .fin n m e => if fmt = 0 then (f.encodeIeee v, {}) else convFloat f r n m e
  | none =>
    let w := if fmt = 12 then 32 else 8
    let hi := if fmt = 12 then 2 ^ 31 - 1 else 127
    match v with
    | .nan => (0, { nonfin := 1 })
    | .inf n => (intCode w n (if n then hi + 1 else hi), { nonfin := 1 })
    | .fin n m e => convInt w (hi + 1) hi r n m e

/-- The bit mixer of the generator (spec/02_numerics.md R57). -/
def srMix (x : W32) : W32 :=
  let x := (x ^^^ (x >>> 16)) * 0x7FEB352D
  let x := (x ^^^ (x >>> 15)) * 0x846CA68B
  x ^^^ (x >>> 16)

/-- The key of the generator (spec/02_numerics.md R57). -/
def srKey (s m h t : Nat) : W32 :=
  let k := srMix (0x4C505431 ^^^ BitVec.ofNat 32 s)
  let k := srMix (k ^^^ BitVec.ofNat 32 (s / 2 ^ 32))
  let k := srMix (k ^^^ BitVec.ofNat 32 m)
  let k := srMix (k ^^^ BitVec.ofNat 32 h)
  srMix (k ^^^ BitVec.ofNat 32 t)

/-- A 16-bit draw (spec/02_numerics.md R57). -/
def srDraw (k : W32) (i : Nat) : Nat :=
  (srMix (srMix (k ^^^ BitVec.ofNat 32 i) ^^^ BitVec.ofNat 32 (i / 2 ^ 32)) >>> 16).toNat

/-- The inputs of the generator for one conversion (spec/02_numerics.md Table 2.6). -/
structure Seed where
  step : Nat
  module : Nat
  shard : Nat
  first : Nat
  deriving DecidableEq, Repr

/-- The rounding of element `i` of a conversion under a descriptor. -/
def FmtD.rnd (d : FmtD) (sd : Seed) (i : Nat) : Rnd :=
  if d.sr then .sr (srDraw (srKey sd.step sd.module sd.shard d.salt) (sd.first + i)) else .rne

/-- Elements of a block converted one after another from index `i`. -/
def convElems (d : FmtD) (sd : Seed) (x : Int) : Nat → List Fv → List Nat × Cnt
  | _, [] => ([], {})
  | i, v :: t =>
    let a := convElem d.fmt x (d.rnd sd i) v
    let r := convElems d sd x (i + 1) t
    (a.1 :: r.1, a.2.add r.2)

/-- The number of non-finite values of a list. -/
def nonFinite (vs : List Fv) : Nat :=
  (vs.filter fun v => match v with | .fin _ _ _ => false | _ => true).length

/-- One block: its scale byte, the codes of a whole block with zero codes as padding, and the increments
(spec/02_numerics.md R48, R50 to R52). -/
def convBlock (d : FmtD) (sd : Seed) (i : Nat) (vs : List Fv) : Nat × List Nat × Cnt :=
  let pad := List.replicate (d.block - vs.length) 0
  if nonFinite vs ≠ 0 then (0xFF, List.replicate vs.length 0 ++ pad, { nonfin := nonFinite vs })
  else
    let x := chooseScale d.fmt d.fit vs
    let r := convElems d sd x i vs
    ((x + 127).toNat, r.1 ++ pad, r.2)

/-- The blocks of a row, one after another; the first argument bounds the recursion. -/
def convBlocks (d : FmtD) (sd : Seed) : Nat → Nat → List Fv → List Nat × List Nat × Cnt
  | 0, _, _ => ([], [], {})
  | k + 1, i, vs =>
    if vs.isEmpty then ([], [], {})
    else
      let b := convBlock d sd i (vs.take d.block)
      let r := convBlocks d sd k (i + d.block) (vs.drop d.block)
      (b.1 :: r.1, b.2.1 ++ r.2.1, b.2.2.add r.2.2)

/-- Values converted one by one to a format that is not block-scaled. -/
def convPlains (d : FmtD) (sd : Seed) : Nat → List Fv → List Nat × Cnt
  | _, [] => ([], {})
  | i, v :: t =>
    let a := convPlain d.fmt (d.rnd sd i) v
    let r := convPlains d sd (i + 1) t
    (a.1 :: r.1, a.2.add r.2)

/-- A row of binary32 words converted by a descriptor: scale bytes, element codes and increments. -/
def convRow (d : FmtD) (sd : Seed) (ws : List W32) : List Nat × List Nat × Cnt :=
  let vs := ws.map f32v
  if d.scaled then convBlocks d sd vs.length 0 vs
  else
    let r := convPlains d sd 0 vs
    ([], r.1, r.2)

/-- Codes of `w` bits packed in index order into a little-endian bit stream (spec/02_numerics.md R47). -/
def packNat (w : Nat) : List Nat → Nat
  | [] => 0
  | c :: t => c % 2 ^ w + 2 ^ w * packNat w t

/-- The bytes of an element plane (spec/02_numerics.md R47). -/
def packCodes (w : Nat) (l : List Nat) : List Byte := leBytes (ceilDiv (w * l.length) 8) (packNat w l)

/-- `n` codes of `w` bits from the bytes of an element plane. -/
def unpackCodes (w n : Nat) (bs : List Byte) : List Nat :=
  let v := leNat bs
  (List.range n).map fun k => bits v (w * k) w

/-- The value of an element of a format under a scale byte, which formats without a scale ignore
(spec/02_numerics.md R43, R51, R60). -/
def elemValue (fmt : Nat) (scale : Nat) (c : Nat) : Fv :=
  let sint (w : Nat) (e : Int) : Fv := .fin (bit c (w - 1)) (if bit c (w - 1) then 2 ^ w - c % 2 ^ w else c % 2 ^ w) e
  if 5 ≤ fmt ∧ fmt ≤ 10 then
    if scale = 0xFF then .nan
    else
      let x : Int := (scale : Int) - 127
      match fmtFloat fmt with
      | some f =>
        match f.decode c with
        | .fin n m e => .fin n m (e + x)
        | v => v
      | none => sint 8 (x - 6)
  else
    match fmtFloat fmt with
    | some f => f.decode c
    | none => if fmt = 12 then sint 32 0 else sint 8 0

/-- A signed integer element. -/
def elemInt (w c : Nat) : Int := if bit c (w - 1) then (c % 2 ^ w : Nat) - 2 ^ w else ((c % 2 ^ w : Nat) : Int)

/-- The exact sum of the products of a dot group of floating-point or MX operands (spec/02_numerics.md R61, R62). The
list holds the operand pairs. -/
def dotSum : List (Fv × Fv) → Fv
  | [] => .fin false 0 0
  | (a, b) :: t => (a.mul b).add (dotSum t)

/-- A dot group of floating-point or MX operands rounded once to binary32 (spec/02_numerics.md R61). -/
def dotF32 (l : List (Fv × Fv)) : W32 := toF32 (dotSum l)

/-- The exact integer sum of a dot group of INT8 operands (spec/02_numerics.md R61). -/
def dotInt : List (Int × Int) → Int
  | [] => 0
  | (a, b) :: t => a * b + dotInt t

end Sys2Proof.Machine
end

