-- ==== Sys2Proof/Machine/Regs.lean ====
section
/-! DEFINITION. The registers of BAR0 and of the tile configuration space: one description per register with its
fields, their types (spec/00_scope.md Table 0.1) and their reset values, and one name per field. The offsets of
the tile configuration space are kept from `tileSpace` up, so that one table holds both spaces. -/

namespace Sys2Proof.Machine

/-- Where this model keeps the offsets of the tile configuration space. -/
def tileSpace : Nat := 0x100000

/-- Register field types (spec/00_scope.md Table 0.1). -/
inductive FTy where
  | ro | rc | w1c | wo | st
  deriving DecidableEq, Repr

/-- One field of a register: its bits, its type and its reset value. -/
structure FDesc where
  hi : Nat
  lo : Nat
  ty : FTy
  rst : Nat
  deriving DecidableEq, Repr

/-- One register: its offset in the first instance of its block, the instances and their stride, the entries of an
array of registers and their stride, its width and its fields. -/
structure RDesc where
  base : Nat
  n : Nat
  stride : Nat
  n2 : Nat
  stride2 : Nat
  width : Nat
  flds : List FDesc
  deriving DecidableEq, Repr

/-- A field by the offset of its register and its bits. -/
structure Fld where
  off : Nat
  hi : Nat
  lo : Nat
  deriving DecidableEq, Repr

/-- The key under which a register file keeps a field. -/
def Fld.key (f : Fld) : Nat := f.off * 64 + f.lo

/-- How many bits a field has. -/
def Fld.width (f : Fld) : Nat := f.hi + 1 - f.lo

/-- Registers of spec/01_module_overview.md R38. -/
def regs_gc_01 : List RDesc := [
  ⟨0x0, 1, 0x0, 1, 0x0, 32,
    [⟨31, 16, .ro, 0x2304⟩, ⟨15, 0, .ro, 0⟩]⟩,
  ⟨0x4, 1, 0x0, 1, 0x0, 32,
    [⟨15, 8, .ro, 0x41⟩, ⟨7, 0, .ro, 0x01⟩]⟩,
  ⟨0x8, 1, 0x0, 1, 0x0, 32,
    [⟨31, 27, .ro, 0x18⟩, ⟨26, 23, .ro, 0x8⟩, ⟨22, 18, .ro, 0x18⟩, ⟨17, 12, .ro, 0x24⟩, ⟨11, 0, .ro, 0x900⟩]⟩,
  ⟨0x10, 1, 0x0, 1, 0x0, 64,
    [⟨63, 12, .st, 0⟩]⟩,
  ⟨0x18, 1, 0x0, 1, 0x0, 32,
    [⟨0, 0, .wo, 0⟩]⟩,
  ⟨0x20, 1, 0x0, 1, 0x0, 32,
    [⟨4, 4, .ro, 0⟩, ⟨3, 3, .ro, 0⟩, ⟨2, 0, .ro, 0⟩]⟩]

/-- Registers of spec/14_reset_bringup_selftest.md R461. -/
def regs_gc_14 : List RDesc := [
  ⟨0x40, 1, 0x0, 1, 0x0, 32,
    [⟨31, 16, .ro, 0⟩, ⟨8, 8, .ro, 0⟩, ⟨7, 6, .ro, 0⟩, ⟨3, 0, .ro, 0⟩]⟩,
  ⟨0x44, 1, 0x0, 1, 0x0, 32,
    [⟨3, 2, .ro, 0⟩, ⟨1, 0, .ro, 0⟩]⟩,
  ⟨0x48, 1, 0x0, 1, 0x0, 32,
    [⟨13, 13, .ro, 0⟩, ⟨12, 12, .ro, 0⟩, ⟨11, 11, .ro, 0⟩, ⟨10, 9, .ro, 0⟩, ⟨8, 7, .ro, 0⟩, ⟨6, 6, .ro, 0⟩, ⟨5, 5, .ro, 0⟩, ⟨4, 4, .ro, 0⟩]⟩,
  ⟨0x50, 1, 0x0, 1, 0x0, 32,
    [⟨31, 16, .st, 0x0100⟩]⟩,
  ⟨0x58, 1, 0x0, 1, 0x0, 64,
    [⟨63, 32, .ro, 0⟩, ⟨12, 8, .ro, 0⟩, ⟨2, 2, .ro, 0⟩, ⟨1, 1, .ro, 0⟩, ⟨0, 0, .ro, 0⟩]⟩,
  ⟨0x60, 1, 0x0, 1, 0x0, 32,
    [⟨31, 16, .ro, 0⟩, ⟨15, 0, .ro, 0⟩]⟩,
  ⟨0x100, 1, 0x0, 8, 0x4, 32,
    [⟨31, 0, .ro, 0⟩]⟩]

/-- Registers of spec/15_faults_and_safe_state.md R474. -/
def regs_gc_15 : List RDesc := [
  ⟨0x200, 1, 0x0, 1, 0x0, 32,
    [⟨1, 1, .st, 0⟩, ⟨0, 0, .st, 0⟩]⟩,
  ⟨0x210, 1, 0x0, 4, 0x8, 64,
    [⟨63, 0, .ro, 0⟩]⟩,
  ⟨0x230, 1, 0x0, 4, 0x8, 64,
    [⟨63, 0, .ro, 0⟩]⟩]

/-- Registers of spec/11_host_interface_and_command_tape.md R379. -/
def regs_tp_11 : List RDesc := [
  ⟨0x1000, 1, 0x0, 1, 0x0, 32,
    [⟨31, 24, .ro, 1⟩, ⟨23, 16, .ro, 0⟩, ⟨15, 8, .ro, 1⟩, ⟨7, 0, .ro, 0⟩]⟩,
  ⟨0x1008, 1, 0x0, 1, 0x0, 64,
    [⟨63, 48, .st, 0⟩, ⟨47, 12, .st, 0⟩]⟩,
  ⟨0x1010, 1, 0x0, 1, 0x0, 32,
    [⟨31, 0, .st, 0⟩]⟩,
  ⟨0x1018, 1, 0x0, 1, 0x0, 64,
    [⟨63, 6, .st, 0⟩]⟩,
  ⟨0x1020, 1, 0x0, 1, 0x0, 32,
    [⟨16, 0, .st, 0⟩]⟩,
  ⟨0x1028, 1, 0x0, 1, 0x0, 64,
    [⟨63, 48, .st, 0x0010⟩, ⟨47, 32, .st, 0x0400⟩, ⟨31, 16, .st, 0x0040⟩, ⟨0, 0, .st, 0⟩]⟩,
  ⟨0x1030, 1, 0x0, 1, 0x0, 32,
    [⟨1, 1, .wo, 0⟩, ⟨0, 0, .wo, 0⟩]⟩,
  ⟨0x1038, 1, 0x0, 1, 0x0, 64,
    [⟨63, 32, .ro, 0⟩, ⟨31, 10, .ro, 0⟩, ⟨2, 0, .ro, 0⟩]⟩,
  ⟨0x1040, 1, 0x0, 1, 0x0, 32,
    [⟨24, 16, .ro, 0⟩, ⟨8, 0, .ro, 0⟩]⟩,
  ⟨0x1048, 1, 0x0, 1, 0x0, 32,
    [⟨31, 0, .ro, 0⟩]⟩,
  ⟨0x1050, 1, 0x0, 1, 0x0, 32,
    [⟨12, 10, .ro, 0⟩, ⟨9, 4, .ro, 0⟩, ⟨3, 3, .ro, 0⟩, ⟨2, 2, .ro, 0⟩, ⟨1, 0, .ro, 0⟩]⟩]

/-- Registers of spec/04_fabric_tokens_and_steering.md R146. -/
def regs_fab_04 : List RDesc := [
  ⟨0x4000, 1, 0x0, 1, 0x0, 32,
    [⟨15, 8, .st, 0x08⟩, ⟨0, 0, .st, 1⟩]⟩,
  ⟨0x4008, 1, 0x0, 1, 0x0, 32,
    [⟨0, 0, .wo, 0⟩]⟩,
  ⟨0x4010, 1, 0x0, 1, 0x0, 32,
    [⟨0, 0, .ro, 0⟩]⟩]

/-- Registers of spec/06_progress_deadlock_drain.md R216. -/
def regs_fab_06 : List RDesc := [
  ⟨0x4100, 1, 0x0, 1, 0x0, 64,
    [⟨63, 48, .st, 0x0040⟩, ⟨47, 32, .st, 0x0010⟩, ⟨31, 16, .st, 0x0100⟩, ⟨1, 1, .st, 1⟩, ⟨0, 0, .st, 1⟩]⟩,
  ⟨0x4108, 1, 0x0, 1, 0x0, 64,
    [⟨63, 48, .st, 0x0100⟩, ⟨47, 20, .st, 0xBFF00⟩]⟩,
  ⟨0x4110, 1, 0x0, 1, 0x0, 32,
    [⟨0, 0, .wo, 0⟩]⟩,
  ⟨0x4118, 1, 0x0, 1, 0x0, 64,
    [⟨63, 40, .ro, 0xF800⟩, ⟨39, 23, .ro, 0⟩, ⟨5, 3, .ro, 0⟩, ⟨2, 0, .ro, 0⟩]⟩,
  ⟨0x4120, 1, 0x0, 1, 0x0, 64,
    [⟨35, 0, .ro, 0⟩]⟩]

/-- Registers of spec/05_patterns_and_reconfiguration.md R190. -/
def regs_pl_05 : List RDesc := [
  ⟨0x8000, 1, 0x0, 1, 0x0, 32,
    [⟨15, 8, .ro, 1⟩, ⟨7, 0, .ro, 0⟩]⟩,
  ⟨0x8008, 1, 0x0, 1, 0x0, 32,
    [⟨31, 28, .ro, 0⟩, ⟨27, 24, .ro, 0⟩, ⟨23, 23, .ro, 0⟩, ⟨22, 20, .ro, 0⟩, ⟨11, 0, .ro, 0⟩]⟩,
  ⟨0x8010, 1, 0x0, 1, 0x0, 32,
    [⟨31, 0, .ro, 1⟩]⟩,
  ⟨0x8018, 1, 0x0, 1, 0x0, 32,
    [⟨31, 16, .st, 0x0400⟩, ⟨15, 8, .st, 0x04⟩]⟩,
  ⟨0x8020, 1, 0x0, 1, 0x0, 32,
    [⟨0, 0, .wo, 0⟩]⟩,
  ⟨0x8028, 1, 0x0, 1, 0x0, 64,
    [⟨63, 32, .ro, 0⟩, ⟨31, 0, .ro, 0⟩]⟩,
  ⟨0x8030, 1, 0x0, 1, 0x0, 64,
    [⟨63, 48, .ro, 0⟩, ⟨47, 32, .ro, 0⟩, ⟨31, 0, .ro, 0⟩]⟩]

/-- Registers of spec/08_memory_system.md R282. -/
def regs_mc_08 : List RDesc := [
  ⟨0x10000, 24, 0x400, 1, 0x0, 64,
    [⟨63, 48, .st, 0x0400⟩, ⟨47, 32, .st, 0x0100⟩, ⟨31, 24, .st, 0x04⟩, ⟨23, 16, .st, 0x10⟩, ⟨15, 8, .st, 0x55⟩, ⟨1, 1, .st, 1⟩, ⟨0, 0, .st, 1⟩]⟩,
  ⟨0x10008, 24, 0x400, 1, 0x0, 32,
    [⟨0, 0, .wo, 0⟩]⟩,
  ⟨0x10010, 24, 0x400, 1, 0x0, 32,
    [⟨23, 16, .ro, 0x40⟩, ⟨11, 8, .ro, 0⟩, ⟨7, 4, .ro, 0⟩, ⟨0, 0, .ro, 0⟩]⟩,
  ⟨0x10018, 24, 0x400, 1, 0x0, 64,
    [⟨63, 32, .ro, 0⟩, ⟨31, 30, .ro, 0⟩, ⟨29, 28, .ro, 0⟩, ⟨27, 27, .ro, 0⟩]⟩,
  ⟨0x10020, 24, 0x400, 1, 0x0, 64,
    [⟨63, 62, .ro, 0⟩, ⟨61, 58, .ro, 0⟩, ⟨57, 40, .ro, 0⟩]⟩,
  ⟨0x10040, 24, 0x400, 4, 0x8, 64,
    [⟨63, 0, .ro, 0⟩]⟩,
  ⟨0x10100, 24, 0x400, 1, 0x0, 64,
    [⟨63, 62, .wo, 0⟩, ⟨61, 58, .wo, 0⟩, ⟨57, 40, .wo, 0⟩, ⟨39, 36, .wo, 0⟩, ⟨23, 16, .wo, 0⟩, ⟨15, 8, .wo, 0⟩]⟩,
  ⟨0x10108, 24, 0x400, 1, 0x0, 32,
    [⟨9, 9, .ro, 1⟩, ⟨8, 8, .ro, 0⟩, ⟨7, 0, .ro, 0⟩]⟩,
  ⟨0x10200, 24, 0x400, 64, 0x8, 64,
    [⟨55, 54, .ro, 0⟩, ⟨53, 35, .ro, 0⟩, ⟨34, 16, .ro, 0⟩]⟩]

/-- Registers of spec/10_seam_ports_and_collectives.md R344. -/
def regs_sp_10 : List RDesc := [
  ⟨0x20000, 8, 0x1000, 1, 0x0, 64,
    [⟨63, 48, .st, 0x88B5⟩, ⟨47, 36, .st, 0⟩, ⟨35, 33, .st, 3⟩, ⟨32, 32, .st, 0⟩, ⟨31, 24, .st, 0x10⟩, ⟨23, 16, .st, 0x20⟩, ⟨3, 3, .st, 1⟩, ⟨2, 2, .st, 0⟩, ⟨0, 0, .st, 0⟩]⟩,
  ⟨0x20008, 8, 0x1000, 1, 0x0, 64,
    [⟨63, 48, .st, 0x0200⟩, ⟨47, 32, .st, 0x0040⟩, ⟨31, 24, .st, 0x10⟩, ⟨23, 16, .st, 0x04⟩, ⟨15, 0, .st, 0x0040⟩]⟩,
  ⟨0x20010, 8, 0x1000, 1, 0x0, 32,
    [⟨0, 0, .wo, 0⟩]⟩,
  ⟨0x20018, 8, 0x1000, 1, 0x0, 64,
    [⟨63, 50, .ro, 0⟩, ⟨49, 47, .ro, 0⟩, ⟨38, 35, .ro, 0⟩, ⟨34, 31, .ro, 0⟩, ⟨30, 30, .ro, 0⟩, ⟨2, 0, .ro, 0⟩]⟩,
  ⟨0x20020, 8, 0x1000, 1, 0x0, 32,
    [⟨15, 0, .ro, 0⟩]⟩]

/-- Registers of spec/10_seam_ports_and_collectives.md R344. -/
def regs_sg_10 : List RDesc := [
  ⟨0x20800, 1, 0x0, 1, 0x0, 64,
    [⟨63, 32, .st, 0⟩, ⟨31, 8, .st, 0x024C53⟩]⟩,
  ⟨0x20808, 1, 0x0, 1, 0x0, 64,
    [⟨63, 48, .st, 0x0200⟩, ⟨47, 32, .st, 0x0200⟩, ⟨31, 16, .st, 0x1000⟩]⟩,
  ⟨0x20810, 1, 0x0, 1, 0x0, 32,
    [⟨0, 0, .wo, 0⟩]⟩,
  ⟨0x20818, 1, 0x0, 1, 0x0, 32,
    [⟨1, 1, .w1c, 0⟩, ⟨0, 0, .ro, 0⟩]⟩,
  ⟨0x20820, 1, 0x0, 1, 0x0, 64,
    [⟨47, 0, .ro, 0xFFFFFFFFFFFF⟩]⟩]

/-- Registers of spec/07_training_step_and_press.md R251. -/
def regs_prs_07 : List RDesc := [
  ⟨0x30000, 1, 0x0, 1, 0x0, 32,
    [⟨22, 22, .st, 1⟩, ⟨21, 21, .st, 0⟩, ⟨20, 13, .st, 0x10⟩, ⟨12, 0, .st, 0⟩]⟩,
  ⟨0x30008, 1, 0x0, 1, 0x0, 64,
    [⟨47, 8, .st, 0⟩]⟩,
  ⟨0x30010, 1, 0x0, 1, 0x0, 32,
    [⟨31, 0, .st, 0x3F800000⟩]⟩,
  ⟨0x30014, 1, 0x0, 1, 0x0, 32,
    [⟨31, 0, .st, 0x7F800000⟩]⟩,
  ⟨0x30018, 1, 0x0, 1, 0x0, 64,
    [⟨47, 32, .st, 0x0200⟩, ⟨31, 16, .st, 0x1000⟩, ⟨15, 0, .st, 0x0400⟩]⟩,
  ⟨0x30020, 1, 0x0, 1, 0x0, 64,
    [⟨47, 0, .st, 0xFFFFFFFFFFFF⟩]⟩,
  ⟨0x30028, 1, 0x0, 1, 0x0, 32,
    [⟨0, 0, .wo, 0⟩]⟩,
  ⟨0x30030, 1, 0x0, 1, 0x0, 32,
    [⟨6, 6, .ro, 0⟩, ⟨5, 4, .ro, 0⟩, ⟨3, 3, .w1c, 0⟩, ⟨2, 0, .ro, 0⟩]⟩,
  ⟨0x30038, 1, 0x0, 1, 0x0, 64,
    [⟨47, 0, .ro, 0⟩]⟩,
  ⟨0x30040, 1, 0x0, 1, 0x0, 32,
    [⟨31, 0, .ro, 0⟩]⟩,
  ⟨0x30044, 1, 0x0, 1, 0x0, 32,
    [⟨31, 0, .ro, 0⟩]⟩]

/-- Registers of spec/02_numerics.md R70. -/
def regs_num_02 : List RDesc := [
  ⟨0x40000, 1, 0x0, 1, 0x0, 64,
    [⟨47, 0, .st, 0⟩]⟩,
  ⟨0x40008, 1, 0x0, 1, 0x0, 32,
    [⟨13, 0, .st, 0⟩]⟩,
  ⟨0x40010, 1, 0x0, 1, 0x0, 32,
    [⟨0, 0, .wo, 0⟩]⟩]

/-- Registers of spec/02_numerics.md R71. -/
def regs_numcnt_02 : List RDesc := [
  ⟨0x41000, 68, 0x20, 1, 0x0, 64,
    [⟨63, 0, .rc, 0⟩]⟩,
  ⟨0x41008, 68, 0x20, 1, 0x0, 64,
    [⟨63, 0, .rc, 0⟩]⟩,
  ⟨0x41010, 68, 0x20, 1, 0x0, 64,
    [⟨63, 0, .rc, 0⟩]⟩,
  ⟨0x41018, 68, 0x20, 1, 0x0, 64,
    [⟨63, 0, .rc, 0⟩]⟩]

/-- Registers of spec/03_compute_tile.md R103. -/
def regs_psum_03 : List RDesc := [
  ⟨0x42000, 36, 0x80, 8, 0x8, 64,
    [⟨63, 0, .rc, 0⟩]⟩,
  ⟨0x42040, 36, 0x80, 1, 0x0, 64,
    [⟨63, 0, .rc, 0⟩]⟩,
  ⟨0x42048, 36, 0x80, 1, 0x0, 64,
    [⟨63, 0, .rc, 0⟩]⟩,
  ⟨0x42050, 36, 0x80, 1, 0x0, 64,
    [⟨63, 0, .rc, 0⟩]⟩,
  ⟨0x42058, 36, 0x80, 1, 0x0, 64,
    [⟨63, 0, .rc, 0⟩]⟩]

/-- Registers of spec/04_fabric_tokens_and_steering.md R147. -/
def regs_shsum_04 : List RDesc := [
  ⟨0x43400, 36, 0x20, 1, 0x0, 64,
    [⟨63, 0, .rc, 0⟩]⟩,
  ⟨0x43408, 36, 0x20, 1, 0x0, 64,
    [⟨63, 0, .rc, 0⟩]⟩,
  ⟨0x43410, 36, 0x20, 1, 0x0, 64,
    [⟨63, 0, .rc, 0⟩]⟩]

/-- Registers of spec/04_fabric_tokens_and_steering.md R147. -/
def regs_edge_04 : List RDesc := [
  ⟨0x44000, 61, 0x10, 1, 0x0, 64,
    [⟨63, 0, .rc, 0⟩]⟩,
  ⟨0x44008, 61, 0x10, 1, 0x0, 64,
    [⟨63, 0, .rc, 0⟩]⟩]

/-- Registers of spec/05_patterns_and_reconfiguration.md R191. -/
def regs_gencnt_05 : List RDesc := [
  ⟨0x45000, 1, 0x0, 1, 0x0, 64,
    [⟨63, 0, .rc, 0⟩]⟩,
  ⟨0x45008, 1, 0x0, 1, 0x0, 64,
    [⟨63, 0, .rc, 0⟩]⟩,
  ⟨0x45010, 1, 0x0, 1, 0x0, 64,
    [⟨63, 0, .rc, 0⟩]⟩,
  ⟨0x45018, 1, 0x0, 1, 0x0, 64,
    [⟨63, 0, .rc, 0⟩]⟩,
  ⟨0x45020, 1, 0x0, 1, 0x0, 64,
    [⟨63, 0, .rc, 0⟩]⟩,
  ⟨0x45028, 1, 0x0, 1, 0x0, 64,
    [⟨63, 0, .rc, 0⟩]⟩]

/-- Registers of spec/06_progress_deadlock_drain.md R217. -/
def regs_unpcnt_06 : List RDesc := [
  ⟨0x46000, 1, 0x0, 1, 0x0, 64,
    [⟨63, 0, .rc, 0⟩]⟩,
  ⟨0x46008, 1, 0x0, 1, 0x0, 64,
    [⟨63, 0, .rc, 0⟩]⟩,
  ⟨0x46010, 1, 0x0, 1, 0x0, 64,
    [⟨63, 0, .rc, 0⟩]⟩,
  ⟨0x46018, 1, 0x0, 1, 0x0, 64,
    [⟨63, 0, .rc, 0⟩]⟩,
  ⟨0x46020, 1, 0x0, 1, 0x0, 64,
    [⟨63, 0, .rc, 0⟩]⟩,
  ⟨0x46028, 1, 0x0, 1, 0x0, 64,
    [⟨63, 0, .rc, 0⟩]⟩,
  ⟨0x46030, 1, 0x0, 1, 0x0, 64,
    [⟨63, 0, .rc, 0⟩]⟩,
  ⟨0x46038, 1, 0x0, 1, 0x0, 64,
    [⟨63, 0, .rc, 0⟩]⟩,
  ⟨0x46040, 1, 0x0, 1, 0x0, 64,
    [⟨63, 0, .rc, 0⟩]⟩]

/-- Registers of spec/07_training_step_and_press.md R252. -/
def regs_prscnt_07 : List RDesc := [
  ⟨0x47000, 1, 0x0, 1, 0x0, 64,
    [⟨63, 0, .rc, 0⟩]⟩,
  ⟨0x47008, 1, 0x0, 1, 0x0, 64,
    [⟨63, 0, .rc, 0⟩]⟩,
  ⟨0x47010, 1, 0x0, 1, 0x0, 64,
    [⟨63, 0, .rc, 0⟩]⟩,
  ⟨0x47018, 1, 0x0, 1, 0x0, 64,
    [⟨63, 0, .rc, 0⟩]⟩,
  ⟨0x47020, 1, 0x0, 1, 0x0, 64,
    [⟨63, 0, .rc, 0⟩]⟩,
  ⟨0x47028, 1, 0x0, 1, 0x0, 64,
    [⟨63, 0, .rc, 0⟩]⟩,
  ⟨0x47030, 1, 0x0, 1, 0x0, 64,
    [⟨63, 0, .rc, 0⟩]⟩,
  ⟨0x47038, 1, 0x0, 1, 0x0, 64,
    [⟨63, 0, .rc, 0⟩]⟩]

/-- Registers of spec/08_memory_system.md R283. -/
def regs_mccnt_08 : List RDesc := [
  ⟨0x48000, 24, 0x40, 1, 0x0, 64,
    [⟨63, 0, .rc, 0⟩]⟩,
  ⟨0x48008, 24, 0x40, 1, 0x0, 64,
    [⟨63, 0, .rc, 0⟩]⟩,
  ⟨0x48010, 24, 0x40, 1, 0x0, 64,
    [⟨63, 0, .rc, 0⟩]⟩,
  ⟨0x48018, 24, 0x40, 1, 0x0, 64,
    [⟨63, 0, .rc, 0⟩]⟩,
  ⟨0x48020, 24, 0x40, 1, 0x0, 64,
    [⟨63, 0, .rc, 0⟩]⟩,
  ⟨0x48028, 24, 0x40, 1, 0x0, 64,
    [⟨63, 0, .rc, 0⟩]⟩,
  ⟨0x48030, 24, 0x40, 1, 0x0, 64,
    [⟨63, 0, .rc, 0⟩]⟩,
  ⟨0x48038, 24, 0x40, 1, 0x0, 64,
    [⟨63, 0, .rc, 0⟩]⟩]

/-- Registers of spec/09_bobbin_streams.md R310. -/
def regs_dry_09 : List RDesc := [
  ⟨0x49000, 25, 0x10, 1, 0x0, 64,
    [⟨63, 0, .rc, 0⟩]⟩,
  ⟨0x49008, 25, 0x10, 1, 0x0, 64,
    [⟨63, 0, .rc, 0⟩]⟩]

/-- Registers of spec/10_seam_ports_and_collectives.md R345. -/
def regs_spcnt_10 : List RDesc := [
  ⟨0x4A000, 8, 0x40, 1, 0x0, 64,
    [⟨63, 0, .rc, 0⟩]⟩,
  ⟨0x4A008, 8, 0x40, 1, 0x0, 64,
    [⟨63, 0, .rc, 0⟩]⟩,
  ⟨0x4A010, 8, 0x40, 1, 0x0, 64,
    [⟨63, 0, .rc, 0⟩]⟩,
  ⟨0x4A018, 8, 0x40, 1, 0x0, 64,
    [⟨63, 0, .rc, 0⟩]⟩,
  ⟨0x4A020, 8, 0x40, 1, 0x0, 64,
    [⟨63, 0, .rc, 0⟩]⟩,
  ⟨0x4A028, 8, 0x40, 1, 0x0, 64,
    [⟨63, 0, .rc, 0⟩]⟩,
  ⟨0x4A030, 8, 0x40, 1, 0x0, 64,
    [⟨63, 0, .rc, 0⟩]⟩,
  ⟨0x4A038, 8, 0x40, 1, 0x0, 64,
    [⟨63, 0, .rc, 0⟩]⟩]

/-- Registers of spec/10_seam_ports_and_collectives.md R345. -/
def regs_sgcnt_10 : List RDesc := [
  ⟨0x4A200, 1, 0x0, 1, 0x0, 64,
    [⟨63, 0, .rc, 0⟩]⟩,
  ⟨0x4A208, 1, 0x0, 1, 0x0, 64,
    [⟨63, 0, .rc, 0⟩]⟩,
  ⟨0x4A210, 1, 0x0, 1, 0x0, 64,
    [⟨63, 0, .rc, 0⟩]⟩,
  ⟨0x4A218, 1, 0x0, 1, 0x0, 64,
    [⟨63, 0, .rc, 0⟩]⟩]

/-- Registers of spec/11_host_interface_and_command_tape.md R380. -/
def regs_tpcnt_11 : List RDesc := [
  ⟨0x4B000, 1, 0x0, 1, 0x0, 64,
    [⟨63, 0, .rc, 0⟩]⟩,
  ⟨0x4B008, 1, 0x0, 1, 0x0, 64,
    [⟨63, 0, .rc, 0⟩]⟩,
  ⟨0x4B010, 1, 0x0, 1, 0x0, 64,
    [⟨63, 0, .rc, 0⟩]⟩,
  ⟨0x4B018, 1, 0x0, 1, 0x0, 64,
    [⟨63, 0, .rc, 0⟩]⟩,
  ⟨0x4B020, 1, 0x0, 1, 0x0, 64,
    [⟨63, 0, .rc, 0⟩]⟩,
  ⟨0x4B028, 1, 0x0, 1, 0x0, 64,
    [⟨63, 0, .rc, 0⟩]⟩,
  ⟨0x4B030, 1, 0x0, 1, 0x0, 64,
    [⟨63, 0, .rc, 0⟩]⟩,
  ⟨0x4B038, 1, 0x0, 1, 0x0, 64,
    [⟨63, 0, .rc, 0⟩]⟩,
  ⟨0x4B040, 1, 0x0, 1, 0x0, 64,
    [⟨63, 0, .rc, 0⟩]⟩]

/-- Registers of spec/12_thimble_management_security.md R411. -/
def regs_thcnt_12 : List RDesc := [
  ⟨0x4C000, 1, 0x0, 1, 0x0, 64,
    [⟨63, 0, .rc, 0⟩]⟩,
  ⟨0x4C008, 1, 0x0, 1, 0x0, 64,
    [⟨63, 0, .rc, 0⟩]⟩,
  ⟨0x4C010, 1, 0x0, 1, 0x0, 64,
    [⟨63, 0, .rc, 0⟩]⟩,
  ⟨0x4C018, 1, 0x0, 1, 0x0, 64,
    [⟨63, 0, .rc, 0⟩]⟩,
  ⟨0x4C020, 1, 0x0, 1, 0x0, 64,
    [⟨63, 0, .rc, 0⟩]⟩,
  ⟨0x4C028, 1, 0x0, 1, 0x0, 64,
    [⟨63, 0, .rc, 0⟩]⟩]

/-- Registers of spec/13_panels_clocks_power.md R435. -/
def regs_pwrcnt_13 : List RDesc := [
  ⟨0x4D000, 1, 0x0, 1, 0x0, 64,
    [⟨63, 0, .rc, 0⟩]⟩,
  ⟨0x4D008, 1, 0x0, 1, 0x0, 64,
    [⟨63, 0, .rc, 0⟩]⟩,
  ⟨0x4D010, 1, 0x0, 1, 0x0, 64,
    [⟨63, 0, .rc, 0⟩]⟩,
  ⟨0x4D018, 1, 0x0, 1, 0x0, 64,
    [⟨63, 0, .rc, 0⟩]⟩,
  ⟨0x4D020, 1, 0x0, 1, 0x0, 64,
    [⟨63, 0, .rc, 0⟩]⟩]

/-- Registers of spec/15_faults_and_safe_state.md R475. -/
def regs_fltcnt_15 : List RDesc := [
  ⟨0x4E000, 1, 0x0, 1, 0x0, 64,
    [⟨63, 0, .rc, 0⟩]⟩,
  ⟨0x4E008, 1, 0x0, 1, 0x0, 64,
    [⟨63, 0, .rc, 0⟩]⟩,
  ⟨0x4E010, 1, 0x0, 1, 0x0, 64,
    [⟨63, 0, .rc, 0⟩]⟩,
  ⟨0x4E018, 1, 0x0, 1, 0x0, 64,
    [⟨63, 0, .rc, 0⟩]⟩,
  ⟨0x4E020, 1, 0x0, 1, 0x0, 64,
    [⟨63, 0, .rc, 0⟩]⟩,
  ⟨0x4E028, 1, 0x0, 1, 0x0, 64,
    [⟨63, 0, .rc, 0⟩]⟩,
  ⟨0x4E030, 1, 0x0, 1, 0x0, 64,
    [⟨63, 0, .rc, 0⟩]⟩]

/-- Registers of spec/12_thimble_management_security.md R410. -/
def regs_th_12 : List RDesc := [
  ⟨0x60000, 1, 0x0, 1, 0x0, 32,
    [⟨31, 24, .ro, 1⟩, ⟨23, 16, .ro, 0⟩, ⟨7, 0, .ro, 0⟩]⟩,
  ⟨0x60008, 1, 0x0, 1, 0x0, 32,
    [⟨14, 13, .ro, 0⟩, ⟨12, 12, .ro, 0⟩, ⟨11, 11, .ro, 0⟩, ⟨10, 10, .ro, 0⟩, ⟨9, 8, .ro, 0⟩, ⟨2, 0, .ro, 0⟩]⟩,
  ⟨0x60010, 1, 0x0, 1, 0x0, 64,
    [⟨63, 0, .ro, 0⟩]⟩,
  ⟨0x60018, 1, 0x0, 1, 0x0, 32,
    [⟨5, 0, .ro, 0⟩]⟩,
  ⟨0x60020, 1, 0x0, 1, 0x0, 32,
    [⟨31, 16, .st, 0x000A⟩, ⟨4, 0, .st, 0x1F⟩]⟩,
  ⟨0x60028, 1, 0x0, 1, 0x0, 32,
    [⟨0, 0, .wo, 0⟩]⟩,
  ⟨0x60030, 1, 0x0, 1, 0x0, 64,
    [⟨63, 32, .ro, 0⟩, ⟨31, 0, .ro, 0⟩]⟩,
  ⟨0x61000, 1, 0x0, 139, 0x4, 32,
    [⟨31, 31, .ro, 0⟩, ⟨30, 24, .ro, 0⟩, ⟨23, 0, .ro, 0⟩]⟩]

/-- Registers of spec/13_panels_clocks_power.md R434. -/
def regs_pnl_13 : List RDesc := [
  ⟨0x80000, 36, 0x400, 1, 0x0, 32,
    [⟨31, 25, .st, 0x64⟩, ⟨24, 19, .st, 0x32⟩]⟩,
  ⟨0x80008, 36, 0x400, 1, 0x0, 32,
    [⟨0, 0, .wo, 0⟩]⟩,
  ⟨0x80010, 36, 0x400, 1, 0x0, 64,
    [⟨63, 52, .ro, 0⟩, ⟨51, 51, .ro, 0⟩, ⟨50, 50, .ro, 0⟩, ⟨49, 49, .ro, 0⟩, ⟨48, 48, .ro, 0⟩, ⟨45, 42, .ro, 0⟩, ⟨41, 30, .ro, 0⟩, ⟨29, 18, .ro, 0⟩, ⟨17, 17, .ro, 0⟩]⟩]

/-- Registers of spec/13_panels_clocks_power.md R434. -/
def regs_pwr_13 : List RDesc := [
  ⟨0x80200, 1, 0x0, 1, 0x0, 64,
    [⟨63, 48, .st, 0x0258⟩, ⟨47, 32, .st, 0x030C⟩, ⟨31, 24, .st, 0x5F⟩, ⟨23, 16, .st, 0x0A⟩]⟩,
  ⟨0x80208, 1, 0x0, 1, 0x0, 32,
    [⟨0, 0, .wo, 0⟩]⟩,
  ⟨0x80210, 1, 0x0, 1, 0x0, 64,
    [⟨63, 48, .ro, 0⟩, ⟨47, 32, .ro, 0⟩, ⟨31, 20, .ro, 0x9C4⟩, ⟨2, 0, .ro, 0⟩]⟩,
  ⟨0x80218, 1, 0x0, 1, 0x0, 32,
    [⟨31, 16, .ro, 0⟩, ⟨15, 0, .ro, 0⟩]⟩]

/-- Registers of spec/03_compute_tile.md R75. -/
def regs_tile_03 : List RDesc := [
  ⟨0x100000, 1, 0x0, 1, 0x0, 32,
    [⟨18, 18, .ro, 0⟩, ⟨17, 12, .ro, 0⟩, ⟨11, 0, .ro, 0⟩]⟩,
  ⟨0x100008, 1, 0x0, 1, 0x0, 32,
    [⟨31, 21, .ro, 0⟩, ⟨17, 17, .w1c, 0⟩, ⟨16, 16, .w1c, 0⟩, ⟨14, 8, .ro, 0⟩, ⟨7, 4, .ro, 0⟩, ⟨2, 0, .ro, 0⟩]⟩,
  ⟨0x100010, 1, 0x0, 1, 0x0, 32,
    [⟨15, 0, .st, 0⟩]⟩,
  ⟨0x100018, 1, 0x0, 1, 0x0, 32,
    [⟨0, 0, .wo, 0⟩]⟩,
  ⟨0x100020, 1, 0x0, 1, 0x0, 64,
    [⟨63, 48, .ro, 0⟩, ⟨47, 32, .ro, 0⟩, ⟨31, 16, .ro, 0⟩, ⟨15, 0, .ro, 0⟩]⟩,
  ⟨0x100040, 1, 0x0, 16, 0x10, 64,
    [⟨55, 40, .st, 0x0400⟩, ⟨39, 28, .st, 0⟩, ⟨27, 20, .st, 0⟩, ⟨19, 8, .st, 0⟩, ⟨4, 3, .st, 0⟩, ⟨2, 1, .st, 0⟩, ⟨0, 0, .st, 0⟩]⟩,
  ⟨0x100048, 1, 0x0, 16, 0x10, 32,
    [⟨31, 16, .ro, 0⟩, ⟨15, 0, .ro, 0⟩]⟩,
  ⟨0x100200, 1, 0x0, 16, 0x20, 64,
    [⟨50, 49, .st, 0⟩, ⟨48, 47, .st, 0⟩, ⟨46, 46, .st, 0⟩, ⟨45, 32, .st, 0⟩, ⟨31, 30, .st, 0⟩, ⟨29, 29, .st, 0⟩, ⟨28, 24, .st, 0⟩, ⟨23, 15, .st, 0⟩, ⟨14, 8, .st, 0⟩, ⟨7, 0, .st, 0⟩]⟩,
  ⟨0x100208, 1, 0x0, 16, 0x20, 64,
    [⟨55, 44, .st, 0⟩, ⟨43, 32, .st, 0⟩, ⟨31, 31, .st, 0⟩, ⟨27, 16, .st, 0⟩, ⟨15, 0, .st, 0⟩]⟩,
  ⟨0x100210, 1, 0x0, 16, 0x20, 64,
    [⟨55, 44, .st, 0⟩, ⟨43, 32, .st, 0⟩, ⟨31, 31, .st, 0⟩, ⟨27, 16, .st, 0⟩, ⟨15, 0, .st, 0⟩]⟩,
  ⟨0x100400, 1, 0x0, 8, 0x8, 64,
    [⟨63, 0, .rc, 0⟩]⟩,
  ⟨0x100440, 1, 0x0, 1, 0x0, 64,
    [⟨63, 0, .rc, 0⟩]⟩,
  ⟨0x100448, 1, 0x0, 1, 0x0, 64,
    [⟨63, 0, .rc, 0⟩]⟩,
  ⟨0x100450, 1, 0x0, 1, 0x0, 64,
    [⟨63, 0, .rc, 0⟩]⟩,
  ⟨0x100458, 1, 0x0, 1, 0x0, 64,
    [⟨63, 0, .rc, 0⟩]⟩,
  ⟨0x100460, 1, 0x0, 2, 0x18, 64,
    [⟨63, 0, .rc, 0⟩]⟩]

/-- Registers of spec/03_compute_tile.md R75. -/
def regs_tile_03_1 : List RDesc := [
  ⟨0x100468, 1, 0x0, 2, 0x18, 64,
    [⟨63, 0, .rc, 0⟩]⟩,
  ⟨0x100470, 1, 0x0, 2, 0x18, 64,
    [⟨63, 0, .rc, 0⟩]⟩,
  ⟨0x100490, 1, 0x0, 2, 0x18, 64,
    [⟨63, 0, .rc, 0⟩]⟩,
  ⟨0x100498, 1, 0x0, 2, 0x18, 64,
    [⟨63, 0, .rc, 0⟩]⟩,
  ⟨0x1004A0, 1, 0x0, 2, 0x18, 64,
    [⟨63, 0, .rc, 0⟩]⟩,
  ⟨0x100500, 1, 0x0, 32, 0x8, 64,
    [⟨47, 32, .st, 0x0400⟩, ⟨31, 26, .st, 0⟩, ⟨25, 24, .st, 0⟩, ⟨23, 23, .st, 0⟩, ⟨22, 22, .st, 0⟩, ⟨21, 20, .st, 0⟩, ⟨0, 0, .st, 0⟩]⟩,
  ⟨0x100600, 1, 0x0, 32, 0x8, 64,
    [⟨63, 52, .st, 0⟩, ⟨51, 47, .st, 0⟩, ⟨46, 45, .st, 0⟩, ⟨44, 44, .st, 0⟩, ⟨43, 43, .st, 0⟩, ⟨42, 38, .st, 0⟩, ⟨37, 30, .st, 0⟩, ⟨29, 14, .st, 0x0400⟩, ⟨13, 9, .st, 0⟩, ⟨0, 0, .st, 0⟩]⟩,
  ⟨0x100700, 1, 0x0, 2, 0x10, 64,
    [⟨41, 34, .st, 0⟩, ⟨33, 30, .st, 0⟩, ⟨29, 28, .st, 0⟩, ⟨27, 26, .st, 0⟩, ⟨25, 21, .st, 0⟩, ⟨20, 16, .st, 0⟩, ⟨15, 11, .st, 0⟩, ⟨10, 6, .st, 0⟩, ⟨5, 1, .st, 0⟩, ⟨0, 0, .st, 0⟩]⟩,
  ⟨0x100708, 1, 0x0, 2, 0x10, 32,
    [⟨12, 9, .ro, 0⟩, ⟨8, 8, .ro, 0⟩, ⟨7, 0, .ro, 0⟩]⟩,
  ⟨0x100740, 1, 0x0, 1, 0x0, 64,
    [⟨63, 32, .st, 0⟩, ⟨31, 29, .st, 0⟩, ⟨28, 27, .st, 0⟩, ⟨26, 25, .st, 0⟩, ⟨24, 21, .st, 0⟩, ⟨20, 16, .st, 0⟩, ⟨15, 11, .st, 0⟩, ⟨10, 6, .st, 0⟩, ⟨5, 5, .st, 0⟩, ⟨2, 2, .st, 0⟩, ⟨0, 0, .st, 0⟩]⟩,
  ⟨0x100780, 1, 0x0, 2, 0x20, 64,
    [⟨63, 48, .st, 0x0400⟩, ⟨47, 32, .st, 0xFFFF⟩, ⟨31, 16, .st, 0⟩, ⟨15, 12, .st, 0⟩, ⟨11, 11, .st, 0⟩, ⟨10, 9, .st, 0⟩, ⟨0, 0, .st, 0⟩]⟩,
  ⟨0x100788, 1, 0x0, 2, 0x20, 64,
    [⟨63, 0, .st, 0⟩]⟩,
  ⟨0x100790, 1, 0x0, 2, 0x20, 32,
    [⟨31, 0, .st, 0⟩]⟩,
  ⟨0x100798, 1, 0x0, 2, 0x20, 32,
    [⟨31, 28, .ro, 0⟩, ⟨27, 24, .ro, 0⟩, ⟨23, 17, .ro, 0⟩, ⟨16, 14, .ro, 0⟩, ⟨2, 0, .ro, 0⟩]⟩,
  ⟨0x1007C0, 1, 0x0, 1, 0x0, 64,
    [⟨63, 0, .st, 0⟩]⟩,
  ⟨0x100800, 1, 0x0, 128, 0x8, 64,
    [⟨63, 0, .ro, 0⟩]⟩]

/-- Every register of the module. -/
def regTable : List RDesc :=
  regs_gc_01 ++ regs_gc_14 ++ regs_gc_15 ++ regs_tp_11 ++ regs_fab_04 ++ regs_fab_06 ++ regs_pl_05 ++ regs_mc_08
  ++ regs_sp_10 ++ regs_sg_10 ++ regs_prs_07 ++ regs_num_02 ++ regs_numcnt_02 ++ regs_psum_03 ++ regs_shsum_04 ++ regs_edge_04
  ++ regs_gencnt_05 ++ regs_unpcnt_06 ++ regs_prscnt_07 ++ regs_mccnt_08 ++ regs_dry_09 ++ regs_spcnt_10 ++ regs_sgcnt_10 ++ regs_tpcnt_11
  ++ regs_thcnt_12 ++ regs_pwrcnt_13 ++ regs_fltcnt_15 ++ regs_th_12 ++ regs_pnl_13 ++ regs_pwr_13 ++ regs_tile_03 ++ regs_tile_03_1

/-- Which instance and entry of a description a register offset is, if any. -/
def RDesc.find (d : RDesc) (off : Nat) : Option (Nat × Nat) :=
  if off < d.base then none
  else
    let r := off - d.base
    let i := if d.n = 1 then 0 else r / d.stride
    let q := r - i * d.stride
    let j := if d.n2 = 1 then 0 else q / d.stride2
    if i < d.n ∧ j < d.n2 ∧ q = j * d.stride2 then some (i, j) else none

/-- The description of the register at an offset. -/
def regAt (off : Nat) : Option RDesc := regTable.find? fun d => (d.find off).isSome

/-- The reset value of a field, by the reset columns of the field tables (spec/00_scope.md R14). -/
def resetOf (f : Fld) : Nat :=
  match regAt f.off with
  | some d => ((d.flds.find? fun x => x.lo = f.lo).map FDesc.rst).getD 0
  | none => 0

def R.GC_ID_DEVICE : Fld := ⟨0x0, 31, 16⟩
def R.GC_ID_VENDOR : Fld := ⟨0x0, 15, 0⟩
def R.GC_REV_STEP_LETTER : Fld := ⟨0x4, 15, 8⟩
def R.GC_REV_STEP_NUM : Fld := ⟨0x4, 7, 0⟩
def R.GC_CAPS_MEM_32GIB : Fld := ⟨0x8, 31, 27⟩
def R.GC_CAPS_SEAM_PORTS : Fld := ⟨0x8, 26, 23⟩
def R.GC_CAPS_MCS : Fld := ⟨0x8, 22, 18⟩
def R.GC_CAPS_PANELS : Fld := ⟨0x8, 17, 12⟩
def R.GC_CAPS_TILES : Fld := ⟨0x8, 11, 0⟩
def R.GC_HOST_WIN_BASE : Fld := ⟨0x10, 63, 12⟩
def R.GC_COMMIT_COMMIT : Fld := ⟨0x18, 0, 0⟩
def R.GC_STATE_FABRIC_READY : Fld := ⟨0x20, 4, 4⟩
def R.GC_STATE_MEM_READY : Fld := ⟨0x20, 3, 3⟩
def R.GC_STATE_STATE : Fld := ⟨0x20, 2, 0⟩
def R.RST_LAST_FAULT : Fld := ⟨0x40, 31, 16⟩
def R.RST_LAST_SAFE : Fld := ⟨0x40, 8, 8⟩
def R.RST_LAST_KIND : Fld := ⟨0x40, 7, 6⟩
def R.RST_LAST_CAUSE : Fld := ⟨0x40, 3, 0⟩
def R.RST_STRAPS_CLK_MODE : Fld := ⟨0x44, 3, 2⟩
def R.RST_STRAPS_BOOT_SRC : Fld := ⟨0x44, 1, 0⟩
def R.RST_OPT_OPT_DEFAULT : Fld := ⟨0x48, 13, 13⟩
def R.RST_OPT_POLICY_LOCK : Fld := ⟨0x48, 12, 12⟩
def R.RST_OPT_SEAL : Fld := ⟨0x48, 11, 11⟩
def R.RST_OPT_KEY_INDEX : Fld := ⟨0x48, 10, 9⟩
def R.RST_OPT_DEBUG_LOCK : Fld := ⟨0x48, 8, 7⟩
def R.RST_OPT_PCIE_ONLY : Fld := ⟨0x48, 6, 6⟩
def R.RST_OPT_UPDATE_AUTH : Fld := ⟨0x48, 5, 5⟩
def R.RST_OPT_AUTO_ADVANCE : Fld := ⟨0x48, 4, 4⟩
def R.RST_CFG_IDLE_DL : Fld := ⟨0x50, 31, 16⟩
def R.FT_STATUS_FAILS : Fld := ⟨0x58, 63, 32⟩
def R.FT_STATUS_ANALOG : Fld := ⟨0x58, 12, 8⟩
def R.FT_STATUS_TIMEOUT : Fld := ⟨0x58, 2, 2⟩
def R.FT_STATUS_PASS : Fld := ⟨0x58, 1, 1⟩
def R.FT_STATUS_RAN : Fld := ⟨0x58, 0, 0⟩
def R.REPAIR_STATUS_PENDING : Fld := ⟨0x60, 31, 16⟩
def R.REPAIR_STATUS_FREE : Fld := ⟨0x60, 15, 0⟩
def R.RST_CNT_COUNT (k : Nat) : Fld := ⟨0x100 + 0x4 * k, 31, 0⟩
def R.FLT_CFG_CE_EVT : Fld := ⟨0x200, 1, 1⟩
def R.FLT_CFG_STOP_ON_STEP : Fld := ⟨0x200, 0, 0⟩
def R.FLT_FIRST_REC (k : Nat) : Fld := ⟨0x210 + 0x8 * k, 63, 0⟩
def R.FLT_LAST_REC (k : Nat) : Fld := ⟨0x230 + 0x8 * k, 63, 0⟩
def R.TP_VERSION_BOB_MAJOR : Fld := ⟨0x1000, 31, 24⟩
def R.TP_VERSION_BOB_MINOR : Fld := ⟨0x1000, 23, 16⟩
def R.TP_VERSION_MAJOR : Fld := ⟨0x1000, 15, 8⟩
def R.TP_VERSION_MINOR : Fld := ⟨0x1000, 7, 0⟩
def R.TP_TAPE_SIZE : Fld := ⟨0x1008, 63, 48⟩
def R.TP_TAPE_BASE : Fld := ⟨0x1008, 47, 12⟩
def R.TP_SEQ0_SEQ0 : Fld := ⟨0x1010, 31, 0⟩
def R.TP_REPLY_RBASE : Fld := ⟨0x1018, 63, 6⟩
def R.TP_RSIZE_RSIZE : Fld := ⟨0x1020, 16, 0⟩
def R.TP_CFG_TORN_DL : Fld := ⟨0x1028, 63, 48⟩
def R.TP_CFG_RPL_DL : Fld := ⟨0x1028, 47, 32⟩
def R.TP_CFG_HOST_SLACK : Fld := ⟨0x1028, 31, 16⟩
def R.TP_CFG_EN : Fld := ⟨0x1028, 0, 0⟩
def R.TP_COMMIT_ABANDON : Fld := ⟨0x1030, 1, 1⟩
def R.TP_COMMIT_COMMIT : Fld := ⟨0x1030, 0, 0⟩
def R.TP_STATUS_NEXT_SEQ : Fld := ⟨0x1038, 63, 32⟩
def R.TP_STATUS_POS : Fld := ⟨0x1038, 31, 10⟩
def R.TP_STATUS_STATE : Fld := ⟨0x1038, 2, 0⟩
def R.TP_LIVE_HELD : Fld := ⟨0x1040, 24, 16⟩
def R.TP_LIVE_LIVE : Fld := ⟨0x1040, 8, 0⟩
def R.TP_RSEQ_RSEQ : Fld := ⟨0x1048, 31, 0⟩
def R.TP_LINK_SPEED : Fld := ⟨0x1050, 12, 10⟩
def R.TP_LINK_WIDTH : Fld := ⟨0x1050, 9, 4⟩
def R.TP_LINK_MEM_EN : Fld := ⟨0x1050, 3, 3⟩
def R.TP_LINK_CACHE_EN : Fld := ⟨0x1050, 2, 2⟩
def R.TP_LINK_MODE : Fld := ⟨0x1050, 1, 0⟩
def R.FAB_CFG_VC3_GUARD : Fld := ⟨0x4000, 15, 8⟩
def R.FAB_CFG_BASTE_EN : Fld := ⟨0x4000, 0, 0⟩
def R.FAB_COMMIT_COMMIT : Fld := ⟨0x4008, 0, 0⟩
def R.FAB_STATUS_BASTED_OPEN : Fld := ⟨0x4010, 0, 0⟩
def R.UNP_CFG_STALL_TH : Fld := ⟨0x4100, 63, 48⟩
def R.UNP_CFG_CONFIRM : Fld := ⟨0x4100, 47, 32⟩
def R.UNP_CFG_DRAIN_DL : Fld := ⟨0x4100, 31, 16⟩
def R.UNP_CFG_UNPICK_EN : Fld := ⟨0x4100, 1, 1⟩
def R.UNP_CFG_MON_EN : Fld := ⟨0x4100, 0, 0⟩
def R.UNP_SPILL_SIZE : Fld := ⟨0x4108, 63, 48⟩
def R.UNP_SPILL_BASE : Fld := ⟨0x4108, 47, 20⟩
def R.UNP_COMMIT_COMMIT : Fld := ⟨0x4110, 0, 0⟩
def R.UNP_STATUS_PAGES_FREE : Fld := ⟨0x4118, 63, 40⟩
def R.UNP_STATUS_SPILLED_Q : Fld := ⟨0x4118, 39, 23⟩
def R.UNP_STATUS_DRAIN : Fld := ⟨0x4118, 5, 3⟩
def R.UNP_STATUS_STATE : Fld := ⟨0x4118, 2, 0⟩
def R.UNP_STALLED_PANEL : Fld := ⟨0x4120, 35, 0⟩
def R.PL_VERSION_MAJOR : Fld := ⟨0x8000, 15, 8⟩
def R.PL_VERSION_MINOR : Fld := ⟨0x8000, 7, 0⟩
def R.PL_STATUS_CUR_GEN : Fld := ⟨0x8008, 31, 28⟩
def R.PL_STATUS_PEND_GEN : Fld := ⟨0x8008, 27, 24⟩
def R.PL_STATUS_PEND_VALID : Fld := ⟨0x8008, 23, 23⟩
def R.PL_STATUS_STATE : Fld := ⟨0x8008, 22, 20⟩
def R.PL_STATUS_LEFT : Fld := ⟨0x8008, 11, 0⟩
def R.PL_GEN_STATE_GS : Fld := ⟨0x8010, 31, 0⟩
def R.PL_CFG_RETIRE_DL : Fld := ⟨0x8018, 31, 16⟩
def R.PL_CFG_ARM_DL : Fld := ⟨0x8018, 15, 8⟩
def R.PL_COMMIT_COMMIT : Fld := ⟨0x8020, 0, 0⟩
def R.PL_PATTERN_PEND_ID : Fld := ⟨0x8028, 63, 32⟩
def R.PL_PATTERN_CUR_ID : Fld := ⟨0x8028, 31, 0⟩
def R.PL_ERR_CODE : Fld := ⟨0x8030, 63, 48⟩
def R.PL_ERR_SECTION : Fld := ⟨0x8030, 47, 32⟩
def R.PL_ERR_OFFSET : Fld := ⟨0x8030, 31, 0⟩
def R.MC_CFG_ATOM_DL (n : Nat) : Fld := ⟨0x10000 + 0x400 * n, 63, 48⟩
def R.MC_CFG_SCRUB_INT (n : Nat) : Fld := ⟨0x10000 + 0x400 * n, 47, 32⟩
def R.MC_CFG_CE_TH (n : Nat) : Fld := ⟨0x10000 + 0x400 * n, 31, 24⟩
def R.MC_CFG_PD_DL (n : Nat) : Fld := ⟨0x10000 + 0x400 * n, 23, 16⟩
def R.MC_CFG_LN_MODE (n : Nat) : Fld := ⟨0x10000 + 0x400 * n, 15, 8⟩
def R.MC_CFG_REMAP_EN (n : Nat) : Fld := ⟨0x10000 + 0x400 * n, 1, 1⟩
def R.MC_CFG_SCRUB_EN (n : Nat) : Fld := ⟨0x10000 + 0x400 * n, 0, 0⟩
def R.MC_COMMIT_COMMIT (n : Nat) : Fld := ⟨0x10008 + 0x400 * n, 0, 0⟩
def R.MC_STATUS_REMAP_FREE (n : Nat) : Fld := ⟨0x10010 + 0x400 * n, 23, 16⟩
def R.MC_STATUS_LN_BUSY (n : Nat) : Fld := ⟨0x10010 + 0x400 * n, 11, 8⟩
def R.MC_STATUS_CH_OK (n : Nat) : Fld := ⟨0x10010 + 0x400 * n, 7, 4⟩
def R.MC_STATUS_FILLING (n : Nat) : Fld := ⟨0x10010 + 0x400 * n, 0, 0⟩
def R.MC_LAST_UE_GRANULE (n : Nat) : Fld := ⟨0x10018 + 0x400 * n, 63, 32⟩
def R.MC_LAST_UE_CLASS (n : Nat) : Fld := ⟨0x10018 + 0x400 * n, 31, 30⟩
def R.MC_LAST_UE_CHAN (n : Nat) : Fld := ⟨0x10018 + 0x400 * n, 29, 28⟩
def R.MC_LAST_UE_SCRUB (n : Nat) : Fld := ⟨0x10018 + 0x400 * n, 27, 27⟩
def R.MC_LAST_REMAP_CHAN (n : Nat) : Fld := ⟨0x10020 + 0x400 * n, 63, 62⟩
def R.MC_LAST_REMAP_BANK (n : Nat) : Fld := ⟨0x10020 + 0x400 * n, 61, 58⟩
def R.MC_LAST_REMAP_ROW (n : Nat) : Fld := ⟨0x10020 + 0x400 * n, 57, 40⟩
def R.MC_ATOM_NEXT_NEXT (n : Nat) (k : Nat) : Fld := ⟨0x10040 + 0x400 * n + 0x8 * k, 63, 0⟩
def R.MC_REPAIR_CHAN (n : Nat) : Fld := ⟨0x10100 + 0x400 * n, 63, 62⟩
def R.MC_REPAIR_BANK (n : Nat) : Fld := ⟨0x10100 + 0x400 * n, 61, 58⟩
def R.MC_REPAIR_ROW (n : Nat) : Fld := ⟨0x10100 + 0x400 * n, 57, 40⟩
def R.MC_REPAIR_OP (n : Nat) : Fld := ⟨0x10100 + 0x400 * n, 39, 36⟩
def R.MC_REPAIR_MRA (n : Nat) : Fld := ⟨0x10100 + 0x400 * n, 23, 16⟩
def R.MC_REPAIR_MRD (n : Nat) : Fld := ⟨0x10100 + 0x400 * n, 15, 8⟩
def R.MC_REPAIR_ST_DONE (n : Nat) : Fld := ⟨0x10108 + 0x400 * n, 9, 9⟩
def R.MC_REPAIR_ST_FAIL (n : Nat) : Fld := ⟨0x10108 + 0x400 * n, 8, 8⟩
def R.MC_REPAIR_ST_MRV (n : Nat) : Fld := ⟨0x10108 + 0x400 * n, 7, 0⟩
def R.MC_EXT_CLASS (n : Nat) (k : Nat) : Fld := ⟨0x10200 + 0x400 * n + 0x8 * k, 55, 54⟩
def R.MC_EXT_SIZE (n : Nat) (k : Nat) : Fld := ⟨0x10200 + 0x400 * n + 0x8 * k, 53, 35⟩
def R.MC_EXT_BASE (n : Nat) (k : Nat) : Fld := ⟨0x10200 + 0x400 * n + 0x8 * k, 34, 16⟩
def R.SP_CFG_ETYPE (n : Nat) : Fld := ⟨0x20000 + 0x1000 * n, 63, 48⟩
def R.SP_CFG_VID (n : Nat) : Fld := ⟨0x20000 + 0x1000 * n, 47, 36⟩
def R.SP_CFG_PRIO (n : Nat) : Fld := ⟨0x20000 + 0x1000 * n, 35, 33⟩
def R.SP_CFG_PFC_EN (n : Nat) : Fld := ⟨0x20000 + 0x1000 * n, 32, 32⟩
def R.SP_CFG_PFC_XOFF (n : Nat) : Fld := ⟨0x20000 + 0x1000 * n, 31, 24⟩
def R.SP_CFG_PFC_XON (n : Nat) : Fld := ⟨0x20000 + 0x1000 * n, 23, 16⟩
def R.SP_CFG_PAYLOAD (n : Nat) : Fld := ⟨0x20000 + 0x1000 * n, 3, 3⟩
def R.SP_CFG_MEDIA (n : Nat) : Fld := ⟨0x20000 + 0x1000 * n, 2, 2⟩
def R.SP_CFG_EN (n : Nat) : Fld := ⟨0x20000 + 0x1000 * n, 0, 0⟩
def R.SP_DL_PEER_DL (n : Nat) : Fld := ⟨0x20008 + 0x1000 * n, 63, 48⟩
def R.SP_DL_RTX_TO (n : Nat) : Fld := ⟨0x20008 + 0x1000 * n, 47, 32⟩
def R.SP_DL_RTX_MAX (n : Nat) : Fld := ⟨0x20008 + 0x1000 * n, 31, 24⟩
def R.SP_DL_ACK_INT (n : Nat) : Fld := ⟨0x20008 + 0x1000 * n, 23, 16⟩
def R.SP_DL_FLUSH_WAIT (n : Nat) : Fld := ⟨0x20008 + 0x1000 * n, 15, 0⟩
def R.SP_COMMIT_COMMIT (n : Nat) : Fld := ⟨0x20010 + 0x1000 * n, 0, 0⟩
def R.SP_STATUS_PEER (n : Nat) : Fld := ⟨0x20018 + 0x1000 * n, 63, 50⟩
def R.SP_STATUS_PEER_PORT (n : Nat) : Fld := ⟨0x20018 + 0x1000 * n, 49, 47⟩
def R.SP_STATUS_VMAJ (n : Nat) : Fld := ⟨0x20018 + 0x1000 * n, 38, 35⟩
def R.SP_STATUS_VMIN (n : Nat) : Fld := ⟨0x20018 + 0x1000 * n, 34, 31⟩
def R.SP_STATUS_PAY4K (n : Nat) : Fld := ⟨0x20018 + 0x1000 * n, 30, 30⟩
def R.SP_STATUS_LINK (n : Nat) : Fld := ⟨0x20018 + 0x1000 * n, 2, 0⟩
def R.SP_PEER_FAULT_PEER_FAULT (n : Nat) : Fld := ⟨0x20020 + 0x1000 * n, 15, 0⟩
def R.SEAM_GCFG_INSTALL : Fld := ⟨0x20800, 63, 32⟩
def R.SEAM_GCFG_MAC_PFX : Fld := ⟨0x20800, 31, 8⟩
def R.SEAM_GDL_RED_DL : Fld := ⟨0x20808, 63, 48⟩
def R.SEAM_GDL_RET_DL : Fld := ⟨0x20808, 47, 32⟩
def R.SEAM_GDL_GATHER_DL : Fld := ⟨0x20808, 31, 16⟩
def R.SEAM_GCOMMIT_COMMIT : Fld := ⟨0x20810, 0, 0⟩
def R.SEAM_GSTATUS_SUSPECT : Fld := ⟨0x20818, 1, 1⟩
def R.SEAM_GSTATUS_RET_DONE : Fld := ⟨0x20818, 0, 0⟩
def R.SEAM_RET_STEP_RET_STEP : Fld := ⟨0x20820, 47, 0⟩
def R.PRS_CFG_SKIP_EN : Fld := ⟨0x30000, 22, 22⟩
def R.PRS_CFG_CLIP_EN : Fld := ⟨0x30000, 21, 21⟩
def R.PRS_CFG_AUDIT_N : Fld := ⟨0x30000, 20, 13⟩
def R.PRS_CFG_GT_COUNT : Fld := ⟨0x30000, 12, 0⟩
def R.PRS_GT_BASE_GT_BASE : Fld := ⟨0x30008, 47, 8⟩
def R.PRS_CLIP_NORM_CLIP_NORM : Fld := ⟨0x30010, 31, 0⟩
def R.PRS_SKIP_NORM_SKIP_NORM : Fld := ⟨0x30014, 31, 0⟩
def R.PRS_DL_SWEEP_DL : Fld := ⟨0x30018, 47, 32⟩
def R.PRS_DL_NORM_DL : Fld := ⟨0x30018, 31, 16⟩
def R.PRS_DL_CLOSE_DL : Fld := ⟨0x30018, 15, 0⟩
def R.PRS_LAST_LAST : Fld := ⟨0x30020, 47, 0⟩
def R.PRS_COMMIT_COMMIT : Fld := ⟨0x30028, 0, 0⟩
def R.PRS_STATUS_SWEEP_STOPPED : Fld := ⟨0x30030, 6, 6⟩
def R.PRS_STATUS_VERDICT : Fld := ⟨0x30030, 5, 4⟩
def R.PRS_STATUS_UW_HOLD : Fld := ⟨0x30030, 3, 3⟩
def R.PRS_STATUS_PHASE : Fld := ⟨0x30030, 2, 0⟩
def R.PRS_STEP_STEP : Fld := ⟨0x30038, 47, 0⟩
def R.PRS_NORM_NORM : Fld := ⟨0x30040, 31, 0⟩
def R.PRS_CLIPK_K : Fld := ⟨0x30044, 31, 0⟩
def R.NUM_SR_STEP_STEP : Fld := ⟨0x40000, 47, 0⟩
def R.NUM_SR_MODULE_MODULE : Fld := ⟨0x40008, 13, 0⟩
def R.NUM_COMMIT_COMMIT : Fld := ⟨0x40010, 0, 0⟩
def R.SAT (n : Nat) : Fld := ⟨0x41000 + 0x20 * n, 63, 0⟩
def R.UFLOW (n : Nat) : Fld := ⟨0x41008 + 0x20 * n, 63, 0⟩
def R.NONFIN (n : Nat) : Fld := ⟨0x41010 + 0x20 * n, 63, 0⟩
def R.ISAT (n : Nat) : Fld := ⟨0x41018 + 0x20 * n, 63, 0⟩
def R.BANK_CONF (n : Nat) (k : Nat) : Fld := ⟨0x42000 + 0x80 * n + 0x8 * k, 63, 0⟩
def R.FRAG_EXEC (n : Nat) : Fld := ⟨0x42040 + 0x80 * n, 63, 0⟩
def R.FRAG_SKIP (n : Nat) : Fld := ⟨0x42048 + 0x80 * n, 63, 0⟩
def R.RING_STALL (n : Nat) : Fld := ⟨0x42050 + 0x80 * n, 63, 0⟩
def R.SP_CORR_CNT (n : Nat) : Fld := ⟨0x42058 + 0x80 * n, 63, 0⟩
def R.BASTED (n : Nat) : Fld := ⟨0x43400 + 0x20 * n, 63, 0⟩
def R.SEWN (n : Nat) : Fld := ⟨0x43408 + 0x20 * n, 63, 0⟩
def R.SQUASHED (n : Nat) : Fld := ⟨0x43410 + 0x20 * n, 63, 0⟩
def R.EDGE_BUSY (n : Nat) : Fld := ⟨0x44000 + 0x10 * n, 63, 0⟩
def R.EDGE_WAIT (n : Nat) : Fld := ⟨0x44008 + 0x10 * n, 63, 0⟩
def R.GEN_DROP : Fld := ⟨0x45000, 63, 0⟩
def R.STALE_STREAM : Fld := ⟨0x45008, 63, 0⟩
def R.STALE_COLL : Fld := ⟨0x45010, 63, 0⟩
def R.STALE_TAG : Fld := ⟨0x45018, 63, 0⟩
def R.LOADS : Fld := ⟨0x45020, 63, 0⟩
def R.REFUSED : Fld := ⟨0x45028, 63, 0⟩
def R.TRIPS : Fld := ⟨0x46000, 63, 0⟩
def R.DEADLOCKS : Fld := ⟨0x46008, 63, 0⟩
def R.STARVED : Fld := ⟨0x46010, 63, 0⟩
def R.TRANSIENT : Fld := ⟨0x46018, 63, 0⟩
def R.QUEUES_SPILLED : Fld := ⟨0x46020, 63, 0⟩
def R.RECORDS_SPILLED : Fld := ⟨0x46028, 63, 0⟩
def R.RECORDS_REFILLED : Fld := ⟨0x46030, 63, 0⟩
def R.QUIESCES : Fld := ⟨0x46038, 63, 0⟩
def R.FLUSHES : Fld := ⟨0x46040, 63, 0⟩
def R.STEPS_OPENED : Fld := ⟨0x47000, 63, 0⟩
def R.STEPS_COMMITTED : Fld := ⟨0x47008, 63, 0⟩
def R.STEPS_SKIPPED : Fld := ⟨0x47010, 63, 0⟩
def R.STEPS_ABANDONED : Fld := ⟨0x47018, 63, 0⟩
def R.STEPS_CLIPPED : Fld := ⟨0x47020, 63, 0⟩
def R.UW_ALERTS : Fld := ⟨0x47028, 63, 0⟩
def R.AUDIT_LINES : Fld := ⟨0x47030, 63, 0⟩
def R.AUDIT_MISMATCH : Fld := ⟨0x47038, 63, 0⟩
def R.CE (n : Nat) : Fld := ⟨0x48000 + 0x40 * n, 63, 0⟩
def R.UE (n : Nat) : Fld := ⟨0x48008 + 0x40 * n, 63, 0⟩
def R.SCRUBBED (n : Nat) : Fld := ⟨0x48010 + 0x40 * n, 63, 0⟩
def R.REMAPS (n : Nat) : Fld := ⟨0x48018 + 0x40 * n, 63, 0⟩
def R.ATOM_REQ (n : Nat) : Fld := ⟨0x48020 + 0x40 * n, 63, 0⟩
def R.ATOM_ISAT (n : Nat) : Fld := ⟨0x48028 + 0x40 * n, 63, 0⟩
def R.LN_HIT (n : Nat) : Fld := ⟨0x48030 + 0x40 * n, 63, 0⟩
def R.LN_MISS (n : Nat) : Fld := ⟨0x48038 + 0x40 * n, 63, 0⟩
def R.DRY_LATE (n : Nat) : Fld := ⟨0x49000 + 0x10 * n, 63, 0⟩
def R.RETIRED (n : Nat) : Fld := ⟨0x49008 + 0x10 * n, 63, 0⟩
def R.FRAMES_TX (n : Nat) : Fld := ⟨0x4A000 + 0x40 * n, 63, 0⟩
def R.FRAMES_RX (n : Nat) : Fld := ⟨0x4A008 + 0x40 * n, 63, 0⟩
def R.FCS_ERR (n : Nat) : Fld := ⟨0x4A010 + 0x40 * n, 63, 0⟩
def R.RETRANSMITS (n : Nat) : Fld := ⟨0x4A018 + 0x40 * n, 63, 0⟩
def R.OTHER_RX (n : Nat) : Fld := ⟨0x4A020 + 0x40 * n, 63, 0⟩
def R.E2E_ERR (n : Nat) : Fld := ⟨0x4A028 + 0x40 * n, 63, 0⟩
def R.PAUSE_RX (n : Nat) : Fld := ⟨0x4A030 + 0x40 * n, 63, 0⟩
def R.BYTES_TX (n : Nat) : Fld := ⟨0x4A038 + 0x40 * n, 63, 0⟩
def R.LATE_DROP : Fld := ⟨0x4A200, 63, 0⟩
def R.DIGEST_MISMATCH : Fld := ⟨0x4A208, 63, 0⟩
def R.GATHERS : Fld := ⟨0x4A210, 63, 0⟩
def R.HELD_FUTURE : Fld := ⟨0x4A218, 63, 0⟩
def R.PACKETS : Fld := ⟨0x4B000, 63, 0⟩
def R.CMD_REFUSED : Fld := ⟨0x4B008, 63, 0⟩
def R.TORN_SEEN : Fld := ⟨0x4B010, 63, 0⟩
def R.REPLIES : Fld := ⟨0x4B018, 63, 0⟩
def R.REPLY_WAIT : Fld := ⟨0x4B020, 63, 0⟩
def R.EVT_LOST : Fld := ⟨0x4B028, 63, 0⟩
def R.HOST_TAIL : Fld := ⟨0x4B030, 63, 0⟩
def R.HDM_RD_BYTES : Fld := ⟨0x4B038, 63, 0⟩
def R.HDM_WR_BYTES : Fld := ⟨0x4B040, 63, 0⟩
def R.LOG_WRITTEN : Fld := ⟨0x4C000, 63, 0⟩
def R.LOG_SUPPRESSED : Fld := ⟨0x4C008, 63, 0⟩
def R.LOG_OVERWRITTEN : Fld := ⟨0x4C010, 63, 0⟩
def R.SPDM_SESSIONS : Fld := ⟨0x4C018, 63, 0⟩
def R.SPDM_FAIL : Fld := ⟨0x4C020, 63, 0⟩
def R.UPDATES : Fld := ⟨0x4C028, 63, 0⟩
def R.STRETCH_TIME : Fld := ⟨0x4D000, 63, 0⟩
def R.THROTTLE_TIME : Fld := ⟨0x4D008, 63, 0⟩
def R.NB_LIMITED : Fld := ⟨0x4D010, 63, 0⟩
def R.CLAMPS : Fld := ⟨0x4D018, 63, 0⟩
def R.DROOPS : Fld := ⟨0x4D020, 63, 0⟩
def R.CORRECTABLE : Fld := ⟨0x4E000, 63, 0⟩
def R.CONTAINED : Fld := ⟨0x4E008, 63, 0⟩
def R.STEP_FATAL : Fld := ⟨0x4E010, 63, 0⟩
def R.MODULE_FATAL : Fld := ⟨0x4E018, 63, 0⟩
def R.EVENTS : Fld := ⟨0x4E020, 63, 0⟩
def R.RECORDS_LOST : Fld := ⟨0x4E028, 63, 0⟩
def R.POISONED_READS : Fld := ⟨0x4E030, 63, 0⟩
def R.TH_VERSION_IF_MAJOR : Fld := ⟨0x60000, 31, 24⟩
def R.TH_VERSION_IF_MINOR : Fld := ⟨0x60000, 23, 16⟩
def R.TH_VERSION_FW_SVN : Fld := ⟨0x60000, 7, 0⟩
def R.TH_STATUS_KEY_IDX : Fld := ⟨0x60008, 14, 13⟩
def R.TH_STATUS_ACT_PEND : Fld := ⟨0x60008, 12, 12⟩
def R.TH_STATUS_UPDATE : Fld := ⟨0x60008, 11, 11⟩
def R.TH_STATUS_IMG_INVALID : Fld := ⟨0x60008, 10, 10⟩
def R.TH_STATUS_DEBUG : Fld := ⟨0x60008, 9, 8⟩
def R.TH_STATUS_BOOT : Fld := ⟨0x60008, 2, 0⟩
def R.TH_SERIAL_SERIAL : Fld := ⟨0x60010, 63, 0⟩
def R.TH_ROLLBACK_COUNTER : Fld := ⟨0x60018, 5, 0⟩
def R.TH_CFG_SAMPLE : Fld := ⟨0x60020, 31, 16⟩
def R.TH_CFG_EVT_MASK : Fld := ⟨0x60020, 4, 0⟩
def R.TH_COMMIT_COMMIT : Fld := ⟨0x60028, 0, 0⟩
def R.TH_LOG_NEXT_LSEQ : Fld := ⟨0x60030, 63, 32⟩
def R.TH_LOG_OLDEST : Fld := ⟨0x60030, 31, 0⟩
def R.TH_SENSOR_VALID (k : Nat) : Fld := ⟨0x61000 + 0x4 * k, 31, 31⟩
def R.TH_SENSOR_AGE (k : Nat) : Fld := ⟨0x61000 + 0x4 * k, 30, 24⟩
def R.TH_SENSOR_VALUE (k : Nat) : Fld := ⟨0x61000 + 0x4 * k, 23, 0⟩
def R.PNL_CFG_FSET (n : Nat) : Fld := ⟨0x80000 + 0x400 * n, 31, 25⟩
def R.PNL_CFG_VSET (n : Nat) : Fld := ⟨0x80000 + 0x400 * n, 24, 19⟩
def R.PNL_COMMIT_COMMIT (n : Nat) : Fld := ⟨0x80008 + 0x400 * n, 0, 0⟩
def R.PNL_STATUS_FDEL (n : Nat) : Fld := ⟨0x80010 + 0x400 * n, 63, 52⟩
def R.PNL_STATUS_LIM_P (n : Nat) : Fld := ⟨0x80010 + 0x400 * n, 51, 51⟩
def R.PNL_STATUS_LIM_T (n : Nat) : Fld := ⟨0x80010 + 0x400 * n, 50, 50⟩
def R.PNL_STATUS_LIM_N (n : Nat) : Fld := ⟨0x80010 + 0x400 * n, 49, 49⟩
def R.PNL_STATUS_CLAMP (n : Nat) : Fld := ⟨0x80010 + 0x400 * n, 48, 48⟩
def R.PNL_STATUS_VOFS (n : Nat) : Fld := ⟨0x80010 + 0x400 * n, 45, 42⟩
def R.PNL_STATUS_VDEL (n : Nat) : Fld := ⟨0x80010 + 0x400 * n, 41, 30⟩
def R.PNL_STATUS_TEMP (n : Nat) : Fld := ⟨0x80010 + 0x400 * n, 29, 18⟩
def R.PNL_STATUS_HOT (n : Nat) : Fld := ⟨0x80010 + 0x400 * n, 17, 17⟩
def R.PWR_CFG_P_LIMIT : Fld := ⟨0x80200, 63, 48⟩
def R.PWR_CFG_P_PEAK : Fld := ⟨0x80200, 47, 32⟩
def R.PWR_CFG_T_THROTTLE : Fld := ⟨0x80200, 31, 24⟩
def R.PWR_CFG_NB_DL : Fld := ⟨0x80200, 23, 16⟩
def R.PWR_COMMIT_COMMIT : Fld := ⟨0x80208, 0, 0⟩
def R.PWR_STATUS_P_1S : Fld := ⟨0x80210, 63, 48⟩
def R.PWR_STATUS_P_1MS : Fld := ⟨0x80210, 47, 32⟩
def R.PWR_STATUS_FCAP : Fld := ⟨0x80210, 31, 20⟩
def R.PWR_STATUS_STATE : Fld := ⟨0x80210, 2, 0⟩
def R.PWR_INPUT_VIN : Fld := ⟨0x80218, 31, 16⟩
def R.PWR_INPUT_IIN : Fld := ⟨0x80218, 15, 0⟩
def T.TILE_ID_PRED_CAP : Fld := ⟨0x100000, 18, 18⟩
def T.TILE_ID_PANEL : Fld := ⟨0x100000, 17, 12⟩
def T.TILE_ID_TILE : Fld := ⟨0x100000, 11, 0⟩
def T.TILE_STATUS_PC : Fld := ⟨0x100008, 31, 21⟩
def T.TILE_STATUS_SP_CORR : Fld := ⟨0x100008, 17, 17⟩
def T.TILE_STATUS_ISAT : Fld := ⟨0x100008, 16, 16⟩
def T.TILE_STATUS_OUTST : Fld := ⟨0x100008, 14, 8⟩
def T.TILE_STATUS_GEN : Fld := ⟨0x100008, 7, 4⟩
def T.TILE_STATUS_STATE : Fld := ⟨0x100008, 2, 0⟩
def T.TILE_BANKCFG_BANKS : Fld := ⟨0x100010, 15, 0⟩
def T.TILE_COMMIT_COMMIT : Fld := ⟨0x100018, 0, 0⟩
def T.TILE_DL_DL3 : Fld := ⟨0x100020, 63, 48⟩
def T.TILE_DL_DL2 : Fld := ⟨0x100020, 47, 32⟩
def T.TILE_DL_DL1 : Fld := ⟨0x100020, 31, 16⟩
def T.TILE_DL_DL0 : Fld := ⟨0x100020, 15, 0⟩
def T.RING_CFG_DL (k : Nat) : Fld := ⟨0x100040 + 0x10 * k, 55, 40⟩
def T.RING_CFG_SLOTS (k : Nat) : Fld := ⟨0x100040 + 0x10 * k, 39, 28⟩
def T.RING_CFG_SLOT_G (k : Nat) : Fld := ⟨0x100040 + 0x10 * k, 27, 20⟩
def T.RING_CFG_BASE (k : Nat) : Fld := ⟨0x100040 + 0x10 * k, 19, 8⟩
def T.RING_CFG_CONS (k : Nat) : Fld := ⟨0x100040 + 0x10 * k, 4, 3⟩
def T.RING_CFG_PROD (k : Nat) : Fld := ⟨0x100040 + 0x10 * k, 2, 1⟩
def T.RING_CFG_EN (k : Nat) : Fld := ⟨0x100040 + 0x10 * k, 0, 0⟩
def T.RING_STAT_TAIL (k : Nat) : Fld := ⟨0x100048 + 0x10 * k, 31, 16⟩
def T.RING_STAT_HEAD (k : Nat) : Fld := ⟨0x100048 + 0x10 * k, 15, 0⟩
def T.TD_SHAPE_DL_DIM (k : Nat) : Fld := ⟨0x100200 + 0x20 * k, 50, 49⟩
def T.TD_SHAPE_DL_SEL (k : Nat) : Fld := ⟨0x100200 + 0x20 * k, 48, 47⟩
def T.TD_SHAPE_INIT (k : Nat) : Fld := ⟨0x100200 + 0x20 * k, 46, 46⟩
def T.TD_SHAPE_ACC_BASE (k : Nat) : Fld := ⟨0x100200 + 0x20 * k, 45, 32⟩
def T.TD_SHAPE_ACC_MODE (k : Nat) : Fld := ⟨0x100200 + 0x20 * k, 31, 30⟩
def T.TD_SHAPE_FOLD (k : Nat) : Fld := ⟨0x100200 + 0x20 * k, 29, 29⟩
def T.TD_SHAPE_F (k : Nat) : Fld := ⟨0x100200 + 0x20 * k, 28, 24⟩
def T.TD_SHAPE_KQ (k : Nat) : Fld := ⟨0x100200 + 0x20 * k, 23, 15⟩
def T.TD_SHAPE_NQ (k : Nat) : Fld := ⟨0x100200 + 0x20 * k, 14, 8⟩
def T.TD_SHAPE_MQ (k : Nat) : Fld := ⟨0x100200 + 0x20 * k, 7, 0⟩
def T.TD_A_A_GSTRIDE (k : Nat) : Fld := ⟨0x100208 + 0x20 * k, 55, 44⟩
def T.TD_A_A_SCL (k : Nat) : Fld := ⟨0x100208 + 0x20 * k, 43, 32⟩
def T.TD_A_A_RING (k : Nat) : Fld := ⟨0x100208 + 0x20 * k, 31, 31⟩
def T.TD_A_A_ADDR (k : Nat) : Fld := ⟨0x100208 + 0x20 * k, 27, 16⟩
def T.TD_A_A_FMT (k : Nat) : Fld := ⟨0x100208 + 0x20 * k, 15, 0⟩
def T.TD_B_B_GSTRIDE (k : Nat) : Fld := ⟨0x100210 + 0x20 * k, 55, 44⟩
def T.TD_B_B_SCL (k : Nat) : Fld := ⟨0x100210 + 0x20 * k, 43, 32⟩
def T.TD_B_B_RING (k : Nat) : Fld := ⟨0x100210 + 0x20 * k, 31, 31⟩
def T.TD_B_B_ADDR (k : Nat) : Fld := ⟨0x100210 + 0x20 * k, 27, 16⟩
def T.TD_B_B_FMT (k : Nat) : Fld := ⟨0x100210 + 0x20 * k, 15, 0⟩
def T.BANK_CONF (k : Nat) : Fld := ⟨0x100400 + 0x8 * k, 63, 0⟩
def T.FRAG_EXEC : Fld := ⟨0x100440, 63, 0⟩
def T.FRAG_SKIP : Fld := ⟨0x100448, 63, 0⟩
def T.RING_STALL : Fld := ⟨0x100450, 63, 0⟩
def T.SP_CORR_CNT : Fld := ⟨0x100458, 63, 0⟩
def T.SHUT_BASTED (k : Nat) : Fld := ⟨0x100460 + 0x18 * k, 63, 0⟩
def T.SHUT_SEWN (k : Nat) : Fld := ⟨0x100468 + 0x18 * k, 63, 0⟩
def T.SHUT_SQUASHED (k : Nat) : Fld := ⟨0x100470 + 0x18 * k, 63, 0⟩
def T.BOB_REQ (k : Nat) : Fld := ⟨0x100490 + 0x18 * k, 63, 0⟩
def T.BOB_BYTES (k : Nat) : Fld := ⟨0x100498 + 0x18 * k, 63, 0⟩
def T.BOB_FULL (k : Nat) : Fld := ⟨0x1004A0 + 0x18 * k, 63, 0⟩
def T.QCFG_DL (k : Nat) : Fld := ⟨0x100500 + 0x8 * k, 47, 32⟩
def T.QCFG_SRC_PANEL (k : Nat) : Fld := ⟨0x100500 + 0x8 * k, 31, 26⟩
def T.QCFG_VC (k : Nat) : Fld := ⟨0x100500 + 0x8 * k, 25, 24⟩
def T.QCFG_CTL (k : Nat) : Fld := ⟨0x100500 + 0x8 * k, 23, 23⟩
def T.QCFG_SPILL (k : Nat) : Fld := ⟨0x100500 + 0x8 * k, 22, 22⟩
def T.QCFG_CONS (k : Nat) : Fld := ⟨0x100500 + 0x8 * k, 21, 20⟩
def T.QCFG_EN (k : Nat) : Fld := ⟨0x100500 + 0x8 * k, 0, 0⟩
def T.OCH_DEST (k : Nat) : Fld := ⟨0x100600 + 0x8 * k, 63, 52⟩
def T.OCH_DQ (k : Nat) : Fld := ⟨0x100600 + 0x8 * k, 51, 47⟩
def T.OCH_VC (k : Nat) : Fld := ⟨0x100600 + 0x8 * k, 46, 45⟩
def T.OCH_ATT (k : Nat) : Fld := ⟨0x100600 + 0x8 * k, 44, 44⟩
def T.OCH_CTL (k : Nat) : Fld := ⟨0x100600 + 0x8 * k, 43, 43⟩
def T.OCH_BURST (k : Nat) : Fld := ⟨0x100600 + 0x8 * k, 42, 38⟩
def T.OCH_RATE (k : Nat) : Fld := ⟨0x100600 + 0x8 * k, 37, 30⟩
def T.OCH_DL (k : Nat) : Fld := ⟨0x100600 + 0x8 * k, 29, 14⟩
def T.OCH_CRED (k : Nat) : Fld := ⟨0x100600 + 0x8 * k, 13, 9⟩
def T.OCH_EN (k : Nat) : Fld := ⟨0x100600 + 0x8 * k, 0, 0⟩
def T.SHUT_CFG_BASTE_WAIT (k : Nat) : Fld := ⟨0x100700 + 0x10 * k, 41, 34⟩
def T.SHUT_CFG_DEPTH (k : Nat) : Fld := ⟨0x100700 + 0x10 * k, 33, 30⟩
def T.SHUT_CFG_PRED_MODE (k : Nat) : Fld := ⟨0x100700 + 0x10 * k, 29, 28⟩
def T.SHUT_CFG_MODE (k : Nat) : Fld := ⟨0x100700 + 0x10 * k, 27, 26⟩
def T.SHUT_CFG_CTLQ (k : Nat) : Fld := ⟨0x100700 + 0x10 * k, 25, 21⟩
def T.SHUT_CFG_DQ0 (k : Nat) : Fld := ⟨0x100700 + 0x10 * k, 20, 16⟩
def T.SHUT_CFG_DQ1 (k : Nat) : Fld := ⟨0x100700 + 0x10 * k, 15, 11⟩
def T.SHUT_CFG_OUT0 (k : Nat) : Fld := ⟨0x100700 + 0x10 * k, 10, 6⟩
def T.SHUT_CFG_OUT1 (k : Nat) : Fld := ⟨0x100700 + 0x10 * k, 5, 1⟩
def T.SHUT_CFG_EN (k : Nat) : Fld := ⟨0x100700 + 0x10 * k, 0, 0⟩
def T.SHUT_STAT_OPEN (k : Nat) : Fld := ⟨0x100708 + 0x10 * k, 12, 9⟩
def T.SHUT_STAT_LAST (k : Nat) : Fld := ⟨0x100708 + 0x10 * k, 8, 8⟩
def T.SHUT_STAT_TAG (k : Nat) : Fld := ⟨0x100708 + 0x10 * k, 7, 0⟩
def T.PRED_CFG_CONST : Fld := ⟨0x100740, 63, 32⟩
def T.PRED_CFG_OP : Fld := ⟨0x100740, 31, 29⟩
def T.PRED_CFG_TYPE : Fld := ⟨0x100740, 28, 27⟩
def T.PRED_CFG_DL_SEL : Fld := ⟨0x100740, 26, 25⟩
def T.PRED_CFG_LANE : Fld := ⟨0x100740, 24, 21⟩
def T.PRED_CFG_INQ : Fld := ⟨0x100740, 20, 16⟩
def T.PRED_CFG_OUTA : Fld := ⟨0x100740, 15, 11⟩
def T.PRED_CFG_OUTB : Fld := ⟨0x100740, 10, 6⟩
def T.PRED_CFG_OUTB_EN : Fld := ⟨0x100740, 5, 5⟩
def T.PRED_CFG_INV : Fld := ⟨0x100740, 2, 2⟩
def T.PRED_CFG_EN : Fld := ⟨0x100740, 0, 0⟩
def T.BOB_CFG_REQ_DL (k : Nat) : Fld := ⟨0x100780 + 0x20 * k, 63, 48⟩
def T.BOB_CFG_WSLACK (k : Nat) : Fld := ⟨0x100780 + 0x20 * k, 47, 32⟩
def T.BOB_CFG_DRAIN (k : Nat) : Fld := ⟨0x100780 + 0x20 * k, 31, 16⟩
def T.BOB_CFG_RING (k : Nat) : Fld := ⟨0x100780 + 0x20 * k, 15, 12⟩
def T.BOB_CFG_RUSE (k : Nat) : Fld := ⟨0x100780 + 0x20 * k, 11, 11⟩
def T.BOB_CFG_VC (k : Nat) : Fld := ⟨0x100780 + 0x20 * k, 10, 9⟩
def T.BOB_CFG_EN (k : Nat) : Fld := ⟨0x100780 + 0x20 * k, 0, 0⟩
def T.BOB_FMT_FMTS (k : Nat) : Fld := ⟨0x100788 + 0x20 * k, 63, 0⟩
def T.BOB_SHARD_SHARD (k : Nat) : Fld := ⟨0x100790 + 0x20 * k, 31, 0⟩
def T.BOB_STAT_EPOCH (k : Nat) : Fld := ⟨0x100798 + 0x20 * k, 31, 28⟩
def T.BOB_STAT_OUTST (k : Nat) : Fld := ⟨0x100798 + 0x20 * k, 27, 24⟩
def T.BOB_STAT_PC (k : Nat) : Fld := ⟨0x100798 + 0x20 * k, 23, 17⟩
def T.BOB_STAT_PROG (k : Nat) : Fld := ⟨0x100798 + 0x20 * k, 16, 14⟩
def T.BOB_STAT_STATE (k : Nat) : Fld := ⟨0x100798 + 0x20 * k, 2, 0⟩
def T.BOB_ENTRY_ENTRIES : Fld := ⟨0x1007C0, 63, 0⟩
def T.BOB_STORE_WORD (k : Nat) : Fld := ⟨0x100800 + 0x8 * k, 63, 0⟩

end Sys2Proof.Machine
end

