-- ==== Sys2Proof/Machine/State.lean ====
section
/-! DEFINITION. The state of the module: every register, queue, buffer, counter, mode and pin the spec gives it, and the
queue of the commands that wait. -/

namespace Sys2Proof.Machine


/-- A token: its header and its payload (spec/04_fabric_tokens_and_steering.md R111, R115). -/
structure Token where
  hdr : W64
  pay : List Byte
  deriving DecidableEq, Repr

/-- A channel queue: its tokens in arrival order, the last tags delivered and not squashed (the last of them is the
reference) for the current and for the pending generation, spill mode, slots reserved for refill, whether it has
delivered a token to its consumer since the last probe, and whether it has consumed the hem marker of the current generation (spec/04_fabric_tokens_and_steering.md R117, spec/05_patterns_and_reconfiguration.md R171,
R172, spec/06_progress_deadlock_drain.md R197, R201, R203). -/
structure Queue where
  toks : List Token := []
  refCur : List Nat := []
  refPend : List Nat := []
  spill : Bool := false
  rsv : Nat := 0
  moved : Bool := false
  hemmed : Bool := false
  deriving DecidableEq, Repr

/-- An output channel: credits, bucket, tag count, credits kept for the next generation, and whether the hem marker of
the current generation is sent (spec/04_fabric_tokens_and_steering.md R119, R120,
spec/05_patterns_and_reconfiguration.md R173, R174). -/
structure Och where
  credits : Nat := 0
  bucket : Nat := 0
  tagc : Nat := 0
  kept : Nat := 0
  hem : Bool := false
  deriving DecidableEq, Repr

/-- A basted tag outstanding at a shuttle: the side predicted, the datum, whether the shuttle basted it itself, and where
it was sent: destination, destination queue and tag (spec/04_fabric_tokens_and_steering.md R128 to R132). -/
structure BasteBuf where
  tag : Nat
  side : Nat
  tok : Token
  own : Bool
  dst : Nat × Nat × Nat
  deriving DecidableEq, Repr

/-- An open hardware loop: first index of the body, last index, iterations left (spec/03_compute_tile.md R80). -/
structure LoopFrame where
  start : Nat
  last : Nat
  left : Nat
  deriving DecidableEq, Repr

/-- An operation outstanding, with what it took at its issue: the DL registers (spec/03_compute_tile.md R92), `HEAD`
and `TAIL` of each ring that it accesses (R105), the generator's step and module (spec/02_numerics.md R58), and the
basting-record entry that was the youngest open one (spec/04_fabric_tokens_and_steering.md R134). -/
structure OutOp where
  op : TileOp
  dl : List Nat
  pos : Kv (Nat × Nat)
  step : Nat
  module : Nat
  ent : Option Nat
  deriving DecidableEq, Repr

/-- Something that a basting-record entry holds until it is sewn: a scratchpad write, bytes for the vector unit at an
offset, the pair of a reduction, counter increments, a fault, a basted token sent with its channel, destination and tag
(spec/04_fabric_tokens_and_steering.md R134, R135). -/
inductive Held where
  | write (addr : Nat) (bytes : List Byte)
  | vec (off : Nat) (bytes : List Byte)
  | vred (p : IdxPair)
  | count (c : Cnt)
  | fault (code sub arg : Nat)
  | sent (chan dest dq tag : Nat)
  deriving DecidableEq, Repr

/-- A checkpoint of the sequencer (spec/04_fabric_tokens_and_steering.md R133). -/
structure Checkpoint where
  pc : Nat
  loops : List LoopFrame
  dl : List Nat
  tags : List Nat
  deriving DecidableEq, Repr

/-- An entry of the basting record: the checkpoint, the token consumed and its queue, the verdict received, what is
held, and the sewn tokens that the program consumed while this was the youngest entry; for each token consumed, whether
its credit is still owed to its sender (spec/04_fabric_tokens_and_steering.md R133 to R135,
spec/06_progress_deadlock_drain.md R201). -/
structure BEntry where
  id : Nat
  chk : Checkpoint
  tok : Token
  q : Nat
  owes : Bool := true
  verdict : Option Bool := none
  held : List Held := []
  taken : List (Nat × Token × Bool) := []
  deriving DecidableEq, Repr

/-- A fault of a check on a basted token, held until its verdict: the queue and tag of the token, code, raising unit and
`SUB`, whether `GEN_DROP` is to count it, and a selvedge unit's `ARG` (spec/04_fabric_tokens_and_steering.md R134, R137, R148). -/
structure HeldFlt where
  dest : Nat
  q : Nat
  tag : Nat
  code : Nat
  unit : Nat
  sub : Nat
  drop : Bool := false
  arg : Nat := 0
  deriving DecidableEq, Repr

/-- A ring access of the tile program that stalls: the ring, whether it is the producer's side, and the operation that
issues when the access may be made, none for the access of a `RECV` or `SEND`, which is tried again
(spec/03_compute_tile.md R105, R108). -/
structure RingStall where
  ring : Nat
  prod : Bool
  op : Option TileOp
  deriving DecidableEq, Repr

/-- Values tacked into a stage: for each field key the mask of the bits tacked and the bits
(spec/05_patterns_and_reconfiguration.md R186). -/
abbrev Stage := Kv (Nat × Nat)

/-- A register file: the value of each field that has left its reset value, by field key. -/
abbrev RegFile := Kv Nat

/-- What the loader has written for a tile's pending generation: the generation, the field values of the configuration,
the base and count of the program, initial credits by output channel, the credits withheld from the channel into each queue, the base and count of the bobbin program, the `TILE_SPAD`
granules, and whether ARM and GO have been received (spec/05_patterns_and_reconfiguration.md R157, R165 to R167). -/
structure TilePend where
  gen : Nat
  regs : RegFile := []
  base : Nat := 0
  count : Nat := 0
  creds : Kv Nat := []
  withheld : Kv Nat := []
  bobBase : Nat := 0
  bobCount : Nat := 0
  spad : List (Nat × List Byte) := []
  armed : Bool := false
  go : Bool := false
  deriving DecidableEq, Repr

/-- An open loop of a bobbin: first word of its body, iterations left, its index, its strides and the saved address
registers (spec/09_bobbin_streams.md R290). -/
structure BobLoop where
  start : Nat
  left : Nat
  index : Nat
  s0 : Int
  s1 : Int
  a0 : Nat
  a1 : Nat
  deriving DecidableEq, Repr

/-- A request index in use: its index, whether it stores, its target, its fabric address and length, the scratchpad
byte, the slot position of a ring access, the response tokens still to land, and for the host range the host physical
address, formed when it was issued (spec/09_bobbin_streams.md R296, R299, R300, spec/01_module_overview.md R34). -/
structure BobReq where
  ridx : Nat
  wr : Bool
  target : Nat
  addr : Nat
  bytes : Nat
  spad : Nat
  pos : Option Nat
  left : List Nat
  phys : Nat := 0
  deriving DecidableEq, Repr

/-- A bobbin: whether it runs, its address registers and element index, its loops, fill and drain positions, the slots
waiting to be published, the request indices in use, how far its present transfer has been issued, the
quarantined epochs with the targets whose acknowledgement is awaited, whether a ring access stalls, and the generator's
step and module id taken when a converting store was issued (spec/09_bobbin_streams.md R288 to R307,
spec/02_numerics.md R58). -/
structure Bob where
  run : Bool := false
  a0 : Nat := 0
  a1 : Nat := 0
  ei : Nat := 0
  loops : List BobLoop := []
  fill : Nat := 0
  drain : Nat := 0
  pubs : Nat := 0
  reqs : List BobReq := []
  prog : Nat := 0
  quar : List (Nat × List Nat) := []
  stalled : Bool := false
  seed : Option (Nat × Nat) := none
  deriving DecidableEq, Repr

/-- A tile (spec/03_compute_tile.md; queues, channels, shuttles, predicate unit and basting record,
spec/04_fabric_tokens_and_steering.md; bobbins, spec/09_bobbin_streams.md). Status fields of Tables 3.2, 3.7, 3.10, 4.9
and 9.10 and the counters stand in `regs` under their own names. `past` says that the sequencer has gone past word 2,047
of instruction memory (spec/03_compute_tile.md R81), `progWait` what the tile program waits on
(spec/04_fabric_tokens_and_steering.md R121), `predOpen` the basted tokens that the predicate unit's index counts and whose
verdicts are awaited (R138). -/
structure Tile where
  regs : RegFile := []
  stage : Stage := []
  latch : Kv Nat := []
  commitHeld : Bool := false
  base : Nat := 0
  count : Nat := 0
  halted : Bool := false
  past : Bool := false
  progWait : Option Wait := none
  loops : List LoopFrame := []
  imem : Kv W64 := []
  spad : Memory := []
  acc : Kv W32 := []
  accSat : Kv Bool := []
  outst : List OutOp := []
  vec : List W32 := []
  vred : IdxPair := (0, 0)
  stall : Option RingStall := none
  corrBanks : List Nat := []
  filling : List Nat := []
  queues : Kv Queue := []
  ochs : Kv Och := []
  shut0 : List BasteBuf := []
  shut1 : List BasteBuf := []
  shutHem0 : Bool := false
  shutHem1 : Bool := false
  predHem : Bool := false
  predIdx : Nat := 0
  predOpen : List (Nat × Nat) := []
  entries : List BEntry := []
  entSeq : Nat := 0
  verdicts : List (Nat × Nat × Bool) := []
  fwd : List (Nat × Nat × Nat × Nat × Nat) := []
  hfaults : List HeldFlt := []
  resend : List (Nat × Nat × Token) := []
  staging : List (Nat × Token) := []
  spillIn : List Token := []
  bob0 : Bob := {}
  bob1 : Bob := {}
  bobWords : Kv W64 := []
  bobBase : Nat := 0
  bobCount : Nat := 0
  pend : Option TilePend := none
  tripped : List (TAgent × WaitOn) := []
  deriving DecidableEq, Repr

/-- A `REGION` record of a pattern (spec/05_patterns_and_reconfiguration.md Table 5.5). -/
structure Region where
  base : Nat
  size : Nat
  cls : Nat
  access : Nat
  deriving DecidableEq, Repr

/-- The pattern loader: the load in progress (tag, epoch, image address and length, hold, its generation and the one that
ends, its regions and spill need, the ports its tables configure); the tiles and units written, those that have received
ARM, have acknowledged it, have received GO and have sent their retirement acknowledgement; whether GO has been sent; the
tiles and units that took part in the generation that ends; the acknowledgements of retirement awaited, and whether they
are late; whether the load is being abandoned, to whom DISCARD is
on its way, who has it and has not acknowledged, and whether a reply of kind cancelled is due; the regions and spill need
of the current generation (spec/05_patterns_and_reconfiguration.md R156 to R184). -/
structure Loader where
  live : Bool := false
  tag : Nat := 0
  epoch : Nat := 0
  base : Nat := 0
  len : Nat := 0
  hold : Bool := false
  gen : Nat := 0
  oldGen : Nat := 0
  regions : List Region := []
  spillNeed : Nat := 0
  ports : List Nat := []
  written : List Nat := []
  unitArmed : List Nat := []
  armed : List Nat := []
  goSent : Bool := false
  parts : List Nat := []
  unitGone : List Nat := []
  ackSent : List Nat := []
  awaited : List Nat := []
  late : Bool := false
  discarding : Bool := false
  discardTo : List Nat := []
  discarded : List Nat := []
  cancelled : Bool := false
  curRegions : List Region := []
  curSpillNeed : Nat := 0
  deriving DecidableEq, Repr

/-- One answer of a tile to a probe (spec/06_progress_deadlock_drain.md Table 6.1). -/
structure ProbeAns where
  tile : Nat
  payload : W64
  deriving DecidableEq, Repr

/-- A chain of spill records: tile, queue, generation, and of each record in order the data address and the number of its
arrival at the controller (spec/06_progress_deadlock_drain.md R200, R203, R206). -/
structure Chain where
  tile : Nat
  queue : Nat
  gen : Nat
  recs : List (Nat × Nat)
  deriving DecidableEq, Repr

/-- The unpick controller: the panels whose report is on its way and those that may send no further one, whether another
run follows, the tiles with a probe on its way, the answers on their way and those of the running round, the spill commands
sent and not yet taken, the chains, the pages allocated with the records left in each, the refills in flight, the spill
tokens that have arrived with the tile they come from, the tile, queue and generation of each pair sent whose record is not
written yet, the records written, the tiles whose switch notice is on its way, the drain requests waiting for their reply, whether QUIESCE has stopped the inputs, and
whether a flush has ended the current run (spec/06_progress_deadlock_drain.md R198 to R212). -/
structure Unpick where
  again : Bool := false
  sent : List Nat := []
  spent : List Nat := []
  probed : List Nat := []
  owed : List ProbeAns := []
  answers : List ProbeAns := []
  spillCmds : List (Nat × Nat) := []
  chains : List Chain := []
  pages : Kv Nat := []
  refills : List (Nat × Nat × Token) := []
  arrived : List (Nat × Token) := []
  due : List (Nat × Nat × Nat) := []
  seq : Nat := 0
  notices : List Nat := []
  drainTags : List (Nat × Nat) := []
  stopped : Bool := false
  flushed : Bool := false
  deriving DecidableEq, Repr

/-- A token in the mesh: the router in whose input buffers it lies, or which it enters first, that input, and whether it
has entered; the token; the attachment, A or B, through which it leaves for a selvedge unit, fixed when it was sent; and
the channel that sent it, if one did, as the credit lane knows it (spec/04_fabric_tokens_and_steering.md R119, R140,
R145). -/
structure NetTok where
  r : Nat
  inp : Port
  ent : Bool
  tok : Token
  att : Nat
  src : Option (Nat × Nat)
  deriving DecidableEq, Repr

/-- The arbitration of a router output: whether the next grant falls to the low class, and in the high class to VC1, while
both wait; whether the guard timer has run out; for each virtual channel the inputs, least recently granted first
(spec/04_fabric_tokens_and_steering.md R141). -/
structure Arb where
  low : Bool := false
  vc1 : Bool := false
  guard : Bool := false
  order : List (List Port) := List.replicate 4 [.north, .east, .south, .west, .out]
  deriving DecidableEq, Repr

/-- The mesh and the selvedge units as agents of the fabric: router outputs, verdicts kept at selvedge units until their
tokens come (unit, queue, tag, sew), basted tokens delivered to a unit that has not acted on them yet (unit, queue, tag),
faults of basted tokens at selvedge units, and the channels of units (unit, channel)
that a Run fault has stopped
(spec/04_fabric_tokens_and_steering.md R131, R137, R141, R148). -/
structure Fab where
  arb : Kv Arb := []
  verdicts : List (Nat × Nat × Nat × Bool) := []
  came : List (Nat × Nat × Nat) := []
  hfaults : List HeldFlt := []
  stopped : List (Nat × Nat) := []
  deriving DecidableEq, Repr

/-- A credit on the credit lane, for an output channel of a tile or selvedge unit and a generation
(spec/04_fabric_tokens_and_steering.md R119). -/
structure Credit where
  dest : Nat
  chan : Nat
  gen : Nat
  deriving DecidableEq, Repr

/-- A class extent in units of 2 MiB; class 0 W, 1 S, 2 A (spec/08_memory_system.md R257). -/
structure Extent where
  base : Nat
  size : Nat
  cls : Nat
  deriving DecidableEq, Repr

/-- A row with corrected errors: module channel, bank, row, count (spec/08_memory_system.md R268). -/
structure RowCount where
  chan : Nat
  bank : Nat
  row : Nat
  count : Nat
  deriving DecidableEq, Repr

/-- A line of the lining cache: controller, lining group, set, storage granule, dirty
(spec/08_memory_system.md R272). -/
structure Line where
  mc : Nat
  group : Nat
  set : Nat
  granule : Nat
  dirty : Bool
  deriving DecidableEq, Repr

/-- A lining group changing mode: controller, group, old and new mode, whether the requests accepted before have
drained, whether the old mode's lines are written back (spec/08_memory_system.md R273, R280). -/
structure LnChange where
  mc : Nat
  group : Nat
  old : Nat
  new : Nat
  drained : Bool
  written : Bool
  deriving DecidableEq, Repr

/-- An atomic request (spec/08_memory_system.md Table 8.3): the fields of its payload, whether the payload is illegal in
`OP`, a reserved field or `LEN`, and the generator's step and module id as they stood when it was issued
(spec/02_numerics.md R58). -/
structure AtomReq where
  agent : Nat
  op : Nat
  addr : Nat
  set : Nat
  cnt : Nat
  seq : Nat
  salt : Nat
  addends : List W32
  illegal : Bool
  seed : Nat × Nat
  deriving DecidableEq, Repr

/-- A request held at a controller: a basted store or atomic that waits for its verdict, with its tag, or a request that
waits behind one to the same granule, without; the generator's step and module id when it came; whether it addresses a
lining group that has been closed since (spec/04_fabric_tokens_and_steering.md R137, spec/08_memory_system.md R263, R276,
R280, spec/02_numerics.md R58). -/
structure HeldReq where
  mc : Nat
  gran : Nat
  tag : Option Nat
  req : Instr
  seed : Nat × Nat
  accepted : Bool := false
  deriving DecidableEq, Repr

/-- A MOVE in progress: ranges, the command, host data of a host-range source, and whether another agent has touched
either range (spec/08_memory_system.md R278, R279). -/
structure MoveJob where
  src : Nat
  dst : Nat
  len : Nat
  tag : Nat
  epoch : Nat
  host : List Byte
  touched : Bool
  deriving DecidableEq, Repr

/-- A zero fill in progress: the command that started it, none for the fill of a reset or for a command whose tape unit
was cleared, and its range in units of 2 MiB (spec/08_memory_system.md R259, R285, R496). -/
structure FillJob where
  cmd : Option (Nat × Nat)
  base : Nat
  size : Nat
  deriving DecidableEq, Repr

/-- The memory system (spec/08_memory_system.md): data bytes, poisoned granules, the extent map, fills and a MOVE in
progress, error tracking and remapped rows, scrub positions, cache lines from the most to the least recently used,
lining groups changing mode, ticket counters, held requests, mode registers, repair commands running, the controllers
whose data are unsound, errors of stored granules and lining words that no access has read yet, and atomic requests that
wait in the attachments for a place in a full ticket buffer (R277). `data` is keyed by storage byte, granule x 256 + data byte, below 0xC0_0000_0000 and by fabric address in the lining windows. -/
structure MemSys where
  data : Memory := []
  poison : List Nat := []
  exts : List Extent := []
  fills : List FillJob := []
  move : Option MoveJob := none
  rows : List RowCount := []
  remaps : List RowCount := []
  scrub : Kv Nat := []
  lines : List Line := []
  lnChg : List LnChange := []
  next : Kv Nat := []
  heldAtoms : List AtomReq := []
  heldReqs : List HeldReq := []
  modeRegs : Kv Nat := []
  repair : Kv W64 := []
  unsound : List Nat := []
  errs : Kv Ecc := []
  atomWait : List (AtomReq × Ecc) := []
  deriving DecidableEq, Repr

/-- The two update-to-weight sums of one press unit for one group (spec/07_training_step_and_press.md R247). -/
structure UwSum where
  group : Nat
  mc : Nat
  dlt : CPair
  wgt : CPair
  deriving DecidableEq, Repr

/-- The final reply that a committed step still owes: its command, the step, the verdict, N² and k, the first fault
held or raised after the commit, the contributions excluded, and whether its audit has ended
(spec/07_training_step_and_press.md R222, spec/11_host_interface_and_command_tape.md Table 11.11). -/
structure StepReply where
  tag : Nat
  epoch : Nat
  step : Nat
  verdict : Nat
  n2 : W32
  k : W32
  late : Nat
  drop : Nat
  idle : Bool
  deriving DecidableEq, Repr

/-- A basted close token held at a controller: tag, length, payload (spec/07_training_step_and_press.md R231). -/
structure HeldClose where
  mc : Nat
  tag : Nat
  len : Nat
  payload : W64
  deriving DecidableEq, Repr

/-- The press units and the norm gate: the record checksums of the step, the `STEP_OPEN` command in progress and a
deferred one, whether a step has opened since reset, close tokens counted per group, groups closing and closed, the count
n delivered with `RED`, N² and k of the verdict, lines swept (group, unit,
line), groups whose sweep has ended, the update-to-weight sums, the fault held after this module's verdict, contributions
excluded in the open step, replies of committed steps, the units that have audited, and basted close tokens
(spec/07_training_step_and_press.md R220 to R250). -/
structure Press where
  crcs : List Nat := []
  cmd : Option (Nat × Nat) := none
  deferred : Option (Nat × Nat) := none
  everOpened : Bool := false
  closeCnt : Kv Nat := []
  closing : List Nat := []
  closed : List Nat := []
  red : Kv Nat := []
  n2 : W32 := 0
  k : W32 := 0
  swept : List (Nat × Nat × Nat) := []
  sweptGroups : List Nat := []
  uw : List UwSum := []
  heldFault : Option Nat := none
  lateDrop : Nat := 0
  replies : List StepReply := []
  audited : List Nat := []
  heldClose : List HeldClose := []
  deriving DecidableEq, Repr

/-- An `OUT` record (spec/10_seam_ports_and_collectives.md Table 10.8). -/
structure OutRec where
  port : Nat
  slot : Nat
  rmod : Nat
  rslot : Nat
  deriving DecidableEq, Repr

/-- An `IN` record (spec/10_seam_ports_and_collectives.md Table 10.8). -/
structure InRec where
  port : Nat
  slot : Nat
  smod : Nat
  dest : Nat
  dq : Nat
  vc : Nat
  cred : Nat
  rate : Nat
  burst : Nat
  ctl : Nat
  win : Nat
  deriving DecidableEq, Repr

/-- A `COLL` record (spec/10_seam_ports_and_collectives.md Table 10.8); kind 1 `REDUCE`, 2 `NORM`. -/
structure CollRec where
  port : Nat
  kind : Nat
  id : Nat
  p : Nat
  pos : Nat
  pred : Nat
  succ : Nat
  glo : Nat
  ghi : Nat
  quorum : Nat
  cdl : Nat
  ddest : Nat
  ddq : Nat
  deriving DecidableEq, Repr

/-- A `ROUTE` record, with the engine whose section holds it (spec/10_seam_ports_and_collectives.md Table 10.8). -/
structure RouteRec where
  port : Nat
  mlo : Nat
  mhi : Nat
  lport : Nat
  rport : Nat
  deriving DecidableEq, Repr

/-- The seam tables of one generation (spec/10_seam_ports_and_collectives.md R326, R327). -/
structure SeamTab where
  outs : List OutRec := []
  ins : List InRec := []
  colls : List CollRec := []
  routes : List RouteRec := []
  deriving DecidableEq, Repr

/-- One seam port's link: whether a valid `NEGOTIATE` has come, whether one with `SEEN` has gone and one with `SEEN` has
come, whether the port has refused to settle, the id captured at negotiation, next sequence numbers out and in, the replay store, the last `LACK` and `FREE` received, retransmissions
in a row, whether a negative acknowledgement has gone for the value expected, receive slots in use, the
rest of the pause received in units of 10 ps, whether XOFF has been sent, and whether an `ACK`, negative or not, waits for
the end of a pause (spec/10_seam_ports_and_collectives.md R319 to R325). -/
structure SPort where
  seen : Bool := false
  sentSeen : Bool := false
  peerSeen : Bool := false
  refused : Bool := false
  id : Nat := 0
  txSeq : Nat := 0
  rxSeq : Nat := 0
  replay : List SMsg := []
  toSend : List SMsg := []
  lack : Nat := 0
  free : Nat := 128
  rtx : Nat := 0
  naked : Bool := false
  slots : Nat := 0
  pause : Nat := 0
  xoff : Bool := false
  ackDue : Option Bool := none
  deriving DecidableEq, Repr

/-- An outbound stream: its record, generation, tokens not sent in arrival order, a basted one holding those behind it,
credits held, and whether the feeding channel has delivered its hem marker
(spec/10_seam_ports_and_collectives.md R329). -/
structure OutStream where
  rc : OutRec
  gen : Nat
  packed : List Token := []
  credits : Nat := 0
  hem : Bool := false
  deriving DecidableEq, Repr

/-- An inbound stream: its record, generation, tokens waiting to be re-injected, the shaping state of its channel,
credits owed to the sender, whether the record has taken effect, and whether `STREAM_HEM` has come
(spec/10_seam_ports_and_collectives.md R331). -/
structure InStream where
  rc : InRec
  gen : Nat
  queue : List Token := []
  credits : Nat := 0
  bucket : Nat := 0
  tagc : Nat := 0
  owed : Nat := 0
  inForce : Bool := false
  hem : Bool := false
  deriving DecidableEq, Repr

/-- What a module has decided of one input of a reduction chain: not yet decided, included, excluded
(spec/10_seam_ports_and_collectives.md R335). -/
inductive Incl where
  | undecided | included | excluded
  deriving DecidableEq, Repr

/-- A partial received and not yet forwarded: first line, count n, the words of its lines. -/
structure Partial where
  line : Nat
  n : Nat
  lines : List (List W32)
  deriving DecidableEq, Repr

/-- A group of a live `REDUCE` instance: its index, its record at the opening, the predecessor's range once its `OWNER`
message has passed, the two inputs, whether the contribution timer runs, partials not yet forwarded, whether the chains of
the predecessor's lines and of an excluded upstream's lines have begun, whether `SUSPECT` has excluded it, the owned lines
that have ended, and whether the quorum has failed (spec/10_seam_ports_and_collectives.md R333 to R336). -/
structure RedGroup where
  group : Nat
  record : List Byte
  prev : Option (Nat × Nat) := none
  up : Incl := .undecided
  own : Incl := .undecided
  timer : Bool := false
  parts : List Partial := []
  begun : Bool := false
  restarted : Bool := false
  suspect : Bool := false
  ended : Nat := 0
  failed : Bool := false
  deriving DecidableEq, Repr

/-- What a module has received of one owner's return, or of the answer to a re-request: group, owner, the master bytes,
the element and scale bytes written, the range re-requested, the lines checked
(spec/10_seam_ports_and_collectives.md R339, R340). -/
structure RetRange where
  group : Nat
  owner : Nat
  masters : List Byte := []
  elems : List Byte := []
  scales : List Byte := []
  asked : Bool := false
  checked : Nat := 0
  deriving DecidableEq, Repr

/-- A verdict received or sent: originator, verdict, N², k (spec/10_seam_ports_and_collectives.md R338). -/
structure Verd where
  who : Nat
  v : Nat
  n2 : W32
  k : W32
  deriving DecidableEq, Repr

/-- A live collective instance: its record and the routes in force at its opening, its step and generation, whether the
step has committed, its groups, the ranges returned, owned groups swept, the norm partials, the verdicts, whether this
module's verdict is sent, and whether a difference has been found (spec/10_seam_ports_and_collectives.md R332 to R340). -/
structure Inst where
  rc : CollRec
  routes : List RouteRec
  step : Nat
  gen : Nat
  committed : Bool := false
  groups : List RedGroup := []
  ranges : List RetRange := []
  swept : List Nat := []
  partials : Kv W32 := []
  verdicts : List Verd := []
  sentVerdict : Bool := false
  split : Bool := false
  deriving DecidableEq, Repr

/-- A gather in progress at its requester: the engine, the fields of the request, the generation, the master, element and
scale bytes received, whether it was asked again (spec/10_seam_ports_and_collectives.md R341). -/
structure Gather where
  port : Nat
  daddr : Nat
  line : Nat
  nlines : Nat
  stepq : Nat
  owner : Nat
  group : Nat
  cdest : Nat
  cdq : Nat
  tag : Nat
  gen : Nat
  masters : List Byte := []
  elems : List Byte := []
  scales : List Byte := []
  asked : Bool := false
  deriving DecidableEq, Repr

/-- A basted gather request held at an engine: its tag, its generation, its payload
(spec/10_seam_ports_and_collectives.md R341). -/
structure HeldGather where
  port : Nat
  tag : Nat
  gen : Nat
  payload : List Byte
  deriving DecidableEq, Repr

/-- A completion channel of a seam engine into a tile queue: of a `REDUCE` record, with 1 credit, or of gathers, with 16; its
bucket; the payloads that wait to be sent (spec/05_patterns_and_reconfiguration.md R160). -/
structure DoneChan where
  port : Nat
  dest : Nat
  dq : Nat
  gen : Nat
  cred : Nat
  credits : Nat
  bucket : Nat
  tagc : Nat := 0
  owed : List (List Byte) := []
  deriving DecidableEq, Repr

/-- The seam ports and engines: the links, the tables in force and pending, the streams, the live instances, messages
held for a later step (with the port whose receive slot one occupies, none in the store), gathers in progress, waiting and
basted, re-requests and gathers deferred at the owner, stream messages held, slots whose `STREAM_HEM` has come and that
have no record, completion channels (spec/10_seam_ports_and_collectives.md). -/
structure Seam where
  ports : Kv SPort := []
  cur : SeamTab := {}
  pend : Option SeamTab := none
  outs : List OutStream := []
  ins : List InStream := []
  insts : List Inst := []
  future : List (Option Nat × SMsg) := []
  gathers : List Gather := []
  gatherWait : List (Nat × Nat × List Byte) := []
  gatherHeld : List HeldGather := []
  deferred : List (Nat × SMsg) := []
  streams : List (Nat × SMsg) := []
  hemSlots : List (Nat × Nat) := []
  done : List DoneChan := []
  deriving DecidableEq, Repr

/-- A tape command: tag, epoch, opcode, sequence number, flags, parameters, whether its unit has taken it up, its row has
acted, its final reply is in the store, and its tag has been retired while its work runs on; the result that its reply
will carry (spec/11_host_interface_and_command_tape.md R360, R364, R365, R371). -/
structure Cmd where
  tag : Nat
  epoch : Nat
  opcode : Nat
  seq : Nat
  fence : Bool
  notify : Bool
  params : List Byte
  started : Bool := false
  taken : Bool := false
  replied : Bool := false
  gone : Bool := false
  result : List Byte := []
  deriving DecidableEq, Repr

/-- A reply waiting in the reply store: the command it answers, kind, code, result, whether it belongs to a live tag,
whether it notifies, and whether it has waited past its deadline
(spec/11_host_interface_and_command_tape.md R372, R373). -/
structure Reply where
  opcode : Nat
  tag : Nat
  epoch : Nat
  kind : Nat
  code : Nat
  tseq : Nat
  result : List Byte
  live : Bool
  notify : Bool
  deriving DecidableEq, Repr

/-- A step channel of the tape unit (spec/11_host_interface_and_command_tape.md R369). -/
structure StepChan where
  dest : Nat
  dq : Nat
  cred : Nat
  rate : Nat
  burst : Nat
  credits : Nat
  bucket : Nat
  tagc : Nat
  gen : Nat
  owed : List (List Byte)
  owedEnd : Bool
  hem : Bool
  deriving DecidableEq, Repr

/-- The tape unit: live commands in tape order, the epoch with which each tag last retired, replies waiting, whether
the torn timer runs, notices on their way and notices kept, whether an episode of waiting has raised its deadline,
whether a reply waits for space, the step channels in force and pending, MSI-X vector controls and pending bits
(spec/11_host_interface_and_command_tape.md R361 to R376). -/
structure Tape where
  cmds : List Cmd := []
  lastEpoch : Kv Nat := []
  replies : List Reply := []
  torn : Bool := false
  notices : List (Nat × Nat) := []
  kept : Bool := false
  episode : Bool := false
  waiting : Bool := false
  chans : List StepChan := []
  pendChans : List StepChan := []
  msixAddr : Kv Nat := []
  msixData : Kv Nat := []
  msixMask : List Bool := [true, true, true, true, true, true, true, true]
  msixPend : List Bool := [false, false, false, false, false, false, false, false]
  deriving DecidableEq, Repr

/-- A request of the module to host memory that waits for its answer: the agent that issued it, whether it writes, the
host physical address and the length (spec/11_host_interface_and_command_tape.md R357). -/
structure HostReq where
  agent : HostAgent
  wr : Bool
  addr : Nat
  len : Nat
  deriving DecidableEq, Repr

/-- A write-back and invalidate request to the host for a page in host bias, with the fabric request that waits for the
answer and the generator's step and module id when it came (spec/11_host_interface_and_command_tape.md R355). -/
structure BiasReq where
  addr : Nat
  req : Instr
  seed : Nat × Nat
  deriving DecidableEq, Repr

/-- The CXL port: PERST# asserted and the time of its deassertion, port released, link up, mode settled (0 not yet, 1 CXL,
2 PCIe fallback), speed and width, whether configuration space is ready, what the host has written to it, MSI-X controls, HDM decoders (base, size, committed), the bias bit of each 2 MiB page that is in host bias, requests to
host memory and host-bias requests in flight, and the IDE streams (spec/11_host_interface_and_command_tape.md R349 to
R358). -/
structure Cxl where
  perst : Bool := true
  released : Bool := false
  perstAt : Nat := 0
  linkUp : Bool := false
  mode : Nat := 0
  speed : Nat := 0
  width : Nat := 0
  configReady : Bool := false
  cfg : Kv Nat := []
  msixEnable : Bool := false
  msixFuncMask : Bool := false
  hdm : Kv (Nat × Nat × Bool) := []
  hdmErr : List Nat := []
  hostBias : List Nat := []
  reqs : List HostReq := []
  biasReqs : List BiasReq := []
  ideKeys : Kv (List Byte) := []
  ideOn : List Nat := []
  deriving DecidableEq, Repr
/-- A fault record as the raising unit holds it: code, resolved class, the flag bits `RUN`, `ESC`, `SAFE_CAUSE`,
`AFTER_COMMIT` of its `CLASS` byte, generation, unit, sub, arg, and whether a command's final reply reports it
(spec/15_faults_and_safe_state.md R465, R466). -/
structure FltRec where
  code : Nat
  cls : Nat
  flags : Nat
  gen : Nat
  unit : Nat
  sub : Nat
  arg : Nat
  tied : Bool
  deriving DecidableEq, Repr

/-- Where a firmware update stands (spec/12_thimble_management_security.md R391). -/
inductive UpdPhase where
  | idle | requested | receiving | received | verified
  deriving DecidableEq, Repr

/-- A firmware update: its binding, its phase, the component's size, the update agent's maximum transfer, whether the header has
passed, how far the region has been written, whether VerifyComplete passed
(spec/12_thimble_management_security.md R391). -/
structure Update where
  vdm : Bool := false
  phase : UpdPhase := .idle
  size : Nat := 0
  maxXfer : Nat := 0
  header : List Byte := []
  written : Nat := 0
  passed : Bool := false
  deriving DecidableEq, Repr

/-- An SPDM session: its identifier, whether it is established (spec/12_thimble_management_security.md R393). -/
structure Sess where
  id : Nat
  est : Bool
  deriving DecidableEq, Repr

/-- Thimble: the flash image region once an update has written it (none: as manufactured), how many of its bytes are
written, whether it is marked invalid, the flash option bytes once written, the option bytes in force, the fuses, the running image's interface version and version, the event log
and its RAM buffer, the number of the next entry, the times of the last correctable record per code, the repair
records, the clock mode under which training values are stored, SPDM, update, MCTP, unlock, watchdog and sensor state,
the measurement values formed at boot
(spec/12_thimble_management_security.md R384 to R411, spec/14_reset_bringup_selftest.md R448 to R459). -/
structure Thimble where
  flash : Option Memory := none
  flashLen : Nat := 0
  imgInvalid : Bool := false
  optFlash : Option (List Byte) := none
  debugLock : Nat := 0
  pcieOnly : Bool := false
  smbAddr : Nat := 0x4E
  seamMap : List Byte := []
  ownerKey : List Byte := []
  rollback : Nat := 0
  revoked : List Nat := []
  keyIndex : Nat := 0
  sealed : Bool := false
  policyLock : Bool := false
  imgMajor : Nat := 1
  imgMinor : Nat := 0
  fwVersion : Nat := 0
  advanced : Bool := false
  log : List (Nat × List Byte) := []
  buf : List (List Byte) := []
  nextLseq : Nat := 0
  lastCe : Kv Nat := []
  repairs : List RepRec := []
  trained : Option Nat := none
  upd : Update := {}
  algs : Bool := false
  sessions : List Sess := []
  nonces : List (Nat × List Byte) := []
  unlocked : Bool := false
  restarting : Bool := false
  lastWdog : Option Nat := none
  eid : Nat := 0
  receiver : Option (Bool × Nat) := none
  sensorOff : List Nat := []
  bad : Kv Nat := []
  above : List (Nat × Nat) := []
  alert : Bool := false
  meas : List (List Byte) := []
  deriving DecidableEq, Repr

/-- A panel's own power state: thermal cap, clamp, the frequency it announced last, what its neighbours announced, the
frequency and voltage being moved to, neighbours whose acknowledgement is awaited, whether a change runs, a droop, and
the temperature in 1/16 °C (spec/13_panels_clocks_power.md R417 to R430). -/
structure Panel where
  tcap : Nat := 2500
  clamp : Nat := 2500
  ann : Nat := 2500
  nbAnn : Kv Nat := []
  ftgt : Nat := 0
  vtgt : Nat := 0
  acks : List Nat := []
  changing : Bool := false
  droop : Bool := false
  temp : Int := 0
  deriving DecidableEq, Repr

/-- Panels and power: the panels, the panel commits held in order of arrival, the rails up in the order of Table 13.4, the
temperatures of the LPDDR5X packages and of the power stage, the Thimble time at which the fast loop last acted, a panel
trip that may persist, the reference in use, and whether the oscillator has failed
(spec/13_panels_clocks_power.md R413 to R433). -/
structure Power where
  panels : Kv Panel := []
  commits : List Nat := []
  railsUp : Nat := 0
  pkg : Kv Int := []
  stage : Int := 0
  fastAt : Option Nat := none
  tripped : Bool := false
  onOsc : Bool := false
  oscBad : Bool := false
  deriving DecidableEq, Repr

/-- Which sequence of spec/14_reset_bringup_selftest.md runs: none, a start (Table 14.8), a warm reset of the hot-reset
or FLR form (Table 14.5), a shutdown (Table 14.9). -/
inductive SeqKind where
  | none | start | warm (flr : Bool) | shutdown (test : Bool) (tag epoch : Nat)
  deriving DecidableEq, Repr

/-- Reset control: the sequence running, the blocks that have not reported idle, whether the firmware runs, the rails and
panels are up, orders 2 to 4 of Table 14.3 are released, the channels are trained, the zero fill has ended, the fabric is
released, an SRAM repair has failed, a finishing test runs, and the step of Table 14.9 that a shutdown has reached (spec/14_reset_bringup_selftest.md R438 to R457). -/
structure Rst where
  seq : SeqKind := .none
  busy : List Blk := []
  fwRunning : Bool := false
  railsOk : Bool := false
  released : Bool := false
  trainedOk : Bool := false
  filled : Bool := false
  fabricOk : Bool := false
  repairFail : Bool := false
  testing : Bool := false
  shut : Nat := 0
  deriving DecidableEq, Repr

/-- Faults: the records that wait in their raising units, the cause of the safe state, a fatal line asserted and not
yet taken, and whether the safe state is entered (spec/15_faults_and_safe_state.md R464 to R473). -/
structure Flt where
  waiting : List FltRec := []
  cause : Option FltRec := none
  fatal : Bool := false
  safe : Bool := false
  deriving DecidableEq, Repr

/-- The sideband pins and straps (spec/16_module_connections.md R485 to R489). -/
structure Pins where
  vaux : Bool := false
  input50 : Bool := false
  sysRst : Bool := false
  bootSrc : Nat := 0
  clkMode : Nat := 0
  deriving DecidableEq, Repr

/-- How one line of host memory is accessed: the CXL.cache requests, and the PCIe memory requests of the fallback
(spec/11_host_interface_and_command_tape.md Table 11.5). -/
inductive BusKind where
  | rdCurr | itoMWr | woWrInv | memRead | memWrite
  deriving DecidableEq, Repr

/-- What the block presents at its boundary (log entry 2): reads and writes of host memory; data of a read of a register, of configuration space or
through HDM, a snoop that finds no line, a completion with an error, the answer of a memory controller to a fabric agent, an MSI-X message, a seam frame, a PFC frame, a response to a management message, and a message sent unprompted. -/
inductive Out where
  | regRead (off v : Nat)
  | hdmData (addr : Nat) (bytes : List Byte)
  | memData (agent addr : Nat) (bytes : List Byte)
  | cfgRead (off v : Nat)
  | snoopMiss (addr : Nat)
  | memDone (agent addr : Nat)
  | memRefused (agent addr code : Nat)
  | poisoned (addr : Nat)
  | completion (status : Nat)
  | busRead (addr len : Nat) (lines : List BusKind)
  | busWrite (addr : Nat) (bytes : List Byte) (lines : List BusKind)
  | msix (vector : Nat)
  | seam (p : Nat) (m : SMsg) (bytes : List Byte)
  | pfc (p : Nat) (xoff : Bool)
  | mgmt (kind : Nat) (bytes : List Byte)
  deriving DecidableEq, Repr

/-- The state of the module. -/
structure State where
  bar : RegFile
  barStage : Stage
  barLatch : Kv Nat
  tiles : Kv Tile
  net : List NetTok
  fab : Fab
  lane : List Credit
  loader : Loader
  unpick : Unpick
  press : Press
  mem : MemSys
  seam : Seam
  tape : Tape
  cxl : Cxl
  th : Thimble
  pow : Power
  rst : Rst
  flt : Flt
  pins : Pins
  out : List Out
  host : Memory
  now : Nat
  free : Nat
  pending : List Instr
  deriving DecidableEq, Repr

/-- Faults of this model. No meaning ends in one: every fault of the spec is an effect on the state
(spec/15_faults_and_safe_state.md R463). -/
inductive Fault where
  /-- No command raises this; the interface asks for a type. Safe. -/
  | none
  deriving DecidableEq, Repr

/-- Refusals of this model. -/
inductive Refusal where
  /-- A command that has no meaning yet, by its mnemonic; raised by an arm of `exec` only. Safe. -/
  | notModelled (mnemonic : String)
  deriving DecidableEq, Repr

/-- The extent map after a reset that clears the memory controllers: two extents of class A, the second being the
spill area (spec/08_memory_system.md R258). -/
def resetExtents : List Extent := [⟨0, 393088, 2⟩, ⟨393088, 128, 2⟩]

/-- The module as power finds it: every register at its Reset value, no supply valid, nothing running
(spec/00_scope.md R14, spec/14_reset_bringup_selftest.md R438; values that no source gives: log entry 3). -/
def State.reset : State :=
  { bar := [], barStage := [], barLatch := [], tiles := [], net := [], fab := {}, lane := [],
    loader := {}, unpick := {}, press := {}, mem := { exts := resetExtents }, seam := {}, tape := {}, cxl := {},
    th := {}, pow := {}, rst := {}, flt := {}, pins := {}, out := [], host := [], now := 0, free := 0, pending := [] }

end Sys2Proof.Machine
end

