-- ==== Sys2Proof/Machine/Flags.lean ====
section
/-! DEFINITION. Register fields: reading and setting them, staging, counters and status bits of BAR0 and of the tiles
(spec/00_scope.md R8 to R14, spec/02_numerics.md R72, spec/05_patterns_and_reconfiguration.md R186 to R188). -/

namespace Sys2Proof.Machine

/-- A field of a register file: what has been put there, else its reset value (spec/00_scope.md R14). -/
def rfGet (rf : RegFile) (f : Fld) : Nat := (kvGet? rf f.key).getD (resetOf f)

/-- A register file with a field set, cut to the field's width. -/
def rfSet (rf : RegFile) (f : Fld) (v : Nat) : RegFile := kvSet rf f.key (v % 2 ^ f.width)

/-- A counter raised, held at `2 ^ width - 1` (spec/02_numerics.md R72). -/
def rfCount (rf : RegFile) (f : Fld) (n : Nat) : RegFile :=
  kvSet rf f.key (min (2 ^ f.width - 1) (rfGet rf f + n))

/-- A field of BAR0. -/
def State.get (s : State) (f : Fld) : Nat := rfGet s.bar f

/-- A one-bit field of BAR0. -/
def State.flag (s : State) (f : Fld) : Bool := rfGet s.bar f = 1

/-- The state with a field of BAR0 set. -/
def State.set (s : State) (f : Fld) (v : Nat) : State := { s with bar := rfSet s.bar f v }

/-- The state with several fields of BAR0 set. -/
def State.setAll (s : State) (l : List (Fld × Nat)) : State :=
  { s with bar := l.foldl (fun rf p => rfSet rf p.1 p.2) s.bar }

/-- The state with a counter of BAR0 raised (spec/02_numerics.md R72). -/
def State.bump (s : State) (f : Fld) (n : Nat) : State := { s with bar := rfCount s.bar f n }

/-- A tile of the state. -/
def State.tile (s : State) (t : Nat) : Tile := kvGet {} s.tiles t

/-- The state with a tile put back. -/
def State.setTile (s : State) (t : Nat) (x : Tile) : State := { s with tiles := kvSet s.tiles t x }

/-- The state with a tile changed. -/
def State.onTile (s : State) (t : Nat) (f : Tile → Tile) : State := s.setTile t (f (s.tile t))

/-- A field of a tile. -/
def Tile.get (x : Tile) (f : Fld) : Nat := rfGet x.regs f

/-- A one-bit field of a tile. -/
def Tile.flag (x : Tile) (f : Fld) : Bool := rfGet x.regs f = 1

/-- The tile with a field set. -/
def Tile.set (x : Tile) (f : Fld) (v : Nat) : Tile := { x with regs := rfSet x.regs f v }

/-- The tile with a counter raised. -/
def Tile.bump (x : Tile) (f : Fld) (n : Nat) : Tile := { x with regs := rfCount x.regs f n }

/-- The panel of a tile (spec/00_scope.md R20). -/
def panelOf (t : Nat) : Nat := 6 * (t / 48 / 8) + t % 48 / 8

/-- The column and row of a tile (spec/00_scope.md R19). -/
def tileX (t : Nat) : Nat := t % 48
def tileY (t : Nat) : Nat := t / 48

/-- How many tiles there are. -/
def nTiles : Nat := 2304

/-- The state after an output is presented (log entry 2). -/
def State.emit (s : State) (o : Out) : State := { s with out := s.out ++ [o] }

/-- A free value of `w` bits, the counter advanced (log entry 5). -/
def State.freeVal (s : State) (w : Nat) : BitVec w × State :=
  (Config.freeValue w s.free, { s with free := s.free + 1 })

/-- `n` free bytes (log entry 5). -/
def State.freeBytes (s : State) (n : Nat) : List Byte × State :=
  ((List.range n).map fun k => Config.freeValue 8 (s.free + k), { s with free := s.free + n })

/-- What of a field a 32-bit or 64-bit write at a byte offset covers: the mask within the field and the bits
(spec/05_patterns_and_reconfiguration.md R186). `lo` is the first bit of the register that the write covers. -/
def writePart (hi lo : Nat) (wlo wn v : Nat) : Nat × Nat :=
  let a := max lo wlo
  let b := min hi (wlo + wn - 1)
  if b < a then (0, 0)
  else
    let mask := (2 ^ (b + 1 - a) - 1) * 2 ^ (a - lo)
    (mask, bits v (a - wlo) (b + 1 - a) * 2 ^ (a - lo))

/-- A stage with the bits under a mask replaced (spec/05_patterns_and_reconfiguration.md R186). -/
def tack (st : Stage) (key mask v : Nat) : Stage :=
  if mask = 0 then st
  else
    let o := kvGet (0, 0) st key
    kvSet st key (Nat.lor o.1 mask, Nat.lor (Nat.land o.2 (Nat.xor (Nat.lor o.1 mask) mask)) (Nat.land v mask))

/-- The value that a commit would give a field: the bits tacked over the value in force. -/
def staged (rf : RegFile) (st : Stage) (f : Fld) : Nat :=
  match kvGet? st f.key with
  | none => rfGet rf f
  | some (m, v) => Nat.lor (Nat.xor (rfGet rf f) (Nat.land (rfGet rf f) m)) (Nat.land v m)

/-- Has the field anything tacked? -/
def isStaged (st : Stage) (f : Fld) : Bool := (kvGet? st f.key).isSome

/-- The offset of the register to which a field key belongs. -/
def keyOff (k : Nat) : Nat := k / 64

/-- A register file with every tacked field whose register offset satisfies `p` applied. -/
def applyStage (rf : RegFile) (st : Stage) (p : Nat → Bool) : RegFile :=
  st.foldl (fun r e =>
    if p (keyOff e.1) then
      let f : Fld := ⟨keyOff e.1, 63, e.1 % 64⟩
      kvSet r e.1 (staged rf st f)
    else r) rf

/-- A stage without the fields whose register offset satisfies `p`. -/
def dropStage (st : Stage) (p : Nat → Bool) : Stage := st.filter fun e => !p (keyOff e.1)

/-- Has the stage anything for the registers `p`? -/
def anyStaged (st : Stage) (p : Nat → Bool) : Bool := st.any fun e => p (keyOff e.1)

/-- Every register field in force whose offset satisfies `p` back at its reset value. -/
def resetRegs (rf : RegFile) (p : Nat → Bool) : RegFile := rf.filter fun e => !p (keyOff e.1)

/-- Is an offset in `[lo, hi]`? -/
def inRange (lo hi : Nat) (o : Nat) : Bool := decide (lo ≤ o) && decide (o ≤ hi)

end Sys2Proof.Machine
end

