-- ==== Sys2Proof/Machine/Operands.lean ====
section
/-! DEFINITION. The forms in which operands arrive and results leave: check codes, token headers, tape packets, reply
records, fault records and seam messages. -/

namespace Sys2Proof.Machine

/-- One byte of the CRC-8 of spec/04_fabric_tokens_and_steering.md R112, most significant bit first. -/
def crc8Byte (c : Nat) (b : Byte) : Nat :=
  let step (x : Nat) : Nat := if bit x 7 then Nat.xor (x * 2 % 256) 0x07 else x * 2 % 256
  step (step (step (step (step (step (step (step (Nat.xor c b.toNat))))))))

/-- The CRC-8 of spec/04_fabric_tokens_and_steering.md R112 over bytes in ascending address order. -/
def crc8 (l : List Byte) : Nat := l.foldl crc8Byte 0

/-- One byte of a reflected 32-bit CRC with the reflected polynomial `poly`. -/
def crcRefl (poly : Nat) (c : Nat) (b : Byte) : Nat :=
  let step (x : Nat) : Nat := if bit x 0 then Nat.xor (x / 2) poly else x / 2
  step (step (step (step (step (step (step (step (Nat.xor c b.toNat))))))))

/-- The CRC-32 of spec/05_patterns_and_reconfiguration.md R151. -/
def crc32 (l : List Byte) : Nat := Nat.xor (l.foldl (crcRefl 0xEDB88320) 0xFFFFFFFF) 0xFFFFFFFF

/-- The CRC-32C of spec/10_seam_ports_and_collectives.md R318. -/
def crc32c (l : List Byte) : Nat := Nat.xor (l.foldl (crcRefl 0x82F63B78) 0xFFFFFFFF) 0xFFFFFFFF

/-- One byte of the CRC-64/ECMA-182 of spec/10_seam_ports_and_collectives.md R340, most significant bit first. -/
def crc64Byte (c : Nat) (b : Byte) : Nat :=
  let step (x : Nat) : Nat :=
    if bit x 63 then Nat.xor (x * 2 % 2 ^ 64) 0x42F0E1EBA9EA3693 else x * 2 % 2 ^ 64
  step (step (step (step (step (step (step (step (Nat.xor c (b.toNat * 2 ^ 56)))))))))

/-- The CRC-64 of spec/10_seam_ports_and_collectives.md R340. -/
def crc64 (l : List Byte) : Nat := l.foldl crc64Byte 0

/-- Bytes of a 32-bit word list, little-endian (spec/00_scope.md R5). -/
def wordsBytes (l : List W32) : List Byte := l.flatMap fun w => leBytes 4 w.toNat

/-- The 32-bit words of a list of bytes, little-endian; a last partial word is dropped. -/
def bytesWords : List Byte → List W32
  | a :: b :: c :: d :: t => BitVec.ofNat 32 (leNat [a, b, c, d]) :: bytesWords t
  | _ => []

/-- A byte list brought to `n` bytes, cut or filled with zeros. -/
def padTo (n : Nat) (l : List Byte) : List Byte := l.take n ++ List.replicate (n - l.length) 0

/-- `n` bytes of a list from an offset, zero beyond its end. -/
def slice (l : List Byte) (off n : Nat) : List Byte := padTo n (l.drop off)

/-- The little-endian number in `n` bytes of a list from an offset. -/
def field (l : List Byte) (off n : Nat) : Nat := leNat (slice l off n)

/-- Are `n` bytes of a list from an offset zero? -/
def zeroAt (l : List Byte) (off n : Nat) : Bool := field l off n = 0

/-- Fields of a token header (spec/04_fabric_tokens_and_steering.md Table 4.1). -/
def hDest (h : W64) : Nat := bits h.toNat 52 12
def hDq (h : W64) : Nat := bits h.toNat 47 5
def hGen (h : W64) : Nat := bits h.toNat 43 4
def hTag (h : W64) : Nat := bits h.toNat 35 8
def hKind (h : W64) : Nat := bits h.toNat 32 3
def hBasted (h : W64) : Bool := bit h.toNat 31
def hVc (h : W64) : Nat := bits h.toNat 29 2
def hLen (h : W64) : Nat := bits h.toNat 22 7
def hSrcp (h : W64) : Nat := bits h.toNat 16 6
def hSlot (h : W64) : Nat := bits h.toNat 8 8
def hCrc (h : W64) : Nat := bits h.toNat 0 8

/-- The header check code over header bytes 1 to 7 (spec/04_fabric_tokens_and_steering.md R112). -/
def hdrCrc (hi : Nat) : Nat := crc8 ((leBytes 8 hi).drop 1)

/-- The fields of a header to be formed. -/
structure HdrF where
  dest : Nat
  dq : Nat
  gen : Nat
  tag : Nat
  kind : Nat
  basted : Bool
  vc : Nat
  len : Nat
  srcp : Nat
  slot : Nat
  deriving DecidableEq, Repr

/-- A header with its check code formed (spec/04_fabric_tokens_and_steering.md Table 4.1). -/
def mkHdr (f : HdrF) : W64 :=
  let hi := f.dest % 4096 * 2 ^ 52 + f.dq % 32 * 2 ^ 47 + f.gen % 16 * 2 ^ 43 + f.tag % 256 * 2 ^ 35
    + f.kind % 8 * 2 ^ 32 + b2n f.basted * 2 ^ 31 + f.vc % 4 * 2 ^ 29 + f.len % 128 * 2 ^ 22
    + f.srcp % 64 * 2 ^ 16 + f.slot % 256 * 2 ^ 8
  BitVec.ofNat 64 (hi + hdrCrc hi)

/-- The fields of a header. -/
def hdrF (h : W64) : HdrF :=
  ⟨hDest h, hDq h, hGen h, hTag h, hKind h, hBasted h, hVc h, hLen h, hSrcp h, hSlot h⟩

/-- Token kinds (spec/04_fabric_tokens_and_steering.md Table 4.1). -/
def kData : Nat := 0
def kCtl : Nat := 1
def kHem : Nat := 2
def kEnd : Nat := 3
def kSpill : Nat := 4
def kProbe : Nat := 5

/-- Is a destination code reserved (spec/04_fabric_tokens_and_steering.md Table 4.2)? -/
def destReserved (d : Nat) : Bool :=
  !(decide (d < 0x900) || inRange 0xC00 0xC17 d || inRange 0xC20 0xC27 d || inRange 0xC30 0xC34 d)

/-- Do kind, virtual channel and length agree with spec/04_fabric_tokens_and_steering.md Table 4.3 and R114? -/
def kindVcLen (h : W64) : Bool :=
  let k := hKind h
  let v := hVc h
  let n := hLen h
  if k = kData then
    decide (n ≤ 64) && (v = 2 || v = 3 || (v = 0 && (inRange 0xC31 0xC33 (hDest h) || hSrcp h = 0x3F)))
  else if k = kCtl then v = 1 && decide (1 ≤ n) && decide (n ≤ 8)
  else if k = kHem || k = kEnd then n = 0 && v ≠ 0
  else if k = kSpill then v = 3 && decide (n ≤ 64)
  else if k = kProbe then v = 0 && (n = 0 || n = 8)
  else false

/-- The low 64 bits of a token's payload. -/
def payWord (t : Token) : Nat := field t.pay 0 8

/-- The header of a tape packet (spec/11_host_interface_and_command_tape.md Table 11.6). -/
structure Pkt where
  magic : Nat
  minor : Nat
  major : Nat
  opcode : Nat
  plen : Nat
  tag : Nat
  epoch : Nat
  flags : Nat
  rsv : Nat
  seq : Nat
  crc : Nat
  deriving DecidableEq, Repr

/-- The header fields of a packet (spec/11_host_interface_and_command_tape.md Table 11.6). -/
def parsePkt (l : List Byte) : Pkt :=
  { magic := field l 0 4, minor := field l 4 1, major := field l 5 1, opcode := field l 6 2, plen := field l 8 2,
    tag := field l 0xA 2, epoch := field l 0xC 1, flags := field l 0xD 1, rsv := field l 0xE 2 + field l 0x14 8,
    seq := field l 0x10 4, crc := field l 0x1C 4 }

/-- A reply record of 64 bytes (spec/11_host_interface_and_command_tape.md Table 11.10). -/
def replyRecord (rseq : Nat) (r : Reply) : List Byte :=
  let b := leBytes 4 rseq ++ leBytes 2 r.opcode ++ leBytes 2 r.tag ++ leBytes 1 r.epoch ++ leBytes 1 r.kind
    ++ leBytes 2 r.code ++ leBytes 4 r.tseq ++ padTo 40 r.result ++ leBytes 4 0
  b ++ leBytes 4 (crc32 b)

/-- A fault record of 32 bytes (spec/15_faults_and_safe_state.md Table 15.2). -/
def faultRecord (r : FltRec) (lseq step time : Nat) (unlogged : Bool) : List Byte :=
  let b := leBytes 4 lseq ++ leBytes 2 r.code ++ leBytes 1 (r.cls + r.flags + b2n unlogged * 64) ++ leBytes 1 r.gen
    ++ leBytes 2 r.unit ++ leBytes 2 r.sub ++ leBytes 4 r.arg ++ leBytes 6 step ++ leBytes 6 time ++ leBytes 3 0
  b ++ leBytes 1 (crc8 b)

/-- The `KEY` and `ARG` words of a seam header (spec/10_seam_ports_and_collectives.md Table 10.4). -/
def smKey (m : SMsg) : Nat := m.kid % 256 + m.kep % 256 * 2 ^ 8 + m.kstep % 2 ^ 48 * 2 ^ 16
def smArg (m : SMsg) : Nat := m.group % 2 ^ 12 + m.n % 2 ^ 15 * 2 ^ 12 + m.line % 2 ^ 37 * 2 ^ 27

/-- The bytes that `MCRC` covers: header bytes 0x00 to 0x07, 0x10 to 0x1F, and the body
(spec/10_seam_ports_and_collectives.md R318). -/
def smCovered (m : SMsg) : List Byte :=
  leBytes 1 m.ty ++ leBytes 1 m.ver ++ leBytes 2 m.src ++ leBytes 2 m.dst ++ leBytes 2 m.body.length
    ++ leBytes 8 (smKey m) ++ leBytes 8 (smArg m) ++ m.body

/-- The 32 bytes of a seam header (spec/10_seam_ports_and_collectives.md Table 10.4). -/
def smHeader (m : SMsg) : List Byte :=
  leBytes 1 m.ty ++ leBytes 1 m.ver ++ leBytes 2 m.src ++ leBytes 2 m.dst ++ leBytes 2 m.body.length ++ leBytes 4 m.lseq
    ++ leBytes 4 (m.lack % 2 ^ 24 + m.free * 2 ^ 24) ++ leBytes 8 (smKey m) ++ leBytes 8 (smArg m)

/-- Is the check word of a message correct (spec/10_seam_ports_and_collectives.md R318, R323)? -/
def smCrcOk (m : SMsg) : Bool := m.mcrc.toNat = crc32c (smCovered m)

/-- A message with its check word formed. -/
def smSigned (m : SMsg) : SMsg := { m with mcrc := BitVec.ofNat 32 (crc32c (smCovered m)) }

end Sys2Proof.Machine
end

