-- ==== Sys2Proof/Machine/Crypto.lean ====
section
/-! DEFINITION. SHA-256 and the check of an RSASSA-PKCS1-v1_5 signature, as spec/12_thimble_management_security.md names
them (R385, R386, R396, R400). -/

namespace Sys2Proof.Machine

/-- The largest number below `lo + 2 ^ n` whose `k`-th power is at most `x`, where the `k`-th power of `lo` is. -/
def rootFrom (k x : Nat) : Nat → Nat → Nat
  | 0, lo => lo
  | n + 1, lo => rootFrom k x n (if (lo + 2 ^ n) ^ k ≤ x then lo + 2 ^ n else lo)

/-- The first 32 bits of the fraction of the `k`-th root of `p`, for a root below 8. -/
def rootFraction (k p : Nat) : W32 := BitVec.ofNat 32 (rootFrom k (p * 2 ^ (32 * k)) 35 0)

/-- The first 64 primes. -/
def shaPrimes : List Nat :=
  (List.range 312).filter fun n => decide (2 ≤ n) && (List.range 18).all fun d => d < 2 || n ≤ d || n % d ≠ 0

/-- The hash value to start from: the square roots of the first eight primes. -/
def shaStart : List W32 := (shaPrimes.take 8).map (rootFraction 2)

/-- The round constants: the cube roots of the first 64 primes. -/
def shaConstants : List W32 := shaPrimes.map (rootFraction 3)

/-- The exclusive or of a word turned right by each of the amounts. -/
def turns (x : W32) (l : List Nat) : W32 := l.foldl (fun y n => y ^^^ x.rotateRight n) 0

/-- One round with a constant and a message word. The eight working variables stand in a list whose head is the first. -/
def shaRound : List W32 → W32 → W32 → List W32
  | [a, b, c, d, e, f, g, h], k, w =>
    let pick := g ^^^ (e &&& (f ^^^ g))
    let most := (a &&& (b ||| c)) ||| (b &&& c)
    let t := turns e [25, 11, 6] + pick + (k + w + h)
    [t + most + turns a [22, 13, 2], a, b, c, t + d, e, f, g]
  | v, _, _ => v

/-- The message word that follows sixteen others, the oldest at the head. -/
def shaNext (w : List W32) : W32 :=
  let near := w.getD 1 0
  let far := w.getD 14 0
  (w.getD 9 0 + w.getD 0 0) + ((near >>> 3 ^^^ turns near [18, 7]) + (far >>> 10 ^^^ turns far [19, 17]))

/-- The rounds of one block; the window holds the sixteen message words that come next. -/
def shaRounds (window : List W32) (v : List W32) : List W32 :=
  (shaConstants.foldl (fun st k => (st.1.tail ++ [shaNext st.1], shaRound st.2 k (st.1.headD 0))) (window, v)).2

/-- A hash value after one block of sixteen big-endian words. -/
def shaBlock (v w : List W32) : List W32 := List.zipWith (· + ·) v (shaRounds w v)

/-- A message padded to a multiple of 64 bytes. -/
def shaPad (m : List Byte) : List Byte :=
  m ++ [0x80] ++ List.replicate ((119 - m.length % 64) % 64) 0 ++ beBytes 8 (8 * m.length)

/-- The big-endian words of a block. -/
def beWords : List Byte → List W32
  | a :: b :: c :: d :: t => BitVec.ofNat 32 (beNat [a, b, c, d]) :: beWords t
  | _ => []

/-- The blocks of a padded message; the first argument counts them. -/
def shaBlocks : Nat → List Byte → List W32 → List W32
  | 0, _, v => v
  | n + 1, m, v => shaBlocks n (m.drop 64) (shaBlock v (beWords (m.take 64)))

/-- SHA-256, 32 bytes. -/
def sha256 (m : List Byte) : List Byte :=
  let p := shaPad m
  (shaBlocks (p.length / 64) p shaStart).flatMap fun x => beBytes 4 x.toNat

/-- `b ^ e mod n`; the first argument bounds the bits of `e`. -/
def powMod : Nat → Nat → Nat → Nat → Nat
  | 0, _, _, n => 1 % n
  | k + 1, b, e, n =>
    let r := powMod k (b * b % n) (e / 2) n
    if e % 2 = 1 then r * b % n else r

/-- The encoded message of 384 bytes for a SHA-256 digest: 0x00 0x01, padding, 0x00, the digest's identifier, the
digest. -/
def emsaPkcs1 (digest : List Byte) : List Byte :=
  [0x00, 0x01] ++ List.replicate 330 0xFF ++ [0x00]
    ++ [0x30, 0x31, 0x30, 0x0d, 0x06, 0x09, 0x60, 0x86, 0x48, 0x01, 0x65, 0x03, 0x04, 0x02, 0x01, 0x05, 0x00, 0x04, 0x20]
    ++ digest

/-- Is a signature of a message valid under a key: modulus and signature big-endian, exponent little-endian
(spec/12_thimble_management_security.md Table 12.2)? -/
def rsaValid (modulus exponent sig msg : List Byte) : Bool :=
  let n := beNat modulus
  let s := beNat sig
  modulus.length = 384 && sig.length = 384 && decide (s < n) &&
    powMod 32 s (leNat exponent) n = beNat (emsaPkcs1 (sha256 msg))

end Sys2Proof.Machine
end

