-- ==== Sys2Proof/Machine/Codes.lean ====
section
/-! DEFINITION. The shared fault table: every code with its name and class (spec/15_faults_and_safe_state.md R467,
Table 15.4, and the tables it names). -/

namespace Sys2Proof.Machine

/-- Fault classes; `run` resolves when a fault is raised (spec/15_faults_and_safe_state.md R463, R464). -/
inductive FClass where
  | correctable | contained | stepFatal | moduleFatal | run
  deriving DecidableEq, Repr

def Code.NUM_FMT_RESERVED : Nat := 0x0201
def Code.NUM_FMT_COMBO : Nat := 0x0202
def Code.NUM_FMT_WRITE : Nat := 0x0203
def Code.NUM_SEED_BUSY : Nat := 0x0204
def Code.TILE_SHAPE_ZERO : Nat := 0x0301
def Code.TILE_SHAPE_ILLEGAL : Nat := 0x0302
def Code.TILE_ACC_RANGE : Nat := 0x0303
def Code.TILE_OPERAND_PAIR : Nat := 0x0304
def Code.TILE_OPERAND_RANGE : Nat := 0x0305
def Code.TILE_RING_ZERO : Nat := 0x0306
def Code.TILE_RING_CFG : Nat := 0x0307
def Code.TILE_RING_BUSY : Nat := 0x0308
def Code.TILE_BANK_MIXED : Nat := 0x0309
def Code.TILE_RING_STALL : Nat := 0x030A
def Code.TILE_RING_ORDER : Nat := 0x030B
def Code.TILE_SP_CORR : Nat := 0x030C
def Code.TILE_SP_UNCORR : Nat := 0x030D
def Code.TILE_SP_PARITY : Nat := 0x030E
def Code.TILE_ACC_PARITY : Nat := 0x030F
def Code.TILE_IMEM_UNCORR : Nat := 0x0310
def Code.TILE_OPCODE : Nat := 0x0311
def Code.TILE_COMMIT_WAIT : Nat := 0x0312
def Code.FAB_CFG_ZERO : Nat := 0x0401
def Code.FAB_CFG_ILLEGAL : Nat := 0x0402
def Code.FAB_HDR_CRC : Nat := 0x0403
def Code.FAB_HDR_FIELD : Nat := 0x0404
def Code.FAB_CHAN_MISMATCH : Nat := 0x0405
def Code.FAB_CREDIT : Nat := 0x0406
def Code.FAB_QUEUE_OWNER : Nat := 0x0407
def Code.FAB_TAG_MISMATCH : Nat := 0x0408
def Code.FAB_CHAN_DEADLINE : Nat := 0x0409
def Code.FAB_VERDICT_ORPHAN : Nat := 0x040A
def Code.FAB_PAYLOAD_CORR : Nat := 0x040B
def Code.FAB_PAYLOAD_UNCORR : Nat := 0x040C
def Code.PAT_HDR : Nat := 0x0501
def Code.PAT_VERSION : Nat := 0x0502
def Code.PAT_CRC : Nat := 0x0503
def Code.PAT_SECTION : Nat := 0x0504
def Code.PAT_FIELD : Nat := 0x0505
def Code.PAT_ZERO_FIELD : Nat := 0x0506
def Code.PAT_RES_IMEM : Nat := 0x0507
def Code.PAT_RES_QUEUE : Nat := 0x0508
def Code.PAT_RES_UNIT : Nat := 0x0509
def Code.PAT_RES_SPILL : Nat := 0x050A
def Code.PAT_NOT_READY : Nat := 0x050B
def Code.PAT_GEN_BUSY : Nat := 0x050C
def Code.PAT_REGION_CLASS : Nat := 0x050D
def Code.PAT_SEAM_DOWN : Nat := 0x050E
def Code.PAT_LOAD_DEADLINE : Nat := 0x050F
def Code.PAT_GEN_UNKNOWN : Nat := 0x0510
def Code.PAT_HEM_EARLY : Nat := 0x0511
def Code.PAT_SWITCH_FAIL : Nat := 0x0512
def Code.PAT_RETIRE_DEADLINE : Nat := 0x0513
def Code.PAT_TACK_BUSY : Nat := 0x0514
def Code.UNP_CFG_ZERO : Nat := 0x0601
def Code.UNP_CFG_ILLEGAL : Nat := 0x0602
def Code.UNP_BUSY : Nat := 0x0603
def Code.UNP_STUCK : Nat := 0x0604
def Code.UNP_SPILL_FULL : Nat := 0x0605
def Code.UNP_SPILL_LOST : Nat := 0x0606
def Code.UNP_DRAIN_DEADLINE : Nat := 0x0607
def Code.UNP_FLUSH_DEADLINE : Nat := 0x0608
def Code.UNP_PROBE_DEADLINE : Nat := 0x0609
def Code.PRS_BUSY : Nat := 0x0701
def Code.PRS_CFG_ZERO : Nat := 0x0702
def Code.PRS_PARAM : Nat := 0x0703
def Code.PRS_STEP_BUSY : Nat := 0x0704
def Code.PRS_STEP_ORDER : Nat := 0x0705
def Code.PRS_GROUP : Nat := 0x0706
def Code.PRS_CLOSE_EXTRA : Nat := 0x0707
def Code.PRS_CLOSE_STEP : Nat := 0x0708
def Code.PRS_CLOSE_DEADLINE : Nat := 0x0709
def Code.PRS_DIV_ZERO : Nat := 0x070A
def Code.PRS_NORM_DEADLINE : Nat := 0x070B
def Code.PRS_SWEEP_DEADLINE : Nat := 0x070C
def Code.PRS_DRIFT : Nat := 0x070D
def Code.PRS_UW_ALERT : Nat := 0x070E
def Code.PRS_RECORD_CHANGED : Nat := 0x070F
def Code.MEM_CE : Nat := 0x0801
def Code.MEM_UE_W : Nat := 0x0802
def Code.MEM_UE_S : Nat := 0x0803
def Code.MEM_UE_A : Nat := 0x0804
def Code.MEM_UE_HOST : Nat := 0x0805
def Code.MEM_UE_SCRUB : Nat := 0x0806
def Code.MEM_REMAP_FULL : Nat := 0x0807
def Code.MEM_CLASS_ZERO : Nat := 0x0808
def Code.MEM_CLASS_ARG : Nat := 0x0809
def Code.MEM_CLASS_LIMIT : Nat := 0x080A
def Code.MEM_CLASS_BUSY : Nat := 0x080B
def Code.MEM_W_WRITE : Nat := 0x080C
def Code.MEM_ATOM_RANGE : Nat := 0x080D
def Code.MEM_ATOM_CLASS : Nat := 0x080E
def Code.MEM_ATOM_ORDER : Nat := 0x080F
def Code.MEM_LINING_BUSY : Nat := 0x0810
def Code.MEM_BANK_CLOSED : Nat := 0x0811
def Code.MEM_PD_DEADLINE : Nat := 0x0812
def Code.MEM_PD_WRITEBACK : Nat := 0x0813
def Code.MEM_CFG_ZERO : Nat := 0x0814
def Code.MEM_CFG_ILLEGAL : Nat := 0x0815
def Code.MEM_MOVE : Nat := 0x0816
def Code.MEM_REPAIR_LOCKED : Nat := 0x0817
def Code.MEM_CH_FAIL : Nat := 0x0818
def Code.BOB_CFG_ZERO : Nat := 0x0901
def Code.BOB_CFG_ILLEGAL : Nat := 0x0902
def Code.BOB_PROG : Nat := 0x0903
def Code.BOB_RES_STORE : Nat := 0x0904
def Code.BOB_ENTRY : Nat := 0x0905
def Code.BOB_RANGE : Nat := 0x0906
def Code.BOB_REGION : Nat := 0x0907
def Code.BOB_REQ_DEADLINE : Nat := 0x0908
def Code.BOB_RESP_ORPHAN : Nat := 0x0909
def Code.BOB_ABORTED : Nat := 0x090A
def Code.SEAM_CFG_ZERO : Nat := 0x0A01
def Code.SEAM_CFG_ILLEGAL : Nat := 0x0A02
def Code.SEAM_BUSY : Nat := 0x0A03
def Code.SEAM_TABLE_ZERO : Nat := 0x0A04
def Code.SEAM_TABLE : Nat := 0x0A05
def Code.SEAM_LINK_TRAIN : Nat := 0x0A06
def Code.SEAM_NEG_FAIL : Nat := 0x0A07
def Code.SEAM_LINK_DOWN : Nat := 0x0A08
def Code.SEAM_PEER_HOLD : Nat := 0x0A09
def Code.SEAM_MSG_FIELD : Nat := 0x0A0A
def Code.SEAM_E2E_CRC : Nat := 0x0A0B
def Code.SEAM_ROUTE : Nat := 0x0A0C
def Code.SEAM_STREAM_ORPHAN : Nat := 0x0A0D
def Code.SEAM_COLL_CFG : Nat := 0x0A0E
def Code.SEAM_OWN_MISMATCH : Nat := 0x0A0F
def Code.SEAM_QUORUM : Nat := 0x0A10
def Code.SEAM_RED_DEADLINE : Nat := 0x0A11
def Code.SEAM_STEP_SPLIT : Nat := 0x0A12
def Code.SEAM_VERDICT_SPLIT : Nat := 0x0A13
def Code.SEAM_PEER_ABANDON : Nat := 0x0A14
def Code.SEAM_RET_DEADLINE : Nat := 0x0A15
def Code.SEAM_DIGEST : Nat := 0x0A16
def Code.SEAM_SUSPECT : Nat := 0x0A17
def Code.SEAM_GATHER_REFUSED : Nat := 0x0A18
def Code.SEAM_GATHER_DEADLINE : Nat := 0x0A19
def Code.TAPE_CFG_ZERO : Nat := 0x0B01
def Code.TAPE_CFG_ILLEGAL : Nat := 0x0B02
def Code.TAPE_BUSY : Nat := 0x0B03
def Code.TAPE_TORN : Nat := 0x0B04
def Code.TAPE_SEQ : Nat := 0x0B05
def Code.TAPE_VERSION : Nat := 0x0B06
def Code.TAPE_FIELD : Nat := 0x0B07
def Code.TAPE_OPCODE : Nat := 0x0B08
def Code.TAPE_PLEN_ZERO : Nat := 0x0B09
def Code.TAPE_PLEN : Nat := 0x0B0A
def Code.TAPE_PARAM_ZERO : Nat := 0x0B0B
def Code.TAPE_PARAM : Nat := 0x0B0C
def Code.TAPE_TAG_BUSY : Nat := 0x0B0D
def Code.TAPE_STATE : Nat := 0x0B0E
def Code.TAPE_DEBUG_LOCKED : Nat := 0x0B0F
def Code.TAPE_REPLY_DEADLINE : Nat := 0x0B10
def Code.HOST_TAIL : Nat := 0x0B11
def Code.HOST_POISON : Nat := 0x0B12
def Code.HOST_UNREACH : Nat := 0x0B13
def Code.TH_BOOT_IMAGE : Nat := 0x0C01
def Code.TH_BOOT_KEY : Nat := 0x0C02
def Code.TH_BOOT_ROLLBACK : Nat := 0x0C03
def Code.TH_FUSE : Nat := 0x0C04
def Code.TH_SENSOR : Nat := 0x0C05
def Code.TH_UPDATE_REFUSED : Nat := 0x0C06
def Code.TH_UPDATE_VERIFY : Nat := 0x0C07
def Code.TH_SPDM_AUTH : Nat := 0x0C08
def Code.TH_DEBUG_UNLOCK : Nat := 0x0C09
def Code.TH_DEBUG_REFUSED : Nat := 0x0C0A
def Code.TH_WDOG : Nat := 0x0C0B
def Code.TH_WDOG_REPEAT : Nat := 0x0C0C
def Code.TH_CFG_ZERO : Nat := 0x0C0D
def Code.PWR_CFG_ZERO : Nat := 0x0D01
def Code.PWR_CFG_ILLEGAL : Nat := 0x0D02
def Code.PWR_VF : Nat := 0x0D03
def Code.PWR_NB_LIMIT : Nat := 0x0D04
def Code.PWR_HOT : Nat := 0x0D05
def Code.PWR_NB_TEMP : Nat := 0x0D06
def Code.PWR_NEIGHBOUR : Nat := 0x0D07
def Code.PWR_TRIP : Nat := 0x0D08
def Code.PWR_INPUT : Nat := 0x0D09
def Code.PWR_RAIL : Nat := 0x0D0A
def Code.PWR_CLOCK : Nat := 0x0D0B
def Code.PWR_ENVELOPE : Nat := 0x0D0C
def Code.PWR_CHANGE_DEADLINE : Nat := 0x0D0D
def Code.RST_OPTION_CRC : Nat := 0x0E01
def Code.RST_OPTION_FIELD : Nat := 0x0E02
def Code.RST_OPTION_REFUSED : Nat := 0x0E03
def Code.RST_STRAP : Nat := 0x0E04
def Code.RST_IDLE_TIMEOUT : Nat := 0x0E05
def Code.RST_CFG_ZERO : Nat := 0x0E06
def Code.RST_ESCALATED : Nat := 0x0E07
def Code.RST_TRAIN : Nat := 0x0E08
def Code.RST_READY_DEADLINE : Nat := 0x0E09
def Code.RST_REPAIR_FAIL : Nat := 0x0E0A
def Code.RST_REPAIR_FULL : Nat := 0x0E0B
def Code.RST_FT_FAIL : Nat := 0x0E0C
def Code.RST_FT_ANALOG : Nat := 0x0E0D
def Code.RST_FT_DEADLINE : Nat := 0x0E0E
def Code.FLT_REG_ACCESS : Nat := 0x0F01
def Code.FLT_ADDR_UNMAPPED : Nat := 0x0F02
def Code.FLT_SAFE_DEADLINE : Nat := 0x0F03

/-- The codes listed as correctable. -/
def correctableCodes : List Nat := [
  Code.TILE_SP_CORR, Code.FAB_PAYLOAD_CORR, Code.PRS_UW_ALERT, Code.MEM_CE,
  Code.MEM_REMAP_FULL, Code.SEAM_DIGEST, Code.HOST_TAIL, Code.TH_DEBUG_UNLOCK,
  Code.TH_WDOG, Code.PWR_HOT, Code.PWR_NB_TEMP, Code.RST_IDLE_TIMEOUT,
  Code.RST_ESCALATED, Code.RST_TRAIN, Code.RST_REPAIR_FULL, Code.RST_FT_FAIL,
  Code.FLT_REG_ACCESS]

/-- The codes listed as Run. -/
def runCodes : List Nat := [
  Code.TILE_OPERAND_RANGE, Code.TILE_RING_STALL, Code.TILE_RING_ORDER, Code.TILE_SP_UNCORR,
  Code.TILE_SP_PARITY, Code.TILE_ACC_PARITY, Code.TILE_IMEM_UNCORR, Code.FAB_HDR_CRC,
  Code.FAB_HDR_FIELD, Code.FAB_CHAN_MISMATCH, Code.FAB_CREDIT, Code.FAB_QUEUE_OWNER,
  Code.FAB_TAG_MISMATCH, Code.FAB_CHAN_DEADLINE, Code.FAB_VERDICT_ORPHAN, Code.FAB_PAYLOAD_UNCORR,
  Code.PAT_GEN_UNKNOWN, Code.PAT_HEM_EARLY, Code.PAT_SWITCH_FAIL, Code.PAT_RETIRE_DEADLINE,
  Code.UNP_STUCK, Code.UNP_SPILL_FULL, Code.UNP_SPILL_LOST, Code.UNP_DRAIN_DEADLINE,
  Code.MEM_UE_W, Code.MEM_UE_A, Code.MEM_W_WRITE, Code.MEM_ATOM_RANGE,
  Code.MEM_ATOM_CLASS, Code.MEM_ATOM_ORDER, Code.BOB_ENTRY, Code.BOB_RANGE,
  Code.BOB_REGION, Code.BOB_REQ_DEADLINE, Code.BOB_RESP_ORPHAN, Code.BOB_ABORTED,
  Code.SEAM_LINK_DOWN, Code.SEAM_PEER_HOLD, Code.SEAM_E2E_CRC, Code.SEAM_ROUTE,
  Code.SEAM_STREAM_ORPHAN, Code.SEAM_GATHER_REFUSED, Code.SEAM_GATHER_DEADLINE, Code.HOST_POISON,
  Code.HOST_UNREACH]

/-- The codes listed as step-fatal. -/
def stepFatalCodes : List Nat := [
  Code.PRS_CLOSE_EXTRA, Code.PRS_CLOSE_STEP, Code.PRS_CLOSE_DEADLINE, Code.PRS_DIV_ZERO,
  Code.PRS_NORM_DEADLINE, Code.SEAM_COLL_CFG, Code.SEAM_OWN_MISMATCH, Code.SEAM_QUORUM,
  Code.SEAM_RED_DEADLINE, Code.SEAM_STEP_SPLIT, Code.SEAM_VERDICT_SPLIT, Code.SEAM_PEER_ABANDON]

/-- The codes listed as module-fatal. -/
def moduleFatalCodes : List Nat := [
  Code.UNP_FLUSH_DEADLINE, Code.UNP_PROBE_DEADLINE, Code.PRS_SWEEP_DEADLINE, Code.MEM_UE_S,
  Code.MEM_PD_WRITEBACK, Code.MEM_CH_FAIL, Code.TH_BOOT_IMAGE, Code.TH_BOOT_KEY,
  Code.TH_BOOT_ROLLBACK, Code.TH_WDOG_REPEAT, Code.PWR_NEIGHBOUR, Code.PWR_TRIP,
  Code.PWR_INPUT, Code.PWR_RAIL, Code.PWR_CLOCK, Code.PWR_ENVELOPE,
  Code.PWR_CHANGE_DEADLINE, Code.RST_READY_DEADLINE, Code.RST_REPAIR_FAIL, Code.FLT_SAFE_DEADLINE]

/-- The class that the owning table lists for a code. A code listed with two classes has here the one of the moment
named first in its table; the rule that raises it at the other moment gives the other class itself. -/
def classOf (c : Nat) : FClass :=
  if c ∈ correctableCodes then .correctable
  else if c ∈ runCodes then .run
  else if c ∈ stepFatalCodes then .stepFatal
  else if c ∈ moduleFatalCodes then .moduleFatal
  else .contained

end Sys2Proof.Machine
end

