-- ==== Sys2Proof/Machine/Mesh.lean ====
section
/-! DEFINITION. The mesh: where selvedge units meet it, routes, and the arbitration of router outputs
(spec/04_fabric_tokens_and_steering.md R140, R141, R144, R145, Table 4.15). -/

namespace Sys2Proof.Machine

/-! ### Places -/

/-- The tile at a column and row (spec/00_scope.md R19). -/
def tileAt (x y : Nat) : Nat := y * 48 + x

/-- The attachments of a unit: index and tile, A before B (spec/04_fabric_tokens_and_steering.md Table 4.15). -/
def attachments (unit : Nat) : List (Nat × Nat) :=
  let n := unit - 0xC00
  let k := n % 6
  if inRange 0xC00 0xC17 unit then
    let two (a b : Nat) : List (Nat × Nat) := [(2 * n, a), (2 * n + 1, b)]
    match n / 6 with
    | 0 => two (tileAt 0 (8 * k + 2)) (tileAt 0 (8 * k + 5))
    | 1 => two (tileAt (8 * k + 2) 47) (tileAt (8 * k + 5) 47)
    | 2 => two (tileAt 47 (45 - 8 * k)) (tileAt 47 (42 - 8 * k))
    | _ => two (tileAt (45 - 8 * k) 0) (tileAt (42 - 8 * k) 0)
  else if inRange 0xC20 0xC27 unit then
    let p := unit - 0xC20
    let at_ := [tileAt 0 12, tileAt 0 36, tileAt 12 47, tileAt 36 47, tileAt 47 36, tileAt 47 12, tileAt 36 0, tileAt 12 0]
    [(48 + p, at_.getD p 0)]
  else if unit = 0xC30 || unit = 0xC34 then [(56, tileAt 20 47), (57, tileAt 28 47)]
  else if unit = 0xC31 then [(58, tileAt 44 47)]
  else if unit = 0xC32 then [(59, tileAt 28 0)]
  else if unit = 0xC33 then [(60, tileAt 0 47)]
  else []

/-- The side on which a unit is attached (spec/04_fabric_tokens_and_steering.md Table 4.15). -/
def attSide (unit : Nat) : Port :=
  let side (k : Nat) : Port := match k with
    | 0 => .west
    | 1 => .north
    | 2 => .east
    | _ => .south
  if inRange 0xC00 0xC17 unit then side ((unit - 0xC00) / 6)
  else if inRange 0xC20 0xC27 unit then side ((unit - 0xC20) / 2)
  else if unit = 0xC32 then .south
  else .north

/-- The hops between two tiles. -/
def hops (a b : Nat) : Nat :=
  (tileX a - tileX b) + (tileX b - tileX a) + (tileY a - tileY b) + (tileY b - tileY a)

/-- Which attachment of a unit is nearer to a tile: 0 for A, also when both are as near, 1 for B
(spec/04_fabric_tokens_and_steering.md R145). -/
def nearIdx (unit t : Nat) : Nat :=
  match attachments unit with
  | a :: b :: _ => if hops t b.2 < hops t a.2 then 1 else 0
  | _ => 0

/-- The attachment through which a token sent at a tile for a selvedge unit leaves the mesh: the one that the sending
channel's `ATT` names, else the nearer one (spec/04_fabric_tokens_and_steering.md R145). -/
def State.attOf (s : State) (r dest : Nat) (src : Option (Nat × Nat)) : Nat :=
  match src with
  | some (a, c) => if a < nTiles && inRange 0xC00 0xC17 dest then (s.tile a).get (T.OCH_ATT c) else nearIdx dest r
  | none => nearIdx dest r

/-- The tile at which a token leaves the mesh. -/
def NetTok.exit (n : NetTok) : Nat :=
  let d := hDest n.tok.hdr
  if d < nTiles then d else ((attachments d)[n.att]?.map Prod.snd).getD n.r

/-- The output port on the way from a router to a tile, columns first (spec/04_fabric_tokens_and_steering.md R140). -/
def portTo (r d : Nat) : Port :=
  if tileX r < tileX d then .east
  else if tileX d < tileX r then .west
  else if tileY r < tileY d then .north
  else if tileY d < tileY r then .south
  else .out

/-- The router that a port leads to. -/
def portNext (r : Nat) : Port → Nat
  | .north => r + 48
  | .south => r - 48
  | .east => r + 1
  | .west => r - 1
  | .out => r

/-- The input at which a token that left by a port arrives. -/
def portAcross : Port → Port
  | .north => .south
  | .south => .north
  | .east => .west
  | .west => .east
  | .out => .out

/-- The output of its router that a token waits for: for a selvedge unit the last one is the outward port. -/
def NetTok.port (n : NetTok) : Port :=
  if n.r = n.exit && decide (nTiles ≤ hDest n.tok.hdr) then attSide (hDest n.tok.hdr) else portTo n.r n.exit

/-- The router that a token enters next, and the input: the first router of its route, or the next one. -/
def NetTok.next (n : NetTok) : Nat × Port := if n.ent then (portNext n.r n.port, portAcross n.port) else (n.r, n.inp)

/-- Has a token come to the tile at which it leaves the mesh? -/
def NetTok.arrived (n : NetTok) : Bool := n.ent && n.r = n.exit

/-! ### Sending into the mesh -/

/-- A token put into the mesh at a router's input. -/
def State.injectAt (s : State) (r : Nat) (inp : Port) (k : Token) (src : Option (Nat × Nat)) : State :=
  { s with net := s.net ++ [⟨r, inp, false, k, s.attOf r (hDest k.hdr) src, src⟩] }

/-- A token put into the mesh by an agent of a tile. -/
def State.inject (s : State) (t : Nat) (k : Token) (src : Option (Nat × Nat)) : State := s.injectAt t .out k src

/-- Tokens put into the mesh by an agent of a tile, in order. -/
def State.injectAll (s : State) (t : Nat) (l : List Token) : State := l.foldl (fun s k => s.inject t k none) s

/-- A token sent by a selvedge unit: it enters the mesh at the attachment nearer to its destination
(spec/04_fabric_tokens_and_steering.md R140, R145). -/
def State.sendUnit (s : State) (unit : Nat) (k : Token) (src : Option (Nat × Nat)) : State :=
  let d := hDest k.hdr
  let d := if d < nTiles then d else ((attachments d).head?.map Prod.snd).getD 0
  match (attachments unit)[nearIdx unit d]? with
  | some a => s.injectAt a.2 (attSide unit) k src
  | none => s

/-! ### Arbitration -/

/-- A token's virtual channel. -/
def NetTok.vc (n : NetTok) : Nat := hVc n.tok.hdr

/-- Do two tokens lie, or wait to enter, at the same input of a router on the same virtual channel? -/
def NetTok.beside (n m : NetTok) : Bool := n.r = m.r && n.inp = m.inp && n.ent = m.ent && n.vc = m.vc

/-- Is a token the first of those beside it? Tokens of one input and virtual channel keep their order
(spec/04_fabric_tokens_and_steering.md R140, R142). -/
def State.leads (s : State) (n : NetTok) : Bool := (s.net.find? n.beside) = some n

/-- Has the input that a token enters next a buffer for it: two for each virtual channel
(spec/04_fabric_tokens_and_steering.md "The mesh")? -/
def State.hasBuffer (s : State) (n : NetTok) : Bool :=
  n.arrived || decide ((s.net.filter fun m => m.ent && m.r = n.next.1 && m.inp = n.next.2 && m.vc = n.vc).length < 2)

/-- The tokens that contend for an output of a router: the first of each input and virtual channel that has a buffer
ahead. -/
def State.contend (s : State) (r : Nat) (p : Port) : List NetTok :=
  s.net.filter fun n => n.ent && n.r = r && n.port = p && s.leads n && s.hasBuffer n

/-- The key of an output of a router. -/
def outKey (r : Nat) (p : Port) : Nat :=
  r * 8 + match p with
    | .north => 0
    | .east => 1
    | .south => 2
    | .west => 3
    | .out => 4

/-- The virtual channel that an output grants next (spec/04_fabric_tokens_and_steering.md R141, rules 1 to 4). -/
def Arb.pickVc (a : Arb) (l : List NetTok) : Nat :=
  let has (v : Nat) : Bool := l.any fun n => n.vc = v
  let hi := has 0 || has 1
  let lo := has 2 || has 3
  if hi && !(lo && a.low) then (if has 0 && !(has 1 && a.vc1) then 0 else 1)
  else if has 2 && !(has 3 && a.guard) then 2 else 3

/-- The token that an output grants next: within the virtual channel the input least recently granted, and, once the guard
timer has run out, the oldest VC3 token (spec/04_fabric_tokens_and_steering.md R141, rules 4 and 5). -/
def Arb.pick (a : Arb) (l : List NetTok) : Option NetTok :=
  let v := a.pickVc l
  let c := l.filter fun n => n.vc = v
  if v = 3 && a.guard then c.head?
  else (a.order.getD v []).findSome? fun i => c.find? fun n => n.inp = i

/-- The arbitration state after a grant. -/
def Arb.granted (a : Arb) (n : NetTok) : Arb :=
  let o := a.order.getD n.vc []
  { low := decide (n.vc < 2)
    vc1 := if n.vc < 2 then decide (n.vc = 0) else a.vc1
    guard := if n.vc = 3 then false else a.guard
    order := a.order.set n.vc (o.erase n.inp ++ [n.inp]) }

/-- The arbitration of an output. -/
def State.arbAt (s : State) (r : Nat) (p : Port) : Arb := kvGet {} s.fab.arb (outKey r p)

/-- May a token move on now: it enters its first router in its order, or its output grants it
(spec/04_fabric_tokens_and_steering.md R140, R141)? -/
def State.moves (s : State) (n : NetTok) : Bool :=
  if n.ent then (s.arbAt n.r n.port).pick (s.contend n.r n.port) = some n else s.leads n && s.hasBuffer n

/-- A token taken out of the mesh, its grant noted. -/
def State.depart (s : State) (n : NetTok) : State :=
  let s := { s with net := s.net.erase n }
  if n.ent then
    let k := outKey n.r n.port
    { s with fab := { s.fab with arb := kvSet s.fab.arb k ((kvGet {} s.fab.arb k).granted n) } }
  else s

end Sys2Proof.Machine
end

