-- ==== Sys2Proof/Machine/Ops.lean ====
section
/-! DEFINITION. Named operations that every family shares: replies and interrupts, seam messages, ending a step,
starting a flush, raising and delivering faults. -/

namespace Sys2Proof.Machine

/-- The state as the next state. -/
abbrev Res := Host.Outcome State Fault Refusal

/-- A meaning that goes on: the next state. -/
abbrev go (s : State) : Res := .next s

/-- The module's id (spec/10_seam_ports_and_collectives.md R316). -/
def State.modId (s : State) : Nat := s.get R.NUM_SR_MODULE_MODULE

/-- `STEP` of `PRS_STEP`. -/
def State.stepNo (s : State) : Nat := s.get R.PRS_STEP_STEP

/-- `PHASE` (spec/07_training_step_and_press.md Table 7.8). -/
def State.phase (s : State) : Nat := s.get R.PRS_STATUS_PHASE

/-- Is a step open: from `STEP_OPEN` to the confirmed verdict (spec/07_training_step_and_press.md R220, R238)? -/
def State.stepOpen (s : State) : Bool := inRange 1 3 s.phase

/-- `STATE` of `GC_STATE`. -/
def State.gcState (s : State) : Nat := s.get R.GC_STATE_STATE

/-- Is the module in the safe state (spec/15_faults_and_safe_state.md R469)? -/
def State.safe (s : State) : Bool := s.flt.safe

/-- Has a warm reset sent its idle requests, under which a bobbin issues no request, and the press units, the pattern loader
and the unpick controller stop at their next boundary (spec/14_reset_bringup_selftest.md R443, Table 14.4)? -/
def State.idled (s : State) : Bool :=
  match s.rst.seq with
  | .warm _ => true
  | _ => false

/-- Is a controller stopped: in the safe state, or by the idle request of a warm reset
(spec/15_faults_and_safe_state.md Table 15.8, spec/14_reset_bringup_selftest.md Table 14.4)? -/
def State.halts (s : State) : Bool := s.safe || s.idled

/-- `DRAIN` of `UNP_STATUS`: 0 none, 1 QUIESCE, 2 FLUSH, 3 drained. -/
def State.drain (s : State) : Nat := s.get R.UNP_STATUS_DRAIN

/-- The current generation (spec/05_patterns_and_reconfiguration.md Table 5.13). -/
def State.curGen (s : State) : Nat := s.get R.PL_STATUS_CUR_GEN

/-- No step number: all ones in 48 bits. -/
def stepNone : Nat := 0xFFFFFFFFFFFF

/-! ### Interrupts and replies -/

/-- The list with the entry at an index replaced. -/
def setAt {α : Type} (l : List α) (k : Nat) (x : α) : List α := l.set k x

/-- An MSI-X vector raised: sent, or marked pending while masked (spec/11_host_interface_and_command_tape.md R376;
log entry 6). -/
def State.vector (s : State) (v : Nat) : State :=
  if s.cxl.msixEnable then
    if s.cxl.msixFuncMask || s.tape.msixMask.getD v true then
      { s with tape := { s.tape with msixPend := s.tape.msixPend.set v true } }
    else s.emit (.msix v)
  else s

/-- The live command of a pair whose final reply is not in the store. -/
def Tape.find (t : Tape) (tag epoch : Nat) : Option Cmd :=
  t.cmds.find? fun c => c.tag = tag && c.epoch = epoch && !c.replied && !c.gone

/-- A command's final reply put into the reply store; dropped and counted when the pair is no longer live; none in the
safe state (spec/11_host_interface_and_command_tape.md R371 to R373, R382). -/
def State.reply (s : State) (tag epoch kind code : Nat) (result : List Byte) : State :=
  if s.flt.safe then s
  else
    match s.tape.find tag epoch with
    | none => s.bump R.STALE_TAG 1
    | some c =>
      let r : Reply := ⟨c.opcode, tag, epoch, kind, code, c.seq, result, true, c.notify⟩
      let cmds := s.tape.cmds.map fun d =>
        if d.tag = tag && d.epoch = epoch && !d.gone then { d with replied := true, started := true, taken := true } else d
      let s := { s with tape := { s.tape with cmds := cmds, replies := s.tape.replies ++ [r] } }
      if kind = 2 then s.bump R.CMD_REFUSED 1 else s

/-- A fault event put into the reply store, or lost when its 64 places are full
(spec/11_host_interface_and_command_tape.md R372, R373). -/
def State.event (s : State) (rec : List Byte) : State :=
  if 64 ≤ (s.tape.replies.filter fun r => r.kind = 5).length then s.bump R.EVT_LOST 1
  else
    let r : Reply := ⟨0, 0xFFFF, 0, 5, field rec 4 2, 0, rec, false, false⟩
    { s with tape := { s.tape with replies := s.tape.replies ++ [r] } }

/-- Counter increments of conversions and read-outs put into a counter set (spec/02_numerics.md R66, R71). -/
def State.addCnt (s : State) (set : Nat) (c : Cnt) : State :=
  (((s.bump (R.SAT set) c.sat).bump (R.UFLOW set) c.uflow).bump (R.NONFIN set) c.nonfin).bump (R.ISAT set) c.isat

/-! ### Seam messages -/

/-- A seam port. -/
def State.port (s : State) (p : Nat) : SPort := kvGet {} s.seam.ports p

/-- The state with a seam port put back. -/
def State.setPort (s : State) (p : Nat) (x : SPort) : State :=
  { s with seam := { s.seam with ports := kvSet s.seam.ports p x } }

/-- Is a message type sequenced (spec/10_seam_ports_and_collectives.md Table 10.5)? -/
def sequenced (ty : Nat) : Bool := decide (0x10 ≤ ty)

/-- Difference of 24-bit link sequence numbers. -/
def diff24 (a b : Nat) : Nat := (a + 2 ^ 24 - b % 2 ^ 24) % 2 ^ 24

/-- The address of port `p` of the module with id `m` (spec/10_seam_ports_and_collectives.md R316). -/
def State.macAddr (s : State) (p m : Nat) : List Byte :=
  beBytes 3 (s.get R.SEAM_GCFG_MAC_PFX) ++ beBytes 3 (p * 2 ^ 14 + m)

/-- The module to which a frame of a port goes: the link's peer; for a `NEGOTIATE`, the module that it names (log entry
135). -/
def State.frameTo (s : State) (p : Nat) (m : SMsg) : Nat := if m.ty = 1 then m.dst else s.get (R.SP_STATUS_PEER p)

/-- The bytes of a seam frame (spec/10_seam_ports_and_collectives.md R315, R316, Table 10.3). -/
def State.wire (s : State) (p : Nat) (m : SMsg) : List Byte :=
  let tag := if s.flag (R.SP_CFG_PFC_EN p) then
      beBytes 2 0x8100 ++ beBytes 2 (s.get (R.SP_CFG_PRIO p) * 2 ^ 13 + s.get (R.SP_CFG_VID p))
    else []
  let pay := smHeader m ++ m.body ++ leBytes 4 m.mcrc.toNat
  let b := s.macAddr m.rport (s.frameTo p m) ++ s.macAddr p s.modId ++ tag ++ beBytes 2 (s.get (R.SP_CFG_ETYPE p)) ++ pay
    ++ List.replicate (46 - pay.length) 0
  b ++ leBytes 4 (crc32 b)

/-- A frame put on the wire: it carries the port's `LACK` and `FREE` (spec/10_seam_ports_and_collectives.md R315, R321). -/
def State.frame (s : State) (p : Nat) (m : SMsg) : State :=
  let x := s.port p
  let m := { m with lack := x.rxSeq, free := 128 - x.slots }
  ((s.emit (.seam p m (s.wire p m))).bump (R.FRAMES_TX p) 1).bump (R.BYTES_TX p) m.body.length

/-- A message of the link itself, to its peer: `ACK` and `HOLD` (spec/10_seam_ports_and_collectives.md Table 10.5). -/
def State.linkMsg (s : State) (p ty kid : Nat) (body : List Byte) : SMsg :=
  smSigned { ty := ty, ver := 0x10, src := s.modId, dst := s.get (R.SP_STATUS_PEER p), lseq := 0, lack := 0, free := 0
             kid := kid, kep := 0, kstep := 0, group := 0, n := 0, line := 0, body := body, mcrc := 0
             rport := s.get (R.SP_STATUS_PEER_PORT p) }

/-- An `ACK` sent, negative or not; a paused port sends it when the pause ends (spec/10_seam_ports_and_collectives.md R321,
R324). -/
def State.sendAck (s : State) (p : Nat) (neg : Bool) : State :=
  let x := s.port p
  if x.pause = 0 then s.frame p (s.linkMsg p 2 (b2n neg) [])
  else s.setPort p { x with ackDue := some (neg || x.ackDue = some true) }

/-- May the port send its next sequenced frame (spec/10_seam_ports_and_collectives.md R322, R324)? -/
def SPort.window (x : SPort) : Bool :=
  x.pause = 0 && decide (x.replay.length < 128) && decide (diff24 x.txSeq x.lack < x.free)

/-- A sequenced message sent on a link that is up, or kept until the window opens; on a link that is not up it is lost
(spec/10_seam_ports_and_collectives.md R322, R325; log entry 8). -/
def State.portSend (s : State) (p : Nat) (m : SMsg) : State :=
  if s.get (R.SP_STATUS_LINK p) = 3 then
    let x := s.port p
    if x.window && x.toSend.isEmpty then
      let m := { m with lseq := x.txSeq }
      (s.setPort p { x with txSeq := (x.txSeq + 1) % 2 ^ 24, replay := x.replay ++ [m] }).frame p m
    else s.setPort p { x with toSend := x.toSend ++ [m] }
  else s

/-- The messages kept sent as far as the window allows; the last argument bounds the recursion. -/
def State.pumpPort (s : State) (p : Nat) : Nat → State
  | 0 => s
  | k + 1 =>
    let x := s.port p
    match x.toSend with
    | m :: l =>
      if x.window && s.get (R.SP_STATUS_LINK p) = 3 then
        let m := { m with lseq := x.txSeq }
        ((s.setPort p { x with txSeq := (x.txSeq + 1) % 2 ^ 24, replay := x.replay ++ [m], toSend := l }).frame p m).pumpPort p k
      else s
    | [] => s

/-- A port whose pause has ended sends what it kept (spec/10_seam_ports_and_collectives.md R324). -/
def State.resumePort (s : State) (p : Nat) : State :=
  let x := s.port p
  if x.pause ≠ 0 then s
  else
    let s := match x.ackDue with
      | some neg => (s.setPort p { x with ackDue := none }).sendAck p neg
      | none => s
    s.pumpPort p x.toSend.length

/-- The local port of the route that covers a module (spec/10_seam_ports_and_collectives.md R328). -/
def routeFor (rs : List RouteRec) (m : Nat) : Option RouteRec :=
  rs.find? fun r => decide (r.mlo ≤ m) && decide (m ≤ r.mhi)

/-- A message sent to its receiver by a table of routes; nothing where no route covers it. -/
def State.sendBy (s : State) (rs : List RouteRec) (m : SMsg) : State :=
  match routeFor rs m.dst with
  | some r => s.portSend r.lport (smSigned { m with rport := r.rport })
  | none => s

/-- A message originated by this module for a collective instance, to its successor
(spec/10_seam_ports_and_collectives.md R332 to R339). -/
def State.sendSucc (s : State) (i : Inst) (ty group n line : Nat) (body : List Byte) : State :=
  if i.rc.succ = s.modId then s
  else
    s.sendBy i.routes
      { ty := ty, ver := 0x10, src := s.modId, dst := i.rc.succ, lseq := 0, lack := 0, free := 0, kid := i.rc.id,
        kep := i.step % 256, kstep := i.step, group := group, n := n, line := line, body := body, mcrc := 0 }

/-- The live `NORM` instance of a step. -/
def State.normInst (s : State) (step : Nat) : Option Inst :=
  s.seam.insts.find? fun i => i.rc.kind = 2 && i.step = step

/-- Has this module sent its verdict of the open step (spec/10_seam_ports_and_collectives.md R338)? -/
def State.verdictSent (s : State) : Bool :=
  match s.normInst s.stepNo with
  | some i => i.sentVerdict
  | none => false

/-! ### Ending a step -/

/-- The `RESULT` of a `STEP_OPEN` reply (spec/11_host_interface_and_command_tape.md Table 11.11). -/
def stepResult (step verdict late : Nat) (n2 k : W32) (drop : Nat) : List Byte :=
  leBytes 8 step ++ leBytes 1 verdict ++ leBytes 1 0 ++ leBytes 2 late ++ leBytes 4 n2.toNat ++ leBytes 4 k.toNat
    ++ leBytes 4 (min drop 0xFFFFFFFF)

/-- What a step holds, forgotten; a deferred `STEP_OPEN` is kept. -/
def Press.cleared (p : Press) : Press :=
  { deferred := p.deferred, everOpened := p.everOpened, replies := p.replies, heldClose := p.heldClose }

/-- The step channels without the tokens still owed for a step. -/
def Tape.dropOwed (t : Tape) : Tape :=
  { t with chans := t.chans.map fun c => { c with owed := [], owedEnd := false } }

/-- The open step abandoned: `ABANDON` sent, the instances retired, the `STEP_OPEN` reply of kind aborted with the code,
or with that of a fault held before (spec/07_training_step_and_press.md R222, spec/10_seam_ports_and_collectives.md R332, R338). -/
def State.abandonStep (s : State) (code : Nat) : State :=
  if s.stepOpen then
    let step := s.stepNo
    let code := s.press.heldFault.getD code
    let s := match s.normInst step with
      | some i => s.sendSucc i 0x2A 0 0 0 (leBytes 2 s.modId ++ leBytes 2 code)
      | none => s
    let s := match s.press.cmd with
      | some (tag, ep) => s.reply tag ep 3 code (stepResult step 0 0 0 0 s.press.lateDrop)
      | none => s
    let s := (s.set R.PRS_STATUS_PHASE 0).bump R.STEPS_ABANDONED 1
    { s with
      press := s.press.cleared
      tape := s.tape.dropOwed
      seam := { s.seam with insts := s.seam.insts.filter fun i => !(i.step = step) } }
  else s

/-! ### Verdicts at selvedge units -/

/-- What a selvedge unit does with a token on which it acts: it was sent sewn, or a verdict that came before has sewn it; it
is basted and its verdict is awaited, with its tag; a verdict has squashed it
(spec/04_fabric_tokens_and_steering.md R131, R137). -/
inductive Fate where
  | sewn | held (tag : Nat) | gone
  deriving DecidableEq, Repr

/-- A token on which a selvedge unit acts, by its tag when it was sent basted: it is no longer one that the unit has yet to
act on, and a verdict kept for it is taken. `dq` says for which queues of the unit the action is. -/
def State.fate (s : State) (u : Nat) (dq : Nat → Bool) (basted : Option Nat) : State × Fate :=
  match basted with
  | none => (s, .sewn)
  | some g =>
    let s := match s.fab.came.find? fun c => c.1 = u && dq c.2.1 && c.2.2 = g with
      | some c => { s with fab := { s.fab with came := s.fab.came.erase c } }
      | none => s
    match s.fab.verdicts.find? fun v => v.1 = u && dq v.2.1 && v.2.2.1 = g with
    | some v => ({ s with fab := { s.fab with verdicts := s.fab.verdicts.erase v } }, if v.2.2.2 then .sewn else .gone)
    | none => (s, .held g)

/-! ### Stopping the fabric -/

/-- The targets of the requests that a bobbin has outstanding, each once. -/
def Bob.targets (b : Bob) : List Nat := (b.reqs.map BobReq.target).dedup

/-- A bobbin's stream aborted: it stops, its epoch is quarantined until every target has answered the retirement token
(spec/09_bobbin_streams.md R306). -/
def Bob.abort (b : Bob) (epoch : Nat) : Bob :=
  if b.run then
    { b with
      run := false, loops := [], reqs := [], pubs := 0, stalled := false, prog := 0, seed := none
      quar := if b.targets.isEmpty then b.quar else b.quar ++ [(epoch, b.targets)] }
  else b

/-- A bobbin of a tile. -/
def Tile.bob (x : Tile) (b : Nat) : Bob := if b = 0 then x.bob0 else x.bob1

/-- The tile with a bobbin put back. -/
def Tile.setBob (x : Tile) (b : Nat) (v : Bob) : Tile := if b = 0 then { x with bob0 := v } else { x with bob1 := v }

/-- A bobbin of a tile aborted, with its status (spec/09_bobbin_streams.md R306, Table 9.10). -/
def Tile.abortBob (x : Tile) (b : Nat) : Tile :=
  if (x.bob b).run then
    let v := (x.bob b).abort (x.get (T.BOB_STAT_EPOCH b))
    (x.setBob b v).set (T.BOB_STAT_STATE b) (if v.quar.isEmpty then 0 else 6)
  else x

/-- The retirement tokens that an abort sends: data tokens of `LEN` 8 with `DQ` 26 and the stream and epoch
(spec/09_bobbin_streams.md R306). -/
def Tile.retireToks (x : Tile) (t b : Nat) : List Token :=
  if (x.bob b).run then
    (x.bob b).targets.map fun d =>
      ⟨mkHdr ⟨d, 26, x.get T.TILE_STATUS_GEN, 0, kData, false, x.get (T.BOB_CFG_VC b), 8, panelOf t, 0⟩,
        leBytes 8 (t * 2 + b + x.get (T.BOB_STAT_EPOCH b) * 2 ^ 13)⟩
  else []

/-- A bobbin's stream aborted with its retirement tokens sent (spec/09_bobbin_streams.md R306). -/
def State.abortStream (s : State) (t b : Nat) : State :=
  let x := s.tile t
  let y := x.abortBob b
  (s.setTile t (y.set (T.BOB_STAT_OUTST b) (y.bob b).reqs.length)).injectAll t (x.retireToks t b)

/-- Both bobbins of every tile aborted, and no wait tripped (spec/06_progress_deadlock_drain.md R196, Table 6.4 step 2). -/
def State.abortBobs (s : State) : State :=
  let s := (s.tiles.map Prod.fst).foldl (fun s t => (s.abortStream t 0).abortStream t 1) s
  { s with tiles := s.tiles.map fun e => (e.1, { e.2 with tripped := [] }) }

/-- A FLUSH starts: `DRAIN` running, inputs stopped, every bobbin's program aborted
(spec/06_progress_deadlock_drain.md R209, Table 6.4 steps 1 and 2). -/
def State.startFlush (s : State) : State :=
  if s.drain = 2 then s
  else
    let s := (s.set R.UNP_STATUS_DRAIN 2).set R.UNP_STATUS_STATE 0
    let s := s.abortBobs
    { s with unpick := { s.unpick with
        stopped := true, flushed := true, again := false, sent := [], spent := [], probed := [], owed := [], answers := []
        spillCmds := [] } }

/-! ### Faults -/

/-- The number of a class in a record (spec/15_faults_and_safe_state.md Table 15.2). -/
def FClass.num : FClass → Nat
  | .correctable => 0 | .contained => 1 | .stepFatal => 2 | .moduleFatal => 3 | .run => 1

/-- How a class resolves when it is raised: class, and whether `ESC` and `AFTER_COMMIT` are set
(spec/15_faults_and_safe_state.md R464). -/
def State.resolve (s : State) (c : FClass) : FClass × Bool × Bool :=
  let c1 := match c with
    | .run => if s.stepOpen then .stepFatal else .contained
    | .stepFatal => if s.stepOpen || !s.press.replies.isEmpty then .stepFatal else .contained
    | c => c
  let after := decide (c1 = .stepFatal) && !s.stepOpen
  let esc := decide (c1 = .stepFatal) && !after && s.flag R.FLT_CFG_STOP_ON_STEP
  (if esc then .moduleFatal else c1, esc, after)

/-- The counter of a resolved class (spec/15_faults_and_safe_state.md Table 15.11). -/
def FClass.counter : FClass → Fld
  | .correctable => R.CORRECTABLE | .contained => R.CONTAINED | .stepFatal => R.STEP_FATAL
  | .moduleFatal => R.MODULE_FATAL | .run => R.CONTAINED

/-- The generation of a raising unit: a tile's own, else the current one (spec/15_faults_and_safe_state.md R465). -/
def State.unitGen (s : State) (unit : Nat) : Nat :=
  if unit < nTiles then (s.tile unit).get T.TILE_STATUS_GEN else s.curGen

/-- A record put into its unit's four places, or lost (spec/15_faults_and_safe_state.md R466). -/
def State.hold (s : State) (r : FltRec) : State :=
  if 4 ≤ (s.flt.waiting.filter fun q => q.unit = r.unit).length then s.bump R.RECORDS_LOST 1
  else { s with flt := { s.flt with waiting := s.flt.waiting ++ [r] } }

/-- Which controllers a module-fatal fault makes unsound (spec/15_faults_and_safe_state.md R471). -/
def unsoundBy (code unit sub : Nat) : List Nat :=
  if (code = Code.MEM_CH_FAIL || code = Code.MEM_PD_WRITEBACK) && inRange 0xC00 0xC17 unit then [unit - 0xC00]
  else if code = Code.PWR_TRIP && inRange 36 59 sub then [sub - 36]
  else []

/-- The codes that the boot ROM raises as module-fatal without the safe state
(spec/12_thimble_management_security.md R412). -/
def isBootCode (code : Nat) : Bool := inRange Code.TH_BOOT_IMAGE Code.TH_BOOT_ROLLBACK code

/-- What a step-fatal fault does to the open step: held after this module's verdict, else the step is abandoned and the
fabric flushed (spec/15_faults_and_safe_state.md Table 15.1, spec/10_seam_ports_and_collectives.md R338). -/
def State.stepFatal (s : State) (code : Nat) : State :=
  if s.verdictSent then
    match s.press.heldFault with
    | some _ => s
    | none => { s with press := { s.press with heldFault := some code } }
  else (s.abandonStep code).startFlush

/-- A fault raised: its class resolved, counted and recorded, and what the class does
(spec/15_faults_and_safe_state.md R463 to R466, R473). `tied` is whether a command's final reply reports it. -/
def State.raiseAs (s : State) (listed : FClass) (tied : Bool) (code unit sub arg : Nat) : State :=
  let r := s.resolve listed
  let cls := r.1
  let boot := isBootCode code
  let first := decide (cls = .moduleFatal) && !boot && s.flt.cause.isNone
  let flags := b2n (decide (listed = .run)) * 4 + b2n r.2.1 * 8 + b2n first * 16 + b2n r.2.2 * 32
  let rec' : FltRec := ⟨code, cls.num, flags, s.unitGen unit, unit, sub, arg, tied⟩
  let wasSafe := s.flt.cause.isSome
  let s := (s.bump cls.counter 1).hold rec'
  let s := if cls = .moduleFatal then
      { s with mem := { s.mem with unsound := (s.mem.unsound ++ unsoundBy code unit sub).dedup } }
    else s
  if first then { s with flt := { s.flt with cause := some rec', fatal := true } }
  else if wasSafe then s
  else if r.2.2 then
    { s with press := { s.press with replies := s.press.replies.map fun r => if r.late = 0 then { r with late := code } else r } }
  else
    let s := if cls = .stepFatal then s.stepFatal code else s
    if listed = .run && !decide (cls = .moduleFatal) then s.startFlush else s

/-- A fault of its listed class. -/
def State.raise (s : State) (code unit sub arg : Nat) : State := s.raiseAs (classOf code) false code unit sub arg

/-- A fault that the final reply of a command reports. -/
def State.raiseTied (s : State) (code unit sub arg : Nat) : State := s.raiseAs (classOf code) true code unit sub arg

/-- The record raised last, reported in a command's final reply (spec/15_faults_and_safe_state.md R466). -/
def State.tieLast (s : State) (code : Nat) : State :=
  let w := s.flt.waiting
  match w.getLast? with
  | some r => if r.code = code then { s with flt := { s.flt with waiting := w.dropLast ++ [{ r with tied := true }] } } else s
  | none => s

/-- `ARG` of a tile's run-time fault: `PC` (spec/15_faults_and_safe_state.md Table 15.3). -/
def State.tileFault (s : State) (code t sub : Nat) : State :=
  s.raise code t sub ((s.tile t).get T.TILE_STATUS_PC)

/-- `ARG` of a fault tied to a tape command (spec/15_faults_and_safe_state.md Table 15.3). -/
def tagArg (tag epoch : Nat) : Nat := tag % 2 ^ 16 + epoch % 2 ^ 8 * 2 ^ 16

/-- A command refused by its unit: the fault recorded, the refused reply stored
(spec/11_host_interface_and_command_tape.md R366). -/
def State.refuse (s : State) (c : Cmd) (code unit sub arg : Nat) (result : List Byte) : State :=
  (s.raiseTied code unit sub arg).reply c.tag c.epoch 2 code result

/-- A command refused by the tape unit or the memory system as a whole. -/
def State.refuseTag (s : State) (c : Cmd) (code sub : Nat) : State :=
  s.refuse c code 0xC34 sub (tagArg c.tag c.epoch) []

/-! ### Delivering a record to Thimble -/

/-- The four 64-bit words of a record put into `FLT_FIRST` or `FLT_LAST` (spec/15_faults_and_safe_state.md R474). -/
def State.setRec (s : State) (f : Nat → Fld) (b : List Byte) : State :=
  s.setAll ((List.range 4).map fun w => (f w, field b (8 * w) 8))

/-- Is a record of correctable class suppressed by R405 of spec/12_thimble_management_security.md? -/
def State.suppressed (s : State) (r : FltRec) : Bool :=
  r.cls = 0 &&
    match kvGet? s.th.lastCe r.code with
    | some t => decide (s.now < t + 100000000)
    | none => false

/-- Does a record go to the tape unit as a fault event (spec/15_faults_and_safe_state.md R466, R470)? -/
def State.passes (s : State) (r : FltRec) : Bool :=
  (decide (2 ≤ r.cls) || (r.cls = 1 && !r.tied) || (r.cls = 0 && s.flag R.FLT_CFG_CE_EVT))
    && (s.flt.cause.isNone || bit r.flags 4)

/-- A record that reaches Thimble: completed, logged or suppressed, copied into `FLT_LAST` and `FLT_FIRST`, passed to
the tape unit (spec/15_faults_and_safe_state.md R465, R466, spec/12_thimble_management_security.md R404, R405). -/
def State.deliver (s : State) (r : FltRec) : State :=
  let unlogged := s.suppressed r || decide (512 ≤ s.th.buf.length)
  let step := if s.press.everOpened then s.stepNo else stepNone
  let b := faultRecord r s.th.nextLseq step (s.now / 1024 % 2 ^ 48) unlogged
  let s := if unlogged then s.bump R.LOG_SUPPRESSED 1
    else { s with th := { s.th with
        buf := s.th.buf ++ [b], nextLseq := (s.th.nextLseq + 1) % 2 ^ 32
        lastCe := if r.cls = 0 then kvSet s.th.lastCe r.code s.now else s.th.lastCe } }
  let s := if r.cls = 0 then s else s.setRec (fun k => R.FLT_LAST_REC k) b
  let s := if bit r.flags 4 then s.setRec (fun k => R.FLT_FIRST_REC k) b else s
  if s.passes r then (s.bump R.EVENTS 1).event b else s

end Sys2Proof.Machine
end

