-- ==== Sys2Proof/Machine/MemMap.lean ====
section
/-! DEFINITION. The fabric address space: class extents, storage granules, the interleave hash, lining windows and spill
pages (spec/01_module_overview.md R30 to R36, spec/08_memory_system.md R256 to R263). -/

namespace Sys2Proof.Machine

/-- The first address above LPDDR5X (spec/01_module_overview.md Table 1.4). -/
def lpEnd : Nat := 0xC000000000

/-- The first address above the lining windows. -/
def lnEnd : Nat := 0xC006000000

/-- The scratchpad window. -/
def spadBase : Nat := 0xD000000000
def spadEnd : Nat := 0xD024000000

/-- The host range. -/
def hostBase : Nat := 0x100000000000
def hostEnd : Nat := 0x1000000000000

/-- 2 MiB. -/
def mib2 : Nat := 0x200000

/-- Data bytes per storage granule of a class (spec/08_memory_system.md R256, R257). -/
def dataPer (cls : Nat) : Nat := if cls = 2 then 248 else 224

/-- The extent that covers an address. -/
def extOf (l : List Extent) (a : Nat) : Option Extent :=
  l.find? fun e => decide (e.base * mib2 ≤ a) && decide (a < (e.base + e.size) * mib2)

/-- The data bytes of an extent. -/
def Extent.dataLen (e : Extent) : Nat := e.size * mib2 / 256 * dataPer e.cls

/-- The end of an extent's data addresses. -/
def Extent.dataEnd (e : Extent) : Nat := e.base * mib2 + e.dataLen

/-- The storage byte of a data address, granule x 256 + byte; none in a tail (spec/08_memory_system.md R257). -/
def storOf (l : List Extent) (a : Nat) : Option Nat :=
  match extOf l a with
  | none => none
  | some e =>
    let o := a - e.base * mib2
    if e.dataLen ≤ o then none
    else some ((e.base * mib2 / 256 + o / dataPer e.cls) * 256 + o % dataPer e.cls)

/-- The class of a data address; none in a tail or outside LPDDR5X. -/
def clsOf (l : List Extent) (a : Nat) : Option Nat :=
  match storOf l a with
  | none => none
  | some _ => (extOf l a).map Extent.cls

/-- Is `[a, a + n)` wholly data addresses of extents of one class? The extents that can meet it are few, so the range is
followed extent by extent. -/
def inClass (l : List Extent) (cls : Nat) : Nat → Nat → Nat → Bool
  | 0, _, n => n = 0
  | k + 1, a, n =>
    if n = 0 then true
    else
      match extOf l a with
      | none => false
      | some e =>
        if e.cls = cls ∧ a < e.dataEnd then
          let m := min n (e.dataEnd - a)
          if m = n then true
          else if e.dataEnd = (e.base + e.size) * mib2 then inClass l cls k (a + m) (n - m) else false
        else false

/-- Is a range wholly of one class? -/
def State.rangeClass (s : State) (cls a n : Nat) : Bool := inClass s.mem.exts cls 65 a n

/-- The module channel of a storage granule (spec/08_memory_system.md R261). -/
def chanOf (g : Nat) : Nat :=
  let q := g / 3
  32 * (g % 3) + Nat.land (Nat.xor (Nat.xor (Nat.xor q (q / 2 ^ 5)) (q / 2 ^ 10)) (q / 2 ^ 15)) 0x1F

/-- The channel granule. -/
def chanGran (g : Nat) : Nat := g / 3 / 32

/-- Bank and row of a storage granule in its channel (spec/08_memory_system.md R261). -/
def bankOf (g : Nat) : Nat := Nat.land (Nat.xor (chanGran g / 8) (chanGran g / 2 ^ 15)) 0xF
def rowOf (g : Nat) : Nat := chanGran g / 128

/-- The controller of a storage granule. -/
def mcOfGran (g : Nat) : Nat := chanOf g / 4

/-- The lining group that a window address names: controller and group (spec/01_module_overview.md R32). -/
def lnGroup (a : Nat) : Nat × Nat := ((a - lpEnd) / 0x400000, (a - lpEnd) % 0x400000 / 0x100000)

/-- The mode of a lining group: 0 off, 1 cache, 2 scratchpad as `LN_MODE` holds it, two bits per group. -/
def State.lnMode (s : State) (mc g : Nat) : Nat := bits (s.get (R.MC_CFG_LN_MODE mc)) (2 * g) 2

/-- The key under which data of a fabric address is kept: storage byte, or the window address of a lining group. -/
def State.memKey (s : State) (a : Nat) : Option Nat :=
  if a < lpEnd then storOf s.mem.exts a else if a < lnEnd then some a else none

/-- The controller that holds a fabric address. -/
def State.mcOf (s : State) (a : Nat) : Nat :=
  if a < lpEnd then
    match storOf s.mem.exts a with
    | some k => mcOfGran (k / 256)
    | none => 0
  else (lnGroup a).1

/-- Data bytes of fabric addresses; zero where an address holds no data. -/
def State.rdN (s : State) (a n : Nat) : List Byte :=
  (List.range n).map fun k =>
    match s.memKey (a + k) with
    | some x => memRead s.mem.data x
    | none => 0

/-- The memory with data bytes written at fabric addresses; an address that holds no data takes nothing. -/
def MemSys.wrKeys (m : Memory) : List (Option Nat × Byte) → Memory
  | [] => m
  | (some k, b) :: t => MemSys.wrKeys (memWrite m k b) t
  | (none, _) :: t => MemSys.wrKeys m t

/-- The state with data bytes written at fabric addresses. -/
def State.wrN (s : State) (a : Nat) (l : List Byte) : State :=
  let ks := (List.range l.length).map fun k => s.memKey (a + k)
  { s with mem := { s.mem with data := MemSys.wrKeys s.mem.data (ks.zip l) } }

/-- 32-bit words at a fabric address. -/
def State.rdW (s : State) (a n : Nat) : List W32 := bytesWords (s.rdN a (4 * n))

/-- A little-endian number at a fabric address. -/
def State.rdNat (s : State) (a n : Nat) : Nat := leNat (s.rdN a n)

/-- The storage granules that a data range touches. -/
def State.granules (s : State) (a n : Nat) : List Nat :=
  (((List.range n).filterMap fun k =>
    if a + k < lpEnd then (storOf s.mem.exts (a + k)).map (· / 256) else none)).dedup

/-- Is any granule of a range poisoned (spec/08_memory_system.md R266)? -/
def State.poisoned (s : State) (a n : Nat) : Bool := (s.granules a n).any fun g => s.mem.poison.contains g

/-- Do two ranges share a byte? An empty one shares none. -/
def overlaps (a n b m : Nat) : Bool := decide (0 < n) && decide (0 < m) && decide (a < b + m) && decide (b < a + n)

/-- The spill area: base and size in bytes (spec/06_progress_deadlock_drain.md Table 6.8). -/
def State.spillArea (s : State) : Nat × Nat :=
  (s.get R.UNP_SPILL_BASE * 2 ^ 20, s.get R.UNP_SPILL_SIZE * 2 ^ 20)

/-- The aligned 4 KiB runs of data addresses of one extent that lie in a range: the first page and how many. -/
def extPages (e : Extent) (a n : Nat) : Nat × Nat :=
  let lo := ceilDiv (max a (e.base * mib2)) 4096
  let hi := min (a + n) e.dataEnd / 4096
  (lo, if e.cls = 2 then hi - lo else 0)

/-- How many spill pages there are (spec/06_progress_deadlock_drain.md R200). -/
def State.pageCount (s : State) : Nat :=
  (s.mem.exts.map fun e => (extPages e s.spillArea.1 s.spillArea.2).2).sum

/-- The address of the k-th spill page. -/
def nthPage : List Extent → Nat → Nat → Nat → Option Nat
  | [], _, _, _ => none
  | e :: t, a, n, k =>
    let p := extPages e a n
    if k < p.2 then some ((p.1 + k) * 4096) else nthPage t a n (k - p.2)

/-- The first spill page that no chain holds (spec/06_progress_deadlock_drain.md R200). -/
def State.freePage (s : State) : Option Nat :=
  (List.range (s.unpick.pages.length + 1)).findSome? fun k =>
    match nthPage s.mem.exts s.spillArea.1 s.spillArea.2 k with
    | some p => if (kvGet? s.unpick.pages p).isSome then none else some p
    | none => none

/-- The bytes of a lining window or LPDDR5X data range that no extent maps: an address a fabric agent may not reach
(spec/01_module_overview.md R31). -/
def State.reachable (s : State) (a : Nat) : Bool :=
  if a < lpEnd then (storOf s.mem.exts a).isSome
  else if a < lnEnd then s.lnMode (lnGroup a).1 (lnGroup a).2 = 2
  else false

end Sys2Proof.Machine
end

