-- ==== Sys2Proof/Machine/Storage.lean ====
section
/-! DEFINITION. What a storage granule holds, the lining cache, the check of what is read, and stores that go through it
(spec/08_memory_system.md R256, R264 to R268, R271, R272, R280). -/

namespace Sys2Proof.Machine

/-! ### The contents of a granule -/

/-- The class of a storage granule: that of its extent. -/
def State.granCls (s : State) (g : Nat) : Nat := ((extOf s.mem.exts (g * 256)).map Extent.cls).getD 2

/-- A metadata word: the class, the poison flag and the CRC-8 over the bits above it (spec/08_memory_system.md R256,
Table 8.1). -/
def metaWord (cls : Nat) (poisoned : Bool) : Nat :=
  let hi := cls * 2 ^ 30 + b2n poisoned * 2 ^ 29
  hi + crc8 ((leBytes 4 hi).drop 1)

/-- The data bytes of a granule. -/
def State.granData (s : State) (g : Nat) : List Byte :=
  (List.range (dataPer (s.granCls g))).map fun k => memRead s.mem.data (g * 256 + k)

/-- The 256 bytes of a storage granule: data, the CRC-32 of class A or the check bytes of the data words, and the metadata
word (spec/08_memory_system.md R256, Table 8.1). -/
def State.granBytes (s : State) (g : Nat) : List Byte :=
  let d := s.granData g
  let check :=
    if s.granCls g = 2 then leBytes 4 (crc32 (d ++ leBytes 4 g))
    else (List.range 28).map fun k => Config.checkByte (BitVec.ofNat 64 (field d (8 * k) 8)) k g
  d ++ check ++ leBytes 4 (metaWord (s.granCls g) (s.mem.poison.contains g))

/-! ### The lining cache -/

/-- Is a lining group changing mode? -/
def State.lnBusy (s : State) (mc g : Nat) : Bool := bit (s.get (R.MC_STATUS_LN_BUSY mc)) g

/-- The groups of a controller in cache mode, those that are closed left out (spec/08_memory_system.md R272, R280). -/
def State.cacheGroups (s : State) (mc : Nat) : List Nat :=
  (List.range 4).filter fun g => s.lnMode mc g = 1 && !s.lnBusy mc g

/-- A granule's line put first among the lines of its controller, dirty after a write. -/
def touchLine (l : List Line) (x : Line) (wr : Bool) : List Line := { x with dirty := x.dirty || wr } :: l.erase x

/-- A line allocated: in a group with a free way of the set, else in the place of the least recently used line
(spec/08_memory_system.md R272). -/
def allocLine (l : List Line) (groups : List Nat) (mc gran : Nat) (wr : Bool) : List Line :=
  let set := Config.cacheSet mc gran
  let mine := l.filter fun x => x.mc = mc && x.set = set && groups.contains x.group
  match groups.find? fun g => decide ((mine.filter fun x => x.group = g).length < 16) with
  | some g => ⟨mc, g, set, gran, wr⟩ :: l
  | none =>
    match mine.getLast? with
    | some v => ⟨mc, v.group, set, gran, wr⟩ :: l.erase v
    | none => l

/-- A granule looked up in the lining cache: a hit, a miss that allocates unless the request carries the no-allocate
flag, or, for a line of a group that is closing, its write-back and the access at the channel
(spec/08_memory_system.md R272, R280). -/
def State.cacheTouch (s : State) (gran : Nat) (wr noalloc : Bool) : State :=
  let mc := mcOfGran gran
  let gs := s.cacheGroups mc
  let put (l : List Line) : State := { s with mem := { s.mem with lines := l } }
  match s.mem.lines.find? fun x => x.mc = mc && x.granule = gran with
  | some x =>
    if gs.contains x.group then (put (touchLine s.mem.lines x wr)).bump (R.LN_HIT mc) 1
    else put (s.mem.lines.erase x)
  | none =>
    if gs.isEmpty then s
    else (if noalloc then s else put (allocLine s.mem.lines gs mc gran wr)).bump (R.LN_MISS mc) 1

/-! ### Errors of stored data -/

/-- Who reads (spec/08_memory_system.md Table 8.2). -/
inductive Reader where
  | fabric | host | scrub
  deriving DecidableEq, Repr

/-- The fault of uncorrectable data by class and reader (spec/08_memory_system.md Table 8.2). -/
def ueCode (cls : Nat) (r : Reader) : Nat :=
  match r with
  | .host => Code.MEM_UE_HOST
  | .scrub => if cls = 1 then Code.MEM_UE_S else Code.MEM_UE_SCRUB
  | .fabric => if cls = 0 then Code.MEM_UE_W else if cls = 1 then Code.MEM_UE_S else Code.MEM_UE_A

/-- Where the data of a granule stand: at its channel, in an entry of the remap store, in a line of a lining group
(spec/08_memory_system.md R268, R272). -/
inductive Place where
  | channel | remap | lining (group : Nat)
  deriving DecidableEq, Repr

/-- The place of a granule; a line comes before the remap store, which comes before the row. -/
def State.placeOf (s : State) (g : Nat) : Place :=
  match s.mem.lines.find? fun x => x.granule = g with
  | some x => .lining x.group
  | none =>
    if s.mem.remaps.any fun r => r.chan = chanOf g && r.bank = bankOf g && r.row = rowOf g then .remap else .channel

/-- `SUB` of the record of an error by its place (spec/15_faults_and_safe_state.md Table 15.3; log entry 47). -/
def placeSub (g : Nat) : Place → Nat
  | .lining k => 0x100 + k
  | _ => chanOf g

/-- The fault of a granule that is poisoned or found uncorrectable (spec/08_memory_system.md R266, Table 15.3). -/
def State.ueFault (s : State) (g : Nat) (r : Reader) : State :=
  (s.bump (R.UE (mcOfGran g)) 1).raise (ueCode (s.granCls g) r) (0xC00 + mcOfGran g) (chanOf g) g

/-- An error noted no longer: what it damaged is rewritten or poisoned. -/
def State.dropErr (s : State) (k : Nat) : State := { s with mem := { s.mem with errs := kvErase s.mem.errs k } }

/-- An uncorrectable error found in a granule: poisoned, recorded, raised (spec/08_memory_system.md R266, R271). -/
def State.memUe (s : State) (g : Nat) (r : Reader) : State :=
  let n := mcOfGran g
  let at_ := s.placeOf g
  let cls := match at_ with
    | .lining _ => 3
    | _ => s.granCls g
  let s := s.dropErr g
  let s := { s with mem := { s.mem with poison := if s.mem.poison.contains g then s.mem.poison else g :: s.mem.poison } }
  let s := (s.setAll [(R.MC_LAST_UE_GRANULE n, g), (R.MC_LAST_UE_CLASS n, cls),
    (R.MC_LAST_UE_CHAN n, chanOf g % 4), (R.MC_LAST_UE_SCRUB n, b2n (decide (r = .scrub)))])
  (s.bump (R.UE n) 1).raise (ueCode (s.granCls g) r) (0xC00 + n) (placeSub g at_) g

/-- The row counts of a channel with one more corrected error for a row: a full table of 64 rows gives up the entry
with the lowest count, the oldest among equals (spec/08_memory_system.md R268). -/
def countRow (l : List RowCount) (ch bank row : Nat) : List RowCount :=
  if l.any fun r => r.chan = ch && r.bank = bank && r.row = row then
    l.map fun r => if r.chan = ch && r.bank = bank && r.row = row then { r with count := r.count + 1 } else r
  else
    let mine := l.filter fun r => r.chan = ch
    let l := if mine.length < 64 then l
      else
        let lo := mine.foldl (fun m r => min m r.count) (mine.head?.map RowCount.count |>.getD 0)
        match mine.find? fun r => r.count = lo with
        | some r => l.erase r
        | none => l
    l ++ [⟨ch, bank, row, 1⟩]

/-- A corrected error of a granule: at a channel, of class W or S, it is counted to its row, and a CRC corrects nothing;
in lining or the remap store SEC-DED corrects a word of any class, and no row counts it (spec/08_memory_system.md R266,
R268, R271). -/
def State.memCe (s : State) (g : Nat) : State :=
  let at_ := s.placeOf g
  let s := s.dropErr g
  if at_ = .channel && s.granCls g = 2 then s
  else
    let s := if at_ = .channel then
        { s with mem := { s.mem with rows := countRow s.mem.rows (chanOf g) (bankOf g) (rowOf g) } }
      else s
    (s.bump (R.CE (mcOfGran g)) 1).raise Code.MEM_CE (0xC00 + mcOfGran g) (placeSub g at_) g

/-- The graver of two findings. -/
def worseOf (a b : Ecc) : Ecc :=
  match a, b with
  | .uncorrectable, _ => .uncorrectable
  | _, .uncorrectable => .uncorrectable
  | .corrected, _ => .corrected
  | .ok, b => b

/-- The check of one granule that is read: `e` is the error that this access meets, beside one that has waited. The flag
says whether the data may be used (spec/08_memory_system.md R266). -/
def State.checkGran (s : State) (g : Nat) (e : Ecc) (r : Reader) : State × Bool :=
  if s.mem.poison.contains g then (s.ueFault g r, false)
  else
    match worseOf e (kvGet .ok s.mem.errs g) with
    | .ok => (s, true)
    | .corrected => (s.memCe g, true)
    | .uncorrectable => (s.memUe g r, false)

/-- The check of the granules that an access reads, in order, as far as the first that cannot be used; `e` is the error
that the first of them meets (spec/08_memory_system.md R266). -/
def State.checkRead (s : State) : List Nat → Ecc → Reader → State × Bool
  | [], _, _ => (s, true)
  | g :: l, e, r =>
    let c := s.checkGran g e r
    if c.2 then c.1.checkRead l .ok r else c

/-- An error of the SRAM of a lining group in scratchpad mode: corrected, or an uncorrectable error
(spec/08_memory_system.md R271); the granule and the channel that `MC_LAST_UE` shows are not of LPDDR5X and are free
values (log entry 47). -/
def State.lnErr (s : State) (a : Nat) (e : Ecc) (r : Reader) : State × Bool :=
  let mc := (lnGroup a).1
  let raise (s : State) (code : Nat) : State := s.raise code (0xC00 + mc) (0x100 + (lnGroup a).2) (a % 0x100000 / 8)
  match e with
  | .ok => (s, true)
  | .corrected => (raise (s.bump (R.CE mc) 1) Code.MEM_CE, true)
  | .uncorrectable =>
    let v := s.freeVal 32
    let w := v.2.freeVal 2
    let s := w.2.setAll [(R.MC_LAST_UE_GRANULE mc, v.1.toNat), (R.MC_LAST_UE_CLASS mc, 3),
      (R.MC_LAST_UE_CHAN mc, w.1.toNat), (R.MC_LAST_UE_SCRUB mc, 0)]
    (raise (s.bump (R.UE mc) 1) (if r = .host then Code.MEM_UE_HOST else Code.MEM_UE_A), false)

/-- The key under which the error of a lining word waits: above every granule index. -/
def lnErrKey (a : Nat) : Nat := 2 ^ 40 + a / 8

/-- The check of lining words that are read: `e` is the error that the first meets, beside those that have waited. -/
def State.checkLn (s : State) (a : Nat) (e : Ecc) (r : Reader) : Nat → State × Bool
  | 0 => (s, true)
  | n + 1 =>
    let w := worseOf e (kvGet .ok s.mem.errs (lnErrKey a))
    let c := if w = .corrected then (s.dropErr (lnErrKey a)).lnErr a w r else s.lnErr a w r
    if c.2 then c.1.checkLn (a / 8 * 8 + 8) .ok r n else c

/-- How many 8-byte words a range touches. -/
def wordsIn (a n : Nat) : Nat := if n = 0 then 0 else (a + n - 1) / 8 - a / 8 + 1

/-- The check of what an access of one granule or lining group reads (spec/08_memory_system.md R266, R271). -/
def State.checkAt (s : State) (a n : Nat) (e : Ecc) (r : Reader) : State × Bool :=
  if a < lpEnd then
    match storOf s.mem.exts a with
    | some k => s.checkGran (k / 256) e r
    | none => (s, true)
  else s.checkLn a e r (wordsIn a n)

/-- The code of the fault that an uncorrectable error at an address raises (spec/08_memory_system.md Table 8.2). -/
def State.ueCodeAt (s : State) (a : Nat) (r : Reader) : Nat :=
  if a < lpEnd then ueCode (s.granCls (((storOf s.mem.exts a).map (· / 256)).getD 0)) r
  else if r = .host then Code.MEM_UE_HOST else Code.MEM_UE_A

/-! ### Access by granules -/

/-- A range as its runs, each within the data bytes of one granule or within one lining group: address and length. Tails
and addresses that hold no data are left out. The first argument bounds the runs. -/
def runsOf (l : List Extent) : Nat → Nat → Nat → List (Nat × Nat)
  | 0, _, _ => []
  | k + 1, a, n =>
    if n = 0 then []
    else if a < lpEnd then
      match extOf l a, storOf l a with
      | some e, some x =>
        let m := min n (dataPer e.cls - x % 256)
        (a, m) :: runsOf l k (a + m) (n - m)
      | some e, none =>
        let m := (e.base + e.size) * mib2 - a
        runsOf l k (a + m) (n - m)
      | none, _ => []
    else if a < lnEnd then
      let m := min n (0x100000 - a % 0x100000)
      (a, m) :: runsOf l k (a + m) (n - m)
    else []

/-- The runs of a range. -/
def State.runs (s : State) (a n : Nat) : List (Nat × Nat) := runsOf s.mem.exts n a n

/-- A granule looked up in the lining cache, where the address lies in LPDDR5X. -/
def State.touchAt (s : State) (a : Nat) (wr noalloc : Bool) : State :=
  match if a < lpEnd then storOf s.mem.exts a else none with
  | some k => s.cacheTouch (k / 256) wr noalloc
  | none => s

/-- A read of one run: checked, and looked up in the cache (spec/08_memory_system.md R264, R266, R272). -/
def State.loadRun (s : State) (a n : Nat) (noalloc : Bool) (e : Ecc) (r : Reader) : State × Bool :=
  let c := s.checkAt a n e r
  (c.1.touchAt a false noalloc, c.2)

/-- Does a write cover every data byte of its granule? -/
def State.wholeGranule (s : State) (a n : Nat) : Bool :=
  match storOf s.mem.exts a with
  | some k => k % 256 = 0 && decide (dataPer (s.granCls (k / 256)) ≤ n)
  | none => false

/-- The lining words that a write covers only in part are read; those that it covers are written anew. -/
def State.checkEdges (s : State) (a n : Nat) (e : Ecc) (r : Reader) : State × Bool :=
  let hd := if a % 8 = 0 && decide (8 ≤ n) then (s, true) else s.checkLn a e r 1
  if !hd.2 then hd
  else if (a + n) % 8 = 0 || a / 8 = (a + n) / 8 then hd
  else hd.1.checkLn ((a + n) / 8 * 8) .ok r 1

/-- A write of one run: a whole granule is written and its poison flag cleared; a part is read, checked and written, or
refused (spec/08_memory_system.md R264, R266, R272). -/
def State.storeRun (s : State) (a : Nat) (b : List Byte) (noalloc : Bool) (e : Ecc) (r : Reader) : State × Bool :=
  let n := b.length
  if a < lpEnd then
    if s.wholeGranule a n then
      let g := ((storOf s.mem.exts a).map (· / 256)).getD 0
      let s := { s with mem := { s.mem with poison := s.mem.poison.erase g, errs := kvErase s.mem.errs g } }
      ((s.touchAt a true noalloc).wrN a b, true)
    else
      let c := s.checkAt a n e r
      let s := c.1.touchAt a true noalloc
      if c.2 then (s.wrN a b, true) else (s, false)
  else
    let c := s.checkEdges a n e r
    if c.2 then
      let ks := (List.range (wordsIn a n)).map fun k => lnErrKey (a + 8 * k)
      let s := { c.1 with mem := { c.1.mem with errs := c.1.mem.errs.filter fun x => !ks.contains x.1 } }
      (s.wrN a b, true)
    else c

/-- Runs read in order, as far as the first that cannot be used: its code, none when all are good. -/
def State.loadRuns (s : State) (noalloc : Bool) (r : Reader) : List (Nat × Nat) → Ecc → State × Option (Nat × Nat)
  | [], _ => (s, none)
  | (a, n) :: l, e =>
    let c := s.loadRun a n noalloc e r
    if c.2 then c.1.loadRuns noalloc r l .ok else (c.1, some (a, s.ueCodeAt a r))

/-- A read of any range by an agent inside the module: every granule checked and looked up; the first address that cannot
be used and the code of its fault, none when all are good (spec/08_memory_system.md R263, R264, R266, R272). -/
def State.load (s : State) (a n : Nat) (noalloc : Bool) (e : Ecc) : State × Option (Nat × Nat) :=
  s.loadRuns noalloc .fabric (s.runs a n) e

/-- Runs written in order; a run that is refused is not written, and the first refusal is told. -/
def State.storeRuns (s : State) (base : Nat) (b : List Byte) (noalloc : Bool) (r : Reader) :
    List (Nat × Nat) → State × Option (Nat × Nat)
  | [] => (s, none)
  | (a, n) :: l =>
    let c := s.storeRun a ((b.drop (a - base)).take n) noalloc .ok r
    let t := c.1.storeRuns base b noalloc r l
    (t.1, if c.2 then t.2 else some (a, s.ueCodeAt a r))

/-- A write of any range by an agent inside the module: whole granules lose their poison flag, parts of granules are read
and checked, and a part of a poisoned one is refused (spec/08_memory_system.md R263, R264, R266, R272). -/
def State.store (s : State) (a : Nat) (b : List Byte) (noalloc : Bool) : State × Option (Nat × Nat) :=
  s.storeRuns a b noalloc .fabric (s.runs a b.length)

/-- The state after a write of a range of which a refused part is left as it was. -/
def State.put (s : State) (a : Nat) (b : List Byte) : State := (s.store a b false).1

end Sys2Proof.Machine
end

