-- ==== Sys2Proof/Machine/RegAccess.lean ====
section
/-! DEFINITION. Register access: reads, writes, the upper-word latch, counters read, bits cleared by writing 1
(spec/00_scope.md R8 to R14, spec/02_numerics.md R72, spec/15_faults_and_safe_state.md R470). -/

namespace Sys2Proof.Machine

/-! ### Values that a register shows of other state -/

/-- Free entries of the repair-record region (spec/14_reset_bringup_selftest.md R459). -/
def State.repairFree (s : State) : Nat := 4092 - s.th.repairs.length

/-- The oldest retained log number (spec/12_thimble_management_security.md R404). -/
def Thimble.oldest (t : Thimble) : Nat :=
  match t.log with
  | (n, _) :: _ => n
  | [] => t.nextLseq

/-- Queues in spill mode. -/
def State.spilledQueues (s : State) : Nat :=
  (s.tiles.map fun e => (e.2.queues.filter fun q => q.2.spill).length).sum

/-- Does a panel hold a tripped wait (spec/06_progress_deadlock_drain.md R194)? -/
def State.panelTrips (s : State) (p : Nat) : Bool := s.tiles.any fun e => panelOf e.1 = p && !e.2.tripped.isEmpty

/-- The panels that hold a tripped wait, as a mask (spec/06_progress_deadlock_drain.md Table 6.8). -/
def State.stalledPanels (s : State) : Nat := ((List.range 36).map fun p => b2n (s.panelTrips p) * 2 ^ p).sum

/-- `DEBUG` of `TH_STATUS`: 2 open, 1 unlocked, 0 no access (spec/12_thimble_management_security.md R399). -/
def Thimble.debug (t : Thimble) : Nat :=
  if t.debugLock = 2 then 2 else if t.debugLock = 1 && t.unlocked then 1 else 0

/-- Is debug access permitted (spec/12_thimble_management_security.md R399, spec/14_reset_bringup_selftest.md Table 14.6)?
In manufacturing test every debug access is. -/
def State.debugOk (s : State) : Bool :=
  decide (s.th.debug ≠ 0) || (s.get R.RST_STRAPS_BOOT_SRC = 2 && s.th.debugLock = 2)

/-- Is a basted token or a basting-record entry outstanding anywhere in the fabric
(spec/04_fabric_tokens_and_steering.md Table 4.16)? -/
def State.bastedOpen (s : State) : Bool :=
  (s.tiles.any fun e => !e.2.shut0.isEmpty || !e.2.shut1.isEmpty || !e.2.entries.isEmpty || !e.2.fwd.isEmpty
    || (e.2.queues.any fun q => q.2.toks.any fun k => hBasted k.hdr)
    || (e.2.staging.any fun k => hBasted k.2.hdr) || e.2.resend.any fun r => hBasted r.2.2.hdr)
    || (s.net.any fun n => hBasted n.tok.hdr) || !s.fab.came.isEmpty || (s.mem.heldReqs.any fun h => h.tag.isSome)
    || !s.press.heldClose.isEmpty || !s.seam.gatherHeld.isEmpty
    || s.seam.outs.any fun o => o.packed.any fun k => hBasted k.hdr

/-- Live tags (spec/11_host_interface_and_command_tape.md R364). -/
def Tape.live (t : Tape) : Nat := (t.cmds.filter fun c => !c.gone).length

/-- Command places held: by live tags, and by refused replies that wait (spec/11_host_interface_and_command_tape.md R364,
R372). -/
def Tape.places (t : Tape) : Nat := t.live + (t.replies.filter fun r => r.kind ≠ 5 && !r.live).length

/-- `STATE` of `TP_STATUS`; the register keeps whether the unit has stopped (spec/11_host_interface_and_command_tape.md
Table 11.15). -/
def State.tapeState (s : State) : Nat :=
  if s.safe then 4
  else if !s.flag R.TP_CFG_EN then 0
  else if s.get R.TP_STATUS_STATE = 2 then 2
  else if 256 ≤ s.tape.places then 3
  else 1

/-- `MODE` of `TP_LINK`: 0 link down, 1 CXL, 2 PCIe fallback. -/
def State.linkMode (s : State) : Nat := if s.cxl.linkUp then s.cxl.mode else 0

/-- A field of `TP_LINK`; CXL.mem and CXL.cache run in CXL mode (spec/11_host_interface_and_command_tape.md R350,
Table 11.15). -/
def State.linkField (s : State) (f : Fld) : Nat :=
  if s.linkMode = 0 then 0
  else if f = R.TP_LINK_SPEED then s.cxl.speed
  else if f = R.TP_LINK_WIDTH then s.cxl.width
  else if f = R.TP_LINK_MODE then s.linkMode
  else b2n (decide (s.linkMode = 1))

/-- The value of a field of BAR0 that other state determines. -/
def State.derived (s : State) (f : Fld) : Option Nat :=
  if f = R.GC_ID_VENDOR then some Config.vendorId.toNat
  else if f = R.FAB_STATUS_BASTED_OPEN then some (b2n s.bastedOpen)
  else if f = R.TP_LIVE_LIVE then some s.tape.live
  else if f = R.TP_STATUS_STATE then some s.tapeState
  else if f.off = 0x1050 then some (s.linkField f)
  else if f = R.TP_LIVE_HELD then some s.tape.replies.length
  else if f = R.UNP_STATUS_PAGES_FREE then some (s.pageCount - s.unpick.pages.length)
  else if f = R.UNP_STATUS_SPILLED_Q then some s.spilledQueues
  else if f = R.UNP_STALLED_PANEL then some s.stalledPanels
  else if f = R.REPAIR_STATUS_PENDING then some (s.th.repairs.filter fun r => r.state = 0).length
  else if f = R.REPAIR_STATUS_FREE then some s.repairFree
  else if f = R.TH_SERIAL_SERIAL then some Config.serial.toNat
  else if f = R.TH_STATUS_DEBUG then some s.th.debug
  else if f = R.TH_STATUS_IMG_INVALID then some (b2n s.th.imgInvalid)
  else if f = R.TH_ROLLBACK_COUNTER then some s.th.rollback
  else if f = R.TH_LOG_NEXT_LSEQ then some s.th.nextLseq
  else if f = R.TH_LOG_OLDEST then some s.th.oldest
  else
    let n := (f.off - 0x10000) / 0x400
    let o := (f.off - 0x10000) % 0x400
    if inRange 0x10000 0x15FFF f.off then
      if inRange 0x200 0x3FF o then
        match s.mem.exts[(o - 0x200) / 8]? with
        | none => if f.lo = 54 then some 3 else some 0
        | some e => if f.lo = 54 then some e.cls else if f.lo = 35 then some e.size else some e.base
      else if inRange 0x40 0x5F o then
        let j := (o - 0x40) / 8
        some (((List.range 4).map fun i => kvGet 0 s.mem.next (n * 16 + 4 * j + i) * 2 ^ (16 * i)).sum)
      else none
    else none

/-- Is a tile predicate-capable (spec/04_fabric_tokens_and_steering.md)? -/
def predCap (t : Nat) : Bool :=
  (tileX t % 8 = 1 || tileX t % 8 = 6) && (tileY t % 8 = 1 || tileY t % 8 = 6)

/-- Operations outstanding: issued and not completed, bobbin programs started, and results held until they are sewn
(spec/03_compute_tile.md R78, R98). -/
def Tile.outstanding (x : Tile) : Nat :=
  x.outst.length + b2n x.bob0.run + b2n x.bob1.run
    + ((x.entries.map fun e => (e.held.filter fun h => match h with | .write _ _ => true | _ => false).length).sum)

/-- The value of a field of a tile that other state determines. -/
def Tile.derived (x : Tile) (t : Nat) (f : Fld) : Option Nat :=
  if f = T.TILE_ID_TILE then some t
  else if f = T.TILE_ID_PANEL then some (panelOf t)
  else if f = T.TILE_ID_PRED_CAP then some (b2n (predCap t))
  else if f = T.TILE_STATUS_OUTST then some x.outstanding
  else if f = T.BOB_STAT_OUTST 0 then some x.bob0.reqs.length
  else if f = T.BOB_STAT_OUTST 1 then some x.bob1.reqs.length
  else if f = T.SHUT_STAT_TAG 0 && !x.shut0.isEmpty then x.shut0.head?.map BasteBuf.tag
  else if f = T.SHUT_STAT_TAG 1 && !x.shut1.isEmpty then x.shut1.head?.map BasteBuf.tag
  else if f = T.SHUT_STAT_OPEN 0 then some x.shut0.length
  else if f = T.SHUT_STAT_OPEN 1 then some x.shut1.length
  else if inRange 0x100800 0x100BFF f.off then some (kvGet 0 x.bobWords ((f.off - 0x100800) / 8)).toNat
  else none

/-- The key of a latch or register: BAR0 offsets, tile offsets from `tileSpace` up. -/
def regOff (tile : Option Nat) (off : Nat) : Nat := if tile.isSome then tileSpace + off else off

/-- One field as a read shows it. -/
def State.showField (s : State) (tile : Option Nat) (f : Fld) : Nat :=
  match tile with
  | none => (s.derived f).getD (s.get f)
  | some t => ((s.tile t).derived t f).getD ((s.tile t).get f)

/-- The register at an offset as a read shows it: the sum of its fields, `WO` fields reading zero
(spec/00_scope.md R7, R13). -/
def State.showReg (s : State) (tile : Option Nat) (o : Nat) (d : RDesc) : Nat :=
  (d.flds.map fun f =>
    if f.ty = .wo then 0
    else s.showField tile ⟨o, f.hi, f.lo⟩ % 2 ^ (f.hi + 1 - f.lo) * 2 ^ f.lo).sum

/-- Does an offset's block answer in ROM recovery: identity and global control, and the Thimble window
(spec/12_thimble_management_security.md R389)? -/
def State.serves (s : State) (tile : Option Nat) (off : Nat) : Bool :=
  decide (s.gcState ≠ 3) || (tile.isNone && (decide (off < 0x1000) || inRange 0x60000 0x7FFFF off))

/-- Are writes to an offset taken: not in the safe state outside the Thimble window
(spec/15_faults_and_safe_state.md R470)? -/
def State.takesWrite (s : State) (tile : Option Nat) (off : Nat) : Bool :=
  s.serves tile off && (!s.safe || (tile.isNone && inRange 0x60000 0x7FFFF off))

/-! ### The MSI-X table -/

/-- A write to the MSI-X table: address, data, and the mask bit of a vector; unmasking a pending vector sends it
(spec/11_host_interface_and_command_tape.md R351, R379; log entry 6). -/
def State.msixWrite (s : State) (o : Nat) (v : Nat) : State :=
  let k := o / 16
  if o % 16 = 12 then
    let m := bit v 0
    let s := { s with tape := { s.tape with msixMask := s.tape.msixMask.set k m } }
    if !m && s.tape.msixPend.getD k false then
      ({ s with tape := { s.tape with msixPend := s.tape.msixPend.set k false } }).vector k
    else s
  else if o % 16 = 8 then { s with tape := { s.tape with msixData := kvSet s.tape.msixData k (v % 2 ^ 32) } }
  else { s with tape := { s.tape with msixAddr := kvSet s.tape.msixAddr (2 * k + o % 16 / 4) (v % 2 ^ 32) } }

/-- A word of the MSI-X table, or of the pending-bit array at 0x0_3000 (spec/11_host_interface_and_command_tape.md R379;
log entry 6). -/
def Tape.msixWord (t : Tape) (off : Nat) : Nat :=
  let k := (off - 0x2000) / 16
  if off = 0x3000 then ((List.range 8).map fun v => b2n (t.msixPend.getD v false) * 2 ^ v).sum
  else if !inRange 0x2000 0x207F off then 0
  else if off % 16 = 12 then b2n (t.msixMask.getD k true)
  else if off % 16 = 8 then kvGet 0 t.msixData k
  else kvGet 0 t.msixAddr (2 * k + off % 16 / 4)

/-! ### Writes -/

/-- The staging of a write: every `ST` field that the write covers is tacked
(spec/05_patterns_and_reconfiguration.md R186). -/
def tackReg (st : Stage) (o : Nat) (d : RDesc) (wlo wn v : Nat) : Stage :=
  d.flds.foldl (fun st f =>
    if f.ty = .st then
      let p := writePart f.hi f.lo wlo wn v
      tack st (Fld.key ⟨o, f.hi, f.lo⟩) p.1 p.2
    else st) st

/-- The register that holds an offset: the one at it, or the 64-bit one whose upper word it is. -/
def regCover (o : Nat) : Option (Nat × RDesc) :=
  match regAt o with
  | some d => some (o, d)
  | none =>
    match (if o < 4 then none else regAt (o - 4)) with
    | some d => if d.width = 64 ∧ (o - 4) % 8 = 0 then some (o - 4, d) else none
    | none => none

/-- The unit of a block in a record of a refused commit or discarded tack (spec/15_faults_and_safe_state.md
Table 15.3). -/
def blockUnit (off : Nat) : Nat :=
  if off < 0x1000 then 0xC65
  else if off < 0x4000 then 0xC34
  else if off < 0x4100 then 0xC67
  else if off < 0x8000 then 0xC32
  else if off < 0x10000 then 0xC31
  else if off < 0x20000 then 0xC00 + (off - 0x10000) / 0x400
  else if off < 0x30000 then 0xC20 + (off - 0x20000) / 0x1000
  else if off < 0x40000 then 0xC66
  else if off < 0x60000 then 0xC65
  else if off < 0x80000 then 0xC33
  else if inRange 0x80200 0x803FF off then 0xC64
  else 0xC40 + (off - 0x80000) / 0x400

/-- Is the stage of the block that holds an offset frozen: a commit of a panel is held
(spec/05_patterns_and_reconfiguration.md R188, spec/13_panels_clocks_power.md R421)? -/
def State.frozen (s : State) (off : Nat) : Bool :=
  inRange 0x80000 0x88FFF off && !inRange 0x80200 0x803FF off
    && s.pow.commits.contains ((off - 0x80000) / 0x400)

/-- Does the stage of a tile belong to the loader or wait for a held commit
(spec/05_patterns_and_reconfiguration.md R188, R189)? -/
def Tile.frozen (x : Tile) : Bool := x.commitHeld || x.pend.isSome

/-- A write to a register that covers bits `[wlo + wn - 1 : wlo]` of it. -/
def State.writeReg (s : State) (tile : Option Nat) (o : Nat) (d : RDesc) (wlo wn v : Nat) : State :=
  match tile with
  | none =>
    if d.flds.all fun f => f.ty ≠ .st then s
    else if s.frozen o then s.raise Code.PAT_TACK_BUSY (blockUnit o) 0 (o % 2 ^ 16)
    else { s with barStage := tackReg s.barStage o d wlo wn v }
  | some t =>
    if d.flds.all fun f => f.ty ≠ .st then s
    else if o = tileSpace + 0x740 ∧ predCap t = false then s
    else if (s.tile t).frozen then s.raise Code.PAT_TACK_BUSY t 0 ((o - tileSpace) % 2 ^ 16)
    else s.onTile t fun x => { x with stage := tackReg x.stage o d wlo wn v }

/-- `REG_WRITE`: a host write sets `RW` fields, tacks `ST` fields or is ignored (spec/00_scope.md R7, R10, R12, R13,
spec/05_patterns_and_reconfiguration.md R186). The space of a tile is reached by debug access only
(spec/03_compute_tile.md). A write that has a row of its own acts by that row. -/
def execRegWrite (tile : Option Nat) (off : Nat) (wide : Bool) (v : W64) (s : State) : Res :=
  let size := if wide then 8 else 4
  let o := regOff tile off
  let n := if wide then v.toNat else v.toNat % 2 ^ 32
  if off % size ≠ 0 then go s
  else if !s.takesWrite tile off then go s
  else if tile.isSome && !s.debugOk then go s
  else if tile.isNone && inRange 0x2000 0x207F off then
    if wide then go ((s.msixWrite (off - 0x2000) (n % 2 ^ 32)).msixWrite (off + 4 - 0x2000) (n / 2 ^ 32))
    else go (s.msixWrite (off - 0x2000) n)
  else
    match regCover o with
    | none => go s
    | some (b, d) =>
      if wide && d.width = 32 then go s
      else go (s.writeReg tile b d (8 * (o - b)) (8 * size) n)

/-- Does an access break R8 of spec/00_scope.md: its size, its alignment, or a 64-bit access that covers a 32-bit
register (R9, R10)? -/
def breaksR8 (off size : Nat) : Bool :=
  (size ≠ 4 && size ≠ 8) || off % size ≠ 0 ||
    (size = 8 &&
      ((match regAt off with | some d => d.width = 32 | none => false)
        || (match regAt (off + 4) with | some d => d.width = 32 | none => false)))

/-- `REG_ACCESS_MISALIGNED`: the access is discarded, a read returns all ones, and `FLT_REG_ACCESS` is raised
(spec/00_scope.md R9). -/
def execRegAccessMisaligned (off size : Nat) (write : Bool) (_v : W64) (s : State) : Res :=
  if breaksR8 off size then
    let s := if write then s else s.emit (.regRead off (2 ^ (8 * size) - 1))
    go (s.raise Code.FLT_REG_ACCESS 0xC65 0 off)
  else go s

/-! ### Reads -/

/-- The latch of a 64-bit register (spec/00_scope.md R11). -/
def State.latch (s : State) (tile : Option Nat) (o : Nat) : Option Nat :=
  match tile with
  | none => kvGet? s.barLatch o
  | some t => kvGet? (s.tile t).latch o

/-- The state with the latch of a register set or discarded. -/
def State.setLatch (s : State) (tile : Option Nat) (o : Nat) (v : Option Nat) : State :=
  let up (m : Kv Nat) : Kv Nat := match v with
    | some x => kvSet m o x
    | none => kvErase m o
  match tile with
  | none => { s with barLatch := up s.barLatch }
  | some t => s.onTile t fun x => { x with latch := up x.latch }

/-- Is a register a read-to-clear counter? -/
def RDesc.isRc (d : RDesc) : Bool := d.flds.any fun f => f.ty = .rc

/-- The state with a counter cleared by its read (spec/02_numerics.md R72). -/
def State.clearRc (s : State) (tile : Option Nat) (o : Nat) : State :=
  match tile with
  | none => s.set ⟨o, 63, 0⟩ 0
  | some t => s.onTile t fun x => x.set ⟨o, 63, 0⟩ 0

/-- May the register be read: tile registers by debug reads, which no lock stops (spec/03_compute_tile.md). -/
def State.readable (s : State) (tile : Option Nat) (off : Nat) : Bool := s.serves tile off

/-- A 32-bit read of a word: its value, with what the read does to the latch and to a counter
(spec/00_scope.md R11, R13, spec/02_numerics.md R72). A word that no register holds reads as zero, but for those of the
MSI-X table. -/
def State.readWord (s : State) (tile : Option Nat) (off : Nat) : Nat × State :=
  let o := regOff tile off
  match regAt o with
  | some d =>
    let v := s.showReg tile o d
    if d.width = 64 then
      let s := s.setLatch tile o (some (v / 2 ^ 32))
      (v % 2 ^ 32, if d.isRc then s.clearRc tile o else s)
    else (v, s)
  | none =>
    match regCover o with
    | some (b, d) =>
      match s.latch tile b with
      | some v => (v, s.setLatch tile b none)
      | none => (s.showReg tile b d / 2 ^ 32, s)
    | none => (if tile.isNone then s.tape.msixWord off else 0, s)

/-- A read of a 64-bit register, or of two words of which no register occupies either: both words at one instant; a
pending latch is discarded, a counter cleared (spec/00_scope.md R10, R11, R13). -/
def State.readWide (s : State) (tile : Option Nat) (off : Nat) : Nat × State :=
  let o := regOff tile off
  match regAt o with
  | some d =>
    let v := s.showReg tile o d
    let s := s.setLatch tile o none
    (v, if d.isRc then s.clearRc tile o else s)
  | none => (if tile.isNone then s.tape.msixWord off + s.tape.msixWord (off + 4) * 2 ^ 32 else 0, s)

/-- A host read of 4 or 8 bytes. It answers zero where the block does not answer and where no register lies, and all ones
where it breaks R8 (spec/00_scope.md R9 to R13, spec/01_module_overview.md R37,
spec/12_thimble_management_security.md R389). -/
def State.hostRead (s : State) (tile : Option Nat) (off : Nat) (wide : Bool) : State :=
  if !s.readable tile off then s.emit (.regRead off 0)
  else if breaksR8 (regOff tile off) (if wide then 8 else 4) then
    (s.emit (.regRead off (2 ^ (if wide then 64 else 32) - 1))).raise Code.FLT_REG_ACCESS 0xC65 0 off
  else
    let r := if wide then s.readWide tile off else s.readWord tile off
    r.2.emit (.regRead off r.1)

/-- `LOWER_WORD_LATCH_READ`, a 32-bit read: of the lower word of a 64-bit register, whose upper word is latched; of a
counter, which is cleared; of a 32-bit register; of an offset that no register occupies, which reads as zero
(spec/00_scope.md R10, R11, R13, spec/02_numerics.md R72). -/
def execLowerWordLatchRead (tile : Option Nat) (off : Nat) (s : State) : Res := go (s.hostRead tile off false)

/-- `UPPER_WORD_READ`, a 32-bit read: of an upper word, the latched value, which is then discarded, or the live word
(spec/00_scope.md R11). `off` is the offset of the upper word. -/
def execUpperWordRead (tile : Option Nat) (off : Nat) (s : State) : Res := go (s.hostRead tile off false)

/-- `COUNTER_READ`: the value is returned and the counter cleared; a 32-bit read of the lower word latches the upper
word, a 64-bit read of any 64-bit register returns both words and discards a pending latch (spec/00_scope.md R11, R13,
spec/02_numerics.md R72). -/
def execCounterRead (tile : Option Nat) (off : Nat) (wide : Bool) (s : State) : Res := go (s.hostRead tile off wide)

/-- The value of a `W1C` field after a write: bits written as 1 are cleared unless the module sets them in the same
cycle (spec/00_scope.md Table 0.1). -/
def w1c (old clr set : Nat) : Nat := Nat.lor (Nat.xor old (Nat.land old clr)) set

/-- The `W1C` fields of a register written, some bits of which the module sets in the same cycle. -/
def State.clearW1c (s : State) (tile : Option Nat) (o : Nat) (d : RDesc) (v set : Nat) : State :=
  (d.flds.filter fun f => f.ty = .w1c).foldl (fun s f =>
    let g : Fld := ⟨o, f.hi, f.lo⟩
    let x := w1c (s.showField tile g) (bits v f.lo g.width) (bits set f.lo g.width)
    match tile with
    | none => s.set g x
    | some t => s.onTile t fun y => y.set g x) s

/-- `W1C_CLEAR`: each bit of a `W1C` field written as 1 is cleared, unless the module sets that bit in the same cycle
(spec/00_scope.md R13). `set` holds the bits that the module sets in that cycle. -/
def execW1cClear (tile : Option Nat) (off : Nat) (v set : W32) (s : State) : Res :=
  let o := regOff tile off
  if !s.takesWrite tile off then go s
  else if tile.isSome && !s.debugOk then go s
  else
    match regAt o with
    | none => go s
    | some d => go (s.clearW1c tile o d v.toNat set.toNat)

end Sys2Proof.Machine
end

