-- ==== Sys2Proof/Machine/TileCommit.lean ====
section
/-! DEFINITION. Commits of a tile: the checks of the staged values, holding, applying and refusing
(spec/03_compute_tile.md R75, R76, R86, R100, R104, spec/04_fabric_tokens_and_steering.md R118, R125, R139,
spec/09_bobbin_streams.md R308, R309). -/

namespace Sys2Proof.Machine

/-- The first failure of a list of checks: fault code and the offset of the register that failed. -/
abbrev Fail := Option (Nat × Nat)

/-- A check at a tile offset: the fault when the condition holds. -/
def failIf (c : Bool) (code off : Nat) : Fail := if c then some (code, off) else none

/-- The first failure of checks made in order. -/
def firstFail (l : List Fail) : Fail := l.findSome? id

/-- The first failure over an index range, in increasing index. -/
def failOver (n : Nat) (f : Nat → Fail) : Fail := (List.range n).findSome? f

/-! ### Tensor descriptors -/

/-- Are the four dimension fields of a descriptor zero: unused (spec/03_compute_tile.md R86)? -/
def tdUnused (rf : RegFile) (d : Nat) : Bool :=
  rfGet rf (T.TD_SHAPE_MQ d) = 0 && rfGet rf (T.TD_SHAPE_NQ d) = 0 && rfGet rf (T.TD_SHAPE_KQ d) = 0
    && rfGet rf (T.TD_SHAPE_F d) = 0

/-- Has a descriptor some zero dimension? -/
def tdZero (rf : RegFile) (d : Nat) : Bool :=
  rfGet rf (T.TD_SHAPE_MQ d) = 0 || rfGet rf (T.TD_SHAPE_NQ d) = 0 || rfGet rf (T.TD_SHAPE_KQ d) = 0
    || rfGet rf (T.TD_SHAPE_F d) = 0

/-- Dimensions of a descriptor: M, N, K, F. -/
def tdM (rf : RegFile) (d : Nat) : Nat := 4 * rfGet rf (T.TD_SHAPE_MQ d)
def tdN (rf : RegFile) (d : Nat) : Nat := 8 * rfGet rf (T.TD_SHAPE_NQ d)
def tdK (rf : RegFile) (d : Nat) : Nat := 32 * rfGet rf (T.TD_SHAPE_KQ d)
def tdF (rf : RegFile) (d : Nat) : Nat := rfGet rf (T.TD_SHAPE_F d)

/-- Offsets of a descriptor's words. -/
def tdOff (d w : Nat) : Nat := 0x200 + 0x20 * d + 8 * w

/-- The limits of M, N, K and F, the reserved mode, and ring operands whose upper address bits are not zero
(spec/03_compute_tile.md R86, Table 3.6a). -/
def tdShapeFail (rf : RegFile) (d : Nat) : Fail :=
  firstFail [
    failIf (decide (512 < tdM rf d) || decide (512 < tdN rf d) || decide (8192 < tdK rf d) || decide (16 < tdF rf d)
      || rfGet rf (T.TD_SHAPE_ACC_MODE d) = 3) Code.TILE_SHAPE_ILLEGAL (tdOff d 0),
    failIf (rfGet rf (T.TD_A_A_RING d) = 1 && decide (16 ≤ rfGet rf (T.TD_A_A_ADDR d))) Code.TILE_SHAPE_ILLEGAL
      (tdOff d 1),
    failIf (rfGet rf (T.TD_B_B_RING d) = 1 && decide (16 ≤ rfGet rf (T.TD_B_B_ADDR d))) Code.TILE_SHAPE_ILLEGAL
      (tdOff d 2)]

/-- Words of an accumulator entry: 2 compensated, 1 otherwise. -/
def accWords (mode : Nat) : Nat := if mode = 0 then 2 else 1

/-- The accumulator extent and base (spec/03_compute_tile.md Table 3.6a). -/
def tdAccFail (rf : RegFile) (d : Nat) : Fail :=
  let ext := tdM rf d * tdN rf d * tdF rf d
  let mode := rfGet rf (T.TD_SHAPE_ACC_MODE d)
  let base := rfGet rf (T.TD_SHAPE_ACC_BASE d)
  failIf (decide (16384 < base + ext * accWords mode) || (mode = 0 && base % 2 = 1)) Code.TILE_ACC_RANGE (tdOff d 0)

/-- Is the fault of a descriptor word the one of a given code (spec/02_numerics.md R46)? -/
def fmtFailIs (code w off : Nat) : Fail := failIf (fmtCheck false w = some code) code off

/-- The operand class of a format: 1 the 8-bit floating set, 2 the 6-bit and 4-bit set, 3 BF16, 4 FP16, 5 MXINT8,
6 INT8, 0 any other (spec/03_compute_tile.md Table 3.4). -/
def opClass (fmt : Nat) : Nat :=
  if inRange 3 6 fmt then 1 else if inRange 7 9 fmt then 2 else if fmt = 1 then 3 else if fmt = 2 then 4
  else if fmt = 10 then 5 else if fmt = 11 then 6 else 0

/-- Rows of B in a fragment for an operand pair, none for a pair or mode that is not accepted
(spec/03_compute_tile.md Table 3.4). -/
def pairNf (fa fb mode : Nat) : Option Nat :=
  let a := opClass fa
  let b := opClass fb
  if mode = 0 || mode = 1 then
    if a = 1 ∧ b = 1 then some 4
    else if a = 2 ∧ b = 2 then some 8
    else if (a = 1 ∧ b = 2) ∨ (a = 2 ∧ b = 1) then some 4
    else if (a = 3 ∧ b = 3) ∨ (a = 4 ∧ b = 4) then some 2
    else if a = 5 ∧ b = 5 then some 4
    else none
  else if mode = 2 then (if a = 6 ∧ b = 6 then some 4 else none)
  else none

/-- The operand pair (spec/03_compute_tile.md R83). -/
def tdPairFail (rf : RegFile) (d : Nat) : Fail :=
  failIf ((pairNf (fmtOf (rfGet rf (T.TD_A_A_FMT d))).fmt (fmtOf (rfGet rf (T.TD_B_B_FMT d))).fmt
    (rfGet rf (T.TD_SHAPE_ACC_MODE d))).isNone) Code.TILE_OPERAND_PAIR (tdOff d 0)

/-- A check of the descriptors in use, in increasing index. -/
def tdOver (rf : RegFile) (f : RegFile → Nat → Fail) : Fail :=
  failOver 16 fun d => if tdUnused rf d then none else f rf d

/-- The checks of the tensor descriptors in fault order (spec/03_compute_tile.md R75). -/
def tdFails (rf : RegFile) : List Fail :=
  let fmt (code : Nat) : Fail := tdOver rf fun rf d =>
    firstFail [fmtFailIs code (rfGet rf (T.TD_A_A_FMT d)) (tdOff d 1),
      fmtFailIs code (rfGet rf (T.TD_B_B_FMT d)) (tdOff d 2)]
  [tdOver rf fun rf d => failIf (tdZero rf d) Code.TILE_SHAPE_ZERO (tdOff d 0),
    tdOver rf tdShapeFail, tdOver rf tdAccFail, fmt Code.NUM_FMT_RESERVED, fmt Code.NUM_FMT_COMBO,
    fmt Code.NUM_FMT_WRITE, tdOver rf tdPairFail]

/-! ### Rings -/

/-- Is a ring enabled? -/
def ringEn (rf : RegFile) (r : Nat) : Bool := rfGet rf (T.RING_CFG_EN r) = 1

/-- First granule and granules of a ring. -/
def ringBase (rf : RegFile) (r : Nat) : Nat := rfGet rf (T.RING_CFG_BASE r)
def ringLen (rf : RegFile) (r : Nat) : Nat := rfGet rf (T.RING_CFG_SLOTS r) * rfGet rf (T.RING_CFG_SLOT_G r)

/-- Occupancy of a ring (spec/03_compute_tile.md). -/
def ringOcc (rf : RegFile) (r : Nat) : Nat :=
  (rfGet rf (T.RING_STAT_TAIL r) + 0x10000 - rfGet rf (T.RING_STAT_HEAD r)) % 0x10000

/-- Is a bank in ring mode? Is it of class W? -/
def bankRing (rf : RegFile) (b : Nat) : Bool := bit (rfGet rf T.TILE_BANKCFG_BANKS) (2 * b + 1)
def bankW (rf : RegFile) (b : Nat) : Bool := bit (rfGet rf T.TILE_BANKCFG_BANKS) (2 * b)

/-- The banks that a run of granules touches. -/
def banksOf (g n : Nat) : List Nat := (List.range 8).filter fun b => overlaps (512 * b) 512 g n

/-- A ring's zero fields, agents and extent (spec/03_compute_tile.md R104). -/
def ringZeroFail (rf : RegFile) (r : Nat) : Fail :=
  failIf (ringEn rf r && (rfGet rf (T.RING_CFG_SLOTS r) = 0 || rfGet rf (T.RING_CFG_SLOT_G r) = 0
    || rfGet rf (T.RING_CFG_DL r) = 0)) Code.TILE_RING_ZERO (0x40 + 0x10 * r)

def ringCfgFail (rf : RegFile) (r : Nat) : Fail :=
  let b := ringBase rf r
  let n := ringLen rf r
  failIf (ringEn rf r && (rfGet rf (T.RING_CFG_PROD r) = 0 || rfGet rf (T.RING_CFG_CONS r) = 0
    || rfGet rf (T.RING_CFG_PROD r) = rfGet rf (T.RING_CFG_CONS r) || decide (4096 < b + n)
    || ((banksOf b n).any fun k => !bankRing rf k)
    || ((List.range 16).any fun q => q ≠ r && ringEn rf q && overlaps b n (ringBase rf q) (ringLen rf q))))
    Code.TILE_RING_CFG (0x40 + 0x10 * r)

/-- Does a commit change any field of a register, given by its tile offset? -/
def commitChanges (rf : RegFile) (st : Stage) (off : Nat) : Bool :=
  st.any fun e => keyOff e.1 = tileSpace + off &&
    staged rf st ⟨keyOff e.1, 63, e.1 % 64⟩ ≠ rfGet rf ⟨keyOff e.1, 63, e.1 % 64⟩

/-- A ring that holds slots may not be changed (spec/03_compute_tile.md R104). -/
def ringBusyFail (rf : RegFile) (st : Stage) (r : Nat) : Fail :=
  failIf (ringEn rf r && ringOcc rf r ≠ 0 && commitChanges rf st (0x40 + 0x10 * r)) Code.TILE_RING_BUSY (0x40 + 0x10 * r)

/-! ### Queues, channels, shuttles and the predicate unit -/

def qOff (q : Nat) : Nat := 0x500 + 8 * q
def chOff (c : Nat) : Nat := 0x600 + 8 * c
def shOff (k : Nat) : Nat := 0x700 + 0x10 * k

def qEn (rf : RegFile) (q : Nat) : Bool := rfGet rf (T.QCFG_EN q) = 1
def chEn (rf : RegFile) (c : Nat) : Bool := rfGet rf (T.OCH_EN c) = 1
def shEn (rf : RegFile) (k : Nat) : Bool := rfGet rf (T.SHUT_CFG_EN k) = 1
def prEn (rf : RegFile) : Bool := rfGet rf T.PRED_CFG_EN = 1

/-- Fields of queues, channels and shuttles that must not be zero (spec/04_fabric_tokens_and_steering.md R118,
R125). -/
def fabZeroFail (rf : RegFile) : Fail :=
  firstFail [
    failOver 32 fun q => failIf (qEn rf q && rfGet rf (T.QCFG_DL q) = 0) Code.FAB_CFG_ZERO (qOff q),
    failOver 32 fun c => failIf (chEn rf c && (rfGet rf (T.OCH_DL c) = 0 || rfGet rf (T.OCH_BURST c) = 0
      || rfGet rf (T.OCH_RATE c) = 0 || rfGet rf (T.OCH_CRED c) = 0)) Code.FAB_CFG_ZERO (chOff c),
    failOver 2 fun k => failIf (shEn rf k && rfGet rf (T.SHUT_CFG_DEPTH k) = 0
      && rfGet rf (T.SHUT_CFG_BASTE_WAIT k) ≠ 0) Code.FAB_CFG_ZERO (shOff k)]

/-- Is a virtual channel legal for a channel of a kind: 1 for control, 2 or 3 for data
(spec/04_fabric_tokens_and_steering.md R118)? -/
def vcLegal (vc ctl : Nat) : Bool := if ctl = 1 then vc = 1 else vc = 2 || vc = 3

/-- Is the consumer of a queue a unit that is enabled (spec/04_fabric_tokens_and_steering.md R118)? -/
def consLegal (t : Nat) (rf : RegFile) (q : Nat) : Bool :=
  match rfGet rf (T.QCFG_CONS q) with
  | 0 => true
  | 1 => shEn rf 0
  | 2 => shEn rf 1
  | _ => predCap t && prEn rf

/-- The queues that an enabled shuttle names (spec/04_fabric_tokens_and_steering.md Table 4.8). -/
def shQueues (rf : RegFile) (k : Nat) : List Nat :=
  [rfGet rf (T.SHUT_CFG_CTLQ k), rfGet rf (T.SHUT_CFG_DQ0 k)]
    ++ (if rfGet rf (T.SHUT_CFG_MODE k) = 2 then [rfGet rf (T.SHUT_CFG_DQ1 k)] else [])

/-- Illegal fields of queues, channels, shuttles and the predicate unit (spec/04_fabric_tokens_and_steering.md R118,
R125, R139). -/
def fabIllegalFail (t : Nat) (rf : RegFile) : Fail :=
  let bad (off : Nat) (c : Bool) : Fail := failIf c Code.FAB_CFG_ILLEGAL off
  firstFail [
    failOver 32 fun q => bad (qOff q) (qEn rf q &&
      (!vcLegal (rfGet rf (T.QCFG_VC q)) (rfGet rf (T.QCFG_CTL q)) || !consLegal t rf q)),
    failOver 32 fun c => bad (chOff c) (chEn rf c &&
      (decide (16 < rfGet rf (T.OCH_BURST c)) || decide (16 < rfGet rf (T.OCH_CRED c))
        || !vcLegal (rfGet rf (T.OCH_VC c)) (rfGet rf (T.OCH_CTL c)) || destReserved (rfGet rf (T.OCH_DEST c))
        || (rfGet rf (T.OCH_ATT c) = 1 && !inRange 0xC00 0xC17 (rfGet rf (T.OCH_DEST c))))),
    failOver 2 fun k => bad (shOff k) (shEn rf k &&
      (rfGet rf (T.SHUT_CFG_MODE k) = 0 || rfGet rf (T.SHUT_CFG_PRED_MODE k) = 3
        || decide (8 < rfGet rf (T.SHUT_CFG_DEPTH k))
        || ((shQueues rf k).any fun q => rfGet rf (T.QCFG_CONS q) ≠ 1 + k)
        || rfGet rf (T.QCFG_CTL (rfGet rf (T.SHUT_CFG_CTLQ k))) = 0)),
    bad 0x740 (predCap t && prEn rf &&
      (decide (5 ≤ rfGet rf T.PRED_CFG_OP) || rfGet rf T.PRED_CFG_TYPE = 3
        || rfGet rf (T.QCFG_CONS (rfGet rf T.PRED_CFG_INQ)) ≠ 3))]

/-! ### Bobbins -/

def bobOff (b : Nat) : Nat := 0x780 + 0x20 * b

def bobEn (rf : RegFile) (b : Nat) : Bool := rfGet rf (T.BOB_CFG_EN b) = 1

/-- Does a bobbin use a ring, and which (spec/09_bobbin_streams.md Table 9.8)? -/
def bobRing (rf : RegFile) (b : Nat) : Option Nat :=
  if rfGet rf (T.BOB_CFG_RUSE b) = 1 then some (rfGet rf (T.BOB_CFG_RING b)) else none

/-- Is a bobbin the producer, or the consumer, of its ring? -/
def bobProd (rf : RegFile) (b : Nat) : Bool :=
  match bobRing rf b with
  | some r => rfGet rf (T.RING_CFG_PROD r) = 1 + b
  | none => false
def bobCons (rf : RegFile) (b : Nat) : Bool :=
  match bobRing rf b with
  | some r => rfGet rf (T.RING_CFG_CONS r) = 1 + b
  | none => false

/-- The checks of the bobbin fields (spec/09_bobbin_streams.md R309). -/
def bobFails (rf : RegFile) : List Fail :=
  let bad (b : Nat) (c : Bool) : Fail := failIf c Code.BOB_CFG_ILLEGAL (bobOff b)
  [failOver 2 fun b => failIf (bobEn rf b && (rfGet rf (T.BOB_CFG_REQ_DL b) = 0
      || (rfGet rf (T.BOB_CFG_DRAIN b) = 0 && bobProd rf b))) Code.BOB_CFG_ZERO (bobOff b),
    failOver 2 fun b => firstFail [
      bad b (bobEn rf b && decide (rfGet rf (T.BOB_CFG_VC b) < 2)),
      bad b (bobEn rf b && (match bobRing rf b with
        | some r => !ringEn rf r || (!bobProd rf b && !bobCons rf b)
        | none => false)),
      bad b ((List.range 16).any fun r => ringEn rf r
        && (rfGet rf (T.RING_CFG_PROD r) = 1 + b || rfGet rf (T.RING_CFG_CONS r) = 1 + b)
        && !(bobEn rf b && bobRing rf b = some r)),
      bad b (bobEn rf b && qEn rf (30 + b))]]

/-! ### The commit -/

/-- The first fault of the values that a commit would put in force (spec/03_compute_tile.md R75): `rf` in force before,
`st` staged, `rf'` the values together. -/
def tileCheck (t : Nat) (rf : RegFile) (st : Stage) (rf' : RegFile) : Fail :=
  firstFail (tdFails rf' ++
    [failOver 16 (ringZeroFail rf'), failOver 16 (ringCfgFail rf'), failOver 16 (ringBusyFail rf st),
      fabZeroFail rf', fabIllegalFail t rf'] ++ bobFails rf')

/-- The tensor descriptor and the rings that an operation uses. -/
def vsrcRing : VSrc → List Nat
  | .ring r _ => [r]
  | _ => []
def vdstRing : VDst → List Nat
  | .ring r _ => [r]
  | _ => []

def opDesc : TileOp → List Nat
  | .tmma d _ _ => [d]
  | _ => []

def opRings (rf : RegFile) : TileOp → List Nat
  | .tmma d _ _ => (if rfGet rf (T.TD_A_A_RING d) = 1 then [rfGet rf (T.TD_A_A_ADDR d) % 16] else [])
      ++ (if rfGet rf (T.TD_B_B_RING d) = 1 then [rfGet rf (T.TD_B_B_ADDR d) % 16] else [])
  | .vop _ a b c d _ => vsrcRing a ++ vsrcRing b ++ vsrcRing c ++ vdstRing d
  | .vcvt a d _ _ => vsrcRing a ++ vdstRing d
  | .vred _ a _ _ => vsrcRing a
  | .accrd _ _ _ d => vdstRing d
  | .accinit _ _ _ => []
  | .accadd _ a _ _ => vsrcRing a
  | .rpub r _ => [r]
  | .rrel r _ => [r]

/-- The operations issued and not completed. -/
def Tile.issued (x : Tile) : List TileOp :=
  x.outst.map OutOp.op ++ (match x.stall with | some q => q.op.toList | none => [])

/-- The rings into which a basted result that is held will be written; such a write is outstanding
(spec/03_compute_tile.md R98). -/
def Tile.heldRings (x : Tile) : List Nat :=
  (List.range 16).filter fun r => ringEn x.regs r && x.entries.any fun e => e.held.any fun h =>
    match h with
    | .write a b => overlaps (64 * ringBase x.regs r) (64 * ringLen x.regs r) a b.length
    | _ => false

/-- Must a commit be held: it changes a descriptor or ring that an issued operation uses or that a held result will be
written into, or a field, the ring or the entry of a bobbin that runs (spec/03_compute_tile.md R76, R98,
spec/09_bobbin_streams.md Table 9.7)? -/
def Tile.mustHold (x : Tile) : Bool :=
  let ch := commitChanges x.regs x.stage
  let ds := x.issued.flatMap opDesc
  let rs := x.issued.flatMap (opRings x.regs) ++ x.heldRings
  let bobHeld (b : Nat) : Bool := (x.bob b).run &&
    (ch (bobOff b) || ch (bobOff b + 8) || ch (bobOff b + 16)
      || (match bobRing x.regs b with | some r => ch (0x40 + 0x10 * r) | none => false)
      || (let e := x.get (T.BOB_STAT_PROG b)
          bits (staged x.regs x.stage T.BOB_ENTRY_ENTRIES) (8 * e) 8 ≠ bits (x.get T.BOB_ENTRY_ENTRIES) (8 * e) 8))
  (ds.any fun d => ch (tdOff d 0) || ch (tdOff d 1) || ch (tdOff d 2)) || (rs.any fun r => ch (0x40 + 0x10 * r))
    || bobHeld 0 || bobHeld 1

/-- The banks whose class a commit changes. -/
def bankClassChanges (rf rf' : RegFile) : List Nat := (List.range 8).filter fun b => bankW rf b ≠ bankW rf' b

/-- A tile whose banks of a list have been filled with zero data (spec/03_compute_tile.md R100). -/
def Tile.fillBanks (x : Tile) (bs : List Nat) : Tile :=
  { x with
    spad := bs.foldl (fun m b => memZero m (b * 0x8000) ((b + 1) * 0x8000)) x.spad
    filling := (x.filling ++ bs).dedup }

/-- The output channels after a commit: one whose register changed starts with tag 0, a full bucket and its credits
(spec/04_fabric_tokens_and_steering.md R119, R120). -/
def Tile.freshOchs (x : Tile) (rf' : RegFile) : Kv Och :=
  (List.range 32).foldl (fun m c =>
    if commitChanges x.regs x.stage (chOff c) then
      kvSet m c { credits := rfGet rf' (T.OCH_CRED c), bucket := rfGet rf' (T.OCH_BURST c) }
    else m) x.ochs

/-- A commit applied: the staged values in force, changed rings emptied, changed channels started afresh, banks of a
changed class filled with zeros (spec/03_compute_tile.md R75, R76, R100, R104). -/
def Tile.applyCommit (x : Tile) : Tile :=
  let rf' := applyStage x.regs x.stage fun _ => true
  let rf'' := (List.range 16).foldl (fun rf r =>
    if commitChanges x.regs x.stage (0x40 + 0x10 * r) then
      rfSet (rfSet rf (T.RING_STAT_HEAD r) 0) (T.RING_STAT_TAIL r) 0
    else rf) rf'
  { x.fillBanks (bankClassChanges x.regs rf') with
    regs := rf'', ochs := x.freshOchs rf', stage := [], commitHeld := false }

/-- A commit of a tile refused: the stage discarded, the fault recorded (spec/05_patterns_and_reconfiguration.md
R187). -/
def State.refuseTileCommit (s : State) (t code off : Nat) : State :=
  (s.onTile t fun x => { x with stage := [], commitHeld := false }).raiseAs .contained false code t 0 off

/-- A tile's stage checked: applied, or refused (spec/03_compute_tile.md R75). -/
def State.checkTileCommit (s : State) (t : Nat) (k : Tile → Tile) : State :=
  let x := s.tile t
  match tileCheck t x.regs x.stage (applyStage x.regs x.stage fun _ => true) with
  | some f => s.refuseTileCommit t f.1 f.2
  | none => s.setTile t (k x)

/-- A write of 1 to a tile's commit bit: the stage is checked and applied, or held while operations use it
(spec/03_compute_tile.md R75, R76, spec/05_patterns_and_reconfiguration.md R186 to R188). -/
def State.commitTile (s : State) (t : Nat) : State :=
  let x := s.tile t
  if x.frozen then s.raise Code.PAT_TACK_BUSY t 0 0x18
  else if x.stage.isEmpty then s
  else s.checkTileCommit t fun x => if x.mustHold then { x with commitHeld := true } else x.applyCommit

/-- `TILE_COMMIT`: a write to the tile's commit register by a debug opcode (spec/03_compute_tile.md R75, R76). -/
def execTileCommit (t : Nat) (v : W32) (s : State) : Res :=
  if !decide (t < nTiles) || !bit v.toNat 0 || !s.takesWrite (some t) 0x18 || !s.debugOk then go s
  else go (s.commitTile t)

/-- `TILE_COMMIT_APPLY`: a held commit applies when what held it has completed; it is checked again, so that a ring that has
been filled meanwhile refuses it (spec/03_compute_tile.md R76, R104; log entry 113). -/
def execTileCommitApply (t : Nat) (s : State) : Res :=
  let x := s.tile t
  if x.commitHeld && !x.mustHold then go (s.checkTileCommit t Tile.applyCommit) else go s

/-- `TILE_COMMIT_WAIT`: a commit held for 65,536 panel cycles is refused (spec/03_compute_tile.md R76). -/
def execTileCommitWait (t : Nat) (s : State) : Res :=
  if (s.tile t).commitHeld then go (s.refuseTileCommit t Code.TILE_COMMIT_WAIT 0x18) else go s

/-- `BANK_FILL_DONE`: the zero fill of a bank ends (spec/03_compute_tile.md R100). -/
def execBankFillDone (t bank : Nat) (s : State) : Res :=
  if (s.tile t).filling.contains bank then
    go (s.onTile t fun x => { x with filling := x.filling.filter (· ≠ bank) })
  else go s

end Sys2Proof.Machine
end

