-- ==== Sys2Proof/Machine/Fabric.lean ====
section
/-! DEFINITION. Operations of the fabric that every agent of a tile shares: queues and their heads, credits, sending on
an output channel, verdicts, the basting record, stopping a tile (spec/04_fabric_tokens_and_steering.md R111 to R138,
spec/05_patterns_and_reconfiguration.md R171 to R173). -/

namespace Sys2Proof.Machine

/-- Does the fabric issue: not in the safe state, and no flush has ended the run and waits for `RESUME`
(spec/06_progress_deadlock_drain.md R207 to R212)? -/
def State.issues (s : State) : Bool := !s.safe && !s.unpick.flushed

/-- A tile's current generation. -/
def Tile.gen (x : Tile) : Nat := x.get T.TILE_STATUS_GEN

/-- A channel queue of a tile, and the tile with one put back. -/
def Tile.queue (x : Tile) (q : Nat) : Queue := kvGet {} x.queues q
def Tile.setQueue (x : Tile) (q : Nat) (v : Queue) : Tile := { x with queues := kvSet x.queues q v }

/-- An output channel of a tile, and the tile with one put back. -/
def Tile.och (x : Tile) (c : Nat) : Och := kvGet {} x.ochs c
def Tile.setOch (x : Tile) (c : Nat) (v : Och) : Tile := { x with ochs := kvSet x.ochs c v }

/-- The head that a queue presents: the oldest token of the current generation
(spec/05_patterns_and_reconfiguration.md R171). -/
def Tile.head (x : Tile) (q : Nat) : Option Token := (x.queue q).toks.find? fun k => hGen k.hdr = x.gen

/-- The first element of a list that satisfies a condition, taken out. -/
def dropFirst {α : Type} (p : α → Bool) : List α → List α
  | [] => []
  | a :: t => if p a then t else a :: dropFirst p t

/-- The tile with the head of a queue taken out. -/
def Tile.dropHead (x : Tile) (q : Nat) : Tile :=
  let v := x.queue q
  x.setQueue q { v with toks := dropFirst (fun k => hGen k.hdr = x.gen) v.toks, moved := true }

/-- Slots of a queue that tokens consumed and still kept by the basting record hold
(spec/04_fabric_tokens_and_steering.md R133, R135; log entry 10). -/
def Tile.keptSlots (x : Tile) (q : Nat) : Nat :=
  ((x.entries.map fun e => b2n (decide (e.q = q)) + (e.taken.filter fun p => p.1 = q).length)).sum

/-- Free slots of a queue (spec/04_fabric_tokens_and_steering.md; slots reserved for refill,
spec/06_progress_deadlock_drain.md R203). -/
def Tile.freeSlots (x : Tile) (q : Nat) : Nat :=
  16 - ((x.queue q).toks.length + x.keptSlots q + (x.queue q).rsv)

/-- The consumer of a queue by its code in `QCFG` (spec/04_fabric_tokens_and_steering.md Table 4.5). -/
def consAgent (c : Nat) : TAgent := if c = 1 then .shut 0 else if c = 2 then .shut 1 else if c = 3 then .pred else .prog

/-- The waits of an agent no longer tripped: they have ended (spec/06_progress_deadlock_drain.md R194). -/
def Tile.untrip (x : Tile) (a : TAgent) : Tile := { x with tripped := x.tripped.filter fun w => w.1 ≠ a }

/-- A wait no longer tripped, whoever waits: what it waited for has come. -/
def Tile.untripOn (x : Tile) (w : WaitOn) : Tile := { x with tripped := x.tripped.filter fun v => v.2 ≠ w }

/-! ### Credits -/

/-- The output channel of a tile that feeds a tile queue in a generation
(spec/05_patterns_and_reconfiguration.md R160). -/
def Tile.feeds (x : Tile) (t q gen : Nat) : Option Nat :=
  let rf := if x.gen = gen then x.regs
    else match x.pend with
      | some p => if p.gen = gen then p.regs else []
      | none => []
  (List.range 32).find? fun c => chEn rf c && rfGet rf (T.OCH_DEST c) = t && rfGet rf (T.OCH_DQ c) = q

/-- The channel number by which the credit lane names a completion channel of a seam engine: above the stream slots,
by the queue that it feeds. -/
def doneChan (dest dq : Nat) : Nat := 256 + dest * 32 + dq

/-- The burst of a completion channel, 1 to 16: no source gives it (log entry 120). -/
def doneBurst : Nat := 1 + Config.doneShape % 16

/-- The channel that feeds a tile queue in a generation: agent and channel (spec/05_patterns_and_reconfiguration.md
R160). -/
def State.feeder (s : State) (t q gen : Nat) : Option (Nat × Nat) :=
  match s.tiles.findSome? fun e => (e.2.feeds t q gen).map fun c => (e.1, c) with
  | some p => some p
  | none =>
    match (s.tape.chans ++ s.tape.pendChans).findIdx? fun c => c.dest = t && c.dq = q && c.gen = gen with
    | some k => some (0xC34, if k < s.tape.chans.length then k else k - s.tape.chans.length)
    | none =>
      match s.seam.ins.find? fun i => i.rc.dest = t && i.rc.dq = q && i.gen = gen with
      | some i => some (0xC20 + i.rc.port, i.rc.slot)
      | none =>
        match s.seam.done.find? fun d => d.dest = t && d.dq = q && d.gen = gen with
        | some d => some (0xC20 + d.port, doneChan t q)
        | none => none

/-- Credits put on the credit lane for the feeder of a queue (spec/04_fabric_tokens_and_steering.md R119, R123). -/
def State.laneCredits (s : State) (t q gen n : Nat) : State :=
  match s.feeder t q gen with
  | some (a, c) => { s with lane := s.lane ++ List.replicate n ⟨a, c, gen⟩ }
  | none => s

/-- A credit for the channel that sent a token, when the token has left the mesh into a unit that frees its slot. -/
def State.creditTo (s : State) (src : Option (Nat × Nat)) (gen : Nat) : State :=
  match src with
  | some (a, c) => { s with lane := s.lane ++ [⟨a, c, gen⟩] }
  | none => s

/-- A slot of a queue freed: its credit returns to the feeder where it is still owed; in spill mode the slot is reserved
for refill (spec/04_fabric_tokens_and_steering.md R119, spec/06_progress_deadlock_drain.md R201, R203). -/
def State.freeSlot (s : State) (t q gen : Nat) (owes : Bool) : State :=
  let v := (s.tile t).queue q
  let s := if v.spill then s.onTile t fun x => x.setQueue q { v with rsv := v.rsv + 1 } else s
  if owes then s.laneCredits t q gen 1 else s

/-- The head of a queue consumed and its slot freed (spec/04_fabric_tokens_and_steering.md R119). -/
def State.consume (s : State) (t q : Nat) : State :=
  let g := (s.tile t).gen
  let sp := ((s.tile t).queue q).spill
  (s.onTile t fun x => (x.dropHead q).untrip (consAgent (x.get (T.QCFG_CONS q)))).freeSlot t q g (!sp)

/-- The credits that a channel is granted in a generation: `CRED` of a tile's, a step channel's and a seam `IN` record's,
1 of a `REDUCE` done channel (spec/05_patterns_and_reconfiguration.md R160). -/
def State.chanCred (s : State) (a c gen : Nat) : Nat :=
  if a < nTiles then
    let x := s.tile a
    if x.gen = gen then x.get (T.OCH_CRED c)
    else match x.pend with
      | some p => rfGet p.regs (T.OCH_CRED c)
      | none => 0
  else if a = 0xC34 then
    (((s.tape.chans ++ s.tape.pendChans).filter fun h => h.gen = gen)[c]?.map StepChan.cred).getD 0
  else if c < 256 then
    ((s.seam.ins.find? fun i => 0xC20 + i.rc.port = a && i.rc.slot = c && i.gen = gen).map fun i => i.rc.cred).getD 0
  else
    ((s.seam.done.find? fun d => 0xC20 + d.port = a && doneChan d.dest d.dq = c && d.gen = gen).map DoneChan.cred).getD 1

/-- The hem marker at the head of a queue consumed: its slot freed, and the credits withheld from the next generation's
channel returned to it (spec/05_patterns_and_reconfiguration.md R173). -/
def State.consumeHem (s : State) (t q : Nat) : State :=
  let g := (s.tile t).gen
  let n := match (s.tile t).pend with
    | some p => kvGet 0 p.withheld q
    | none => 0
  let s := (s.consume t q).onTile t fun x =>
    { x.setQueue q { x.queue q with hemmed := true } with
      pend := x.pend.map fun p => { p with withheld := kvErase p.withheld q } }
  s.laneCredits t q ((g + 1) % 16) n

/-! ### Sending -/

/-- May a channel of a tile send: it holds a credit and a bucket token (spec/04_fabric_tokens_and_steering.md R119)? -/
def Tile.canSend (x : Tile) (c : Nat) : Bool := decide (0 < (x.och c).credits) && decide (0 < (x.och c).bucket)

/-- May each channel of a list send once, one that is named twice also twice? -/
def Tile.canSendAll (x : Tile) (l : List Nat) : Bool :=
  l.all fun c => decide (l.count c ≤ (x.och c).credits) && decide (l.count c ≤ (x.och c).bucket)

/-- A token formed for a channel of a tile. -/
def Tile.form (x : Tile) (t c kind tag slot : Nat) (basted : Bool) (pay : List Byte) : Token :=
  ⟨mkHdr ⟨x.get (T.OCH_DEST c), x.get (T.OCH_DQ c), x.gen, tag, kind, basted, x.get (T.OCH_VC c), pay.length,
    panelOf t, slot⟩, pay⟩

/-- A token sent on a channel of a tile with a tag of its own: a credit and a bucket token spent
(spec/04_fabric_tokens_and_steering.md R119, R120). -/
def State.sendAs (s : State) (t c kind tag slot : Nat) (basted : Bool) (pay : List Byte) : State :=
  let x := s.tile t
  let o := x.och c
  (s.setTile t (x.setOch c { o with credits := o.credits - 1, bucket := o.bucket - 1 })).inject t
    (x.form t c kind tag slot basted pay) (some (t, c))

/-- A token sent on a channel with the channel's next tag; hem and end tokens carry tag 0 and leave the count. A data token
of `LEN` 0 is counted, as Table 4.3 says (spec/04_fabric_tokens_and_steering.md R120; log entry 112). -/
def State.sendNew (s : State) (t c kind slot : Nat) (basted : Bool) (pay : List Byte) : State :=
  let o := (s.tile t).och c
  if kind = kData || kind = kCtl then
    (s.sendAs t c kind o.tagc slot basted pay).onTile t fun x =>
      x.setOch c { x.och c with tagc := (o.tagc + 1) % 256 }
  else s.sendAs t c kind 0 slot basted pay

/-- The payload of a verdict: bits [63:62] 0b01 for sew, 0b10 for squash
(spec/04_fabric_tokens_and_steering.md R131). -/
def verdictWord (sew : Bool) : Nat := (if sew then 1 else 2) * 2 ^ 62

/-- A verdict sent for a basted token: a control token on VC1 with the token's destination, queue and tag; it takes no
credit and leaves the tag counts (spec/04_fabric_tokens_and_steering.md R131). -/
def State.sendVerdict (s : State) (t dest dq tag : Nat) (sew : Bool) : State :=
  s.inject t ⟨mkHdr ⟨dest, dq, (s.tile t).gen, tag, kCtl, false, 1, 8, panelOf t, 0⟩, leBytes 8 (verdictWord sew)⟩ none

/-- A verdict sent to each of a list of basted tokens sent: destination, queue, tag. -/
def State.sendVerdicts (s : State) (t : Nat) (sew : Bool) : List (Nat × Nat × Nat) → State
  | [] => s
  | (d, q, g) :: l => (s.sendVerdict t d q g sew).sendVerdicts t sew l

/-! ### Stopping a tile -/

/-- A tile stopped: no access of its program stalls, and no wait of it is tripped (spec/03_compute_tile.md R109,
spec/06_progress_deadlock_drain.md R194). -/
def Tile.stopped (x : Tile) : Tile :=
  { x.set T.TILE_STATUS_STATE 4 with stall := none, progWait := none, tripped := [] }

/-- A run-time fault of a tile: recorded, and the tile stops issuing (spec/03_compute_tile.md R109,
spec/04_fabric_tokens_and_steering.md R148). -/
def State.tileStop (s : State) (t code sub : Nat) : State := (s.tileFault code t sub).onTile t Tile.stopped

/-- A held fault recorded: `GEN_DROP` counted where the token was dropped for its generation, a tile stopped, but not by a
corrected payload (spec/04_fabric_tokens_and_steering.md R134, R137, R148). -/
def State.raiseHeld (s : State) (f : HeldFlt) : State :=
  let s := if f.drop then s.bump R.GEN_DROP 1 else s
  if nTiles ≤ f.unit then s.raise f.code f.unit f.sub f.arg
  else if f.code = Code.FAB_PAYLOAD_CORR then s.tileFault f.code f.unit f.sub
  else s.tileStop f.unit f.code f.sub

/-- A fault of a check on a token, raised by a router, a tile or a selvedge unit: for a basted token it is held at the token's
destination until the verdict comes (spec/04_fabric_tokens_and_steering.md R134, R137, R148). -/
def State.tokFault (s : State) (k : Token) (code unit sub : Nat) (drop : Bool) (arg : Nat := 0) : State :=
  let f : HeldFlt := ⟨hDest k.hdr, hDq k.hdr, hTag k.hdr, code, unit, sub, drop, arg⟩
  if !hBasted k.hdr then s.raiseHeld f
  else if f.dest < nTiles then s.onTile f.dest fun x => { x with hfaults := x.hfaults ++ [f] }
  else { s with fab := { s.fab with hfaults := s.fab.hfaults ++ [f] } }

/-! ### The basting record -/

/-- Is any entry of the basting record open? -/
def Tile.bastes (x : Tile) : Bool := !x.entries.isEmpty

/-- The identifier of the youngest open entry. -/
def Tile.young (x : Tile) : Option Nat := x.entries.getLast?.map BEntry.id

/-- The youngest entry changed. -/
def mapLast {α : Type} (f : α → α) : List α → List α
  | [] => []
  | [a] => [f a]
  | a :: t => a :: mapLast f t

/-- Something held by the youngest entry. -/
def Tile.holdLast (x : Tile) (h : Held) : Tile :=
  { x with entries := mapLast (fun e => { e with held := e.held ++ [h] }) x.entries }

/-- Something held by the entry with an identifier. -/
def Tile.holdAt (x : Tile) (id : Nat) (h : Held) : Tile :=
  { x with entries := x.entries.map fun e => if e.id = id then { e with held := e.held ++ [h] } else e }

/-- May the cause of a fault of the tile program lie in basted values only: a basted control token has steered the program,
so that an entry is open for it? The other values that the program holds decide no fault
(spec/04_fabric_tokens_and_steering.md R134; log entry 11). -/
def Tile.steered (x : Tile) : Bool := x.entries.any fun e => hKind e.tok.hdr = kCtl

/-- A fault that the tile program runs into: held with the youngest entry while its cause may lie in basted values only, the
tile stopping until the entry is sewn or squashed; otherwise raised (spec/04_fabric_tokens_and_steering.md R134; log
entry 11). -/
def State.progFault (s : State) (t code sub : Nat) : State :=
  if (s.tile t).steered then s.onTile t fun x => (x.holdLast (.fault code sub 0)).stopped else s.tileStop t code sub

/-- The scratchpad as a computation under the record's entries sees it: the results held by entries up to one of them
over the contents (spec/04_fabric_tokens_and_steering.md R138). -/
def Tile.view (x : Tile) (ent : Option Nat) : Memory :=
  match ent with
  | none => x.spad
  | some i =>
    (x.entries.filter fun e => decide (e.id ≤ i)).foldl (fun m e => e.held.foldl (fun m h =>
      match h with
      | .write a b => memWriteN m a b
      | _ => m) m) x.spad

/-- A vector register with bytes landed at a byte offset. -/
def landVec (v : List W32) (off : Nat) (b : List Byte) : List W32 :=
  let old := wordsBytes v
  let b := padTo (4 * ceilDiv b.length 4) b
  bytesWords (padTo off old ++ b ++ old.drop (off + b.length))

/-- The vector unit's value as a computation under the record's entries sees it
(spec/04_fabric_tokens_and_steering.md R138). -/
def Tile.vecView (x : Tile) (ent : Option Nat) : List W32 :=
  match ent with
  | none => x.vec
  | some i =>
    (x.entries.filter fun e => decide (e.id ≤ i)).foldl (fun v e => e.held.foldl (fun v h =>
      match h with
      | .vec off b => landVec v off b
      | _ => v) v) x.vec

/-- Counter increments of a tile applied. -/
def State.tileCnt (s : State) (t : Nat) (c : Cnt) : State :=
  let s := s.addCnt (panelOf t) c
  if c.isat = 0 then s else s.onTile t fun x => x.set T.TILE_STATUS_ISAT 1

/-- A held result released: written, counted or recorded (spec/04_fabric_tokens_and_steering.md R135). -/
def State.release (s : State) (t : Nat) : Held → State
  | .write a b => s.onTile t fun x => { x with spad := memWriteN x.spad a b }
  | .vec off b => s.onTile t fun x => { x with vec := landVec x.vec off b }
  | .vred p => s.onTile t fun x => { x with vred := p }
  | .count c => s.tileCnt t c
  | .fault code sub _ => s.tileStop t code sub
  | .sent _ dest dq tag => s.sendVerdict t dest dq tag true

/-- Held results released in order. -/
def State.releaseAll (s : State) (t : Nat) : List Held → State
  | [] => s
  | h :: l => (s.release t h).releaseAll t l

/-- The oldest entry closed by its sew verdict: what it holds is released, its queue slots are freed
(spec/04_fabric_tokens_and_steering.md R135). -/
def State.closeEntry (s : State) (t : Nat) (e : BEntry) : State :=
  let g := (s.tile t).gen
  let s := s.onTile t fun x => { x with entries := x.entries.drop 1 }
  let s := s.releaseAll t e.held
  (e.taken.foldl (fun s p => s.freeSlot t p.1 g p.2.2) s).freeSlot t e.q g e.owes

/-- The entries at the old end of the record that have been sewn, closed one after another; the first argument bounds
the recursion. -/
def State.closeSewn (s : State) (t : Nat) : Nat → State
  | 0 => s
  | k + 1 =>
    match (s.tile t).entries with
    | e :: _ => if e.verdict = some true then (s.closeEntry t e).closeSewn t k else s
    | [] => s

/-- A token with its basted mark taken off. -/
def Token.sewn (k : Token) : Token := ⟨mkHdr { hdrF k.hdr with basted := false }, k.pay⟩

/-- The tokens that entries from one on consumed, in order: queue, token and whether its credit is owed; the first
entry's own token left out, and one whose sew verdict has come no longer basted
(spec/04_fabric_tokens_and_steering.md R135). -/
def restored (es : List BEntry) : List (Nat × Token × Bool) :=
  match es with
  | [] => []
  | e :: l => e.taken ++ l.flatMap fun f =>
      (f.q, (if f.verdict = some true then f.tok.sewn else f.tok), f.owes) :: f.taken

/-- Tokens put back at the head of their queues, in order. -/
def Tile.restoreToks (x : Tile) : List (Nat × Token × Bool) → Tile
  | [] => x
  | (q, k, _) :: l =>
    let y := x.restoreToks l
    y.setQueue q { y.queue q with toks := k :: (y.queue q).toks }

/-- The entries of the record from the first with an identifier on. -/
def fromId (id : Nat) (es : List BEntry) : List BEntry := es.dropWhile fun e => e.id ≠ id

/-- A list without the last occurrence of an element. -/
def dropLastOf (g : Nat) (l : List Nat) : List Nat := (dropFirst (fun h => h = g) l.reverse).reverse

/-- The tags delivered and not squashed with one more; the last 32 are kept, more than a queue and the basting record
can hold undecided (spec/04_fabric_tokens_and_steering.md R136). -/
def pushTag (l : List Nat) (g : Nat) : List Nat := (l ++ [g]).drop ((l.length + 1) - 32)

/-- An entry squashed: it and every younger one close, what they hold is discarded, their basted tokens are squashed,
the tokens they consumed go back to their queues but for the squashed one, whose slot is freed, and the checkpoint is
restored (spec/04_fabric_tokens_and_steering.md R135, R136). -/
def State.squashEntry (s : State) (t : Nat) (e : BEntry) : State :=
  let x := s.tile t
  let es := fromId e.id x.entries
  let sent := es.flatMap fun f => f.held.filterMap fun h =>
    match h with
    | .sent _ d q g => some (d, q, g)
    | _ => none
  let ids := es.map BEntry.id
  let x : Tile := { x with
    entries := x.entries.takeWhile fun f => f.id ≠ e.id
    outst := x.outst.filter fun o => !(match o.ent with | some i => ids.contains i | none => false)
    stall := none
    progWait := none
    past := false
    loops := e.chk.loops }
  let x : Tile := x.restoreToks (restored es)
  let x : Tile := (List.range 32).foldl (fun y c =>
    match e.chk.tags[c]? with
    | some g => if (kvGet? y.ochs c).isSome then y.setOch c { y.och c with tagc := g } else y
    | none => y) x
  let x : Tile := ((x.set T.TILE_STATUS_PC e.chk.pc).set T.TILE_DL_DL0 (e.chk.dl.getD 0 0)).set T.TILE_DL_DL1 (e.chk.dl.getD 1 0)
  let x : Tile := (x.set T.TILE_DL_DL2 (e.chk.dl.getD 2 0)).set T.TILE_DL_DL3 (e.chk.dl.getD 3 0)
  let faultHeld := es.any fun f => f.held.any fun h => match h with | .fault _ _ _ => true | _ => false
  let x : Tile := if x.get T.TILE_STATUS_STATE = 4 && !faultHeld then x else x.set T.TILE_STATUS_STATE 1
  let x : Tile := { x with halted := false }
  let v := x.queue e.q
  let x : Tile := x.setQueue e.q { v with refCur := dropLastOf (hTag e.tok.hdr) v.refCur }
  let s := (s.setTile t x).freeSlot t e.q x.gen e.owes
  let s := (restored es).foldl (fun s p =>
    if ((s.tile t).queue p.1).spill && p.2.2 then s.laneCredits t p.1 x.gen 1 else s) s
  s.sendVerdicts t false sent

/-- A verdict for a token that waits in a queue: sewn, its mark is taken off; squashed, it is discarded and its slot is
freed (spec/04_fabric_tokens_and_steering.md R131, R136). -/
def State.verdictQueue (s : State) (t q : Nat) (k : Token) (sew : Bool) : State :=
  let v := (s.tile t).queue q
  if sew then
    s.onTile t fun x => x.setQueue q { v with toks := v.toks.map fun j => if j = k then k.sewn else j }
  else
    let toks := v.toks.erase k
    let cur := decide (hGen k.hdr = (s.tile t).gen)
    (s.onTile t fun x => x.setQueue q { v with
      toks := toks
      refCur := if cur then dropLastOf (hTag k.hdr) v.refCur else v.refCur
      refPend := if cur then v.refPend else dropLastOf (hTag k.hdr) v.refPend }).freeSlot t q (hGen k.hdr) (!v.spill)

/-- Is a token basted and has it a tag? -/
def bastedTag (g : Nat) (k : Token) : Bool := hBasted k.hdr && hTag k.hdr = g

/-- Is a basted token for a queue and tag still in the mesh (spec/04_fabric_tokens_and_steering.md R131)? -/
def State.bastedInNet (s : State) (dest q g : Nat) : Bool :=
  s.net.any fun n => hDest n.tok.hdr = dest && hDq n.tok.hdr = q && bastedTag g n.tok

/-- Where a basted token was sent: destination, destination queue and tag. -/
abbrev SentTo := Nat × Nat × Nat

/-- The output on which a shuttle sends a side (spec/04_fabric_tokens_and_steering.md R125). -/
def Tile.sideOut (x : Tile) (k side : Nat) : Nat :=
  if x.get (T.SHUT_CFG_MODE k) = 1 && side = 1 then x.get (T.SHUT_CFG_OUT1 k) else x.get (T.SHUT_CFG_OUT0 k)

/-- Where a channel of a tile sends a token with a tag. -/
def Tile.chanDst (x : Tile) (c tag : Nat) : SentTo := (x.get (T.OCH_DEST c), x.get (T.OCH_DQ c), tag)

/-- No destination: a datum that a `GATE` has discarded, or a token squashed before, whose further verdicts are absorbed. -/
def nowhere : SentTo := (4096, 0, 0)

/-- The basted tags of a shuttle, and the tile with them put back. -/
def Tile.shut (x : Tile) (k : Nat) : List BasteBuf := if k = 0 then x.shut0 else x.shut1
def Tile.setShut (x : Tile) (k : Nat) (l : List BasteBuf) : Tile :=
  if k = 0 then { x with shut0 := l } else { x with shut1 := l }

/-- Does the fate of a token sent basted still hang on a verdict awaited, or on a shuttle's own prediction? -/
def Tile.undecided (x : Tile) (d : SentTo) : Bool :=
  (x.fwd.any fun f => decide (f.2.2 = d)) || ([0, 1].any fun k => (x.shut k).any fun b => b.own && decide (b.dst = d))

/-- Tokens sent to some of a list of places no longer counted as basted by the shuttles. -/
def Tile.dropSent (x : Tile) (l : List SentTo) : Tile :=
  { x with shut0 := x.shut0.filter fun b => !l.contains b.dst, shut1 := x.shut1.filter fun b => !l.contains b.dst }

/-- Where the tokens that wait to be resent will go. -/
def Tile.resendDst (x : Tile) (r : Nat × Nat × Token) : SentTo := x.chanDst r.2.1 (hTag r.2.2.hdr)

/-- Basted tags of a shuttle, basted by itself, that were sent to some of a list of places. -/
def Tile.ownTo (x : Tile) (k : Nat) (l : List SentTo) : Nat := ((x.shut k).filter fun b => b.own && l.contains b.dst).length

/-- Basted tokens of a shuttle squashed, counted (spec/04_fabric_tokens_and_steering.md R147). -/
def State.squashed (s : State) (t k n : Nat) : State :=
  (s.onTile t fun x => x.bump (T.SHUT_SQUASHED k) n).bump (R.SQUASHED (panelOf t)) n

/-- The verdict of a basted token passed on, or of values computed from it, forwarded under the tag they were sent with: a
sew once nothing else about the token sent is undecided, a squash at once, after which further verdicts of tokens that it
came from are absorbed. A token that waits to be resent has not been sent: it goes sewn, or not at all. The index of the
predicate unit gives up a squashed token (spec/04_fabric_tokens_and_steering.md R132, R138, R139). An element of `fwd` is
the queue and tag of the token received, and where it was sent. -/
def State.forward (s : State) (t q g : Nat) (sew : Bool) : State :=
  let x := s.tile t
  let hit := ((x.fwd.filter fun f => f.1 = q && f.2.1 = g).map fun f => f.2.2).filter fun d => decide (d ≠ nowhere)
  let y : Tile := { x with
    fwd := x.fwd.filter fun f => !(f.1 = q && f.2.1 = g)
    predOpen := x.predOpen.erase (q, g)
    predIdx := if !sew && x.predOpen.contains (q, g) then x.predIdx - 1 else x.predIdx }
  let waits (d : SentTo) : Bool := y.resend.any fun r => hBasted r.2.2.hdr && decide (y.resendDst r = d)
  if sew then
    let done := hit.filter fun d => !y.undecided d
    let z : Tile := { y.dropSent done with
      resend := y.resend.map fun r => if done.contains (y.resendDst r) then (r.1, r.2.1, r.2.2.sewn) else r }
    (s.setTile t z).sendVerdicts t true (done.filter fun d => !waits d)
  else
    let z : Tile := { y.dropSent hit with
      fwd := y.fwd.map fun f => if hit.contains f.2.2 then (f.1, f.2.1, nowhere) else f
      resend := y.resend.filter fun r => !(hBasted r.2.2.hdr && hit.contains (y.resendDst r)) }
    (((s.setTile t z).squashed t 0 (y.ownTo 0 hit)).squashed t 1 (y.ownTo 1 hit)).sendVerdicts t false
      (hit.filter fun d => !waits d)

/-- The faults of checks on a basted token, held until the token's verdict: recorded when it is sewn, discarded when it is
squashed (spec/04_fabric_tokens_and_steering.md R134, R148). -/
def State.heldVerdict (s : State) (t q g : Nat) (sew : Bool) : State :=
  let mine (f : HeldFlt) : Bool := f.q = q && f.tag = g
  let hit := (s.tile t).hfaults.filter mine
  let s := s.onTile t fun x => { x with hfaults := x.hfaults.filter fun f => !mine f }
  if sew then hit.foldl State.raiseHeld s else s

/-- The same at a selvedge unit. -/
def State.heldUnit (s : State) (u q g : Nat) (sew : Bool) : State :=
  let mine (f : HeldFlt) : Bool := f.dest = u && f.q = q && f.tag = g
  let hit := s.fab.hfaults.filter mine
  let s := { s with fab := { s.fab with hfaults := s.fab.hfaults.filter fun f => !mine f } }
  if sew then hit.foldl State.raiseHeld s else s

/-! ### The spill staging buffer -/

/-- The places that a chain has used in its last page, all 32 when it needs a page for its next record. -/
def State.lastPage (s : State) (c : Nat × Nat × Nat) : Nat :=
  match s.unpick.chains.find? fun d => d.tile = c.1 && d.queue = c.2.1 && d.gen = c.2.2 with
  | some d => ((d.recs.getLast?).map fun r => r.1 % 4096 / 128 + 1).getD 32
  | none => 32

/-- Has the spill area a place for one more record of a chain, beside those of the pairs on their way
(spec/06_progress_deadlock_drain.md R200, R205)? -/
def State.spillRoom (s : State) (c : Nat × Nat × Nat) : Bool :=
  let due := s.unpick.due ++ [c]
  let need := (due.eraseDups.map fun d => ceilDiv (s.lastPage d + due.count d - 32) 32).sum
  decide (need + s.unpick.pages.length ≤ s.pageCount)

/-- A sewn token of the staging buffer sent to the unpick controller as a pair of spill tokens on VC3, the header and
the payload, both with its `GEN` and `TAG`; its sender's credit returns. When its chain needs a page and none is free, it
stays in staging (spec/06_progress_deadlock_drain.md R202, R205, spec/05_patterns_and_reconfiguration.md R178). -/
def State.sendSpill (s : State) (t q : Nat) (k : Token) : State :=
  let f := hdrF k.hdr
  let c := (t, q, f.gen)
  if !s.spillRoom c then
    (s.onTile t fun x => { x with staging := x.staging ++ [(q, k)] }).raise Code.UNP_SPILL_FULL 0xC32 0 0
  else
    let h (n : Nat) : W64 := mkHdr { f with dest := 0xC32, kind := kSpill, basted := false, vc := 3, len := n, srcp := panelOf t }
    let s := { s with unpick := { s.unpick with due := s.unpick.due ++ [c] } }
    let s := (s.inject t ⟨h 8, leBytes 8 k.hdr.toNat⟩ (some (t, q))).inject t ⟨h k.pay.length, k.pay⟩ (some (t, q))
    s.laneCredits t q f.gen 1

/-- The verdict of a token that waits in staging: sewn, it goes to the controller; squashed, it is discarded and its
credit returned (spec/06_progress_deadlock_drain.md R202). -/
def State.verdictStaged (s : State) (t q : Nat) (k : Token) (sew : Bool) : State :=
  let s := s.onTile t fun x => { x with staging := x.staging.erase (q, k) }
  if sew then s.sendSpill t q k.sewn
  else
    let cur := decide (hGen k.hdr = (s.tile t).gen)
    (s.onTile t fun x =>
      let v := x.queue q
      x.setQueue q { v with
        refCur := if cur then dropLastOf (hTag k.hdr) v.refCur else v.refCur
        refPend := if cur then v.refPend else dropLastOf (hTag k.hdr) v.refPend }).laneCredits t q (hGen k.hdr) 1

/-- Does a tile hold faults of a basted token of a queue and tag? -/
def Tile.holdsFault (x : Tile) (q g : Nat) : Bool := x.hfaults.any fun f => f.q = q && f.tag = g

/-- A verdict absorbed at a tile: by an open entry, by a token that waits in the queue or in staging, by an agent that has
passed the token on, or kept until its token comes; held faults of the token are recorded or discarded with it; a verdict
that nothing can match is an orphan (spec/04_fabric_tokens_and_steering.md R131 to R136). -/
def State.verdictAt (s : State) (t q g : Nat) (sew : Bool) : State :=
  let held := (s.tile t).holdsFault q g
  let s := if held then s.heldVerdict t q g sew else s
  let x := s.tile t
  match x.entries.find? fun e => e.q = q && hTag e.tok.hdr = g && e.verdict.isNone with
  | some e =>
    if sew then
      (s.onTile t fun x => { x with
        entries := x.entries.map fun f => if f.id = e.id then { f with verdict := some true } else f }).closeSewn t 8
    else s.squashEntry t e
  | none =>
    match (x.queue q).toks.find? (bastedTag g) with
    | some k => s.verdictQueue t q k sew
    | none =>
      match x.staging.find? fun p => p.1 = q && bastedTag g p.2 with
      | some p => s.verdictStaged t q p.2 sew
      | none =>
      if x.fwd.any fun f => f.1 = q && f.2.1 = g then s.forward t q g sew
      else if held then s
      else if s.bastedInNet t q g then
        s.onTile t fun x => { x with verdicts := x.verdicts ++ [(q, g, sew)] }
      else s.tileStop t Code.FAB_VERDICT_ORPHAN q

end Sys2Proof.Machine
end

