-- ==== Sys2Proof/Machine/Commands.lean ====
section
/-! DEFINITION. A tape command as its unit takes it up, its parameters, and its replies
(spec/11_host_interface_and_command_tape.md R364 to R366, R373, Table 11.9). -/

namespace Sys2Proof.Machine

/-- The opcodes of the command tape (spec/11_host_interface_and_command_tape.md Table 11.8,
spec/12_thimble_management_security.md). -/
def Op.NOP : Nat := 0x0001
def Op.NEGOTIATE : Nat := 0x0002
def Op.CANCEL : Nat := 0x0003
def Op.PATTERN_LOAD : Nat := 0x0010
def Op.PATTERN_ARM : Nat := 0x0011
def Op.DRAIN : Nat := 0x0012
def Op.RESUME : Nat := 0x0013
def Op.STEP_OPEN : Nat := 0x0020
def Op.CLASS : Nat := 0x0030
def Op.MOVE : Nat := 0x0031
def Op.BIAS : Nat := 0x0032
def Op.DBG_READ : Nat := 0x0040
def Op.DBG_WRITE : Nat := 0x0041

/-- The parameter of a command at an offset. -/
def Cmd.p (c : Cmd) (off n : Nat) : Nat := field c.params off n

/-- The command of a tag with an opcode that its unit has taken up and that has not yet acted. -/
def State.cmdFor (s : State) (tag op : Nat) : Option Cmd :=
  s.tape.cmds.find? fun c => c.tag = tag && c.opcode = op && c.started && !c.taken && !c.replied

/-- A command marked as having acted; one whose tag is retired already is forgotten
(spec/11_host_interface_and_command_tape.md R371). -/
def State.takeCmd (s : State) (c : Cmd) : State :=
  { s with tape := { s.tape with
      cmds := if c.gone then s.tape.cmds.erase c
        else s.tape.cmds.map fun d => if d.tag = c.tag && d.epoch = c.epoch && !d.gone then { d with taken := true } else d } }

/-- A command's row: it acts once on a command that its unit has taken up, and never in the safe state
(spec/15_faults_and_safe_state.md R470). -/
def State.withCmd (s : State) (tag op : Nat) (k : State → Cmd → State) : State :=
  if s.safe then s
  else
    match s.cmdFor tag op with
    | some c => k (s.takeCmd c) c
    | none => s

/-- A command's final reply of kind complete. -/
def State.done (s : State) (c : Cmd) (result : List Byte) : State := s.reply c.tag c.epoch 1 0 result

/-- A command refused because a state that it needs does not hold (spec/11_host_interface_and_command_tape.md R366). -/
def State.refuseState (s : State) (c : Cmd) : State := s.refuseTag c Code.TAPE_STATE 0

/-- The result that a command's reply will carry, kept until the writes that it made to host memory are observed
(spec/11_host_interface_and_command_tape.md R374). -/
def State.keepResult (s : State) (c : Cmd) (result : List Byte) : State :=
  { s with tape := { s.tape with cmds := s.tape.cmds.map fun d =>
      if d.tag = c.tag && d.epoch = c.epoch && !d.gone then { d with result := result } else d } }

/-- A refused commit: the fault names the block and the first register whose check failed
(spec/15_faults_and_safe_state.md Table 15.3). -/
def State.refuseCommit (s : State) (unit : Nat) (f : Nat × Nat) : State := s.raise f.1 unit 0 f.2

end Sys2Proof.Machine
end

