-- ==== Sys2Proof/Machine/Groups.lean ====
section
/-! DEFINITION. Parameter groups: the records of the group table, the arrays they name, and the checks made of them
(spec/07_training_step_and_press.md R225 to R229, R243). -/

namespace Sys2Proof.Machine

/-- A group record (spec/07_training_step_and_press.md Table 7.1), as the bytes that the table holds. -/
abbrev GRec := List Byte

/-- The address of a record. -/
def State.grpAddr (s : State) (g : Nat) : Nat := s.get R.PRS_GT_BASE_GT_BASE * 256 + 256 * g

/-- A record. -/
def State.grp (s : State) (g : Nat) : GRec := s.rdN (s.grpAddr g) 256

/-- `GT_COUNT`. -/
def State.gtCount (s : State) : Nat := s.get R.PRS_CFG_GT_COUNT

/-- Fields of a record. -/
def GRec.op (r : GRec) : Nat := field r 0x00 1
def GRec.nesterov (r : GRec) : Bool := bit (field r 0x01 1) 0
def GRec.uwHalt (r : GRec) : Bool := bit (field r 0x01 1) 1
def GRec.s1En (r : GRec) : Bool := bit (field r 0x01 1) 2
def GRec.s2En (r : GRec) : Bool := bit (field r 0x01 1) 3
def GRec.isLocal (r : GRec) : Bool := bit (field r 0x01 1) 4
def GRec.gfmt (r : GRec) : FmtD := fmtOf (field r 0x02 2)
def GRec.wfmt (r : GRec) : FmtD := fmtOf (field r 0x04 2)
def GRec.sumfmt (r : GRec) : Nat := field r 0x06 1
def GRec.closers (r : GRec) : Nat := field r 0x07 1
def GRec.nElem (r : GRec) : Nat := field r 0x08 8
def GRec.ownLo (r : GRec) : Nat := field r 0x10 8
def GRec.ownHi (r : GRec) : Nat := field r 0x18 8
def GRec.master (r : GRec) : Nat := field r 0x20 8
def GRec.s1 (r : GRec) : Nat := field r 0x28 8
def GRec.s2 (r : GRec) : Nat := field r 0x30 8
def GRec.red (r : GRec) : Nat := field r 0x38 8
def GRec.work (r : GRec) : Nat := field r 0x40 8
def GRec.workScl (r : GRec) : Nat := field r 0x48 8
def GRec.g8 (r : GRec) : Nat := field r 0x50 8
def GRec.g8Scl (r : GRec) : Nat := field r 0x58 8
def GRec.err (r : GRec) : Nat := field r 0x60 8
def GRec.sum (r : GRec) : Nat := field r 0x68 8
def GRec.par (r : GRec) (k : Nat) : W32 := BitVec.ofNat 32 (field r (0x70 + 4 * k) 4)
def GRec.uwLo (r : GRec) : W32 := BitVec.ofNat 32 (field r 0x90 4)
def GRec.uwHi (r : GRec) : W32 := BitVec.ofNat 32 (field r 0x94 4)
def GRec.shard (r : GRec) : Nat := field r 0x98 4
def GRec.t (r : GRec) : Nat := field r 0xA0 4
def GRec.errStep (r : GRec) : Nat := field r 0xA8 6
def GRec.uwAlerts (r : GRec) : Nat := field r 0xBC 4
def GRec.prog (r : GRec) (k : Nat) : Nat := field r (0xC0 + 4 * k) 4

/-- Are there owned elements? -/
def GRec.owns (r : GRec) : Bool := decide (r.ownLo < r.ownHi)

/-- Does the group take a gradient in a step (spec/07_training_step_and_press.md R227, R231)? -/
def GRec.closes (r : GRec) : Bool := decide (0 < r.closers) && decide (0 < r.nElem)

/-- Does the group use its first and its second optimiser state (spec/07_training_step_and_press.md Table 7.4)? -/
def GRec.usesS1 (r : GRec) : Bool := if r.op = 3 then r.s1En else true
def GRec.usesS2 (r : GRec) : Bool := if r.op = 3 then r.s2En else r.op = 0

/-- Bytes of an element plane and of a scale plane of `n` elements. -/
def planeBytes (d : FmtD) (n : Nat) : Nat := ceilDiv (n * fmtBits d.fmt) 8
def scaleBytes (d : FmtD) (n : Nat) : Nat := if d.scaled then ceilDiv n d.block else 0

/-- The arrays that a group uses: offset of the field, address, bytes, required class (3 for `SUM`, which may also lie
in lining scratchpad) (spec/07_training_step_and_press.md R226, R227). -/
def GRec.arrays (r : GRec) : List (Nat × Nat × Nat × Nat) :=
  let own := r.ownHi - r.ownLo
  let n := r.nElem
  let all : List (Nat × Nat × Nat × Nat) := [
    (0x20, r.master, 4 * own, 1), (0x28, r.s1, if r.usesS1 then 4 * own else 0, 1),
    (0x30, r.s2, if r.usesS2 then 4 * own else 0, 1), (0x38, r.red, if r.isLocal then 0 else 4 * own, 1),
    (0x40, r.work, planeBytes r.wfmt n, 0), (0x48, r.workScl, scaleBytes r.wfmt n, 0), (0x50, r.g8, n, 1),
    (0x58, r.g8Scl, scaleBytes r.gfmt n, 1), (0x60, r.err, 2 * n, 1),
    (0x68, r.sum, (if r.sumfmt = 0 then 8 else 4) * n, 3)]
  all.filter fun a => decide (0 < a.2.2.1)

/-- The ranges of the group table and of every array of a record, which commands that move or reclass memory must not
meet while `PHASE` is not idle (spec/08_memory_system.md R260, R273, R279). -/
def State.groupArrays (s : State) : List (Nat × Nat × Nat) :=
  (List.range s.gtCount).flatMap fun g => (s.grp g).arrays.map fun a => (a.1, a.2.1, a.2.2.1)

/-- Is a range wholly in lining groups that are in scratchpad mode? -/
def State.inScratch (s : State) (a n : Nat) : Bool :=
  decide (lpEnd ≤ a) && decide (a + n ≤ lnEnd) &&
    (List.range (n / 0x100000 + 2)).all fun k =>
      let b := max a ((a / 0x100000 + k) * 0x100000)
      decide (a + n ≤ b) || s.lnMode (lnGroup b).1 (lnGroup b).2 = 2

/-! ### Checks -/

/-- A value in order with both zeros equal. -/
def fkey (a : W32) : Int := if a &&& 0x7FFFFFFF = 0 then 0 else orderKey a

/-- `a ≤ b` and `a < b` as FP32 values; false with a NaN. -/
def fle (a b : W32) : Bool := !isNan a && !isNan b && decide (fkey a ≤ fkey b)
def flt (a b : W32) : Bool := !isNan a && !isNan b && decide (fkey a < fkey b)

def f1 : W32 := 0x3F800000

/-- A limit of a parameter: it must be +0; finite; in [0, 1); in [0, 1]; finite and above 0
(spec/07_training_step_and_press.md Table 7.4). -/
inductive PLim where
  | zero | fin | unit | closed | pos
  deriving DecidableEq, Repr

def PLim.ok (l : PLim) (a : W32) : Bool :=
  match l with
  | .zero => a = 0
  | .fin => isFinite a
  | .unit => fle 0 a && flt a f1
  | .closed => fle 0 a && fle a f1
  | .pos => isFinite a && flt 0 a

/-- The limits of `P0` to `P7` by optimiser. -/
def parLimits (op : Nat) : List PLim :=
  match op with
  | 0 => [.fin, .unit, .unit, .pos, .fin, .zero, .zero, .zero]
  | 1 => [.fin, .unit, .zero, .zero, .fin, .zero, .zero, .zero]
  | 2 => [.fin, .closed, .closed, .zero, .fin, .zero, .zero, .zero]
  | _ => [.fin, .fin, .fin, .fin, .fin, .fin, .fin, .fin]

/-- The fields of a word of the programmable form (spec/07_training_step_and_press.md R243). -/
def pwOp (w : Nat) : Nat := bits w 27 5
def pwD (w : Nat) : Nat := bits w 23 4
def pwA (w : Nat) : Nat := bits w 19 4
def pwB (w : Nat) : Nat := bits w 15 4
def pwC (w : Nat) : Nat := bits w 11 4

/-- The first word of a program that is not legal, up to the first `END` (spec/07_training_step_and_press.md R243). -/
def progBad : List Nat → Nat → Option Nat
  | [], _ => none
  | w :: l, k =>
    if 0x0D < pwOp w ∨ bits w 0 11 ≠ 0 then some k
    else if pwOp w = 0 then none
    else if inRange 3 12 (pwD w) then some k
    else progBad l (k + 1)

/-- The list of a program's words. -/
def GRec.progWords (r : GRec) : List Nat := (List.range 16).map r.prog

/-- The first array that is misaligned or leaves its class (spec/07_training_step_and_press.md R227). -/
def State.arrayBad (s : State) (l : List (Nat × Nat × Nat × Nat)) : Option Nat :=
  l.findSome? fun a =>
    let ok : Bool := match a.2.2.2 with
      | 3 => s.rangeClass 1 a.2.1 a.2.2.1 || s.inScratch a.2.1 a.2.2.1
      | c => s.rangeClass c a.2.1 a.2.2.1
    if a.2.1 % 256 = 0 && ok then none else some a.1

/-- The arrays of every record that takes part: group, field, address, bytes. -/
def State.allArrays (s : State) : List (Nat × Nat × Nat × Nat) :=
  (List.range s.gtCount).flatMap fun g =>
    if (s.grp g).nElem = 0 then [] else (s.grp g).arrays.map fun a => (g, a.1, a.2.1, a.2.2.1)

/-- The first array of a record that overlaps another array or the spill area. -/
def State.arrayClash (s : State) (all : List (Nat × Nat × Nat × Nat)) (g : Nat) : Option Nat :=
  all.findSome? fun a =>
    if a.1 = g ∧ (overlaps a.2.2.1 a.2.2.2 s.spillArea.1 s.spillArea.2 ∨
        all.any fun b => (b.1, b.2.1) ≠ (a.1, a.2.1) && overlaps a.2.2.1 a.2.2.2 b.2.2.1 b.2.2.2) then some a.2.1
    else none

/-- The offset of the first field of a record that fails R227; a record without elements is checked for reserved fields
and values only (spec/07_training_step_and_press.md R227). -/
def State.grpBad (s : State) (all : List (Nat × Nat × Nat × Nat)) (g : Nat) : Option Nat :=
  let r := s.grp g
  let f (c : Bool) (off : Nat) : Option Nat := if c then some off else none
  let first (l : List (Option Nat)) : Option Nat := l.findSome? id
  let reserved := first [f (decide (3 < r.op)) 0x00, f (bits (field r 1 1) 5 3 ≠ 0) 0x01, f (decide (1 < r.sumfmt)) 0x06,
    f (field r 0x9C 4 ≠ 0) 0x9C, f (field r 0xAE 2 ≠ 0) 0xA8, f (field r 0xB6 2 ≠ 0) 0xB0]
  match reserved with
  | some o => some o
  | none =>
    if r.nElem = 0 then none
    else
      let desc (off : Nat) : Option Nat :=
        f (bits (field r off 2) 4 2 = 3 || (fmtCheck true (field r off 2)).isSome) off
      first [f (r.nElem % 64 ≠ 0) 0x08, f (r.ownLo % 64 ≠ 0) 0x10, f (r.ownHi % 64 ≠ 0) 0x18,
        f (decide (r.ownHi < r.ownLo)) 0x10, f (decide (r.nElem < r.ownHi)) 0x18,
        f (!(r.gfmt.fmt = 5 || r.gfmt.fmt = 6)) 0x02,
        f (!(decide (r.wfmt.fmt ≤ 2) || inRange 5 10 r.wfmt.fmt)) 0x04, desc 0x02, desc 0x04, s.arrayBad r.arrays,
        s.arrayClash all g,
        ((parLimits r.op).zipIdx.findSome? fun l => f (!l.1.ok (r.par l.2)) (0x70 + 4 * l.2)),
        f (isNan r.uwLo) 0x90, f (isNan r.uwHi) 0x94, f (!fle r.uwLo r.uwHi) 0x90,
        (if r.op = 3 then (progBad r.progWords 0).map fun k => 0xC0 + 4 * k else none),
        f (r.op = 3 && r.s2En && !r.s1En) 0x01, f (r.t = 0xFFFFFFFF) 0xA0]

/-- The first failure of the table: group index and offset (spec/07_training_step_and_press.md R227, R251). -/
def State.tableBad (s : State) : Option (Nat × Nat) :=
  if !s.rangeClass 1 (s.grpAddr 0) (256 * s.gtCount) then some (0xFFFF, 0)
  else
    let all := s.allArrays
    (List.range s.gtCount).findSome? fun g => (s.grpBad all g).map fun o => (g, o)

/-- The checksum of a record (spec/07_training_step_and_press.md R228). -/
def GRec.watch (r : GRec) : Nat := crc32 (r.take 0xA0 ++ r.drop 0xC0)

/-- Has the record of a group changed since the step opened (spec/07_training_step_and_press.md R228)? -/
def State.grpChanged (s : State) (g : Nat) : Bool := s.press.crcs.getD g 0 ≠ (s.grp g).watch

/-- The press unit that processes a line by the array that decides it (spec/07_training_step_and_press.md R229). -/
def State.lineUnit (s : State) (base bytes line : Nat) : Nat := s.mcOf (base + bytes * line)

end Sys2Proof.Machine
end

