-- ==== Sys2Proof/Machine/MemoryOps.lean ====
section
/-! DEFINITION. The memory controllers: reads and writes, near-memory atomics, tickets, scrubbing, row remapping, class
changes, MOVE, lining groups and package access (spec/08_memory_system.md R255 to R280, R285). -/

namespace Sys2Proof.Machine

/-! ### Reaching an address -/

/-- What a request to an address meets: data, an address that is not mapped for it, a closed lining group
(spec/01_module_overview.md R31, R32, spec/08_memory_system.md R280). -/
inductive Reach where
  | ok | unmapped | closed
  deriving DecidableEq, Repr

/-- What one byte's address meets. -/
def State.reachAt (s : State) (a : Nat) : Reach :=
  if a < lpEnd then (if (storOf s.mem.exts a).isSome then .ok else .unmapped)
  else if a < lnEnd then
    let g := lnGroup a
    if s.lnBusy g.1 g.2 || s.lnMode g.1 g.2 = 0 then .closed else if s.lnMode g.1 g.2 = 2 then .ok else .unmapped
  else .unmapped

/-- What a range of bytes meets: the first of its bytes that is not data decides. -/
def State.reach (s : State) (a n : Nat) : Reach :=
  match (List.range n).find? fun k => s.reachAt (a + k) ≠ .ok with
  | some k => s.reachAt (a + k)
  | none => .ok

/-- The unit of memory that a request must stay within: a storage granule, or a lining group
(spec/08_memory_system.md R263). -/
def State.memUnit (s : State) (a : Nat) : Nat :=
  if a < lpEnd then ((storOf s.mem.exts a).map (· / 256)).getD 0 else lpEnd + a / 0x100000

/-- Does a range lie within one storage granule or lining group? -/
def State.oneUnit (s : State) (a n : Nat) : Bool :=
  s.memUnit a = s.memUnit (a + n - 1) && (decide (a + n ≤ lpEnd) || decide (lpEnd ≤ a))

/-- Unit and detail of a memory fault at an address (spec/15_faults_and_safe_state.md Table 15.3). -/
def State.memFault (s : State) (code a : Nat) : State :=
  if a < lpEnd then
    let g := s.memUnit a
    s.raise code (0xC00 + mcOfGran g) (chanOf g) g
  else
    s.raise code (0xC00 + (lnGroup a).1) (0x100 + (lnGroup a).2) (a % 0x100000 / 8)

/-- A request to an address that the agent does not reach (spec/01_module_overview.md R31,
spec/15_faults_and_safe_state.md Table 15.3). -/
def State.unmapped (s : State) (agent sub a : Nat) : State := s.raise Code.FLT_ADDR_UNMAPPED agent sub (bits a 16 32)

/-- The state after the fault of a request that does not reach its data. -/
def State.reachFault (s : State) (agent sub a n : Nat) : State :=
  match s.reach a n with
  | .closed => s.memFault Code.MEM_BANK_CLOSED a
  | _ => s.unmapped agent sub ((List.range n).foldr (fun k d => if s.reachAt (a + k) = .ok then d else a + k) a)

/-- The code of that fault. -/
def State.reachCode (s : State) (a n : Nat) : Nat :=
  match s.reach a n with
  | .closed => Code.MEM_BANK_CLOSED
  | _ => Code.FLT_ADDR_UNMAPPED

/-- Who reads, by the agent: the host through HDM, else a fabric agent. -/
def readerOf (agent : Nat) : Reader := if agent = 0xC30 then .host else .fabric

/-- May an agent write class W: a press unit, the host, the tape unit (spec/08_memory_system.md R265)? -/
def writesW (agent : Nat) : Bool := inRange 0xC00 0xC17 agent || agent = 0xC30 || agent = 0xC34

/-- An access that meets a range of a MOVE in progress (spec/08_memory_system.md R279). -/
def State.moveTouch (s : State) (a n : Nat) : State :=
  match s.mem.move with
  | some j =>
    if overlaps a n j.src j.len || overlaps a n j.dst j.len then
      { s with mem := { s.mem with move := some { j with touched := true } } }
    else s
  | none => s

/-! ### Reads and writes -/

/-- How a controller answers a request: with data or done, or refused under a code. -/
inductive MemAns where
  | data (b : List Byte)
  | refused (code : Nat)
  deriving DecidableEq, Repr

/-- A read applied at its controller: the data bytes after the check (spec/08_memory_system.md R263, R264, R266). -/
def State.readMem (s : State) (agent sub a n : Nat) (noalloc : Bool) (e : Ecc) : State × MemAns :=
  if s.reach a n ≠ .ok then (s.reachFault agent sub a n, .refused (s.reachCode a n))
  else
    let r := (s.moveTouch a n).loadRun a n noalloc e (readerOf agent)
    if r.2 then (r.1, .data (s.rdN a n)) else (r.1, .refused (s.ueCodeAt a (readerOf agent)))

/-- A write applied at its controller: whole, or refused without effect (spec/08_memory_system.md R264 to R266). -/
def State.writeMem (s : State) (agent sub a : Nat) (b : List Byte) (noalloc : Bool) (e : Ecc) : State × MemAns :=
  let n := b.length
  if s.reach a n ≠ .ok then (s.reachFault agent sub a n, .refused (s.reachCode a n))
  else if a < lpEnd && s.granCls (s.memUnit a) = 0 && !writesW agent then
    (s.memFault Code.MEM_W_WRITE a, .refused Code.MEM_W_WRITE)
  else
    let r := (s.moveTouch a n).storeRun a b noalloc e (readerOf agent)
    (r.1, if r.2 then .data [] else .refused (s.ueCodeAt a (readerOf agent)))

/-- An answer presented to the agent that issued a request. -/
def State.answer (s : State) (agent a : Nat) (x : MemAns) : State :=
  match x with
  | .data [] => s.emit (.memDone agent a)
  | .data b => s.emit (.memData agent a b)
  | .refused c => s.emit (.memRefused agent a c)

/-- The key under which an error of the data at an address waits. -/
def State.errKey (s : State) (a : Nat) : Nat := if a < lpEnd then s.memUnit a else lnErrKey a

/-- An error that has arisen in stored data and waits for the access that reads it (log entry 110). -/
def addErr (m : Kv Ecc) (k : Nat) (e : Ecc) : Kv Ecc := if e = .ok then m else kvSet m k (worseOf e (kvGet .ok m k))

/-! ### Near-memory atomics -/

/-- The operations of an atomic (spec/08_memory_system.md Table 8.4). -/
def atomF32 : Nat := 0
def atomPair : Nat := 1
def atomBf16 : Nat := 2
def atomI32 : Nat := 3

/-- Bytes of an element. -/
def atomElem (op : Nat) : Nat := if op = atomPair then 8 else if op = atomBf16 then 2 else 4

/-- The controller of an atomic: that of its address. -/
def State.atomMc (s : State) (q : AtomReq) : Nat := if q.addr < lnEnd then s.mcOf q.addr else 0

/-- Do the elements of a request lie within the data bytes of one granule, or in one lining group? -/
def State.atomFits (s : State) (q : AtomReq) : Bool :=
  let n := q.cnt * atomElem q.op
  if q.addr < lpEnd then
    n = 0 || (s.oneUnit q.addr n && s.reachAt q.addr = .ok && s.reachAt (q.addr + n - 1) = .ok)
  else if q.addr < lnEnd then n = 0 || (s.oneUnit q.addr n && decide (q.addr + n ≤ lnEnd))
  else inRange hostBase (hostEnd - 1) q.addr

/-- The refusal of a request as it arrives, if any (spec/08_memory_system.md R275; the order of the checks is the
order in which R275 gives them). -/
def State.atomRefusal (s : State) (q : AtomReq) : Option Nat :=
  if q.illegal || decide (12 < q.cnt) || decide (q.addends.length < q.cnt) || decide (15 < q.set) || q.addr % atomElem q.op ≠ 0
      || !s.atomFits q then some Code.MEM_ATOM_RANGE
  else if decide (lnEnd ≤ q.addr) || (decide (q.addr < lpEnd) && clsOf s.mem.exts q.addr = some 0)
      || (inRange lpEnd (lnEnd - 1) q.addr && s.reachAt q.addr = .unmapped) then some Code.MEM_ATOM_CLASS
  else if q.cnt ≠ 0 && s.reachAt q.addr = .closed then some Code.MEM_BANK_CLOSED
  else none

/-- One element of a request: its new bytes, the increments of a conversion (spec/08_memory_system.md Table 8.4). -/
def State.atomOne (s : State) (q : AtomReq) (k : Nat) : List Byte × Cnt :=
  let v := q.addends.getD k 0
  let a := q.addr + k * atomElem q.op
  let w (o : Nat) : W32 := BitVec.ofNat 32 (s.rdNat (a + o) 4)
  if q.op = atomF32 then (wordsBytes [fadd (w 0) v], {})
  else if q.op = atomPair then
    let p := cadd ⟨w 0, w 4⟩ v
    (wordsBytes [p.s, p.c], {})
  else if q.op = atomBf16 then
    let old : W32 := BitVec.ofNat 32 (s.rdNat a 2 * 65536)
    let r := Rnd.sr (srDraw (srKey q.seed.1 q.seed.2 q.seq q.salt) (q.addr / 2 + k))
    let c := convPlain 1 r (f32v (fadd old v))
    (leBytes 2 c.1, c.2)
  else
    let r := satAdd32 (w 0).toInt v.toInt
    (wordsBytes [BitVec.ofInt 32 r.1], { isat := b2n r.2 })

/-- A request applied to all its elements as one read-modify-write (spec/08_memory_system.md R275, R263). -/
def State.atomApply (s : State) (q : AtomReq) (e : Ecc) : State :=
  let mc := s.atomMc q
  let n := q.cnt * atomElem q.op
  let s := s.moveTouch q.addr n
  let r := s.checkAt q.addr n e (readerOf q.agent)
  let r := (r.1.touchAt q.addr true false, r.2)
  if r.2 then
    let els := (List.range q.cnt).map (s.atomOne q)
    let c := els.foldl (fun (a : Cnt) x => a.add x.2) {}
    let s := (r.1.wrN q.addr (els.flatMap Prod.fst)).bump (R.ATOM_REQ mc) 1
    let s := if q.op = atomI32 then s.bump (R.ATOM_ISAT mc) c.isat else s.addCnt (36 + mc) c
    s.emit (.memDone q.agent q.addr)
  else r.1.emit (.memRefused q.agent q.addr (s.ueCodeAt q.addr (readerOf q.agent)))

/-- The counter `NEXT` of a set at a controller, and the state with it set (spec/08_memory_system.md R277). -/
def State.ticket (s : State) (mc set : Nat) : Nat := kvGet 0 s.mem.next (mc * 16 + set)
def State.setTicket (s : State) (mc set v : Nat) : State :=
  { s with mem := { s.mem with next := kvSet s.mem.next (mc * 16 + set) (v % 65536) } }

/-- The requests held for their ticket at a controller. -/
def State.ticketed (s : State) (mc : Nat) : List AtomReq := s.mem.heldAtoms.filter fun q => s.atomMc q = mc

/-- Held requests whose ticket has come applied one after another; the first argument bounds the recursion
(spec/08_memory_system.md R277). -/
def State.drainTickets (s : State) (mc set : Nat) : Nat → State
  | 0 => s
  | k + 1 =>
    match (s.ticketed mc).find? fun q => q.set = set && q.seq = s.ticket mc set with
    | some q =>
      let s := { s with mem := { s.mem with heldAtoms := s.mem.heldAtoms.erase q } }
      ((s.atomApply q .ok).setTicket mc set (q.seq + 1)).drainTickets mc set k
    | none => s

/-- A request of an atomic acted on: refused, complete at once, applied in arrival order, or by its ticket
(spec/08_memory_system.md R275 to R277). -/
def State.atomAct (s : State) (q : AtomReq) (e : Ecc) : State :=
  let mc := s.atomMc q
  match s.atomRefusal q with
  | some c =>
    let s := if q.addr < lpEnd && s.reachAt q.addr = .ok || inRange lpEnd (lnEnd - 1) q.addr then s.memFault c q.addr
      else s.raise c (0xC00 + mc) 0 0
    s.emit (.memRefused q.agent q.addr c)
  | none =>
    if q.cnt = 0 then s.emit (.memDone q.agent q.addr)
    else if q.set = 0 then s.atomApply q e
    else if q.seq = s.ticket mc q.set then
      ((s.atomApply q e).setTicket mc q.set (q.seq + 1)).drainTickets mc q.set 32
    else if serialLater 16 q.seq (s.ticket mc q.set) then
      { s with mem := { s.mem with heldAtoms := s.mem.heldAtoms ++ [q], errs := addErr s.mem.errs (s.errKey q.addr) e } }
    else (s.memFault Code.MEM_ATOM_ORDER q.addr).emit (.memRefused q.agent q.addr Code.MEM_ATOM_ORDER)

/-- Must a request wait in the attachment: it is later than `NEXT` of its set and the ticket buffer is full
(spec/08_memory_system.md R277; log entry 109)? -/
def State.atomFull (s : State) (q : AtomReq) : Bool :=
  (s.atomRefusal q).isNone && q.cnt ≠ 0 && q.set ≠ 0 && serialLater 16 q.seq (s.ticket (s.atomMc q) q.set)
    && decide (32 ≤ (s.ticketed (s.atomMc q)).length)

/-- Requests that wait in a controller's attachment acted on in order, as far as one that must wait on; the last argument
bounds the recursion. -/
def State.pumpAtoms (s : State) (mc : Nat) : Nat → State
  | 0 => s
  | n + 1 =>
    match s.mem.atomWait.find? fun w => s.atomMc w.1 = mc with
    | some w =>
      if s.atomFull w.1 then s
      else (({ s with mem := { s.mem with atomWait := s.mem.atomWait.erase w } }).atomAct w.1 w.2).pumpAtoms mc n
    | none => s

/-- A request of an atomic taken from the attachment, or left there behind others that wait and while the ticket buffer is
full (spec/08_memory_system.md R277). -/
def State.atom (s : State) (q : AtomReq) (e : Ecc) : State :=
  let mc := s.atomMc q
  if (s.mem.atomWait.any fun w => s.atomMc w.1 = mc) || s.atomFull q then
    { s with mem := { s.mem with atomWait := s.mem.atomWait ++ [(q, e)] } }
  else (s.atomAct q e).pumpAtoms mc s.mem.atomWait.length

/-- The ticket counter of a set at a controller set to 0; requests that it now admits follow. -/
def State.zeroTicket (s : State) (mc set : Nat) : State :=
  ((s.setTicket mc set 0).drainTickets mc set 32).pumpAtoms mc s.mem.atomWait.length

/-- Every ticket counter set to 0, as a step opens (spec/08_memory_system.md R277). -/
def State.zeroTickets (s : State) : State :=
  let mcs := (s.mem.heldAtoms.map s.atomMc).dedup
  let s := { s with mem := { s.mem with next := [] } }
  mcs.foldl (fun s mc => ((List.range 16).foldl (fun s k => s.drainTickets mc k 32) s).pumpAtoms mc s.mem.atomWait.length) s

/-- `SET_RESET`: the ticket counter of a set becomes 0 at a controller (spec/08_memory_system.md Table 8.4, R275). -/
def State.setReset (s : State) (agent mc set cnt : Nat) : State :=
  if cnt ≠ 0 || decide (15 < set) then
    (s.raise Code.MEM_ATOM_RANGE (0xC00 + mc) 0 0).emit (.memRefused agent 0 Code.MEM_ATOM_RANGE)
  else if set = 0 then (s.raise Code.MEM_ATOM_CLASS (0xC00 + mc) 0 0).emit (.memRefused agent 0 Code.MEM_ATOM_CLASS)
  else (s.zeroTicket mc set).emit (.memDone agent 0)

/-! ### Requests that wait -/

/-- Does an earlier request to the same granule wait for a verdict (spec/08_memory_system.md R263, R276)? -/
def State.behind (s : State) (gran : Nat) : Bool := s.mem.heldReqs.any fun h => h.gran = gran

/-- The key of the granule of an address for the order of requests. -/
def State.orderKey (s : State) (a : Nat) : Nat := ((s.memKey a).map (· / 256)).getD (a / 256)

/-- The inputs of the generator in force: step and module id (spec/02_numerics.md R58). -/
def State.seed (s : State) : Nat × Nat := (s.get R.NUM_SR_STEP_STEP, s.modId)

/-- A request held at its controller. -/
def State.holdReq (s : State) (a : Nat) (tag : Option Nat) (i : Instr) : State :=
  { s with mem := { s.mem with heldReqs := s.mem.heldReqs ++ [{ mc := s.mcOf a, gran := s.orderKey a, tag := tag, req := i, seed := s.seed }] } }

/-- Is the page of an address in host bias (spec/11_host_interface_and_command_tape.md R355)? -/
def State.inHostBias (s : State) (a : Nat) : Bool := decide (a < lpEnd) && s.cxl.hostBias.contains (a / mib2)

/-- A request of a fabric agent that its controller takes: discarded when a verdict has squashed it, held while it is basted or an
earlier one to its granule waits, kept back while the host is asked for the lines of a page in host bias, else acted on
(spec/04_fabric_tokens_and_steering.md R137, spec/08_memory_system.md R263, R276,
spec/11_host_interface_and_command_tape.md R355). -/
def State.arrive (s : State) (a : Nat) (fate : Fate) (i : Instr) (k : State → State) : State :=
  match fate with
  | .gone => s
  | .held g => s.holdReq a (some g) i
  | .sewn =>
  if s.behind (s.orderKey a) then s.holdReq a none i
  else if s.inHostBias a then { s with cxl := { s.cxl with biasReqs := s.cxl.biasReqs ++ [⟨a, i, s.seed⟩] } }
  else k s

/-- May memory act: the controllers are out of reset and trained, and the request lies in one granule? Stores are
refused in the safe state once its entry says so (spec/15_faults_and_safe_state.md Table 15.7). -/
def State.takes (s : State) (a n : Nat) : Bool :=
  decide (0 < n) && (s.oneUnit a n || s.reach a n ≠ .ok) && !s.safe

/-- The slack of a request of an agent that gives none (spec/09_bobbin_streams.md R304). -/
def slackNone : Nat := 0xFFFF

/-- A request served by target `n` (24 is the CXL port) `wait` reference cycles after it arrived: counted when that is
after its deadline (spec/09_bobbin_streams.md R304). -/
def State.dry (s : State) (n slack wait : Nat) : State := if 16 * slack < wait then s.bump (R.DRY_LATE n) 1 else s

/-- `MEM_READ`: the data bytes of one granule; `e.wait` is how long the request waited at its controller
(spec/08_memory_system.md R263, R264, R266, spec/09_bobbin_streams.md R304). -/
def execMemRead (agent addr len : Nat) (noalloc : Bool) (e : Arrival) (s : State) : Res :=
  if s.takes addr len then
    let s := s.dry (s.mcOf addr) slackNone e.wait
    go (s.arrive addr .sewn (.memRead agent addr len noalloc e) fun s =>
      let r := s.readMem agent 0 addr len noalloc e.e
      r.1.answer agent addr r.2)
  else go s

/-- `MEM_WRITE`: a write of one granule, applied whole or refused (spec/08_memory_system.md R263 to R266,
spec/09_bobbin_streams.md R304). -/
def execMemWrite (agent addr : Nat) (bytes : List Byte) (noalloc : Bool) (basted : Option Nat) (e : Arrival)
    (s : State) : Res :=
  if s.takes addr bytes.length then
    let f := (s.dry (s.mcOf addr) slackNone e.wait).fate (0xC00 + s.mcOf addr) (fun q => !(q = 28 || q = 30)) basted
    go (f.1.arrive addr f.2 (.memWrite agent addr bytes noalloc none e) fun s =>
      let r := s.writeMem agent 0 addr bytes noalloc e.e
      r.1.answer agent addr r.2)
  else go s

/-- An atomic request at its controller (spec/08_memory_system.md R274, R276). -/
def State.atomArrive (s : State) (q : AtomReq) (basted : Option Nat) (wait : Nat) (e : Ecc) (i : Instr) : State :=
  if s.safe then s
  else
    let f := (s.dry (s.atomMc q) slackNone wait).fate (0xC00 + s.atomMc q) (fun d => d = 28) basted
    f.1.arrive q.addr f.2 i fun s => s.atom q e

/-- The payload of an atomic request, as far as a token gives it (spec/08_memory_system.md Table 8.3): `OP` reserved, a
reserved field that is not zero, or a `LEN` too short for its addends make it illegal. -/
def atomOf (agent : Nat) (pay : List Byte) (seed : Nat × Nat) : AtomReq :=
  let p0 := field pay 0 8
  let p1 := field pay 8 8
  let op := bits p0 48 4
  let cnt := bits p0 56 4
  { agent := agent, op := op, addr := bits p0 0 48, set := bits p0 52 4, cnt := cnt, seq := bits p1 0 16, salt := bits p1 16 8
    addends := bytesWords (pay.drop 16)
    illegal := !(decide (op ≤ 3) || op = 7) || bits p0 60 4 ≠ 0 || bits p1 24 40 ≠ 0 || decide (pay.length < 16 + 4 * cnt)
    seed := seed }

/-- `F32ADD` (spec/08_memory_system.md R274, Table 8.4). -/
def execF32add (agent addr set cnt seq salt : Nat) (addends : List W32) (basted : Option Nat)
    (e : Arrival) (s : State) : Res :=
  go (s.atomArrive ⟨agent, atomF32, addr, set, cnt, seq, salt, addends, false, s.seed⟩ basted e.wait e.e
    (.f32add agent addr set cnt seq salt addends none e))

/-- `PAIRADD` (spec/08_memory_system.md R274, Table 8.4). -/
def execPairadd (agent addr set cnt seq salt : Nat) (addends : List W32) (basted : Option Nat)
    (e : Arrival) (s : State) : Res :=
  go (s.atomArrive ⟨agent, atomPair, addr, set, cnt, seq, salt, addends, false, s.seed⟩ basted e.wait e.e
    (.pairadd agent addr set cnt seq salt addends none e))

/-- `BF16ADD` (spec/08_memory_system.md R274, Table 8.4). -/
def execBf16add (agent addr set cnt seq salt : Nat) (addends : List W32) (basted : Option Nat)
    (e : Arrival) (s : State) : Res :=
  go (s.atomArrive ⟨agent, atomBf16, addr, set, cnt, seq, salt, addends, false, s.seed⟩ basted e.wait e.e
    (.bf16add agent addr set cnt seq salt addends none e))

/-- `I32ADD` (spec/08_memory_system.md R274, Table 8.4). -/
def execI32add (agent addr set cnt seq salt : Nat) (addends : List W32) (basted : Option Nat)
    (e : Arrival) (s : State) : Res :=
  go (s.atomArrive ⟨agent, atomI32, addr, set, cnt, seq, salt, addends, false, s.seed⟩ basted e.wait e.e
    (.i32add agent addr set cnt seq salt addends none e))

/-- `SET_RESET` (spec/08_memory_system.md R277). -/
def execSetReset (agent mc set cnt : Nat) (s : State) : Res := if s.safe then go s else go (s.setReset agent mc set cnt)

/-- `ATOM_TICKET_DEADLINE`: a held ticketed request has waited `ATOM_DL`; the request goes on waiting
(spec/08_memory_system.md R277). `idx` counts the controller's held requests. -/
def execAtomTicketDeadline (mc idx : Nat) (s : State) : Res :=
  match (s.ticketed mc)[idx]? with
  | some q => go (s.memFault Code.MEM_ATOM_ORDER q.addr)
  | none => go s

/-! ### Scrubbing, rows and channels -/

/-- The storage granule at a position of a channel: the inverse of the interleave hash (spec/08_memory_system.md
R261). -/
def granAt (ch c : Nat) : Nat :=
  let lo := Nat.xor (ch % 32) (Nat.land (Nat.xor (Nat.xor c (c / 2 ^ 5)) (c / 2 ^ 10)) 0x1F)
  3 * (c * 32 + lo) + ch / 32

/-- Is a channel in service? -/
def State.chOk (s : State) (ch : Nat) : Bool := bit (s.get (R.MC_STATUS_CH_OK (ch / 4))) (ch % 4)

/-- `SCRUB_READ`: a channel checks its next granule. `e.arisen` lists errors that have arisen in stored granules and lining
words since, whether or not this read meets them; they wait for the access that reads them
(spec/08_memory_system.md R266, R267, R271; log entry 110). -/
def execScrubRead (chan : Nat) (e : ScrubFind) (s : State) : Res :=
  let s := { s with mem := { s.mem with errs := e.arisen.foldl (fun m x => addErr m x.1 x.2) s.mem.errs } }
  if decide (chan < 96) && s.flag (R.MC_CFG_SCRUB_EN (chan / 4)) && s.chOk chan then
    let c := kvGet 0 s.mem.scrub chan
    let s := { s with mem := { s.mem with scrub := kvSet s.mem.scrub chan ((c + 1) % 2 ^ 25) } }
    go ((s.checkRead [granAt chan c] e.e .scrub).1.bump (R.SCRUBBED (chan / 4)) 1)
  else go s

/-- A repair record appended, or `RST_REPAIR_FULL` when the region holds 4,092
(spec/14_reset_bringup_selftest.md R459). -/
def State.addRepair (s : State) (r : RepRec) : State :=
  if s.th.repairs.length < 4092 then { s with th := { s.th with repairs := s.th.repairs ++ [r] } }
  else s.raise Code.RST_REPAIR_FULL 0xC65 0 0

/-- The row count entry of a row. -/
def State.rowOf? (s : State) (ch bank row : Nat) : Option RowCount :=
  s.mem.rows.find? fun r => r.chan = ch && r.bank = bank && r.row = row

/-- `ROW_REMAP`: a row that has reached `CE_TH` goes into the remap store; `bad` lists its granules that cannot be
corrected (spec/08_memory_system.md R268). -/
def execRowRemap (chan bank row : Nat) (bad : List Nat) (s : State) : Res :=
  let mc := chan / 4
  match s.rowOf? chan bank row with
  | none => go s
  | some r =>
    if !s.flag (R.MC_CFG_REMAP_EN mc) || decide (r.count < s.get (R.MC_CFG_CE_TH mc)) then go s
    else
      let left := s.get (R.MC_STATUS_REMAP_FREE mc)
      if left = 0 then go (s.raise Code.MEM_REMAP_FULL (0xC00 + mc) chan 0)
      else
        let s := { s with mem := { s.mem with rows := s.mem.rows.erase r } }
        let mine := bad.filter fun g => chanOf g = chan && bankOf g = bank && rowOf g = row
        let s := { s with mem := { s.mem with
          remaps := s.mem.remaps ++ [r], poison := (mine ++ s.mem.poison).dedup
          errs := s.mem.errs.filter fun x => !(decide (x.1 < 2 ^ 40) && chanOf x.1 = chan && bankOf x.1 = bank
            && rowOf x.1 = row && x.2 = Ecc.corrected) } }
        let s := (s.set (R.MC_STATUS_REMAP_FREE mc) (left - 1)).bump (R.REMAPS mc) 1
        let s := s.setAll [(R.MC_LAST_REMAP_CHAN mc, chan % 4), (R.MC_LAST_REMAP_BANK mc, bank),
          (R.MC_LAST_REMAP_ROW mc, row)]
        go (s.addRepair ⟨1, 0, mc, chan % 4 * 2 ^ 30 + bank * 2 ^ 26 + row * 2 ^ 8, 0, 1⟩)

/-- `CHANNEL_FAIL`: a channel in service stops answering (spec/08_memory_system.md Table 8.9). -/
def execChannelFail (chan : Nat) (s : State) : Res :=
  if decide (chan < 96) && s.chOk chan then
    let mc := chan / 4
    go ((s.set (R.MC_STATUS_CH_OK mc) (s.get (R.MC_STATUS_CH_OK mc) - 2 ^ (chan % 4))).raise Code.MEM_CH_FAIL
      (0xC00 + mc) chan 0)
  else go s

/-! ### Classes -/

/-- `FILLING` of every controller. -/
def State.setFilling (s : State) (b : Bool) : State :=
  s.setAll ((List.range 24).map fun n => (R.MC_STATUS_FILLING n, b2n b))

/-- The part of an extent below a range, and the part above it (spec/08_memory_system.md R259). -/
def Extent.below (e : Extent) (base : Nat) : Option Extent :=
  if e.base < base then some { e with size := min e.size (base - e.base) } else none
def Extent.above (e : Extent) (hi : Nat) : Option Extent :=
  if hi < e.base + e.size then
    let b := max e.base hi
    some { e with base := b, size := e.base + e.size - b }
  else none

/-- The extent map with a range made one extent of a class (spec/08_memory_system.md R259 steps 1 to 3). -/
def reclass (l : List Extent) (base size cls : Nat) : List Extent :=
  let lo := l.filterMap fun e => e.below base
  let hi := l.filterMap fun e => e.above (base + size)
  lo ++ [⟨base, size, cls⟩] ++ hi

/-- The extents that a class command forms anew: the range, and the part of an extent above it. -/
def formed (l : List Extent) (base size cls : Nat) : List Extent :=
  ⟨base, size, cls⟩ :: l.filterMap fun e =>
    if decide (e.base < base + size) && decide (base + size < e.base + e.size) then e.above (base + size) else none

/-- The `REGION`s of the current and of the pending pattern. -/
def State.regions (s : State) : List Region := s.loader.curRegions ++ s.loader.regions

/-- Does a byte range meet data in use: a `REGION`, the spill area, a group array while `PHASE` is not idle
(spec/08_memory_system.md R260, R279)? -/
def State.inUse (s : State) (a n : Nat) : Bool :=
  overlaps a n s.spillArea.1 s.spillArea.2 || (s.regions.any fun r => overlaps a n r.base r.size)
    || (s.phase ≠ 0 && (overlaps a n (s.grpAddr 0) (256 * s.gtCount)
      || s.groupArrays.any fun g => overlaps a n g.2.1 g.2.2))

/-- Does a byte range meet a MOVE in progress or a fill still running? -/
def State.inMotion (s : State) (a n : Nat) : Bool :=
  (match s.mem.move with
    | some j => overlaps a n j.src j.len || overlaps a n j.dst j.len
    | none => false)
    || s.mem.fills.any fun f => overlaps a n (f.base * mib2) (f.size * mib2)

/-- The data of an extent filled with zeros, its granules unpoisoned, its cached lines dropped
(spec/08_memory_system.md R259 step 4). -/
def MemSys.zeroExtent (m : MemSys) (e : Extent) : MemSys :=
  let lo := e.base * mib2
  let hi := (e.base + e.size) * mib2
  { m with
    data := memZero m.data lo hi
    poison := m.poison.filter fun g => !inRange (lo / 256) (hi / 256 - 1) g
    errs := m.errs.filter fun x => !inRange (lo / 256) (hi / 256 - 1) x.1
    lines := m.lines.filter fun x => !inRange (lo / 256) (hi / 256 - 1) x.granule }

/-- The refusal of a class command, if any (spec/08_memory_system.md R260). -/
def State.classRefusal (s : State) (a size cls : Nat) : Option Nat :=
  let base := a / mib2
  if size = 0 then some Code.MEM_CLASS_ZERO
  else if a % mib2 ≠ 0 || decide (lpEnd < a + size * mib2) || decide (2 < cls) then some Code.MEM_CLASS_ARG
  else if 64 < (reclass s.mem.exts base size cls).length then some Code.MEM_CLASS_LIMIT
  else if (formed s.mem.exts base size cls).any fun e =>
      s.inUse (e.base * mib2) (e.size * mib2) || s.inMotion (e.base * mib2) (e.size * mib2) then
    some Code.MEM_CLASS_BUSY
  else none

/-- `SET_CLASS`: the class command makes a range one extent and starts the fill, or is refused. Reads see the zeros of
the fill from then on, as R259 says of granules that it has not reached (spec/08_memory_system.md R259, R260). -/
def execSetClass (tag : Nat) (s : State) : Res :=
  go (s.withCmd tag Op.CLASS fun s c =>
    let a := c.p 0 8
    let size := c.p 8 4
    let cls := c.p 12 1
    match s.classRefusal a size cls with
    | some code => s.refuse c code 0xC34 Op.CLASS (tagArg c.tag c.epoch) []
    | none =>
      let base := a / mib2
      let fs := formed s.mem.exts base size cls
      let m := fs.foldl MemSys.zeroExtent { s.mem with exts := reclass s.mem.exts base size cls }
      let job : Extent → FillJob := fun e => ⟨some (c.tag, c.epoch), e.base, e.size⟩
      { s with mem := { m with fills := m.fills ++ fs.map job } }.setFilling true)

/-- `CLASS_FILL_END`: the fill of the oldest class command ends, and the command reports completion
(spec/08_memory_system.md R259 step 5, R496). -/
def execClassFillEnd (s : State) : Res :=
  match s.mem.fills with
  | [] => go s
  | f :: _ =>
    let rest := s.mem.fills.filter fun g => g.cmd ≠ f.cmd
    let s := { s with mem := { s.mem with fills := rest } }.setFilling (!rest.isEmpty)
    match f.cmd with
    | some (tag, ep) => go (s.reply tag ep 1 0 [])
    | none => go s

/-! ### MOVE -/

/-- The host physical address of a fabric address in the host range (spec/01_module_overview.md R34). -/
def State.hostPhys (s : State) (a : Nat) : Nat := s.get R.GC_HOST_WIN_BASE * 0x1000 + (a - hostBase)

/-- Is a range wholly in the host range, and reachable (spec/01_module_overview.md R34)? -/
def State.inHost (s : State) (a n : Nat) : Bool :=
  decide (hostBase ≤ a) && decide (a + n ≤ hostEnd) && decide (s.hostPhys a + n ≤ 2 ^ 64)

/-- Is a range wholly data addresses of LPDDR5X, of any classes? -/
def dataRange (l : List Extent) : Nat → Nat → Nat → Bool
  | 0, _, n => n = 0
  | k + 1, a, n =>
    if n = 0 then true
    else
      match extOf l a with
      | none => false
      | some e =>
        if a < e.dataEnd then
          let m := min n (e.dataEnd - a)
          if m = n then true
          else if e.dataEnd = (e.base + e.size) * mib2 then dataRange l k (a + m) (n - m) else false
        else false

/-- Is a range one that a home may occupy, as far as R279 tests it: no tail, no unmapped address, no window of a lining
group that is in cache mode or off? A scratchpad window and an address of the host range beyond the reach of R34 are
mapped, and are found when they are accessed (spec/08_memory_system.md R278, R279, spec/01_module_overview.md R31). -/
def State.homeRange (s : State) (a n : Nat) : Bool :=
  if a < lpEnd then
    decide (a + n ≤ lpEnd) && dataRange s.mem.exts 65 a n
      || (decide (lpEnd < a + n) && dataRange s.mem.exts 65 a (lpEnd - a) && s.inScratch lpEnd (a + n - lpEnd))
  else if a < lnEnd then s.inScratch a n && (List.range (n / 0x100000 + 2)).all fun k =>
      let b := a / 0x100000 * 0x100000 + k * 0x100000
      decide (a + n ≤ b) || !s.lnBusy (lnGroup b).1 (lnGroup b).2
  else if a < spadEnd then decide (spadBase ≤ a) && decide (a + n ≤ spadEnd)
  else decide (hostBase ≤ a) && decide (a + n ≤ hostEnd)

/-- How many bytes from the start of a range the tape unit reaches in a MOVE: none of a scratchpad window, which debug
opcodes alone reach, and of the host range those whose translation does not overflow (spec/01_module_overview.md R31,
R33, R34). -/
def State.moveReach (s : State) (a n : Nat) : Nat :=
  if a < lnEnd then n else if a < hostBase then 0 else min n (2 ^ 64 - s.hostPhys a)

/-- Offsets at which the class of a range may change: the bounds of extents in it. -/
def classCuts (l : List Extent) (a n : Nat) : List Nat :=
  0 :: l.filterMap fun e => if inRange a (a + n - 1) (e.base * mib2) then some (e.base * mib2 - a) else none

/-- Do the classes of two ranges agree wherever both lie in LPDDR5X (spec/08_memory_system.md R279)? -/
def State.classesMatch (s : State) (a b n : Nat) : Bool :=
  (classCuts s.mem.exts a n ++ classCuts s.mem.exts b n).all fun o =>
    match clsOf s.mem.exts (a + o), clsOf s.mem.exts (b + o) with
    | some x, some y => x = y
    | _, _ => true

/-- Is a MOVE refused (spec/08_memory_system.md R279)? -/
def State.moveBad (s : State) (a b n : Nat) : Bool :=
  overlaps a n b n || s.inUse a n || s.inUse b n || !s.homeRange a n || !s.homeRange b n || !s.classesMatch a b n

/-- `MOVE`: checked, and accepted or refused; of length 0 it is complete at once. `hostData` is what the host answers
for a source in the host range (spec/08_memory_system.md R278, R279). -/
def execMove (tag : Nat) (hostData : List Byte) (s : State) : Res :=
  if s.mem.move.isSome then go s
  else
    go (s.withCmd tag Op.MOVE fun s c =>
      let a := c.p 0 8
      let b := c.p 8 8
      let n := c.p 16 8
      if n = 0 then s.done c []
      else if s.moveBad a b n then s.refuse c Code.MEM_MOVE 0xC34 Op.MOVE (tagArg c.tag c.epoch) []
      else { s with mem := { s.mem with move := some ⟨a, b, n, c.tag, c.epoch, padTo n hostData, false⟩ } })

/-- How the lines of 64 bytes that an access to host memory touches are accessed
(spec/11_host_interface_and_command_tape.md Table 11.5). -/
def busLines (mode : Nat) (wr : Bool) (a n : Nat) : List BusKind :=
  if n = 0 then []
  else
    (List.range ((a + n - 1) / 64 - a / 64 + 1)).map fun k =>
      let lo := 64 * (a / 64 + k)
      if mode = 2 then (if wr then .memWrite else .memRead)
      else if !wr then .rdCurr
      else if decide (a ≤ lo) && decide (lo + 64 ≤ a + n) then .itoMWr
      else .woWrInv

/-- Bytes written to host memory by the module, at a host physical address. -/
def State.busWrite (s : State) (a : Nat) (b : List Byte) : State :=
  { s with host := memWriteN s.host a b }.emit (.busWrite a b (busLines s.cxl.mode true a b.length))

/-- Host memory read by the module, at a host physical address. -/
def State.busRead (s : State) (a n : Nat) : State := s.emit (.busRead a n (busLines s.cxl.mode false a n))

/-- Bytes stored by a MOVE: data of LPDDR5X or lining, or host memory; the first refusal is told. -/
def State.putBytes (s : State) (a : Nat) (b : List Byte) : State × Option (Nat × Nat) :=
  if hostBase ≤ a then (s.busWrite (s.hostPhys a) b, none) else s.store a b true

/-- A MOVE ended by the fault raised last, which its reply reports. -/
def State.moveAbort (s : State) (j : MoveJob) (code : Nat) : State :=
  (s.tieLast code).reply j.tag j.epoch 3 code []

/-- A MOVE that meets an address that the tape unit does not reach, at an offset of its ranges
(spec/01_module_overview.md R31). -/
def State.moveUnmapped (s : State) (j : MoveJob) (k : Nat) : State :=
  let a := if s.moveReach j.src j.len = k then j.src + k else j.dst + k
  (s.unmapped 0xC34 0 a).moveAbort j Code.FLT_ADDR_UNMAPPED

/-- The copy of a MOVE as far as its data can be read: the first address of the source that cannot be used ends it
(spec/08_memory_system.md R266, R278). -/
def State.moveCopy (s : State) (j : MoveJob) (n : Nat) : State :=
  let c := if hostBase ≤ j.src then (s, none) else s.load j.src n true .ok
  let m := match c.2 with
    | some f => f.1 - j.src
    | none => n
  let src := if hostBase ≤ j.src then j.host else s.rdN j.src j.len
  let r : List Byte × State := if j.touched then c.1.freeBytes j.len else (src, c.1)
  let d := r.2.putBytes j.dst (r.1.take m)
  match c.2, d.2 with
  | some f, _ => d.1.moveAbort j f.2
  | none, some f => d.1.moveAbort j f.2
  | none, none =>
    if n < j.len then d.1.moveUnmapped j n
    else
      let z := if hostBase ≤ j.src then (d.1, none) else d.1.store j.src (List.replicate j.len 0) true
      match z.2 with
      | some f => z.1.moveAbort j f.2
      | none => z.1.reply j.tag j.epoch 1 0 []

/-- `MOVE_DONE`: the data are copied, the source is zeroed when it is LPDDR5X or lining, and the command reports
completion. Where another agent has touched a range, the moved data are undefined: free values (log entry 5). Data that
cannot be read, a part of a poisoned granule of the destination, and an address that the tape unit does not reach abort
the command there. The accesses to the host range count as issued now, so that they are translated by the `BASE` in force
now (DESIGN CHOICE, log entry 111; spec/08_memory_system.md R266, R278, R279, spec/01_module_overview.md R31, R34,
R39). -/
def execMoveDone (s : State) : Res :=
  match s.mem.move with
  | none => go s
  | some j =>
    let s := { s with mem := { s.mem with move := none } }
    go (s.moveCopy j (min (s.moveReach j.src j.len) (s.moveReach j.dst j.len)))

/-! ### Lining groups changing mode -/

/-- A change of mode of a group. -/
def State.lnChange (s : State) (n g : Nat) : Option LnChange := s.mem.lnChg.find? fun c => c.mc = n && c.group = g

/-- The state with a change replaced. -/
def State.setLnChange (s : State) (n g : Nat) (f : LnChange → LnChange) : State :=
  { s with mem := { s.mem with lnChg := s.mem.lnChg.map fun c => if c.mc = n && c.group = g then f c else c } }

/-- `LN_BUSY` of a group cleared. -/
def State.lnIdle (s : State) (n g : Nat) : State :=
  let v := s.get (R.MC_STATUS_LN_BUSY n)
  s.set (R.MC_STATUS_LN_BUSY n) (if bit v g then v - 2 ^ g else v)

/-- The window of a group zeroed. -/
def State.zeroGroup (s : State) (n g : Nat) : State :=
  let a := lpEnd + n * 0x400000 + g * 0x100000
  { s with mem := { s.mem with data := memZero s.mem.data a (a + 0x100000) } }

/-- The lines of a group dropped, its dirty ones having been written back. -/
def State.dropLines (s : State) (n g : Nat) : State :=
  { s with mem := { s.mem with lines := s.mem.lines.filter fun x => !(x.mc = n && x.group = g) } }

/-- A change of mode ended: the group holds what its new mode requires, and `LN_BUSY` is 0 (spec/08_memory_system.md
R273, Table 8.5 step 4). -/
def State.lnFinish (s : State) (n g : Nat) : State :=
  let s := ((s.dropLines n g).zeroGroup n g).lnIdle n g
  { s with mem := { s.mem with lnChg := s.mem.lnChg.filter fun c => !(c.mc = n && c.group = g) } }

/-- What follows once the requests accepted before have drained: a group that was in scratchpad mode and goes off is
powered down; one that was in cache mode writes its lines back (spec/08_memory_system.md Table 8.5). -/
def State.lnDrained (s : State) (n g : Nat) (c : LnChange) : State :=
  if c.new = 0 && c.old = 2 then s.lnFinish n g else s.setLnChange n g fun c => { c with drained := true }

/-- The base of the window of a lining group (spec/01_module_overview.md R32). -/
def lnBase (n g : Nat) : Nat := lpEnd + n * 0x400000 + g * 0x100000

/-- Is a held request one to a group's window? -/
def HeldReq.within (h : HeldReq) (n g : Nat) : Bool :=
  decide (h.mc = n) && inRange (lnBase n g / 256) ((lnBase n g + 0xFFFFF) / 256) h.gran

/-- Is a held request one to a group's window that was accepted before the group closed? -/
def HeldReq.before (h : HeldReq) (n g : Nat) : Bool := h.accepted && h.within n g

/-- Is a ticketed request one to a group's window? -/
def AtomReq.within (q : AtomReq) (n g : Nat) : Bool := inRange (lnBase n g) (lnBase n g + 0xFFFFF) q.addr

/-- Requests to a group's window that are held as the group closes are marked: they were accepted before
(spec/08_memory_system.md Table 8.5 steps 1 and 2). -/
def State.markAccepted (s : State) (n g : Nat) : State :=
  { s with mem := { s.mem with heldReqs := s.mem.heldReqs.map fun h =>
      { h with accepted := h.accepted || h.within n g } } }

/-- `LINING_REQUESTS_DRAINED`: every request accepted before the group closed has completed (spec/08_memory_system.md
Table 8.5 step 2). -/
def execLiningRequestsDrained (n g : Nat) (s : State) : Res :=
  match s.lnChange n g with
  | some c =>
    let left := s.mem.heldReqs.any (fun h => h.before n g) || s.mem.heldAtoms.any (fun q => q.within n g)
    if c.drained || left then go s
    else go (s.lnDrained n g c)
  | none => go s

/-- `LINING_WRITEBACK_DONE`: a group leaving cache mode has written back its dirty lines and drops its lines; one that
goes off is powered down (spec/08_memory_system.md R273, Table 8.5 steps 3 and 4). -/
def execLiningWritebackDone (n g : Nat) (s : State) : Res :=
  match s.lnChange n g with
  | some c =>
    if c.old ≠ 1 || !c.drained then go s
    else if c.new = 0 then go (s.lnFinish n g)
    else go ((s.dropLines n g).setLnChange n g fun c => { c with written := true })
  | none => go s

/-- `LINING_WRITEBACK_DEADLINE`: step 3 misses its bound (spec/08_memory_system.md R280). -/
def execLiningWritebackDeadline (n g : Nat) (s : State) : Res :=
  match s.lnChange n g with
  | some c => if c.old = 1 && !c.written then go (s.raise Code.MEM_PD_WRITEBACK (0xC00 + n) (0x100 + g) 0) else go s
  | none => go s

/-- `LINING_POWER_UP_DONE`: a group that comes on from off is powered up and filled (spec/08_memory_system.md R273). -/
def execLiningPowerUpDone (n g : Nat) (s : State) : Res :=
  match s.lnChange n g with
  | some c => if c.old = 0 then go (s.lnFinish n g) else go s
  | none => go s

/-- `LINING_MODE_CHANGE_END`: a group passes between cache mode and scratchpad mode (spec/08_memory_system.md R273). -/
def execLiningModeChangeEnd (n g : Nat) (s : State) : Res :=
  match s.lnChange n g with
  | some c => if c.old = 0 || c.new = 0 then go s else go (s.lnFinish n g)
  | none => go s

/-! ### Access to the packages -/

/-- May a write of `MC_REPAIR` act: debug access is permitted, the channel is out of service, no command runs, and the
operation is the row's (spec/08_memory_system.md R270)? -/
def State.repairOk (s : State) (n op : Nat) (v : W64) : Bool :=
  s.debugOk && !bit (s.get (R.MC_STATUS_CH_OK n)) (bits v.toNat 62 2) && s.flag (R.MC_REPAIR_ST_DONE n)
    && bits v.toNat 36 4 = op

/-- A write of `MC_REPAIR` acted on or refused (spec/08_memory_system.md R270). -/
def State.repairCmd (s : State) (n op : Nat) (v : W64) : State :=
  if s.repairOk n op v then
    { (s.set (R.MC_REPAIR_ST_DONE n) 0) with mem := { s.mem with repair := kvSet s.mem.repair n v } }
  else s.raise Code.MEM_REPAIR_LOCKED (0xC00 + n) (4 * n + bits v.toNat 62 2) 0

/-- `MODE_REGISTER_READ` (spec/08_memory_system.md R270, Table 8.7). -/
def execModeRegisterRead (n : Nat) (v : W64) (s : State) : Res := if s.safe then go s else go (s.repairCmd n 1 v)

/-- `MODE_REGISTER_WRITE` (spec/08_memory_system.md R270, Table 8.7). -/
def execModeRegisterWrite (n : Nat) (v : W64) (s : State) : Res := if s.safe then go s else go (s.repairCmd n 2 v)

/-- `HARD_PPR` (spec/08_memory_system.md R270, Table 8.7). -/
def execHardPpr (n : Nat) (v : W64) (s : State) : Res := if s.safe then go s else go (s.repairCmd n 3 v)

/-- `MC_REPAIR_DONE`: the running command ends; a mode-register read leaves the value that the package gave, a
mode-register write that succeeds changes the register (spec/08_memory_system.md Table 8.7). -/
def execMcRepairDone (n : Nat) (fail : Bool) (rv : Byte) (s : State) : Res :=
  match kvGet? s.mem.repair n with
  | none => go s
  | some v =>
    let op := bits v.toNat 36 4
    let key := (4 * n + bits v.toNat 62 2) * 256 + bits v.toNat 16 8
    let s := { s with mem := { s.mem with
      repair := kvErase s.mem.repair n
      modeRegs := if op = 2 && !fail then kvSet s.mem.modeRegs key (bits v.toNat 8 8) else s.mem.modeRegs } }
    let s := s.setAll [(R.MC_REPAIR_ST_DONE n, 1), (R.MC_REPAIR_ST_FAIL n, b2n fail)]
    if op = 1 && !fail then
      go (s.set (R.MC_REPAIR_ST_MRV n) ((kvGet? s.mem.modeRegs key).getD rv.toNat))
    else go s

end Sys2Proof.Machine
end

