-- ==== Sys2Proof/Machine/Attach.lean ====
section
/-! DEFINITION. The regions of a generation (spec/09_bobbin_streams.md R297). -/

namespace Sys2Proof.Machine

/-- The `REGION`s of a generation. -/
def State.regionsOf (s : State) (gen : Nat) : List Region :=
  if s.loader.live && s.loader.gen = gen then s.loader.regions else s.loader.curRegions

/-- Do bytes lie within one `REGION` of a generation that permits an access (spec/09_bobbin_streams.md R297)? -/
def State.permitted (s : State) (gen acc a n : Nat) : Bool :=
  (s.regionsOf gen).any fun r => bit r.access acc && decide (r.base ≤ a) && decide (a + n ≤ r.base + r.size)

end Sys2Proof.Machine
end

