-- ==== Sys2Proof/Machine/Seq.lean ====
section
/-! DEFINITION. The sequencer of a tile: issue of each instruction, stalls on rings, and the verdicts of the basting
record (spec/03_compute_tile.md R77 to R82, R87, R92, R97, R104 to R108, spec/04_fabric_tokens_and_steering.md R122 to
R124, R133 to R135, spec/05_patterns_and_reconfiguration.md R176). -/

namespace Sys2Proof.Machine

/-- The relative index of the next instruction. -/
def Tile.rel (x : Tile) : Nat :=
  if x.past then 2048 - x.base else (x.get T.TILE_STATUS_PC + 2048 - x.base) % 2048

/-- The opcode of the next instruction: `HALT` at and beyond the program's last word (spec/03_compute_tile.md R81). -/
def Tile.opcode (x : Tile) : Nat :=
  if x.past || decide (x.count ≤ x.rel) then 0 else bits (kvGet 0 x.imem (x.get T.TILE_STATUS_PC)).toNat 58 6

/-- `PC` set to a relative index; beyond word 2,047 the index is kept beside the eleven bits of `PC`
(spec/03_compute_tile.md R81). -/
def Tile.setPc (x : Tile) (r : Nat) : Tile :=
  { x with past := decide (2048 ≤ x.base + r) }.set T.TILE_STATUS_PC ((x.base + r) % 2048)

/-- May the sequencer of a tile issue an instruction of an opcode now? It is issuing or waits, no ring access of it
stalls, and the fabric runs (spec/03_compute_tile.md R77; the operands arrive decoded, log entry 12). -/
def State.fetches (s : State) (t op : Nat) : Bool :=
  let x := s.tile t
  decide (t < nTiles) && s.issues && (x.get T.TILE_STATUS_STATE = 1 || x.get T.TILE_STATUS_STATE = 3)
    && x.stall.isNone && decide (x.opcode = op)

/-- `PC` set to a relative index, once loops whose last word has been passed are taken into account: at the word after
a loop's last, the body starts again while iterations are left (spec/03_compute_tile.md R80). The first argument bounds
the recursion. -/
def Tile.goTo (x : Tile) : Nat → Nat → Tile
  | 0, r => x.setPc r
  | k + 1, r =>
    match x.loops with
    | f :: l =>
      if r = f.last + 1 then
        if 1 < f.left then ({ x with loops := { f with left := f.left - 1 } :: l } : Tile).setPc f.start
        else ({ x with loops := l } : Tile).goTo k r
      else x.setPc r
    | [] => x.setPc r

/-- The tile program issues: it waits on nothing. -/
def Tile.running (x : Tile) : Tile := ({ x with progWait := none } : Tile).set T.TILE_STATUS_STATE 1 |>.untrip .prog

/-- The sequencer goes on with the next word and issues. -/
def Tile.advance (x : Tile) : Tile := (x.goTo 5 (x.rel + 1)).running

/-- A branch: loops whose body does not hold the target are left. -/
def Tile.branch (x : Tile) (r : Nat) : Tile :=
  (({ x with loops := x.loops.filter fun f => decide (f.start ≤ r) && decide (r ≤ f.last) } : Tile).setPc r).running

/-- After an end token: on past the innermost open loop, or to the next word
(spec/04_fabric_tokens_and_steering.md R124). -/
def Tile.afterEnd (x : Tile) : Tile :=
  match x.loops with
  | f :: l => (({ x with loops := l } : Tile).goTo 5 (f.last + 1)).running
  | [] => x.advance

/-- The fetch of the next word with its check: on an uncorrectable error the word does not issue; a corrected error is
recorded (spec/03_compute_tile.md R81). The continuation acts on the state after a good fetch. -/
def State.fetch (s : State) (t : Nat) (e : Ecc) (k : State → State) : State :=
  match e with
  | .ok => k s
  | .corrected =>
    k ((s.onTile t fun x => (x.set T.TILE_STATUS_SP_CORR 1).bump T.SP_CORR_CNT 1).bump (R.SP_CORR_CNT (panelOf t)) 1
      |>.tileFault Code.TILE_SP_CORR t 0)
  | .uncorrectable => s.tileStop t Code.TILE_IMEM_UNCORR 0

/-- The tile program waits: on a queue or channel, or, for none, on the outstanding limit
(spec/03_compute_tile.md Table 3.2, spec/04_fabric_tokens_and_steering.md R121). -/
def Tile.waits (x : Tile) (w : Option Wait) : Tile := { x with progWait := w }.set T.TILE_STATUS_STATE 3

/-- The stall at 96 operations outstanding, at which nothing issues (spec/03_compute_tile.md R78): the continuation issues
below it. -/
def State.room (s : State) (t : Nat) (k : State → State) : State :=
  if (s.tile t).outstanding < 96 then k s else s.onTile t fun x => x.waits none

/-- The issue of a word: fetched, while fewer than 96 operations are outstanding (spec/03_compute_tile.md R78, R81). -/
def State.issuing (s : State) (t : Nat) (e : Ecc) (k : State → State) : State := s.fetch t e fun s => s.room t k

/-- The DL registers of a tile. -/
def Tile.dls (x : Tile) : List Nat :=
  [x.get T.TILE_DL_DL0, x.get T.TILE_DL_DL1, x.get T.TILE_DL_DL2, x.get T.TILE_DL_DL3]

/-- A DL register set (spec/03_compute_tile.md R92). -/
def Tile.setDl (x : Tile) (r v : Nat) : Tile :=
  match r with
  | 0 => x.set T.TILE_DL_DL0 v
  | 1 => x.set T.TILE_DL_DL1 v
  | 2 => x.set T.TILE_DL_DL2 v
  | _ => x.set T.TILE_DL_DL3 v

/-- ⌈L / step⌉, the count of a loop over a dynamic length. -/
def dlCount (l step : Nat) : Nat := if step = 0 then 0 else ceilDiv l step

/-! ### Instructions that are never outstanding -/

/-- `HALT`: the program ends for the current generation once nothing is outstanding (spec/03_compute_tile.md R77). -/
def execHalt (t : Nat) (e : Ecc) (s : State) : Res :=
  if s.fetches t 0x00 && !(s.tile t).halted then
    go (s.issuing t e fun s =>
      if (s.tile t).outstanding = 0 && !(s.tile t).bastes then
        s.onTile t fun x => { x.running.set T.TILE_STATUS_STATE 0 with halted := true, loops := [] }
      else s)
  else go s

/-- `NOP`: no effect (spec/03_compute_tile.md R77). -/
def execNop (t : Nat) (e : Ecc) (s : State) : Res :=
  if s.fetches t 0x01 then go (s.issuing t e fun s => s.onTile t Tile.advance) else go s

/-- The unit that performs an operation. -/
def opUnit : TileOp → TUnit
  | .tmma _ _ _ => .tensor
  | .rpub _ _ => .ring
  | .rrel _ _ => .ring
  | _ => .vector

/-- Has a named unit an operation outstanding (spec/03_compute_tile.md R78, R79, spec/09_bobbin_streams.md R307)? -/
def Tile.unitBusy (x : Tile) (u : TUnit) : Bool :=
  match u with
  | .bobbin0 => x.bob0.run
  | .bobbin1 => x.bob1.run
  | u => (x.outst.any fun o => opUnit o.op = u) || (u = .vector &&
      x.entries.any fun e => e.held.any fun h => match h with | .write _ _ => true | _ => false)

/-- `FENCE`: issue waits until the named units have nothing outstanding (spec/03_compute_tile.md R79). -/
def execFence (t : Nat) (e : Ecc) (units : List TUnit) (s : State) : Res :=
  if s.fetches t 0x02 then
    go (s.issuing t e fun s =>
      if units.any (s.tile t).unitBusy then s else s.onTile t Tile.advance)
  else go s

/-- `LOOP`: a hardware loop opens, its count fixed at issue; a count of zero skips the body (spec/03_compute_tile.md
R80). `last` is the relative index of the last word of the body. -/
def execLoop (t : Nat) (e : Ecc) (count : LoopCount) (last : Nat) (s : State) : Res :=
  if s.fetches t 0x04 then
    go (s.issuing t e fun s => s.onTile t fun x =>
      let n := match count with
        | .imm n => n
        | .dl r st => dlCount (x.dls.getD r 0) st
      if n = 0 then (x.goTo 5 (last + 1)).running
      else { x.advance with loops := ⟨x.rel + 1, last, n⟩ :: x.loops })
  else go s

/-- `JMP`: an unconditional branch (spec/03_compute_tile.md R77). -/
def execJmp (t : Nat) (e : Ecc) (target : Nat) (s : State) : Res :=
  if s.fetches t 0x06 then go (s.issuing t e fun s => s.onTile t fun x => x.branch target) else go s

/-! ### Consuming tokens -/

/-- The checkpoint that an entry saves (spec/04_fabric_tokens_and_steering.md R133). -/
def Tile.checkpoint (x : Tile) : Checkpoint :=
  ⟨x.get T.TILE_STATUS_PC, x.loops, x.dls, (List.range 32).map fun c => (x.och c).tagc⟩

/-- The head of a queue taken by the tile program: a basted token opens an entry and keeps its slot; a sewn one
consumed while an entry is open is kept with that entry; any other frees its slot
(spec/04_fabric_tokens_and_steering.md R133, R135; log entry 10). -/
def State.progTake (s : State) (t q : Nat) (k : Token) : State :=
  let x := s.tile t
  if hBasted k.hdr then
    let en : BEntry := { id := x.entSeq, chk := x.checkpoint, tok := k, q := q, owes := !(x.queue q).spill }
    s.setTile t { x.dropHead q with entries := x.entries ++ [en], entSeq := x.entSeq + 1 }
  else if x.bastes then
    s.setTile t { x.dropHead q with
      entries := mapLast (fun e => { e with taken := e.taken ++ [(q, k, !(x.queue q).spill)] }) x.entries }
  else s.consume t q

/-- What the tile program meets at the head of a queue (spec/04_fabric_tokens_and_steering.md R122 to R124, R133, R493,
spec/05_patterns_and_reconfiguration.md R176): a queue that it may not read, nothing, a hem marker, an end token, a
basted token with no free entry, or a token for the continuation. -/
def State.progHead (s : State) (t q : Nat) (ctl : Bool) (k : State → Token → State) : State :=
  let x := s.tile t
  if !qEn x.regs q || x.get (T.QCFG_CONS q) ≠ 0 || (ctl && x.get (T.QCFG_CTL q) = 0) then
    s.progFault t Code.FAB_QUEUE_OWNER q
  else
    match x.head q with
    | none => s.onTile t fun x => x.waits (some (.queue q))
    | some tk =>
      if hKind tk.hdr = kHem then s.progFault t Code.PAT_HEM_EARLY q
      else if hKind tk.hdr = kEnd then (s.progTake t q tk).onTile t Tile.afterEnd
      else if hBasted tk.hdr && decide (8 ≤ x.entries.length) then s.onTile t fun x => x.waits (some (.queue q))
      else k s tk

/-- The check of a payload as an agent of a tile reads it out of queue storage: a corrected error is recorded, for a basted
token once it is sewn; an uncorrectable one delivers nothing and stops the agent. The continuation acts on a good payload
(spec/04_fabric_tokens_and_steering.md R115, R138, R148). -/
def State.queueRead (s : State) (t q : Nat) (tk : Token) (e : Ecc) (k : State → State) : State :=
  if tk.pay.isEmpty then k s
  else
    match e with
    | .ok => k s
    | .corrected => k (s.tokFault tk Code.FAB_PAYLOAD_CORR t q false)
    | .uncorrectable => s.tileStop t Code.FAB_PAYLOAD_UNCORR q

/-- `BRCTL`: the control token at the head is consumed; the branch is taken when bit 0 of its payload is 1
(spec/04_fabric_tokens_and_steering.md R124). -/
def execBrctl (t : Nat) (e : PayCheck) (q target : Nat) (s : State) : Res :=
  if s.fetches t 0x05 then
    go (s.issuing t e.word fun s => s.progHead t q true fun s tk => s.queueRead t q tk e.pay fun s =>
      (s.progTake t q tk).onTile t fun x => if bit (payWord tk) 0 then x.branch target else x.advance)
  else go s

/-- `DLLD`: a DL register takes bits [15:0] of the control token at the head, which is consumed
(spec/03_compute_tile.md R92). -/
def execDlld (t : Nat) (e : PayCheck) (reg q : Nat) (s : State) : Res :=
  if s.fetches t 0x1E then
    go (s.issuing t e.word fun s => s.progHead t q true fun s tk => s.queueRead t q tk e.pay fun s =>
      (s.progTake t q tk).onTile t fun x => (x.setDl reg (payWord tk % 65536)).advance)
  else go s

/-- The scratchpad size in bytes, and a ring-mode bank met by a plain run of bytes (spec/03_compute_tile.md R97,
R101). -/
def spadSize : Nat := 0x40000

def Tile.meetsRing (x : Tile) (a n : Nat) : Bool :=
  decide (0 < n) && ((List.range 8).any fun b => bankRing x.regs b && overlaps (b * 0x8000) 0x8000 a n)

/-- Does a run of bytes touch a bank that is being filled (spec/03_compute_tile.md R100)? -/
def Tile.meetsFill (x : Tile) (a n : Nat) : Bool := x.filling.any fun b => overlaps (b * 0x8000) 0x8000 a n

/-- The scratchpad byte of a ring slot: position p lies in slot p mod `SLOTS` (spec/03_compute_tile.md). -/
def slotByte (rf : RegFile) (r p : Nat) : Nat :=
  64 * (ringBase rf r + p % max 1 (rfGet rf (T.RING_CFG_SLOTS r)) * rfGet rf (T.RING_CFG_SLOT_G r))

/-- The bytes of a slot. -/
def slotBytes (rf : RegFile) (r : Nat) : Nat := 64 * rfGet rf (T.RING_CFG_SLOT_G r)

/-- An access of the tile program to a ring: may be made, must stall, or breaks R106 (spec/03_compute_tile.md R105,
R106). -/
inductive RingAns where
  | ok | stall | broken
  deriving DecidableEq, Repr

/-- A ring position an offset away, in its 16 bits (spec/03_compute_tile.md "Rings"). -/
def ringPos (p off : Nat) : Nat := (p + off) % 0x10000

/-- A read of the tile program at an offset from `HEAD`. A ring that is not enabled has no consumer
(spec/03_compute_tile.md R106; log entry 114). -/
def Tile.ringRead (x : Tile) (r off : Nat) : RingAns :=
  if !ringEn x.regs r || x.get (T.RING_CFG_CONS r) ≠ 3 then .broken
  else if off < ringOcc x.regs r then .ok else .stall

/-- A write of the tile program at an offset from `TAIL`. A ring that is not enabled has no producer (log entry 114). -/
def Tile.ringWrite (x : Tile) (r off : Nat) : RingAns :=
  if !ringEn x.regs r || x.get (T.RING_CFG_PROD r) ≠ 3 then .broken
  else if (ringOcc x.regs r + off) % 0x10000 < x.get (T.RING_CFG_SLOTS r) then .ok else .stall

/-- The scratchpad bytes of a source and of a destination. -/
def Tile.srcByte (x : Tile) : VSrc → Nat
  | .spad g => 64 * g
  | .ring r off => slotByte x.regs r (ringPos (x.get (T.RING_STAT_HEAD r)) off)
  | .vec => 0
def Tile.dstByte (x : Tile) : VDst → Nat
  | .spad g => 64 * g
  | .ring r off => slotByte x.regs r (ringPos (x.get (T.RING_STAT_TAIL r)) off)
  | .vec => 0

/-- What a token that arrives for `RECV` needs of its destination: `none` when it may land, else the fault, or a wait
(spec/03_compute_tile.md R97, R101, spec/04_fabric_tokens_and_steering.md R116). -/
inductive Landing where
  | ok (a : Nat) | vec | wait | fault (code : Nat) | stall (r : Nat)
  deriving DecidableEq, Repr

def Tile.landing (x : Tile) (dst : VDst) (slot n : Nat) : Landing :=
  match dst with
  | .vec => if x.unitBusy .vector then .wait else .vec
  | .spad g =>
    let a := 64 * (g + slot)
    if spadSize < a + n then .fault Code.TILE_OPERAND_RANGE
    else if x.meetsRing a n then .fault Code.TILE_RING_ORDER
    else if x.meetsFill a n then .wait else .ok a
  | .ring r off =>
    match x.ringWrite r off with
    | .broken => .fault Code.TILE_RING_ORDER
    | .stall => .stall r
    | .ok =>
      if slotBytes x.regs r < 64 * slot + n then .fault Code.TILE_RING_ORDER
      else if x.meetsFill (x.dstByte dst + 64 * slot) n then .wait else .ok (x.dstByte dst + 64 * slot)

/-- A payload landed: written, or held while basted (spec/04_fabric_tokens_and_steering.md R134, R137). -/
def Tile.land (x : Tile) (dst : Landing) (slot : Nat) (b : List Byte) : Tile :=
  match dst with
  | .ok a => if x.bastes then x.holdLast (.write a b) else { x with spad := memWriteN x.spad a b }
  | .vec => if x.bastes then x.holdLast (.vec (64 * slot) b) else { x with vec := landVec x.vec (64 * slot) b }
  | _ => x

/-- A run-time fault of `RECV` whose cause is the token at the head: a basted token's is held with the token, which waits for
its verdict; a sewn one's is raised (spec/04_fabric_tokens_and_steering.md R134, R137). -/
def State.headFault (s : State) (t q code : Nat) (k : Token) : State :=
  if hBasted k.hdr then s.onTile t fun x => x.waits (some (.queue q)) else s.progFault t code q

/-- `RECV`: the token at the head moves to its destination granule + `SLOT`, or to the vector unit; a marker writes
nothing (spec/04_fabric_tokens_and_steering.md R116, R123, R124, spec/03_compute_tile.md R97). `pay` is what the check
of the payload in queue storage finds (R115). -/
def execRecv (t : Nat) (e pay : Ecc) (q : Nat) (dst : VDst) (s : State) : Res :=
  if s.fetches t 0x1C then
    go (s.issuing t e fun s => s.progHead t q false fun s tk =>
      let n := tk.pay.length
      if n = 0 then (s.progTake t q tk).onTile t Tile.advance
      else
        match (s.tile t).landing dst (hSlot tk.hdr) n with
        | .wait => s
        | .stall r => s.onTile t fun x => { x.set T.TILE_STATUS_STATE 2 with stall := some ⟨r, true, none⟩ }
        | .fault c => s.headFault t q c tk
        | l => s.queueRead t q tk pay fun s =>
            (s.progTake t q tk).onTile t fun x => (x.land l (hSlot tk.hdr) tk.pay).advance)
  else go s

/-- The bytes that a `SEND` reads (spec/03_compute_tile.md R97). -/
def Tile.sendBytes (x : Tile) (src : VSrc) (len : Nat) : List Byte :=
  match src with
  | .vec => slice (wordsBytes (x.vecView x.young)) 0 len
  | src => memReadN (x.view x.young) (x.srcByte src) len

/-- What a read of `n` bytes from a source meets: nothing, a wait, or a fault (spec/03_compute_tile.md R97, R100,
R101, R105). -/
def Tile.reading (x : Tile) (src : VSrc) (n : Nat) : Landing :=
  match src with
  | .vec => .vec
  | .spad g =>
    if spadSize < 64 * g + n then .fault Code.TILE_OPERAND_RANGE
    else if x.meetsRing (64 * g) n then .fault Code.TILE_RING_ORDER
    else if x.meetsFill (64 * g) n then .wait else .ok (64 * g)
  | .ring r off =>
    match x.ringRead r off with
    | .broken => .fault Code.TILE_RING_ORDER
    | .stall => .stall r
    | .ok =>
      if slotBytes x.regs r < n then .fault Code.TILE_RING_ORDER
      else if x.meetsFill (x.srcByte src) n then .wait else .ok (x.srcByte src)

/-- A corrected word of a bank of class W: the status bit, the counters and the correctable fault; the corrected word is
written back when the bank is idle (spec/03_compute_tile.md R99). -/
def State.spCorrected (s : State) (t bank : Nat) : State :=
  ((s.onTile t fun x =>
      ({ x with corrBanks := x.corrBanks ++ [bank] } : Tile).set T.TILE_STATUS_SP_CORR 1 |>.bump T.SP_CORR_CNT 1).bump
    (R.SP_CORR_CNT (panelOf t)) 1).tileFault Code.TILE_SP_CORR t bank

/-- Does a bank hold some of the bytes read? -/
def readsBank (rs : List (Nat × Nat)) (b : Nat) : Bool := rs.any fun r => overlaps (b * 0x8000) 0x8000 r.1 r.2

/-- The fault of an error met in the bytes read, if they can be read no further: by the bank's class an uncorrectable word
or a parity error, or a parity error of accumulator memory (spec/03_compute_tile.md R97, R99). -/
def Tile.readFault (x : Tile) (rs : List (Nat × Nat)) : OpErr → Option (Nat × Nat)
  | .spUncorr b => if readsBank rs b && bankW x.regs b then some (Code.TILE_SP_UNCORR, b) else none
  | .spParity b => if readsBank rs b && !bankW x.regs b then some (Code.TILE_SP_PARITY, b) else none
  | .accParity => some (Code.TILE_ACC_PARITY, 0)
  | _ => none

/-- An error met in the bytes read that a bank of class W corrects, recorded (spec/03_compute_tile.md R99). -/
def State.readCorr (s : State) (t : Nat) (rs : List (Nat × Nat)) : OpErr → State
  | .spCorr b => if readsBank rs b && bankW (s.tile t).regs b then s.spCorrected t b else s
  | _ => s

/-- `SEND`: one token on the named channel, when it holds a credit and a bucket token; basted while a record entry is
open (spec/04_fabric_tokens_and_steering.md R119, R120, R123, R134, R493). `e.err` is what the check of the scratchpad words
finds (spec/03_compute_tile.md R99). -/
def execSend (t : Nat) (e : SrcCheck) (c slot : Nat) (src : VSrc) (len : Nat) (s : State) : Res :=
  if s.fetches t 0x1D && decide (len ≤ 64) then
    go (s.issuing t e.word fun s =>
      let x := s.tile t
      if !chEn x.regs c then s.progFault t Code.FAB_CHAN_MISMATCH (0x8000 + c)
      else
        match x.reading src len with
        | .fault code => s.progFault t code c
        | .stall r => s.onTile t fun x => { x.set T.TILE_STATUS_STATE 2 with stall := some ⟨r, false, none⟩ }
        | .wait => s
        | a =>
          if src = .vec && x.unitBusy .vector then s
          else if !x.canSend c then s.onTile t fun x => x.waits (some (.och c))
          else
            let rs := match a with
              | .ok p => [(p, len)]
              | _ => []
            match if e.err = .accParity then none else x.readFault rs e.err with
            | some f => s.tileStop t f.1 f.2
            | none =>
              let kind := if x.get (T.OCH_CTL c) = 1 then kCtl else kData
              let b := x.bastes
              let held : Held := .sent c (x.get (T.OCH_DEST c)) (x.get (T.OCH_DQ c)) (x.och c).tagc
              ((s.readCorr t rs e.err).sendNew t c kind slot b (x.sendBytes src len)).onTile t fun x =>
                (if b then x.holdLast held else x).advance)
  else go s

/-! ### Issuing operations -/

/-- The first answer of ring accesses that is not `ok`. -/
def worst (l : List Landing) : Landing :=
  match l.find? fun a => match a with | .fault _ => true | _ => false with
  | some a => a
  | none =>
    match l.find? fun a => match a with | .stall _ => true | _ => false with
    | some a => a
    | none => if l.any fun a => a = .wait then .wait else .ok 0

/-- The record of what an operation takes at its issue. -/
def State.outOp (s : State) (t : Nat) (op : TileOp) : OutOp :=
  let x := s.tile t
  let rs := opRings x.regs op
  { op := op, dl := x.dls
    pos := rs.foldl (fun m r => kvSet m r (x.get (T.RING_STAT_HEAD r), x.get (T.RING_STAT_TAIL r))) []
    step := s.get R.NUM_SR_STEP_STEP, module := s.modId, ent := x.young }

/-- An operation issued: outstanding from now on. -/
def State.issue (s : State) (t : Nat) (op : TileOp) : State :=
  let o := s.outOp t op
  s.onTile t fun x => ({ x with outst := x.outst ++ [o], stall := none } : Tile).advance

/-- The ring side on which an operation stalls: is it the producer's? -/
def opStallSide (op : TileOp) (r : Nat) : Bool :=
  match op with
  | .vop _ _ _ _ d _ => (vdstRing d).contains r
  | .vcvt _ d _ _ => (vdstRing d).contains r
  | .accrd _ _ _ d => (vdstRing d).contains r
  | .rpub _ _ => true
  | _ => false

/-- Issue of an operation once its accesses have answered (spec/03_compute_tile.md R78, R97, R105): a fault, a stall on
a ring, a wait, or the issue. -/
def State.issueIf (s : State) (t : Nat) (op : TileOp) (a : Landing) : State :=
  match a with
  | .fault c => s.progFault t c (match opRings (s.tile t).regs op with | r :: _ => if c = Code.TILE_RING_ORDER then r else 0 | [] => 0)
  | .stall r => s.onTile t fun x =>
      { x.set T.TILE_STATUS_STATE 2 with stall := some ⟨r, opStallSide op r, some op⟩ }
  | .wait => s
  | _ => s.issue t op

/-- Bytes of `n` elements of `w` bits packed. -/
def packedBytes (w n : Nat) : Nat := ceilDiv (w * n) 8

/-- Bytes that a conversion of `n` values writes: the element plane with its pad elements, and the scale plane from the
next 64-byte boundary (spec/03_compute_tile.md R85, spec/02_numerics.md R47, R48). -/
def cvtBytes (d : FmtD) (n : Nat) : Nat :=
  if d.scaled then
    let nb := ceilDiv n d.block
    64 * ceilDiv (packedBytes (fmtBits d.fmt) (nb * d.block)) 64 + nb
  else packedBytes (fmtBits d.fmt) n

/-- The access of a destination of `n` bytes. -/
def Tile.writing (x : Tile) (dst : VDst) (n : Nat) : Landing :=
  match dst with
  | .vec => .vec
  | d => x.landing d 0 n

/-- An accumulator range of `n` entries (spec/03_compute_tile.md R97). -/
def accOk (m : AccMode) (base n : Nat) : Bool :=
  match m with
  | .comp => base % 2 = 0 && decide (base + 2 * n ≤ 16384)
  | _ => decide (base + n ≤ 16384)

/-- The accesses of an operation of the vector unit: its sources, its destination and its accumulator range
(spec/03_compute_tile.md R93, R97). A length of zero touches nothing. -/
def Tile.accesses (x : Tile) (op : TileOp) : Landing :=
  match op with
  | .vop k a b c d n =>
    if n = 0 then .vec
    else
      let unary := match k with
        | .sqrt | .recip | .rsqrt | .exp2 | .log2 | .exp | .ln | .tanh | .sigmoid | .erf => true
        | _ => false
      let third := match k with
        | .fma | .select => true
        | _ => false
      worst ([x.reading a (4 * n)] ++ (if unary then [] else [x.reading b (4 * n)])
        ++ (if third then [x.reading c (4 * n)] else []) ++ [x.writing d (4 * n)])
  | .vcvt a d f n => if n = 0 then .vec else worst [x.reading a (4 * n), x.writing d (cvtBytes (fmtOf f) n)]
  | .vred _ a _ n => if n = 0 then .vec else x.reading a (4 * n)
  | .accrd m base n d =>
    if !accOk m base n then .fault Code.TILE_OPERAND_RANGE else if n = 0 then .vec else x.writing d (4 * n)
  | .accinit m base n => if accOk m base n then .vec else .fault Code.TILE_OPERAND_RANGE
  | .accadd m a base n =>
    if !accOk m base n then .fault Code.TILE_OPERAND_RANGE else if n = 0 then .vec else x.reading a (4 * n)
  | _ => .vec

/-- Has an operation of the vector unit a length of zero (spec/03_compute_tile.md R93)? -/
def opEmpty : TileOp → Bool
  | .vop _ _ _ _ _ n => n = 0
  | .vcvt _ _ _ n => n = 0
  | .vred _ _ _ n => n = 0
  | .accrd _ _ n _ => n = 0
  | .accinit _ _ n => n = 0
  | .accadd _ _ _ n => n = 0
  | _ => false

/-- Issue of an operation that the basting record does not hold back; one of length zero completes at once
(spec/03_compute_tile.md R93). -/
def State.issueOp (s : State) (t : Nat) (op : TileOp) : State :=
  match (s.tile t).accesses op with
  | .fault c => s.issueIf t op (.fault c)
  | a => if opEmpty op then s.onTile t Tile.advance else s.issueIf t op a

/-- Issue of an operation that waits while a basting-record entry is open (spec/04_fabric_tokens_and_steering.md
R134). -/
def State.issueSewn (s : State) (t : Nat) (k : State → State) : State := if (s.tile t).bastes then s else k s

/-- The operands of a tensor operation with `g` groups: plane address, bytes per group, bytes of the scale plane
(spec/03_compute_tile.md R85). -/
structure Operand where
  ring : Bool
  addr : Nat
  scl : Nat
  stride : Nat
  rows : Nat
  groups : Nat
  fmt : FmtD
  deriving DecidableEq, Repr

def tdOperandA (rf : RegFile) (d : Nat) : Operand :=
  ⟨rfGet rf (T.TD_A_A_RING d) = 1, rfGet rf (T.TD_A_A_ADDR d), rfGet rf (T.TD_A_A_SCL d), rfGet rf (T.TD_A_A_GSTRIDE d),
    tdM rf d, tdF rf d, fmtOf (rfGet rf (T.TD_A_A_FMT d))⟩

def tdOperandB (rf : RegFile) (d : Nat) : Operand :=
  ⟨rfGet rf (T.TD_B_B_RING d) = 1, rfGet rf (T.TD_B_B_ADDR d), rfGet rf (T.TD_B_B_SCL d), rfGet rf (T.TD_B_B_GSTRIDE d),
    tdN rf d, if rfGet rf (T.TD_SHAPE_FOLD d) = 1 then tdF rf d else 1, fmtOf (rfGet rf (T.TD_B_B_FMT d))⟩

/-- Bytes of a row of the element plane and of the scale plane; where K is no whole number of blocks the last block of a row
holds the elements that remain (log entry 115). -/
def Operand.rowBytes (o : Operand) (k : Nat) : Nat := k * fmtBits o.fmt.fmt / 8
def Operand.rowScales (o : Operand) (k : Nat) : Nat := if o.fmt.scaled then ceilDiv k o.fmt.block else 0

/-- The scale plane's byte offset in a slot. -/
def Operand.sclOff (o : Operand) (k : Nat) : Nat := 64 * ceilDiv (o.rows * o.rowBytes k) 64

/-- The planes of an operand in plain scratchpad: address and bytes of each, over its groups (spec/03_compute_tile.md R85). -/
def Operand.plain (o : Operand) (k : Nat) : List (Nat × Nat) :=
  ((List.range o.groups).flatMap fun g =>
    [(64 * (o.addr + g * o.stride), o.rows * o.rowBytes k), (64 * (o.scl + g * o.stride), o.rows * o.rowScales k)]).filter
    fun p => decide (0 < p.2)

/-- Does an operand fit: a plain one in scratchpad, in banks of plain mode, one in a ring in a slot
(spec/03_compute_tile.md R87)? -/
def Tile.operandFits (x : Tile) (o : Operand) (k : Nat) : Bool :=
  if o.ring then
    let n := o.rows * o.rowBytes k
    let ns := o.rows * o.rowScales k
    decide ((if ns = 0 then n else o.sclOff k + ns) ≤ slotBytes x.regs (o.addr % 16))
  else (o.plain k).all fun p => decide (p.1 + p.2 ≤ spadSize) && !x.meetsRing p.1 p.2

/-- The accesses of one operand of a tensor operation that fits (spec/03_compute_tile.md R100, R105). -/
def Tile.operandAccess (x : Tile) (o : Operand) (k off : Nat) : Landing :=
  if o.ring then
    match x.ringRead (o.addr % 16) (off + o.groups - 1) with
    | .broken => .fault Code.TILE_RING_ORDER
    | .stall => .stall (o.addr % 16)
    | .ok => .ok 0
  else if (o.plain k).any fun p => x.meetsFill p.1 p.2 then .wait else .ok 0

/-- The accesses of a tensor operation: both operands must fit before either is accessed (spec/03_compute_tile.md R87). -/
def Tile.tdAccess (x : Tile) (d a b : Nat) : Landing :=
  let k := tdK x.regs d
  let oa := tdOperandA x.regs d
  let ob := tdOperandB x.regs d
  if x.operandFits oa k && x.operandFits ob k then worst [x.operandAccess oa k a, x.operandAccess ob k b]
  else .fault Code.TILE_OPERAND_RANGE

/-- `TMMA`: the descriptor and its operands checked, the operation issued (spec/03_compute_tile.md R87). -/
def execTmma (t : Nat) (e : Ecc) (d a b : Nat) (s : State) : Res :=
  if s.fetches t 0x08 then
    go (s.issuing t e fun s => s.issueSewn t fun s =>
      let x := s.tile t
      if tdUnused x.regs d then
        (s.raiseAs .run false Code.TILE_SHAPE_ZERO t 0 (x.get T.TILE_STATUS_PC)).onTile t Tile.stopped
      else
        s.issueIf t (.tmma d a b) (x.tdAccess d a b))
  else go s

/-- `VOP`: vector arithmetic issued (spec/03_compute_tile.md R94). -/
def execVop (t : Nat) (e : Ecc) (k : VKind) (a b c : VSrc) (dst : VDst) (n : Nat) (s : State) : Res :=
  if s.fetches t 0x10 then go (s.issuing t e fun s => s.issueOp t (.vop k a b c dst n)) else go s

/-- `VCVT`: a conversion issued (spec/03_compute_tile.md R95). A word with a descriptor that may not be written with passes
no load (spec/02_numerics.md R44, R46), so none is executed. -/
def execVcvt (t : Nat) (e : Ecc) (src : VSrc) (dst : VDst) (fmt n : Nat) (s : State) : Res :=
  if s.fetches t 0x11 && (fmtCheck true fmt).isNone then go (s.issuing t e fun s => s.issueOp t (.vcvt src dst fmt n)) else go s

/-- `VRED`: a reduction issued (spec/02_numerics.md R67). -/
def execVred (t : Nat) (e : Ecc) (mx : Bool) (src : VSrc) (idx n : Nat) (s : State) : Res :=
  if s.fetches t 0x12 then go (s.issuing t e fun s => s.issueOp t (.vred mx src idx n)) else go s

/-- `ACCRD`: a read-out of accumulator entries issued (spec/03_compute_tile.md R96, R97). -/
def execAccrd (t : Nat) (e : Ecc) (m : AccMode) (base n : Nat) (dst : VDst) (s : State) : Res :=
  if s.fetches t 0x14 then go (s.issuing t e fun s => s.issueOp t (.accrd m base n dst)) else go s

/-- `ACCINIT`: an initialisation of accumulator entries issued (spec/03_compute_tile.md R96, R97). -/
def execAccinit (t : Nat) (e : Ecc) (m : AccMode) (base n : Nat) (s : State) : Res :=
  if s.fetches t 0x15 then
    go (s.issuing t e fun s => s.issueSewn t fun s => s.issueOp t (.accinit m base n))
  else go s

/-- `ACCADD`: an addition into accumulator entries issued (spec/03_compute_tile.md R96, R97). -/
def execAccadd (t : Nat) (e : Ecc) (m : AccMode) (src : VSrc) (base n : Nat) (s : State) : Res :=
  if s.fetches t 0x16 then
    go (s.issuing t e fun s => s.issueSewn t fun s => s.issueOp t (.accadd m src base n))
  else go s

/-- The agents of a ring for the tile program: `RPUB` by the producer, `RREL` by the consumer (spec/03_compute_tile.md
R106). -/
def Tile.ownsRing (x : Tile) (r : Nat) (prod : Bool) : Bool :=
  ringEn x.regs r && decide ((if prod then x.get (T.RING_CFG_PROD r) else x.get (T.RING_CFG_CONS r)) = 3)

/-- `RPUB`: a publication issued; of no slots it completes at once (spec/03_compute_tile.md R105, R106). -/
def execRpub (t : Nat) (e : Ecc) (r k : Nat) (s : State) : Res :=
  if s.fetches t 0x18 then
    go (s.issuing t e fun s => s.issueSewn t fun s =>
      if k = 0 then s.onTile t Tile.advance
      else if (s.tile t).ownsRing r true then s.issue t (.rpub r k) else s.tileStop t Code.TILE_RING_ORDER (0x8000 + r))
  else go s

/-- `RREL`: a release issued; of no slots it completes at once (spec/03_compute_tile.md R105, R106). -/
def execRrel (t : Nat) (e : Ecc) (r k : Nat) (s : State) : Res :=
  if s.fetches t 0x19 then
    go (s.issuing t e fun s => s.issueSewn t fun s =>
      if k = 0 then s.onTile t Tile.advance
      else if (s.tile t).ownsRing r false then s.issue t (.rrel r k) else s.tileStop t Code.TILE_RING_ORDER r)
  else go s

/-- `BOBGO`: a bobbin program of a named entry starts under the next epoch; the sequencer waits while the bobbin runs or
that epoch is quarantined, and starts none while inputs are stopped (spec/09_bobbin_streams.md R305, R307, Table 9.7). -/
def execBobgo (t : Nat) (e : Ecc) (b entry : Nat) (s : State) : Res :=
  if s.fetches t 0x1F && decide (b < 2) && decide (entry < 8) then
    go (s.issuing t e fun s => s.issueSewn t fun s =>
      let x := s.tile t
      let en := bits (x.get T.BOB_ENTRY_ENTRIES) (8 * entry) 8
      let v := x.bob b
      let ep := (x.get (T.BOB_STAT_EPOCH b) + 1) % 16
      if !bit en 7 || !bobEn x.regs b then
        s.raise Code.BOB_ENTRY t b (x.get (T.BOB_STAT_EPOCH b)) |>.onTile t Tile.stopped
      else if s.unpick.stopped || v.run || v.quar.any fun p => p.1 = ep then s.onTile t fun x => x.waits none
      else s.onTile t fun x =>
        let pos := match bobRing x.regs b with
          | some r => (x.get (T.RING_STAT_TAIL r), x.get (T.RING_STAT_HEAD r))
          | none => (0, 0)
        let v' : Bob := { run := true, fill := pos.1, drain := pos.2, quar := v.quar }
        let y := (x.setBob b v').set (T.BOB_STAT_EPOCH b) ep
        let y := (y.set (T.BOB_STAT_PC b) (x.bobBase + en % 128)).set (T.BOB_STAT_PROG b) entry
        (y.set (T.BOB_STAT_STATE b) 1).advance)
  else go s

/-! ### Stalled ring accesses -/

/-- May the accesses of a stalled operation be made now (spec/03_compute_tile.md R107)? -/
def State.retry (s : State) (t : Nat) (op : TileOp) : Landing :=
  match op with
  | .tmma d a b => (s.tile t).tdAccess d a b
  | op => (s.tile t).accesses op

/-- Panel cycles in which some ring access of a tile stalled, counted (spec/03_compute_tile.md Table 3.9). The command that
ends a stall says how many there were since the tile's last such command, so that a cycle in which two accesses stall is
counted once. -/
def State.stalledCycles (s : State) (t n : Nat) : State :=
  (s.onTile t fun x => x.bump T.RING_STALL n).bump (R.RING_STALL (panelOf t)) n

/-- `RING_ACCESS_RESUME`: a stalled access goes on once the slot that it waits for is there (spec/03_compute_tile.md
R107). -/
def execRingAccessResume (t : Nat) (agent : TAgent) (cycles : Nat) (s : State) : Res :=
  if !s.issues then go s
  else
    match agent with
    | .prog =>
      match (s.tile t).stall with
      | some ⟨_, _, some op⟩ =>
        match s.retry t op with
        | .stall _ => go s
        | .wait => go s
        | a => go (((s.stalledCycles t cycles).onTile t fun x => { x with stall := none }).issueIf t op a)
      | some ⟨_, _, none⟩ =>
        go ((s.stalledCycles t cycles).onTile t fun x => { x.running with stall := none })
      | none => go s
    | .bob b =>
      if ((s.tile t).bob b).stalled then
        go ((s.stalledCycles t cycles).onTile t fun x =>
          ((x.setBob b { x.bob b with stalled := false }).set (T.BOB_STAT_STATE b) 1).untrip (.bob b))
      else go s
    | _ => go s

/-- Does a stall on a ring count: not in a FLUSH, and one of a reader, on an empty ring, not in any drain
(spec/06_progress_deadlock_drain.md R196)? -/
def State.stallCounts (s : State) (prod : Bool) : Bool := s.issues && s.drain ≠ 2 && (prod || s.drain = 0)

/-- `TILE_RING_STALL`: a stalled access reaches its deadline; the fault names the ring and the side, and the access
stops (spec/03_compute_tile.md R108). -/
def execTileRingStall (t : Nat) (w : RingWait) (s : State) : Res :=
  let x := s.tile t
  match w.agent with
  | .prog =>
    match x.stall with
    | some q =>
      if s.stallCounts q.prod then
        go ((s.stalledCycles t w.cycles).tileStop t Code.TILE_RING_STALL (q.ring + (if q.prod then 0x8000 else 0)))
      else go s
    | none => go s
  | .bob b =>
    if (x.bob b).stalled && s.stallCounts (bobProd x.regs b) then
      go (((s.stalledCycles t w.cycles).abortStream t b).tileStop t Code.TILE_RING_STALL
        (x.get (T.BOB_CFG_RING b) + (if bobProd x.regs b then 0x8000 else 0)))
    else go s
  | _ => go s

/-! ### Verdicts of the basting record -/

/-- `BASTE_SEW`: the entry with an index, counted from the oldest, receives its sew verdict, and closes once every older one
has (spec/04_fabric_tokens_and_steering.md R135). -/
def execBasteSew (b : BasteAt) (s : State) : Res :=
  match (s.tile b.tile).entries[b.idx]? with
  | some e => if e.verdict.isNone then go (s.verdictAt b.tile e.q (hTag e.tok.hdr) true) else go s
  | none => go s

/-- `BASTE_SQUASH`: an entry receives a squash verdict (spec/04_fabric_tokens_and_steering.md R135). `idx` counts open
entries from the oldest. -/
def execBasteSquash (t idx : Nat) (s : State) : Res :=
  match (s.tile t).entries[idx]? with
  | some e => if e.verdict.isNone then go (s.verdictAt t e.q (hTag e.tok.hdr) false) else go s
  | none => go s

end Sys2Proof.Machine
end

