-- ==== Sys2Proof/Machine/Special.lean ====
section
/-! DEFINITION. The special functions of the vector unit: their special cases, and elsewhere a free value held inside the
error bounds (spec/02_numerics.md R69, Table 2.7; log entry 7). The exact value is enclosed by fixed-point arithmetic far
finer than any bound. -/

namespace Sys2Proof.Machine

/-- The special functions of spec/02_numerics.md Table 2.7. -/
inductive SpecFn where
  | recip | rsqrt | exp2 | log2 | exp | ln | tanh | sigmoid | erf
  deriving DecidableEq, Repr

def SpecFn.code : SpecFn → Nat
  | .recip => 0 | .rsqrt => 1 | .exp2 => 2 | .log2 => 3 | .exp => 4 | .ln => 5 | .tanh => 6 | .sigmoid => 7 | .erf => 8

/-! ### Fixed-point values: an integer v stands for v / 2^200 -/

/-- The number one. -/
def fxOne : Int := 2 ^ 200

/-- A product and a quotient. -/
def fxMul (a b : Int) : Int := a * b / fxOne
def fxDiv (a b : Int) : Int := a * fxOne / b

/-- A finite value. -/
def fxOf (n : Bool) (m : Nat) (e : Int) : Int :=
  let v : Int := if 0 ≤ e + 200 then (m : Int) * 2 ^ (e + 200).toNat else (m : Int) / 2 ^ (-(e + 200)).toNat
  if n then -v else v

/-- The exponential series from a term on: `t` is the term of index `n`. -/
def fxExpSum (r : Int) : Nat → Int → Int → Int
  | 0, _, _ => 0
  | k + 1, n, t => t + fxExpSum r k (n + 1) (fxMul t r / (n + 1))

/-- The series of the inverse hyperbolic tangent: `t` is an odd power, `n` its exponent. -/
def fxAtanhSum (z2 : Int) : Nat → Int → Int → Int
  | 0, _, _ => 0
  | k + 1, n, t => t / n + fxAtanhSum z2 k (n + 2) (fxMul t z2)

/-- The series of the error function without its factor: `t` is (-1)^n x^(2n+1) / n!. -/
def fxErfSum (x2 : Int) : Nat → Int → Int → Int
  | 0, _, _ => 0
  | k + 1, n, t => t / (2 * n + 1) + fxErfSum x2 k (n + 1) (-(fxMul t x2) / (n + 1))

/-- Twice the inverse hyperbolic tangent. -/
def fxAtanh2 (z : Int) : Int := 2 * fxAtanhSum (fxMul z z) 72 1 z

/-- ln 2. -/
def fxLn2 : Int := fxAtanh2 (fxOne / 3)

/-- The arc tangent of 1 / n, by its series. -/
def fxAtanInv (n : Int) : Nat → Int → Int → Int
  | 0, _, _ => 0
  | k + 1, j, t => t / j - fxAtanInv n k (j + 2) (t / (n * n))

/-- The square root of pi, by Machin's formula. -/
def fxSqrtPi : Int :=
  let pi := 16 * fxAtanInv 5 90 1 (fxOne / 5) - 4 * fxAtanInv 239 40 1 (fxOne / 239)
  isqrtAux 256 (pi.toNat * 2 ^ 200) 0

/-- A positive real close to `m * 2 ^ e`, or its negative; `m` may be zero. -/
structure Dy where
  m : Int
  e : Int
  deriving DecidableEq, Repr

/-- e to the power of a fixed-point number that is not large. -/
def dyExp (x : Int) : Dy :=
  let k := x / fxLn2
  ⟨fxExpSum (x - k * fxLn2) 60 0 fxOne, k - 200⟩

/-- The natural logarithm of `m * 2 ^ e`, in fixed point. -/
def fxLn (m : Nat) (e : Int) : Int :=
  let l := m.log2
  let y : Int := (m : Int) * fxOne / 2 ^ l
  ((l : Int) + e) * fxLn2 + fxAtanh2 (fxDiv (y - fxOne) (y + fxOne))

/-- A value held to a range in which the functions that saturate have reached their limit in every bound. -/
def fxClamp (x : Int) : Int := max (-(400 * fxOne)) (min (400 * fxOne) x)

/-- The function at a finite operand to far more digits than binary32 has; the operand is in the function's domain. -/
def SpecFn.near (f : SpecFn) (n : Bool) (m : Nat) (e : Int) : Dy :=
  let x := fxClamp (fxOf n m e)
  let sgn (v : Int) : Int := if n then -v else v
  match f with
  | .recip => ⟨sgn (2 ^ 200 / (m : Int)), -200 - e⟩
  | .rsqrt =>
    let odd := e % 2 = 1
    let v := m * 2 ^ (if odd then 1 else 0)
    let e' := (if odd then e - 1 else e) / 2
    ⟨2 ^ 200 / (isqrtAux 140 (v * 2 ^ 200) 0 : Int), -100 - e'⟩
  | .exp2 => dyExp (fxMul x fxLn2)
  | .exp => dyExp x
  | .log2 => ⟨fxDiv (fxLn m e) fxLn2, -200⟩
  | .ln => ⟨fxLn m e, -200⟩
  | .sigmoid =>
    let q := dyExp (-x)
    if 0 ≤ q.e then ⟨0, -200⟩ else ⟨fxDiv fxOne (fxOne + fxOf false q.m.toNat q.e), -200⟩
  | .tanh =>
    let q := dyExp (-(2 * if x < 0 then -x else x))
    let u := fxOf false q.m.toNat q.e
    ⟨sgn (fxDiv (fxOne - u) (fxOne + u)), -200⟩
  | .erf =>
    let y := if x < 0 then -x else x
    ⟨sgn (if 8 * fxOne ≤ y then fxOne else fxDiv (2 * fxErfSum (fxMul y y) 320 0 y) fxSqrtPi), -200⟩

/-- A real close to a value rounded to binary32. -/
def Dy.round (d : Dy) : W32 := toF32 (ofMant false d.m d.e)

/-- A value as a real; an infinity stands at the first power of two beyond the range. -/
def f32Dy (a : W32) : Dy :=
  match f32v a with
  | .fin n m e => ⟨if n then -(m : Int) else m, e⟩
  | .inf n => ⟨if n then -1 else 1, 128⟩
  | .nan => ⟨0, 0⟩

/-- Does a word lie within `k` units in the last place of a real, or, for a small real where `abs` is given, within 2^-24?
-/
def Dy.within (d : Dy) (k : Nat) (abs : Bool) (a : W32) : Bool :=
  let r := f32Dy a
  let lo := min (min d.e r.e) (-400)
  let dv := d.m * 2 ^ (d.e - lo).toNat
  let diff := (dv - r.m * 2 ^ (r.e - lo).toNat).natAbs
  let ulp := fp32.spacing d.m.natAbs d.e
  decide (diff ≤ k * 2 ^ (ulp - lo).toNat)
    || (abs && decide (dv.natAbs < 2 ^ (-23 - lo).toNat) && decide (diff ≤ 2 ^ (-24 - lo).toNat))

/-- The largest error in units in the last place, and whether the absolute bound applies (spec/02_numerics.md
Table 2.7). -/
def SpecFn.bound : SpecFn → Nat × Bool
  | .recip => (1, false)
  | .rsqrt => (1, false)
  | .exp2 => (2, false)
  | .log2 => (2, false)
  | .exp => (3, false)
  | .ln => (3, false)
  | .tanh => (4, true)
  | .sigmoid => (4, true)
  | .erf => (4, true)

/-- A result that the spec bounds and does not give: a free value where it meets the bound, else the nearest value
(log entry 7). -/
def SpecFn.free (f : SpecFn) (a : W32) (n : Bool) (m : Nat) (e : Int) : W32 :=
  let d := f.near n m e
  let v := Config.specialFn f.code a
  if !isNan v && d.within f.bound.1 f.bound.2 v then v else d.round

/-- The limit of a function at an infinity, and its value at a zero where Table 2.7 gives it (spec/02_numerics.md
Table 2.7; log entry 7). -/
def SpecFn.atInf (f : SpecFn) (n : Bool) : W32 :=
  match f with
  | .recip => 0
  | .rsqrt => if n then qnan else 0
  | .exp2 => if n then 0 else 0x7F800000
  | .exp => if n then 0 else 0x7F800000
  | .log2 => if n then qnan else 0x7F800000
  | .ln => if n then qnan else 0x7F800000
  | .tanh => if n then 0xBF800000 else 0x3F800000
  | .erf => if n then 0xBF800000 else 0x3F800000
  | .sigmoid => if n then 0 else 0x3F800000

/-- At operands so large that the exact value is nearer to its limit than to any other value, the limit is reached
exactly; 20 and 128 lie beyond that point. -/
def SpecFn.saturates (f : SpecFn) (n : Bool) (m : Nat) (e : Int) : Bool :=
  let big (b : Int) : Bool := decide (b * fxOne ≤ fxClamp (fxOf false m e))
  match f with
  | .tanh => big 20
  | .erf => big 20
  | .sigmoid => if n then big 128 else big 20
  | _ => false

/-- A special function (spec/02_numerics.md R69, Table 2.7). -/
def specialFn (f : SpecFn) (a : W32) : W32 :=
  match f32v a with
  | .nan => qnan
  | .inf n => f.atInf n
  | .fin n m e =>
    if f.saturates n m e then f.atInf n
    else
      match f with
      | .recip => if m = 0 then (if n then 0xFF800000 else 0x7F800000) else f.free a n m e
      | .rsqrt => if m = 0 then (if n then 0xFF800000 else 0x7F800000) else if n then qnan else f.free a n m e
      | .log2 => if m = 0 then 0xFF800000 else if n then qnan else f.free a n m e
      | .ln => if m = 0 then 0xFF800000 else if n then qnan else f.free a n m e
      | _ => f.free a n m e

end Sys2Proof.Machine
end

