-- ==== Sys2Proof/Machine/TileUnits.lean ====
section
/-! DEFINITION. The tensor unit, the vector unit, accumulator access and ring publication: what an outstanding operation
does when it completes (spec/03_compute_tile.md R79, R84 to R92, R94 to R100, R105, R106, spec/02_numerics.md R50 to
R69). -/

namespace Sys2Proof.Machine

/-! ### Reading and writing -/

/-- The position of a ring's `HEAD`, and of its `TAIL`, that an operation took at its issue. -/
def OutOp.head (o : OutOp) (r : Nat) : Nat := (kvGet (0, 0) o.pos r).1
def OutOp.tail (o : OutOp) (r : Nat) : Nat := (kvGet (0, 0) o.pos r).2

/-- The binary32 words of a source. -/
def Tile.vread (x : Tile) (o : OutOp) (src : VSrc) (n : Nat) : List W32 :=
  let rd (a : Nat) : List W32 := bytesWords (memReadN (x.view o.ent) a (4 * n))
  match src with
  | .spad g => rd (64 * g)
  | .ring r off => rd (slotByte x.regs r (ringPos (o.head r) off))
  | .vec =>
    let v := x.vecView o.ent
    (v ++ List.replicate (n - v.length) 0).take n

/-- The entry under which an operation issued, while it is open. -/
def Tile.openEnt (x : Tile) (o : OutOp) : Option Nat :=
  match o.ent with
  | some i => if x.entries.any fun e => e.id = i then some i else none
  | none => none

/-- A result put into scratchpad, or held by the entry under which the operation issued while that entry is open
(spec/04_fabric_tokens_and_steering.md R134, spec/03_compute_tile.md R98). -/
def Tile.store (x : Tile) (o : OutOp) (a : Nat) (b : List Byte) : Tile :=
  match x.openEnt o with
  | some i => x.holdAt i (.write a b)
  | none => { x with spad := memWriteN x.spad a b }

/-- A result put at a destination; lanes of the vector unit beyond it stay (spec/03_compute_tile.md R93). -/
def Tile.vwrite (x : Tile) (o : OutOp) (dst : VDst) (b : List Byte) : Tile :=
  match dst with
  | .spad g => x.store o (64 * g) b
  | .ring r off => x.store o (slotByte x.regs r (ringPos (o.tail r) off)) b
  | .vec =>
    match x.openEnt o with
    | some i => x.holdAt i (.vec 0 b)
    | none => { x with vec := landVec x.vec 0 b }

/-- The pair of a reduction put into the vector unit, or held (spec/04_fabric_tokens_and_steering.md R134). -/
def Tile.putRed (x : Tile) (o : OutOp) (p : IdxPair) : Tile :=
  match x.openEnt o with
  | some i => x.holdAt i (.vred p)
  | none => { x with vred := p }

/-- Counter increments of an operation: applied, or held with its entry (spec/02_numerics.md R73). -/
def State.opCnt (s : State) (t : Nat) (o : OutOp) (c : Cnt) : State :=
  match (s.tile t).openEnt o with
  | some i => s.onTile t fun x => x.holdAt i (.count c)
  | none => s.tileCnt t c

/-! ### Accumulators -/

/-- A word of the accumulator memory. -/
def Tile.accW (x : Tile) (a : Nat) : W32 := kvGet 0 x.acc a

/-- The tile with an accumulator word written. -/
def Tile.setAcc (x : Tile) (a : Nat) (w : W32) : Tile := { x with acc := kvSet x.acc a w }

/-- The tile with an INT32 flag written. -/
def Tile.setSat (x : Tile) (a : Nat) (b : Bool) : Tile := { x with accSat := kvSet x.accSat a b }

/-- The word of entry j of a range. -/
def accAt (m : AccMode) (base j : Nat) : Nat :=
  match m with
  | .comp => base + 2 * j
  | _ => base + j

/-- An entry initialised (spec/03_compute_tile.md R96). -/
def Tile.accInit (x : Tile) (m : AccMode) (a : Nat) : Tile :=
  match m with
  | .comp => (x.setAcc a 0).setAcc (a + 1) 0
  | .plain => x.setAcc a 0
  | .int => (x.setAcc a 0).setSat a false

/-- A binary32 addend added to an entry (spec/02_numerics.md R63, spec/03_compute_tile.md R96). -/
def Tile.accAddF (x : Tile) (m : AccMode) (a : Nat) (v : W32) : Tile :=
  match m with
  | .comp =>
    let p := cadd ⟨x.accW a, x.accW (a + 1)⟩ v
    (x.setAcc a p.s).setAcc (a + 1) p.c
  | _ => x.setAcc a (fadd (x.accW a) v)

/-- An integer added to an INT32 entry with saturation (spec/02_numerics.md R66). -/
def Tile.accAddI (x : Tile) (a : Nat) (v : Int) : Tile :=
  let r := satAdd32 (x.accW a).toInt v
  let x := x.setAcc a (BitVec.ofInt 32 r.1)
  if r.2 then x.setSat a true else x

/-- The mode that a descriptor's field names. -/
def accModeOf (n : Nat) : AccMode := if n = 0 then .comp else if n = 1 then .plain else .int

/-! ### The tensor unit -/

/-- The byte of a fold group's element plane, and of its scale plane (spec/03_compute_tile.md R85). -/
def Operand.planes (o : Operand) (rf : RegFile) (head off k g : Nat) : Nat × Nat :=
  if o.ring then
    let b := slotByte rf (o.addr % 16) (ringPos head (off + g))
    (b, b + o.sclOff k)
  else (64 * (o.addr + g * o.stride), 64 * (o.scl + g * o.stride))

/-- The codes of a row, and the scale byte of each element. -/
def Operand.row (o : Operand) (m : Memory) (pl : Nat × Nat) (k r : Nat) : List (Nat × Nat) :=
  let codes := unpackCodes (fmtBits o.fmt.fmt) k (memReadN m (pl.1 + r * o.rowBytes k) (o.rowBytes k))
  let scales := memReadN m (pl.2 + r * o.rowScales k) (o.rowScales k)
  codes.zipIdx.map fun c => (c.1, ((scales[c.2 / o.fmt.block]?).map BitVec.toNat).getD 0)

/-- The values of a row. -/
def Operand.rowVals (o : Operand) (m : Memory) (pl : Nat × Nat) (k r : Nat) : List Fv :=
  (o.row m pl k r).map fun c => elemValue o.fmt.fmt c.2 c.1

/-- The integers of a row of INT8 elements. -/
def Operand.rowInts (o : Operand) (m : Memory) (pl : Nat × Nat) (k r : Nat) : List Int :=
  (o.row m pl k r).map fun c => elemInt 8 c.1

/-- The dynamic length of a tensor operation: the dimension it masks and the length, as taken at issue
(spec/03_compute_tile.md R89). -/
def tdMask (rf : RegFile) (d : Nat) (dl : List Nat) (dim size : Nat) : Nat :=
  if rfGet rf (T.TD_SHAPE_DL_DIM d) = dim then min size (dl.getD (rfGet rf (T.TD_SHAPE_DL_SEL d)) 0) else size

/-- The dot groups of one output added into its entry in increasing order of k; products at or beyond `lk` are left
out, and a group with no product adds nothing (spec/03_compute_tile.md R84, R90). -/
def dotGroupsF (x : Tile) (m : AccMode) (a lk : Nat) (ra rb : List Fv) : Nat → Nat → Tile
  | 0, _ => x
  | j + 1, k0 =>
    let ps := ((ra.zip rb).drop k0).take (min 32 (lk - k0))
    let x := if ps.isEmpty then x else x.accAddF m a (dotF32 ps)
    dotGroupsF x m a lk ra rb j (k0 + 32)

def dotGroupsI (x : Tile) (a lk : Nat) (ra rb : List Int) : Nat → Nat → Tile
  | 0, _ => x
  | j + 1, k0 =>
    let ps := ((ra.zip rb).drop k0).take (min 32 (lk - k0))
    let x := if ps.isEmpty then x else x.accAddI a (dotInt ps)
    dotGroupsI x a lk ra rb j (k0 + 32)

/-- The tensor operation of a descriptor (spec/03_compute_tile.md R84 to R91): entries initialised where `INIT` says,
then every dot group of every output that the dynamic length leaves. Output (m, n) of group g is entry g × M × N +
m × N + n (log entry 13). -/
def Tile.tensor (x : Tile) (o : OutOp) (d offA offB : Nat) : Tile :=
  let rf := x.regs
  let a := tdOperandA rf d
  let b := tdOperandB rf d
  let m := tdM rf d
  let n := tdN rf d
  let k := tdK rf d
  let f := tdF rf d
  let mode := accModeOf (rfGet rf (T.TD_SHAPE_ACC_MODE d))
  let base := rfGet rf (T.TD_SHAPE_ACC_BASE d)
  let x := if rfGet rf (T.TD_SHAPE_INIT d) = 1 then
      (List.range (m * n * f)).foldl (fun x j => x.accInit mode (accAt mode base j)) x
    else x
  let lm := tdMask rf d o.dl 1 m
  let ln := tdMask rf d o.dl 2 n
  let lk := tdMask rf d o.dl 3 k
  let mem := x.spad
  (List.range f).foldl (fun x g =>
    let pa := a.planes rf (o.head (a.addr % 16)) offA k g
    let pb := b.planes rf (o.head (b.addr % 16)) offB k (if b.groups = 1 then 0 else g)
    (List.range lm).foldl (fun x i =>
      (List.range ln).foldl (fun x j =>
        let e := accAt mode base (g * m * n + i * n + j)
        match mode with
        | .int => dotGroupsI x e lk (a.rowInts mem pa k i) (b.rowInts mem pb k j) (k / 32) 0
        | _ => dotGroupsF x mode e lk (a.rowVals mem pa k i) (b.rowVals mem pb k j) (k / 32) 0) x) x) x

/-- Fragments of a tensor operation that run, and that are skipped (spec/03_compute_tile.md R88, R89, R91). -/
def tdFragments (rf : RegFile) (d : Nat) (dl : List Nat) : Nat × Nat :=
  let nf := (pairNf (fmtOf (rfGet rf (T.TD_A_A_FMT d))).fmt (fmtOf (rfGet rf (T.TD_B_B_FMT d))).fmt
    (rfGet rf (T.TD_SHAPE_ACC_MODE d))).getD 1
  let cnt (dim size w : Nat) : Nat := ceilDiv (tdMask rf d dl dim size) w
  let total := tdF rf d * (tdM rf d / 4) * (tdN rf d / nf) * (tdK rf d / 32)
  let run := tdF rf d * cnt 1 (tdM rf d) 4 * cnt 2 (tdN rf d) nf * cnt 3 (tdK rf d) 32
  (run, total - run)

/-! ### The vector unit -/

/-- A comparison under the order of R67; with a NaN it is false (spec/02_numerics.md R67; log entry 9). -/
def vcmp (c : CmpOp) (a b : W32) : Bool :=
  if isNan a || isNan b then false
  else
    match c with
    | .eq => decide (orderKey a = orderKey b)
    | .lt => decide (orderKey a < orderKey b)
    | .le => decide (orderKey a ≤ orderKey b)

/-- One lane (spec/02_numerics.md R68, R69, spec/03_compute_tile.md R94). -/
def vlane (k : VKind) (a b c : W32) : W32 :=
  match k with
  | .add => fadd a b
  | .sub => fsub a b
  | .mul => fmul a b
  | .fma => ffma a b c
  | .div => fdiv a b
  | .sqrt => fsqrt a
  | .max => fmaxmin true a b
  | .min => fmaxmin false a b
  | .cmp o => Config.cmpWord (vcmp o a b)
  | .select => canon (if Config.selects c then a else b)
  | .recip => specialFn .recip a
  | .rsqrt => specialFn .rsqrt a
  | .exp2 => specialFn .exp2 a
  | .log2 => specialFn .log2 a
  | .exp => specialFn .exp a
  | .ln => specialFn .ln a
  | .tanh => specialFn .tanh a
  | .sigmoid => specialFn .sigmoid a
  | .erf => specialFn .erf a

/-- The bytes of a converted row: its element plane, and for a block-scaled format its scale plane from the next
64-byte boundary (spec/03_compute_tile.md R85, R95, spec/02_numerics.md R47, R48). -/
def cvtRow (d : FmtD) (sd : Seed) (ws : List W32) : List Byte × Cnt :=
  let r := convRow d sd ws
  let plane := packCodes (fmtBits d.fmt) r.2.1
  if d.scaled then
    (padTo (64 * ceilDiv plane.length 64) plane ++ r.1.map (BitVec.ofNat 8), r.2.2)
  else (plane, r.2.2)

/-- The read-out of an entry, and whether a saturation is counted (spec/02_numerics.md R64, R66). -/
def Tile.accRead (x : Tile) (m : AccMode) (a : Nat) : W32 × Bool :=
  match m with
  | .comp => (cread ⟨x.accW a, x.accW (a + 1)⟩, false)
  | .plain => (x.accW a, false)
  | .int => (x.accW a, kvGet false x.accSat a)

/-! ### Completion -/

/-- The accumulator words that an operation touches: first and count (spec/03_compute_tile.md R79). -/
def opAcc (rf : RegFile) : TileOp → Nat × Nat
  | .tmma d _ _ => (rfGet rf (T.TD_SHAPE_ACC_BASE d),
      tdM rf d * tdN rf d * tdF rf d * accWords (rfGet rf (T.TD_SHAPE_ACC_MODE d)))
  | .accrd m b n _ => (b, n * (match m with | .comp => 2 | _ => 1))
  | .accinit m b n => (b, n * (match m with | .comp => 2 | _ => 1))
  | .accadd m _ b n => (b, n * (match m with | .comp => 2 | _ => 1))
  | _ => (0, 0)

/-- The operand of a vector operation's sources: one, two or three. -/
def vopSources (k : VKind) (a b c : VSrc) : List VSrc :=
  match k with
  | .fma | .select => [a, b, c]
  | .sqrt | .recip | .rsqrt | .exp2 | .log2 | .exp | .ln | .tanh | .sigmoid | .erf => [a]
  | _ => [a, b]

/-- The scratchpad bytes of a source, and of a destination, of an operation that has issued. -/
def OutOp.srcSpan (o : OutOp) (rf : RegFile) (n : Nat) : VSrc → List (Nat × Nat)
  | .spad g => [(64 * g, n)]
  | .ring r off => [(slotByte rf r (ringPos (o.head r) off), n)]
  | .vec => []
def OutOp.dstSpan (o : OutOp) (rf : RegFile) (n : Nat) : VDst → List (Nat × Nat)
  | .spad g => [(64 * g, n)]
  | .ring r off => [(slotByte rf r (ringPos (o.tail r) off), n)]
  | .vec => []

/-- The scratchpad bytes of a tensor operand, over its groups (spec/03_compute_tile.md R85). -/
def Operand.spans (o : Operand) (rf : RegFile) (head off k : Nat) : List (Nat × Nat) :=
  (List.range o.groups).flatMap fun g =>
    let p := o.planes rf head off k g
    [(p.1, o.rows * o.rowBytes k), (p.2, o.rows * o.rowScales k)]

/-- The scratchpad bytes that an operation reads. -/
def OutOp.reads (o : OutOp) (rf : RegFile) : List (Nat × Nat) :=
  match o.op with
  | .tmma d a b =>
    let oa := tdOperandA rf d
    let ob := tdOperandB rf d
    oa.spans rf (o.head (oa.addr % 16)) a (tdK rf d) ++ ob.spans rf (o.head (ob.addr % 16)) b (tdK rf d)
  | .vop k a b c _ n => (vopSources k a b c).flatMap (o.srcSpan rf (4 * n))
  | .vcvt a _ _ n => o.srcSpan rf (4 * n) a
  | .vred _ a _ n => o.srcSpan rf (4 * n) a
  | .accadd _ a _ n => o.srcSpan rf (4 * n) a
  | _ => []

/-- The scratchpad bytes that an operation writes. -/
def OutOp.writes (o : OutOp) (rf : RegFile) : List (Nat × Nat) :=
  match o.op with
  | .vop _ _ _ _ d n => o.dstSpan rf (4 * n) d
  | .vcvt _ d f n => o.dstSpan rf (cvtBytes (fmtOf f) n) d
  | .accrd _ _ n d => o.dstSpan rf (4 * n) d
  | _ => []

/-- The ring positions that an operation writes as producer. -/
def OutOp.putsAt (o : OutOp) (r : Nat) : List Nat :=
  let at_ : VDst → List Nat
    | .ring q off => if q = r then [ringPos (o.tail r) off] else []
    | _ => []
  match o.op with
  | .vop _ _ _ _ d _ => at_ d
  | .vcvt _ d _ _ => at_ d
  | .accrd _ _ _ d => at_ d
  | _ => []

/-- May an outstanding operation complete: none issued before it is of its unit or touches its accumulator entries, a
publication has none before it that writes into the slots it publishes, and no bank that it accesses is being filled
(spec/03_compute_tile.md R79, R100, R105). -/
def Tile.mayComplete (x : Tile) (idx : Nat) (o : OutOp) : Bool :=
  let before := x.outst.take idx
  let a := opAcc x.regs o.op
  !(before.any fun p => opUnit p.op = opUnit o.op
    || (let b := opAcc x.regs p.op; decide (0 < a.2) && decide (0 < b.2) && overlaps a.1 a.2 b.1 b.2)
    || (match o.op with
        | .rpub r k => (p.putsAt r).any fun q =>
            decide ((q + 0x10000 - x.get (T.RING_STAT_TAIL r)) % 0x10000 < k)
        | _ => false))
  && !(o.reads x.regs ++ o.writes x.regs).any fun p => x.meetsFill p.1 p.2

/-- What an operation does (spec/03_compute_tile.md R84 to R96, R105, R106). `VCVT` names no shard and no first element, so
it converts with shard 0 and elements counted from 0 (spec/02_numerics.md R58; log entry 116). -/
def State.perform (s : State) (t : Nat) (o : OutOp) : State :=
  let x := s.tile t
  match o.op with
  | .tmma d a b =>
    let fr := tdFragments x.regs d o.dl
    let s := s.setTile t (((x.tensor o d a b).bump T.FRAG_EXEC fr.1).bump T.FRAG_SKIP fr.2)
    (s.bump (R.FRAG_EXEC (panelOf t)) fr.1).bump (R.FRAG_SKIP (panelOf t)) fr.2
  | .vop k a b c d n =>
    if n = 0 then s
    else
      let va := x.vread o a n
      let vb := x.vread o b n
      let vc := x.vread o c n
      s.setTile t (x.vwrite o d (wordsBytes ((List.range n).map fun i =>
        vlane k (va.getD i 0) (vb.getD i 0) (vc.getD i 0))))
  | .vcvt a d f n =>
    if n = 0 then s
    else
      let r := cvtRow (fmtOf f) ⟨o.step, o.module, 0, 0⟩ (x.vread o a n)
      (s.setTile t (x.vwrite o d r.1)).opCnt t o r.2
  | .vred mx a idx n =>
    if n = 0 then s
    else
      let vs := x.vread o a n
      s.setTile t (x.putRed o (reduceIdx mx (vs.zipIdx.map fun p => (p.1, BitVec.ofNat 32 (idx + p.2)))))
  | .accrd m base n d =>
    if n = 0 then s
    else
      let rs := (List.range n).map fun j => x.accRead m (accAt m base j)
      (s.setTile t (x.vwrite o d (wordsBytes (rs.map Prod.fst)))).opCnt t o
        { isat := (rs.filter Prod.snd).length }
  | .accinit m base n => s.setTile t ((List.range n).foldl (fun x j => x.accInit m (accAt m base j)) x)
  | .accadd m a base n =>
    let vs := x.vread o a n
    s.setTile t ((List.range n).foldl (fun x j =>
      match m with
      | .int => x.accAddI (accAt m base j) (vs.getD j 0).toInt
      | m => x.accAddF m (accAt m base j) (vs.getD j 0)) x)
  | .rpub r k =>
    if x.get (T.RING_CFG_SLOTS r) < ringOcc x.regs r + k then s.tileStop t Code.TILE_RING_ORDER (0x8000 + r)
    else s.setTile t ((x.set (T.RING_STAT_TAIL r) (x.get (T.RING_STAT_TAIL r) + k)).untripOn (.ring r false))
  | .rrel r k =>
    if ringOcc x.regs r < k then s.tileStop t Code.TILE_RING_ORDER r
    else s.setTile t ((x.set (T.RING_STAT_HEAD r) (x.get (T.RING_STAT_HEAD r) + k)).untripOn (.ring r true))

/-- `OP_COMPLETE`: an outstanding operation takes effect and is no longer outstanding; an uncorrectable error stops it
without its result (spec/03_compute_tile.md R78, R79, R97, R99). -/
def execOpComplete (t idx : Nat) (err : OpErr) (s : State) : Res :=
  let x := s.tile t
  match x.outst[idx]? with
  | none => go s
  | some o =>
    if !s.issues || !x.mayComplete idx o then go s
    else
      let s := s.setTile t { x with outst := x.outst.eraseIdx idx }
      let rs := o.reads x.regs
      match if err = .accParity && (opAcc x.regs o.op).2 = 0 then none else x.readFault rs err with
      | some f => go (s.tileStop t f.1 f.2)
      | none => go ((s.readCorr t rs err).perform t o)

/-- `SP_CORR_WRITEBACK`: a corrected word goes back into its bank, whose data are the delivered data already
(spec/03_compute_tile.md R99). -/
def execSpCorrWriteback (t bank : Nat) (s : State) : Res :=
  if (s.tile t).corrBanks.contains bank then go (s.onTile t fun x => { x with corrBanks := x.corrBanks.erase bank })
  else go s

end Sys2Proof.Machine
end

