-- ==== Sys2Proof/Machine/Bobbin.lean ====
section
/-! DEFINITION. Bobbins: their programs, requests, responses, and abort; and what a target does with a request
(spec/09_bobbin_streams.md R286 to R310). -/

namespace Sys2Proof.Machine

/-! ### Fetch -/

/-- A bobbin's program counter. -/
def Tile.bpc (x : Tile) (b : Nat) : Nat := x.get (T.BOB_STAT_PC b)

/-- The word at an absolute index of the store; beyond the program it is `END` (spec/09_bobbin_streams.md R287). -/
def Tile.bword (x : Tile) (pc : Nat) : Nat :=
  if x.bobBase ≤ pc ∧ pc < x.bobBase + x.bobCount then (kvGet 0 x.bobWords pc).toNat else 0

/-- May a bobbin execute an instruction of an opcode now: it runs, no ring access of it stalls, and the fabric runs
(spec/09_bobbin_streams.md R288)? -/
def State.bobRuns (s : State) (t b op : Nat) : Bool :=
  let x := s.tile t
  decide (t < nTiles) && decide (b < 2) && s.issues && (x.bob b).run && !(x.bob b).stalled
    && bits (x.bword (x.bpc b)) 58 6 = op

/-- `STATE` of a bobbin; while it runs or is idle it waits on nothing. -/
def Tile.setBobState (x : Tile) (b v : Nat) : Tile :=
  let y := x.set (T.BOB_STAT_STATE b) v
  if v ≤ 1 then y.untrip (.bob b) else y

/-- The bobbin goes on with a word. -/
def Tile.bgoto (x : Tile) (b pc : Nat) : Tile := (x.set (T.BOB_STAT_PC b) pc).setBobState b 1

/-- The bobbin goes on with the next word; a transfer in progress has ended. -/
def Tile.bnext (x : Tile) (b : Nat) : Tile := (x.setBob b { x.bob b with prog := 0, seed := none }).bgoto b (x.bpc b + 1)

/-- A bobbin changed. -/
def Tile.onBob (x : Tile) (b : Nat) (f : Bob → Bob) : Tile := x.setBob b (f (x.bob b))

/-- The word after the `ENDL` that closes `d` levels, from a word on; the first argument bounds the recursion
(spec/09_bobbin_streams.md R290, R291). -/
def Tile.afterEndl (x : Tile) : Nat → Nat → Nat → Nat
  | 0, pc, _ => pc
  | k + 1, pc, d =>
    let op := bits (x.bword pc) 58 6
    if op = 0x02 then (if d ≤ 1 then pc + 1 else x.afterEndl k (pc + 1) (d - 1))
    else if op = 0x01 then x.afterEndl k (pc + 1) (d + 1)
    else x.afterEndl k (pc + 1) d

/-- The number of request indices in use shown in `OUTST`. -/
def Tile.bobOutst (x : Tile) (b : Nat) : Tile := x.set (T.BOB_STAT_OUTST b) (x.bob b).reqs.length

/-! ### Abort -/

/-- A fault that a bobbin raises at run time: its stream is aborted, and its tile stops
(spec/09_bobbin_streams.md R306, R311, spec/15_faults_and_safe_state.md Table 15.3). -/
def State.bobFault (s : State) (t b code ridx : Nat) : State :=
  let ep := (s.tile t).get (T.BOB_STAT_EPOCH b)
  ((s.abortStream t b).raise code t b (ep % 16 + ridx % 8 * 16)).onTile t Tile.stopped

/-- A ring fault of a bobbin (spec/09_bobbin_streams.md R293, R294, spec/03_compute_tile.md R106). -/
def State.bobRingFault (s : State) (t b sub : Nat) : State :=
  (s.abortStream t b).tileStop t Code.TILE_RING_ORDER sub

/-! ### Loops, addresses, waits -/

/-- A signed field. -/
def signed (v w : Nat) : Int := if bit v (w - 1) then (v : Int) - 2 ^ w else v

/-- An address register plus a signed amount, modulo 2^48 (spec/09_bobbin_streams.md R288). -/
def addrAdd (a : Nat) (d : Int) : Nat := (((a : Int) + d) % 2 ^ 48).toNat

/-- `END`: once every request has completed and every slot is published, the program ends and its epoch is free
(spec/09_bobbin_streams.md R288, R305). -/
def execBobEnd (t b : Nat) (s : State) : Res :=
  if s.bobRuns t b 0x00 then
    let x := s.tile t
    let v := x.bob b
    if v.reqs.isEmpty && v.pubs = 0 then
      go (s.setTile t ((x.setBob b { v with run := false, loops := [], prog := 0 }).setBobState b 0))
    else go (s.setTile t (x.setBobState b 5))
  else go s

/-- `LOOP`: the count is fixed, the address registers are saved; a count of 0 skips to the word after the matching
`ENDL` (spec/09_bobbin_streams.md R290). -/
def execBobLoop (t b : Nat) (s : State) : Res :=
  if s.bobRuns t b 0x01 then
    let x := s.tile t
    let w := x.bword (x.bpc b)
    let n := if bit w 57 then dlCount (x.dls.getD (bits w 55 2) 0) (bits w 39 16) else bits w 39 16
    if n = 0 then go (s.setTile t (x.bgoto b (x.afterEndl 128 (x.bpc b + 1) 1)))
    else
      let v := x.bob b
      let l : BobLoop := ⟨x.bpc b + 1, n, 0, signed (bits w 19 20) 20, signed (bits w 0 19) 19, v.a0, v.a1⟩
      go (s.setTile t ((x.onBob b fun v => { v with loops := l :: v.loops }).bnext b))
  else go s

/-- `ENDL`: another iteration with the strides added, or the end of the loop with the saved registers restored
(spec/09_bobbin_streams.md R290). -/
def execEndl (t b : Nat) (s : State) : Res :=
  if s.bobRuns t b 0x02 then
    let x := s.tile t
    let v := x.bob b
    match v.loops with
    | [] => go (s.setTile t (x.bnext b))
    | l :: ls =>
      if 1 < l.left then
        go (s.setTile t ((x.setBob b { v with
          a0 := addrAdd v.a0 (l.s0 * 16), a1 := addrAdd v.a1 (l.s1 * 16)
          loops := { l with left := l.left - 1, index := l.index + 1 } :: ls }).bgoto b l.start))
      else go (s.setTile t ((x.setBob b { v with a0 := l.a0, a1 := l.a1, loops := ls }).bnext b))
  else go s

/-- `SKIPDL`: the loop `LVL` levels out ends, with every loop inside it, once its index times `UNIT` reaches the dynamic
length (spec/09_bobbin_streams.md R291). -/
def execSkipdl (t b : Nat) (s : State) : Res :=
  if s.bobRuns t b 0x03 then
    let x := s.tile t
    let v := x.bob b
    let w := x.bword (x.bpc b)
    let lvl := bits w 55 3
    match v.loops[lvl]? with
    | some l =>
      if x.dls.getD (bits w 53 2) 0 ≤ l.index * bits w 37 16 then
        let pc := x.afterEndl 128 (x.bpc b + 1) (lvl + 1)
        go (s.setTile t ((x.setBob b { v with a0 := l.a0, a1 := l.a1, loops := v.loops.drop (lvl + 1) }).bgoto b pc))
      else go (s.setTile t (x.bnext b))
    | none => go (s.setTile t (x.bnext b))
  else go s

/-- An address register set. -/
def Bob.setA (v : Bob) (ar : Bool) (a : Nat) : Bob := if ar then { v with a1 := a } else { v with a0 := a }
def Bob.getA (v : Bob) (ar : Bool) : Nat := if ar then v.a1 else v.a0

/-- `SETA` (spec/09_bobbin_streams.md Table 9.3). -/
def execSeta (t b : Nat) (s : State) : Res :=
  if s.bobRuns t b 0x04 then
    let x := s.tile t
    let w := x.bword (x.bpc b)
    go (s.setTile t ((x.onBob b fun v => v.setA (bit w 57) (bits w 0 48)).bnext b))
  else go s

/-- `ADDA` (spec/09_bobbin_streams.md Table 9.3). -/
def execAdda (t b : Nat) (s : State) : Res :=
  if s.bobRuns t b 0x05 then
    let x := s.tile t
    let w := x.bword (x.bpc b)
    go (s.setTile t ((x.onBob b fun v => v.setA (bit w 57) ((v.getA (bit w 57) + bits w 0 48) % 2 ^ 48)).bnext b))
  else go s

/-- `SETI` (spec/09_bobbin_streams.md Table 9.3). -/
def execSeti (t b : Nat) (s : State) : Res :=
  if s.bobRuns t b 0x06 then
    let x := s.tile t
    go (s.setTile t ((x.onBob b fun v => { v with ei := bits (x.bword (x.bpc b)) 0 48 }).bnext b))
  else go s

/-- `WAIT`: every request has completed (spec/09_bobbin_streams.md Table 9.3). -/
def execWait (t b : Nat) (s : State) : Res :=
  if s.bobRuns t b 0x0F then
    let x := s.tile t
    if (x.bob b).reqs.isEmpty then go (s.setTile t (x.bnext b)) else go (s.setTile t (x.setBobState b 3))
  else go s

/-- `EMIT`: one token, once the channel holds a credit and a bucket token (spec/09_bobbin_streams.md R298). -/
def execEmit (t b : Nat) (s : State) : Res :=
  if s.bobRuns t b 0x0E then
    let x := s.tile t
    let w := x.bword (x.bpc b)
    let c := bits w 53 5
    if x.canSend c then
      let s := match bits w 51 2 with
        | 0 => s.sendNew t c kEnd 0 false []
        | 1 => s.sendNew t c kCtl 0 false (leBytes 8 (bits w 0 32))
        | _ => s.sendNew t c kCtl 0 false
            (leBytes 8 ((((x.bob b).loops[bits w 48 3]?).map BobLoop.index).getD 0 % 2 ^ 32))
      go (s.onTile t fun x => x.bnext b)
    else go (s.setTile t (x.setBobState b 4))
  else go s

/-! ### Rings -/

/-- The ring of a bobbin. -/
def Tile.bring (x : Tile) (b : Nat) : Nat := x.get (T.BOB_CFG_RING b)

/-- The slots put forward for publication published in order, each once no write into it is outstanding; the first
argument bounds the recursion (spec/09_bobbin_streams.md R293). -/
def Tile.publish (x : Tile) (b : Nat) : Nat → Tile
  | 0 => x
  | k + 1 =>
    let r := x.bring b
    let tail := x.get (T.RING_STAT_TAIL r)
    if 0 < (x.bob b).pubs && !((x.bob b).reqs.any fun q => !q.wr && q.pos = some tail) then
      ((((x.set (T.RING_STAT_TAIL r) (tail + 1)).untripOn (.ring r false)).onBob b fun v =>
        { v with pubs := v.pubs - 1 })).publish b k
    else x

/-- Is a bobbin the agent that its ring names for a side: the producer, or the consumer? Its accesses, publications and
releases break R106 otherwise (spec/03_compute_tile.md R106; a ring not enabled names none, log entry 114). -/
def Tile.bobOwns (x : Tile) (b : Nat) (prod : Bool) : Bool :=
  ringEn x.regs (x.bring b) && (if prod then bobProd x.regs b else bobCons x.regs b)

/-- `PUB`: the fill position advances at once, and the slots are published as their writes complete
(spec/09_bobbin_streams.md R292, R293, spec/03_compute_tile.md R106). -/
def execPub (t b : Nat) (s : State) : Res :=
  if s.bobRuns t b 0x0C then
    let x := s.tile t
    let k := bits (x.bword (x.bpc b)) 0 16
    let r := x.bring b
    let ahead := ((x.bob b).fill + 0x10000 - x.get (T.RING_STAT_HEAD r)) % 0x10000
    if k ≠ 0 && (!x.bobOwns b true || decide (x.get (T.RING_CFG_SLOTS r) < ahead + k)) then go (s.bobRingFault t b (0x8000 + r))
    else
      let y := x.onBob b fun v => { v with fill := (v.fill + k) % 0x10000, pubs := v.pubs + k }
      go (s.setTile t ((y.publish b k).bnext b))
  else go s

/-- `REL`: the drain position advances and the slots, whose data have been read, are released
(spec/09_bobbin_streams.md R292, R294, spec/03_compute_tile.md R106). -/
def execRel (t b : Nat) (s : State) : Res :=
  if s.bobRuns t b 0x0D then
    let x := s.tile t
    let k := bits (x.bword (x.bpc b)) 0 16
    let r := x.bring b
    if k = 0 then go (s.setTile t (x.bnext b))
    else if !x.bobOwns b false || decide (ringOcc x.regs r < k) then go (s.bobRingFault t b r)
    else
      let y := x.onBob b fun v => { v with drain := (v.drain + k) % 0x10000 }
      go (s.setTile t (((y.set (T.RING_STAT_HEAD r) (x.get (T.RING_STAT_HEAD r) + k)).untripOn (.ring r true)).bnext b))
  else go s

/-! ### Requests -/

/-- The bytes from an address to the end of its request unit, and the target (spec/09_bobbin_streams.md Table 9.4); none
where no unit lies. -/
def State.reqUnit (s : State) (a : Nat) : Option (Nat × Nat) :=
  if a < lpEnd then
    match storOf s.mem.exts a, extOf s.mem.exts a with
    | some k, some e => some (min (dataPer e.cls - k % 256) (e.dataEnd - a), 0xC00 + mcOfGran (k / 256))
    | _, _ => none
  else if a < lnEnd then some (256 - a % 256, 0xC00 + (lnGroup a).1)
  else if s.inHost a 1 then some (256 - s.hostPhys a % 256, 0xC30)
  else none

/-- The lowest free request index (spec/09_bobbin_streams.md R299). -/
def Bob.freeIdx (v : Bob) : Option Nat := (List.range 8).find? fun i => !(v.reqs.any fun q => q.ridx = i)

/-- The slack of a load into a ring position (spec/09_bobbin_streams.md R303). -/
def State.slack (s : State) (t b : Nat) (pos : Option Nat) : Nat :=
  let x := s.tile t
  match pos with
  | none => x.get (T.BOB_CFG_WSLACK b)
  | some p =>
    let d := (p + 0x10000 - x.get (T.RING_STAT_HEAD (x.bring b))) % 0x10000
    min 0xFFFF (d * x.get (T.BOB_CFG_DRAIN b) * 100 / (25 * s.get (R.PNL_CFG_FSET (panelOf t))) / 16)

/-- One part of a transfer: where its bytes lie in fabric addresses and in scratchpad, and for a store the bytes. -/
structure Seg where
  addr : Nat
  spad : Nat
  len : Nat
  data : List Byte
  deriving DecidableEq, Repr

/-- A transfer instruction as it runs: load or store, its parts in order, the ring position it loads into, the
no-allocate flag. -/
structure Xfer where
  wr : Bool
  segs : List Seg
  pos : Option Nat
  noalloc : Bool
  deriving DecidableEq, Repr

/-- The part of a transfer that holds its byte at an offset, and the offset in that part. -/
def segAt : List Seg → Nat → Option (Seg × Nat)
  | [], _ => none
  | g :: l, o => if o < g.len then some (g, o) else segAt l (o - g.len)

/-- The header of a request token: no channel of the tile sends it, so its tag is 0. -/
def Tile.reqHdr (x : Tile) (t b target dq len : Nat) : W64 :=
  mkHdr ⟨target, dq, x.gen, 0, kData, false, x.get (T.BOB_CFG_VC b), len, panelOf t, 0⟩

/-- The tokens of a request: the request and, for a store, its data 64 bytes a token (spec/09_bobbin_streams.md R299,
Table 9.5). -/
def Tile.reqToks (x : Tile) (t b target : Nat) (p0 p1 : Nat) (data : List Byte) : List Token :=
  ⟨x.reqHdr t b target 24 16, leBytes 8 p0 ++ leBytes 8 p1⟩ ::
    (List.range (ceilDiv data.length 64)).map fun k =>
      let d := (data.drop (64 * k)).take 64
      ⟨x.reqHdr t b target 24 d.length, d⟩

/-- One request of a transfer issued with a free index; the host physical address of one to the host range is formed now
(spec/09_bobbin_streams.md R296, R299, Table 9.5, spec/01_module_overview.md R34, R39). -/
def State.issueReq (s : State) (t b idx : Nat) (f : Xfer) (g : Seg) (o n target : Nat) : State :=
  let x := s.tile t
  let a := g.addr + o
  let data := (g.data.drop o).take n
  let p0 := a % 2 ^ 48 + b2n f.wr * 2 ^ 48 + b2n f.noalloc * 2 ^ 49 + (n - 1) * 2 ^ 50
  let p1 := s.slack t b (if f.wr then none else f.pos) + (t * 2 + b) * 2 ^ 16
    + x.get (T.BOB_STAT_EPOCH b) * 2 ^ 29 + idx * 2 ^ 33
  let toks := x.reqToks t b target p0 p1 (if f.wr then data else [])
  let left := if f.wr then [0] else List.range (ceilDiv n 64)
  let r : BobReq := ⟨idx, f.wr, target, a, n, g.spad + o, f.pos, left, if target = 0xC30 then s.hostPhys a else 0⟩
  let y := x.onBob b fun v => { v with reqs := v.reqs ++ [r], prog := v.prog + n }
  (s.setTile t ((y.bump (T.BOB_REQ b) 1).bobOutst b)).injectAll t toks

/-- A transfer carried on: requests are issued in order while indices are free, and none once a warm reset has asked the
bobbins to go idle; an attempt that meets no free index stands for a panel cycle of the wait (log entry 117). The last
argument bounds the recursion (spec/09_bobbin_streams.md R296 to R299, spec/14_reset_bringup_selftest.md Table 14.4). -/
def State.carry (s : State) (t b : Nat) (f : Xfer) : Nat → State
  | 0 => s
  | k + 1 =>
    let x := s.tile t
    match segAt f.segs (x.bob b).prog with
    | none => s.onTile t fun x => x.bnext b
    | some (g, o) =>
      if s.idled then s else
      match (x.bob b).freeIdx with
      | none => s.onTile t fun x => (x.bump (T.BOB_FULL b) 1).setBobState b 3
      | some i =>
        match s.reqUnit (g.addr + o) with
        | none =>
          if s.permitted x.gen (b2n f.wr) (g.addr + o) 1 then
            (s.unmapped t b (g.addr + o)).bobFault t b Code.BOB_ABORTED i
          else s.bobFault t b Code.BOB_REGION i
        | some (m, target) =>
          let n := min (min m (g.len - o)) 256
          if s.permitted x.gen (b2n f.wr) (g.addr + o) n then (s.issueReq t b i f g o n target).carry t b f k
          else s.bobFault t b Code.BOB_REGION i

/-- A bobbin that waits on its ring (spec/09_bobbin_streams.md R293, R294). -/
def Tile.bstall (x : Tile) (b : Nat) : Tile := (x.onBob b fun v => { v with stalled := true }).setBobState b 2

/-- A ring position relative to a counter. -/
def ringDiff (p c : Nat) : Nat := (p + 0x10000 - c) % 0x10000

/-- `LDR`: a load into the producer ring (spec/09_bobbin_streams.md R292, R293, R295, spec/03_compute_tile.md R106). -/
def execLdr (t b : Nat) (s : State) : Res :=
  if s.bobRuns t b 0x08 then
    let x := s.tile t
    let w := x.bword (x.bpc b)
    let len := bits w 32 13
    let goff := bits w 45 8
    let r := x.bring b
    let pos := ((x.bob b).fill + bits w 53 4) % 0x10000
    if len = 0 then go (s.setTile t (x.bnext b))
    else if x.get (T.RING_CFG_SLOT_G r) < goff + ceilDiv len 64 then go (s.bobFault t b Code.BOB_RANGE 0)
    else if !x.bobOwns b true then go (s.bobRingFault t b (0x8000 + r))
    else if !decide ((ringOcc x.regs r + ringDiff pos (x.get (T.RING_STAT_TAIL r))) % 0x10000
        < x.get (T.RING_CFG_SLOTS r)) then go (s.setTile t (x.bstall b))
    else
      let a := slotByte x.regs r pos + 64 * goff
      go (s.carry t b ⟨false, [⟨(x.bob b).getA (bit w 57), a, len, []⟩], some pos, bit w 31⟩ 64)
  else go s

/-- Is a plain scratchpad range of a bobbin out of range (spec/09_bobbin_streams.md R295)? -/
def Tile.plainBad (x : Tile) (gran len : Nat) : Bool :=
  decide (4096 < gran + ceilDiv len 64) || x.meetsRing (64 * gran) (64 * ceilDiv len 64)

/-- `LDP`: a load into plain scratchpad (spec/09_bobbin_streams.md R292, R295). -/
def execLdp (t b : Nat) (s : State) : Res :=
  if s.bobRuns t b 0x09 then
    let x := s.tile t
    let w := x.bword (x.bpc b)
    let len := bits w 32 13
    let gran := bits w 45 12
    if len = 0 then go (s.setTile t (x.bnext b))
    else if x.plainBad gran len then go (s.bobFault t b Code.BOB_RANGE 0)
    else go (s.carry t b ⟨false, [⟨(x.bob b).getA (bit w 57), 64 * gran, len, []⟩], none, bit w 31⟩ 64)
  else go s

/-- The parts of a store from a scratchpad byte, its conversion increments, and its elements: plain bytes from the
address register, or the element plane from `A0` and the scale plane from `A1` (spec/09_bobbin_streams.md R302). -/
def State.storeSegs (s : State) (t b a len : Nat) (w : Nat) : List Seg × Cnt × Nat :=
  let x := s.tile t
  let v := x.bob b
  let bytes := memReadN x.spad a len
  if bit w 30 then
    let d := fmtOf (bits (x.get (T.BOB_FMT_FMTS b)) (16 * bits w 28 2) 16)
    let p := v.seed.getD s.seed
    let sd : Seed := ⟨p.1, p.2, x.get (T.BOB_SHARD_SHARD b), v.ei⟩
    let r := convRow d sd (bytesWords bytes)
    let plane := packCodes (fmtBits d.fmt) r.2.1
    let scl := r.1.map (BitVec.ofNat 8)
    ([⟨v.a0, a, plane.length, plane⟩, ⟨v.a1, a, scl.length, scl⟩], r.2.2, len / 4)
  else ([⟨v.getA (bit w 57), a, len, bytes⟩], {}, 0)

/-- A store carried on from a scratchpad byte; a converting store keeps the generator's step and module id as they stood
when it began, and when its last request is issued it has counted its conversions and advanced `EI`. `err` is what the
check of the scratchpad words finds (spec/09_bobbin_streams.md R294, R302, spec/03_compute_tile.md R99,
spec/02_numerics.md R58). -/
def State.storeFrom (s : State) (t b a len w : Nat) (err : OpErr) : State :=
  let x := s.tile t
  match if err = .accParity then none else x.readFault [(a, len)] err with
  | some f => (s.abortStream t b).tileStop t f.1 f.2
  | none =>
    let s := s.readCorr t [(a, len)] err
    let s := s.onTile t fun x => x.onBob b fun v => { v with seed := some (v.seed.getD s.seed) }
    let r := s.storeSegs t b a len w
    let pc := x.bpc b
    let s := s.carry t b ⟨true, r.1, none, bit w 31⟩ 64
    let y := s.tile t
    if (y.bob b).run && y.bpc b ≠ pc && bit w 30 then
      (s.addCnt (panelOf t) r.2.1).onTile t fun x => x.onBob b fun v => { v with ei := (v.ei + r.2.2) % 2 ^ 64 }
    else s

/-- `STR`: a store from the consumer ring; it waits for a bank that is being filled (spec/09_bobbin_streams.md R292, R294,
R295, R302, spec/03_compute_tile.md R100, R106). -/
def execStr (t b : Nat) (err : OpErr) (s : State) : Res :=
  if s.bobRuns t b 0x0A then
    let x := s.tile t
    let w := x.bword (x.bpc b)
    let len := bits w 32 13
    let goff := bits w 45 8
    let r := x.bring b
    let pos := ((x.bob b).drain + bits w 53 4) % 0x10000
    if len = 0 then go (s.setTile t (x.bnext b))
    else if x.get (T.RING_CFG_SLOT_G r) < goff + ceilDiv len 64 then go (s.bobFault t b Code.BOB_RANGE 0)
    else if !x.bobOwns b false then go (s.bobRingFault t b r)
    else if !decide (ringDiff pos (x.get (T.RING_STAT_HEAD r)) < ringOcc x.regs r) then go (s.setTile t (x.bstall b))
    else if x.meetsFill (slotByte x.regs r pos + 64 * goff) len then go s
    else go (s.storeFrom t b (slotByte x.regs r pos + 64 * goff) len w err)
  else go s

/-- `STP`: a store from plain scratchpad; it waits for a bank that is being filled (spec/09_bobbin_streams.md R292, R295,
R302, spec/03_compute_tile.md R100). -/
def execStp (t b : Nat) (err : OpErr) (s : State) : Res :=
  if s.bobRuns t b 0x0B then
    let x := s.tile t
    let w := x.bword (x.bpc b)
    let len := bits w 32 13
    let gran := bits w 45 12
    if len = 0 then go (s.setTile t (x.bnext b))
    else if x.plainBad gran len then go (s.bobFault t b Code.BOB_RANGE 0)
    else if x.meetsFill (64 * gran) len then go s
    else go (s.storeFrom t b (64 * gran) len w err)
  else go s

/-! ### Targets -/

/-- The fields of a request's payload (spec/09_bobbin_streams.md Table 9.5). -/
structure BReq where
  addr : Nat
  wr : Bool
  noalloc : Bool
  bytes : Nat
  slack : Nat
  stream : Nat
  epoch : Nat
  ridx : Nat
  deriving DecidableEq, Repr

def breq (p0 p1 : W64) : BReq :=
  ⟨bits p0.toNat 0 48, bit p0.toNat 48, bit p0.toNat 49, bits p0.toNat 50 8 + 1, bits p1.toNat 0 16,
    bits p1.toNat 16 13, bits p1.toNat 29 4, bits p1.toNat 33 3⟩

/-- Response tokens put into the mesh by a target: the bytes of a load that is done, or one token of `LEN` 0
(spec/09_bobbin_streams.md R300). -/
def State.respond (s : State) (unit stream epoch ridx status : Nat) (data : List Byte) : State :=
  let t := stream / 2
  let b := stream % 2
  let x := s.tile t
  let tok (k : Nat) (d : List Byte) : Token :=
    ⟨mkHdr ⟨t, 30 + b, x.gen, epoch, kData, false, x.get (T.BOB_CFG_VC b), d.length, 0x3F, k * 64 + ridx * 8 + status⟩, d⟩
  if data.isEmpty then s.sendUnit unit (tok 0 []) none
  else
    (List.range (ceilDiv data.length 64)).foldl
      (fun s k => s.sendUnit unit (tok k ((data.drop (64 * k)).take 64)) none) s

/-- The status of a response for a refused request: 2 for uncorrectable or poisoned data, else 1
(spec/09_bobbin_streams.md R300). -/
def statusOf (code : Nat) : Nat := if inRange Code.MEM_UE_W Code.MEM_UE_HOST code then 2 else 1

/-- A request performed by a memory controller and answered. -/
def State.serveReq (s : State) (target : Nat) (q : BReq) (data : List Byte) (e : Ecc) : State :=
  let t := q.stream / 2
  let b := q.stream % 2
  let r := if q.wr then s.writeMem t b q.addr (padTo q.bytes data) q.noalloc e
    else s.readMem t b q.addr q.bytes q.noalloc e
  match r.2 with
  | .data d => r.1.respond target q.stream q.epoch q.ridx 0 (if q.wr then [] else d)
  | .refused c => r.1.respond target q.stream q.epoch q.ridx (statusOf c) []

/-- The host physical address of a bobbin's request: the one formed when it was issued
(spec/01_module_overview.md R34, R39). -/
def State.reqPhys (s : State) (q : BReq) : Nat :=
  let x := s.tile (q.stream / 2)
  let b := q.stream % 2
  match (x.bob b).reqs.find? fun r => r.ridx = q.ridx && r.addr % 2 ^ 48 = q.addr && x.get (T.BOB_STAT_EPOCH b) = q.epoch with
  | some r => r.phys
  | none => s.hostPhys q.addr

/-- A request to the host range issued by the port: refused while the link is down
(spec/11_host_interface_and_command_tape.md R357). -/
def State.hostIssue (s : State) (q : BReq) (data : List Byte) : State :=
  let a := s.reqPhys q
  if s.cxl.linkUp then
    let s : State := { s with cxl := { s.cxl with reqs := s.cxl.reqs ++
      [⟨.bob (q.stream / 2) (q.stream % 2) q.ridx q.epoch, q.wr, a, q.bytes⟩] } }
    if q.wr then s.busWrite a (padTo q.bytes data) else s.busRead a q.bytes
  else (s.raise Code.HOST_UNREACH 0xC30 0 0).respond 0xC30 q.stream q.epoch q.ridx 1 []

/-- `BOBBIN_REQUEST`: a request reaches its target and is performed; its deadline follows from its `SLACK`, and `wait` is how
long it waited there. The order in which a target takes requests is that of the commands (spec/09_bobbin_streams.md
R303, R304; log entry 118). -/
def execBobbinRequest (target : Nat) (p0 p1 : W64) (data : List Byte) (wait : Nat) (e : Ecc) (s : State) : Res :=
  let q := breq p0 p1
  if s.safe then go s
  else if inRange 0xC00 0xC17 target then
    let s := s.dry (target - 0xC00) q.slack wait
    go (s.arrive q.addr .sewn (.bobbinRequest target p0 p1 data wait e) fun s => s.serveReq target q data e)
  else if target = 0xC30 then go ((s.dry 24 q.slack wait).hostIssue q data)
  else go s

/-- Is a waiting request one of a stream? -/
def ofStream (stream epoch : Nat) : Instr → Bool
  | .bobbinRequest _ _ p1 _ _ _ => bits p1.toNat 16 13 = stream && bits p1.toNat 29 4 = epoch
  | _ => false

/-- `RETIREMENT_TOKEN`: a target discards the requests of the stream that it still holds, and acknowledges
(spec/09_bobbin_streams.md R306). -/
def execRetirementToken (target stream epoch : Nat) (s : State) : Res :=
  if inRange 0xC00 0xC17 target || target = 0xC30 then
    let mine (a : HostAgent) : Bool := match a with
      | .bob t b _ ep => t * 2 + b = stream && ep = epoch
      | _ => false
    let s := if target = 0xC30 then
        { s with cxl := { s.cxl with reqs := s.cxl.reqs.filter fun r => !mine r.agent } }
      else { s with
        mem := { s.mem with heldReqs := s.mem.heldReqs.filter fun h =>
          !(h.mc = target - 0xC00 && ofStream stream epoch h.req) }
        cxl := { s.cxl with biasReqs := s.cxl.biasReqs.filter fun h =>
          !(s.mcOf h.addr = target - 0xC00 && ofStream stream epoch h.req) } }
    go ((s.bump (R.RETIRED (if target = 0xC30 then 24 else target - 0xC00)) 1).respond target stream epoch 0 3 [])
  else go s

/-! ### Responses -/

/-- A bobbin's wait for a request index, or for every request, is over with a request that has completed. -/
def Tile.reqWaitOver (x : Tile) (b : Nat) : Tile :=
  let op := bits (x.bword (x.bpc b)) 58 6
  if (x.bob b).reqs.isEmpty || (op ≠ 0x00 && op ≠ 0x0F) then x.untrip (.bob b) else x

/-- A token of a response landed: load data go to the request's scratchpad bytes, and the request completes with its
last token (spec/09_bobbin_streams.md R299, R300). -/
def Tile.landResp (x : Tile) (b : Nat) (q : BobReq) (num : Nat) (data : List Byte) : Tile :=
  let d := data.take (q.bytes - 64 * num)
  let x := if q.wr then x else { x with spad := memWriteN x.spad (q.spad + 64 * num) d }
  let left := q.left.erase num
  let reqs := if left.isEmpty then (x.bob b).reqs.erase q
    else (x.bob b).reqs.map fun r => if r = q then { q with left := left } else r
  let x := x.onBob b fun v => { v with reqs := reqs }
  let x := if left.isEmpty then (x.bump (T.BOB_BYTES b) q.bytes).reqWaitOver b else x
  (x.publish b (x.bob b).pubs).bobOutst b

/-- A retirement acknowledged for a quarantined epoch, which becomes free with the last answer
(spec/09_bobbin_streams.md R306). -/
def Tile.retire (x : Tile) (b epoch : Nat) : Tile :=
  let v := x.bob b
  let quar := v.quar.filterMap fun p =>
    if p.1 = epoch then (if p.2.length ≤ 1 then none else some (p.1, p.2.drop 1)) else some p
  let x := x.setBob b { v with quar := quar }
  if quar.isEmpty && !v.run then x.setBobState b 0 else x

/-- `BOBBIN_RESPONSE`: a response token reaches a bobbin; load data wait for a bank that is being filled, and the index of
a refused request is free again (spec/09_bobbin_streams.md R299, R300, R305, R306, spec/03_compute_tile.md R100). -/
def execBobbinResponse (t b ridx num status epoch : Nat) (data : List Byte) (s : State) : Res :=
  let x := s.tile t
  let v := x.bob b
  if !(decide (t < nTiles) && decide (b < 2)) then go s
  else if v.run && x.get (T.BOB_STAT_EPOCH b) = epoch then
    match v.reqs.find? fun q => q.ridx = ridx with
    | none => go (s.bobFault t b Code.BOB_RESP_ORPHAN ridx)
    | some q =>
      if status = 0 then
        if !q.left.contains num || (!q.wr && x.meetsFill (q.spad + 64 * num) data.length) then go s
        else go (s.setTile t (x.landResp b q num data))
      else go ((s.setTile t (x.onBob b fun v => { v with reqs := v.reqs.erase q })).bobFault t b Code.BOB_ABORTED ridx)
  else if status = 3 && v.quar.any fun p => p.1 = epoch then go (s.setTile t (x.retire b epoch))
  else go (s.bump R.STALE_STREAM 1)

/-- `BOB_REQ_DEADLINE`: a request or a retirement of a bobbin, or a `BOBGO` that waits for its epoch, misses `REQ_DL`
(spec/09_bobbin_streams.md R301, R305, R306). -/
def execBobReqDeadline (t b : Nat) (s : State) : Res :=
  let v := (s.tile t).bob b
  match v.reqs with
  | q :: _ => go (s.bobFault t b Code.BOB_REQ_DEADLINE q.ridx)
  | [] => if v.quar.isEmpty then go s else go (s.bobFault t b Code.BOB_REQ_DEADLINE 0)

end Sys2Proof.Machine
end

