-- ==== Sys2Proof/Machine/HostMem.lean ====
section
/-! DEFINITION. Host accesses to module memory, through HDM and the tape window
(spec/11_host_interface_and_command_tape.md R352 to R354, R361, spec/15_faults_and_safe_state.md R470, R471). -/

namespace Sys2Proof.Machine

/-- The unit code of the host port (spec/15_faults_and_safe_state.md Table 15.3). -/
def hostUnit : Nat := 0xC30

/-- Does a byte of LPDDR5X lie in a tail? -/
def State.inTail (s : State) (a : Nat) : Bool := decide (a < lpEnd) && (storOf s.mem.exts a).isNone

/-- A host access that meets a tail counted and recorded, once (spec/11_host_interface_and_command_tape.md R354). -/
def State.hostTail (s : State) (a n : Nat) : State :=
  if (List.range n).any fun k => s.inTail (a + k) then (s.bump R.HOST_TAIL 1).raise Code.HOST_TAIL hostUnit 0 0 else s

/-- The data that a host read delivers: none when the completion is poisoned. A granule on an unsound controller
poisons it without a record (spec/11_host_interface_and_command_tape.md R354, spec/08_memory_system.md R266,
spec/15_faults_and_safe_state.md R471). -/
def State.hostLoad (s : State) (a n : Nat) (e : Ecc) : State × Option (List Byte) :=
  let gs := s.granules a n
  if s.safe && gs.any fun g => s.mem.unsound.contains (mcOfGran g) then (s.bump R.POISONED_READS 1, none)
  else
    let s := (s.hostTail a n).moveTouch a n
    let r := s.loadRuns false .host (s.runs a n) e
    (r.1, if r.2.isNone then some (s.rdN a n) else none)

/-- A host write applied, run by run; data that the host marks as poisoned set the poison flag of each granule that
they touch (spec/11_host_interface_and_command_tape.md R354, spec/08_memory_system.md R266). -/
def State.hostWrite (s : State) (a : Nat) (b : List Byte) (poisoned : Bool) : State :=
  let n := b.length
  let rs := s.runs a n
  let gs := s.granules a n
  let s := s.hostTail a n
  let s := rs.foldl (fun s r => (s.writeMem hostUnit 0 r.1 ((b.drop (r.1 - a)).take r.2) false .ok).1) s
  if poisoned then { s with mem := { s.mem with poison := (gs ++ s.mem.poison).dedup } } else s

/-- The byte offsets of the tape: base and size (spec/11_host_interface_and_command_tape.md R359). -/
def State.tapeArea (s : State) : Nat × Nat := (s.get R.TP_TAPE_BASE * 0x1000, s.get R.TP_TAPE_SIZE * 0x10000)

/-- A notice on its way to the tape unit when a host write lands in the tape
(spec/11_host_interface_and_command_tape.md R361). -/
def State.notice (s : State) (a n : Nat) : State :=
  let t := s.tapeArea
  if decide (0 < n) && overlaps a n t.1 t.2 then
    let lo := max a t.1
    let hi := min (a + n) (t.1 + t.2)
    { s with tape := { s.tape with notices := s.tape.notices ++ [(lo - t.1, hi - lo)] } }
  else s

/-- A host read served: counted, and answered (spec/11_host_interface_and_command_tape.md R354, R380). -/
def State.serveHdmRead (s : State) (a n : Nat) (e : Ecc) : State :=
  let r := (s.bump R.HDM_RD_BYTES n).hostLoad a n e
  match r.2 with
  | some d => r.1.emit (.hdmData a d)
  | none => r.1.emit (.poisoned a)

/-- A host write served: counted, applied, noticed to the tape unit (spec/11_host_interface_and_command_tape.md R354,
R361, R380). -/
def State.serveHdmWrite (s : State) (a : Nat) (b : List Byte) (poisoned : Bool) : State :=
  ((s.bump R.HDM_WR_BYTES b.length).hostWrite a b poisoned).notice a b.length

/-- The first byte of an access whose granule has a request waiting (spec/08_memory_system.md R263, R276). -/
def State.hostBehind (s : State) (a n : Nat) : Option Nat :=
  ((List.range n).find? fun k => (s.memKey (a + k)).isSome && s.behind (s.orderKey (a + k))).map (a + ·)

/-- Does a committed HDM decoder map every byte of a range (spec/11_host_interface_and_command_tape.md R353)? -/
def State.hdmMapped (s : State) (a n : Nat) : Bool :=
  (kvGet? s.cxl.hdm 0).any fun d0 => d0.2.2 &&
    (decide (a + n ≤ d0.2.1) || (kvGet? s.cxl.hdm 1).any fun d1 => d1.2.2 && decide (a + n ≤ d1.1 + d1.2.1))

/-- May an HDM access of some bytes come: the link is up in CXL mode, and the decoders map the range
(spec/11_host_interface_and_command_tape.md R350, R353)? -/
def State.hdmOk (s : State) (a n : Nat) : Bool :=
  s.linkMode = 1 && decide (0 < n) && s.hdmMapped a n

/-- Is memory active (spec/11_host_interface_and_command_tape.md Table 11.3)? -/
def State.memActive (s : State) : Bool := s.flag R.GC_STATE_MEM_READY

/-- The slack of a host access (spec/09_bobbin_streams.md R304, spec/11_host_interface_and_command_tape.md R354). -/
def State.slackHost (s : State) : Nat := s.get R.TP_CFG_HOST_SLACK

/-- Does the port accept traffic of a stream, 0 for CXL.io, 1 for CXL.cache and CXL.mem: while integrity and data encryption
is on for the stream, only what is protected; what the port sends on it is then protected too
(spec/11_host_interface_and_command_tape.md R358, spec/12_thimble_management_security.md R397)? -/
def State.ideTakes (s : State) (stream : Nat) (prot : Bool) : Bool := prot || !s.cxl.ideOn.any fun k => k / 2 = stream

/-- `HDM_READ`: a host read reaches its fabric address; `acc.wait` is how long it waited at its controller. Before memory is active it
is answered as CXL 2.0 lays down for memory that is not active: a free value (spec/11_host_interface_and_command_tape.md R354,
spec/14_reset_bringup_selftest.md R455; log entry 16). -/
def execHdmRead (acc : HostAccess) (len : Nat) (e : Ecc) (s : State) : Res :=
  if !s.hdmOk acc.addr len || !s.ideTakes 1 acc.prot then go s
  else if !s.memActive then
    let r := s.freeBytes len
    go (r.2.emit (.hdmData acc.addr r.1))
  else
    let s := s.dry (s.mcOf acc.addr) s.slackHost acc.wait
    match s.hostBehind acc.addr len with
    | some b => go (s.holdReq b none (.hdmRead acc len e))
    | none => go (s.serveHdmRead acc.addr len e)

/-- `HDM_WRITE`: a host write is applied at its controllers and noticed to the tape unit. In the safe state, and before
memory is active, it completes and is discarded (spec/11_host_interface_and_command_tape.md R354, R361, R382,
spec/14_reset_bringup_selftest.md R455; log entry 16). -/
def execHdmWrite (acc : HostAccess) (bytes : List Byte) (poisoned : Bool) (s : State) : Res :=
  if !s.hdmOk acc.addr bytes.length || !s.ideTakes 1 acc.prot then go s
  else if s.safe || !s.memActive then go (s.emit (.memDone hostUnit acc.addr))
  else
    let s := s.dry (s.mcOf acc.addr) s.slackHost acc.wait
    match s.hostBehind acc.addr bytes.length with
    | some b => go (s.holdReq b none (.hdmWrite acc bytes poisoned))
    | none => go ((s.serveHdmWrite acc.addr bytes poisoned).emit (.memDone hostUnit acc.addr))

/-- The part of an access to the tape window that lies below the tape's size. -/
def State.windowLen (s : State) (off n : Nat) : Nat := min n (s.tapeArea.2 - off)

/-- A read through the tape window: the tape's bytes, zero beyond the tape (spec/11_host_interface_and_command_tape.md
R352). -/
def State.windowRead (s : State) (off n : Nat) : State :=
  let m := s.windowLen off n
  let r := (s.bump R.HDM_RD_BYTES n).hostLoad (s.tapeArea.1 + off) m .ok
  match r.2 with
  | some d => r.1.emit (.hdmData off (padTo n d))
  | none => r.1.emit (.poisoned off)

/-- `TAPE_WINDOW_ACCESS`: in PCIe fallback offset `o` of the window reaches tape offset `o`; beyond the tape's size a
read returns zero and a write is discarded, as every write is in the safe state; a write is watched like an HDM write
(spec/11_host_interface_and_command_tape.md R350, R352, R361, R382). -/
def execTapeWindowAccess (write : Bool) (off : HostAt) (len : Nat) (bytes : List Byte) (s : State) : Res :=
  if s.linkMode ≠ 2 || !s.ideTakes 0 off.prot || decide (0x10000000 < off.addr + len) then go s
  else if write then
    let b := (padTo len bytes).take (s.windowLen off.addr len)
    if s.safe then go s else go (s.serveHdmWrite (s.tapeArea.1 + off.addr) b false)
  else go (s.windowRead off.addr len)

end Sys2Proof.Machine
end

