-- ==== Sys2Proof/Machine/Serve.lean ====
section
/-! DEFINITION. Requests that were held at a memory controller and go on (spec/04_fabric_tokens_and_steering.md R137,
spec/08_memory_system.md R263, R276, spec/11_host_interface_and_command_tape.md R355). -/

namespace Sys2Proof.Machine

/-- A held request acted on by its controller; `seed` holds the generator's inputs as they stood when it came
(spec/02_numerics.md R58). -/
def State.serve (s : State) (seed : Nat × Nat) : Instr → State
  | .memRead agent addr len noalloc e =>
    let r := s.readMem agent 0 addr len noalloc e.e
    r.1.answer agent addr r.2
  | .memWrite agent addr bytes noalloc _ e =>
    let r := s.writeMem agent 0 addr bytes noalloc e.e
    r.1.answer agent addr r.2
  | .f32add agent addr set cnt seq salt addends _ e =>
    s.atom ⟨agent, atomF32, addr, set, cnt, seq, salt, addends, false, seed⟩ e.e
  | .pairadd agent addr set cnt seq salt addends _ e =>
    s.atom ⟨agent, atomPair, addr, set, cnt, seq, salt, addends, false, seed⟩ e.e
  | .bf16add agent addr set cnt seq salt addends _ e =>
    s.atom ⟨agent, atomBf16, addr, set, cnt, seq, salt, addends, false, seed⟩ e.e
  | .i32add agent addr set cnt seq salt addends _ e =>
    s.atom ⟨agent, atomI32, addr, set, cnt, seq, salt, addends, false, seed⟩ e.e
  | .bobbinRequest target p0 p1 data _ e => s.serveReq target (breq p0 p1) data e
  | .hdmRead acc len e => s.serveHdmRead acc.addr len e
  | .hdmWrite acc bytes poisoned => (s.serveHdmWrite acc.addr bytes poisoned).emit (.memDone hostUnit acc.addr)
  | _ => s

/-- A held request refused under a code, as its agent is told (spec/08_memory_system.md R280). -/
def State.refuseHeld (s : State) (code : Nat) (h : HeldReq) : State :=
  match h.req with
  | .memRead agent addr _ _ _ => s.emit (.memRefused agent addr code)
  | .memWrite agent addr _ _ _ _ => s.emit (.memRefused agent addr code)
  | .f32add agent addr _ _ _ _ _ _ _ => s.emit (.memRefused agent addr code)
  | .pairadd agent addr _ _ _ _ _ _ _ => s.emit (.memRefused agent addr code)
  | .bf16add agent addr _ _ _ _ _ _ _ => s.emit (.memRefused agent addr code)
  | .i32add agent addr _ _ _ _ _ _ _ => s.emit (.memRefused agent addr code)
  | .bobbinRequest target p0 p1 _ _ _ =>
    let q := breq p0 p1
    s.respond target q.stream q.epoch q.ridx (statusOf code) []
  | _ => s

/-- Does a held request come from the host, so that it never asks the host for a page
(spec/11_host_interface_and_command_tape.md R355)? -/
def fromHost : Instr → Bool
  | .hdmRead _ _ _ => true
  | .hdmWrite _ _ _ => true
  | _ => false

/-- Is a held request an atomic? -/
def isAtom : Instr → Bool
  | .f32add .. => true
  | .pairadd .. => true
  | .bf16add .. => true
  | .i32add .. => true
  | _ => false

/-- The fabric address that a held request accesses. -/
def reqAddr : Instr → Nat
  | .memRead _ addr _ _ _ => addr
  | .memWrite _ addr _ _ _ _ => addr
  | .f32add _ addr _ _ _ _ _ _ _ => addr
  | .pairadd _ addr _ _ _ _ _ _ _ => addr
  | .bf16add _ addr _ _ _ _ _ _ _ => addr
  | .i32add _ addr _ _ _ _ _ _ _ => addr
  | .bobbinRequest _ p0 p1 _ _ _ => (breq p0 p1).addr
  | _ => 0

/-- What a state does while a lining group is as it was before it closed (spec/08_memory_system.md Table 8.5 step 2). -/
def State.asOpen (s : State) (n g : Nat) (f : State → State) : State :=
  let m := s.get (R.MC_CFG_LN_MODE n)
  let b := s.get (R.MC_STATUS_LN_BUSY n)
  let s := (s.set (R.MC_CFG_LN_MODE n) (m + 2 * 4 ^ g - bits m (2 * g) 2 * 4 ^ g)).set (R.MC_STATUS_LN_BUSY n)
    (b - bits b g 1 * 2 ^ g)
  ((f s).set (R.MC_CFG_LN_MODE n) m).set (R.MC_STATUS_LN_BUSY n) b

/-- A request that waits no longer behind another: kept back while the host is asked for a page in host bias, else acted
on; one accepted before its lining group closed completes (spec/11_host_interface_and_command_tape.md R355,
spec/08_memory_system.md R280). -/
def State.release1 (s : State) (h : HeldReq) : State :=
  let i := h.req
  if !fromHost i && s.inHostBias (reqAddr i) then
    { s with cxl := { s.cxl with biasReqs := s.cxl.biasReqs ++ [⟨reqAddr i, i, h.seed⟩] } }
  else
    match s.mem.lnChg.find? fun c => h.before c.mc c.group && !c.drained with
    | some c => s.asOpen c.mc c.group fun s => s.serve h.seed i
    | none => s.serve h.seed i

/-- The requests to a granule that need no verdict any more, in order, up to the next that awaits one; the second argument
bounds the recursion (spec/08_memory_system.md R263, R276). -/
def State.drainHeld (s : State) (gran : Nat) : Nat → State
  | 0 => s
  | n + 1 =>
    match s.mem.heldReqs.find? fun h => h.gran = gran with
    | some h =>
      if h.tag.isSome then s
      else ({ s with mem := { s.mem with heldReqs := s.mem.heldReqs.erase h } }.release1 h).drainHeld gran n
    | none => s

/-- A basted request decided: sewn, it keeps its place behind those to its granule that still await a verdict; squashed, it
is discarded without effect; those that it held back go on (spec/04_fabric_tokens_and_steering.md R137,
spec/08_memory_system.md R276). -/
def State.decideReq (s : State) (h : HeldReq) (sew : Bool) : State :=
  let n := s.mem.heldReqs.length
  let l := if sew then setAt s.mem.heldReqs (s.mem.heldReqs.idxOf h) { h with tag := none } else s.mem.heldReqs.erase h
  { s with mem := { s.mem with heldReqs := l } }.drainHeld h.gran n

/-- `LINING_PD_DEADLINE`: step 2 misses its bound; the requests accepted before that are left are aborted with refusals to
their agents, and the power-down goes on (spec/08_memory_system.md R280). -/
def execLiningPdDeadline (n g : Nat) (s : State) : Res :=
  match s.lnChange n g with
  | some c =>
    if c.drained || c.new ≠ 0 then go s
    else
      let hs := s.mem.heldReqs.filter fun h => h.before n g
      let qs := s.mem.heldAtoms.filter fun q => q.within n g
      let s := { s with mem := { s.mem with
        heldReqs := s.mem.heldReqs.filter fun h => !h.before n g
        heldAtoms := s.mem.heldAtoms.filter fun q => !q.within n g } }
      let s := hs.foldl (fun s h => s.refuseHeld Code.MEM_PD_DEADLINE h) s
      let s := qs.foldl (fun s q => s.emit (.memRefused q.agent q.addr Code.MEM_PD_DEADLINE)) s
      go ((s.raise Code.MEM_PD_DEADLINE (0xC00 + n) (0x100 + g) 0).lnDrained n g c)
  | none => go s

/-! ### The bias table -/

/-- The pages of a range of the bias table, 2 MiB each (spec/11_host_interface_and_command_tape.md R355). -/
def pagesOf (a size : Nat) : List Nat := (List.range size).map fun k => a / mib2 + k

/-- Does a request wait at a controller for a byte of some pages? -/
def State.pagesBusy (s : State) (ps : List Nat) : Bool :=
  (s.mem.heldReqs.any fun h => ps.contains (reqAddr h.req / mib2))
    || (s.mem.heldAtoms ++ s.mem.atomWait.map Prod.fst).any fun q => ps.contains (q.addr / mib2)

/-- The bias of the pages that a `BIAS` command names changed (spec/11_host_interface_and_command_tape.md R355). -/
def State.setBias (s : State) (c : Cmd) : State :=
  let ps := pagesOf (c.p 0 8) (c.p 8 4)
  let l := s.cxl.hostBias.filter fun p => !ps.contains p
  { s with cxl := { s.cxl with hostBias := if c.p 12 1 = 0 then l ++ ps else l } }

end Sys2Proof.Machine
end

