-- ==== Sys2Proof/Machine/Clear.lean ====
section
/-! DEFINITION. What each reset kind clears (spec/14_reset_bringup_selftest.md Table 14.1, R444, and the reset rules of each
chapter), and the loss of the rails (spec/13_panels_clocks_power.md R423, R425). -/

namespace Sys2Proof.Machine

/-- Registers of the backup domain, and those that show the straps and option bytes in force
(spec/14_reset_bringup_selftest.md Table 14.13). -/
def backupReg (off : Nat) : Bool :=
  off = 0x40 || off = 0x44 || off = 0x48 || off = 0x58 || inRange 0x100 0x11F off

/-- Registers of Table 13.8: those of some panel's block but for the global power registers in panel 0's
(spec/13_panels_clocks_power.md R434). -/
def panelSetting (off : Nat) : Bool := inRange 0x80000 0x88FFF off && !inRange 0x80200 0x803FF off

/-- Registers that a warm reset keeps: the memory controllers and their counters, Thimble, power and fault counters, the
Thimble window, and the global power registers. -/
def warmKeeps (off : Nat) : Bool :=
  backupReg off || inRange 0x10000 0x1FFFF off || inRange 0x48000 0x48FFF off || inRange 0x4C000 0x4EFFF off
    || inRange 0x60000 0x7FFFF off || inRange 0x80200 0x803FF off

/-- Registers that a cold reset keeps: those of Thimble; the power cap is cleared only by the loss of the 50 V input. -/
def coldKeeps (off : Nat) : Bool := backupReg off || inRange 0x4C000 0x4CFFF off || inRange 0x60000 0x7FFFF off

/-- The registers, staged values and latches of BAR0 that a reset keeps. -/
def State.keepRegs (s : State) (keep : Nat → Bool) : State :=
  { s with
    bar := s.bar.filter fun e => keep (e.1 / 64)
    barStage := s.barStage.filter fun e => keep (e.1 / 64)
    barLatch := s.barLatch.filter fun e => keep e.1 }

/-- The reset value of every panel's `VSET`: 50 + `VOFS` (spec/13_panels_clocks_power.md Table 13.8). -/
def State.resetVset (s : State) : State :=
  (List.range 36).foldl (fun s p =>
    if s.get (R.PNL_STATUS_VOFS p) = 0 then s else s.set (R.PNL_CFG_VSET p) (50 + s.get (R.PNL_STATUS_VOFS p))) s

/-- A MOVE that a reset of the tape unit stops: both ranges hold free values (spec/08_memory_system.md R495). -/
def State.stopMove (s : State) : State :=
  match s.mem.move with
  | none => s
  | some j =>
    let s := { s with mem := { s.mem with move := none } }
    let d := s.freeBytes j.len
    let s := (d.2.putBytes j.dst d.1).1
    if hostBase ≤ j.src then s
    else
      let r := s.freeBytes j.len
      r.2.put j.src r.1

/-- What controllers hold when a warm reset comes: requests received in full are applied, in order, those that wait for the
host's answer among them; basted ones and those in the ticket buffers are discarded, and a `BIAS` change accepted is
completed (spec/14_reset_bringup_selftest.md R444, spec/08_memory_system.md R496, spec/09_bobbin_streams.md R312; log entry
137). -/
def State.settleMem (s : State) : State :=
  let hs := s.mem.heldReqs
  let s := { s with mem := { s.mem with heldReqs := [], heldAtoms := [], atomWait := [] } }
  let s := hs.foldl (fun s h => if h.tag.isSome then s else s.release1 h) s
  let bs := s.cxl.biasReqs
  let s := bs.foldl (fun s b => s.serve b.seed b.req) { s with cxl := { s.cxl with biasReqs := [] } }
  let cs := s.tape.cmds.filter fun c => c.opcode = Op.BIAS && c.started && !c.taken && !c.replied && s.cxl.mode ≠ 2
  cs.foldl State.setBias s

/-- The fabric and the units that feed it cleared, as every reset clears them; faults waiting in the units and what the
boundary has presented stay (spec/14_reset_bringup_selftest.md Table 14.1). -/
def State.clearFabric (s : State) : State :=
  { s with
    tiles := [], net := [], lane := [], fab := {}, loader := {}, unpick := {}, press := {}, seam := {}, tape := {}
    cxl := { s.cxl with reqs := [], cfg := [], msixEnable := false, msixFuncMask := false }
    flt := { s.flt with cause := none, fatal := false, safe := false } }

/-- The CXL port cleared by a cold, aux or hot reset: the link goes down, HDM decoders and IDE keys are cleared; the mode
that the link settled stays until the next first training after PERST# (spec/11_host_interface_and_command_tape.md R350). -/
def State.clearPort' (s : State) : State :=
  { s with cxl := { s.cxl with
      linkUp := false, released := false, configReady := false, hdm := [], hdmErr := [], ideKeys := [], ideOn := [] } }

/-- The memory controllers cleared by an aux or cold reset (spec/08_memory_system.md R285). -/
def State.clearMem (s : State) : State :=
  { s with
    mem := { exts := resetExtents }
    cxl := { s.cxl with hostBias := [], biasReqs := [] } }

/-- The dwords of configuration space whose fields are sticky: those of advanced error reporting
(spec/14_reset_bringup_selftest.md Table 14.1, as PCIe 5.0 lays down; log entry 16). -/
def stickyCfg (off : Nat) : Bool := inRange 0x104 0x11B off

/-- What a warm reset clears; `flr` is its FLR form (spec/14_reset_bringup_selftest.md Table 14.1). -/
def State.clearWarm (s : State) (flr : Bool) : State :=
  let mem := s.flag R.GC_STATE_MEM_READY
  let s := s.stopMove.settleMem
  let cfg := s.cxl.cfg
  let s := (s.clearFabric.keepRegs warmKeeps).resetVset
  let s := { s with cxl := { s.cxl with cfg := cfg.filter fun e => stickyCfg e.1 } }
  let jobs : List FillJob := s.mem.fills.map fun f => { f with cmd := none }
  let s := { s with
    mem := { s.mem with fills := jobs, unsound := [] }
    pow := { s.pow with commits := [] } }
  let s := s.set R.GC_STATE_MEM_READY (b2n mem)
  if flr then s else s.clearPort'

/-- A panel as an aux or cold reset leaves it: caps and clamps stay, no change runs
(spec/13_panels_clocks_power.md R437). -/
def Panel.afterReset (x : Panel) : Panel := { tcap := x.tcap, clamp := x.clamp, temp := x.temp }

/-- What a cold reset clears; with `aux` what an aux reset clears besides: Thimble's registers and RAM
(spec/14_reset_bringup_selftest.md Table 14.1, spec/13_panels_clocks_power.md R437). -/
def State.clearCold (s : State) (aux : Bool) : State :=
  let fcap := s.get R.PWR_STATUS_FCAP
  let s := s.clearFabric.clearPort'.clearMem
  let s := (s.keepRegs (if aux then backupReg else coldKeeps)).resetVset
  let ps : Kv Panel := s.pow.panels.map fun e => (e.1, e.2.afterReset)
  let s := { s with pow := { s.pow with panels := ps, commits := [] } }
  s.set R.PWR_STATUS_FCAP fcap

/-- A finishing test that does not end: the loss of the 50 V input ends it, and so do a reset and the safe state
(spec/14_reset_bringup_selftest.md R460, Table 14.13; log entry 90). -/
def State.endTest (s : State) : State :=
  if s.rst.testing then s.setAll [(R.FT_STATUS_RAN, 1), (R.FT_STATUS_PASS, 0), (R.FT_STATUS_TIMEOUT, 1)] else s

/-- Every rail removed: only the always-on and backup domains stay powered, LPDDR5X contents are lost, and the domains of
the fabric hold nothing until the next start. A safe state goes on, since only a reset ends it, and its cause is kept for
`RST_LAST` (spec/13_panels_clocks_power.md R423, R425, spec/01_module_overview.md R40). -/
def State.removeRails (s : State) : State :=
  let flt := s.flt
  let state := if s.safe then s.get R.GC_STATE_STATE else 0
  let s := { s.endTest.clearFabric.clearPort'.clearMem with flt := flt }
  let s := s.setAll [(R.PWR_STATUS_STATE, 0), (R.GC_STATE_STATE, state), (R.GC_STATE_MEM_READY, 0), (R.GC_STATE_FABRIC_READY, 0)]
  let s := (List.range 36).foldl (fun s p => s.setAll [(R.PNL_STATUS_FDEL p, 0), (R.PNL_STATUS_VDEL p, 0)]) s
  { s with
    pow := { s.pow with railsUp := 0 }
    rst := { s.rst with seq := .none, busy := [], railsOk := false, released := false, trainedOk := false, filled := false,
                        fabricOk := false, testing := false } }

/-- What the loss of the 50 V input clears besides: the governor's cap, the thermal caps, the clamps and the trip logic
(spec/13_panels_clocks_power.md R437). -/
def State.lose50 (s : State) : State :=
  let s := s.removeRails.set R.PWR_STATUS_FCAP 2500
  { s with
    pow := { s.pow with panels := [], commits := [], fastAt := none, tripped := false }
    pins := { s.pins with input50 := false } }

end Sys2Proof.Machine
end

