-- ==== Sys2Proof/Machine/Shuttles.lean ====
section
/-! DEFINITION. Shuttles and predicate units (spec/04_fabric_tokens_and_steering.md R123, R125 to R132, R139,
spec/05_patterns_and_reconfiguration.md R175). -/

namespace Sys2Proof.Machine

/-- A shuttle's control queue and its data queues for a side. -/
def Tile.ctlq (x : Tile) (k : Nat) : Nat := x.get (T.SHUT_CFG_CTLQ k)
def Tile.sideQ (x : Tile) (k side : Nat) : Nat :=
  if x.get (T.SHUT_CFG_MODE k) = 2 && side = 1 then x.get (T.SHUT_CFG_DQ1 k) else x.get (T.SHUT_CFG_DQ0 k)

/-- May a shuttle act: enabled, its tile not stopped, the fabric running, no squashed datum of it waiting to be
resent? -/
def State.shuttles (s : State) (t k : Nat) : Bool :=
  decide (t < nTiles) && decide (k < 2) && s.issues && shEn (s.tile t).regs k
    && (s.tile t).get T.TILE_STATUS_STATE ≠ 4

/-- A datum of a shuttle that waits to be resent. -/
def Tile.resending (x : Tile) (k : Nat) : Bool := x.resend.any fun r => r.1 = k

/-- Is a token a marker: hem, end and probe tokens are by kind, and a data token of `LEN` 0
(spec/04_fabric_tokens_and_steering.md Table 4.3)? -/
def isMarker (k : Token) : Bool := !(hKind k.hdr = kCtl || (hKind k.hdr = kData && !k.pay.isEmpty))

/-- Side taken from a control token: bit 0 of its payload (spec/04_fabric_tokens_and_steering.md R125). -/
def sideOf (k : Token) : Nat := payWord k % 2

/-- The status of a shuttle after it consumes a control token (spec/04_fabric_tokens_and_steering.md Table 4.9). -/
def Tile.shutNote (x : Tile) (k tag side : Nat) : Tile :=
  (x.set (T.SHUT_STAT_TAG k) tag).set (T.SHUT_STAT_LAST k) side

/-- A datum passed on by a shuttle on a channel: with its tag, basted when any token that it comes from is basted, whose
verdicts are then to be forwarded (spec/04_fabric_tokens_and_steering.md R120, R132). -/
def State.passOn (s : State) (t k c : Nat) (from_ : List (Nat × Token)) (d : Token) : State :=
  let bs := from_.filter fun p => hBasted p.2.hdr
  let dst := (s.tile t).chanDst c (hTag d.hdr)
  let s := s.sendAs t c (hKind d.hdr) (hTag d.hdr) (hSlot d.hdr) (!bs.isEmpty) d.pay
  if bs.isEmpty then s
  else s.onTile t fun x =>
    { x.setShut k (x.shut k ++ [⟨hTag d.hdr, 0, d, false, dst⟩]) with
      fwd := x.fwd ++ bs.map fun p => (p.1, hTag p.2.hdr, dst) }

/-- A fault of a shuttle that names it; held while a head that it concerns is basted
(spec/04_fabric_tokens_and_steering.md R126, R148). -/
def State.shutFault (s : State) (t k code : Nat) (heads : List Token) : State :=
  if heads.any fun h => hBasted h.hdr then s else s.tileStop t code k

/-- The data queues of a shuttle. -/
def Tile.dataQs (x : Tile) (k : Nat) : List Nat :=
  [x.sideQ k 0] ++ (if x.get (T.SHUT_CFG_MODE k) = 2 then [x.get (T.SHUT_CFG_DQ1 k)] else [])

/-- A datum and the control token of its tag acted on: passed on, or discarded in `GATE`. A datum whose output cannot send
waits, and so does a basted one while `OPEN` is 8 (spec/04_fabric_tokens_and_steering.md R115, R125, R132, Table 4.10
step 2). `ctl` and `dat` are what the checks of the two payloads find. -/
def State.steer (s : State) (t k : Nat) (c d : Token) (ctl dat : Ecc) : State :=
  let x := s.tile t
  let side := sideOf c
  let cq := x.ctlq k
  let q := x.sideQ k side
  let out := x.sideOut k side
  let both := [(cq, c), (q, d)]
  let bs := both.filter fun p => hBasted p.2.hdr
  let note (s : State) : State := s.onTile t fun x => x.set (T.SHUT_STAT_TAG k) (hTag c.hdr)
  if x.get (T.SHUT_CFG_MODE k) = 3 && side = 0 then
    s.queueRead t cq c ctl fun s =>
      note (((s.consume t cq).consume t q).onTile t fun x =>
        { x with fwd := x.fwd ++ bs.map fun p => (p.1, hTag p.2.hdr, nowhere) })
  else if !x.canSend out || (!bs.isEmpty && decide (8 ≤ (x.shut k).length)) then s
  else s.queueRead t cq c ctl fun s => s.queueRead t q d dat fun s =>
    note (((s.consume t cq).consume t q).passOn t k out both d)

/-- `SHUTTLE_FIRE`: with control and data heads of one tag, the shuttle steers, merges or gates the datum; heads that
disagree in tag or in kind are a fault (spec/04_fabric_tokens_and_steering.md R125, R126, Table 4.10 step 2). -/
def execShuttleFire (t : Nat) (k : ShutRead) (s : State) : Res :=
  let x := s.tile t
  if !s.shuttles t k.k || x.resending k.k || ((x.shut k.k).any fun b => b.own) then go s
  else
    match x.head (x.ctlq k.k) with
    | none => go s
    | some c =>
      if isMarker c then
        match ((x.dataQs k.k).filterMap x.head).find? fun d => hKind d.hdr ≠ hKind c.hdr with
        | some d => go (s.shutFault t k.k Code.FAB_TAG_MISMATCH [c, d])
        | none => go s
      else
        match x.head (x.sideQ k.k (sideOf c)) with
        | none => go s
        | some d =>
          if isMarker d || hTag c.hdr ≠ hTag d.hdr then go (s.shutFault t k.k Code.FAB_TAG_MISMATCH [c, d])
          else go (s.steer t k.k c d k.ctl k.dat)

/-- The side that a shuttle predicts (spec/04_fabric_tokens_and_steering.md R129). -/
def Tile.predicted (x : Tile) (k : Nat) : Nat :=
  match x.get (T.SHUT_CFG_PRED_MODE k) with
  | 0 => 0
  | 1 => 1
  | _ => x.get (T.SHUT_STAT_LAST k)

/-- `SHUTTLE_BASTE`: `BASTE_WAIT` has run out with control absent, and the datum goes basted on the predicted side
(spec/04_fabric_tokens_and_steering.md R115, R129, Table 4.10 step 2b). -/
def execShuttleBaste (t : Nat) (k : ShutRead) (s : State) : Res :=
  let x := s.tile t
  let i := k.k
  let side := x.predicted i
  let q := x.sideQ i side
  let out := x.sideOut i side
  if !s.shuttles t i || x.resending i || !s.flag R.FAB_CFG_BASTE_EN || x.get (T.SHUT_CFG_BASTE_WAIT i) = 0
      || decide (x.get (T.SHUT_CFG_DEPTH i) ≤ (x.shut i).length) || (x.head (x.ctlq i)).isSome
      || (x.get (T.SHUT_CFG_MODE i) = 3 && side = 0) || !x.canSend out then go s
  else
    match x.head q with
    | none => go s
    | some d =>
      if hKind d.hdr ≠ kData || isMarker d then go s
      else
        go (s.queueRead t q d k.dat fun s =>
          let dst := (s.tile t).chanDst out (hTag d.hdr)
          let s := (s.consume t q).sendAs t out kData (hTag d.hdr) (hSlot d.hdr) true d.pay
          let s := s.onTile t fun x =>
            { x.setShut i (x.shut i ++ [⟨hTag d.hdr, side, d, true, dst⟩]) with
              fwd := x.fwd ++ (if hBasted d.hdr then [(q, hTag d.hdr, dst)] else []) }
          (s.onTile t fun x => x.bump (T.SHUT_BASTED i) 1).bump (R.BASTED (panelOf t)) 1)

/-- The datum that waits to be resent sent, when its channel can send. -/
def State.resendNow (s : State) (t k : Nat) : State :=
  let x := s.tile t
  match x.resend.find? fun r => r.1 = k with
  | some (_, c, d) =>
    if x.canSend c then
      (s.sendAs t c (hKind d.hdr) (hTag d.hdr) (hSlot d.hdr) (hBasted d.hdr) d.pay).onTile t fun x =>
        { x with resend := dropFirst (fun r => r.1 = k) x.resend }
    else s
  | none => s

/-- The oldest basted tag of a shuttle resolved on the predicted side: a sew verdict, or, while a verdict of the datum itself
is awaited, none yet, the token counting in `OPEN` as a basted one passed on (spec/04_fabric_tokens_and_steering.md R130,
R132). -/
def State.resolveSew (s : State) (t k : Nat) (b : BasteBuf) : State :=
  let s := (s.onTile t fun x => x.bump (T.SHUT_SEWN k) 1).bump (R.SEWN (panelOf t)) 1
  let y := (s.tile t).setShut k ((s.tile t).shut k |>.erase b)
  if y.undecided b.dst then s.setTile t (y.setShut k (y.shut k ++ [{ b with own := false }]))
  else (s.setTile t y).sendVerdict t b.dst.1 b.dst.2.1 b.dst.2.2 true

/-- The oldest basted tag of a shuttle resolved on the other side: a squash verdict, and the datum goes on the correct side,
basted while a verdict of its own is awaited, or is discarded in `GATE` (spec/04_fabric_tokens_and_steering.md R130, R132,
Table 4.10 step 5). -/
def State.resolveSquash (s : State) (t k side : Nat) (b : BasteBuf) : State :=
  let s := s.squashed t k 1
  let x := s.tile t
  let x := x.setShut k ((x.shut k).erase b)
  let basted := x.fwd.any fun f => decide (f.2.2 = b.dst)
  let aim (x : Tile) (dst : SentTo) : Tile :=
    { x with fwd := x.fwd.map fun f => if f.2.2 = b.dst then (f.1, f.2.1, dst) else f }
  if x.get (T.SHUT_CFG_MODE k) = 3 then
    (s.setTile t (aim x nowhere)).sendVerdict t b.dst.1 b.dst.2.1 b.dst.2.2 false
  else
    let out := x.sideOut k side
    let new := x.chanDst out b.tag
    let d : Token := ⟨mkHdr { hdrF b.tok.hdr with basted := basted }, b.tok.pay⟩
    let x := aim x new
    let x : Tile := { x with resend := x.resend ++ [(k, out, d)] }
    let x := if basted then x.setShut k (x.shut k ++ [⟨b.tag, side, d, false, new⟩]) else x
    ((s.setTile t x).sendVerdict t b.dst.1 b.dst.2.1 b.dst.2.2 false).resendNow t k

/-- `SHUTTLE_RESOLVE`: the control token of the oldest basted tag arrives: a sew verdict when it selects the predicted
side, else a squash verdict, and the datum goes on the correct side, or is discarded in `GATE`
(spec/04_fabric_tokens_and_steering.md R115, R130, Table 4.10 steps 4 and 5). A datum whose channel cannot send yet waits,
and the command sends it later; a basted control token awaits its verdict. -/
def execShuttleResolve (t : Nat) (k : ShutRead) (s : State) : Res :=
  let x := s.tile t
  let i := k.k
  if !s.shuttles t i then go s
  else if x.resending i then go (s.resendNow t i)
  else
    match (x.shut i).find? BasteBuf.own, x.head (x.ctlq i) with
    | some b, some c =>
      if isMarker c || hTag c.hdr ≠ b.tag then go (s.shutFault t i Code.FAB_TAG_MISMATCH [c])
      else if hBasted c.hdr then go s
      else
        go (s.queueRead t (x.ctlq i) c k.ctl fun s =>
          let side := sideOf c
          let s := (s.consume t (x.ctlq i)).onTile t fun x => x.shutNote i b.tag side
          if side = b.side then s.resolveSew t i b else s.resolveSquash t i side b)
    | _, _ => go s

/-- The data queues that a shuttle takes markers from, and the channels it sends them on
(spec/04_fabric_tokens_and_steering.md R127, spec/05_patterns_and_reconfiguration.md R175). -/
def Tile.markQueues (x : Tile) (k : Nat) : List Nat :=
  x.ctlq k :: x.dataQs k
def Tile.markOuts (x : Tile) (k : Nat) : List Nat :=
  [x.get (T.SHUT_CFG_OUT0 k)] ++ (if x.get (T.SHUT_CFG_MODE k) = 1 then [x.get (T.SHUT_CFG_OUT1 k)] else [])

/-- May a shuttle pass markers of a kind: they stand at all its heads, nothing basted is outstanding, and its outputs can
send (spec/04_fabric_tokens_and_steering.md R127). -/
def State.passes? (s : State) (t k kind : Nat) : Bool :=
  let x := s.tile t
  s.shuttles t k && !x.resending k && (x.shut k).isEmpty
    && ((x.markQueues k).all fun q => match x.head q with | some m => decide (hKind m.hdr = kind) | none => false)
    && x.canSendAll (x.markOuts k)

/-- `SHUTTLE_END_PASS`: end tokens at the heads are consumed and one is sent on each output
(spec/04_fabric_tokens_and_steering.md R127). -/
def execShuttleEndPass (t k : Nat) (s : State) : Res :=
  if s.passes? t k kEnd then
    let x := s.tile t
    let s := (x.markQueues k).foldl (fun s q => s.consume t q) s
    go ((x.markOuts k).foldl (fun s c => s.sendNew t c kEnd 0 false []) s)
  else go s

/-- A hem marker sent on a channel, which is then ended. -/
def State.sendHem (s : State) (t c : Nat) : State :=
  (s.sendNew t c kHem 0 false []).onTile t fun x => x.setOch c { x.och c with hem := true }

/-- `SHUTTLE_HEM_PASS`: hem markers at all heads are consumed and sent on the outputs
(spec/05_patterns_and_reconfiguration.md R175). -/
def execShuttleHemPass (t k : Nat) (s : State) : Res :=
  if s.passes? t k kHem then
    let x := s.tile t
    let s := (x.markQueues k).foldl (fun s q => s.consumeHem t q) s
    let s := (x.markOuts k).foldl (fun s c => s.sendHem t c) s
    go (s.onTile t fun x => if k = 0 then { x with shutHem0 := true } else { x with shutHem1 := true })
  else go s

/-! ### Predicate units -/

/-- The outputs of a predicate unit. -/
def Tile.predOuts (x : Tile) : List Nat :=
  [x.get T.PRED_CFG_OUTA] ++ (if x.get T.PRED_CFG_OUTB_EN = 1 then [x.get T.PRED_CFG_OUTB] else [])

/-- May a predicate unit act on a head of its input (spec/04_fabric_tokens_and_steering.md Table 4.7)? -/
def State.predicates (s : State) (t : Nat) : Bool :=
  let x := s.tile t
  decide (t < nTiles) && predCap t && prEn x.regs && s.issues && x.get T.TILE_STATUS_STATE ≠ 4
    && x.canSendAll x.predOuts

/-- The result of a predicate (spec/04_fabric_tokens_and_steering.md Table 4.13, R139). -/
def Tile.predicate (x : Tile) (k : Token) : Bool :=
  let w : W32 := BitVec.ofNat 32 (field k.pay (4 * x.get T.PRED_CFG_LANE) 4)
  let c : W32 := BitVec.ofNat 32 (x.get T.PRED_CFG_CONST)
  let ty := x.get T.PRED_CFG_TYPE
  let key (v : W32) : Int := if ty = 0 then v.toInt else if ty = 1 then orderKey v else v.toNat
  let nan := ty = 1 && (isNan w || isNan c)
  let dl := match x.get T.PRED_CFG_DL_SEL with
    | 0 => x.get T.TILE_DL_DL0
    | 1 => x.get T.TILE_DL_DL1
    | 2 => x.get T.TILE_DL_DL2
    | _ => x.get T.TILE_DL_DL3
  match x.get T.PRED_CFG_OP with
  | 0 => !nan && decide (key w = key c)
  | 1 => !nan && decide (key w < key c)
  | 2 => !nan && decide (key w ≤ key c)
  | 3 => bit w.toNat (c.toNat % 32)
  | _ => decide (x.predIdx < dl)

/-- A control token of a predicate unit sent on a channel with the tag of its input, basted when the input is
(spec/04_fabric_tokens_and_steering.md R132, R139). -/
def State.predSend (s : State) (t c q : Nat) (k : Token) (r : Bool) : State :=
  let dst := (s.tile t).chanDst c (hTag k.hdr)
  let s := s.sendAs t c kCtl (hTag k.hdr) 0 (hBasted k.hdr) (leBytes 8 (b2n r))
  if hBasted k.hdr then s.onTile t fun x => { x with fwd := x.fwd ++ [(q, hTag k.hdr, dst)] } else s

/-- The index of a predicate unit after a data token: a basted one is counted until a squash takes it back
(spec/04_fabric_tokens_and_steering.md R138, R139). -/
def Tile.predCount (x : Tile) (q : Nat) (k : Token) : Tile :=
  { x with
    predIdx := x.predIdx + 1
    predOpen := if hBasted k.hdr then x.predOpen ++ [(q, hTag k.hdr)] else x.predOpen }

/-- `PREDICATE_FIRE`: the head data token gives a control token on each enabled output; an end token passes and resets
the index. `IDXLT` waits while the index counts basted tokens that may still be squashed (log entry 119;
spec/04_fabric_tokens_and_steering.md R115, R138, R139). -/
def execPredicateFire (p : PredRead) (s : State) : Res :=
  let t := p.tile
  let x := s.tile t
  if !s.predicates t then go s
  else
    let q := x.get T.PRED_CFG_INQ
    match x.head q with
    | none => go s
    | some k =>
      if hKind k.hdr = kEnd then
        let s := s.consume t q
        go ((x.predOuts.foldl (fun s c => s.sendNew t c kEnd 0 false []) s).onTile t fun x =>
          { x with predIdx := 0, predOpen := [] })
      else if hKind k.hdr = kHem || (x.get T.PRED_CFG_OP = 4 && !x.predOpen.isEmpty) then go s
      else
        go (s.queueRead t q k p.dat fun s =>
          let r := xor (x.predicate k) (x.get T.PRED_CFG_INV = 1)
          let s := s.consume t q
          (x.predOuts.foldl (fun s c => s.predSend t c q k r) s).onTile t fun x => x.predCount q k)

/-- `PREDICATE_HEM_PASS`: a hem marker at the input is consumed and sent on each enabled output
(spec/05_patterns_and_reconfiguration.md R175). -/
def execPredicateHemPass (t : Nat) (s : State) : Res :=
  let x := s.tile t
  if !s.predicates t then go s
  else
    let q := x.get T.PRED_CFG_INQ
    match x.head q with
    | some k =>
      if hKind k.hdr = kHem then
        let s := s.consumeHem t q
        go ((x.predOuts.foldl (fun s c => s.sendHem t c) s).onTile t fun x => { x with predHem := true })
      else go s
    | none => go s

end Sys2Proof.Machine
end

