-- ==== Sys2Proof/Machine/Tokens.lean ====
section
/-! DEFINITION. Tokens on their way: routers, delivery at a destination, credits, buckets, guards and wait deadlines
(spec/04_fabric_tokens_and_steering.md R112 to R121, R140, R141, R145, R148, spec/05_patterns_and_reconfiguration.md
R164, R171 to R173, spec/06_progress_deadlock_drain.md R196, R202). -/

namespace Sys2Proof.Machine

/-! ### Routing -/

/-- Selvedge-clock cycles in which an attachment carries a token: 36 bytes a cycle, header included
(spec/04_fabric_tokens_and_steering.md Table 4.17). -/
def edgeCycles (h : W64) : Nat := if hLen h ≤ 28 then 1 else 2

/-- The check of a payload as a buffer is read: a corrected error is recorded, for a basted token once it is sewn; the flag
says whether the token goes on (spec/04_fabric_tokens_and_steering.md R115, R138). -/
def State.payCheck (s : State) (unit : Nat) (k : Token) (e : Ecc) : State × Bool :=
  if k.pay.isEmpty then (s, true)
  else
    match e with
    | .ok => (s, true)
    | .corrected => (s.tokFault k Code.FAB_PAYLOAD_CORR unit 0 false, true)
    | .uncorrectable =>
      if unit < nTiles then (s.tileStop unit Code.FAB_PAYLOAD_UNCORR 0, false)
      else (s.raise Code.FAB_PAYLOAD_UNCORR unit 0 0, false)

/-- Is a field of a header reserved, or do kind, channel and length disagree (spec/04_fabric_tokens_and_steering.md
Table 4.4 check 2)? -/
def fieldBad (h : W64) : Bool :=
  destReserved (hDest h) || decide (6 ≤ hKind h) || inRange 36 62 (hSrcp h) || decide (64 < hLen h) || !kindVcLen h

/-- Has a header its check code (spec/04_fabric_tokens_and_steering.md R112)? -/
def hdrOk (h : W64) : Bool := hCrc h = hdrCrc (h.toNat - hCrc h)

/-- What the mesh has for a command that moves a token on: a token that moves, if one does, or that all of them must wait. -/
inductive Moving where
  | tok (n : NetTok) | outside | waits
  deriving DecidableEq, Repr

/-- The token of the mesh that a command names by its header. A header that no token of the mesh carries comes from outside,
unless its check code says that it is damaged: then it is that of the first token that may move there. Tokens move in
the order of R140 to R142 (spec/04_fabric_tokens_and_steering.md R140 to R142; log entry 121). -/
def State.named (s : State) (there : NetTok → Bool) (hdr : W64) : Moving :=
  let known := s.net.filter fun n => n.tok.hdr = hdr
  let l := if !hdrOk hdr && known.isEmpty then s.net else known
  match l.find? fun n => there n && s.moves n with
  | some n => .tok n
  | none => if known.isEmpty then .outside else .waits

/-- A token that enters an input of a router: the header and the payload are checked, and the token lies in the input's
buffer (spec/04_fabric_tokens_and_steering.md R115, R117, Table 4.4 checks 1 and 2). -/
def State.routerIn (s : State) (n : NetTok) (hdr : W64) (e : Ecc) : State :=
  let p := s.payCheck n.r n.tok e
  if !hdrOk hdr then s.tileStop n.r Code.FAB_HDR_CRC 0
  else if !p.2 then p.1
  else if fieldBad hdr then p.1.tokFault n.tok Code.FAB_HDR_FIELD n.r 0 false
  else { p.1 with net := p.1.net ++ [n] }

/-- `TOKEN_ROUTER_INPUT`: the next token of its route enters a router (spec/04_fabric_tokens_and_steering.md R117,
Table 4.4 checks 1 and 2, R140 to R142). -/
def execTokenRouterInput (r : Nat) (hdr : W64) (pay : List Byte) (e : Ecc) (s : State) : Res :=
  if decide (nTiles ≤ r) || s.safe then go s
  else
    match s.named (fun n => !n.arrived && n.next.1 = r) hdr with
    | .tok n => go ((s.depart n).routerIn { n with r := n.next.1, inp := n.next.2, ent := true } hdr e)
    | .outside => go (s.routerIn ⟨r, .out, true, ⟨hdr, pay⟩, s.attOf r (hDest hdr) none, none⟩ hdr e)
    | .waits => go s

/-! ### Delivery -/

/-- A tile's register file of a generation that is live at it (spec/05_patterns_and_reconfiguration.md R164, R172). -/
def Tile.liveRegs (x : Tile) (g : Nat) : Option RegFile :=
  if x.gen = g then some x.regs
  else
    match x.pend with
    | some p => if p.armed && p.gen = g then some p.regs else none
    | none => none

/-- Is a generation live at a selvedge unit: its current one, the pending one once it has received ARM
(spec/05_patterns_and_reconfiguration.md R164)? -/
def State.unitLive (s : State) (u g : Nat) : Bool :=
  let l := s.loader
  if l.live then
    (decide (g = l.oldGen) && !l.ackSent.contains u) || (decide (g = l.gen) && l.unitArmed.contains u && !l.discarding)
  else g = s.curGen

/-- The last tag of a queue delivered and not squashed, for a generation. -/
def Tile.refTag (x : Tile) (q g : Nat) : Option Nat :=
  if x.gen = g then (x.queue q).refCur.getLast? else (x.queue q).refPend.getLast?

/-- Checks 4 and 5 of Table 4.4 for a token at a tile queue: enabled, virtual channel, kind and source panel agree, and
the tag is later (spec/04_fabric_tokens_and_steering.md R117, spec/05_patterns_and_reconfiguration.md R172). -/
def Tile.chanOk (x : Tile) (rf : RegFile) (q : Nat) (h : W64) : Bool :=
  qEn rf q && rfGet rf (T.QCFG_VC q) = hVc h && rfGet rf (T.QCFG_SRC_PANEL q) = hSrcp h
    && (if hKind h = kCtl then rfGet rf (T.QCFG_CTL q) = 1 else if hKind h = kData then rfGet rf (T.QCFG_CTL q) = 0 else true)
    && (if hKind h = kCtl || hKind h = kData then
          (match x.refTag q (hGen h) with
            | some g => serialLater 8 (hTag h) g
            | none => true)
        else true)

/-- The tag of a token that has been delivered noted as its generation's reference. -/
def Tile.noteTag (x : Tile) (q : Nat) (h : W64) : Tile :=
  if hKind h = kCtl || hKind h = kData then
    let v := x.queue q
    if x.gen = hGen h then x.setQueue q { v with refCur := pushTag v.refCur (hTag h) }
    else x.setQueue q { v with refPend := pushTag v.refPend (hTag h) }
  else x

/-- A verdict kept until its token came, absorbed now (spec/04_fabric_tokens_and_steering.md R131). -/
def State.keptVerdict (s : State) (t q : Nat) (k : Token) : State :=
  if hBasted k.hdr then
    match (s.tile t).verdicts.find? fun v => v.1 = q && v.2.1 = hTag k.hdr with
    | some v => (s.onTile t fun x => { x with verdicts := x.verdicts.erase v }).verdictAt t q (hTag k.hdr) v.2.2
    | none => s
  else s

/-- A token put into a slot of a tile queue; one of the tile's generation ends a wait on the queue. -/
def Tile.landTok (x : Tile) (q : Nat) (k : Token) : Tile :=
  let y := x.noteTag q k.hdr
  let y := y.setQueue q { y.queue q with toks := (y.queue q).toks ++ [k] }
  if hGen k.hdr = x.gen then y.untripOn (.queue q) else y

/-- Must a token wait in the router: its queue is in spill mode and the staging buffer is full
(spec/06_progress_deadlock_drain.md R202)? -/
def Tile.stuck (x : Tile) (k : Token) : Bool :=
  let q := hDq k.hdr
  (x.queue q).spill && decide (8 ≤ x.staging.length) &&
    match x.liveRegs (hGen k.hdr) with
    | some rf => x.chanOk rf q k.hdr
    | none => false

/-- A token that has passed checks 1 to 5 put into the staging buffer, and sent on to the controller when it is sewn
(spec/06_progress_deadlock_drain.md R202). -/
def State.stageTok (s : State) (t q : Nat) (k : Token) : State :=
  let s := s.onTile t fun x => x.noteTag q k.hdr
  if hBasted k.hdr then (s.onTile t fun x => { x with staging := x.staging ++ [(q, k)] }).keptVerdict t q k
  else s.sendSpill t q k

/-- A token delivered to a queue of a tile (spec/04_fabric_tokens_and_steering.md Table 4.4 checks 3 to 6). -/
def State.toQueue (s : State) (t : Nat) (k : Token) : State :=
  let x := s.tile t
  let q := hDq k.hdr
  match x.liveRegs (hGen k.hdr) with
  | none => (s.tokFault k Code.PAT_GEN_UNKNOWN t q true).keptVerdict t q k
  | some rf =>
    if !x.chanOk rf q k.hdr then (s.tokFault k Code.FAB_CHAN_MISMATCH t q false).keptVerdict t q k
    else if (x.queue q).spill then s.stageTok t q k
    else if x.freeSlots q = 0 then (s.tokFault k Code.FAB_CREDIT t q false).keptVerdict t q k
    else (s.setTile t (x.landTok q k)).keptVerdict t q k

/-- Does a tile hold a basted token of a queue and tag, or a trace of one that awaits a verdict, or is one in the mesh
(spec/04_fabric_tokens_and_steering.md R131)? -/
def State.expects (s : State) (t q g : Nat) : Bool :=
  let x := s.tile t
  (x.entries.any fun e => e.q = q && hTag e.tok.hdr = g) || (x.queue q).toks.any (bastedTag g)
    || (x.staging.any fun p => p.1 = q && bastedTag g p.2) || x.holdsFault q g
    || (x.fwd.any fun f => f.1 = q && f.2.1 = g) || s.bastedInNet t q g

/-- Is a token one that a unit's control logic takes: a probe or a management token, to which checks 3 to 6 do not apply
(spec/04_fabric_tokens_and_steering.md R114)? -/
def ctlToken (h : W64) : Bool := hKind h = kProbe || hVc h = 0

/-- Is a token for a tile one whose action has a row of its own: a verdict, a response for a bobbin (log entry 14)? A
verdict is told from a control token of the queue by the queue's kind, or by a basted token of its tag that awaits one
(DEDUCED). Check 3 applies to these tokens, and checks 4 to 6 do not (spec/04_fabric_tokens_and_steering.md R131,
spec/09_bobbin_streams.md R300). -/
def State.ownRow (s : State) (t : Nat) (k : Token) : Bool :=
  let x := s.tile t
  let h := k.hdr
  let q := hDq h
  (hKind h = kCtl && hLen h = 8 && !hBasted h && inRange 1 2 (bits (payWord k) 62 2)
        && (x.get (T.QCFG_CTL q) = 0 || s.expects t q (hTag h)))
    || (inRange 30 31 q && bobEn x.regs (q - 30) && hSrcp h = 0x3F && decide (2 ≤ hVc h))

/-- A basted token that a selvedge unit has dropped meets a verdict kept for it. -/
def State.keptUnit (s : State) (u : Nat) (k : Token) : State :=
  match s.fab.verdicts.find? fun v => hBasted k.hdr && v.1 = u && v.2.1 = hDq k.hdr && v.2.2.1 = hTag k.hdr with
  | some v => { s with fab := { s.fab with verdicts := s.fab.verdicts.erase v } }.heldUnit u v.2.1 v.2.2.1 v.2.2.2
  | none => s

/-- An atomic request whose payload is illegal is refused as it arrives; the rows of the atomics act on those that are not
(spec/08_memory_system.md R274, R275; log entry 14). -/
def State.atomToken (s : State) (u : Nat) (k : Token) (src : Option (Nat × Nat)) : State :=
  let q := atomOf ((src.map Prod.fst).getD 0) k.pay s.seed
  if hDq k.hdr = 28 && hKind k.hdr = kData && inRange 0xC00 0xC17 u && q.illegal then
    let at_ := if q.addr < lpEnd && s.reachAt q.addr = .ok then (chanOf (s.memUnit q.addr), s.memUnit q.addr) else (0, 0)
    let s := s.tokFault k Code.MEM_ATOM_RANGE u at_.1 false at_.2
    if hBasted k.hdr then s.keptUnit u k else s.emit (.memRefused q.agent q.addr Code.MEM_ATOM_RANGE)
  else if hBasted k.hdr then { s with fab := { s.fab with came := s.fab.came ++ [(u, hDq k.hdr, hTag k.hdr)] } }
  else s

/-- A token delivered to a selvedge unit: its generation is checked, a spill token is kept for the unpick controller,
and its slot is freed; what the unit does with it has a row of its own (spec/05_patterns_and_reconfiguration.md R164; log
entry 14). -/
def State.toUnit (s : State) (u : Nat) (k : Token) (src : Option (Nat × Nat)) : State :=
  if !s.unitLive u (hGen k.hdr) then (s.tokFault k Code.PAT_GEN_UNKNOWN u (hDq k.hdr) true).keptUnit u k
  else
    if hKind k.hdr = kSpill && u = 0xC32 then
      let from_ := (src.map Prod.fst).getD (4096 + hSrcp k.hdr)
      { s with unpick := { s.unpick with arrived := s.unpick.arrived ++ [(from_, k)] } }
    else (s.atomToken u k src).creditTo src (hGen k.hdr)

/-- A token that has left the mesh for its destination, checked there (spec/04_fabric_tokens_and_steering.md R115, R117,
Table 4.4 checks 3 to 6). -/
def State.deliverTok (s : State) (dest : Nat) (k : Token) (src : Option (Nat × Nat)) (e : Ecc) : State :=
  let p := s.payCheck dest k e
  if !p.2 || ctlToken k.hdr then p.1
  else if nTiles ≤ dest then p.1.toUnit dest k src
  else if hKind k.hdr = kSpill then p.1.onTile dest fun x => { x with spillIn := x.spillIn ++ [k] }
  else if p.1.ownRow dest k then
    if ((s.tile dest).liveRegs (hGen k.hdr)).isNone then p.1.tokFault k Code.PAT_GEN_UNKNOWN dest (hDq k.hdr) true
    else p.1
  else p.1.toQueue dest k

/-- A token carried by its attachment into a selvedge unit, counted (spec/04_fabric_tokens_and_steering.md Table 4.17). -/
def State.edge (s : State) (n : NetTok) : State :=
  match (attachments (hDest n.tok.hdr))[n.att]? with
  | some a => s.bump (R.EDGE_BUSY a.1) (edgeCycles n.tok.hdr)
  | none => s

/-- `TOKEN_DELIVERY`: a token leaves the mesh at its destination (spec/04_fabric_tokens_and_steering.md R117, R141,
Table 4.4 checks 3 to 6); one for a queue whose staging buffer is full stays in the router. -/
def execTokenDelivery (dest : Nat) (hdr : W64) (pay : List Byte) (e : Ecc) (s : State) : Res :=
  if s.safe || destReserved dest then go s
  else
    match s.named (fun n => n.arrived && hDest n.tok.hdr = dest) hdr with
    | .tok n =>
      if decide (dest < nTiles) && !ctlToken n.tok.hdr && !s.ownRow dest n.tok && (s.tile dest).stuck n.tok then go s
      else go (((s.depart n).edge n).deliverTok dest n.tok n.src e)
    | .outside =>
      if decide (dest < nTiles) && !s.ownRow dest ⟨hdr, pay⟩ && (s.tile dest).stuck ⟨hdr, pay⟩ then go s
      else go (s.deliverTok dest ⟨hdr, pay⟩ none e)
    | .waits => go s

/-! ### Credits and buckets -/

/-- A wait on an output channel is over once it holds a credit and a bucket token. -/
def Tile.ochWaitOver (x : Tile) (c : Nat) : Tile := if x.canSend c then x.untripOn (.och c) else x

/-- A credit added to the channel of a unit that holds it: for the current generation at once, for the pending one kept
until the switch (spec/04_fabric_tokens_and_steering.md R119, spec/05_patterns_and_reconfiguration.md R173). -/
def State.addCredit (s : State) (c : Credit) : State :=
  if c.dest < nTiles then
    s.onTile c.dest fun x =>
      let o := x.och c.chan
      if x.gen = c.gen then (x.setOch c.chan { o with credits := o.credits + 1 }).ochWaitOver c.chan
      else if (x.pend.map TilePend.gen) = some c.gen then x.setOch c.chan { o with kept := o.kept + 1 }
      else x
  else if c.dest = 0xC34 then
    let up (l : List StepChan) : List StepChan :=
      l.mapIdx fun k h => if k = c.chan && h.gen = c.gen then { h with credits := h.credits + 1 } else h
    { s with tape := { s.tape with chans := up s.tape.chans, pendChans := up s.tape.pendChans } }
  else if c.chan < 256 then
    { s with seam := { s.seam with ins := s.seam.ins.map fun i =>
        if 0xC20 + i.rc.port = c.dest && i.rc.slot = c.chan && i.gen = c.gen then { i with credits := i.credits + 1 } else i } }
  else
    { s with seam := { s.seam with done := s.seam.done.map fun d =>
        if 0xC20 + d.port = c.dest && doneChan d.dest d.dq = c.chan && d.gen = c.gen then { d with credits := d.credits + 1 }
        else d } }

/-- The token that a step channel sends next, if it owes one and can send
(spec/11_host_interface_and_command_tape.md R369). -/
def StepChan.next (c : StepChan) : Option (Token × StepChan) :=
  if c.credits = 0 || c.bucket = 0 then none
  else
    let d := { c with credits := c.credits - 1, bucket := c.bucket - 1 }
    match c.owed with
    | b :: l =>
      some (⟨mkHdr ⟨c.dest, c.dq, c.gen, c.tagc, kCtl, false, 1, b.length, 0x3F, 0⟩, b⟩,
        { d with owed := l, tagc := (c.tagc + 1) % 256 })
    | [] =>
      if c.owedEnd then some (⟨mkHdr ⟨c.dest, c.dq, c.gen, 0, kEnd, false, 1, 0, 0x3F, 0⟩, []⟩, { d with owedEnd := false })
      else none

/-- Has a Run fault stopped a channel of a selvedge unit (spec/04_fabric_tokens_and_steering.md R121, R148)? -/
def State.chanStopped (s : State) (u c : Nat) : Bool := s.fab.stopped.contains (u, c)

/-- The tokens that a step channel owes sent as far as it can; `pend` says that it is one of the pending generation, the
last argument bounds the recursion. -/
def State.pumpStep (s : State) (pend : Bool) (k : Nat) : Nat → State
  | 0 => s
  | n + 1 =>
    let l := if pend then s.tape.pendChans else s.tape.chans
    match if s.chanStopped 0xC34 k then none else l[k]?.bind StepChan.next with
    | some (tok, c) =>
      let t := if pend then { s.tape with pendChans := l.set k c } else { s.tape with chans := l.set k c }
      ({ s with tape := t }.sendUnit 0xC34 tok (some (0xC34, k))).pumpStep pend k n
    | none => s

/-- The completions that wait sent as far as the channels can (spec/05_patterns_and_reconfiguration.md R160). -/
def State.pumpDone (s : State) : Nat → State
  | 0 => s
  | n + 1 =>
    match s.seam.done.find? fun d => !d.owed.isEmpty && decide (0 < d.credits) && decide (0 < d.bucket)
        && !s.chanStopped (0xC20 + d.port) (doneChan d.dest d.dq) with
    | some d =>
      match d.owed with
      | b :: l =>
        let e := { d with owed := l, credits := d.credits - 1, bucket := d.bucket - 1, tagc := (d.tagc + 1) % 256 }
        let s := { s with seam := { s.seam with done := s.seam.done.map fun c => if c = d then e else c } }
        (s.sendUnit (0xC20 + d.port) ⟨mkHdr ⟨d.dest, d.dq, d.gen, d.tagc, kCtl, false, 1, b.length, 0x3F, 0⟩, b⟩
          (some (0xC20 + d.port, doneChan d.dest d.dq))).pumpDone n
      | [] => s
    | none => s

/-- The tokens of selvedge units that wait only for their channels sent. -/
def State.pumpUnits (s : State) : State :=
  let s := (List.range s.tape.chans.length).foldl (fun s k => s.pumpStep false k 32) s
  let s := (List.range s.tape.pendChans.length).foldl (fun s k => s.pumpStep true k 32) s
  s.pumpDone 64

/-- `CREDIT_RETURN`: a credit of the lane reaches its output channel (spec/04_fabric_tokens_and_steering.md R119). -/
def execCreditReturn (dest chan : Nat) (s : State) : Res :=
  match s.lane.find? fun c => c.dest = dest && c.chan = chan with
  | some c => go ({ s with lane := s.lane.erase c }.addCredit c).pumpUnits
  | none => go s

/-- `BUCKET_REFILL`: a channel's bucket gains one token, up to `BURST` (spec/04_fabric_tokens_and_steering.md R119,
spec/10_seam_ports_and_collectives.md R331, spec/11_host_interface_and_command_tape.md R369). -/
def execBucketRefill (t c : Nat) (s : State) : Res :=
  if s.safe then go s
  else if t < nTiles then
    go (s.onTile t fun x =>
      let o := x.och c
      if chEn x.regs c && decide (o.bucket < x.get (T.OCH_BURST c)) then (x.setOch c { o with bucket := o.bucket + 1 }).ochWaitOver c else x)
  else if t = 0xC34 then
    let up (l : List StepChan) : List StepChan :=
      l.mapIdx fun k h => if k = c then { h with bucket := min h.burst (h.bucket + 1) } else h
    go ({ s with tape := { s.tape with chans := up s.tape.chans, pendChans := up s.tape.pendChans } }.pumpUnits)
  else if c < 256 then
    go { s with seam := { s.seam with ins := s.seam.ins.map fun i =>
      if 0xC20 + i.rc.port = t && i.rc.slot = c then { i with bucket := min i.rc.burst (i.bucket + 1) } else i } }
  else
    let up (d : DoneChan) : DoneChan :=
      if 0xC20 + d.port = t && doneChan d.dest d.dq = c then { d with bucket := min doneBurst (d.bucket + 1) } else d
    go ({ s with seam := { s.seam with done := s.seam.done.map up } }.pumpUnits)

/-- `VC3_GUARD_EXPIRY`: the guard timer of a router output runs out, and the oldest VC3 token that waits there is granted
before VC2 (spec/04_fabric_tokens_and_steering.md R141 rule 4; log entry 121). -/
def execVc3GuardExpiry (r : Nat) (p : Port) (s : State) : Res :=
  if !s.safe && s.net.any fun n => n.ent && n.r = r && n.port = p && n.vc = 3 then
    go { s with fab := { s.fab with arb := kvSet s.fab.arb (outKey r p) { s.arbAt r p with guard := true } } }
  else go s

/-! ### Wait deadlines -/

/-- The waits of a shuttle: for the control head while a datum is at its data head or is basted and unresolved, for a datum
that the control token selects, for an output that cannot send; each also counts against the queue of the datum, from the
moment that the datum is there until it has gone sewn. With no datum and no control token it waits on nothing
(spec/04_fabric_tokens_and_steering.md R121, R126 to R128, R137, Table 4.10; log entry 122). -/
def Tile.shutWaits (x : Tile) (k : Nat) : List Wait :=
  let cq := x.ctlq k
  let lacking (l : List Nat) : List Wait := (l.filter fun c => !x.canSend c).map Wait.och
  let there (b : Bool) : List Wait := ((x.dataQs k).filter fun q => (x.head q).isSome = b).map Wait.queue
  let basted (t : Option Token) : Bool := t.any fun t => hBasted t.hdr
  match x.resend.find? fun r => r.1 = k with
  | some r => (x.dataQs k).map Wait.queue ++ lacking [r.2.1]
  | none =>
    match (x.shut k).find? BasteBuf.own, x.head cq with
    | some b, c => if c.isNone || basted c then [.queue cq, .queue (x.sideQ k b.side)] else []
    | none, none => if (there true).isEmpty then [] else .queue cq :: there true
    | none, some c =>
      if isMarker c then (if (there false).isEmpty then lacking (x.markOuts k) else there false)
      else
        let q := x.sideQ k (sideOf c)
        let out := if x.get (T.SHUT_CFG_MODE k) = 3 && sideOf c = 0 then [] else lacking [x.sideOut k (sideOf c)]
        if (x.head q).isNone || !out.isEmpty || basted (some c) || basted (x.head q) then .queue q :: out else []

/-- The waits of the predicate unit: for its input, or for an output that cannot send. -/
def Tile.predWaits (x : Tile) : List Wait :=
  let q := x.get T.PRED_CFG_INQ
  if (x.head q).isNone || (x.get T.PRED_CFG_OP = 4 && !x.predOpen.isEmpty) then [.queue q]
  else (x.predOuts.filter fun c => !x.canSend c).map Wait.och

/-- What an agent of a tile waits on: the tile program on what its instruction needs, a basted head that it must leave in its
queue among it; a bobbin on the channel of its `EMIT` (spec/04_fabric_tokens_and_steering.md R121, R133, R137). -/
def State.agentWaits (s : State) (t : Nat) (a : TAgent) : List Wait :=
  let x := s.tile t
  if nTiles ≤ t || x.get T.TILE_STATUS_STATE = 4 then []
  else
    match a with
    | .prog =>
      match x.progWait with
      | some (.queue q) => if (x.head q).all fun k => hBasted k.hdr then [.queue q] else []
      | some (.och c) => if x.canSend c then [] else [.och c]
      | none => []
    | .bob b =>
      let c := bits (x.bword (x.bpc b)) 53 5
      if (x.bob b).run && x.get (T.BOB_STAT_STATE b) = 4 && !x.canSend c then [.och c] else []
    | .shut k => if shEn x.regs k then x.shutWaits k else []
    | .pred => if prEn x.regs then x.predWaits else []

/-- Are credits of a generation's channel into a queue of a tile withheld still, a wait for which does not count
(spec/05_patterns_and_reconfiguration.md R173)? -/
def State.withheld (s : State) (dest dq gen : Nat) : Bool :=
  decide (dest < nTiles) && (s.tile dest).pend.any fun p => p.gen = gen && kvGet 0 p.withheld dq ≠ 0

/-- Does a wait of an agent of a tile count now (spec/04_fabric_tokens_and_steering.md R121,
spec/06_progress_deadlock_drain.md R196)? -/
def State.waitCounts (s : State) (t : Nat) (a : TAgent) (w : Wait) : Bool :=
  let x := s.tile t
  s.issues && (s.agentWaits t a).contains w &&
    match w with
    | .queue _ => s.drain = 0
    | .och c => s.drain ≠ 2 && !s.withheld (x.get (T.OCH_DEST c)) (x.get (T.OCH_DQ c)) x.gen

/-- What a wait names in a record: the queue, or the channel with bit 15 set (spec/15_faults_and_safe_state.md
Table 15.3). -/
def waitSub : Wait → Nat
  | .queue q => q
  | .och c => 0x8000 + c

/-- Does a selvedge unit wait for a credit or a bucket token of a step channel, a seam inbound channel or a completion
channel (spec/11_host_interface_and_command_tape.md R369, spec/10_seam_ports_and_collectives.md R331,
spec/05_patterns_and_reconfiguration.md R160)? -/
def State.unitWaits (s : State) (u : Nat) : Wait → Bool
  | .och c =>
    s.issues && s.drain ≠ 2 && !s.chanStopped u c &&
      if u = 0xC34 then
        s.tape.chans[c]?.any fun h =>
          (!h.owed.isEmpty || h.owedEnd) && (h.credits = 0 || h.bucket = 0) && !s.withheld h.dest h.dq h.gen
      else
        (s.seam.ins.any fun i => 0xC20 + i.rc.port = u && i.rc.slot = c && !i.queue.isEmpty
          && (i.credits = 0 || i.bucket = 0) && !s.withheld i.rc.dest i.rc.dq i.gen)
        || (s.seam.done.any fun d => 0xC20 + d.port = u && doneChan d.dest d.dq = c && !d.owed.isEmpty
          && (d.credits = 0 || d.bucket = 0) && !s.withheld d.dest d.dq d.gen)
  | .queue _ => false

/-- `FAB_CHAN_DEADLINE`: a wait on a queue or an output channel reaches its `DL`, and the agent stops: a tile, a channel of a
selvedge unit (spec/04_fabric_tokens_and_steering.md R121, R148); a bobbin that waits aborts its stream
(spec/09_bobbin_streams.md R306). -/
def execFabChanDeadline (t : Nat) (agent : TAgent) (w : Wait) (s : State) : Res :=
  if s.unitWaits t w then
    let s := match w with
      | .och c => { s with fab := { s.fab with stopped := s.fab.stopped ++ [(t, c)] } }
      | .queue _ => s
    go (s.raise Code.FAB_CHAN_DEADLINE t (waitSub w) 0)
  else if s.waitCounts t agent w then
    let s := match agent with
      | .bob b => s.abortStream t b
      | _ => s
    go (s.tileStop t Code.FAB_CHAN_DEADLINE (waitSub w))
  else go s

end Sys2Proof.Machine
end

