-- ==== Sys2Proof/Machine/PatternCheck.lean ====
section
/-! DEFINITION. A pattern image and the checks that the loader makes in pass 1 (spec/05_patterns_and_reconfiguration.md
R150 to R161, R494, spec/03_compute_tile.md R77, R80, R101, spec/04_fabric_tokens_and_steering.md R493,
spec/09_bobbin_streams.md R286 to R289, spec/10_seam_ports_and_collectives.md R326, R327,
spec/11_host_interface_and_command_tape.md R369). -/

namespace Sys2Proof.Machine

/-- A failing item: fault code, section index, byte offset in the image (spec/05_patterns_and_reconfiguration.md
R157). -/
abbrev PFail := Option (Nat × Nat × Nat)

/-- The section index that stands for the header and the section table. -/
def noSec : Nat := 0xFFFF

/-- A check of an item. -/
def pIf (c : Bool) (code sec off : Nat) : PFail := if c then some (code, sec, off) else none

/-- The first failure over a list, in order. -/
def pOver {α : Type} (l : List α) (f : α → PFail) : PFail := l.findSome? f

/-! ### Sections -/

/-- Section types (spec/05_patterns_and_reconfiguration.md Table 5.3). -/
def sCfg : Nat := 0x0001
def sImem : Nat := 0x0002
def sSpad : Nat := 0x0003
def sBob : Nat := 0x0004
def sUnit : Nat := 0x0010
def sRegion : Nat := 0x0020

/-- An entry of the section table with its index (spec/05_patterns_and_reconfiguration.md Table 5.2). -/
structure Sec where
  idx : Nat
  ty : Nat
  tg : Nat
  off : Nat
  len : Nat
  cnt : Nat
  deriving DecidableEq, Repr

/-- Where an entry of the section table stands. -/
def Sec.at_ (e : Sec) : Nat := 0x40 + 16 * e.idx

/-- Header fields (spec/05_patterns_and_reconfiguration.md Table 5.1). -/
def imgLen (img : List Byte) : Nat := field img 8 4
def imgId (img : List Byte) : Nat := field img 0x0C 4
def imgSecs (img : List Byte) : Nat := field img 0x10 2
def imgHold (img : List Byte) : Bool := bit (field img 0x12 2) 0
def imgSpill (img : List Byte) : Nat := field img 0x14 4

/-- The section table. -/
def allSecs (img : List Byte) : List Sec :=
  (List.range (imgSecs img)).map fun i =>
    let e := 0x40 + 16 * i
    ⟨i, field img e 2, field img (e + 2) 2, field img (e + 4) 4, field img (e + 8) 4, field img (e + 12) 4⟩

/-- The sections that the loader interprets: those that are not optional ones
(spec/05_patterns_and_reconfiguration.md R152). -/
def secsOf (img : List Byte) : List Sec := (allSecs img).filter fun e => decide (e.ty < 0x8000)

/-- The sections of a type. -/
def secsTy (img : List Byte) (ty : Nat) : List Sec := (secsOf img).filter fun e => e.ty = ty

/-- The section of a type for a target. -/
def secFor (img : List Byte) (ty tg : Nat) : Option Sec := (secsOf img).find? fun e => e.ty = ty && e.tg = tg

/-- `LENGTH` that a section must have; none where its target has no layout (spec/05_patterns_and_reconfiguration.md
Table 5.3). -/
def secLength (e : Sec) : Option Nat :=
  if e.ty = sCfg then some (16 * e.cnt)
  else if e.ty = sImem then some (8 * e.cnt)
  else if e.ty = sSpad then some (8 + 64 * e.cnt)
  else if e.ty = sBob then some (64 + 8 * e.cnt)
  else if e.ty = sRegion then some (32 * e.cnt)
  else if e.tg = 0xC34 then some (16 * e.cnt)
  else if inRange 0xC20 0xC27 e.tg then some (32 * e.cnt)
  else none

/-- Is the target legal for the type? -/
def secTarget (e : Sec) : Bool :=
  if e.ty = sRegion then e.tg = 0xFFFF
  else if e.ty = sUnit then e.tg = 0xC34 || inRange 0xC20 0xC27 e.tg
  else decide (e.tg < nTiles)

/-- Does a configuration of a tile take part in its generation (spec/05_patterns_and_reconfiguration.md R164)? -/
def partOf (t count bobCount : Nat) (rf : RegFile) : Bool :=
  count ≠ 0 || bobCount ≠ 0 || (List.range 32).any (fun q => qEn rf q || chEn rf q) || shEn rf 0 || shEn rf 1
    || (predCap t && prEn rf) || (List.range 16).any (ringEn rf)

/-- Does a tile take part in its current generation? -/
def Tile.takesPart (x : Tile) (t : Nat) : Bool := partOf t x.count x.bobCount x.regs

/-! ### Rows 1 to 4 -/

/-- Rows 1 and 2 (spec/05_patterns_and_reconfiguration.md Table 5.6, R155). -/
def State.hdrFail (s : State) (img : List Byte) (len : Nat) : PFail :=
  let n := imgLen img
  pIf (field img 0 4 ≠ 0x5441504C) Code.PAT_HDR noSec 0
    <|> pIf (field img 6 2 ≠ 64) Code.PAT_HDR noSec 6
    <|> pIf (n % 64 ≠ 0 || !inRange 64 0x40000000 n || n ≠ len) Code.PAT_HDR noSec 8
    <|> pIf (decide (8192 < imgSecs img) || decide (n < 0x40 + 16 * imgSecs img)) Code.PAT_HDR noSec 0x10
    <|> pIf (decide (2 ≤ field img 0x12 2)) Code.PAT_HDR noSec 0x12
    <|> pIf (!zeroAt img 0x1A 34) Code.PAT_HDR noSec 0x1A
    <|> pIf (field img 5 1 ≠ s.get R.PL_VERSION_MAJOR) Code.PAT_VERSION noSec 5
    <|> pIf (decide (s.get R.PL_VERSION_MINOR < field img 4 1)) Code.PAT_VERSION noSec 4
    <|> pIf (field img 0x18 2 ≠ 0 && field img 0x18 2 ≠ 0x4101) Code.PAT_VERSION noSec 0x18

/-- Is `IMG_CRC` correct (spec/05_patterns_and_reconfiguration.md R151)? -/
def imgCrcOk (img : List Byte) : Bool :=
  crc32 (img.take 0x3C ++ List.replicate 4 0 ++ (img.take (imgLen img)).drop 0x40) = field img 0x3C 4

/-- Row 4 for the sections from one on: the end of the body before, the sections seen
(spec/05_patterns_and_reconfiguration.md R152; a `COUNT` that Table 5.3 does not allow, log entry 134). -/
def State.secFail (s : State) (img : List Byte) : List Sec → Nat → List (Nat × Nat) → PFail
  | [], _, _ => none
  | e :: l, prev, seen =>
    let h := e.at_
    let bad (c : Bool) (off : Nat) : PFail := pIf c Code.PAT_SECTION noSec off
    let body (c : Bool) (off : Nat) : PFail := pIf c Code.PAT_SECTION e.idx off
    let place := bad (e.off % 8 ≠ 0 || decide (e.off < prev)) (h + 4) <|> bad (decide (imgLen img < e.off + e.len)) (h + 8)
    let own : PFail :=
      if 0x8000 ≤ e.ty then none
      else
        bad (!([sCfg, sImem, sSpad, sBob, sUnit, sRegion].contains e.ty)) h
          <|> bad (e.ty = sImem && decide (2048 < e.cnt)) (h + 12)
          <|> bad ((secLength e).any (· ≠ e.len)) (h + 8)
          <|> bad (seen.contains (e.ty, e.tg)) (h + 2)
          <|> bad (!secTarget e) (h + 2)
          <|> (if e.ty = sSpad then
              bad ((s.tile e.tg).takesPart e.tg) (h + 2)
                <|> body (!zeroAt img (e.off + 2) 6) (e.off + 2)
                <|> body (e.cnt ≠ 0 && decide (4096 < field img e.off 2 + e.cnt)) e.off
            else none)
    place <|> own <|> s.secFail img l (e.off + e.len) ((e.ty, e.tg) :: seen)

/-! ### Tile configurations -/

/-- The register that a `TILE_CFG` record may name at an offset (spec/05_patterns_and_reconfiguration.md R153). -/
def cfgReg (o : Nat) : Option RDesc :=
  if o = 0x10 || (inRange 0x40 0x13F o && o % 16 = 0) || (inRange 0x200 0x3FF o && o % 8 = 0 && o % 32 ≠ 24)
      || (inRange 0x500 0x6FF o && o % 8 = 0) || o = 0x700 || o = 0x710 || o = 0x740 then regAt (tileSpace + o)
  else none

/-- A value's bits outside the fields of a register. -/
def reservedBits (d : RDesc) (v : Nat) : Bool :=
  v ≠ (d.flds.map fun f => bits v f.lo (f.hi + 1 - f.lo) * 2 ^ f.lo).sum

/-- A register of a tile given a value in a register file. -/
def rfPut (rf : RegFile) (o v : Nat) : RegFile :=
  match regAt (tileSpace + o) with
  | some d => d.flds.foldl (fun rf f => rfSet rf ⟨tileSpace + o, f.hi, f.lo⟩ (bits v f.lo (f.hi + 1 - f.lo))) rf
  | none => rf

/-- The records of a `TILE_CFG` section: image offset, register, width, value. -/
def cfgRecs (img : List Byte) (e : Sec) : List (Nat × Nat × Nat × Nat) :=
  (List.range e.cnt).map fun j =>
    let o := e.off + 16 * j
    (o, field img o 2, field img (o + 2) 1, field img (o + 8) 8)

/-- The new configuration of a tile: the Reset values, its `TILE_CFG` records, and the fixed part of its `BOBBIN` section
(spec/05_patterns_and_reconfiguration.md R154, spec/09_bobbin_streams.md R286). -/
def newRegs (img : List Byte) (t : Nat) : RegFile :=
  let rf : RegFile := match secFor img sCfg t with
    | some e => (cfgRecs img e).foldl (fun rf r => rfPut rf r.2.1 r.2.2.2) []
    | none => []
  match secFor img sBob t with
  | some e =>
    [(0x780, 0x00, 8), (0x788, 0x08, 8), (0x790, 0x10, 4), (0x7A0, 0x18, 8), (0x7A8, 0x20, 8), (0x7B0, 0x28, 4),
      (0x7C0, 0x30, 8)].foldl (fun rf p => rfPut rf p.1 (field img (e.off + p.2.1) p.2.2)) rf
  | none => rf

/-- The words of a tile's new program, and of its bobbin program. -/
def newWords (img : List Byte) (t : Nat) : List W64 :=
  match secFor img sImem t with
  | some e => (List.range e.cnt).map fun j => BitVec.ofNat 64 (field img (e.off + 8 * j) 8)
  | none => []
def newBob (img : List Byte) (t : Nat) : List W64 :=
  match secFor img sBob t with
  | some e => (List.range e.cnt).map fun j => BitVec.ofNat 64 (field img (e.off + 64 + 8 * j) 8)
  | none => []

/-- Is a key one of an `ST` field? -/
def stKey (k : Nat) : Bool :=
  match regAt (keyOff k) with
  | some d => d.flds.any fun f => f.lo = k % 64 && f.ty = .st
  | none => false

/-- A stage that takes a tile to a new configuration: every `ST` field that differs from its Reset value before or after
(spec/05_patterns_and_reconfiguration.md R154, R157). -/
def stageTo (rf rf' : RegFile) : Stage :=
  let ks := (((rf.map Prod.fst) ++ (rf'.map Prod.fst)).filter stKey).dedup
  ks.foldl (fun st k => kvSet st k (2 ^ 64 - 1, rfGet rf' ⟨keyOff k, 63, k % 64⟩)) []

/-- Row 5 (spec/05_patterns_and_reconfiguration.md Table 5.8); what `PL_ERR` names for a queue with `SPILL` 1: log entry
132. -/
def zeroFail (img : List Byte) : PFail :=
  pOver (secsOf img) fun e =>
    if e.ty = sCfg then
      pOver (cfgRecs img e) fun r =>
        pIf (imgSpill img = 0 && inRange 0x500 0x5FF r.2.1 && r.2.1 % 8 = 0 && bit r.2.2.2 0 && bit r.2.2.2 22)
          Code.PAT_ZERO_FIELD e.idx (r.1 + 8)
    else if e.ty = sRegion then
      pOver (List.range e.cnt) fun j =>
        let o := e.off + 32 * j
        pIf (zeroAt img (o + 8) 8) Code.PAT_ZERO_FIELD e.idx (o + 8)
          <|> pIf (zeroAt img (o + 0x11) 1) Code.PAT_ZERO_FIELD e.idx (o + 0x11)
    else none

/-- Row 6: `TILE_CFG` records and `REGION` records (spec/05_patterns_and_reconfiguration.md R153, R494). -/
def fieldFail (img : List Byte) : PFail :=
  pOver (secsOf img) fun e =>
    let bad (c : Bool) (off : Nat) : PFail := pIf c Code.PAT_FIELD e.idx off
    if e.ty = sCfg then
      let rs := cfgRecs img e
      pOver (List.range e.cnt) fun j =>
        let o := e.off + 16 * j
        let r := field img o 2
        match cfgReg r with
        | none => bad true o
        | some d =>
          bad ((r = 0x740 && !predCap e.tg) || ((rs.take j).any fun p => p.2.1 = r)) o
            <|> bad (field img (o + 2) 1 * 8 ≠ d.width) (o + 2)
            <|> bad (!zeroAt img (o + 3) 5) (o + 3)
            <|> bad (reservedBits d (field img (o + 8) 8)) (o + 8)
    else if e.ty = sRegion then
      pOver (List.range e.cnt) fun j =>
        let o := e.off + 32 * j
        bad (field img o 8 % 256 ≠ 0) o
          <|> bad (field img (o + 8) 8 % 256 ≠ 0) (o + 8)
          <|> bad (decide (4 < field img (o + 0x10) 1)) (o + 0x10)
          <|> bad (decide (16 ≤ field img (o + 0x11) 1)) (o + 0x11)
          <|> bad (!zeroAt img (o + 0x12) 14) (o + 0x12)
    else none

/-! ### Programs -/

/-- The opcodes of Table 3.3 (spec/03_compute_tile.md R77). -/
def progOpcodes : List Nat :=
  [0x00, 0x01, 0x02, 0x04, 0x05, 0x06, 0x08, 0x10, 0x11, 0x12, 0x14, 0x15, 0x16, 0x18, 0x19, 0x1C, 0x1D, 0x1E, 0x1F]

/-- The opcode of a word. -/
def wordOp (w : W64) : Nat := bits w.toNat 58 6

/-- The first word of a program that breaks R77 or R80: position, words left, ends of the open loops, innermost first
(spec/03_compute_tile.md R77, R80). -/
def progBadWord (n : Nat) : Nat → List W64 → List Nat → Option Nat
  | _, [], _ => none
  | i, w :: l, open_ =>
    let open_ := open_.dropWhile fun e => decide (e < i)
    let f := Config.wordFields w
    let op := wordOp w
    if !progOpcodes.contains op then some i
    else if (op = 0x05 || op = 0x06) && decide (n ≤ f.target) then some i
    else if op = 0x04 then
      if f.zeroStep || decide (f.last ≤ i) || decide (n ≤ f.last) || decide (4 ≤ open_.length)
          || open_.head?.any (fun e => decide (e < f.last)) then some i
      else progBadWord n (i + 1) l (f.last :: open_)
    else progBadWord n (i + 1) l open_

/-- Row 7 (spec/05_patterns_and_reconfiguration.md Table 5.6). -/
def wordsFail (img : List Byte) : PFail :=
  pOver (secsTy img sImem) fun e =>
    match progBadWord e.cnt 0 (newWords img e.tg) [] with
    | some j => some (Code.TILE_OPCODE, e.idx, e.off + 8 * j)
    | none => none

/-- Does a word name a queue or channel that R493 forbids (spec/04_fabric_tokens_and_steering.md R493)? -/
def nameBad (rf : RegFile) (w : W64) : Bool :=
  let f := Config.wordFields w
  let op := wordOp w
  let q := f.queue % 32
  if op = 0x1C then !qEn rf q || rfGet rf (T.QCFG_CONS q) ≠ 0
  else if op = 0x05 || op = 0x1E then !qEn rf q || rfGet rf (T.QCFG_CONS q) ≠ 0 || rfGet rf (T.QCFG_CTL q) = 0
  else op = 0x1D && !chEn rf (f.chan % 32)

/-- The tiles whose configuration some section sets, in the order of the first section that names each
(spec/05_patterns_and_reconfiguration.md R157). -/
def patTiles (img : List Byte) : List Nat :=
  (((secsOf img).filter fun e => e.ty ≠ sUnit && e.ty ≠ sRegion).map Sec.tg).reverse.dedup.reverse

/-- Where a failing register of a tile's configuration is reported: its `TILE_CFG` record, else the first byte of the body of
the first section that names the tile, a register that the `BOBBIN` section sets among them
(spec/05_patterns_and_reconfiguration.md R157; log entry 133). -/
def cfgPlace (img : List Byte) (t o : Nat) : Nat × Nat :=
  let first := match (secsOf img).find? fun e => e.tg = t && e.ty ≠ sUnit && e.ty ≠ sRegion with
    | some e => (e.idx, e.off)
    | none => (noSec, 0)
  match secFor img sCfg t with
  | some e =>
    match (cfgRecs img e).find? fun r => r.2.1 = o with
    | some r => (e.idx, r.1)
    | none => first
  | none => first

/-- The fault of the format descriptor of a `VCVT` word, which describes a write (spec/02_numerics.md R46). -/
def wordFmtBad (w : W64) : Option Nat := if wordOp w = 0x11 then fmtCheck true (Config.wordFields w).fmt else none

/-- Row 8 for one tile: the checks of its commit, the format descriptors of its program, the queues and channels that its
program names (spec/05_patterns_and_reconfiguration.md Table 5.6, R158, spec/02_numerics.md R46,
spec/04_fabric_tokens_and_steering.md R493). -/
def State.tileFail (s : State) (img : List Byte) (t : Nat) : PFail :=
  let rf := (s.tile t).regs
  let rf' := newRegs img t
  (match tileCheck t rf (stageTo rf rf') rf' with
    | some f => let p := cfgPlace img t f.2; some (f.1, p.1, p.2)
    | none => none)
  <|> (match secFor img sImem t with
    | some e => pOver (newWords img t).zipIdx fun w => (wordFmtBad w.1).map fun code => (code, e.idx, e.off + 8 * w.2)
    | none => none)
  <|> (match secFor img sImem t, (newWords img t).findIdx? (nameBad rf') with
    | some e, some j => some (Code.FAB_CFG_ILLEGAL, e.idx, e.off + 8 * j)
    | _, _ => none)

/-! ### Row 9: bank use -/

/-- Does a run of granules touch a bank in ring mode? -/
def inRingBank (rf : RegFile) (g n : Nat) : Bool := n ≠ 0 && (banksOf g n).any (bankRing rf)

/-- Does a plain operand of a tensor descriptor touch a ring-mode bank (spec/03_compute_tile.md R101)? -/
def operandMixed (rf : RegFile) (o : Operand) (k : Nat) : Bool :=
  !o.ring && (List.range o.groups).any fun g =>
    inRingBank rf (o.addr + g * o.stride) (ceilDiv (o.rows * o.rowBytes k) 64)
      || inRingBank rf (o.scl + g * o.stride) (ceilDiv (o.rows * o.rowScales k) 64)

/-- The items of one tile that mix bank uses: section and offset of each (spec/03_compute_tile.md R101,
spec/05_patterns_and_reconfiguration.md Table 5.6). -/
def bankMixed (img : List Byte) (t : Nat) : List (Nat × Nat) :=
  let rf := newRegs img t
  let run (w : W64) : Bool :=
    (wordOp w = 0x09 || wordOp w = 0x0B) && inRingBank rf (bits w.toNat 45 12) (ceilDiv (bits w.toNat 32 13) 64)
  let words (e : Sec) (o : Nat) (bad : W64 → Bool) (l : List W64) : List (Nat × Nat) :=
    (l.zipIdx.filter fun w => bad w.1).map fun w => (e.idx, e.off + o + 8 * w.2)
  ((List.range 16).filter fun d => !tdUnused rf d).flatMap (fun d =>
      (if operandMixed rf (tdOperandA rf d) (tdK rf d) then [cfgPlace img t (tdOff d 1)] else [])
        ++ if operandMixed rf (tdOperandB rf d) (tdK rf d) then [cfgPlace img t (tdOff d 2)] else [])
    ++ (match secFor img sImem t with
      | some e => words e 0 (fun w => (Config.wordFields w).granules.any fun g => inRingBank rf g 1) (newWords img t)
      | none => [])
    ++ (match secFor img sSpad t with
      | some e => if inRingBank rf (field img e.off 2) e.cnt then [(e.idx, e.off)] else []
      | none => [])
    ++ match secFor img sBob t with
      | some e => words e 64 run (newBob img t)
      | none => []

/-- The earlier of two places in section and record order. -/
def firstPlace (a b : Nat × Nat) : Nat × Nat := if a.1 < b.1 || (a.1 = b.1 && decide (a.2 ≤ b.2)) then a else b

/-- Row 9: the first item in section-table and record order that mixes bank uses
(spec/05_patterns_and_reconfiguration.md R157, Table 5.6). -/
def bankFail (img : List Byte) : PFail :=
  match (patTiles img).flatMap (bankMixed img) with
  | [] => none
  | p :: l => let q := l.foldl firstPlace p; some (Code.TILE_BANK_MIXED, q.1, q.2)

/-! ### Row 10: resources -/

/-- Limit and base of a new program beside the current one (spec/05_patterns_and_reconfiguration.md Table 5.7). -/
def imemPlace (count base : Nat) : Nat × Nat :=
  if count = 0 then (2048, 0) else if count ≤ 1024 then (1024, if base = 0 then 1024 else 0) else (0, 0)

/-- The same for a bobbin program (spec/09_bobbin_streams.md Table 9.2). -/
def bobPlace (count base : Nat) : Nat × Nat :=
  if count = 0 then (128, 0) else if count ≤ 64 then (64, if base = 0 then 64 else 0) else (0, 0)

/-- What feeds a tile queue: its record's section and offset, the queue, and the virtual channel, kind and source panel
of its tokens (spec/05_patterns_and_reconfiguration.md R160). -/
structure Feeder where
  sec : Nat
  off : Nat
  dest : Nat
  dq : Nat
  vc : Nat
  ctl : Nat
  srcp : Nat
  deriving DecidableEq, Repr

/-- The feeders that one section declares, in record order (spec/05_patterns_and_reconfiguration.md R160). -/
def secFeeders (img : List Byte) (e : Sec) : List Feeder :=
  if e.ty = sCfg then
    (cfgRecs img e).filterMap fun r =>
      let v := r.2.2.2
      if inRange 0x600 0x6FF r.2.1 && bit v 0 && decide (bits v 52 12 < nTiles) then
        some ⟨e.idx, r.1, bits v 52 12, bits v 47 5, bits v 45 2, bits v 43 1, panelOf e.tg⟩
      else none
  else if e.ty = sUnit then
    (List.range e.cnt).filterMap fun j =>
      if e.tg = 0xC34 then
        let o := e.off + 16 * j
        some ⟨e.idx, o, field img o 2, field img (o + 2) 1, 1, 1, 0x3F⟩
      else
        let o := e.off + 32 * j
        if field img o 1 = 2 then
          some ⟨e.idx, o, field img (o + 4) 2, field img (o + 6) 1, field img (o + 7) 1, field img (o + 0xB) 1, 0x3F⟩
        else if field img o 1 = 3 && field img (o + 1) 1 = 1 then
          some ⟨e.idx, o, field img (o + 0x14) 2, field img (o + 0x16) 1, 1, 1, 0x3F⟩
        else none
  else []

/-- The check of the feeders from one on; those that name no tile queue are refused by row 11. -/
def feedFail (img : List Byte) : List Feeder → List (Nat × Nat) → PFail
  | [], _ => none
  | f :: l, fed =>
    if nTiles ≤ f.dest || 32 ≤ f.dq then feedFail img l fed
    else
      let rf := newRegs img f.dest
      pIf (fed.contains (f.dest, f.dq) || !qEn rf f.dq || rfGet rf (T.QCFG_VC f.dq) ≠ f.vc
          || rfGet rf (T.QCFG_CTL f.dq) ≠ f.ctl || rfGet rf (T.QCFG_SRC_PANEL f.dq) ≠ f.srcp)
        Code.PAT_RES_QUEUE f.sec f.off
      <|> feedFail img l ((f.dest, f.dq) :: fed)

/-- Row 10: the first item in section and record order that breaks a limit (spec/05_patterns_and_reconfiguration.md
R159, Table 5.7). -/
def State.resFail (s : State) (img : List Byte) : PFail :=
  let words := pOver (secsTy img sImem) fun e =>
    let x := s.tile e.tg
    let lim := (imemPlace x.count x.base).1
    pIf (decide (lim < e.cnt)) Code.PAT_RES_IMEM e.idx (e.off + 8 * lim)
  let feed := feedFail img ((secsOf img).flatMap (secFeeders img)) []
  match words, feed with
  | some a, some b => if a.2.1 < b.2.1 then some a else some b
  | some a, none => some a
  | none, b => b

/-! ### Row 11: bobbins and unit tables -/

/-- The bits that a word of a bobbin program may set, by its opcode; none for a reserved opcode
(spec/09_bobbin_streams.md Table 9.3). -/
def bobMask (op : Nat) : Option (List (Nat × Nat)) :=
  match op with
  | 0x00 => some []
  | 0x01 => some [(0, 58)]
  | 0x02 => some []
  | 0x03 => some [(37, 21)]
  | 0x04 => some [(57, 1), (0, 48)]
  | 0x05 => some [(57, 1), (0, 48)]
  | 0x06 => some [(0, 48)]
  | 0x08 => some [(31, 27)]
  | 0x09 => some [(31, 27)]
  | 0x0A => some [(28, 30)]
  | 0x0B => some [(28, 30)]
  | 0x0C => some [(0, 16)]
  | 0x0D => some [(0, 16)]
  | 0x0E => some [(48, 10), (0, 32)]
  | 0x0F => some []
  | _ => none

/-- Is a reserved bit of a bobbin word set? -/
def bobReserved (w : Nat) : Bool :=
  match bobMask (bits w 58 6) with
  | none => true
  | some l => w % 2 ^ 58 ≠ (l.map fun p => bits w p.1 p.2 * 2 ^ p.1).sum

/-- The programs that the words of a tile program start: bobbin and first word (spec/09_bobbin_streams.md R307; log
entry 131). -/
def bobStarts (rf : RegFile) (ws : List W64) : List (Nat × Nat) :=
  ws.filterMap fun w =>
    let f := Config.wordFields w
    let en := bits (rfGet rf T.BOB_ENTRY_ENTRIES) (8 * (f.entry % 8)) 8
    if wordOp w = 0x1F && decide (f.bobbin < 2) && bobEn rf f.bobbin && bit en 7 then some (f.bobbin, en % 128) else none

/-- The bobbins that run a word of a program store: those started at a word from which no `END` lies before it. -/
def runBy (starts : List (Nat × Nat)) (bw : List W64) (j : Nat) : List Nat :=
  [0, 1].filter fun b => starts.any fun p =>
    p.1 = b && decide (p.2 ≤ j) && !((bw.drop p.2).take (j - p.2)).any fun w => wordOp w = 0

/-- May a descriptor of a bobbin not be used by a converting store (spec/09_bobbin_streams.md R289)? -/
def cvtBad (rf : RegFile) (b f : Nat) : Bool :=
  let w := bits (rfGet rf (T.BOB_FMT_FMTS b)) (16 * f) 16
  (fmtCheck true w).isSome || [0, 11, 12].contains (fmtOf w).fmt

/-- Does a word convert, and with which descriptor field? -/
def cvtField (w : Nat) : Option Nat := if inRange 0x0A 0x0B (bits w 58 6) && bit w 30 then some (bits w 28 2) else none

/-- Does a word break R289, with a number of loops open before it and the bobbins that run it (spec/09_bobbin_streams.md
R289; log entry 131)? -/
def bobWordBad (rf : RegFile) (by_ : List Nat) (w depth : Nat) : Bool :=
  let op := bits w 58 6
  bobReserved w
    || (op = 0x01 && (decide (6 ≤ depth) || (bit w 57 && bits w 39 16 = 0)))
    || (op = 0x02 && depth = 0) || (op = 0x00 && depth ≠ 0)
    || (op = 0x03 && (bits w 37 16 = 0 || decide (depth ≤ bits w 55 3)))
    || (inRange 0x08 0x0B op && decide (4096 < bits w 32 13))
    || ((op = 0x08 || op = 0x0C) && !by_.all (bobProd rf)) || ((op = 0x0A || op = 0x0D) && !by_.all (bobCons rf))
    || (cvtField w).any (fun f => bits w 32 13 % 4 ≠ 0 || by_.any fun b => cvtBad rf b f)
    || (op = 0x0E && (!chEn rf (bits w 53 5) || bits w 51 2 = 3
        || (bits w 51 2 ≠ 0 && rfGet rf (T.OCH_CTL (bits w 53 5)) ≠ 1)))

/-- The first word of a bobbin program that breaks R289: position, words left, loops open. -/
def bobBadWord (rf : RegFile) (by_ : Nat → List Nat) : Nat → List W64 → Nat → Option Nat
  | _, [], _ => none
  | i, w :: l, depth =>
    let op := wordOp w
    let after := if op = 0x01 then depth + 1 else if op = 0x02 then depth - 1 else depth
    if bobWordBad rf (by_ i) w.toNat depth || (l.isEmpty && after ≠ 0) then some i else bobBadWord rf by_ (i + 1) l after

/-- A descriptor of `BOB_FMT` that fails R46 and that no converting store of its bobbin selects, so that R289 does not refuse
it (spec/02_numerics.md R46; log entry 131). -/
def bobFmtFail (rf : RegFile) (by_ : Nat → List Nat) (bw : List W64) (e : Sec) (b : Nat) : PFail :=
  pOver (List.range 4) fun f =>
    let used := bw.zipIdx.any fun w => (by_ w.2).contains b && cvtField w.1.toNat = some f
    if used then none
    else (fmtCheck true (bits (rfGet rf (T.BOB_FMT_FMTS b)) (16 * f) 16)).map fun code =>
      (code, e.idx, e.off + 8 + 0x18 * b + 2 * f)

/-- A `BOBBIN` section (spec/09_bobbin_streams.md R286, R287, R289). -/
def State.bobSecFail (s : State) (img : List Byte) (e : Sec) : PFail :=
  let rf := newRegs img e.tg
  let x := s.tile e.tg
  let lim := (bobPlace x.bobCount x.bobBase).1
  let bw := newBob img e.tg
  let by_ := runBy (bobStarts rf (newWords img e.tg)) bw
  let bad (c : Bool) (off : Nat) : PFail := pIf c Code.BOB_PROG e.idx off
  pIf (decide (lim < e.cnt)) Code.BOB_RES_STORE e.idx (e.off + 64 + 8 * lim)
    <|> (pOver [0x780, 0x7A0] fun o =>
      match regAt (tileSpace + o) with
      | some d =>
        let a := e.off + (if o = 0x780 then 0 else 0x18)
        bad (reservedBits d (field img a 8)) a
      | none => none)
    <|> bad (!zeroAt img (e.off + 0x14) 4) (e.off + 0x14)
    <|> bad (!zeroAt img (e.off + 0x2C) 4) (e.off + 0x2C)
    <|> (pOver (List.range 8) fun k =>
      let v := field img (e.off + 0x30 + k) 1
      bad (bit v 7 && decide (e.cnt ≤ v % 128)) (e.off + 0x30 + k))
    <|> bad (!zeroAt img (e.off + 0x38) 8) (e.off + 0x38)
    <|> bobFmtFail rf by_ bw e 0 <|> bobFmtFail rf by_ bw e 1
    <|> (match bobBadWord rf by_ 0 bw 0 with
      | some j => some (Code.BOB_PROG, e.idx, e.off + 64 + 8 * j)
      | none => none)

/-- The tape unit's section (spec/11_host_interface_and_command_tape.md R369). -/
def tapeSecFail (img : List Byte) (e : Sec) : PFail :=
  pOver (List.range (min e.cnt 9)) fun j =>
    let o := e.off + 16 * j
    let zero (k : Nat) : PFail := pIf (zeroAt img (o + k) 1) Code.PAT_ZERO_FIELD e.idx (o + k)
    let bad (c : Bool) (k : Nat) : PFail := pIf c Code.PAT_FIELD e.idx (o + k)
    pIf (decide (8 ≤ j)) Code.PAT_RES_UNIT e.idx o
      <|> zero 3 <|> zero 4 <|> zero 5
      <|> bad (decide (nTiles ≤ field img o 2)) 0
      <|> bad (decide (32 ≤ field img (o + 2) 1)) 2
      <|> bad (decide (16 < field img (o + 3) 1)) 3
      <|> bad (decide (16 < field img (o + 5) 1)) 5
      <|> bad (!zeroAt img (o + 6) 10) 6

/-- One record of a seam section with its place: section, offset, port. -/
structure SRec where
  sec : Nat
  off : Nat
  port : Nat
  deriving DecidableEq, Repr

/-- The seam records in section and record order. -/
def seamRecs (img : List Byte) : List SRec :=
  ((secsTy img sUnit).filter fun e => e.tg ≠ 0xC34).flatMap fun e =>
    (List.range e.cnt).map fun j => ⟨e.idx, e.off + 32 * j, e.tg - 0xC20⟩

/-- The tables that a list of records spells (spec/10_seam_ports_and_collectives.md Table 10.8). -/
def seamTab (img : List Byte) (l : List SRec) : SeamTab :=
  l.foldl (fun (t : SeamTab) r =>
    let b (k : Nat) : Nat := field img (r.off + k) 1
    let h (k : Nat) : Nat := field img (r.off + k) 2
    match b 0 with
    | 1 => { t with outs := t.outs ++ [⟨r.port, b 1, h 2, b 4⟩] }
    | 2 => { t with ins := t.ins ++ [⟨r.port, b 1, h 2, h 4, b 6, b 7, b 8, b 9, b 0xA, b 0xB, h 0xC⟩] }
    | 3 => { t with colls := t.colls ++
        [⟨r.port, b 1, b 2, h 4, h 6, h 8, h 0xA, h 0xC, h 0xE, h 0x10, h 0x12, h 0x14, b 0x16⟩] }
    | 4 => { t with routes := t.routes ++ [⟨r.port, h 2, h 4, b 6, b 7⟩] }
    | _ => t) {}

/-- A zero field of a record (spec/10_seam_ports_and_collectives.md R326). -/
def seamZero (img : List Byte) (r : SRec) : PFail :=
  let z (k n : Nat) : PFail := pIf (zeroAt img (r.off + k) n) Code.SEAM_TABLE_ZERO r.sec (r.off + k)
  match field img r.off 1 with
  | 2 => z 8 1 <|> z 9 1 <|> z 0xA 1 <|> z 0xC 2
  | 3 => z 4 2 <|> (if field img (r.off + 1) 1 = 1 then z 0x10 2 <|> z 0x12 2 else none)
  | _ => none

/-- Any other illegal field of a record, beside the records before it and all routes
(spec/10_seam_ports_and_collectives.md Table 10.8). -/
def State.seamBad (s : State) (img : List Byte) (before : SeamTab) (all : SeamTab) (r : SRec) : PFail :=
  let bad (c : Bool) (k : Nat) : PFail := pIf c Code.SEAM_TABLE r.sec (r.off + k)
  let b (k : Nat) : Nat := field img (r.off + k) 1
  let h (k : Nat) : Nat := field img (r.off + k) 2
  match b 0 with
  | 1 =>
    bad (before.outs.any fun o => o.port = r.port && o.slot = b 1) 1
      <|> bad (h 2 = s.modId || !((routeFor all.routes (h 2)).any fun q => q.lport = r.port)) 2
      <|> bad (!zeroAt img (r.off + 5) 27) 5
  | 2 =>
    bad (before.ins.any fun i => i.port = r.port && i.slot = b 1) 1
      <|> bad (decide (16384 ≤ h 2)) 2
      <|> bad (decide (nTiles ≤ h 4)) 4
      <|> bad (decide (32 ≤ b 6)) 6
      <|> bad (!vcLegal (b 7) (b 0xB)) 7
      <|> bad (decide (16 < b 8)) 8
      <|> bad (decide (16 < b 0xA)) 0xA
      <|> bad (decide (1 < b 0xB)) 0xB
      <|> bad (decide (1024 < h 0xC)) 0xC
      <|> bad (!zeroAt img (r.off + 0xE) 18) 0xE
  | 3 =>
    let p := h 4
    let own (k : Nat) : PFail := bad (decide (16384 ≤ h k) || decide (p = 1) != decide (h k = s.modId)) k
    bad (b 1 ≠ 1 && b 1 ≠ 2) 1
      <|> bad (before.colls.any fun c => c.id = b 2) 2
      <|> bad (b 3 ≠ 0) 3
      <|> bad (decide (16384 < p)) 4
      <|> bad (decide (p ≤ h 6)) 6
      <|> own 8 <|> own 0xA
      <|> (if b 1 = 1 then
          bad (decide (h 0xE ≤ h 0xC)) 0xC
            <|> bad (decide (4096 < h 0xE)) 0xE
            <|> bad (decide (p < h 0x10)) 0x10
            <|> bad (decide (nTiles ≤ h 0x14)) 0x14
            <|> bad (decide (32 ≤ b 0x16)) 0x16
            <|> bad (!zeroAt img (r.off + 0x17) 9) 0x17
        else bad (!zeroAt img (r.off + 0xC) 20) 0xC)
  | 4 =>
    bad (b 1 ≠ 0) 1
      <|> bad (decide (h 4 < h 2)) 2
      <|> bad (decide (16384 ≤ h 4) || (decide (h 2 ≤ s.modId) && decide (s.modId ≤ h 4))) 4
      <|> bad (decide (8 ≤ b 6)) 6
      <|> bad (decide (8 ≤ b 7)) 7
      <|> bad (!zeroAt img (r.off + 8) 24) 8
  | _ => bad true 0

/-- A limit that a record breaks beside the records before it (spec/10_seam_ports_and_collectives.md R327). -/
def State.seamLimit (s : State) (img : List Byte) (before all : SeamTab) (r : SRec) : PFail :=
  let me := seamTab img [r]
  let c :=
    (me.outs.any fun o => decide (64 ≤ (before.outs.filter fun q => q.port = o.port).length))
    || (me.ins.any fun i => decide (64 ≤ (before.ins.filter fun q => q.port = i.port).length)
        || decide (4096 < i.win + ((before.ins.filter fun q => q.port = i.port).map InRec.win).sum))
    || (me.colls.any fun k => decide (4 ≤ before.colls.length)
        || (k.kind = 2 && before.colls.any fun q => q.kind = 2)
        || (k.kind = 1 && before.colls.any fun q => q.kind = 1 && decide (q.glo < k.ghi) && decide (k.glo < q.ghi))
        || (k.pred ≠ s.modId && (routeFor all.routes k.pred).isNone)
        || (k.succ ≠ s.modId && (routeFor all.routes k.succ).isNone))
    || (me.routes.any fun q => decide (64 ≤ before.routes.length)
        || before.routes.any fun o => decide (o.mlo ≤ q.mhi) && decide (q.mlo ≤ o.mhi))
  pIf c Code.PAT_RES_UNIT r.sec r.off

/-- The seam records from one on. -/
def State.seamFail (s : State) (img : List Byte) (all : SeamTab) : List SRec → List SRec → PFail
  | [], _ => none
  | r :: l, before =>
    let t := seamTab img before
    seamZero img r <|> s.seamBad img t all r <|> s.seamLimit img t all r <|> s.seamFail img all l (before ++ [r])

/-- Row 11: `BOBBIN` and `UNIT_TABLE` sections in section order (spec/05_patterns_and_reconfiguration.md
Table 5.6). -/
def State.tableFail (s : State) (img : List Byte) : PFail :=
  let rs := seamRecs img
  let all := seamTab img rs
  let seam := s.seamFail img all rs []
  pOver (secsOf img) fun e =>
    if e.ty = sBob then s.bobSecFail img e
    else if e.ty = sUnit && e.tg = 0xC34 then tapeSecFail img e
    else if e.ty = sUnit then
      match seam with
      | some f => if f.2.1 = e.idx then some f else none
      | none => none
    else none

/-- Pass 1: the checks of Table 5.6 in order; the first failure (spec/05_patterns_and_reconfiguration.md R157). -/
def State.pass1 (s : State) (img : List Byte) (len : Nat) : PFail :=
  s.hdrFail img len
    <|> pIf (!imgCrcOk img) Code.PAT_CRC noSec 0x3C
    <|> s.secFail img (allSecs img) (0x40 + 16 * imgSecs img) []
    <|> zeroFail img
    <|> fieldFail img
    <|> wordsFail img
    <|> pOver (patTiles img) (s.tileFail img)
    <|> bankFail img
    <|> s.resFail img
    <|> s.tableFail img

/-- The regions of an image (spec/05_patterns_and_reconfiguration.md Table 5.5). -/
def imgRegions (img : List Byte) : List Region :=
  (secsTy img sRegion).flatMap fun e =>
    (List.range e.cnt).map fun j =>
      let o := e.off + 32 * j
      ⟨field img o 8, field img (o + 8) 8, field img (o + 0x10) 1, field img (o + 0x11) 1⟩

end Sys2Proof.Machine
end

