-- ==== Sys2Proof/Machine/Patterns.lean ====
section
/-! DEFINITION. The pattern loader: loading, arming, switching, retirement and abandonment
(spec/05_patterns_and_reconfiguration.md R156 to R184). The loader's messages to the units and their acknowledgements
are the commands that deliver them (log entry 15). -/

namespace Sys2Proof.Machine

/-! ### State of the loader -/

/-- The state of a generation value: 0 free, 1 current, 2 pending, 3 quarantined
(spec/05_patterns_and_reconfiguration.md R163, Table 5.12). -/
def State.genState (s : State) (g : Nat) : Nat := bits (s.get R.PL_GEN_STATE_GS) (2 * g) 2

/-- A number with `n` bits from a position replaced. -/
def putBits (v lo n x : Nat) : Nat := v - bits v lo n * 2 ^ lo + x % 2 ^ n * 2 ^ lo

/-- The state of a generation value set. -/
def State.setGen (s : State) (g x : Nat) : State := s.set R.PL_GEN_STATE_GS (putBits (s.get R.PL_GEN_STATE_GS) (2 * g) 2 x)

/-- `STATE` of `PL_STATUS`. -/
def State.plState (s : State) : Nat := s.get R.PL_STATUS_STATE
def State.setPl (s : State) (v : Nat) : State := s.set R.PL_STATUS_STATE v

/-- The loader changed. -/
def State.onLoader (s : State) (f : Loader → Loader) : State := { s with loader := f s.loader }

/-- `PL_ERR` (spec/05_patterns_and_reconfiguration.md R157). -/
def State.plErr (s : State) (code sec off : Nat) : State :=
  s.setAll [(R.PL_ERR_CODE, code), (R.PL_ERR_SECTION, sec), (R.PL_ERR_OFFSET, off)]

/-- The `RESULT` of a refused or aborted `PATTERN_LOAD` (spec/11_host_interface_and_command_tape.md Table 11.11). -/
def plResult (sec off : Nat) : List Byte := leBytes 2 sec ++ leBytes 2 0 ++ leBytes 4 off

/-- A load refused before it used a generation value (spec/05_patterns_and_reconfiguration.md R156, R157). -/
def State.refuseLoad (s : State) (c : Cmd) (code sec off : Nat) : State :=
  ((s.plErr code sec off).bump R.REFUSED 1).refuse c code 0xC31 sec off (plResult sec off)

/-- The same where another unit has recorded the fault. -/
def State.refuseLoadAs (s : State) (c : Cmd) (code : Nat) : State :=
  ((s.plErr code noSec 0).bump R.REFUSED 1).reply c.tag c.epoch 2 code (plResult noSec 0)

/-- Is a drain in progress (spec/06_progress_deadlock_drain.md R212)? -/
def State.draining (s : State) : Bool := s.drain = 1 || s.drain = 2

/-- Selvedge units other than the loader (spec/04_fabric_tokens_and_steering.md Table 4.2). -/
def selvedge : List Nat :=
  (List.range 24).map (0xC00 + ·) ++ (List.range 8).map (0xC20 + ·) ++ [0xC30, 0xC32, 0xC33, 0xC34]

/-- Every tile and selvedge unit. -/
def allUnits : List Nat := List.range nTiles ++ selvedge

/-! ### Abandonment -/

/-- A load abandoned before GO: the pending value is quarantined, DISCARD goes to what has been written
(spec/05_patterns_and_reconfiguration.md R182). -/
def State.discardLoad (s : State) : State :=
  let l := s.loader
  let s := ((s.setGen l.gen 3).setAll [(R.PL_STATUS_PEND_VALID, 0), (R.PL_STATUS_LEFT, 0)]).setPl 6
  s.onLoader fun l => { l with discarding := true, discardTo := l.written, discarded := [], armed := [], unitArmed := [] }

/-- A load refused or aborted before GO, with its reply (spec/05_patterns_and_reconfiguration.md R182, R184). -/
def State.abandonLoad (s : State) (kind code sec off : Nat) : State :=
  let l := s.loader
  (((s.plErr code sec off).bump R.REFUSED 1).reply l.tag l.epoch kind code (plResult sec off)).discardLoad

/-- A load cancelled by the tape (spec/05_patterns_and_reconfiguration.md R182,
spec/11_host_interface_and_command_tape.md R370). -/
def State.cancelLoad (s : State) : State := ((s.bump R.REFUSED 1).discardLoad).onLoader fun l => { l with cancelled := true }

/-- An abandonment that has ended: the value is free and the loader idle (spec/05_patterns_and_reconfiguration.md R182,
spec/11_host_interface_and_command_tape.md R370). -/
def State.endDiscard (s : State) : State :=
  let l := s.loader
  if l.discarding && l.discardTo.isEmpty && l.discarded.isEmpty then
    let s := (s.setGen l.gen 0).setPl 0
    let s := s.onLoader fun l => { curRegions := l.curRegions, curSpillNeed := l.curSpillNeed }
    if l.cancelled then s.reply l.tag l.epoch 4 0 [] else s
  else s

/-! ### Pass 1 -/

/-- The image as the loader reads it: the header, and all of it where the command's length is legal
(spec/05_patterns_and_reconfiguration.md R156, R157). -/
def readLen (len : Nat) : Nat := if len % 64 = 0 && inRange 64 0x40000000 len then len else 64

/-- An image read through the memory controllers: the state after any fault, its code or the bytes. -/
def State.readImage (s : State) (a n : Nat) (e : Ecc) : State × (Nat ⊕ List Byte) :=
  if lpEnd < a + n || s.reach a n ≠ .ok then
    ((s.raiseTied Code.FLT_ADDR_UNMAPPED 0xC31 noSec (bits a 16 32)), .inl Code.FLT_ADDR_UNMAPPED)
  else
    match s.load a n false e with
    | (s, none) => (s, .inr (s.rdN a n))
    | (s, some x) => (s.tieLast x.2, .inl x.2)

/-- Tiles that take part in the current generation. -/
def State.tilesIn (s : State) : List Nat := (s.tiles.filter fun e => e.2.takesPart e.1).map Prod.fst

/-- The start of pass 2: the generation value is pending, every tile's stage belongs to the loader, and `LEFT` counts the
tiles that are to switch (spec/05_patterns_and_reconfiguration.md R163, R189, Table 5.12; log entry 128). -/
def State.startPass2 (s : State) (c : Cmd) (img : List Byte) : State :=
  let g := (s.curGen + 1) % 16
  let s := (s.setGen g 2).setAll [(R.PL_STATUS_PEND_GEN, g), (R.PL_STATUS_PEND_VALID, 1),
    (R.PL_STATUS_LEFT, s.tilesIn.length), (R.PL_PATTERN_PEND_ID, imgId img)]
  let s := s.setPl 2
  { s with
    tiles := (List.range nTiles).map fun t => (t, { s.tile t with stage := [], commitHeld := false, pend := some { gen := g } })
    loader :=
      { live := true, tag := c.tag, epoch := c.epoch, base := c.p 0 8, len := imgLen img, hold := imgHold img, gen := g,
        oldGen := s.curGen, spillNeed := imgSpill img, regions := imgRegions img,
        written := List.range nTiles, curRegions := s.loader.curRegions, curSpillNeed := s.loader.curSpillNeed } }

/-- `PATTERN_LOAD`: the load is accepted or refused, and pass 1 is made (spec/05_patterns_and_reconfiguration.md R156 to
R161). -/
def execPatternLoad (tag : Nat) (s : State) : Res :=
  go (s.withCmd tag Op.PATTERN_LOAD fun s c =>
    if !s.flag R.GC_STATE_FABRIC_READY || s.draining then s.refuseLoad c Code.PAT_NOT_READY noSec 0
    else if s.plState ≠ 0 || s.genState ((s.curGen + 1) % 16) ≠ 0 then s.refuseLoad c Code.PAT_GEN_BUSY noSec 0
    else
      let a := c.p 0 8
      let len := c.p 8 4
      match s.readImage a (readLen len) .ok with
      | (s, .inl code) => s.refuseLoadAs c code
      | (s, .inr img) =>
        match s.pass1 img len with
        | some f => s.refuseLoad c f.1 f.2.1 f.2.2
        | none => s.startPass2 c img)

/-! ### Pass 2 -/

/-- C_old: `CRED` of the current generation's channel into a tile queue, 0 where there is none, or where the queue has
consumed its hem marker (spec/05_patterns_and_reconfiguration.md R173; log entry 123). -/
def State.credOld (s : State) (t q : Nat) : Nat :=
  if ((s.tile t).queue q).hemmed then 0
  else
    match s.feeder t q s.curGen with
    | some (a, c) => s.chanCred a c s.curGen
    | none => 0

/-- The initial credits of a new channel into a tile queue (spec/05_patterns_and_reconfiguration.md R173). -/
def State.credNew (s : State) (dest dq cred : Nat) : Nat :=
  if dest < nTiles then min cred (16 - s.credOld dest dq) else cred

/-- A tile as pass 2 leaves it: its pending configuration, the words of its programs
(spec/05_patterns_and_reconfiguration.md R157, R159, spec/09_bobbin_streams.md R287). -/
def State.stageTile (s : State) (img : List Byte) (gen t : Nat) : Tile :=
  let x := s.tile t
  let rf := newRegs img t
  let ws := newWords img t
  let bs := newBob img t
  let base := (imemPlace x.count x.base).2
  let bb := (bobPlace x.bobCount x.bobBase).2
  let put (m : Kv W64) (b : Nat) (l : List W64) : Kv W64 :=
    ((List.range l.length).zip l).foldl (fun m p => kvSet m (b + p.1) p.2) m
  { x with
    imem := put x.imem base ws
    bobWords := put x.bobWords bb bs
    pend := some
      { gen := gen, regs := rf, base := base, count := ws.length, bobBase := bb, bobCount := bs.length
        creds := (List.range 32).filterMap fun c =>
          if chEn rf c then some (c, s.credNew (rfGet rf (T.OCH_DEST c)) (rfGet rf (T.OCH_DQ c)) (rfGet rf (T.OCH_CRED c)))
          else none
        spad := match secFor img sSpad t with
          | some e => (List.range e.cnt).map fun j => (64 * (field img e.off 2 + j), slice img (e.off + 8 + 64 * j) 64)
          | none => [] } }

/-- The pending step channels (spec/11_host_interface_and_command_tape.md R369). -/
def State.stageChans (s : State) (img : List Byte) (gen : Nat) : List StepChan :=
  match secFor img sUnit 0xC34 with
  | some e =>
    (List.range e.cnt).map fun j =>
      let b (k : Nat) : Nat := field img (e.off + 16 * j + k) 1
      let d := field img (e.off + 16 * j) 2
      { dest := d, dq := b 2, cred := b 3, rate := b 4, burst := b 5, credits := s.credNew d (b 2) (b 3), bucket := b 5,
        tagc := 0, gen := gen, owed := [], owedEnd := false, hem := false }
  | none => []

/-- The seam engines as pass 2 leaves them: the pending tables and the streams and channels that they declare
(spec/10_seam_ports_and_collectives.md R326 to R331). -/
def State.stageSeam (s : State) (img : List Byte) (gen : Nat) : Seam :=
  let t := seamTab img (seamRecs img)
  { s.seam with
    pend := some t
    outs := s.seam.outs ++ t.outs.map fun r => { rc := r, gen := gen }
    ins := s.seam.ins ++ t.ins.map fun r =>
      { rc := r, gen := gen, credits := s.credNew r.dest r.dq r.cred, bucket := r.burst }
    done := s.seam.done ++ (t.colls.filter fun c => c.kind = 1).map fun c =>
      { port := c.port, dest := c.ddest, dq := c.ddq, gen := gen, cred := 1, credits := s.credNew c.ddest c.ddq 1
        bucket := doneBurst } }

/-- The credits of a tile's pending queues that their new channels do not hold at the start
(spec/05_patterns_and_reconfiguration.md R173). -/
def State.withholds (s : State) (t : Nat) (p : TilePend) : Kv Nat :=
  ((List.range 32).filter (qEn p.regs)).filterMap fun q =>
    match s.feeder t q p.gen with
    | some (a, c) =>
      let n := s.chanCred a c p.gen
      let k := n - s.credNew t q n
      if k = 0 then none else some (q, k)
    | none => none

/-- The tiles with the credits that their pending queues withhold. -/
def State.withWithheld (s : State) : State :=
  { s with tiles := s.tiles.map fun e =>
      (e.1, { e.2 with pend := e.2.pend.map fun p => { p with withheld := s.withholds e.1 p } }) }

/-- Every stage and table of a load written (spec/05_patterns_and_reconfiguration.md R157). -/
def State.pass2 (s : State) (img : List Byte) : State :=
  let g := s.loader.gen
  let units := (secsTy img sUnit).map Sec.tg
  State.withWithheld { s with
    tiles := (List.range nTiles).map fun t => (t, s.stageTile img g t)
    tape := { s.tape with pendChans := s.stageChans img g }
    seam := s.stageSeam img g
    loader := { s.loader with
      written := List.range nTiles ++ units, ports := (units.filter fun u => u ≠ 0xC34).map fun u => u - 0xC20 } }

/-! ### Checks at issue -/

/-- Is the class of a region met: mapped data addresses of its class, lining groups in scratchpad mode, the host range
(spec/05_patterns_and_reconfiguration.md Table 5.10)? -/
def State.regionOk (s : State) (r : Region) : Bool :=
  let a := r.base
  let b := r.base + r.size
  if r.cls = 3 then
    decide (lpEnd ≤ a) && decide (b ≤ lnEnd)
      && (List.range ((b - 1 - lpEnd) / 0x100000 + 1 - (a - lpEnd) / 0x100000)).all fun k =>
        let g := lnGroup (lpEnd + ((a - lpEnd) / 0x100000 + k) * 0x100000)
        s.lnMode g.1 g.2 = 2
  else if r.cls = 4 then decide (hostBase ≤ a) && decide (b ≤ hostEnd)
  else
    decide (b ≤ lpEnd) && s.rangeClass (if r.cls = 0 then 0 else if r.cls = 1 then 1 else 2) a r.size

/-- Has a port its link up and its protocol settled? -/
def State.linkUp (s : State) (p : Nat) : Bool := s.get (R.SP_STATUS_LINK p) = 3

/-- The checks at issue (spec/05_patterns_and_reconfiguration.md R184, Table 5.10). -/
def State.issueFail (s : State) : Option Nat :=
  let l := s.loader
  let sp := s.spillArea
  if s.gcState ≠ 1 || s.draining then some Code.PAT_NOT_READY
  else if l.regions.any fun r => !s.regionOk r then some Code.PAT_REGION_CLASS
  else if l.regions.any fun r => overlaps r.base r.size sp.1 sp.2 || (bit r.access 3 && r.cls ≠ 1) then
    some Code.PAT_REGION_CLASS
  else if sp.2 < l.spillNeed * 2 ^ 20 then some Code.PAT_RES_SPILL
  else if l.ports.any fun p => !s.linkUp p then some Code.PAT_SEAM_DOWN
  else none

/-- The checks at issue made: ARM goes to every unit, or the pattern is refused
(spec/05_patterns_and_reconfiguration.md Table 5.9 step 4, R184). -/
def State.issueLoad (s : State) : State :=
  match s.issueFail with
  | some code => (s.raiseTied code 0xC31 noSec 0).abandonLoad 2 code noSec 0
  | none => s.setPl 4

/-- `LOAD_PASS2`: the CRC is checked again, and stages and tables are written; then the checks at issue are made, or the
loader waits for the arm command (spec/05_patterns_and_reconfiguration.md R157, Table 5.9). -/
def execLoadPass2 (e : Ecc) (s : State) : Res :=
  let l := s.loader
  if s.halts || !l.live || l.discarding || s.plState ≠ 2 then go s
  else
    match s.readImage l.base l.len e with
    | (s, .inl code) => go (s.abandonLoad 3 code noSec 0)
    | (s, .inr img) =>
      if !imgCrcOk img then go ((s.raiseTied Code.PAT_CRC 0xC31 noSec 0x3C).abandonLoad 3 Code.PAT_CRC noSec 0x3C)
      else
        let s := s.pass2 img
        if l.hold then go (s.setPl 3) else go s.issueLoad

/-- `PATTERN_ARM`: the checks at issue of a pattern held by `HOLD` (spec/05_patterns_and_reconfiguration.md R184,
spec/11_host_interface_and_command_tape.md R366). -/
def execPatternArm (tag : Nat) (s : State) : Res :=
  go (s.withCmd tag Op.PATTERN_ARM fun s c =>
    if s.plState ≠ 3 then s.refuseState c
    else
      match s.issueFail with
      | some code => s.issueLoad.reply c.tag c.epoch 2 code []
      | none => s.issueLoad.done c [])

/-! ### ARM and GO -/

/-- `ARM`: a unit receives ARM; the pending generation is live at it (spec/05_patterns_and_reconfiguration.md R164,
R165). -/
def execArm (unit : Nat) (s : State) : Res :=
  let l := s.loader
  if s.safe || s.plState ≠ 4 || !allUnits.contains unit || l.unitArmed.contains unit then go s
  else
    let s := s.onLoader fun l => { l with unitArmed := unit :: l.unitArmed }
    if unit < nTiles then
      go (s.onTile unit fun x => { x with pend := x.pend.map fun p => { p with armed := true } })
    else go s

/-- Does an enabled channel of a tile in a generation feed a selvedge unit? -/
def State.fedBy (s : State) (unit gen : Nat) : Bool :=
  s.tiles.any fun e => e.2.gen = gen && (List.range 32).any fun c => chEn e.2.regs c && e.2.get (T.OCH_DEST c) = unit

/-- Has an engine a record of a table of collectives and routes? -/
def SeamTab.names (t : SeamTab) (p : Nat) : Bool :=
  (t.colls.any fun c => c.port = p) || t.routes.any fun r => r.port = p

/-- Does a selvedge unit take part in a generation: it has an entry of its generation tables, or a channel of the generation
feeds it (spec/05_patterns_and_reconfiguration.md R164, R177)? -/
def State.unitPart (s : State) (unit gen : Nat) : Bool :=
  let p := unit - 0xC20
  (unit = 0xC34 && (s.tape.chans ++ s.tape.pendChans).any fun c => c.gen = gen)
    || (inRange 0xC20 0xC27 unit &&
        ((s.seam.outs.any fun o => o.rc.port = p && o.gen = gen)
          || (s.seam.ins.any fun i => i.rc.port = p && i.gen = gen)
          || (s.seam.done.any fun d => d.port = p && d.gen = gen)
          || (if gen = s.curGen then s.seam.cur.names p else s.seam.pend.any fun t => t.names p)))
    || s.fedBy unit gen

/-- Does a unit take part in the generation that ends? -/
def State.partOld (s : State) (u : Nat) : Bool :=
  if u < nTiles then (s.tile u).takesPart u else s.unitPart u s.loader.oldGen

/-- The step channels of the pending generation in the place of the old ones, once it is current and the tape unit has
received GO (spec/05_patterns_and_reconfiguration.md R177). -/
def State.moveTape (s : State) : State :=
  if s.loader.unitGone.contains 0xC34 && s.curGen = s.loader.gen then
    { s with tape := { s.tape with chans := s.tape.pendChans, pendChans := [] } }
  else s

/-- The pending table of collectives and routes in the place of the old one, once every engine has received GO. -/
def State.moveSeam (s : State) : State :=
  match s.seam.pend with
  | some t =>
    if (List.range 8).all fun p => s.loader.unitGone.contains (0xC20 + p) then
      { s with seam := { s.seam with cur := t, pend := none } }
    else s
  | none => s

/-- The pending generation becomes current: the last tile of the old one has switched
(spec/05_patterns_and_reconfiguration.md R163, Table 5.9 step 8, spec/11_host_interface_and_command_tape.md
Table 11.11). -/
def State.makeCurrent (s : State) : State :=
  let l := s.loader
  let id := s.get R.PL_PATTERN_PEND_ID
  let s := (s.setGen l.oldGen 3).setGen l.gen 1
  let s := s.setAll [(R.PL_STATUS_CUR_GEN, l.gen), (R.PL_STATUS_PEND_VALID, 0), (R.PL_PATTERN_CUR_ID, id)]
  let s := ((s.bump R.LOADS 1).setPl 6).onLoader fun l => { l with curRegions := l.regions, curSpillNeed := l.spillNeed }
  s.moveTape.reply l.tag l.epoch 1 0 (leBytes 1 l.gen ++ leBytes 3 0 ++ leBytes 4 id)

/-- The old generation retired once its value is quarantined, every tile has switched and every acknowledgement has come
(spec/05_patterns_and_reconfiguration.md R179, Table 5.9 steps 7 and 9; log entry 127). -/
def State.endRetire (s : State) : State :=
  let l := s.loader
  if s.plState = 6 && !l.discarding && !l.late && l.live && l.awaited.isEmpty && s.tiles.all fun e => e.2.pend.isNone then
    ((s.setGen l.oldGen 0).setPl 0).onLoader fun l => { curRegions := l.curRegions, curSpillNeed := l.curSpillNeed }
  else s

/-- GO sent once every ARM is acknowledged; with no tile to switch, the pending generation is current at once
(spec/05_patterns_and_reconfiguration.md R165, R179, Table 5.9 step 6; log entries 127 and 129). -/
def State.sendGo (s : State) : State :=
  let old := s.tilesIn
  let s := (s.setPl 5).onLoader fun l => { l with
    goSent := true, parts := old ++ selvedge.filter s.partOld, awaited := allUnits }
  if old.isEmpty then s.makeCurrent else s

/-- `ARM_ACK`: an acknowledgement of ARM reaches the loader (spec/05_patterns_and_reconfiguration.md R165). -/
def execArmAck (unit : Nat) (s : State) : Res :=
  let l := s.loader
  if s.halts || s.plState ≠ 4 || !l.unitArmed.contains unit || l.armed.contains unit then go s
  else
    let s := s.onLoader fun l => { l with armed := unit :: l.armed }
    if s.loader.armed.length = allUnits.length then go s.sendGo else go s

/-- The generation that a selvedge unit is in: the pending one from GO on (spec/05_patterns_and_reconfiguration.md R177). -/
def State.unitGenNow (s : State) (u : Nat) : Nat :=
  let l := s.loader
  if l.live && l.goSent then (if l.unitGone.contains u then l.gen else l.oldGen) else s.curGen

/-- The table of collectives and routes in force at an engine: the module-wide table of the generation that it is in
(spec/10_seam_ports_and_collectives.md R327, spec/05_patterns_and_reconfiguration.md R177; log entry 54). -/
def State.seamTabOf (s : State) (p : Nat) : SeamTab :=
  match s.seam.pend with
  | some t => if s.loader.unitGone.contains (0xC20 + p) then t else s.seam.cur
  | none => s.seam.cur

/-- A message of the engine of a port to another module by a table of routes; `SEAM_ROUTE` where none covers it
(spec/10_seam_ports_and_collectives.md R328). -/
def State.sendVia (s : State) (p : Nat) (rs : List RouteRec) (m : SMsg) : State :=
  match routeFor rs m.dst with
  | some r => s.portSend r.lport (smSigned { m with rport := r.rport })
  | none => s.raise Code.SEAM_ROUTE (0xC20 + p) m.ty m.src

/-- The same by the routes in force at the engine. -/
def State.sendMsg (s : State) (p : Nat) (m : SMsg) : State := s.sendVia p (s.seamTabOf p).routes m

/-- A message of this module (spec/10_seam_ports_and_collectives.md Table 10.4). -/
def State.msg (s : State) (ty dst kid kstep group n line : Nat) (body : List Byte) : SMsg :=
  { ty := ty, ver := 0x10, src := s.modId, dst := dst, lseq := 0, lack := 0, free := 0, kid := kid, kep := kstep % 256,
    kstep := kstep, group := group, n := n, line := line, body := body, mcrc := 0 }

/-- Credits granted to the sender of a stream (spec/10_seam_ports_and_collectives.md R331). -/
def State.grant (s : State) (p smod slot n : Nat) : State :=
  s.sendMsg p (s.msg 0x11 smod slot s.stepNo 0 0 0 (leBytes 4 n))

/-- The `IN` records of an engine that take effect: the first of each slot, once its generation has received GO there,
grants `WIN` credits (spec/10_seam_ports_and_collectives.md R331). -/
def State.enforceIns (s : State) (p gen : Nat) : State :=
  let first (i : InStream) : Bool :=
    (s.seam.ins.find? fun j => j.rc.port = p && j.rc.slot = i.rc.slot && !j.hem) = some i
  let starts := s.seam.ins.filter fun i => i.rc.port = p && i.gen = gen && !i.inForce && first i
  let s := { s with seam := { s.seam with
    ins := s.seam.ins.map (fun i => if starts.contains i then { i with inForce := true } else i)
    hemSlots := s.seam.hemSlots.filter fun h => !(starts.any fun i => h = (p, i.rc.slot)) } }
  starts.foldl (fun s i => s.grant p i.rc.smod i.rc.slot i.rc.win) s

/-- `GO`: a unit receives GO. A unit that takes no part in the old generation acknowledges its retirement
(spec/05_patterns_and_reconfiguration.md R177, R180). -/
def execGo (unit : Nat) (s : State) : Res :=
  let l := s.loader
  if s.safe || !l.goSent || !allUnits.contains unit || l.unitGone.contains unit then go s
  else
    let s := s.onLoader fun l => { l with
      unitGone := unit :: l.unitGone, ackSent := if l.parts.contains unit then l.ackSent else unit :: l.ackSent }
    if unit < nTiles then
      go (s.onTile unit fun x => { x with pend := x.pend.map fun p => { p with go := true } })
    else if inRange 0xC20 0xC27 unit then go (s.enforceIns (unit - 0xC20) l.gen).moveSeam
    else if unit = 0xC34 then go s.moveTape
    else go s

/-! ### Ending a generation at a tile -/

/-- Has the tile program of the current generation ended: halted with nothing outstanding, or empty
(spec/05_patterns_and_reconfiguration.md R166, R174)? -/
def Tile.programEnded (x : Tile) : Bool :=
  (x.count = 0 || x.halted) && x.outstanding = 0 && x.entries.isEmpty && !x.bob0.run && !x.bob1.run
    && x.bob0.quar.isEmpty && x.bob1.quar.isEmpty

/-- Is a channel the output of a shuttle or of the predicate unit? -/
def unitOut (t : Nat) (rf : RegFile) (c : Nat) : Bool :=
  ([0, 1].any fun k => shEn rf k && (rfGet rf (T.SHUT_CFG_OUT0 k) = c
      || (rfGet rf (T.SHUT_CFG_MODE k) = 1 && rfGet rf (T.SHUT_CFG_OUT1 k) = c)))
    || (predCap t && prEn rf && (rfGet rf T.PRED_CFG_OUTA = c
      || (rfGet rf T.PRED_CFG_OUTB_EN = 1 && rfGet rf T.PRED_CFG_OUTB = c)))

/-- `HEM_SEND`: one hem marker on a program-driven channel of a tile that has ended its generation
(spec/05_patterns_and_reconfiguration.md R174). -/
def execHemSend (t c : Nat) (s : State) : Res :=
  let x := s.tile t
  if s.issues && decide (t < nTiles) && chEn x.regs c && !unitOut t x.regs c && !(x.och c).hem && x.programEnded
      && (x.count ≠ 0 || x.pend.any TilePend.go) && x.canSend c then
    go ((s.sendNew t c kHem 0 false []).onTile t fun x => x.setOch c { x.och c with hem := true })
  else go s

/-- Do the conditions of R166 hold that the generation ends by itself (spec/05_patterns_and_reconfiguration.md R166)? -/
def Tile.ranEmpty (x : Tile) (t : Nat) : Bool :=
  x.programEnded
    && (List.range 32).all (fun c => !chEn x.regs c || (x.och c).hem)
    && (List.range 32).all (fun q => !qEn x.regs q || x.get (T.QCFG_CONS q) ≠ 0
      || (x.head q).any fun k => hKind k.hdr = kHem)
    && (!shEn x.regs 0 || x.shutHem0) && (!shEn x.regs 1 || x.shutHem1) && (!(predCap t && prEn x.regs) || x.predHem)

/-- May a tile switch: GO has come and the old generation has run empty, or holds no part of it with scratchpad data to
come, or has been ended by a FLUSH and no stream epoch is quarantined (spec/05_patterns_and_reconfiguration.md R166,
spec/06_progress_deadlock_drain.md R210, spec/09_bobbin_streams.md Table 9.7)? -/
def State.canSwitch (s : State) (t : Nat) : Bool :=
  let x := s.tile t
  x.pend.any fun p => p.go &&
    (!p.spad.isEmpty || (s.unpick.flushed && s.drain = 3 && x.bob0.quar.isEmpty && x.bob1.quar.isEmpty)
      || (s.issues && x.ranEmpty t))

/-- A tile after the commit of a switch (spec/05_patterns_and_reconfiguration.md R167, R170). -/
def Tile.switched (x : Tile) (p : TilePend) (full : Bool) : Tile :=
  let st := stageTo x.regs p.regs
  let y := ({ x with stage := st } : Tile).applyCommit
  let chans : Kv Och := (List.range 32).filterMap fun c =>
    if chEn p.regs c then
      some (c, { credits := if full then rfGet p.regs (T.OCH_CRED c) else kvGet 0 p.creds c + (x.och c).kept
                 bucket := rfGet p.regs (T.OCH_BURST c) })
    else none
  let y : Tile := { y with
    ochs := chans
    queues := y.queues.map fun e => (e.1, { e.2 with refCur := e.2.refPend, refPend := [], hemmed := false })
    base := p.base, count := p.count, bobBase := p.bobBase, bobCount := p.bobCount
    bob0 := {}, bob1 := {}, halted := false, past := false, progWait := none, loops := []
    shutHem0 := false, shutHem1 := false, predHem := false, predIdx := 0, predOpen := [], tripped := [], pend := none
    spad := p.spad.foldl (fun m g => memWriteN m g.1 g.2) y.spad }
  let y := ((((y.set T.TILE_DL_DL0 0).set T.TILE_DL_DL1 0).set T.TILE_DL_DL2 0).set T.TILE_DL_DL3 0)
  ((y.set T.TILE_STATUS_GEN p.gen).set T.TILE_STATUS_PC p.base).set T.TILE_STATUS_STATE
    (if p.count = 0 || full then 0 else 1)

/-- Hem markers at the heads of the program's queues consumed (spec/05_patterns_and_reconfiguration.md R167 step 1). -/
def State.takeHems (s : State) (t : Nat) : State :=
  (List.range 32).foldl (fun s q =>
    let x := s.tile t
    if qEn x.regs q && x.get (T.QCFG_CONS q) = 0 && (x.head q).any (fun k => hKind k.hdr = kHem) then s.consumeHem t q else s) s

/-- A tile switches: hem markers consumed, the stage committed or refused, retirement acknowledged; one with a queue in
spill mode notifies the unpick controller (spec/05_patterns_and_reconfiguration.md R167, R169,
spec/06_progress_deadlock_drain.md R203). A refused switch ends the loader's hold on the stage (log entry 130). -/
def State.switchTile (s : State) (t : Nat) (p : TilePend) : State :=
  let full := s.unpick.flushed && s.drain = 3
  let part := (s.tile t).takesPart t
  let s := s.takeHems t
  let x := s.tile t
  match tileCheck t x.regs (stageTo x.regs p.regs) p.regs with
  | some f =>
    (s.raise Code.PAT_SWITCH_FAIL t 0 (f.1 + f.2 * 2 ^ 16)).onTile t fun x =>
      { x.stopped with stage := [], pend := none }
  | none =>
    let s := s.setTile t (x.switched p full)
    let s := s.onLoader fun l => { l with ackSent := if l.ackSent.contains t then l.ackSent else t :: l.ackSent }
    let s := if (s.tile t).queues.any fun q => q.2.spill then
        { s with unpick := { s.unpick with notices := s.unpick.notices ++ [t] } }
      else s
    if part then
      let s := s.set R.PL_STATUS_LEFT (s.get R.PL_STATUS_LEFT - 1)
      (if s.get R.PL_STATUS_LEFT = 0 && s.plState = 5 then s.makeCurrent else s).endRetire
    else s.endRetire

/-- `TILE_SWITCH` (spec/05_patterns_and_reconfiguration.md R166, R167). -/
def execTileSwitch (t : Nat) (s : State) : Res :=
  match (s.tile t).pend with
  | some p => if !s.safe && s.canSwitch t then go (s.switchTile t p) else go s
  | none => go s

/-! ### Ending a generation at a selvedge unit -/

/-- Has every channel of a generation into a unit delivered its hem marker (spec/05_patterns_and_reconfiguration.md
R177)? -/
def State.hemmedInto (s : State) (unit gen : Nat) : Bool :=
  !(s.tiles.any fun e => e.2.gen = gen && (List.range 32).any fun c =>
      chEn e.2.regs c && e.2.get (T.OCH_DEST c) = unit && !(e.2.och c).hem)
    && !s.net.any fun n => hDest n.tok.hdr = unit && hGen n.tok.hdr = gen

/-- The step channels of the tape unit ended: a hem marker on each that owes no token and can send
(spec/05_patterns_and_reconfiguration.md R177, spec/11_host_interface_and_command_tape.md R369). -/
def State.hemChans (s : State) (gen : Nat) : State :=
  let ends (c : StepChan) : Bool :=
    c.gen = gen && !c.hem && c.owed.isEmpty && !c.owedEnd && decide (0 < c.credits) && decide (0 < c.bucket)
      && !s.chanStopped 0xC34 ((s.tape.chans.findIdx? fun d => d.dest = c.dest && d.dq = c.dq).getD 0)
  let toks := s.tape.chans.filter ends
  let chans := s.tape.chans.map fun c =>
    if ends c then { c with hem := true, credits := c.credits - 1, bucket := c.bucket - 1 } else c
  let s := { s with tape := { s.tape with chans := chans } }
  toks.foldl (fun s c => s.sendUnit 0xC34 ⟨mkHdr ⟨c.dest, c.dq, c.gen, 0, kHem, false, 1, 0, 0x3F, 0⟩, []⟩
    (some (0xC34, (s.tape.chans.findIdx? fun d => d.dest = c.dest && d.dq = c.dq).getD 0))) s

/-- The completion channels of an engine ended: a done channel once no collective instance of the generation is live, one
of gathers once every channel into the engine has ended and its gathers have completed
(spec/05_patterns_and_reconfiguration.md R177). -/
def State.hemDone (s : State) (port gen : Nat) : State :=
  let finished (d : DoneChan) : Bool :=
    if d.cred = 1 then !s.seam.insts.any fun i => i.gen = gen
    else s.hemmedInto (0xC20 + port) gen && !s.seam.gathers.any fun g => g.gen = gen && g.port = port
  let ends (d : DoneChan) : Bool :=
    d.port = port && d.gen = gen && d.owed.isEmpty && decide (0 < d.credits) && decide (0 < d.bucket)
      && !s.chanStopped (0xC20 + port) (doneChan d.dest d.dq) && finished d
  let ds := s.seam.done.filter ends
  let s := { s with seam := { s.seam with done := s.seam.done.filter fun d => !ends d } }
  ds.foldl (fun s d => s.sendUnit (0xC20 + port) ⟨mkHdr ⟨d.dest, d.dq, gen, 0, kHem, false, 1, 0, 0x3F, 0⟩, []⟩
    (some (0xC20 + port, doneChan d.dest d.dq))) s

/-- May spill tokens or records of a generation still come to the unpick controller, or lie there: a tile is in it, a chain
holds records of it, or a pair is on its way (spec/05_patterns_and_reconfiguration.md R178,
spec/06_progress_deadlock_drain.md R203)? -/
def State.spills (s : State) (gen : Nat) : Bool :=
  (s.tiles.any fun e => e.2.gen = gen && e.2.queues.any fun q => q.2.spill)
    || (s.unpick.chains.any fun c => c.gen = gen) || s.unpick.due.any fun d => d.2.2 = gen

/-- Has a selvedge unit nothing left of a generation, no collective instance of it live
(spec/10_seam_ports_and_collectives.md Table 10.11)? -/
def State.unitEnded (s : State) (unit gen : Nat) : Bool :=
  s.hemmedInto unit gen
    && (unit ≠ 0xC34 || s.tape.chans.all fun c => c.gen ≠ gen || c.hem)
    && (!inRange 0xC20 0xC27 unit ||
        (s.seam.outs.all (fun o => o.rc.port ≠ unit - 0xC20 || o.gen ≠ gen)
          && s.seam.ins.all (fun i => i.rc.port ≠ unit - 0xC20 || i.gen ≠ gen)
          && s.seam.done.all (fun d => d.port ≠ unit - 0xC20 || d.gen ≠ gen)
          && s.seam.insts.all fun i => i.rc.port ≠ unit - 0xC20 || i.gen ≠ gen))
    && (!inRange 0xC00 0xC17 unit || s.mem.heldReqs.all fun h => h.mc ≠ unit - 0xC00)
    && (unit ≠ 0xC32 || !s.spills gen)

/-- `SELVEDGE_GEN_END`: a selvedge unit ends the old generation on its outputs and acknowledges its retirement
(spec/05_patterns_and_reconfiguration.md R177). -/
def execSelvedgeGenEnd (unit : Nat) (s : State) : Res :=
  let l := s.loader
  if s.safe || !selvedge.contains unit || !l.unitGone.contains unit || l.ackSent.contains unit then go s
  else
    let s := if unit = 0xC34 then s.hemChans l.oldGen
      else if inRange 0xC20 0xC27 unit then s.hemDone (unit - 0xC20) l.oldGen else s
    if s.unitEnded unit l.oldGen then go (s.onLoader fun l => { l with ackSent := unit :: l.ackSent }) else go s

/-! ### Acknowledgements and deadlines -/

/-- `RETIRE_ACK`: an acknowledgement of retirement reaches the loader (spec/05_patterns_and_reconfiguration.md R179). -/
def execRetireAck (unit : Nat) (s : State) : Res :=
  let l := s.loader
  if s.halts || !l.ackSent.contains unit || !l.awaited.contains unit then go s
  else go (s.onLoader fun l => { l with awaited := l.awaited.erase unit }).endRetire

/-- `DISCARD`: a unit receives DISCARD, drops its stage or its pending tables, and acknowledges
(spec/05_patterns_and_reconfiguration.md R182). -/
def execDiscard (unit : Nat) (s : State) : Res :=
  let l := s.loader
  if s.safe || !l.discarding || !l.discardTo.contains unit then go s
  else
    let s := s.onLoader fun l => { l with discardTo := l.discardTo.erase unit, discarded := unit :: l.discarded }
    if unit < nTiles then go (s.onTile unit fun x => { x with stage := [], pend := none })
    else if unit = 0xC34 then go { s with tape := { s.tape with pendChans := [] } }
    else
      let p := unit - 0xC20
      go { s with seam := { s.seam with
        pend := none
        outs := s.seam.outs.filter fun o => !(o.rc.port = p && o.gen = l.gen)
        ins := s.seam.ins.filter fun i => !(i.rc.port = p && i.gen = l.gen)
        done := s.seam.done.filter fun d => !(d.port = p && d.gen = l.gen) } }

/-- `DISCARD_ACK`: an acknowledgement of DISCARD reaches the loader (spec/05_patterns_and_reconfiguration.md R182). -/
def execDiscardAck (unit : Nat) (s : State) : Res :=
  let l := s.loader
  if s.halts || !l.discarding || !l.discarded.contains unit then go s
  else go (s.onLoader fun l => { l with discarded := l.discarded.erase unit }).endDiscard

/-- `PAT_LOAD_DEADLINE`: a bound of steps 2 to 7 of a load expires: before GO the load is abandoned, after GO the fault
is of class Run (spec/05_patterns_and_reconfiguration.md R162, R182, Table 5.14). -/
def execPatLoadDeadline (s : State) : Res :=
  let l := s.loader
  if s.halts || !l.live || l.discarding then go s
  else if !l.goSent then
    if s.plState = 3 then go s
    else go ((s.raiseAs .contained true Code.PAT_LOAD_DEADLINE 0xC31 noSec 0).abandonLoad 3 Code.PAT_LOAD_DEADLINE noSec 0)
  else if s.plState = 5 || (s.plState = 6 && s.tiles.any fun e => e.2.pend.isSome) then
    go (s.raiseAs .run false Code.PAT_LOAD_DEADLINE 0xC31 noSec 0)
  else go s

/-- `PAT_RETIRE_DEADLINE`: acknowledgements of retirement or of DISCARD are late; a generation whose retirement is late
stays quarantined (spec/05_patterns_and_reconfiguration.md R179, R182). -/
def execPatRetireDeadline (s : State) : Res :=
  let l := s.loader
  if s.halts || s.plState ≠ 6 || !l.live then go s
  else
    let s := s.raise Code.PAT_RETIRE_DEADLINE 0xC31 noSec 0
    if l.discarding then go s else go (s.onLoader fun l => { l with late := true })

end Sys2Proof.Machine
end

