-- ==== Sys2Proof/Machine/PressOps.lean ====
section
/-! DEFINITION. What the press units compute: the close of a group into G8, gradients, the partial norm and the verdict,
the optimisers, working copies, the audit and the update-to-weight ratio
(spec/07_training_step_and_press.md R229 to R247). -/

namespace Sys2Proof.Machine

/-! ### Lines of arrays -/

/-- Elements of a line. -/
def lineElems : Nat := 64

/-- Bytes of one line of an element plane and of a scale plane (spec/07_training_step_and_press.md R226). -/
def lineBytes (d : FmtD) : Nat := planeBytes d lineElems
def lineScales (d : FmtD) : Nat := scaleBytes d lineElems

/-- The addresses of a line of the arrays that hold owned elements, of the working copy and of G8
(spec/07_training_step_and_press.md R226). -/
def GRec.ownAt (r : GRec) (base line : Nat) : Nat := base + 4 * (lineElems * line - r.ownLo)
def GRec.workAt (r : GRec) (line : Nat) : Nat := r.work + line * lineBytes r.wfmt
def GRec.workSclAt (r : GRec) (line : Nat) : Nat := r.workScl + line * lineScales r.wfmt
def GRec.g8At (r : GRec) (line : Nat) : Nat := r.g8 + line * lineBytes r.gfmt
def GRec.g8SclAt (r : GRec) (line : Nat) : Nat := r.g8Scl + line * lineScales r.gfmt

/-- The owned lines of a group. -/
def GRec.ownLines (r : GRec) : List Nat :=
  (List.range ((r.ownHi - r.ownLo) / lineElems)).map (r.ownLo / lineElems + ·)

/-- Does the group take part in a reduction (spec/10_seam_ports_and_collectives.md R332)? -/
def GRec.reduces (r : GRec) : Bool := r.closes && !r.isLocal

/-- Is the group swept (spec/07_training_step_and_press.md R244)? -/
def GRec.sweeps (r : GRec) : Bool := r.closes && r.owns

/-- The groups of the table that satisfy a condition, in order. -/
def State.groupsWith (s : State) (p : GRec → Bool) : List Nat := (List.range s.gtCount).filter fun g => p (s.grp g)

/-- The values of a line of an element plane under its scales (spec/02_numerics.md R47, R60). -/
def decodeLine (d : FmtD) (elems scales : List Byte) : List W32 :=
  (unpackCodes (fmtBits d.fmt) lineElems elems).zipIdx.map fun c =>
    toF32 (elemValue d.fmt ((scales.getD (c.2 / d.block) 0).toNat) c.1)

/-- The decoded G8 values of a line. -/
def State.g8Line (s : State) (r : GRec) (line : Nat) : List W32 :=
  decodeLine r.gfmt (s.rdN (r.g8At line) (lineBytes r.gfmt)) (s.rdN (r.g8SclAt line) (lineScales r.gfmt))

/-- Ranges read by an engine: each checked and looked up in the lining cache as far as the first that cannot be used, and
whether the data may be used; `e` is the error that the first meets (spec/08_memory_system.md R264, R266, R272). -/
def State.engRead (s : State) : List (Nat × Nat) → Ecc → State × Bool
  | [], _ => (s, true)
  | p :: l, e =>
    let c := s.load p.1 p.2 false e
    if c.2.isNone then c.1.engRead l .ok else (c.1, false)

/-- The same where no error arises. -/
def State.engCheck (s : State) (l : List (Nat × Nat)) : State × Bool := s.engRead l .ok

/-! ### Records read during a step -/

/-- A record found changed since the step opened: step-fatal before the verdict is confirmed, module-fatal after it
(spec/07_training_step_and_press.md R228). -/
def State.recFault (s : State) (unit g : Nat) : State :=
  s.raiseAs (if s.stepOpen then .stepFatal else .moduleFatal) false Code.PRS_RECORD_CHANGED unit g 0

/-- Is the record of a group one of a step that has not ended, and changed (spec/07_training_step_and_press.md R228)? -/
def State.recBad (s : State) (g : Nat) : Bool :=
  inRange 1 5 s.phase && decide (g < s.press.crcs.length) && s.grpChanged g

/-- What reads the whole table during a step acts only on records that have not changed
(spec/07_training_step_and_press.md R228; log entry 125). -/
def State.withRecs (s : State) (unit : Nat) (f : State → State) : State :=
  match (List.range s.gtCount).find? s.recBad with
  | some g => s.recFault unit g
  | none => f s

/-- What reads the record of one group acts only if it has not changed. -/
def State.withRec (s : State) (unit g : Nat) (f : State → State) : State := if s.recBad g then s.recFault unit g else f s

/-! ### Closing a group -/

/-- What the close of a line writes: the element and scale bytes of G8, those of `ERR`, and the increments
(spec/07_training_step_and_press.md R232). -/
structure ClosedLine where
  elems : List Byte
  scales : List Byte
  errs : List Byte
  cnt : Cnt
  deriving DecidableEq, Repr

/-- The sums of a line, read out (spec/07_training_step_and_press.md R224, R232, spec/02_numerics.md R64). -/
def State.sumLine (s : State) (r : GRec) (line : Nat) : List W32 :=
  let n := if r.sumfmt = 0 then 8 else 4
  let ws := s.rdW (r.sum + n * lineElems * line) (n / 4 * lineElems)
  if r.sumfmt = 0 then (List.range lineElems).map fun k => cread ⟨ws.getD (2 * k) 0, ws.getD (2 * k + 1) 0⟩ else ws

/-- The error terms of a line. -/
def State.errLine (s : State) (r : GRec) (line : Nat) : List W32 :=
  (unpackCodes 16 lineElems (s.rdN (r.err + 2 * lineElems * line) (2 * lineElems))).map fun c => toF32 (bf16.decode c)

/-- Was `ERR` written by the step that last committed (spec/07_training_step_and_press.md R232)? -/
def State.errValid (s : State) (r : GRec) : Bool :=
  s.get R.PRS_LAST_LAST ≠ stepNone && r.errStep = s.get R.PRS_LAST_LAST

/-- The close of one line (spec/07_training_step_and_press.md R232). -/
def State.closeLine (s : State) (r : GRec) (line : Nat) : ClosedLine :=
  let v := s.sumLine r line
  let v := if s.errValid r then List.zipWith fadd v (s.errLine r line) else v
  let sd : Seed := ⟨s.stepNo, s.modId, r.shard, lineElems * line⟩
  let c := convRow { r.gfmt with sr := true } sd v
  let elems := packCodes (fmtBits r.gfmt.fmt) c.2.1
  let scales := c.1.map (BitVec.ofNat 8)
  let rest := List.zipWith fsub v (decodeLine r.gfmt elems scales)
  let e := convRow ⟨Nat.xor r.gfmt.salt 0xFF, true, false, 0, 1⟩ sd rest
  ⟨elems, scales, packCodes 16 e.2.1, c.2.2.add e.2.2⟩

/-- A line closed: `G8`, `G8_SCL` and `ERR` written, the increments counted with the unit that holds its first byte of
`G8` (spec/07_training_step_and_press.md R229, R232, spec/02_numerics.md R71). -/
def State.putClosed (s : State) (r : GRec) (line : Nat) (c : ClosedLine) : State :=
  (((s.put (r.g8At line) c.elems).put (r.g8SclAt line) c.scales).put (r.err + 2 * lineElems * line) c.errs).addCnt
    (36 + s.mcOf (r.g8At line)) c.cnt

/-- The lines of a group closed one after another: the state and the saturations. -/
def State.closeLines (s : State) (r : GRec) : List Nat → State × Nat
  | [] => (s, 0)
  | j :: l =>
    let c := s.closeLine r j
    let x := (s.putClosed r j c).closeLines r l
    (x.1, c.cnt.sat + x.2)

/-- A group closed: its arrays, `ERR_STEP` and `G8_SAT` written (spec/07_training_step_and_press.md R232). -/
def State.closeGroup (s : State) (g : Nat) : State :=
  let r := s.grp g
  let x := s.closeLines r (List.range (r.nElem / lineElems))
  (x.1.put (s.grpAddr g + 0xA4) (leBytes 4 x.2)).put (s.grpAddr g + 0xA8) (leBytes 6 s.stepNo ++ leBytes 2 0)

/-! ### Gradients and the norm -/

/-- A number as FP32 (spec/07_training_step_and_press.md R234, R243). -/
def natF32 (n : Nat) : W32 := toF32 (.fin false n 0)

/-- The gradient of an owned line (spec/07_training_step_and_press.md R234). -/
def State.gradLine (s : State) (g : Nat) (r : GRec) (line : Nat) : List W32 :=
  if r.isLocal then (s.g8Line r line).map fun a => fdiv a f1
  else
    let n := natF32 (kvGet 1 s.press.red g)
    (s.rdW (r.ownAt r.red line) lineElems).map fun a => fdiv a n

/-- The owned lines that a press unit processes, in order: group and line (spec/07_training_step_and_press.md R229). -/
def State.unitLines (s : State) (mc : Nat) (p : GRec → Bool) : List (Nat × Nat) :=
  (s.groupsWith p).flatMap fun g =>
    ((s.grp g).ownLines.filter fun j => s.mcOf ((s.grp g).ownAt (s.grp g).master j) = mc).map fun j => (g, j)

/-- A compensated sum of squares continued (spec/07_training_step_and_press.md R235). -/
def sumSquares (p : CPair) (l : List W32) : CPair := l.foldl (fun p a => cadd p (fmul a a)) p

/-- The sum of one press unit (spec/07_training_step_and_press.md R235). -/
def State.unitSum (s : State) (mc : Nat) : CPair :=
  (s.unitLines mc GRec.sweeps).foldl (fun p x => sumSquares p (s.gradLine x.1 (s.grp x.1) x.2)) ⟨0, 0⟩

/-- Values combined in order and read out (spec/07_training_step_and_press.md R235). -/
def combine (l : List W32) : W32 := cread (l.foldl cadd ⟨0, 0⟩)

/-- The partial squared norm of the module (spec/07_training_step_and_press.md R235). -/
def State.partialNorm (s : State) : W32 := combine ((List.range 24).map fun u => cread (s.unitSum u))

/-- The verdict and k by N² (spec/07_training_step_and_press.md R236): 1 ADMIT, 2 CLIP, 3 SKIP. -/
def State.decideNorm (s : State) (n2 : W32) : Nat × W32 :=
  let norm := fsqrt n2
  let clip : W32 := BitVec.ofNat 32 (s.get R.PRS_CLIP_NORM_CLIP_NORM)
  if !isFinite n2 then (3, 0)
  else if s.flag R.PRS_CFG_SKIP_EN && Machine.flt (BitVec.ofNat 32 (s.get R.PRS_SKIP_NORM_SKIP_NORM)) norm then (3, 0)
  else if s.flag R.PRS_CFG_CLIP_EN && Machine.flt clip norm then (2, fdiv clip norm)
  else (1, f1)

/-! ### Optimisers -/

/-- `powi` (spec/07_training_step_and_press.md R239); the first argument bounds the recursion. -/
def powi : Nat → W32 → W32 → Nat → W32
  | 0, r, _, _ => r
  | k + 1, r, x, t => if t = 0 then r else powi k (if t % 2 = 1 then fmul r x else r) (fmul x x) (t / 2)

/-- `sign` (spec/07_training_step_and_press.md R242). -/
def fsign (a : W32) : W32 := if isNan a then qnan else if Machine.flt 0 a then f1 else if Machine.flt a 0 then 0xBF800000 else 0

/-- An element under update: the master value and the two states. -/
structure Elem where
  w : W32
  s1 : W32
  s2 : W32
  deriving DecidableEq, Repr

/-- The last lines of AdamW, SGD and Lion: decay, rate and the new master value. -/
def GRec.stepDown (r : GRec) (w d : W32) : W32 := fsub w (fmul (r.par 0) (fadd d (fmul (r.par 4) w)))

/-- AdamW (spec/07_training_step_and_press.md R240). -/
def GRec.adamw (r : GRec) (t : Nat) (e : Elem) (g : W32) : Elem :=
  let b1 := r.par 1
  let b2 := r.par 2
  let m := fadd (fmul b1 e.s1) (fmul (fsub f1 b1) g)
  let v := fadd (fmul b2 e.s2) (fmul (fsub f1 b2) (fmul g g))
  let mh := fdiv m (fsub f1 (powi 33 f1 b1 t))
  let vh := fdiv v (fsub f1 (powi 33 f1 b2 t))
  ⟨r.stepDown e.w (fdiv mh (fadd (fsqrt vh) (r.par 3))), m, v⟩

/-- SGD with momentum (spec/07_training_step_and_press.md R241). -/
def GRec.sgd (r : GRec) (e : Elem) (g : W32) : Elem :=
  let b := fadd (fmul (r.par 1) e.s1) g
  let d := if r.nesterov then fadd g (fmul (r.par 1) b) else b
  ⟨r.stepDown e.w d, b, e.s2⟩

/-- Lion (spec/07_training_step_and_press.md R242). -/
def GRec.lion (r : GRec) (e : Elem) (g : W32) : Elem :=
  let b1 := r.par 1
  let b2 := r.par 2
  let d := fsign (fadd (fmul b1 e.s1) (fmul (fsub f1 b1) g))
  ⟨r.stepDown e.w d, fadd (fmul b2 e.s1) (fmul (fsub f1 b2) g), e.s2⟩

/-- The value that a word of the programmable form computes (spec/07_training_step_and_press.md Table 7.5). -/
def progVal (op : Nat) (a b c : W32) : W32 :=
  match op with
  | 0x01 => fadd a b
  | 0x02 => fsub a b
  | 0x03 => fmul a b
  | 0x04 => ffma a b c
  | 0x05 => fdiv a b
  | 0x06 => fsqrt a
  | 0x07 => specialFn .rsqrt a
  | 0x08 => fmaxmin true a b
  | 0x09 => fmaxmin false a b
  | 0x0A => fsign a
  | 0x0B => canon (if Machine.flt 0 a then b else c)
  | 0x0C => canon a
  | _ => fabs a

/-- The programmable form run on its registers (spec/07_training_step_and_press.md R243). -/
def progRun : List Nat → List W32 → List W32
  | [], x => x
  | w :: l, x =>
    if pwOp w = 0 then x
    else
      let v (k : Nat) : W32 := x.getD k 0
      progRun l (x.set (pwD w) (progVal (pwOp w) (v (pwA w)) (v (pwB w)) (v (pwC w))))

/-- The programmable form (spec/07_training_step_and_press.md R243). -/
def GRec.programmed (r : GRec) (t : Nat) (e : Elem) (g : W32) : Elem :=
  let x := [e.w, if r.s1En then e.s1 else 0, if r.s2En then e.s2 else 0, g] ++ (List.range 8).map r.par ++ [natF32 t, 0, 0, 0]
  let y := progRun r.progWords x
  ⟨y.getD 0 0, y.getD 1 0, y.getD 2 0⟩

/-- One element updated, `g` being the gradient times k (spec/07_training_step_and_press.md R239). -/
def GRec.update (r : GRec) (t : Nat) (e : Elem) (g : W32) : Elem :=
  match r.op with
  | 0 => r.adamw t e g
  | 1 => r.sgd e g
  | 2 => r.lion e g
  | _ => r.programmed t e g

/-! ### Working copies -/

/-- D: the element and scale bytes of a line of a working copy (spec/07_training_step_and_press.md R245). -/
def derive (d : FmtD) (ws : List W32) : List Byte × List Byte × Cnt :=
  let c := convRow { d with sr := false } ⟨0, 0, 0, 0⟩ ws
  (packCodes (fmtBits d.fmt) c.2.1, c.1.map (BitVec.ofNat 8), c.2.2)

/-- A line of the working copy written (spec/07_training_step_and_press.md R245). -/
def State.putWork (s : State) (r : GRec) (line : Nat) (x : List Byte × List Byte × Cnt) (mc : Nat) : State :=
  ((s.put (r.workAt line) x.1).put (r.workSclAt line) x.2.1).addCnt (36 + mc) x.2.2

/-- A line of `MASTER`. -/
def State.masterLine (s : State) (r : GRec) (line : Nat) : List W32 := s.rdW (r.ownAt r.master line) lineElems

/-- The elements of an owned line as they stand. -/
def State.elems (s : State) (r : GRec) (line : Nat) : List Elem :=
  let rd (use : Bool) (base : Nat) : List W32 :=
    if use then s.rdW (r.ownAt base line) lineElems else List.replicate lineElems 0
  let w := s.masterLine r line
  let a := rd r.usesS1 r.s1
  let b := rd r.usesS2 r.s2
  (List.range lineElems).map fun k => ⟨w.getD k 0, a.getD k 0, b.getD k 0⟩

/-- The ranges that the sweep of a line reads (spec/07_training_step_and_press.md R244). -/
def GRec.sweepReads (r : GRec) (line : Nat) : List (Nat × Nat) :=
  [(r.ownAt r.master line, 256)] ++ (if r.usesS1 then [(r.ownAt r.s1 line, 256)] else [])
    ++ (if r.usesS2 then [(r.ownAt r.s2 line, 256)] else [])
    ++ (if r.isLocal then [(r.g8At line, lineBytes r.gfmt), (r.g8SclAt line, lineScales r.gfmt)]
        else [(r.ownAt r.red line, 256)])

/-- The update-to-weight sums of a unit and group continued (spec/07_training_step_and_press.md R247). -/
def addUw (l : List UwSum) (g mc : Nat) (old new : List W32) : List UwSum :=
  let o := (l.find? fun u => u.group = g && u.mc = mc).getD ⟨g, mc, ⟨0, 0⟩, ⟨0, 0⟩⟩
  let u : UwSum := { o with dlt := sumSquares o.dlt (List.zipWith fsub new old), wgt := sumSquares o.wgt old }
  u :: l.filter fun v => !(v.group = g && v.mc = mc)

/-- One owned line swept: computed whole, then written (spec/07_training_step_and_press.md R244). -/
def State.sweepLine (s : State) (mc g line : Nat) : State :=
  let r := s.grp g
  let old := s.elems r line
  let gs := (s.gradLine g r line).map fun a => fmul a s.press.k
  let new := List.zipWith (fun e a => r.update (r.t + 1) e a) old gs
  let ws := new.map Elem.w
  let s := s.put (r.ownAt r.master line) (wordsBytes ws)
  let s := if r.usesS1 then s.put (r.ownAt r.s1 line) (wordsBytes (new.map Elem.s1)) else s
  let s := if r.usesS2 then s.put (r.ownAt r.s2 line) (wordsBytes (new.map Elem.s2)) else s
  let s := s.putWork r line (derive r.wfmt ws) mc
  { s with press := { s.press with
      swept := (g, mc, line) :: s.press.swept, uw := addUw s.press.uw g mc (old.map Elem.w) ws } }

/-- The update-to-weight ratio (spec/07_training_step_and_press.md R247). -/
def uwRatio (d w : W32) : W32 :=
  if isNan d || isNan w then qnan
  else if w &&& 0x7FFFFFFF = 0 then (if d &&& 0x7FFFFFFF = 0 then 0 else 0x7F800000)
  else fsqrt (fdiv d w)

/-- The ratio of a group, its units combined in order. -/
def State.groupRatio (s : State) (g : Nat) : W32 :=
  let u (k : Nat) : UwSum := (s.press.uw.find? fun v => v.group = g && v.mc = k).getD ⟨g, k, ⟨0, 0⟩, ⟨0, 0⟩⟩
  uwRatio (combine ((List.range 24).map fun k => cread (u k).dlt)) (combine ((List.range 24).map fun k => cread (u k).wgt))

/-- A group whose sweep has ended: `LAST_UW`, an alert, `T` and `M_STEP` (spec/07_training_step_and_press.md R244, R247).
-/
def State.endGroup (s : State) (g : Nat) : State :=
  let r := s.grp g
  let a := s.grpAddr g
  let q := s.groupRatio g
  let s := s.put (a + 0xB8) (leBytes 4 q.toNat)
  let s := if isNan q || Machine.flt q r.uwLo || Machine.flt r.uwHi q then
      let s := (s.put (a + 0xBC) (leBytes 4 (r.uwAlerts + 1))).bump R.UW_ALERTS 1
      let s := s.raise Code.PRS_UW_ALERT 0xC66 g 0
      if r.uwHalt then s.set R.PRS_STATUS_UW_HOLD 1 else s
    else s
  let s := (s.put (a + 0xA0) (leBytes 4 (r.t + 1))).put (a + 0xB0) (leBytes 6 s.stepNo ++ leBytes 2 0)
  { s with press := { s.press with sweptGroups := g :: s.press.sweptGroups } }

/-- Does a sweep of a group run or wait (spec/10_seam_ports_and_collectives.md R340, R341)? -/
def State.sweeping (s : State) (g : Nat) : Bool :=
  s.phase = 4 && (s.grp g).sweeps && !s.press.sweptGroups.contains g

/-- One line audited (spec/07_training_step_and_press.md R246). -/
def State.auditLine (s : State) (mc g line : Nat) : State :=
  let r := s.grp g
  let c := s.engCheck [(r.ownAt r.master line, 256), (r.workAt line, lineBytes r.wfmt), (r.workSclAt line, lineScales r.wfmt)]
  if !c.2 then c.1
  else
    let x := derive r.wfmt (c.1.masterLine r line)
    let s := c.1.bump R.AUDIT_LINES 1
    if s.rdN (r.workAt line) (lineBytes r.wfmt) = x.1 ∧ s.rdN (r.workSclAt line) (lineScales r.wfmt) = x.2.1 then
      s.addCnt (36 + mc) x.2.2
    else ((s.putWork r line x mc).bump R.AUDIT_MISMATCH 1).raise Code.PRS_DRIFT (0xC00 + mc) g 0

/-- The lines that a unit audits (spec/07_training_step_and_press.md R246). -/
def State.auditLines (s : State) (mc : Nat) : List (Nat × Nat) :=
  let l := s.unitLines mc fun r => decide (0 < r.nElem) && r.owns
  let k := srKey (s.get R.PRS_LAST_LAST) s.modId 0xFFFFFFFF 0xA5
  (List.range (min (s.get R.PRS_CFG_AUDIT_N) l.length)).filterMap fun a => l[srDraw k a * l.length / 65536]?

/-! ### Phases -/

/-- A contribution of a step excluded or dropped (spec/10_seam_ports_and_collectives.md R335, Table 11.11). -/
def State.lateDrop (s : State) (step : Nat) : State :=
  let s := s.bump R.LATE_DROP 1
  if s.stepOpen && step = s.stepNo then { s with press := { s.press with lateDrop := s.press.lateDrop + 1 } }
  else { s with press := { s.press with replies := s.press.replies.map fun r =>
    if r.step = step then { r with drop := r.drop + 1 } else r } }

/-- `RED` and n of a group delivered (spec/07_training_step_and_press.md R233, R234). -/
def State.redDone (s : State) (g n : Nat) : State :=
  s.withRec 0xC66 g fun s =>
    if n = 0 && (s.grp g).owns then s.raise Code.PRS_DIV_ZERO 0xC66 g 0
    else { s with press := { s.press with red := kvSet s.press.red g n } }

/-- Have all closes of the step ended (spec/07_training_step_and_press.md Table 7.6 step 3)? -/
def State.allClosed (s : State) : Bool := (s.groupsWith GRec.closes).all s.press.closed.contains

/-- Have `RED` and n of every owned group been delivered (spec/07_training_step_and_press.md Table 7.6 step 4)? -/
def State.allRed (s : State) : Bool :=
  (s.groupsWith fun r => r.reduces && r.owns).all fun g => (kvGet? s.press.red g).isSome

/-- The audit begins once no group is left to sweep (spec/07_training_step_and_press.md Table 7.6 step 7). -/
def State.afterSweep (s : State) : State :=
  if s.phase ≠ 4 then s
  else s.withRecs 0xC66 fun s =>
    if (s.groupsWith GRec.sweeps).all s.press.sweptGroups.contains then
      { s.set R.PRS_STATUS_PHASE 5 with press := { s.press with audited := [] } }
    else s

/-- Is a `REDUCE` instance of a step live (spec/07_training_step_and_press.md R222)? -/
def State.returning (s : State) (step : Nat) : Bool := s.seam.insts.any fun i => i.rc.kind = 1 && i.step = step

/-- The final replies of committed steps whose audit and return have ended (spec/07_training_step_and_press.md R222). -/
def State.tryReplies (s : State) : State :=
  let due := s.press.replies.filter fun r => r.idle && !s.returning r.step
  let s := { s with press := { s.press with replies := s.press.replies.filter fun r => !(r.idle && !s.returning r.step) } }
  due.foldl (fun s r => s.reply r.tag r.epoch 1 0 (stepResult r.step r.verdict r.late r.n2 r.k r.drop)) s

end Sys2Proof.Machine
end

