-- ==== Sys2Proof/Machine/SeamRing.lean ====
section
/-! DEFINITION. The step collective: instances, ownership, the reduction chain, norm and verdict, return and digests
(spec/10_seam_ports_and_collectives.md R332 to R340). -/

namespace Sys2Proof.Machine

/-! ### Instances -/

/-- A live instance by collective id and step. -/
def State.inst (s : State) (id step : Nat) : Option Inst := s.seam.insts.find? fun i => i.rc.id = id && i.step = step

/-- The state with a live instance changed. -/
def State.onInst (s : State) (id step : Nat) (f : Inst → Inst) : State :=
  { s with seam := { s.seam with insts := s.seam.insts.map fun i => if i.rc.id = id && i.step = step then f i else i } }

/-- A group's record at the opening. -/
def RedGroup.gr (g : RedGroup) : GRec := g.record

/-- A group of an instance, and the instance with one changed. -/
def Inst.rg (i : Inst) (g : Nat) : Option RedGroup := i.groups.find? fun r => r.group = g
def Inst.onRg (i : Inst) (g : Nat) (f : RedGroup → RedGroup) : Inst :=
  { i with groups := i.groups.map fun r => if r.group = g then f r else r }

/-- A group of a live instance. -/
def State.redGroup (s : State) (id step g : Nat) : Option RedGroup := (s.inst id step).bind fun i => i.rg g
def State.onRedGroup (s : State) (id step g : Nat) (f : RedGroup → RedGroup) : State :=
  s.onInst id step fun i => i.onRg g f

/-- The unit of an instance in a fault record, and `ARG` with a module and a group
(spec/15_faults_and_safe_state.md Table 15.3). -/
def Inst.unit (i : Inst) : Nat := 0xC20 + i.rc.port
def seamArg (m g : Nat) : Nat := m % 2 ^ 14 + g % 2 ^ 12 * 2 ^ 14

/-- Lines in one message towards a module (spec/10_seam_ports_and_collectives.md R317). -/
def State.lineMax (s : State) (rs : List RouteRec) (m : Nat) : Nat :=
  match routeFor rs m with
  | some r => if s.flag (R.SP_STATUS_PAY4K r.lport) then 16 else 4
  | none => 4

/-- Is a step later than `LAST`, or `LAST` none? -/
def State.afterLast (s : State) (step : Nat) : Bool :=
  let l := s.get R.PRS_LAST_LAST
  l = stepNone || serialLater 48 step l

/-- The `REDUCE` instance of a step that reduces a group. -/
def State.reduceOf (s : State) (step g : Nat) : Option Inst :=
  s.seam.insts.find? fun i => i.rc.kind = 1 && i.step = step && (i.rg g).isSome

/-! ### The reduction chain -/

/-- The end of a line's chain at its owner (spec/10_seam_ports_and_collectives.md R334, R336). -/
def State.endLine (s : State) (i : Inst) (rg : RedGroup) (line n : Nat) (p : List W32) : State :=
  let r := rg.gr
  let s := s.put (r.ownAt r.red line) (wordsBytes p)
  if n < i.rc.quorum then
    if rg.failed then s
    else (s.onRedGroup i.rc.id i.step rg.group fun g => { g with failed := true }).raise Code.SEAM_QUORUM i.unit 0x21
      (seamArg 0 rg.group)
  else
    let s := s.onRedGroup i.rc.id i.step rg.group fun g => { g with ended := g.ended + 1 }
    if rg.ended + 1 = r.ownLines.length then s.redDone rg.group n else s

/-- Lines of a group with their partials at this position: the module adds its own contribution when it is included, and
ends the chains of the lines that it owns; the lines to be sent on. Nothing follows once the instance has retired
(spec/10_seam_ports_and_collectives.md R334). -/
def State.chainLines (s : State) (id step g n : Nat) : List (Nat × List W32) → State × List (Nat × List W32)
  | [] => (s, [])
  | (j, p) :: l =>
    match s.inst id step, s.redGroup id step g with
    | some i, some rg =>
      let r := rg.gr
      let c := if rg.own = .included then s.engCheck [(r.g8At j, lineBytes r.gfmt), (r.g8SclAt j, lineScales r.gfmt)] else (s, true)
      if !c.2 then c.1.chainLines id step g n l
      else
        let q := if rg.own = .included then List.zipWith fadd p (s.g8Line r j) else p
        if r.ownLines.contains j then (c.1.endLine i rg j n q).chainLines id step g n l
        else
          let x := c.1.chainLines id step g n l
          (x.1, (j, q) :: x.2)
    | _, _ => (s, [])

/-- Lines gathered into runs of at most `k` consecutive ones (spec/10_seam_ports_and_collectives.md Table 10.5). -/
def lineRuns (k : Nat) : List (Nat × List W32) → List (Nat × List (List W32))
  | [] => []
  | (j, p) :: l =>
    match lineRuns k l with
    | (b, ps) :: rest => if b = j + 1 && decide (ps.length < k) then (j, p :: ps) :: rest else (j, [p]) :: (b, ps) :: rest
    | [] => [(j, [p])]

/-- The runs cut from the first line on: a run of `n` consecutive lines gives full messages first. -/
def cutRuns (k : Nat) (l : List (Nat × List W32)) : List (Nat × List (List W32)) :=
  (lineRuns l.length l).flatMap fun r =>
    (List.range ((r.2.length + k - 1) / k)).map fun c => (r.1 + k * c, (r.2.drop (k * c)).take k)

/-- Lines of a group taken through this position and sent on (spec/10_seam_ports_and_collectives.md R334). -/
def State.chain1 (s : State) (id step g nin : Nat) (lines : List (Nat × List W32)) : State :=
  match s.inst id step, s.redGroup id step g with
  | some i, some rg =>
    let n := nin + (if rg.own = .included then 1 else 0)
    let x := s.chainLines id step g n lines
    (cutRuns (s.lineMax i.routes i.rc.succ) x.2).foldl (fun s c =>
      if (s.inst id step).isSome then s.sendSucc i 0x21 g n c.1 (c.2.flatMap wordsBytes) else s) x.1
  | _, _ => s

/-- Lines that begin here. -/
def freshLines (l : List Nat) : List (Nat × List W32) := l.map fun j => (j, List.replicate lineElems 0)

/-- The range of the predecessor, once known; the whole group in a ring of one
(spec/10_seam_ports_and_collectives.md R334). -/
def RedGroup.from_ (rg : RedGroup) (p : Nat) : Option (Nat × Nat) :=
  if p = 1 then some (0, rg.gr.nElem) else rg.prev

/-- The partials that wait at this position taken on; the last argument bounds the recursion. -/
def State.chainParts (s : State) (id step g : Nat) : Nat → State
  | 0 => s
  | k + 1 =>
    match s.redGroup id step g with
    | some rg =>
      match rg.parts with
      | p :: l =>
        ((s.onRedGroup id step g fun r => { r with parts := l }).chain1 id step g p.n
          ((List.range p.lines.length).zip p.lines |>.map fun x => (p.line + x.1, x.2))).chainParts id step g k
      | [] => s
    | none => s

/-- A group advanced as far as its inputs allow: the module begins the chains of its predecessor's lines, those of an
excluded upstream's lines, and continues those that have arrived, once its own contribution is decided
(spec/10_seam_ports_and_collectives.md R334, R335). -/
def State.advance (s : State) (id step g : Nat) : State :=
  match s.inst id step, s.redGroup id step g with
  | some i, some rg =>
    match rg.from_ i.rc.p with
    | none => s
    | some (lo, hi) =>
      if rg.own = .undecided then s
      else
        let mine (j : Nat) : Bool := decide (lo ≤ 64 * j) && decide (64 * j < hi)
        let all := List.range (rg.gr.nElem / lineElems)
        let restart := rg.up = .excluded && !rg.restarted
        let s := s.onRedGroup id step g fun r =>
          { r with begun := true, restarted := r.restarted || restart, timer := r.timer && r.up = .undecided }
        let s := if rg.begun then s else s.chain1 id step g 0 (freshLines (all.filter mine))
        let s := if restart then s.chain1 id step g 0 (freshLines (all.filter fun j => !mine j)) else s
        s.chainParts id step g rg.parts.length
  | _, _ => s

/-- The own contribution of every undecided group of an instance excluded, because `SUSPECT` is 1
(spec/10_seam_ports_and_collectives.md R335). -/
def State.excludeOwn (s : State) (id step : Nat) (gs : List Nat) : State :=
  gs.foldl (fun s g =>
    match s.redGroup id step g with
    | some rg =>
      if rg.own = .undecided then
        ((s.onRedGroup id step g fun r => { r with own := .excluded, suspect := true }).lateDrop step).advance id step g
      else s
    | none => s) s

/-- `SUSPECT` set (spec/10_seam_ports_and_collectives.md R339, R340). -/
def State.setSuspect (s : State) : State :=
  let s := s.set R.SEAM_GSTATUS_SUSPECT 1
  (s.seam.insts.filter fun i => i.step = s.stepNo).foldl (fun s i =>
    s.excludeOwn i.rc.id i.step (i.groups.map RedGroup.group)) s

/-- A group whose close has ended (spec/10_seam_ports_and_collectives.md R332, R335). -/
def State.groupClosed (s : State) (g : Nat) : State :=
  match s.reduceOf s.stepNo g with
  | none => s.raise Code.SEAM_COLL_CFG 0xC20 0 (seamArg 0 g)
  | some i =>
    match i.rg g with
    | none => s
    | some rg =>
      if rg.own = .excluded then (if rg.suspect then s else s.lateDrop i.step)
      else
        (s.onRedGroup i.rc.id i.step g fun r =>
          { r with own := .included, timer := decide (1 < i.rc.p) && r.up = .undecided }).advance i.rc.id i.step g

/-- A `PARTIAL` for a live instance (spec/10_seam_ports_and_collectives.md R334, R335). -/
def State.rxPartial (s : State) (i : Inst) (m : SMsg) : State :=
  match i.rg m.group with
  | none => s
  | some rg =>
    if rg.up = .excluded then s.lateDrop i.step
    else
      let k := m.body.length / 256
      let ls := (List.range k).map fun c => bytesWords (slice m.body (256 * c) 256)
      (s.onRedGroup i.rc.id i.step m.group fun r =>
        { r with up := .included, timer := r.own = .undecided, parts := r.parts ++ [⟨m.line, m.n, ls⟩] }).advance
        i.rc.id i.step m.group

/-! ### Ownership -/

/-- The entry of a group in an `OWNER` body: `N_ELEM`, `OWN_LO`, `OWN_HI`. -/
def ownerEntry (b : List Byte) (g : Nat) : Option (Nat × Nat × Nat) :=
  (List.range (b.length / 32)).findSome? fun k =>
    if field b (32 * k) 8 = g then some (field b (32 * k + 8) 8, field b (32 * k + 16) 8, field b (32 * k + 24) 8) else none

/-- Does the predecessor's range fit a group (spec/10_seam_ports_and_collectives.md R333)? -/
def ownerFits (pos : Nat) (r : GRec) (e : Nat × Nat × Nat) : Bool :=
  e.1 = r.nElem && (if pos = 0 then r.ownLo = 0 && e.2.2 = r.nElem else r.ownLo = e.2.2)

/-- An `OWNER` for a live instance (spec/10_seam_ports_and_collectives.md R333). -/
def State.rxOwner (s : State) (i : Inst) (m : SMsg) : State :=
  let bad (rg : RedGroup) : Bool := !(ownerEntry m.body rg.group).any (ownerFits i.rc.pos rg.gr)
  match i.groups.find? bad with
  | some rg => s.raise Code.SEAM_OWN_MISMATCH i.unit 0x20 (seamArg m.src rg.group)
  | none =>
    let s := s.onInst i.rc.id i.step fun i => { i with groups := i.groups.map fun rg =>
      { rg with prev := (ownerEntry m.body rg.group).map fun e => (e.2.1, e.2.2) } }
    (i.groups.map RedGroup.group).foldl (fun s g => s.advance i.rc.id i.step g) s

/-! ### Norm and verdict -/

/-- A message passed on round its ring, unless its originator is the successor
(spec/10_seam_ports_and_collectives.md R338, R339). -/
def State.ringPass (s : State) (i : Inst) (m : SMsg) (orig : Nat) : State :=
  if i.rc.succ = orig || i.rc.succ = s.modId then s else s.sendBy i.routes { m with dst := i.rc.succ }

/-- A completion or done token put on its channel (spec/05_patterns_and_reconfiguration.md R160,
spec/10_seam_ports_and_collectives.md R339). -/
def State.oweDone (s : State) (port dest dq gen : Nat) (b : List Byte) : State :=
  let mine (d : DoneChan) : Bool := d.port = port && d.dest = dest && d.dq = dq && d.gen = gen
  let ds := s.seam.done.map fun d => if mine d then { d with owed := d.owed ++ [b] } else d
  { s with seam := { s.seam with done := ds } }.pumpUnits

/-- The `NORM` instance of a committed step retires with its last `REDUCE` instance
(spec/10_seam_ports_and_collectives.md R332). -/
def State.normRetire (s : State) (step : Nat) : State :=
  if s.returning step then s
  else { s with seam := { s.seam with insts := s.seam.insts.filter fun i => !(i.step = step && i.committed) } }

/-- An instance retired after its return, or when the return is late; the replies that waited for it
(spec/07_training_step_and_press.md R222, spec/10_seam_ports_and_collectives.md R339). -/
def State.retireReturn (s : State) (i : Inst) : State :=
  let s := { s with seam := { s.seam with insts := s.seam.insts.filter fun j => !(j.rc.id = i.rc.id && j.step = i.step) } }
  (s.normRetire i.step).tryReplies

/-- Lines of a group checked so far. -/
def Inst.checkedLines (i : Inst) (g : Nat) : Nat := ((i.ranges.filter fun r => r.group = g).map RetRange.checked).sum

/-- Is the return of an instance complete (spec/10_seam_ports_and_collectives.md R339)? -/
def Inst.returned (i : Inst) : Bool :=
  i.committed && i.groups.all fun rg =>
    let r := rg.gr
    let mine := r.ownLines.length
    (mine = 0 || i.swept.contains rg.group) && decide (r.nElem / lineElems - mine ≤ i.checkedLines rg.group)

/-- The return of an instance ended once it is complete: `RET_STEP`, `RET_DONE`, the done token
(spec/10_seam_ports_and_collectives.md R339). -/
def State.tryReturn (s : State) (id step : Nat) : State :=
  match s.inst id step with
  | some i =>
    if i.rc.kind = 1 && i.returned then
      let s := s.setAll [(R.SEAM_RET_STEP_RET_STEP, i.step), (R.SEAM_GSTATUS_RET_DONE, 1)]
      (s.oweDone i.rc.port i.rc.ddest i.rc.ddq i.gen (leBytes 8 i.step)).retireReturn i
    else s
  | none => s

/-- The confirmed verdict: the step is skipped, or commits (spec/07_training_step_and_press.md R222, R236 to R238). -/
def State.confirm (s : State) (v : Nat) (n2 k : W32) : State :=
  let step := s.stepNo
  let s := s.setAll [(R.PRS_STATUS_VERDICT, v), (R.PRS_NORM_NORM, (fsqrt n2).toNat), (R.PRS_CLIPK_K, k.toNat)]
  let late := s.press.heldFault.getD 0
  if v = 3 then
    let s := (s.set R.PRS_STATUS_PHASE 0).bump R.STEPS_SKIPPED 1
    let s := match s.press.cmd with
      | some (tag, ep) => s.reply tag ep 1 0 (stepResult step 3 late n2 k s.press.lateDrop)
      | none => s
    { s with
      press := s.press.cleared
      seam := { s.seam with insts := s.seam.insts.filter fun i => !(i.step = step) } }
  else
    let s := s.setAll [(R.PRS_LAST_LAST, step), (R.PRS_STATUS_PHASE, 4)]
    let s := s.bump R.STEPS_COMMITTED 1
    let s := if v = 2 then s.bump R.STEPS_CLIPPED 1 else s
    let ins : List Inst := s.seam.insts.map fun i => if i.step = step then { i with committed := true } else i
    let reps : List StepReply := match s.press.cmd with
      | some (tag, ep) => s.press.replies ++ [⟨tag, ep, step, v, n2, k, late, s.press.lateDrop, false⟩]
      | none => s.press.replies
    let s : State := { s with
      press := { s.press with
        cmd := none, replies := reps, n2 := n2, k := k, swept := [], sweptGroups := [], uw := [], heldFault := none
        lateDrop := 0 }
      seam := { s.seam with insts := ins } }
    let ids := (s.seam.insts.filter fun i => i.rc.kind = 1 && i.step = step).map fun i => i.rc.id
    ((ids.foldl (fun s id => s.tryReturn id step) s).normRetire step).afterSweep

/-- The verdicts of an instance compared (spec/10_seam_ports_and_collectives.md R338). -/
def State.verdCheck (s : State) (id step : Nat) : State :=
  match s.inst id step with
  | some i =>
    match i.verdicts with
    | [] => s
    | w :: l =>
      if l.any fun x => (x.v, x.n2, x.k) ≠ (w.v, w.n2, w.k) then
        if i.split then s
        else (s.onInst id step fun i => { i with split := true }).raise Code.SEAM_VERDICT_SPLIT i.unit 0x29 0
      else if i.sentVerdict && decide (i.rc.p ≤ i.verdicts.length) && s.stepOpen && step = s.stepNo then s.confirm w.v w.n2 w.k
      else s
  | none => s

/-- The verdict decided and sent once every partial is held (spec/07_training_step_and_press.md R235, R236,
spec/10_seam_ports_and_collectives.md R338). -/
def State.normCheck (s : State) (id step : Nat) : State :=
  match s.inst id step with
  | some i =>
    if i.sentVerdict || (kvGet? i.partials s.modId).isNone || decide (i.partials.length < i.rc.p) then s
    else
      let n2 := combine (i.partials.map Prod.snd)
      let d := s.decideNorm n2
      let s := s.onInst id step fun i => { i with sentVerdict := true, verdicts := i.verdicts ++ [⟨s.modId, d.1, n2, d.2⟩] }
      let s := s.sendSucc i 0x29 0 0 0
        (leBytes 2 s.modId ++ leBytes 2 d.1 ++ leBytes 4 n2.toNat ++ leBytes 4 d.2.toNat ++ leBytes 4 0)
      s.verdCheck id step
  | none => s

/-- The module's partial norm sent round the `NORM` ring, or decided alone without one
(spec/07_training_step_and_press.md R236, spec/10_seam_ports_and_collectives.md R338). -/
def State.normStart (s : State) (part : W32) : State :=
  match s.normInst s.stepNo with
  | none =>
    let n2 := combine [part]
    let d := s.decideNorm n2
    s.confirm d.1 n2 d.2
  | some i =>
    let s := s.onInst i.rc.id i.step fun i => { i with partials := kvSet i.partials s.modId part }
    let s := s.sendSucc i 0x28 0 0 0 (leBytes 4 part.toNat ++ leBytes 2 s.modId ++ leBytes 2 0 ++ leBytes 8 (s.get R.PRS_LAST_LAST))
    s.normCheck i.rc.id i.step

/-- A `NORM_PART` for a live instance (spec/10_seam_ports_and_collectives.md R338). -/
def State.rxNorm (s : State) (i : Inst) (m : SMsg) : State :=
  let orig := field m.body 4 2
  let s := s.ringPass i m orig
  if field m.body 8 8 ≠ s.get R.PRS_LAST_LAST then s.raise Code.SEAM_STEP_SPLIT i.unit 0x28 (seamArg orig 0)
  else
    (s.onInst i.rc.id i.step fun i => { i with partials := kvSet i.partials orig (BitVec.ofNat 32 (field m.body 0 4)) }).normCheck
      i.rc.id i.step

/-- A `VERDICT` for a live instance (spec/10_seam_ports_and_collectives.md R338). -/
def State.rxVerdict (s : State) (i : Inst) (m : SMsg) : State :=
  let orig := field m.body 0 2
  let v : Verd := ⟨orig, field m.body 2 2, BitVec.ofNat 32 (field m.body 4 4), BitVec.ofNat 32 (field m.body 8 4)⟩
  ((s.ringPass i m orig).onInst i.rc.id i.step fun i =>
    { i with verdicts := (i.verdicts.filter fun w => w.who ≠ orig) ++ [v] }).verdCheck i.rc.id i.step

/-- An `ABANDON` for a live instance: the step is abandoned even after this module's verdict
(spec/10_seam_ports_and_collectives.md R338, Table 10.11). -/
def State.rxAbandon (s : State) (i : Inst) (m : SMsg) : State :=
  let orig := field m.body 0 2
  let s := s.ringPass i m orig
  if !s.stepOpen || i.step ≠ s.stepNo then s
  else
    (s.onInst i.rc.id i.step fun i => { i with sentVerdict := false }).raise Code.SEAM_PEER_ABANDON i.unit 0x2A (seamArg orig 0)

/-! ### Return and digests -/

/-- The digests of a range: `DM` of the master bytes, `DW` of the element and the scale bytes
(spec/10_seam_ports_and_collectives.md R340). -/
def digestOf (masters elems scales : List Byte) : Nat × Nat := (crc64 masters, crc64 (elems ++ scales))

/-- The body of a `DIGEST` (spec/10_seam_ports_and_collectives.md Table 10.5). -/
def digestBody (d : Nat × Nat) (lines status : Nat) : List Byte :=
  leBytes 8 d.1 ++ leBytes 8 d.2 ++ leBytes 8 lines ++ leBytes 8 status

/-- The messages that carry lines of `MASTER` and the digest that follows: first line and body of each, and the digests
(spec/10_seam_ports_and_collectives.md R339, R340). -/
def State.masterMsgs (s : State) (r : GRec) (first count k : Nat) : List (Nat × List Byte) × (Nat × Nat) :=
  let line (j : Nat) : List W32 := s.masterLine r (first + j)
  let cuts := (List.range ((count + k - 1) / k)).map fun c =>
    (first + k * c, (List.range (min k (count - k * c))).flatMap fun j => wordsBytes (line (k * c + j)))
  let ds := (List.range count).map fun j => derive r.wfmt (line j)
  (cuts, digestOf (cuts.flatMap Prod.snd) (ds.flatMap fun d => d.1) (ds.flatMap fun d => d.2.1))

/-- The sweep of an owned group has ended: the owner returns its lines (spec/10_seam_ports_and_collectives.md R339). -/
def State.groupSwept (s : State) (g : Nat) : State :=
  match s.reduceOf s.stepNo g with
  | none => s
  | some i =>
    match i.rg g with
    | none => s
    | some rg =>
      let r := rg.gr
      let s := s.onInst i.rc.id i.step fun i => { i with swept := g :: i.swept }
      let n := r.ownLines.length
      let first := r.ownLo / lineElems
      let c := if i.rc.p = 1 || n = 0 then (s, false) else s.engCheck [(r.ownAt r.master first, 256 * n)]
      let s := c.1
      let s := if !c.2 then s
        else
          let x := s.masterMsgs r first n (s.lineMax i.routes i.rc.succ)
          let s := x.1.foldl (fun s c => s.sendSucc i 0x22 g 0 c.1 c.2) s
          s.sendSucc i 0x23 g 0 first (digestBody x.2 n 0)
      s.tryReturn i.rc.id i.step

/-- The lines of a message passed to their press units, which apply D and write the working copy; the element and scale
bytes written (spec/07_training_step_and_press.md R229, R245, spec/10_seam_ports_and_collectives.md R339). -/
def State.applyLines (s : State) (r : GRec) (line : Nat) : List (List Byte) → State × List Byte × List Byte
  | [] => (s, [], [])
  | b :: l =>
    let d := derive r.wfmt (bytesWords b)
    let x := (s.putWork r line d (s.mcOf (r.workAt line))).applyLines r (line + 1) l
    (x.1, d.1 ++ x.2.1, d.2.1 ++ x.2.2)

/-- The lines of a body. -/
def bodyLines (b : List Byte) : List (List Byte) := (List.range (b.length / 256)).map fun c => slice b (256 * c) 256

/-- What has been received of an owner's range. -/
def Inst.range (i : Inst) (g owner : Nat) : RetRange :=
  (i.ranges.find? fun r => r.group = g && r.owner = owner).getD { group := g, owner := owner }

/-- The instance with a range put back. -/
def Inst.setRange (i : Inst) (r : RetRange) : Inst :=
  { i with ranges := r :: i.ranges.filter fun q => !(q.group = r.group && q.owner = r.owner) }

/-- A `RETURN` for a live instance (spec/10_seam_ports_and_collectives.md R339). -/
def State.rxReturn (s : State) (i : Inst) (m : SMsg) : State :=
  let rr := i.range m.group m.src
  let s := if rr.asked then s else s.ringPass i m m.src
  match i.rg m.group with
  | none => s
  | some rg =>
    let x := s.applyLines rg.gr m.line (bodyLines m.body)
    x.1.onInst i.rc.id i.step fun i => i.setRange
      { rr with masters := rr.masters ++ m.body, elems := rr.elems ++ x.2.1, scales := rr.scales ++ x.2.2 }

/-- A `DIGEST` for a live instance: the range is checked, asked for again on a first mismatch, and counts as checked on a
second (spec/10_seam_ports_and_collectives.md R339, R340). -/
def State.rxDigest (s : State) (i : Inst) (m : SMsg) : State :=
  let rr := i.range m.group m.src
  let s := if rr.asked then s else s.ringPass i m m.src
  if (i.rg m.group).isNone then s
  else
    let n := field m.body 16 8
    let good := digestOf rr.masters rr.elems rr.scales = (field m.body 0 8, field m.body 8 8)
    let put (r : RetRange) (s : State) : State := s.onInst i.rc.id i.step fun i => i.setRange r
    let done : RetRange := { rr with masters := [], elems := [], scales := [], checked := n }
    if good then (put done s).tryReturn i.rc.id i.step
    else if !rr.asked then
      let s := put { rr with masters := [], elems := [], scales := [], asked := true } (s.bump R.DIGEST_MISMATCH 1)
      let s := s.raise Code.SEAM_DIGEST i.unit 0x23 (seamArg m.src m.group)
      s.sendVia i.rc.port i.routes (s.msg 0x24 m.src i.rc.id i.step m.group 0 m.line (leBytes 8 n))
    else
      let s := ((put done s).setSuspect).raise Code.SEAM_SUSPECT i.unit 0x23 (seamArg m.src m.group)
      s.tryReturn i.rc.id i.step

/-! ### Delivery of collective messages -/

/-- A collective message delivered to its live instance (spec/10_seam_ports_and_collectives.md R332). -/
def State.deliverTo (s : State) (i : Inst) (m : SMsg) : State :=
  if i.rc.kind = 1 then
    if m.ty = 0x20 then s.rxOwner i m
    else if m.ty = 0x21 then s.rxPartial i m
    else if m.ty = 0x22 then s.rxReturn i m
    else if m.ty = 0x23 then s.rxDigest i m
    else s
  else if m.ty = 0x28 then s.rxNorm i m
  else if m.ty = 0x29 then s.rxVerdict i m
  else if m.ty = 0x2A then s.rxAbandon i m
  else s

/-- Does a message answer a re-request of an instance: a range that it has asked for again and not checked? The answer
carries `M_STEP` of the owner's group, which may be a later step's (spec/10_seam_ports_and_collectives.md R340). -/
def Inst.awaits (i : Inst) (m : SMsg) : Bool :=
  let r := i.range m.group m.src
  (m.ty = 0x22 || m.ty = 0x23) && i.rc.kind = 1 && i.rc.id = m.kid && r.asked && r.checked = 0

/-- The live instance to which a message belongs: that of its step, unless it answers a re-request of an earlier one and
its own step's range has been checked or no instance of that step is live (spec/10_seam_ports_and_collectives.md R332, R340;
log entry 136). -/
def State.instFor (s : State) (m : SMsg) : Option Inst :=
  if m.kep ≠ m.kstep % 256 then none
  else
    match s.inst m.kid m.kstep, s.seam.insts.find? fun i => i.awaits m with
    | some i, some j => if (i.range m.group m.src).checked = 0 then some i else some j
    | some i, none => some i
    | none, j => j

/-- Is a message for a step later than every live instance and later than `LAST`
(spec/10_seam_ports_and_collectives.md R332)? -/
def State.isFuture (s : State) (m : SMsg) : Bool :=
  (s.seam.insts.all fun i => serialLater 48 m.kstep i.step) && s.afterLast m.kstep

/-- A slot of a port taken or given back, with the PFC frame that this calls for
(spec/10_seam_ports_and_collectives.md R322, R324). -/
def State.setSlots (s : State) (p n : Nat) : State :=
  let x := s.port p
  let en := s.flag (R.SP_CFG_PFC_EN p)
  let freed := 128 - n
  if en && !x.xoff && decide (freed ≤ s.get (R.SP_CFG_PFC_XOFF p)) then
    (s.setPort p { x with slots := n, xoff := true }).emit (.pfc p true)
  else if en && x.xoff && decide (s.get (R.SP_CFG_PFC_XON p) ≤ freed) then
    (s.setPort p { x with slots := n, xoff := false }).emit (.pfc p false)
  else s.setPort p { x with slots := n }

/-- A collective message that arrives: delivered, held for a later step, in the store or in its receive slot, or dropped
(spec/10_seam_ports_and_collectives.md R332). -/
def State.collMsg (s : State) (p : Nat) (m : SMsg) : State :=
  match s.instFor m with
  | some i => s.deliverTo i m
  | none =>
    if s.isFuture m then
      let s := s.bump R.HELD_FUTURE 1
      if (s.seam.future.filter fun f => f.1.isNone).length < 64 then
        { s with seam := { s.seam with future := s.seam.future ++ [(none, m)] } }
      else { s with seam := { s.seam with future := s.seam.future ++ [(some p, m)] } }.setSlots p ((s.port p).slots + 1)
    else s.bump R.STALE_COLL 1

/-- A held message taken up again when a step opens; its receive slot is freed unless it goes on waiting. -/
def State.recoll (s : State) (f : Option Nat × SMsg) : State :=
  if (s.instFor f.2).isNone && s.isFuture f.2 then { s with seam := { s.seam with future := s.seam.future ++ [f] } }
  else
    let s := match f.1 with
      | some p => s.setSlots p ((s.port p).slots - 1)
      | none => s
    match s.instFor f.2 with
    | some i => s.deliverTo i f.2
    | none => s.bump R.STALE_COLL 1

/-! ### Opening -/

/-- An instance as it opens (spec/10_seam_ports_and_collectives.md R332). -/
def State.newInst (s : State) (step : Nat) (c : CollRec) : Inst :=
  { rc := c, routes := (s.seamTabOf c.port).routes, step := step, gen := s.unitGenNow (0xC20 + c.port)
    groups := if c.kind = 1 then
        ((s.groupsWith GRec.reduces).filter fun g => decide (c.glo ≤ g) && decide (g < c.ghi)).map fun g =>
          { group := g, record := s.grp g }
      else [] }

/-- A `REDUCE` instance as it opens: `OWNER` goes to the successor; alone, the module checks its own ranges; `SUSPECT`
excludes its contributions (spec/10_seam_ports_and_collectives.md R333, R335). -/
def State.openReduce (s : State) (i : Inst) : State :=
  let s :=
    if i.rc.p = 1 then
      match i.groups.find? fun rg => !(rg.gr.ownLo = 0 && rg.gr.ownHi = rg.gr.nElem) with
      | some rg => s.raise Code.SEAM_OWN_MISMATCH i.unit 0x20 (seamArg s.modId rg.group)
      | none => s
    else if i.groups.isEmpty then s
    else s.sendSucc i 0x20 0 0 0 (i.groups.flatMap fun rg =>
      let r := rg.gr
      leBytes 8 rg.group ++ leBytes 8 r.nElem ++ leBytes 8 r.ownLo ++ leBytes 8 r.ownHi)
  if s.flag R.SEAM_GSTATUS_SUSPECT then s.excludeOwn i.rc.id i.step (i.groups.map RedGroup.group) else s

/-- The `COLL` records in force, each at its engine (spec/10_seam_ports_and_collectives.md R327). -/
def State.colls (s : State) : List CollRec :=
  (List.range 8).flatMap fun p => (s.seamTabOf p).colls.filter fun c => c.port = p

/-- The instances of a step opened, and the messages held for it delivered in their order
(spec/10_seam_ports_and_collectives.md R332). -/
def State.openInsts (s : State) (step : Nat) : State :=
  let new := s.colls.map (s.newInst step)
  let s := { s with seam := { s.seam with insts := s.seam.insts.filter (fun (i : Inst) => i.step ≠ step) ++ new } }
  let s := (new.filter fun i => i.rc.kind = 1).foldl (fun s i => if s.stepOpen then s.openReduce i else s) s
  let held := s.seam.future
  held.foldl State.recoll { s with seam := { s.seam with future := [] } }

/-! ### Timers -/

/-- `CONTRIB_TIMEOUT`: the input of a group that is still absent is excluded for every line
(spec/10_seam_ports_and_collectives.md R335). -/
def execContribTimeout (group : Nat) (s : State) : Res :=
  match s.seam.insts.find? fun i => (i.rg group).any RedGroup.timer with
  | none => go s
  | some i =>
    match i.rg group with
    | none => go s
    | some rg =>
      if s.safe then go s
      else
        let upComes := rg.prev ≠ some (0, rg.gr.nElem)
        let f (r : RedGroup) : RedGroup :=
          if r.own = .undecided then { r with timer := false, own := .excluded }
          else if upComes then { r with timer := false, up := .excluded }
          else { r with timer := false }
        go ((s.onRedGroup i.rc.id i.step group f).advance i.rc.id i.step group)

/-- `SEAM_RED_DEADLINE`: `RED` and n of an owned group are not delivered in time after the last close
(spec/10_seam_ports_and_collectives.md R337). -/
def execSeamRedDeadline (s : State) : Res :=
  if s.safe || !s.stepOpen then go s
  else go (s.withRecs 0xC66 fun s =>
    let late (rg : RedGroup) : Bool := decide (rg.ended < rg.gr.ownLines.length)
    let due (i : Inst) : Option (Inst × RedGroup) :=
      if i.rc.kind = 1 && i.step = s.stepNo then (i.groups.find? late).map fun rg => (i, rg) else none
    match if s.allClosed then s.seam.insts.findSome? due else none with
    | some x => s.raise Code.SEAM_RED_DEADLINE x.1.unit 0 (seamArg 0 x.2.group)
    | none => s)

/-- `SEAM_RET_DEADLINE`: a return is not complete in time (spec/10_seam_ports_and_collectives.md R339). -/
def execSeamRetDeadline (s : State) : Res :=
  match s.seam.insts.find? fun i => i.rc.kind = 1 && i.committed with
  | some i =>
    if s.safe then go s else go ((s.raise Code.SEAM_RET_DEADLINE i.unit 0 0).setSuspect.retireReturn i)
  | none => go s

end Sys2Proof.Machine
end

