-- ==== Sys2Proof/Machine/SeamPort.lean ====
section
/-! DEFINITION. The seam links: training, negotiation, reliable delivery, flow control, relay, and the collective
messages as they arrive (spec/10_seam_ports_and_collectives.md R313 to R328, R332, R347). -/

namespace Sys2Proof.Machine

/-! ### The link -/

/-- `LINK`: 0 disabled, 1 training, 2 negotiating, 3 up, 4 peer held, 5 holding. -/
def State.link (s : State) (p : Nat) : Nat := s.get (R.SP_STATUS_LINK p)
def State.setLink (s : State) (p v : Nat) : State := s.set (R.SP_STATUS_LINK p) v

/-- The unit of a port. -/
def seamUnit (p : Nat) : Nat := 0xC20 + p

/-- A link's state as negotiation begins: nothing sent, nothing received, no receive slot in use. -/
def State.clearPort (s : State) (p : Nat) : State :=
  let s := { s with seam := { s.seam with future := s.seam.future.filter fun f => f.1 ≠ some p } }
  s.setPort p { pause := (s.port p).pause }

/-- A link taken down: replay store and receive slots discarded, `SEAM_LINK_DOWN` when it was up or peer held and no
commit took it down, and a start again from step 1 (spec/10_seam_ports_and_collectives.md R325). -/
def State.linkDown (s : State) (p : Nat) (quiet : Bool) : State :=
  let was := s.link p
  let s := (s.clearPort p).setLink p (if s.flag (R.SP_CFG_EN p) then 1 else 0)
  if !quiet && (was = 3 || was = 4) then s.raise Code.SEAM_LINK_DOWN (seamUnit p) 0 (s.get (R.SP_STATUS_PEER p)) else s

/-- `LINK_TRAINED`: training ends (spec/10_seam_ports_and_collectives.md R314). -/
def execLinkTrained (p : Nat) (s : State) : Res :=
  if s.safe || decide (8 ≤ p) || s.link p ≠ 1 then go s else go ((s.clearPort p).setLink p 2)

/-- `SEAM_LINK_TRAIN`: training misses its bound and starts again (spec/10_seam_ports_and_collectives.md R314). -/
def execSeamLinkTrain (p : Nat) (s : State) : Res :=
  if s.safe || decide (8 ≤ p) || s.link p ≠ 1 then go s else go (s.raise Code.SEAM_LINK_TRAIN (seamUnit p) 0 0)

/-! ### Negotiation -/

/-- `VMINOR`: minor 0 of major 1, no other major (spec/10_seam_ports_and_collectives.md Table 10.6). -/
def myVminor : List Byte := [0xFF, 0x00] ++ List.replicate 14 0xFF

/-- The link is up once a `NEGOTIATE` with `SEEN` has gone and one has come (spec/10_seam_ports_and_collectives.md R320).
-/
def State.checkUp (s : State) (p : Nat) : State :=
  if (s.port p).sentSeen && (s.port p).peerSeen && s.link p = 2 then s.setLink p 3 else s

/-- The body of `NEGOTIATE` (spec/10_seam_ports_and_collectives.md Table 10.6). -/
def State.negBody (s : State) (p : Nat) : List Byte :=
  let fl := b2n (s.port p).seen + s.get (R.SP_CFG_PAYLOAD p) * 2 + s.get (R.SP_CFG_PFC_EN p) * 4
  leBytes 2 s.modId ++ leBytes 1 p ++ leBytes 1 fl ++ leBytes 4 (s.get R.SEAM_GCFG_INSTALL) ++ myVminor

/-- `NEGOTIATE_TICK`: a negotiating port sends `NEGOTIATE` (spec/10_seam_ports_and_collectives.md R319). Before the peer
is known, `DST` and the port to which the frame goes are free values (log entries 5 and 135). -/
def execNegotiateTick (p : Nat) (s : State) : Res :=
  if s.safe || decide (8 ≤ p) || s.link p ≠ 2 || (s.port p).pause ≠ 0 then go s
  else
    let seen := (s.port p).seen
    let d := s.freeVal 14
    let q := d.2.freeVal 3
    let m := s.linkMsg p 1 0 (s.negBody p)
    let s := if seen then s.frame p m else q.2.frame p (smSigned { m with dst := d.1.toNat, rport := q.1.toNat })
    go ((s.setPort p { s.port p with sentSeen := (s.port p).sentSeen || seen }).checkUp p)

/-- The highest major version that two `VMINOR` fields have in common (spec/10_seam_ports_and_collectives.md R320). -/
def commonMajor (a b : List Byte) : Option Nat :=
  (List.range 16).reverse.find? fun k => a.getD k 0xFF ≠ 0xFF && b.getD k 0xFF ≠ 0xFF

/-- A `NEGOTIATE` received by a negotiating port: the version and the body size settle, or the port refuses
(spec/10_seam_ports_and_collectives.md R319, R320). -/
def State.rxNegotiate (s : State) (p : Nat) (m : SMsg) : State :=
  let peer := field m.body 0 2
  let fl := field m.body 3 1
  let vm := slice m.body 8 16
  let refuse (s : State) : State :=
    if (s.port p).refused then s
    else (s.setPort p { s.port p with refused := true }).raise Code.SEAM_NEG_FAIL (seamUnit p) 1 (seamArg peer 0)
  match commonMajor vm myVminor with
  | none => refuse s
  | some k =>
    if field m.body 4 4 ≠ s.get R.SEAM_GCFG_INSTALL || peer = s.modId || bit fl 2 ≠ s.flag (R.SP_CFG_PFC_EN p) then refuse s
    else
      let s := s.setAll [(R.SP_STATUS_PEER p, peer), (R.SP_STATUS_PEER_PORT p, field m.body 2 1), (R.SP_STATUS_VMAJ p, k),
        (R.SP_STATUS_VMIN p, min (vm.getD k 0).toNat (myVminor.getD k 0).toNat),
        (R.SP_STATUS_PAY4K p, b2n (bit fl 1 && s.flag (R.SP_CFG_PAYLOAD p)))]
      let x := s.port p
      (s.setPort p { x with seen := true, peerSeen := x.peerSeen || bit fl 0, id := s.modId }).checkUp p

/-- `SEAM_NEG_FAIL`: negotiation misses its bound, and the port starts again (spec/10_seam_ports_and_collectives.md R314).
-/
def execSeamNegFail (p : Nat) (s : State) : Res :=
  if s.safe || decide (8 ≤ p) || s.link p ≠ 2 then go s
  else go ((s.raise Code.SEAM_NEG_FAIL (seamUnit p) 1 0).linkDown p true)

/-! ### The form of a message -/

/-- Is a message type one of spec/10_seam_ports_and_collectives.md Table 10.5? -/
def knownType (ty : Nat) : Bool := [0x01, 0x02, 0x03, 0x10, 0x11, 0x12, 0x20, 0x21, 0x22, 0x23, 0x24, 0x28, 0x29, 0x2A, 0x30, 0x31].contains ty

/-- Is a body a run of 1 to `k` pieces of `n` bytes? -/
def runOf (len n k : Nat) : Bool := len % n = 0 && decide (n ≤ len) && decide (len ≤ n * k)

/-- The reserved bits of a gather request payload (spec/10_seam_ports_and_collectives.md Table 10.10). -/
def gatherReserved (b : List Byte) : Bool :=
  bits (field b 0 8) 48 16 ≠ 0 || bits (field b 8 8) 53 11 ≠ 0 || bits (field b 16 8) 62 2 ≠ 0 || bits (field b 24 8) 37 27 ≠ 0

/-- Do the body's length and reserved bits agree with its type; `pay4k` is the body size in force
(spec/10_seam_ports_and_collectives.md R317, Tables 10.5 and 10.6)? -/
def bodyOk (pay4k : Bool) (m : SMsg) : Bool :=
  let n := m.body.length
  let b := m.body
  let lines := if pay4k then 16 else 4
  match m.ty with
  | 0x01 => n = 24 && m.kid = 0 && decide (field b 0 2 < 2 ^ 14) && decide (field b 2 1 < 8) && decide (field b 3 1 < 8)
  | 0x02 => n = 0 && decide (m.kid < 2)
  | 0x03 => n = 4 && m.kid = 0 && decide (field b 2 2 < 2 ^ 14)
  | 0x10 => runOf n 72 (if pay4k then 56 else 14)
  | 0x11 => n = 4
  | 0x12 => n = 0
  | 0x20 => runOf n 32 (if pay4k then 128 else 32)
  | 0x21 => runOf n 256 lines
  | 0x22 => runOf n 256 lines
  | 0x23 => n = 32 && decide (field b 24 8 < 2)
  | 0x24 => n = 8
  | 0x28 => n = 16 && decide (field b 4 2 < 2 ^ 14) && field b 6 2 = 0
  | 0x29 => n = 16 && decide (field b 0 2 < 2 ^ 14) && inRange 1 3 (field b 2 2) && field b 12 4 = 0
  | 0x2A => n = 4 && decide (field b 0 2 < 2 ^ 14)
  | 0x30 => n = 32 && !gatherReserved b
  | 0x31 => runOf n 256 lines
  | _ => false

/-- Is a message malformed (spec/10_seam_ports_and_collectives.md R317)? -/
def State.msgBad (s : State) (p : Nat) (m : SMsg) : Bool :=
  !knownType m.ty || decide (2 ^ 14 ≤ m.src) || decide (2 ^ 14 ≤ m.dst) || decide (2 ^ 24 ≤ m.lseq)
    || decide (2 ^ 24 ≤ m.lack) || !bodyOk (s.flag (R.SP_STATUS_PAY4K p)) m
    || m.ver ≠ (if m.ty = 1 then 0x10 else s.get (R.SP_STATUS_VMAJ p) * 16 + s.get (R.SP_STATUS_VMIN p))

/-! ### Reliable delivery -/

/-- A frame's `LACK` and `FREE` taken: the replay store gives up what is acknowledged, and what waits is sent
(spec/10_seam_ports_and_collectives.md R322). -/
def State.takeLack (s : State) (p : Nat) (m : SMsg) : State :=
  let x := s.port p
  let adv := diff24 m.lack x.lack
  let x := if adv ≠ 0 && decide (adv ≤ x.replay.length) then
      { x with lack := m.lack % 2 ^ 24, replay := x.replay.drop adv, rtx := 0 }
    else x
  (s.setPort p { x with free := m.free }).pumpPort p x.toSend.length

/-- The sequence check of a sequenced frame: whether it is accepted (spec/10_seam_ports_and_collectives.md R321). -/
def State.takeSeq (s : State) (p : Nat) (m : SMsg) : State × Bool :=
  let x := s.port p
  let q := m.lseq % 2 ^ 24
  if q = x.rxSeq then (s.setPort p { x with rxSeq := (x.rxSeq + 1) % 2 ^ 24, naked := false }, true)
  else if serialLater 24 q x.rxSeq then
    (if x.naked then s else (s.setPort p { x with naked := true }).sendAck p true, false)
  else (s.sendAck p false, false)

/-- A message relayed by the route in force for its receiver (spec/10_seam_ports_and_collectives.md R328). -/
def State.relay (s : State) (p : Nat) (m : SMsg) : State := s.sendMsg p m

/-- What follows the sequence check: a message whose check word or form is wrong is discarded, one for another module
relayed; the flag says that the message is for this module (spec/10_seam_ports_and_collectives.md R317, R323, R328). -/
def State.checkMsg (s : State) (p : Nat) (m : SMsg) : State × Bool :=
  if !smCrcOk m then ((s.bump (R.E2E_ERR p) 1).raise Code.SEAM_E2E_CRC (seamUnit p) m.ty (seamArg m.src 0), false)
  else if s.msgBad p m then (s.raise Code.SEAM_MSG_FIELD (seamUnit p) m.ty (seamArg m.src 0), false)
  else if sequenced m.ty && m.dst ≠ s.modId then (s.relay p m, false)
  else (s, true)

/-- A frame addressed to the port received on a link that is up or whose peer is held: whether its message is to be acted on
here (spec/10_seam_ports_and_collectives.md R316, R321, R325). -/
def State.receive (s : State) (p : Nat) (m : SMsg) : State × Bool :=
  if s.safe || decide (8 ≤ p) || !inRange 3 4 (s.link p) then (s, false)
  else
    let s := (s.bump (R.FRAMES_RX p) 1).takeLack p m
    if sequenced m.ty then
      let q := s.takeSeq p m
      if q.2 then q.1.checkMsg p m else (q.1, false)
    else s.checkMsg p m

/-- A message of a type received and acted on. -/
def State.onMsg (s : State) (p : Nat) (m : SMsg) (ty : Nat) (k : State → State) : State :=
  if m.ty ≠ ty then s
  else
    let r := s.receive p m
    if r.2 then k r.1 else r.1

/-- `NEGOTIATE` arrives: a negotiating port settles or refuses; it ends a peer's hold
(spec/10_seam_ports_and_collectives.md R319, R320, R325). -/
def execSeamNegotiate (p : Nat) (m : SMsg) (s : State) : Res :=
  if s.safe || decide (8 ≤ p) || m.ty ≠ 1 || !(inRange 2 4 (s.link p)) then go s
  else
    let c := (s.bump (R.FRAMES_RX p) 1).checkMsg p m
    if !c.2 || s.link p = 3 then go c.1
    else
      let s := if s.link p = 4 then (c.1.clearPort p).setLink p 2 else c.1
      go (s.rxNegotiate p m)

/-- `ACK` arrives (spec/10_seam_ports_and_collectives.md R321, R322). -/
def execAck (p : Nat) (m : SMsg) (s : State) : Res := if m.kid = 1 then go s else go (s.onMsg p m 2 id)

/-- Every frame from `LACK` on sent again, as far as the peer's `FREE` allows (spec/10_seam_ports_and_collectives.md R322). -/
def State.resend (s : State) (p : Nat) : State :=
  let x := s.port p
  let l := x.replay.take x.free
  if x.pause ≠ 0 || l.isEmpty then s
  else
    let s := (s.setPort p { x with rtx := x.rtx + 1 }).bump (R.RETRANSMITS p) l.length
    l.foldl (fun s m => s.frame p m) s

/-- A retransmission, or the end of the link after `RTX_MAX` in a row (spec/10_seam_ports_and_collectives.md R322). -/
def State.retransmit (s : State) (p : Nat) : State :=
  if s.get (R.SP_DL_RTX_MAX p) ≤ (s.port p).rtx then s.linkDown p false else s.resend p

/-- A negative `ACK` arrives: every frame from `LACK` on is sent again (spec/10_seam_ports_and_collectives.md R322). -/
def execNak (p : Nat) (m : SMsg) (s : State) : Res :=
  if m.kid ≠ 1 then go s else go (s.onMsg p m 2 fun s => if (s.port p).replay.isEmpty then s else s.retransmit p)

/-- `HOLD` arrives (spec/10_seam_ports_and_collectives.md R325). -/
def execHold (p : Nat) (m : SMsg) (s : State) : Res :=
  go (s.onMsg p m 3 fun s =>
    ((s.setLink p 4).set (R.SP_PEER_FAULT_PEER_FAULT p) (field m.body 0 2)).raise Code.SEAM_PEER_HOLD (seamUnit p) 3
      (seamArg (field m.body 2 2) 0))

/-- Does a port accept a frame: its destination address is the port's own and its EtherType is `ETYPE`
(spec/10_seam_ports_and_collectives.md R316)? -/
def State.accepts (s : State) (p : Nat) (da : List Byte) (etype : Nat) : Bool :=
  da = s.macAddr p s.modId && etype = s.get (R.SP_CFG_ETYPE p)

/-- `OTHER_FRAME`: a frame with a destination address and an EtherType that the port does not accept is discarded and
counted. The message of one that it accepts has a row of its own (spec/10_seam_ports_and_collectives.md R316). -/
def execOtherFrame (f : AlienFrame) (s : State) : Res :=
  let p := f.port
  if s.safe || decide (8 ≤ p) || !inRange 2 4 (s.link p) || s.accepts p f.da f.etype then go s
  else go (s.bump (R.OTHER_RX p) 1)

/-- A frame that fails its FCS (spec/10_seam_ports_and_collectives.md R321). -/
def execFcsErrorFrame (p : Nat) (s : State) : Res :=
  if s.safe || decide (8 ≤ p) || !inRange 2 4 (s.link p) then go s else go (s.bump (R.FCS_ERR p) 1)

/-- `ACK_INTERVAL`: an `ACK` goes when no frame has (spec/10_seam_ports_and_collectives.md R321). -/
def execAckInterval (p : Nat) (s : State) : Res :=
  if s.safe || decide (8 ≤ p) || !inRange 3 4 (s.link p) || (s.port p).pause ≠ 0 then go s else go (s.sendAck p false)

/-- `RTX_TIMEOUT`: `LACK` has not advanced (spec/10_seam_ports_and_collectives.md R322). -/
def execRtxTimeout (p : Nat) (s : State) : Res :=
  if s.safe || decide (8 ≤ p) || s.link p ≠ 3 || (s.port p).replay.isEmpty then go s else go (s.retransmit p)

/-- A PFC frame (spec/10_seam_ports_and_collectives.md R324); a pause is held in units of 10 ps. -/
def execPfcFrame (p prio quanta : Nat) (s : State) : Res :=
  if s.safe || decide (8 ≤ p) || !inRange 2 4 (s.link p) || !s.flag (R.SP_CFG_PFC_EN p) || prio ≠ s.get (R.SP_CFG_PRIO p) then go s
  else
    let x := s.port p
    go (((s.bump (R.PAUSE_RX p) quanta).setPort p { x with pause := 128 * quanta }).resumePort p)

/-- `PEER_SILENCE`: no frame has come for `PEER_DL` (spec/10_seam_ports_and_collectives.md R325). -/
def execPeerSilence (p : Nat) (s : State) : Res :=
  if s.safe || decide (8 ≤ p) || s.link p ≠ 3 then go s else go (s.linkDown p false)

/-- `PCS_LOSS`: PCS alignment or FEC lock is lost (spec/10_seam_ports_and_collectives.md R314, R325). -/
def execPcsLoss (p : Nat) (s : State) : Res :=
  if s.safe || decide (8 ≤ p) || !inRange 2 4 (s.link p) then go s else go (s.linkDown p false)

/-- `HOLD` sent by a port, with the safe state's fault code and the module's id; not while the port is paused
(spec/10_seam_ports_and_collectives.md R324, R347). -/
def State.sendHold (s : State) (p : Nat) : State :=
  if (s.port p).pause ≠ 0 then s
  else
    s.frame p (s.linkMsg p 3 0 (leBytes 2 ((s.flt.cause.map FltRec.code).getD 0) ++ leBytes 2 s.modId))

/-- `HOLD_TICK`: in the safe state a port that was up sends `HOLD` (spec/10_seam_ports_and_collectives.md R347). -/
def execHoldTick (p : Nat) (s : State) : Res :=
  if !s.safe || decide (8 ≤ p) || s.link p ≠ 5 then go s else go (s.sendHold p)

/-- A message for another module (spec/10_seam_ports_and_collectives.md R328). -/
def execMessageRelay (p : Nat) (m : SMsg) (s : State) : Res :=
  if m.dst = s.modId || !sequenced m.ty then go s else go (s.receive p m).1

/-- A message of a reserved type (spec/10_seam_ports_and_collectives.md R317). -/
def execReservedTypeMessage (p : Nat) (m : SMsg) (s : State) : Res :=
  if knownType m.ty then go s else go (s.receive p m).1

/-! ### Messages of the step collective -/

/-- `OWNER` (spec/10_seam_ports_and_collectives.md R333). -/
def execOwner (p : Nat) (m : SMsg) (s : State) : Res := go (s.onMsg p m 0x20 fun s => s.collMsg p m)

/-- `PARTIAL` (spec/10_seam_ports_and_collectives.md R334, R335). -/
def execPartialMsg (p : Nat) (m : SMsg) (s : State) : Res := go (s.onMsg p m 0x21 fun s => s.collMsg p m)

/-- `NORM_PART` (spec/10_seam_ports_and_collectives.md R338). -/
def execNormPart (p : Nat) (m : SMsg) (s : State) : Res := go (s.onMsg p m 0x28 fun s => s.collMsg p m)

/-- `VERDICT` (spec/10_seam_ports_and_collectives.md R338). -/
def execVerdict (p : Nat) (m : SMsg) (s : State) : Res := go (s.onMsg p m 0x29 fun s => s.collMsg p m)

/-- `ABANDON` (spec/10_seam_ports_and_collectives.md R338). -/
def execAbandon (p : Nat) (m : SMsg) (s : State) : Res := go (s.onMsg p m 0x2A fun s => s.collMsg p m)

end Sys2Proof.Machine
end

