-- ==== Sys2Proof/Machine/Panels.lean ====
section
/-! DEFINITION. Panels, clocks, voltage and power: delivered frequency and voltage, neighbours, the governor, temperature,
rails and references (spec/13_panels_clocks_power.md R413 to R437). Temperatures are in 1/16 °C, powers in mW, voltages in
mV, currents in mA. -/

namespace Sys2Proof.Machine

/-- The unit codes of a panel control and of the power stage (spec/15_faults_and_safe_state.md Table 15.3). -/
def panelUnit (p : Nat) : Nat := 0xC40 + p
def powerUnit : Nat := 0xC64

/-- A panel. -/
def State.panel (s : State) (p : Nat) : Panel := kvGet {} s.pow.panels p

/-- The state with a panel put back. -/
def State.setPanel (s : State) (p : Nat) (x : Panel) : State :=
  { s with pow := { s.pow with panels := kvSet s.pow.panels p x } }

/-- The state with a panel changed. -/
def State.onPanel (s : State) (p : Nat) (f : Panel → Panel) : State := s.setPanel p (f (s.panel p))

/-- The neighbours of a panel: those that share an edge (spec/13_panels_clocks_power.md R420, spec/00_scope.md R20). -/
def nbrs (p : Nat) : List Nat :=
  (List.range 36).filter fun q =>
    (p / 6 = q / 6 && (p = q + 1 || q = p + 1)) || (p % 6 = q % 6 && (p = q + 6 || q = p + 6))

/-! ### Delivered frequency and voltage -/

/-- The neighbour cap: 4 times the least frequency that the neighbours have announced
(spec/13_panels_clocks_power.md R420). -/
def Panel.ncap (x : Panel) : Nat := x.nbAnn.foldl (fun m e => min m (4 * e.2)) 2500

/-- The frequency setting in MHz. -/
def State.fset (s : State) (p : Nat) : Nat := 25 * s.get (R.PNL_CFG_FSET p)

/-- The frequency that a panel is to deliver (spec/13_panels_clocks_power.md R417, R432). -/
def State.fTarget (s : State) (p : Nat) : Nat :=
  let x := s.panel p
  let m := min (min (s.fset p) (s.get R.PWR_STATUS_FCAP)) (min (min x.tcap x.clamp) x.ncap)
  if s.safe then 400 else max 400 (m / 25 * 25)

/-- The voltage that a panel is to deliver, in mV (spec/13_panels_clocks_power.md R417, R432). -/
def State.vTarget (s : State) (p : Nat) : Nat := if s.safe then 600 else 600 + 5 * s.get (R.PNL_CFG_VSET p)

/-- `LIM_P`, `LIM_T`, `LIM_N` and `CLAMP` of a panel (spec/13_panels_clocks_power.md Table 13.8). -/
def State.limits (s : State) (p : Nat) : State :=
  let x := s.panel p
  let f := s.fset p
  let lim (c : Nat) : Nat := b2n (decide (c < f) && decide (max 400 (c / 25 * 25) = s.fTarget p))
  s.setAll [(R.PNL_STATUS_LIM_P p, lim (s.get R.PWR_STATUS_FCAP)), (R.PNL_STATUS_LIM_T p, lim x.tcap),
    (R.PNL_STATUS_LIM_N p, lim x.ncap), (R.PNL_STATUS_CLAMP p, b2n (decide (x.clamp < 2500)))]

/-- A change of a panel started when what it is to deliver differs from what it delivers: a frequency that falls below
625 MHz is announced and waits for the neighbours, except in the safe state (spec/13_panels_clocks_power.md R418, R420,
R432, Table 13.3). -/
def State.adjust (s : State) (p : Nat) : State :=
  let s := s.limits p
  let x := s.panel p
  let f := s.fTarget p
  let v := s.vTarget p
  if s.pow.railsUp < 7 || x.changing || (f = s.get (R.PNL_STATUS_FDEL p) && v = s.get (R.PNL_STATUS_VDEL p)) then s
  else if decide (f < 625) && decide (f < s.get (R.PNL_STATUS_FDEL p)) && !s.safe then
    s.setPanel p { x with changing := true, ftgt := f, vtgt := v, acks := nbrs p, ann := f }
  else s.setPanel p { x with changing := true, ftgt := f, vtgt := v, acks := [] }

/-- Every panel adjusted. -/
def State.adjustAll (s : State) : State := (List.range 36).foldl State.adjust s

/-! ### Commits of the panel blocks -/

/-- The least `VSET` before `VOFS` for a frequency setting in MHz (spec/13_panels_clocks_power.md Table 13.2). -/
def leastVset (f : Nat) : Nat :=
  if f ≤ 1000 then 0 else if f ≤ 1500 then 10 else if f ≤ 1800 then 20 else if f ≤ 2000 then 30
  else if f ≤ 2200 then 40 else 50

/-- The refusal of a panel's staged settings: code and offset (spec/13_panels_clocks_power.md R416, R420). -/
def State.panelBad (s : State) (p : Nat) : Option (Nat × Nat) :=
  let rf := applyStage s.bar s.barStage fun o => o = 0x80000 + 0x400 * p
  let fs := rfGet rf (R.PNL_CFG_FSET p)
  let vs := rfGet rf (R.PNL_CFG_VSET p)
  if fs = 0 then some (Code.PWR_CFG_ZERO, 0)
  else if decide (fs < 16) || decide (100 < fs) || decide (60 < vs)
      || decide (vs < leastVset (25 * fs) + s.get (R.PNL_STATUS_VOFS p)) then some (Code.PWR_VF, 0)
  else if (nbrs p).any fun q =>
      let g := s.get (R.PNL_CFG_FSET q)
      let w := s.get (R.PNL_CFG_VSET q)
      decide (4 * g < fs) || decide (4 * fs < g) || decide (w + 50 < vs) || decide (vs + 50 < w) then
    some (Code.PWR_NB_LIMIT, 0)
  else none

/-- The stage of one panel's block dropped. -/
def State.dropPanelStage (s : State) (p : Nat) : State :=
  { s with barStage := dropStage s.barStage fun o => o = 0x80000 + 0x400 * p }

/-- A panel's staged settings checked and applied (spec/13_panels_clocks_power.md R416, R420,
spec/05_patterns_and_reconfiguration.md R187). -/
def State.applyPanel (s : State) (p : Nat) : State :=
  match s.panelBad p with
  | some f => (s.dropPanelStage p).raise f.1 (panelUnit p) 0 f.2
  | none =>
    let bar := applyStage s.bar s.barStage fun o => o = 0x80000 + 0x400 * p
    ({ s with bar := bar }.dropPanelStage p).adjust p

/-- The held commits applied in order of arrival, as far as the first whose panel is still changing
(spec/13_panels_clocks_power.md R421). -/
def State.drainCommits (s : State) : Nat → State
  | 0 => s
  | n + 1 =>
    match s.pow.commits with
    | p :: l =>
      if (s.panel p).changing then s
      else ({ s with pow := { s.pow with commits := l } }.applyPanel p).drainCommits n
    | [] => s

/-! ### Changes and neighbours -/

/-- `PANEL_CHANGE_END`: the rail and the clock generator deliver the new settings; the new frequency is announced, and
held commits follow (spec/13_panels_clocks_power.md R418, R420, R421). -/
def execPanelChangeEnd (p : Nat) (s : State) : Res :=
  let x := s.panel p
  if x.changing && x.acks.isEmpty then
    let s := s.setPanel p { x with changing := false, ann := x.ftgt }
    let s := s.setAll [(R.PNL_STATUS_FDEL p, x.ftgt), (R.PNL_STATUS_VDEL p, x.vtgt)]
    go ((s.adjust p).drainCommits 36)
  else go s

/-- `NEIGHBOUR_ANNOUNCE`: panel `p` receives the frequency that its neighbour announced; a raise above the new cap ends at
the frequency reached, and the cap is applied (spec/13_panels_clocks_power.md R420, R433). -/
def execNeighbourAnnounce (p from_ f : Nat) (s : State) : Res :=
  if (nbrs p).contains from_ && (s.panel from_).ann = f then
    let s := s.onPanel p fun x => { x with nbAnn := kvSet x.nbAnn from_ f }
    let x := s.panel p
    let s := if x.changing && decide (x.ncap < x.ftgt) && decide (s.get (R.PNL_STATUS_FDEL p) < x.ftgt) then
        s.setPanel p { x with changing := false, acks := [] }
      else s
    go (s.adjust p)
  else go s

/-- `NEIGHBOUR_CAP_ACK`: the acknowledgement of neighbour `q` reaches panel `p`, which lowers its frequency once every
neighbour has acknowledged (spec/13_panels_clocks_power.md R420, Table 13.3 step 3). -/
def execNeighbourCapAck (p q : Nat) (s : State) : Res :=
  let x := s.panel p
  if x.changing && x.acks.contains q && kvGet? (s.panel q).nbAnn p = some x.ann then
    go (s.setPanel p { x with acks := x.acks.erase q })
  else go s

/-- `PWR_CHANGE_DEADLINE`: a bound of Table 13.3 is missed; `SUB` and `ARG` name the panel's clock and what it delivers
(spec/13_panels_clocks_power.md R418, spec/15_faults_and_safe_state.md Table 15.3). -/
def execPwrChangeDeadline (p : Nat) (s : State) : Res :=
  if (s.panel p).changing then
    go (s.raise Code.PWR_CHANGE_DEADLINE (panelUnit p) (96 + p) (s.get (R.PNL_STATUS_FDEL p)))
  else go s

/-! ### The governor -/

/-- `STATE` of `PWR_STATUS` while the rails are up: normal or stretching (spec/13_panels_clocks_power.md Table 13.9). -/
def State.stretchState (s : State) : State :=
  if inRange 2 3 (s.get R.PWR_STATUS_STATE) then
    s.set R.PWR_STATUS_STATE (if s.get R.PWR_STATUS_FCAP < 2500 then 3 else 2)
  else s

/-- The power cap set, and every panel adjusted. -/
def State.setFcap (s : State) (f : Nat) : State :=
  if f = s.get R.PWR_STATUS_FCAP then s else (s.set R.PWR_STATUS_FCAP f).stretchState.adjustAll

/-- `GOVERNOR_SLOW_LOOP`: every 10,000 reference cycles, from the averages and the input readings
(spec/13_panels_clocks_power.md R426, Table 13.9). -/
def execGovernorSlowLoop (p100 p1ms p1s vin iin : Nat) (s : State) : Res :=
  if s.pow.railsUp < 7 then go s
  else
    let s := s.setAll [(R.PWR_STATUS_P_1S, p1s / 1000), (R.PWR_STATUS_P_1MS, p1ms / 1000), (R.PWR_INPUT_VIN, vin / 10),
      (R.PWR_INPUT_IIN, iin / 10)]
    let lim := s.get R.PWR_CFG_P_LIMIT
    let f := s.get R.PWR_STATUS_FCAP
    let fast : Bool := match s.pow.fastAt with
      | some t => decide (s.now < t + 10000)
      | none => false
    if (lim - 4) * 1000 < p100 then go (s.setFcap (max 400 (f - 25)))
    else if decide (p100 < (lim - 16) * 1000) && !fast then go (s.setFcap (min 2500 (f + 25)))
    else go s

/-- `GOVERNOR_FAST_LOOP`: every 1,000 reference cycles (spec/13_panels_clocks_power.md R426). -/
def execGovernorFastLoop (p1ms : Nat) (s : State) : Res :=
  if decide (s.pow.railsUp < 7) || decide (100 * p1ms ≤ 95 * 1000 * s.get R.PWR_CFG_P_PEAK) then go s
  else
    let s := { s with pow := { s.pow with fastAt := some s.now } }
    go (s.setFcap (max 400 (s.get R.PWR_STATUS_FCAP - 100)))

/-- `ENVELOPE_TIMEOUT`: the power cap has been at 400 MHz for 1,000,000 reference cycles and the input power still exceeds
`P_LIMIT` (spec/13_panels_clocks_power.md R427). -/
def execEnvelopeTimeout (p100 : Nat) (s : State) : Res :=
  if s.get R.PWR_STATUS_FCAP = 400 && decide (s.get R.PWR_CFG_P_LIMIT * 1000 < p100) then
    go (s.raise Code.PWR_ENVELOPE powerUnit 134 p100)
  else go s

/-! ### Temperature -/

/-- A reading as `ARG` of a record holds it, in 32 bits. -/
def argOf (v : Int) : Nat := (BitVec.ofInt 32 v).toNat

/-- A trip temperature reached (spec/13_panels_clocks_power.md R430). -/
def State.trip (s : State) (unit sensor : Nat) (v : Int) : State := s.raise Code.PWR_TRIP unit sensor (argOf v)

/-- A panel's own sample: `TEMP`, `HOT` with its record once per episode, and the trip
(spec/13_panels_clocks_power.md R429, R430). -/
def State.panelSample (s : State) (p : Nat) (v : Int) : State :=
  let old := (s.panel p).temp
  let hot := s.flag (R.PNL_STATUS_HOT p)
  let s := (s.onPanel p fun x => { x with temp := v }).set (R.PNL_STATUS_TEMP p) ((BitVec.ofInt 12 v).toNat)
  let s :=
    if decide (105 * 16 ≤ v) && !hot then (s.set (R.PNL_STATUS_HOT p) 1).raise Code.PWR_HOT (panelUnit p) p (argOf v)
    else if decide (v < 102 * 16) && hot then s.set (R.PNL_STATUS_HOT p) 0
    else s
  if decide (115 * 16 ≤ v) && decide (old < 115 * 16) then
    { s with pow := { s.pow with tripped := true } }.trip (panelUnit p) p v
  else s

/-- `THERMAL_SAMPLE`: a panel, an LPDDR5X package or the power stage is sampled; a power-stage trip removes every rail
(spec/13_panels_clocks_power.md R429, R430). -/
def execThermalSample (src : TSens) (temp : Int) (s : State) : Res :=
  if s.pow.railsUp < 7 then go s
  else
    match src with
    | .panel p => if p < 36 then go (s.panelSample p temp) else go s
    | .package n =>
      if n < 24 then
        let old := kvGet 0 s.pow.pkg n
        let s := { s with pow := { s.pow with pkg := kvSet s.pow.pkg n temp } }
        if decide (105 * 16 ≤ temp) && decide (old < 105 * 16) then go (s.trip powerUnit (36 + n) temp) else go s
      else go s
    | .stage =>
      let old := s.pow.stage
      let s := { s with pow := { s.pow with stage := temp } }
      if decide (125 * 16 ≤ temp) && decide (old < 125 * 16) then go ((s.trip powerUnit 138 temp).removeRails) else go s

/-- `THERMAL_CAP_STEP`: a panel's thermal cap moves by 25 MHz (spec/13_panels_clocks_power.md R429). -/
def execThermalCapStep (p : Nat) (s : State) : Res :=
  let x := s.panel p
  let t : Int := s.get R.PWR_CFG_T_THROTTLE * 16
  if decide (36 ≤ p) then go s
  else if t ≤ x.temp then go ((s.setPanel p { x with tcap := max 400 (x.tcap - 25) }).adjust p)
  else if x.temp ≤ t - 48 then go ((s.setPanel p { x with tcap := min 2500 (x.tcap + 25) }).adjust p)
  else go s

/-- `TRIP_PERSIST_TIMEOUT`: 10,000,000 reference cycles after a panel trip a panel is still at or above 115 °C; VDIE is
removed (spec/13_panels_clocks_power.md R430). -/
def execTripPersistTimeout (s : State) : Res :=
  if s.pow.tripped && (List.range 36).any fun p => decide (115 * 16 ≤ (s.panel p).temp) then
    go ({ s with pow := { s.pow with railsUp := min s.pow.railsUp 6, tripped := false } }.set R.PWR_STATUS_STATE 5)
  else go { s with pow := { s.pow with tripped := false } }

/-- `NB_TEMP_DEADLINE`: two neighbours have differed by more than 30 °C for `NB_DL`
(spec/13_panels_clocks_power.md R422). -/
def execNbTempDeadline (p q : Nat) (s : State) : Res :=
  let d := (s.panel p).temp - (s.panel q).temp
  if (nbrs p).contains q && decide (480 < d) then
    go (s.raise Code.PWR_NEIGHBOUR (panelUnit p) p (argOf (s.panel p).temp))
  else go s

/-! ### Rails, input and references -/

/-- `DROOP`: a panel's rail falls 25 mV below its setting (spec/13_panels_clocks_power.md R419). -/
def execDroop (p : Nat) (s : State) : Res :=
  if decide (36 ≤ p) || (s.panel p).droop then go s
  else go ((s.onPanel p fun x => { x with droop := true }).bump R.DROOPS 1)

/-- `DROOP_END`: the rail has been within 10 mV of the setting for 64 panel cycles
(spec/13_panels_clocks_power.md R419). -/
def execDroopEnd (p : Nat) (s : State) : Res :=
  if (s.panel p).droop then go (s.onPanel p fun x => { x with droop := false }) else go s

/-- A fault of a rail: a panel's names its sensor; the reading, and the sensor of a rail that Table 12.8 does not list, are
free values (log entry 5). A rail of LPDDR5X or VSELV makes every controller unsound
(spec/15_faults_and_safe_state.md R471, Table 15.3). -/
def State.railFault (s : State) (r : Rail) : State :=
  let v := s.freeVal 32
  match r with
  | .panel p => v.2.raise Code.PWR_RAIL (panelUnit p) (60 + p) v.1.toNat
  | .module k =>
    let sub := v.2.freeVal 16
    let n := if k = 1 then 135 else sub.1.toNat
    let s := if inRange 2 5 k then { sub.2 with mem := { sub.2.mem with unsound := List.range 24 } } else sub.2
    s.raise Code.PWR_RAIL powerUnit n v.1.toNat

/-- `RAIL_OUT_OF_TOLERANCE`: a rail stays outside ±5 % for 10,000 reference cycles (spec/13_panels_clocks_power.md R419,
R424). -/
def execRailOutOfTolerance (r : Rail) (s : State) : Res :=
  let up : Bool := match r with
    | .panel p => decide (p < 36) && decide (7 ≤ s.pow.railsUp)
    | .module k => inRange 1 7 k && decide (k ≤ s.pow.railsUp)
  if up then go (s.railFault r) else go s

/-- `INPUT_OUT_OF_RANGE`: the 50 V input has stayed outside 44 V to 56 V for 100,000 reference cycles
(spec/13_panels_clocks_power.md R423). -/
def execInputOutOfRange (mv : Nat) (s : State) : Res :=
  if s.pins.input50 && !inRange 44000 56000 mv then go (s.raise Code.PWR_INPUT powerUnit 132 mv) else go s

/-- `INPUT_COLLAPSE`: the input falls below 40 V or rises above 60 V, and every rail is removed; the event that Thimble logs
is recorded as `PWR_INPUT` (spec/13_panels_clocks_power.md R423; log entry 18). -/
def execInputCollapse (mv : Nat) (s : State) : Res :=
  if s.pins.input50 && !inRange 40000 60000 mv then
    go ((s.raise Code.PWR_INPUT powerUnit 132 mv).lose50)
  else go s

/-- A fault of a reference, whose `SUB` and `ARG` no sensor gives: free values (log entry 5). -/
def State.clockFault (s : State) : State :=
  let a := s.freeVal 16
  let b := a.2.freeVal 32
  b.2.raise Code.PWR_CLOCK powerUnit a.1.toNat b.1.toNat

/-- `REF_CLOCK_LOSS`: the CXL reference is lost while CLK_MODE selects it, and the oscillator takes over
(spec/13_panels_clocks_power.md R415). -/
def execRefClockLoss (s : State) : Res :=
  if s.get R.RST_STRAPS_CLK_MODE % 2 = 0 && !s.pow.onOsc then
    go { s with pow := { s.pow with onOsc := true } }.clockFault
  else go s

/-- `OSCILLATOR_FAIL`: the seam ports go down, and `PWR_CLOCK` is raised (spec/13_panels_clocks_power.md R414, R415). -/
def execOscillatorFail (s : State) : Res :=
  if s.pow.oscBad then go s
  else
    let s := { s with pow := { s.pow with oscBad := true } }
    let s := (List.range 8).foldl (fun s p => if s.link p = 0 then s else s.linkDown p false) s
    go s.clockFault

/-! ### Power-up -/

/-- Every panel at 0.75 V and 400 MHz, then at its settings (spec/13_panels_clocks_power.md Table 13.5 steps 9 and 10). -/
def State.panelsUp (s : State) : State :=
  (List.range 36).foldl (fun s p =>
    let f := s.fTarget p
    let s := s.setAll [(R.PNL_STATUS_FDEL p, f), (R.PNL_STATUS_VDEL p, s.vTarget p)]
    s.onPanel p fun x => { x with ann := f, changing := false, acks := [] }) s

/-- `POWER_UP_DEADLINE`: a bound of Table 13.5 is missed (spec/13_panels_clocks_power.md R424). -/
def execPowerUpDeadline (r : Rail) (s : State) : Res :=
  if s.get R.PWR_STATUS_STATE = 1 then go (s.railFault r) else go s

end Sys2Proof.Machine
end

