-- ==== Sys2Proof/Machine/Startup.lean ====
section
/-! DEFINITION. Reset, start-up and the warm reset: option bytes and straps, release of the domains, repairs
(spec/14_reset_bringup_selftest.md R438 to R460). -/

namespace Sys2Proof.Machine

/-- The unit of the identity and global control block, and that of Thimble (spec/15_faults_and_safe_state.md
Table 15.3). -/
def globalUnit : Nat := 0xC65
def thUnit : Nat := 0xC33

/-- A fault of reset and global control. -/
def State.rstFault (s : State) (code arg : Nat) : State := s.raise code globalUnit 0 arg

/-! ### Option bytes and straps -/

/-- The option bytes that the flash holds. -/
def State.optBytes (s : State) : List Byte :=
  match s.th.optFlash with
  | some l => l
  | none => (List.range 128).map Config.optionByte

/-- The offset of the first header field of an option-byte image that is wrong
(spec/14_reset_bringup_selftest.md R448, R450). -/
def optHeaderBad (o : List Byte) : Option Nat :=
  if field o 0 4 ≠ 0x54504F4C then some 0
  else if field o 4 2 ≠ 1 then some 4
  else if field o 6 2 ≠ 128 then some 6
  else if field o 0x7C 4 ≠ crc32 (slice o 0 0x7C) then some 0x7C
  else none

/-- Is a lane order a permutation of the four lanes (spec/14_reset_bringup_selftest.md Table 14.7)? -/
def laneOrder (b : Nat) : Bool := (List.range 4).all fun l => (List.range 4).any fun k => bits b (2 * k) 2 = l

/-- Is a field of the image reserved or illegal: offset, and whether it is (spec/14_reset_bringup_selftest.md R450)? -/
def optFieldBad (o : List Byte) : List (Nat × Bool) :=
  [(0x08, decide (4 ≤ field o 0x08 1)), (0x09, decide (4 ≤ field o 0x09 1)), (0x0A, decide (1 < field o 0x0A 1)),
    (0x0B, decide (128 ≤ field o 0x0B 1))]
  ++ (List.range 8).map fun p => (0x0C + 4 * p, !laneOrder (field o (0x0C + 4 * p) 1) || !laneOrder (field o (0x0D + 4 * p) 1))

/-- The option bytes with nothing chosen: the defaults (spec/14_reset_bringup_selftest.md R450). -/
def optDefaults : List Byte :=
  leBytes 4 0x54504F4C ++ leBytes 2 1 ++ leBytes 2 128 ++ [0x03, 0, 0, 0x4E]
    ++ (List.range 8).flatMap (fun _ => [0xE4, 0xE4, 0, 0]) ++ List.replicate 84 0

/-- Bytes of an image replaced. -/
def putBytes (o : List Byte) (off : Nat) (b : List Byte) : List Byte := o.take off ++ b ++ o.drop (off + b.length)

/-- The image in force: the bad fields at their defaults; of a lane map only the lane orders
(spec/14_reset_bringup_selftest.md R450). -/
def optFixed (o : List Byte) : List Byte :=
  (optFieldBad o).foldl (fun r x =>
    if x.2 then putBytes r x.1 (if 0x0C ≤ x.1 then [0xE4, 0xE4] else slice optDefaults x.1 1) else r) o

/-- The option bytes put in force, the fuses applied (spec/14_reset_bringup_selftest.md R449, R450, Table 14.13). -/
def State.applyOptions (s : State) (o : List Byte) (default_ : Bool) : State :=
  let t := s.th
  let pol := field o 8 1
  let lock := if t.sealed then 0 else field o 9 1
  let pcie : Bool := field o 0xA 1 = 1
  let auto := t.policyLock || bit pol 0
  let auth := t.policyLock || bit pol 1
  let s := s.setAll [(R.RST_OPT_OPT_DEFAULT, b2n default_), (R.RST_OPT_POLICY_LOCK, b2n t.policyLock),
    (R.RST_OPT_SEAL, b2n t.sealed), (R.RST_OPT_KEY_INDEX, t.keyIndex), (R.RST_OPT_DEBUG_LOCK, lock),
    (R.RST_OPT_PCIE_ONLY, b2n pcie), (R.RST_OPT_UPDATE_AUTH, b2n auth), (R.RST_OPT_AUTO_ADVANCE, b2n auto)]
  { s with th := { s.th with
      debugLock := lock, pcieOnly := pcie, smbAddr := field o 0xB 1, seamMap := slice o 0xC 32, ownerKey := slice o 0x40 32 } }

/-- The loader's work at an aux reset (spec/14_reset_bringup_selftest.md R450). -/
def State.loadOptions (s : State) : State :=
  let o := s.optBytes
  match optHeaderBad o with
  | some off => (s.applyOptions optDefaults true).rstFault Code.RST_OPTION_CRC off
  | none =>
    let bad := (optFieldBad o).filter fun x => x.2
    bad.foldl (fun s x => s.rstFault Code.RST_OPTION_FIELD x.1) (s.applyOptions (optFixed o) (!bad.isEmpty))

/-- The boot that the straps sampled select: 0 flash, 1 sideband recovery, 2 manufacturing test
(spec/14_reset_bringup_selftest.md Table 14.6). -/
def State.bootSrc (s : State) : Nat :=
  match s.get R.RST_STRAPS_BOOT_SRC with
  | 0 => 0
  | 1 => 1
  | 2 => if s.th.debugLock = 2 then 2 else 1
  | _ => 1

/-- The straps sampled at the release of the always-on domain (spec/14_reset_bringup_selftest.md R447, Table 14.6). -/
def State.sampleStraps (s : State) : State :=
  let s := s.setAll [(R.RST_STRAPS_BOOT_SRC, s.pins.bootSrc), (R.RST_STRAPS_CLK_MODE, s.pins.clkMode)]
  if decide (2 ≤ s.pins.bootSrc) && s.bootSrc = 1 then s.rstFault Code.RST_STRAP 0 else s

/-! ### Records of resets -/

/-- A reset source counted (spec/14_reset_bringup_selftest.md R439). -/
def State.countReset (s : State) (k : Nat) : State :=
  s.set (R.RST_CNT_COUNT k) (min (2 ^ 32 - 1) (s.get (R.RST_CNT_COUNT k) + 1))

/-- `RST_LAST` written: the kind, the source, and the cause of the safe state that the reset leaves
(spec/14_reset_bringup_selftest.md Table 14.13, spec/15_faults_and_safe_state.md R472). -/
def State.noteReset (s : State) (kind cause : Nat) : State :=
  let code := if s.safe then (s.flt.cause.map FltRec.code).getD 0 else 0
  s.setAll [(R.RST_LAST_FAULT, code), (R.RST_LAST_SAFE, b2n s.safe), (R.RST_LAST_KIND, kind), (R.RST_LAST_CAUSE, cause)]

/-! ### Repairs -/

/-- Spare rows of an SRAM: of a scratchpad bank, of a tile's queue storage, of a lining group
(spec/14_reset_bringup_selftest.md R456). -/
def spareRows (kind : Nat) : Nat := if kind = 2 then 2 else if kind = 3 then 1 else if kind = 6 then 4 else 0

/-- The SRAM that a record names: kind, unit, bank or group; queue storage is one per tile. -/
def sramPlace (r : RepRec) : Nat × Nat × Nat := (r.kind, r.unit, if r.kind = 3 then 0 else bits r.loc 28 4)

/-- The records of SRAM rows take their spare rows, in order; one that finds none is marked. An accumulator and an
instruction memory have spare rows as a free value says, since the spec names none for them
(spec/14_reset_bringup_selftest.md R456; log entry 20). -/
def State.repairSram (s : State) : List RepRec → List (Nat × Nat × Nat) → State
  | [], _ => s
  | r :: l, used =>
    if inRange 2 6 r.kind then
      let free := s.freeVal 1
      let ok : Bool := if r.kind = 4 || r.kind = 5 then free.1 = 1
        else decide ((used.filter fun u => u = sramPlace r).length < spareRows r.kind)
      let s := if r.kind = 4 || r.kind = 5 then free.2 else s
      let q : RepRec := { r with state := if ok then 2 else 3 }
      let s := { s with
        th := { s.th with repairs := s.th.repairs.map fun x => if x = r then q else x }
        rst := { s.rst with repairFail := s.rst.repairFail || !ok } }
      s.repairSram l (if ok then (sramPlace r) :: used else used)
    else s.repairSram l used

/-- The SRAM repairs of a start or a warm reset. -/
def State.applySram (s : State) : State :=
  { s with rst := { s.rst with repairFail := false } }.repairSram s.th.repairs []

/-- The module channel, bank and row of an LPDDR5X record (spec/14_reset_bringup_selftest.md Table 14.11). -/
def rowPlace (r : RepRec) : RowCount := ⟨4 * r.unit + bits r.loc 30 2, bits r.loc 26 4, bits r.loc 8 18, 0⟩

/-- The LPDDR5X rows of the records repaired in order: hard repair while the bank has a spare row, which a free value
says, at most one row a channel; any other row takes a remap entry while one is left
(spec/08_memory_system.md R269, spec/14_reset_bringup_selftest.md R454; log entry 20). -/
def State.repairRows (s : State) : List RepRec → List Nat → State
  | [], _ => s
  | r :: l, used =>
    if r.kind = 1 && decide (r.unit < 24) then
      let x := rowPlace r
      let free := s.freeVal 1
      let hard : Bool := !used.contains x.chan && free.1 = 1
      let s := free.2
      if hard then
        { s with th := { s.th with repairs := s.th.repairs.erase r } }.repairRows l (x.chan :: used)
      else
        let left := s.get (R.MC_STATUS_REMAP_FREE r.unit)
        let s :=
          if left = 0 then s
          else
            let q : RepRec := { r with state := 1 }
            { s with
              mem := { s.mem with remaps := s.mem.remaps ++ [x] }
              th := { s.th with repairs := s.th.repairs.map fun y => if y = r then q else y }
            }.set (R.MC_STATUS_REMAP_FREE r.unit) (left - 1)
        s.repairRows l used
    else s.repairRows l used

/-! ### Starting -/

/-- Steps 6 and 10 of a start, once the rails are up and Thimble has booted: orders 2 to 4 are released, the CXL link
unless PERST# is asserted; with the firmware running, orders 5 to 7 follow. In ROM recovery the port answers
configuration requests, and nothing else is started (spec/14_reset_bringup_selftest.md Table 14.8, R442,
spec/12_thimble_management_security.md R389; log entry 21). -/
def State.releaseOrders (s : State) : State :=
  if !s.rst.railsOk || s.rst.released || s.get R.TH_STATUS_BOOT = 0 then s
  else
    let s := { s with
      rst := { s.rst with released := true }
      cxl := { s.cxl with released := !s.cxl.perst } }
    if s.rst.fwRunning then
      let s := s.applySram
      { s with rst := { s.rst with fabricOk := true } }.set R.GC_STATE_FABRIC_READY 1
    else s

/-- A start begins once both supplies are valid and SYS_RST_N is released: the rails come up
(spec/14_reset_bringup_selftest.md R452, spec/16_module_connections.md Table 16.7). -/
def State.beginStart (s : State) : State :=
  if s.pins.vaux && s.pins.input50 && !s.pins.sysRst then
    let seq : SeqKind := if s.get R.TH_STATUS_BOOT = 2 then .none else .start
    { s with rst := { s.rst with seq := seq } }.set R.PWR_STATUS_STATE 1
  else s

/-- The reset control and the rails as a reset that takes the power stage leaves them. -/
def State.clearSeq (s : State) : State :=
  { s with rst := { fwRunning := s.rst.fwRunning }, pow := { s.pow with railsUp := 0 } }

/-- What a cold reset does, its source counted and noted (spec/14_reset_bringup_selftest.md R438, R452). -/
def State.coldReset (s : State) : State :=
  let s := (s.clearCold false).clearSeq.set R.RST_STRAPS_CLK_MODE s.pins.clkMode
  let s := if s.get R.TH_STATUS_BOOT = 2 then s.set R.GC_STATE_STATE 3 else s
  s.beginStart

/-- A cold source observed (spec/14_reset_bringup_selftest.md R439). -/
def State.coldSource (s : State) (cause : Nat) : State := ((s.endTest.countReset cause).noteReset 1 cause).coldReset

/-- Thimble as an aux reset leaves it: flash, fuses and the next log number stay
(spec/14_reset_bringup_selftest.md Table 14.1). -/
def Thimble.afterAux (t : Thimble) : Thimble :=
  { flash := t.flash, flashLen := t.flashLen, imgInvalid := t.imgInvalid, optFlash := t.optFlash, rollback := t.rollback
    revoked := t.revoked, keyIndex := t.keyIndex, sealed := t.sealed, policyLock := t.policyLock, advanced := t.advanced
    log := t.log, nextLseq := t.nextLseq, repairs := t.repairs, trained := t.trained }

/-- An aux source observed: everything is cleared but the backup domain, option bytes are loaded, straps are sampled, and a
start begins (spec/14_reset_bringup_selftest.md R438, R439, Table 14.8 steps 1 and 2). -/
def State.auxSource (s : State) (cause : Nat) : State :=
  let s := ((s.endTest.countReset cause).noteReset 0 cause).clearCold true
  let s : State := { s with
    th := s.th.afterAux, now := 0, cxl := { s.cxl with perstAt := 0 }, pow := { s.pow with fastAt := none }, rst := {} }
  s.clearSeq.loadOptions.sampleStraps.beginStart

/-! ### The warm reset -/

/-- Is a warm reset carried out as a cold one (spec/14_reset_bringup_selftest.md R441)? -/
def State.escalates (s : State) : Bool :=
  s.get R.PWR_STATUS_STATE = 5 ||
    (s.safe &&
      match s.flt.cause with
      | some r => [Code.MEM_UE_S, Code.MEM_CH_FAIL, Code.MEM_PD_WRITEBACK, Code.TH_WDOG_REPEAT].contains r.code
          || (r.code / 256 = 0x0D && classOf r.code = .moduleFatal)
      | none => false)

/-- Every block to which an idle request goes (spec/14_reset_bringup_selftest.md Table 14.4). -/
def allBlks : List Blk := [.tape, .press, .bobbins, .seam, .cxl, .loader, .unpick]

/-- A warm source observed: counted; a reset of its own only while the rails are up and no sequence runs
(spec/14_reset_bringup_selftest.md R439, R441, R446, Table 14.12). -/
def State.warmSource (s : State) (cause : Nat) (flr : Bool) : State :=
  let s := s.countReset cause
  if s.rst.seq ≠ .none || s.pow.railsUp = 0 then s
  else if s.escalates then (((s.rstFault Code.RST_ESCALATED 0).countReset 7).noteReset 1 7).coldReset
  else if s.get R.TH_STATUS_BOOT = 2 then
    let s := ((s.noteReset 2 cause).clearWarm flr).set R.GC_STATE_STATE 3
    if flr then s else { s with cxl := { s.cxl with released := !s.cxl.perst } }
  else
    { s.noteReset 2 cause with rst := { s.rst with seq := .warm flr, busy := allBlks } }.set R.GC_STATE_STATE 0

/-- Reset is asserted in every domain that the warm reset clears, and the domains are released; the panels move to their
reset settings (spec/14_reset_bringup_selftest.md Table 14.5 steps 3 to 5, spec/13_panels_clocks_power.md R437). -/
def State.warmAssert (s : State) (flr : Bool) : State :=
  let s := s.clearWarm flr
  let s := if flr then s else { s with cxl := { s.cxl with released := !s.cxl.perst } }
  let s := if s.get R.PWR_STATUS_STATE = 4 then (s.set R.PWR_STATUS_STATE 2).stretchState else s
  let s := s.applySram.adjustAll
  { s with rst := { s.rst with fabricOk := true } }.set R.GC_STATE_FABRIC_READY 1

/-- The bobbin requests that wait, and a tile that has one. -/
def State.bobBusy (s : State) : Option Nat :=
  (s.tiles.find? fun e => !e.2.bob0.reqs.isEmpty || !e.2.bob1.reqs.isEmpty).map Prod.fst

/-- May a block report idle, as far as the state shows (spec/14_reset_bringup_selftest.md Table 14.4)? -/
def State.canIdle (s : State) (b : Blk) : Bool :=
  match b with
  | .bobbins => s.bobBusy.isNone
  | .cxl => s.cxl.reqs.isEmpty
  | _ => true

/-- The unit code of a block in a record (spec/15_faults_and_safe_state.md Table 15.3). -/
def State.blkUnit (s : State) (b : Blk) : Nat :=
  match b with
  | .tape => 0xC34
  | .press => 0xC66
  | .bobbins => s.bobBusy.getD 0
  | .seam => 0xC20 + ((List.range 8).find? fun p => s.get (R.SP_STATUS_LINK p) ≠ 0).getD 0
  | .cxl => 0xC30
  | .loader => 0xC31
  | .unpick => 0xC32

/-- A block idle or forced; when none is left the reset is asserted (spec/14_reset_bringup_selftest.md R443, Table 14.5
steps 2 and 3). -/
def State.idleBlk (s : State) (b : Blk) : State :=
  match s.rst.seq with
  | .warm flr =>
    if s.rst.busy.contains b then
      let l := s.rst.busy.erase b
      let s := { s with rst := { s.rst with busy := l } }
      if l.isEmpty then s.warmAssert flr else s
    else s
  | _ => s

end Sys2Proof.Machine
end

