-- ==== Sys2Proof/Machine/HostPort.lean ====
section
/-! DEFINITION. The CXL port: link mode, configuration space, HDM decoders, snoops, host bias, and the answers to requests
to host memory (spec/11_host_interface_and_command_tape.md R349 to R358, spec/14_reset_bringup_selftest.md R442, R455). -/

namespace Sys2Proof.Machine

/-! ### Link -/

/-- May the link train at a speed, 1 for 2.5 GT/s to 5 for 32 GT/s, and in a width: at most x16 at 32 GT/s, and what PCIe 5.0
permits below (spec/11_host_interface_and_command_tape.md Table 11.1; log entry 16)? -/
def linkTrains (speed width : Nat) : Bool := inRange 1 5 speed && [1, 2, 4, 8, 12, 16].contains width

/-- `LINK_MODE_SETTLE`: the link first trains after PERST#; `cxl` says that Flex Bus negotiation settled CXL.io, CXL.cache
and CXL.mem (spec/11_host_interface_and_command_tape.md R349, R350). -/
def execLinkModeSettle (cxl : Bool) (speed width : Nat) (s : State) : Res :=
  if s.cxl.perst || !s.cxl.released || s.cxl.mode ≠ 0 || !linkTrains speed width then go s
  else
    let mode := if cxl && !s.th.pcieOnly then 1 else 2
    go { s with cxl := { s.cxl with mode := mode, speed := speed, width := width, linkUp := true } }

/-- `CXL_LINK_UP`: the link trains again, in the mode settled (spec/14_reset_bringup_selftest.md R442,
spec/11_host_interface_and_command_tape.md R350). -/
def execCxlLinkUp (s : State) : Res :=
  if s.cxl.perst || !s.cxl.released || s.cxl.mode = 0 then go s
  else go { s with cxl := { s.cxl with linkUp := true } }

/-! ### Configuration space -/

/-- Fields of configuration space that the spec gives, by dword offset; the places of capability fields are those of
PCIe 5.0 and CXL 2.0 (spec/11_host_interface_and_command_tape.md Tables 11.2 to 11.4; log entry 16). -/
def State.cfgDword (s : State) (off : Nat) : Option Nat :=
  let w := kvGet 0 s.cxl.cfg off
  if off = 0x00 then some (Config.vendorId.toNat + 0x2304 * 0x10000)
  else if off = 0x04 then some (Nat.land w 0x0546 + 0x100000)
  else if off = 0x08 then some (0xA1 + 0x120000 * 0x100)
  else if off = 0x10 then some (w / 0x100000 * 0x100000 + 0x4)
  else if off = 0x14 then some w
  else if off = 0x18 then some (if s.cxl.mode = 2 then w / 0x10000000 * 0x10000000 + 0xC else 0)
  else if off = 0x1C then some (if s.cxl.mode = 2 then w else 0)
  else if off = 0x20 then some (w / 0x10000 * 0x10000 + 0x4)
  else if off = 0x24 then some w
  else if off = 0x2C then some (Config.vendorId.toNat + 0x2304 * 0x10000)
  else if off = 0x34 then some 0x40
  else if off = 0x50 then
    some (0x11 + 0x70 * 0x100 + 7 * 0x10000 + b2n s.cxl.msixFuncMask * 2 ^ 30 + b2n s.cxl.msixEnable * 2 ^ 31)
  else if off = 0x54 then some 0x2000
  else if off = 0x58 then some 0x3000
  else none

/-- A write of the MSI-X control word: the enable and the function mask; vectors that were pending and are masked no
longer are sent (spec/11_host_interface_and_command_tape.md R376). -/
def State.msixControl (s : State) (v : Nat) : State :=
  let s := { s with cxl := { s.cxl with msixFuncMask := bit v 30, msixEnable := bit v 31 } }
  (List.range 8).foldl (fun s k =>
    if s.cxl.msixEnable && !s.cxl.msixFuncMask && !s.tape.msixMask.getD k true && s.tape.msixPend.getD k false then
      ({ s with tape := { s.tape with msixPend := s.tape.msixPend.set k false } }).vector k
    else s) s

/-- Configuration space answers: it is ready no later than 1 s after PERST# deasserts; before that whether it is ready is
a free value (spec/14_reset_bringup_selftest.md R455; log entry 5). -/
def State.cfgReady (s : State) : Bool × State :=
  if s.cxl.configReady || decide (s.cxl.perstAt + 100000000 ≤ s.now) then
    (true, { s with cxl := { s.cxl with configReady := true } })
  else
    let v := s.freeVal 1
    (v.1 = 1, { v.2 with cxl := { v.2.cxl with configReady := v.1 = 1 } })

/-- The bits of a dword of configuration space that the spec fixes, as a mask, and their value: the capabilities of
Table 11.2, of which those of PCIe 5.0 stand in a chain in order of offset, and the CXL Device DVSEC of Table 11.3; the link
capabilities, with ASPM L1 only and no surprise removal; the trained speed and width; the places of the fields, the lengths
and the revisions are those of PCIe 5.0 and CXL 2.0 (spec/11_host_interface_and_command_tape.md R349, R351; log entry 16). -/
def State.cfgFixed (s : State) (off : Nat) : Nat × Nat :=
  let range : Nat := b2n s.rst.released + 2 * s.get R.GC_STATE_MEM_READY
  let all : Nat := 0xFFFFFFFF
  if off = 0x0C then (0x00FF0000, 0)
  else if off = 0x3C then (0x0000FF00, 0)
  else if off = 0x40 then (0xFE07FFFF, 0x35001)
  else if off = 0x44 then (0x0000FF00, 0)
  else if off = 0x70 then (0x01FFFFFF, 0x20010)
  else if off = 0x74 then (0x10000007, 0x10000002)
  else if off = 0x78 then (0x00008000, 0)
  else if off = 0x7C then (0x00080FFF, 0x905)
  else if off = 0x80 then (0x03FF0000, (s.cxl.speed + s.cxl.width * 16) * 2 ^ 16)
  else if off = 0x84 || off = 0x88 then (all, 0)
  else if off = 0x100 then (all, 0x14820001)
  else if off = 0x148 then (all, 0x1A010023)
  else if off = 0x14C then (all, 0x03811E98)
  else if off = 0x150 then (0x403FFFFF, 0x002F0000)
  else if off = 0x15C then (0xFF000000, 0)
  else if off = 0x160 || off = 0x170 then (all, 0x60)
  else if off = 0x164 || off = 0x174 then (0xF00000FF, range)
  else if off = 0x1A0 then (all, 0x1C010023)
  else if off = 0x1A4 then (all, 0x01411E98)
  else if off = 0x1A8 then (0x0067FFFF, 0x00270007)
  else if off = 0x1C0 then (all, 0x1E010023)
  else if off = 0x1C4 then (all, 0x01401E98)
  else if off = 0x1C8 then (0x0000FFFF, 8)
  else if off = 0x1CC then (0xFFFFFF07, 0x104)
  else if off = 0x1D0 then (all, 0)
  else if off = 0x1E0 then (all, 0x10030)
  else if off = 0x1E4 then (0x00FFFF03, 1)
  else (0, 0)

/-- The bits of a dword of configuration space that host software writes and reads back: cache line size, interrupt line,
power state, the control registers of the PCI Express capability, the masks and severities of advanced error reporting, the
controls of the CXL Device and Flex Bus Port DVSECs, and the range bases (spec/11_host_interface_and_command_tape.md R351;
log entry 16). -/
def cfgWritable (off : Nat) : Nat :=
  if off = 0x0C || off = 0x3C then 0xFF
  else if off = 0x44 then 3
  else if off = 0x78 then 0x7FFF
  else if [0x80, 0x98, 0xA0, 0x154, 0x158, 0x1AC].contains off then 0xFFFF
  else if [0x108, 0x10C, 0x114, 0x168, 0x178].contains off then 0xFFFFFFFF
  else if off = 0x16C || off = 0x17C then 0xF0000000
  else 0

/-- What a write leaves in a dword: a power state that the function does not have changes nothing, since it has D0 and D3hot
(spec/11_host_interface_and_command_tape.md Table 11.2). -/
def State.cfgWrite (s : State) (off v : Nat) : State :=
  if off = 0x44 && inRange 1 2 (v % 4) then s
  else { s with cxl := { s.cxl with cfg := kvSet s.cxl.cfg off v } }

/-- A word with the bits of a mask replaced. -/
def overlay (x mask v : Nat) : Nat := Nat.lor (Nat.land x (2 ^ 32 - 1 - mask)) v

/-- A dword of configuration space as it reads: fixed fields, fields as they were written, D0 until a power state is written,
and a free value for every other field, whose value the spec leaves to PCIe 5.0 and CXL 2.0. -/
def State.cfgRead (s : State) (off : Nat) : State :=
  match s.cfgDword off with
  | some w => s.emit (.cfgRead off (w % 2 ^ 32))
  | none =>
    let f := s.freeVal 32
    let w : Nat := match if off = 0x44 then some (kvGet 0 s.cxl.cfg off) else kvGet? s.cxl.cfg off with
      | some v => overlay f.1.toNat (cfgWritable off) (Nat.land v (cfgWritable off))
      | none => f.1.toNat
    f.2.emit (.cfgRead off (overlay w (s.cfgFixed off).1 (s.cfgFixed off).2))

/-- `CONFIG_ACCESS`: a configuration request answered, with retry status (0b010) until configuration space is ready
(spec/14_reset_bringup_selftest.md R455, spec/11_host_interface_and_command_tape.md R351, R352, R358; log entry 16). -/
def execConfigAccess (write : Bool) (off : HostAt) (v : W32) (s : State) : Res :=
  if !s.cxl.linkUp || !s.ideTakes 0 off.prot || off.addr % 4 ≠ 0 || decide (0x1000 ≤ off.addr) then go s
  else
    let r := s.cfgReady
    let s := r.2
    if !r.1 then go (s.emit (.completion 2))
    else if write then
      let s := if off.addr = 0x50 then s.msixControl v.toNat else s.cfgWrite off.addr v.toNat
      go (s.emit (.completion 0))
    else go (s.cfgRead off.addr)

/-! ### HDM decoders -/

/-- Is a decoder commit within the rules (spec/11_host_interface_and_command_tape.md R353)? -/
def State.decoderOk (s : State) (d base size : Nat) (ways1 : Bool) : Bool :=
  let z0 : Nat := ((kvGet? s.cxl.hdm 0).map fun x => if x.2.2 then x.2.1 else 0).getD 0
  let has0 : Bool := (kvGet? s.cxl.hdm 0).any fun x => x.2.2
  ways1 && size % 0x10000000 = 0 &&
    (if d = 0 then base = 0 && decide (size ≤ lpEnd) else has0 && base = z0 && decide (z0 + size ≤ lpEnd))

/-- `HDM_DECODER_COMMIT`: a decoder committed within the rules maps device addresses; against them it reports the error
and maps nothing (spec/11_host_interface_and_command_tape.md R353). -/
def execHdmDecoderCommit (d base size : Nat) (ways1 : Bool) (s : State) : Res :=
  if decide (2 ≤ d) || s.linkMode ≠ 1 then go s
  else
    let ok := s.decoderOk d base size ways1
    go { s with cxl := { s.cxl with
      hdm := kvSet s.cxl.hdm d (base, size, ok)
      hdmErr := if ok then s.cxl.hdmErr.filter (· ≠ d) else (d :: s.cxl.hdmErr).dedup } }

/-! ### CXL.cache -/

/-- `HOST_SNOOP`: a host snoop finds the line invalid, since the module holds no host cache lines
(spec/11_host_interface_and_command_tape.md R357, R358). -/
def execHostSnoop (acc : HostAt) (s : State) : Res :=
  if s.linkMode = 1 && s.ideTakes 1 acc.prot then go (s.emit (.snoopMiss acc.addr)) else go s

/-- `HOST_BIAS_ANSWER`: the host has written back and invalidated the lines, and the waiting request is applied. The
requests of one granule are applied in the order of their arrival (spec/11_host_interface_and_command_tape.md R355,
spec/08_memory_system.md R263). -/
def execHostBiasAnswer (idx : Nat) (s : State) : Res :=
  match s.cxl.biasReqs[idx]? with
  | none => go s
  | some b =>
    if s.safe || (s.cxl.biasReqs.take idx).any fun c => s.orderKey c.addr = s.orderKey b.addr then go s
    else go ({ s with cxl := { s.cxl with biasReqs := s.cxl.biasReqs.eraseIdx idx } }.serve b.seed b.req)

/-! ### Answers to requests to host memory -/

/-- A bobbin's request answered by the port (spec/09_bobbin_streams.md R300). -/
def State.hostToBob (s : State) (t b ridx epoch status : Nat) (data : List Byte) : State :=
  s.respond hostUnit (2 * t + b) epoch ridx status data

/-- A command aborted by a fault of the host port (spec/11_host_interface_and_command_tape.md R357). -/
def State.abortCmd (s : State) (tag epoch code : Nat) : State :=
  (s.raiseTied code hostUnit 0 (tagArg tag epoch)).reply tag epoch 3 code []

/-- The result kept for a command. -/
def State.resultOf (s : State) (tag epoch : Nat) : List Byte := ((s.tape.find tag epoch).map Cmd.result).getD []

/-- Has a command no further request to host memory on its way? -/
def State.allObserved (s : State) (tag epoch : Nat) : Bool := !s.cxl.reqs.any fun r => r.agent = .cmd tag epoch

/-- The requests of a command that are still on their way forgotten: it is aborted. -/
def State.dropReqs (s : State) (a : HostAgent) : State :=
  { s with cxl := { s.cxl with reqs := s.cxl.reqs.filter fun r => r.agent ≠ a } }

/-- A request that the link refuses: `HOST_UNREACH`, and status refused or an aborted command
(spec/11_host_interface_and_command_tape.md R357). -/
def State.hostFail (s : State) (r : HostReq) (code status : Nat) : State :=
  match r.agent with
  | .bob t b ridx epoch => (s.raise code hostUnit 0 0).hostToBob t b ridx epoch status []
  | .cmd tag epoch => (s.dropReqs r.agent).abortCmd tag epoch code

/-- `HOST_RESPONSE`: data or an acknowledgement returns to the issuing agent; poisoned data give status uncorrectable and
`HOST_POISON`, an unsupported request gives status refused and `HOST_UNREACH`. A command's reply follows its last write
observed (spec/11_host_interface_and_command_tape.md R357, R374). -/
def execHostResponse (idx : Nat) (ans : HostAns) (s : State) : Res :=
  match s.cxl.reqs[idx]? with
  | none => go s
  | some r =>
    if !s.cxl.linkUp then go s
    else
      let s := { s with cxl := { s.cxl with reqs := s.cxl.reqs.eraseIdx idx } }
      match ans with
      | .poisoned => go (s.hostFail r Code.HOST_POISON 2)
      | .unsupported => go (s.hostFail r Code.HOST_UNREACH 1)
      | .ok data =>
        match r.agent with
        | .bob t b ridx epoch => go (s.hostToBob t b ridx epoch 0 (if r.wr then [] else padTo r.len data))
        | .cmd tag epoch =>
          if s.allObserved tag epoch then go (s.reply tag epoch 1 0 (s.resultOf tag epoch)) else go s

/-- `HOST_COMPLETION_TIMEOUT` (spec/11_host_interface_and_command_tape.md R357). -/
def execHostCompletionTimeout (idx : Nat) (s : State) : Res :=
  match s.cxl.reqs[idx]? with
  | none => go s
  | some r =>
    go ({ s with cxl := { s.cxl with reqs := s.cxl.reqs.eraseIdx idx } }.hostFail r Code.HOST_UNREACH 1)

/-- Bytes that a command writes to host memory: the request goes out, or, with the link down, the command is aborted
(spec/11_host_interface_and_command_tape.md R357, R374). `result` is what its reply carries. -/
def State.cmdToHost (s : State) (c : Cmd) (a : Nat) (b : List Byte) (result : List Byte) : State :=
  if !s.cxl.linkUp then s.abortCmd c.tag c.epoch Code.HOST_UNREACH
  else
    let s := s.keepResult c result
    let r : HostReq := ⟨.cmd c.tag c.epoch, true, a, b.length⟩
    { s with cxl := { s.cxl with reqs := s.cxl.reqs ++ [r] } }.busWrite a b

end Sys2Proof.Machine
end

