-- ==== Sys2Proof/Machine/TrainStep.lean ====
section
/-! DEFINITION. The training step: opening, close tokens, closes, the partial norm, the sweep, the audit and the bounds
of a step (spec/07_training_step_and_press.md R220 to R249). -/

namespace Sys2Proof.Machine

/-! ### Opening -/

/-- A `STEP_OPEN` refused by the press units (spec/15_faults_and_safe_state.md Table 15.3). -/
def State.refuseStep (s : State) (c : Cmd) (code sub arg : Nat) : State := (s.takeCmd c).refuse c code 0xC66 sub arg []

/-- A `STEP_OPEN` deferred: it is not taken up (spec/07_training_step_and_press.md R220,
spec/06_progress_deadlock_drain.md R208). -/
def State.deferStep (s : State) (c : Cmd) : State := { s with press := { s.press with deferred := some (c.tag, c.epoch) } }

/-- Is the opening of a step deferred? -/
def State.stepDeferred (s : State) : Bool :=
  s.drain ≠ 0 || (!s.stepOpen && (inRange 4 5 s.phase || s.flag R.PRS_STATUS_UW_HOLD))

/-- Are the checks of `STEP_OPEN` up to the step number passed (spec/07_training_step_and_press.md R220)? -/
def State.stepInOrder (s : State) (step : Nat) : Bool := step ≠ stepNone && s.afterLast step

/-- The tokens of a step for the step channels: the payload of each micro-batch
(spec/11_host_interface_and_command_tape.md R369). -/
def stepPays (lens : List Nat) : List (List Byte) :=
  lens.mapIdx fun j n => leBytes 2 n ++ leBytes 2 j ++ leBytes 2 lens.length ++ leBytes 2 0

/-- The tokens of a step owed on every step channel of the newest generation whose GO the tape unit has received
(spec/11_host_interface_and_command_tape.md R369). -/
def State.oweSteps (s : State) (lens : List Nat) : State :=
  let up (l : List StepChan) : List StepChan := l.map fun c => { c with owed := c.owed ++ stepPays lens, owedEnd := true }
  let s : State :=
    if s.loader.unitGone.contains 0xC34 && s.loader.gen ≠ s.curGen then { s with tape := { s.tape with pendChans := up s.tape.pendChans } }
    else { s with tape := { s.tape with chans := up s.tape.chans } }
  s.pumpUnits

/-- The micro-batch lengths, by `LDEF` or read from the table (spec/11_host_interface_and_command_tape.md R368). -/
def State.stepTokens (s : State) (m ldef ltab : Nat) : State :=
  if !s.stepOpen then s
  else if ltab = 0xFFFFFFFFFFFFFFFF then s.oweSteps (List.replicate m ldef)
  else
    match s.load ltab (2 * m) false .ok with
    | (s, none) =>
      let b := s.rdN ltab (2 * m)
      s.oweSteps ((List.range m).map fun j => field b (2 * j) 2)
    | (s, some x) => s.stepFatal x.2

/-- A step opened: `STEP` loaded, the ticket counters set to 0, the record checksums taken, the instances opened
(spec/07_training_step_and_press.md R220, R228, spec/08_memory_system.md R277, spec/10_seam_ports_and_collectives.md
R332). -/
def State.beginStep (s : State) (c : Cmd) (step : Nat) : State :=
  let s := s.setAll [(R.NUM_SR_STEP_STEP, step), (R.PRS_STEP_STEP, step), (R.PRS_STATUS_PHASE, 1)]
  let s := (s.bump R.STEPS_OPENED 1).zeroTickets
  let s := { s with press :=
    { replies := s.press.replies, heldClose := s.press.heldClose, everOpened := true, cmd := some (c.tag, c.epoch)
      crcs := (List.range s.gtCount).map fun g => (s.grp g).watch } }
  (s.openInsts step).stepTokens (c.p 8 2) (c.p 0xA 2) (c.p 0x10 8)

/-- `STEP_OPEN` checked and acted on: complete at once where `M` is 0, refused while a step is open, deferred, or checked
further (spec/07_training_step_and_press.md R220, R221; log entry 36). -/
def State.openStep (s : State) (c : Cmd) : State :=
  let step := c.p 0 8 % 2 ^ 48
  let free : State := { s with press := { s.press with deferred := none } }
  if c.p 8 2 = 0 then (free.takeCmd c).done c (stepResult step 0 0 0 0 0)
  else if s.stepOpen then free.refuseStep c Code.PRS_STEP_BUSY 0xFFFF 0
  else if s.stepDeferred then s.deferStep c
  else
    let s := free
    if !s.stepInOrder step then s.refuseStep c Code.PRS_STEP_ORDER 0xFFFF 0
    else
      if decide (0 < s.gtCount) && !s.rangeClass 1 (s.grpAddr 0) (256 * s.gtCount) then s.refuseStep c Code.PRS_GROUP 0xFFFF 0
      else
        let r := s.engCheck (if s.gtCount = 0 then [] else [(s.grpAddr 0, 256 * s.gtCount)])
        if !r.2 then ((r.1.tieLast Code.MEM_UE_S).takeCmd c).reply c.tag c.epoch 2 Code.MEM_UE_S []
        else
          match (if s.gtCount = 0 then none else s.tableBad) with
          | some f => s.refuseStep c Code.PRS_GROUP f.1 f.2
          | none => (r.1.takeCmd c).beginStep c step

/-- `STEP_OPEN` (spec/07_training_step_and_press.md R220). -/
def execStepOpen (tag : Nat) (s : State) : Res :=
  match s.cmdFor tag Op.STEP_OPEN with
  | some c => if s.safe then go s else go (s.openStep c)
  | none => go s

/-- `STEP_OPEN_RESUME`: a deferred `STEP_OPEN` is taken up again once what deferred it has ended
(spec/07_training_step_and_press.md R220). -/
def execStepOpenResume (s : State) : Res :=
  match s.press.deferred with
  | none => go s
  | some (tag, ep) =>
    match s.cmdFor tag Op.STEP_OPEN with
    | some c => if s.safe || c.epoch ≠ ep || s.stepDeferred then go s else go (s.openStep c)
    | none => go { s with press := { s.press with deferred := none } }

/-! ### Closing -/

/-- A close token that is not basted, or is sewn (spec/07_training_step_and_press.md R230, R231). -/
def State.closeTok (s : State) (mc len : Nat) (payload : W64) : State :=
  let p := payload.toNat
  let g := p % 2 ^ 12
  let unit := 0xC00 + mc
  if decide (len ≠ 8) || bits p 12 4 ≠ 0 || decide (s.gtCount ≤ g) || !s.stepOpen || bits p 16 48 ≠ s.stepNo then
    s.raiseAs (if s.stepOpen then .stepFatal else .contained) false Code.PRS_CLOSE_STEP unit g 0
  else if s.grpChanged g then s.recFault unit g
  else
    let r := s.grp g
    let n := kvGet 0 s.press.closeCnt g + 1
    if r.closers < n then s.raise Code.PRS_CLOSE_EXTRA unit g 0
    else
      let s := if s.phase = 1 then s.set R.PRS_STATUS_PHASE 2 else s
      { s with press := { s.press with
          closeCnt := kvSet s.press.closeCnt g n
          closing := if n = r.closers && r.closes then s.press.closing ++ [g] else s.press.closing } }

/-- `CLOSE_TOKEN`: a close token reaches a press unit; a basted one is held (spec/07_training_step_and_press.md R230,
R231). -/
def execCloseToken (mc tag len : Nat) (payload : W64) (basted : Bool) (s : State) : Res :=
  if s.safe || decide (24 ≤ mc) then go s
  else
    match s.fate (0xC00 + mc) (· = 30) (if basted then some tag else none) with
    | (s, .sewn) => go (s.closeTok mc len payload)
    | (s, .gone) => go s
    | (s, .held g) => go { s with press := { s.press with heldClose := s.press.heldClose ++ [⟨mc, g, len, payload⟩] } }

/-- The ranges that the close of a group reads. -/
def State.closeReads (s : State) (r : GRec) : List (Nat × Nat) :=
  (r.sum, (if r.sumfmt = 0 then 8 else 4) * r.nElem) :: if s.errValid r then [(r.err, 2 * r.nElem)] else []

/-- `CLOSE_END`: every press unit has finished the close of a group (spec/07_training_step_and_press.md R232, R233). -/
def execCloseEnd (group : Nat) (s : State) : Res :=
  if s.safe || !s.stepOpen || !s.press.closing.contains group then go s
  else if s.grpChanged group then go (s.recFault 0xC66 group)
  else
    let r := s.grp group
    let c := s.engCheck (s.closeReads r)
    if !c.2 then go c.1
    else
      let s := c.1.closeGroup group
      let s := { s with press := { s.press with
        closing := s.press.closing.erase group, closed := s.press.closed ++ [group] } }
      if r.reduces then go (s.groupClosed group) else go s

/-! ### Norm -/

/-- The ranges that the partial norm reads. -/
def State.normReads (s : State) : List (Nat × Nat) :=
  (s.groupsWith GRec.sweeps).flatMap fun g =>
    let r := s.grp g
    r.ownLines.flatMap fun j =>
      if r.isLocal then [(r.g8At j, lineBytes r.gfmt), (r.g8SclAt j, lineScales r.gfmt)] else [(r.ownAt r.red j, 256)]

/-- `PARTIAL_NORM`: the module's partial squared norm is formed and sent (spec/07_training_step_and_press.md R235,
R236, Table 7.6 step 5). -/
def execPartialNorm (s : State) : Res :=
  if s.safe || !inRange 1 2 s.phase then go s
  else go (s.withRecs 0xC66 fun s =>
    if !s.allClosed || !s.allRed then s
    else
      let c := s.engCheck s.normReads
      if c.2 then (c.1.set R.PRS_STATUS_PHASE 3).normStart c.1.partialNorm else c.1)

/-! ### Sweep and audit -/

/-- The line that a press unit sweeps next (spec/07_training_step_and_press.md R229). -/
def State.nextSweep (s : State) (mc : Nat) : Option (Nat × Nat) :=
  (s.unitLines mc GRec.sweeps).find? fun x => !s.press.swept.contains (x.1, mc, x.2)

/-- Has every owned line of a group been swept? -/
def State.groupLinesSwept (s : State) (g : Nat) : Bool :=
  (s.grp g).ownLines.all fun j => s.press.swept.any fun x => x.1 = g && x.2.2 = j

/-- Have the press units stopped: in the safe state, by the idle request of a warm reset, or at once after a fault of a memory
controller that leaves data of class S unsound (spec/07_training_step_and_press.md R250, spec/14_reset_bringup_selftest.md Table 14.4; log entry 126)? -/
def State.pressStopped (s : State) : Bool :=
  s.halts || s.flt.cause.any fun f => [Code.MEM_UE_S, Code.MEM_CH_FAIL, Code.MEM_PD_WRITEBACK].contains f.code

/-- A press unit's next line swept; the last line of a group ends its sweep. -/
def State.sweepNext (s : State) (mc group line : Nat) (e : Ecc) : State :=
  if s.nextSweep mc ≠ some (group, line) then s
  else
    let c := s.engRead ((s.grp group).sweepReads line) e
    if !c.2 then c.1
    else
      let s := c.1.sweepLine mc group line
      if s.groupLinesSwept group then ((s.endGroup group).groupSwept group).afterSweep else s

/-- `SWEEP_LINE`: a press unit updates one owned line (spec/07_training_step_and_press.md R228, R244, R247, R250). -/
def execSweepLine (mc group line : Nat) (e : Ecc) (s : State) : Res :=
  if s.pressStopped || s.phase ≠ 4 || decide (24 ≤ mc) then go s
  else go (s.withRecs (0xC00 + mc) fun s => s.sweepNext mc group line e)

/-- The chosen lines of a press unit audited; after the last unit `PHASE` is idle. -/
def State.auditUnit (s : State) (mc : Nat) : State :=
  let s := (s.auditLines mc).foldl (fun s x => if s.pressStopped then s else s.auditLine mc x.1 x.2) s
  let s := { s with press := { s.press with audited := mc :: s.press.audited } }
  if s.press.audited.length = 24 && s.flt.cause.isNone then
    let reps : List StepReply := s.press.replies.map fun r => { r with idle := true }
    let s : State := { s with press := { s.press.cleared with replies := reps } }
    (s.set R.PRS_STATUS_PHASE 0).tryReplies
  else s

/-- `AUDIT`: a press unit re-derives its chosen lines (spec/07_training_step_and_press.md R228, R246, Table 7.6 step 8). -/
def execAudit (mc : Nat) (s : State) : Res :=
  if s.pressStopped || s.phase ≠ 5 || decide (24 ≤ mc) || s.press.audited.contains mc then go s
  else go (s.withRecs (0xC00 + mc) fun s => s.auditUnit mc)

/-! ### Bounds -/

/-- `PRS_CLOSE_DEADLINE`: a bound of steps 2, 3 or 5 is missed (spec/07_training_step_and_press.md R248). -/
def execPrsCloseDeadline (s : State) : Res :=
  if s.safe || !inRange 1 2 s.phase then go s
  else go (s.withRecs 0xC66 fun s =>
    if s.allClosed && !s.allRed then s else s.raise Code.PRS_CLOSE_DEADLINE 0xC66 0xFFFF 0)

/-- `PRS_NORM_DEADLINE`: the verdict is not confirmed in time; the step is abandoned, after this module's verdict as well
(spec/07_training_step_and_press.md R236, spec/10_seam_ports_and_collectives.md R338). -/
def execPrsNormDeadline (s : State) : Res :=
  if s.safe || s.phase ≠ 3 then go s
  else
    let ins : List Inst := s.seam.insts.map fun i =>
      if i.rc.kind = 2 && i.step = s.stepNo then { i with sentVerdict := false } else i
    go ({ s with seam := { s.seam with insts := ins } }.raise Code.PRS_NORM_DEADLINE 0xC66 0xFFFF 0)

/-- `PRS_SWEEP_DEADLINE`: the sweep or the audit misses its bound (spec/07_training_step_and_press.md R248). -/
def execPrsSweepDeadline (s : State) : Res :=
  if s.safe || !inRange 4 5 s.phase then go s else go (s.raise Code.PRS_SWEEP_DEADLINE 0xC66 0xFFFF 0)

end Sys2Proof.Machine
end

