-- ==== Sys2Proof/Machine/Unpick.lean ====
section
/-! DEFINITION. Progress monitors, the unpick controller and drains (spec/06_progress_deadlock_drain.md). -/

namespace Sys2Proof.Machine

/-- The unpick controller changed. -/
def State.onUnpick (s : State) (f : Unpick → Unpick) : State := { s with unpick := f s.unpick }

/-- `STATE` of `UNP_STATUS`: 0 idle, 1 round 1, 2 window, 3 round 2, 4 spilling. -/
def State.unpState (s : State) : Nat := s.get R.UNP_STATUS_STATE

/-! ### Monitors -/

/-- Does an agent of a tile wait on a ring, as its producer or its consumer (spec/03_compute_tile.md R108,
spec/06_progress_deadlock_drain.md R196)? -/
def State.ringWaits (s : State) (t : Nat) (a : TAgent) (r : Nat) (prod : Bool) : Bool :=
  let x := s.tile t
  s.stallCounts prod && x.get T.TILE_STATUS_STATE ≠ 4 &&
    match a with
    | .prog => x.stall.any fun q => q.ring = r && q.prod = prod
    | .bob b => (x.bob b).stalled && x.get (T.BOB_CFG_RING b) = r && bobProd x.regs b = prod
    | _ => false

/-- Does a bobbin wait on its requests: for a request index or for responses, at `END` too
(spec/09_bobbin_streams.md R301)? -/
def State.reqWaits (s : State) (t : Nat) (a : TAgent) : Bool :=
  let x := s.tile t
  s.issues && s.drain ≠ 2 &&
    match a with
    | .bob b => (x.bob b).run && (x.get (T.BOB_STAT_STATE b) = 3 || x.get (T.BOB_STAT_STATE b) = 5) && !(x.bob b).reqs.isEmpty
    | _ => false

/-- Does a wait of an agent of a tile count now (spec/06_progress_deadlock_drain.md R194, R196)? -/
def State.waitsOn (s : State) (t : Nat) (a : TAgent) : WaitOn → Bool
  | .queue q => s.waitCounts t a (.queue q)
  | .och c => s.waitCounts t a (.och c)
  | .ring r prod => s.ringWaits t a r prod
  | .req => s.reqWaits t a

/-- Is a wait one on a credit, a bucket token or a full ring (spec/06_progress_deadlock_drain.md Table 6.1)? -/
def creditWait : WaitOn → Bool
  | .och _ => true
  | .ring _ prod => prod
  | _ => false

/-- `MONITOR_TRIP`: a wait has counted `STALL_TH`; the first tripped wait of a panel sends a stall report
(spec/06_progress_deadlock_drain.md R194). -/
def execMonitorTrip (t : Nat) (agent : TAgent) (w : WaitOn) (s : State) : Res :=
  let p := panelOf t
  if !s.flag R.UNP_CFG_MON_EN || !s.waitsOn t agent w || (s.tile t).tripped.contains (agent, w) then go s
  else
    let first := !s.panelTrips p || !s.unpick.spent.contains p
    let s := s.onTile t fun x => { x with tripped := x.tripped ++ [(agent, w)] }
    if first then
      go (s.onUnpick fun u => { u with
        sent := if u.sent.contains p then u.sent else u.sent ++ [p]
        spent := if u.spent.contains p then u.spent else u.spent ++ [p] })
    else go s

/-! ### Runs -/

/-- A round of probing begins: a probe is on its way to every tile (spec/06_progress_deadlock_drain.md Table 6.2). -/
def State.startRound (s : State) (st : Nat) : State :=
  (s.set R.UNP_STATUS_STATE st).onUnpick fun u => { u with probed := List.range nTiles, owed := [], answers := [] }

/-- The end of a run: the monitors are re-armed, so a panel that still holds a tripped wait reports again, and a report
that came late is handled in the next run (spec/06_progress_deadlock_drain.md R198). -/
def State.endRun (s : State) : State :=
  let still := (List.range 36).filter s.panelTrips
  let again := s.unpick.again
  let s := (s.set R.UNP_STATUS_STATE 0).onUnpick fun u => { u with
    again := false, sent := u.sent ++ still.filter (fun p => !u.sent.contains p), spent := still, probed := [], owed := [], answers := [] }
  if again then s.startRound 1 else s

/-- `STALL_REPORT`: a report starts a run, joins round 1, or is kept for the next run
(spec/06_progress_deadlock_drain.md R198). -/
def execStallReport (panel : Nat) (s : State) : Res :=
  if s.halts || !s.unpick.sent.contains panel then go s
  else
    let s := (s.bump R.TRIPS 1).onUnpick fun u => { u with sent := u.sent.erase panel }
    if s.unpState = 0 then go (s.startRound 1)
    else if s.unpState = 1 then go s
    else go (s.onUnpick fun u => { u with again := true })

/-- Is a tile quiescent (spec/06_progress_deadlock_drain.md R207, spec/09_bobbin_streams.md R307)? -/
def Tile.quiet (x : Tile) : Bool :=
  (List.range 32).all (fun q => !qEn x.regs q || ((x.queue q).toks.isEmpty && !(x.queue q).spill))
    && x.staging.isEmpty && x.spillIn.isEmpty
    && (List.range 32).all (fun c => !chEn x.regs c || (x.och c).credits = x.get (T.OCH_CRED c))
    && x.outstanding = 0 && x.entries.isEmpty
    && !x.bob0.run && x.bob0.quar.isEmpty && !x.bob1.run && x.bob1.quar.isEmpty

/-- `STUCKQ` of a tile's answer (spec/06_progress_deadlock_drain.md Table 6.1). -/
def Tile.stuckq (x : Tile) : Nat :=
  ((List.range 32).map fun q =>
    let v := x.queue q
    b2n (qEn x.regs q && x.get (T.QCFG_SPILL q) = 1 && !v.spill && !v.toks.isEmpty && !v.moved) * 2 ^ q).sum

/-- The waits of a tile that are tripped and go on. -/
def State.trips (s : State) (t : Nat) : List (TAgent × WaitOn) := (s.tile t).tripped.filter fun w => s.waitsOn t w.1 w.2

/-- A tile's answer to a probe (spec/06_progress_deadlock_drain.md Table 6.1). -/
def State.probeAnswer (s : State) (t : Nat) : W64 :=
  let x := s.tile t
  let w := s.trips t
  BitVec.ofNat 64 (x.stuckq + b2n (!w.isEmpty) * 2 ^ 32 + b2n (w.any fun v => creditWait v.2) * 2 ^ 33 + b2n x.quiet * 2 ^ 34)

/-- The record of deliveries to consumers, reset once a probe is answered (spec/06_progress_deadlock_drain.md R197). -/
def Tile.clearMoved (x : Tile) : Tile :=
  { x with queues := x.queues.map fun e => (e.1, { e.2 with moved := false }) }

/-- `PROBE`: a tile answers a probe (spec/06_progress_deadlock_drain.md R197). -/
def execProbe (t : Nat) (s : State) : Res :=
  if s.safe || !s.unpick.probed.contains t then go s
  else
    let a : ProbeAns := ⟨t, s.probeAnswer t⟩
    go ((s.onTile t Tile.clearMoved).onUnpick fun u => { u with probed := u.probed.erase t, owed := u.owed ++ [a] })

/-- The queues named in the answers of round 2. -/
def stuckOf (l : List ProbeAns) : List (Nat × Nat) :=
  l.flatMap fun a => (List.range 32).filterMap fun q => if bit a.payload.toNat q then some (a.tile, q) else none

/-- The decision of a run (spec/06_progress_deadlock_drain.md R199). -/
def State.unpDecide (s : State) : State :=
  let l := s.unpick.answers
  if !l.any (fun a => bit a.payload.toNat 32) then (s.bump R.TRANSIENT 1).endRun
  else if l.any (fun a => decide (bits a.payload.toNat 0 32 ≠ 0)) && s.flag R.UNP_CFG_UNPICK_EN then
    ((s.bump R.DEADLOCKS 1).set R.UNP_STATUS_STATE 4).onUnpick fun u => { u with spillCmds := stuckOf l }
  else
    match (List.range nTiles).find? fun t => l.any fun a => a.tile = t && bit a.payload.toNat 33 with
    | some t => s.endRun.raise Code.UNP_STUCK 0xC32 0 t
    | none => (s.bump R.STARVED 1).endRun

/-- `PROBE_REPLY`: an answer reaches the controller; the last of round 1 opens the confirmation window, the last of
round 2 decides (spec/06_progress_deadlock_drain.md R198, R199). -/
def execProbeReply (t : Nat) (payload : W64) (s : State) : Res :=
  let a : ProbeAns := ⟨t, payload⟩
  if s.halts || !s.unpick.owed.contains a then go s
  else
    let s := s.onUnpick fun u => { u with owed := u.owed.erase a, answers := u.answers ++ [a] }
    if !s.unpick.probed.isEmpty || !s.unpick.owed.isEmpty then go s
    else if s.unpState = 1 then go (s.set R.UNP_STATUS_STATE 2)
    else if s.unpState = 3 then go s.unpDecide
    else go s

/-- `CONFIRM_WINDOW_END`: round 2 begins (spec/06_progress_deadlock_drain.md Table 6.2 step 4). -/
def execConfirmWindowEnd (s : State) : Res :=
  if !s.halts && s.unpState = 2 then go (s.startRound 3) else go s

/-- `UNP_PROBE_DEADLINE`: a tile's answer misses its round's bound (spec/06_progress_deadlock_drain.md R198). -/
def execUnpProbeDeadline (s : State) : Res :=
  let u := s.unpick
  if s.halts || !(s.unpState = 1 || s.unpState = 3) then go s
  else
    match (u.probed ++ u.owed.map ProbeAns.tile).head? with
    | some t => go (s.raise Code.UNP_PROBE_DEADLINE 0xC32 0 t)
    | none => go s

/-! ### Spill mode -/

/-- A queue enters spill mode: the credits of the tokens that it holds return, every free slot is reserved for refill
(spec/06_progress_deadlock_drain.md R201, R203). -/
def State.enterSpill (s : State) (t q : Nat) : State :=
  let v := (s.tile t).queue q
  if v.spill then s
  else
    let free := (s.tile t).freeSlots q
    let s := (s.onTile t fun x => x.setQueue q { v with spill := true, rsv := free }).bump R.QUEUES_SPILLED 1
    v.toks.foldl (fun s k => s.laneCredits t q (hGen k.hdr) 1) s

/-- `SPILL_COMMAND`: a queue receives a spill command; the run ends when every queue commanded has done so
(spec/06_progress_deadlock_drain.md R201, Table 6.2 step 7). -/
def execSpillCommand (t q : Nat) (s : State) : Res :=
  if s.safe || !s.unpick.spillCmds.contains (t, q) then go s
  else
    let s := (s.enterSpill t q).onUnpick fun u => { u with spillCmds := u.spillCmds.erase (t, q) }
    if s.unpick.spillCmds.isEmpty && s.unpState = 4 then go s.endRun else go s

/-- `SPILL_ARRIVAL`: a token that arrives at a queue in spill mode passes checks 1 to 5 and enters staging, or waits in
the router while staging is full (spec/06_progress_deadlock_drain.md R202). -/
def execSpillArrival (t : Nat) (hdr : W64) (pay : List Byte) (s : State) : Res :=
  if s.safe || !((s.tile t).queue (hDq hdr)).spill || (s.tile t).stuck ⟨hdr, pay⟩ then go s
  else
    let arrive (s : State) (k : Token) : State :=
      if !hdrOk hdr then s.tileStop t Code.FAB_HDR_CRC (hDq hdr)
      else if fieldBad hdr then s.tokFault k Code.FAB_HDR_FIELD t (hDq hdr) false
      else s.toQueue t k
    match s.named (fun n => n.arrived && hDest n.tok.hdr = t) hdr with
    | .tok n => go (arrive (s.depart n) n.tok)
    | .outside => go (arrive s ⟨hdr, pay⟩)
    | .waits => go s

/-- A chain of records. -/
def State.chain (s : State) (t q g : Nat) : Option Chain :=
  s.unpick.chains.find? fun c => c.tile = t && c.queue = q && c.gen = g

/-- The chains with one put back; one without records is dropped. -/
def putChain (l : List Chain) (c : Chain) : List Chain :=
  let l := l.filter fun d => !(d.tile = c.tile && d.queue = c.queue && d.gen = c.gen)
  if c.recs.isEmpty then l else l ++ [c]

/-- The address of a chain's next record: the next 128 bytes of its last page, or a free page
(spec/06_progress_deadlock_drain.md R200). -/
def State.recordAddr (s : State) (c : Chain) : Option Nat :=
  match c.recs.getLast? with
  | some (a, _) => if (a + 128) % 4096 = 0 then s.freePage else some (a + 128)
  | none => s.freePage

/-- A spill record: the header at offset 0, the payload at 64 (spec/06_progress_deadlock_drain.md R200). -/
def spillBytes (k : Token) : List Byte :=
  leBytes 8 k.hdr.toNat ++ List.replicate 56 0 ++ k.pay ++ List.replicate (64 - k.pay.length) 0

/-- The token that a pair of spill tokens carries: its header in the first, its payload in the second. -/
def pairTok (a b : Token) : Token := ⟨BitVec.ofNat 64 (leNat a.pay), b.pay⟩

/-- The pair that arrived first at the controller, and the rest: spill tokens of one tile come on one route, in order
(spec/06_progress_deadlock_drain.md R202, R206). -/
def firstPair : List (Nat × Token) → Option (Token × List (Nat × Token))
  | [] => none
  | a :: l => (l.find? fun b => b.1 = a.1).map fun b => (pairTok a.2 b.2, l.erase b)

/-- `SPILL_RECORD`: the controller appends the record that arrived first to the chain of its queue and generation
(spec/06_progress_deadlock_drain.md R203, R205, R206). -/
def execSpillRecord (t q : Nat) (s : State) : Res :=
  match firstPair s.unpick.arrived with
  | none => go s
  | some (k, rest) =>
    if s.halts || s.unpick.flushed || hDest k.hdr ≠ t || hDq k.hdr ≠ q then go s
    else
      let c := (s.chain t q (hGen k.hdr)).getD ⟨t, q, hGen k.hdr, []⟩
      match s.recordAddr c with
      | none => go (s.raise Code.UNP_SPILL_FULL 0xC32 0 0)
      | some a =>
        let s := (s.put a (spillBytes k)).bump R.RECORDS_SPILLED 1
        go (s.onUnpick fun u => { u with
          arrived := rest
          due := u.due.erase (t, q, hGen k.hdr)
          seq := u.seq + 1
          chains := putChain u.chains { c with recs := c.recs ++ [(a, u.seq)] }
          pages := kvSet u.pages (a / 4096 * 4096) (kvGet 0 u.pages (a / 4096 * 4096) + 1) })

/-- Spill tokens sent by the controller for a refill (spec/06_progress_deadlock_drain.md R203). -/
def State.sendRefill (s : State) (t q : Nat) (k : Token) : State :=
  let f := hdrF k.hdr
  let h (n : Nat) : W64 :=
    mkHdr { f with dest := t, dq := q, kind := kSpill, basted := false, vc := 3, len := n, srcp := 0x3F }
  (s.sendUnit 0xC32 ⟨h 8, leBytes 8 k.hdr.toNat⟩ none).sendUnit 0xC32 ⟨h k.pay.length, k.pay⟩ none

/-- May the oldest record of a chain be refilled: its queue is in spill mode with a reserved slot that no refill on its way
takes, the tile is in the chain's generation, and its switch notice, if it sent one, has come
(spec/06_progress_deadlock_drain.md R203)? -/
def State.refillable (s : State) (c : Chain) : Bool :=
  let x := s.tile c.tile
  let v := x.queue c.queue
  let out := (s.unpick.refills.filter fun r => r.1 = c.tile && r.2.1 = c.queue).length
  v.spill && decide (out < v.rsv) && x.gen = c.gen && !s.unpick.notices.contains c.tile

/-- The number of the arrival of a chain's oldest record. -/
def Chain.oldest (c : Chain) : Nat := (c.recs.head?.map Prod.snd).getD 0

/-- `REFILL`: a record goes back into a slot that its queue has reserved, in order of arrival across queues; a record that
fails its check is lost (spec/06_progress_deadlock_drain.md R203, R205, R206). -/
def execRefill (t q : Nat) (e : Ecc) (s : State) : Res :=
  match s.chain t q (s.tile t).gen with
  | some c =>
    match c.recs with
    | (a, _) :: rest =>
      if s.halts || s.unpick.flushed || !s.refillable c
          || s.unpick.chains.any (fun d => s.refillable d && decide (d.oldest < c.oldest)) then go s
      else
        let pg := a / 4096 * 4096
        let left := kvGet 1 s.unpick.pages pg - 1
        let r := s.load a 128 false e
        let b := r.1.rdN a 128
        let s := r.1.onUnpick fun u => { u with
          chains := putChain u.chains { c with recs := rest }
          pages := if left = 0 then kvErase u.pages pg else kvSet u.pages pg left }
        if r.2.isSome then go (s.raise Code.UNP_SPILL_LOST 0xC32 0 t)
        else
          let h : W64 := BitVec.ofNat 64 (field b 0 8)
          let k : Token := ⟨h, (b.drop 64).take (hLen h)⟩
          go (((s.sendRefill t q k).bump R.RECORDS_REFILLED 1).onUnpick fun u => { u with refills := u.refills ++ [(t, q, k)] })
    | [] => go s
  | none => go s

/-- The pair of refill tokens of a queue that came first to a tile: the token that they carry, and the rest. -/
def refillPair (q : Nat) (l : List Token) : Option (Token × List Token) :=
  match l.filter fun k => hDq k.hdr = q with
  | a :: b :: _ => some (pairTok a b, (l.erase a).erase b)
  | _ => none

/-- `REFILL_TOKEN`: a refill pair reaches its tile, which rebuilds the token in a reserved slot without checks
(spec/06_progress_deadlock_drain.md R203). -/
def execRefillToken (t q : Nat) (s : State) : Res :=
  match refillPair q (s.tile t).spillIn with
  | none => go s
  | some (k, rest) =>
    if s.safe then go s
    else
      let s := s.onTile t fun x =>
        let v := x.queue q
        let y := ({ x with spillIn := rest } : Tile).setQueue q { v with toks := v.toks ++ [k], rsv := v.rsv - 1 }
        if hGen k.hdr = x.gen then y.untripOn (.queue q) else y
      go (s.onUnpick fun u => { u with refills := dropFirst (fun r => r.1 = t && r.2.1 = q) u.refills })

/-- `SWITCH_NOTICE`: the controller begins refilling from the chains of the new generation
(spec/06_progress_deadlock_drain.md R203). -/
def execSwitchNotice (t : Nat) (s : State) : Res :=
  if s.safe then go s else go (s.onUnpick fun u => { u with notices := u.notices.erase t })

/-- May a queue leave spill mode (spec/06_progress_deadlock_drain.md R204)? -/
def State.spillOver (s : State) (t q : Nat) : Bool :=
  let x := s.tile t
  (x.queue q).spill && (x.queue q).toks.isEmpty && decide (x.keptSlots q = 0)
    && !(s.unpick.chains.any fun c => c.tile = t && c.queue = q)
    && !(s.unpick.refills.any fun r => r.1 = t && r.2.1 = q)
    && !(x.staging.any fun p => p.1 = q)
    && !(s.unpick.due.any fun d => d.1 = t && d.2.1 = q)

/-- `SPILL_MODE_EXIT` (spec/06_progress_deadlock_drain.md R204). -/
def execSpillModeExit (t q : Nat) (s : State) : Res :=
  if s.safe || !s.spillOver t q then go s
  else go (s.onTile t fun x => x.setQueue q { x.queue q with spill := false, rsv := 0 })

/-! ### Drains -/

/-- The drained replies of the drain commands that wait (spec/06_progress_deadlock_drain.md Tables 6.3, 6.4). -/
def State.drainedReplies (s : State) : State :=
  (s.unpick.drainTags.foldl (fun s p => s.reply p.1 p.2 1 0 []) s).onUnpick fun u => { u with drainTags := [] }

/-- A drain command of a mode. -/
def State.withDrain (s : State) (tag mode : Nat) (k : State → Cmd → State) : State :=
  match s.cmdFor tag Op.DRAIN with
  | some c => if s.safe || c.p 0 1 ≠ mode then s else k (s.takeCmd c) c
  | none => s

/-- A drain command that waits for the drained moment. -/
def State.awaitDrained (s : State) (c : Cmd) : State :=
  s.onUnpick fun u => { u with drainTags := u.drainTags ++ [(c.tag, c.epoch)] }

/-- `DRAIN_QUIESCE`: a QUIESCE is requested (spec/06_progress_deadlock_drain.md R208, Table 6.6). -/
def execDrainQuiesce (tag : Nat) (s : State) : Res :=
  go (s.withDrain tag 0 fun s c =>
    if s.drain = 3 then s.done c []
    else if s.drain = 0 then (s.awaitDrained c).set R.UNP_STATUS_DRAIN 1
    else s.awaitDrained c)

/-- A FLUSH that host software requests: the open step is abandoned with code 0, unless it is held
(spec/06_progress_deadlock_drain.md R209, spec/10_seam_ports_and_collectives.md R338). -/
def State.hostFlush (s : State) : State :=
  if s.drain = 2 then s else (if s.stepOpen then s.stepFatal 0 else s).startFlush

/-- `DRAIN_FLUSH`: a FLUSH is requested (spec/06_progress_deadlock_drain.md R209, Table 6.6). -/
def execDrainFlush (tag : Nat) (s : State) : Res :=
  go (s.withDrain tag 1 fun s c => (s.awaitDrained c).hostFlush)

/-- `QUIESCE_STOP_INPUTS`: once no step is open the inputs stop (spec/06_progress_deadlock_drain.md R208). -/
def execQuiesceStopInputs (s : State) : Res :=
  if !s.halts && s.drain = 1 && !s.stepOpen then go (s.onUnpick fun u => { u with stopped := true }) else go s

/-- Are the channels of the selvedge units done: nothing is owed on a step channel or a completion channel, and no stream
holds a token. -/
def State.chansIdle (s : State) : Bool :=
  ((s.tape.chans ++ s.tape.pendChans).all fun c => c.owed.isEmpty && !c.owedEnd) && (s.seam.done.all fun d => d.owed.isEmpty)
    && (s.seam.outs.all fun o => o.packed.isEmpty) && s.seam.ins.all fun i => i.queue.isEmpty

/-- Are the memory controllers done: no request is held or waits, and no token accepted waits for its row. -/
def State.memIdle (s : State) : Bool :=
  s.mem.heldReqs.isEmpty && s.mem.heldAtoms.isEmpty && s.mem.atomWait.isEmpty && s.cxl.biasReqs.isEmpty && s.fab.came.isEmpty

/-- Are the selvedge units idle: no request held, no stream data, no instance, no gather, no sweep, no token owed, no
record on its way, nothing in the mesh (spec/06_progress_deadlock_drain.md R207,
spec/07_training_step_and_press.md Table 7.7)? -/
def State.unitsIdle (s : State) : Bool :=
  !inRange 1 5 s.phase && s.press.heldClose.isEmpty && s.memIdle && s.chansIdle && s.seam.insts.isEmpty
    && s.seam.gathers.isEmpty && s.seam.gatherWait.isEmpty && s.seam.gatherHeld.isEmpty && s.net.isEmpty
    && s.unpick.arrived.isEmpty && s.unpick.due.isEmpty

/-- Is the fabric quiescent (spec/06_progress_deadlock_drain.md R207)? -/
def State.quiescent (s : State) : Bool :=
  (s.tiles.all fun e => e.2.quiet) && s.unpick.chains.isEmpty && s.unitsIdle

/-- `QUIESCE_PROBE_ROUND`: every tile answers a probe; when the fabric is quiescent the drain is complete
(spec/06_progress_deadlock_drain.md R197, R207, Table 6.3 steps 3 and 4). -/
def execQuiesceProbeRound (s : State) : Res :=
  if s.halts || s.drain ≠ 1 || !s.unpick.stopped then go s
  else
    let q := s.quiescent
    let s := { s with tiles := s.tiles.map fun e => (e.1, e.2.clearMoved) }
    if q then go ((s.set R.UNP_STATUS_DRAIN 3).bump R.QUIESCES 1).drainedReplies else go s

/-- `UNP_DRAIN_DEADLINE`: a QUIESCE misses a bound and becomes a FLUSH (spec/06_progress_deadlock_drain.md R208, R209).
-/
def execUnpDrainDeadline (s : State) : Res :=
  if s.halts || s.drain ≠ 1 then go s else go (s.raise Code.UNP_DRAIN_DEADLINE 0xC32 0 0).startFlush

/-- A tile after a FLUSH (spec/06_progress_deadlock_drain.md Table 6.5). -/
def Tile.flushed (x : Tile) : Tile :=
  let regs := (List.range 16).foldl (fun rf r => rfSet (rfSet rf (T.RING_STAT_HEAD r) 0) (T.RING_STAT_TAIL r) 0) x.regs
  let regs := [T.TILE_DL_DL0, T.TILE_DL_DL1, T.TILE_DL_DL2, T.TILE_DL_DL3, T.TILE_STATUS_STATE].foldl
    (fun rf f => rfSet rf f 0) regs
  let y : Tile := { x with
    regs := rfSet regs T.TILE_STATUS_PC x.base
    halted := false, past := false, progWait := none, loops := [], outst := [], stall := none, queues := []
    shut0 := [], shut1 := [], shutHem0 := false, shutHem1 := false, predHem := false, predIdx := 0, predOpen := []
    entries := [], verdicts := [], fwd := [], hfaults := [], resend := [], staging := [], spillIn := [], tripped := [] }
  { y with ochs := (List.range 32).filterMap fun c =>
      if chEn x.regs c then some (c, { credits := x.get (T.OCH_CRED c), bucket := x.get (T.OCH_BURST c) }) else none }

/-- The engines after a FLUSH: streams and step channels hold nothing and their channels are whole
(spec/06_progress_deadlock_drain.md Table 6.4 step 3, spec/10_seam_ports_and_collectives.md Table 10.11). -/
def State.flushUnits (s : State) : State :=
  let chan (c : StepChan) : StepChan :=
    { c with credits := c.cred, bucket := c.burst, tagc := 0, owed := [], owedEnd := false, hem := false }
  { s with
    net := [], lane := [], fab := { arb := s.fab.arb }
    tape := { s.tape with chans := s.tape.chans.map chan, pendChans := s.tape.pendChans.map chan }
    press := { s.press with heldClose := [] }
    seam := { s.seam with
      gatherWait := [], gatherHeld := [], streams := []
      outs := s.seam.outs.map fun o => { o with packed := [] }
      ins := s.seam.ins.map fun i => { i with queue := [], credits := i.rc.cred, bucket := i.rc.burst, tagc := 0 }
      done := s.seam.done.map fun d => { d with credits := d.cred, bucket := doneBurst, tagc := 0, owed := [] } } }

/-- Basted requests held at the controllers, whose verdicts are discarded: they never act, and those behind them go on.
-/
def State.dropBasted (s : State) : State :=
  (s.mem.heldReqs.filter fun h => h.tag.isSome).foldl (fun s h => s.decideReq h false) s

/-- The tiles that have received GO switch at step 4 of a FLUSH, those with a stream epoch in quarantine once it is free
(spec/06_progress_deadlock_drain.md R210, spec/09_bobbin_streams.md Table 9.7). -/
def State.flushSwitch (s : State) : State :=
  s.tiles.foldl (fun s e => match e.2.pend with
    | some p => if s.canSwitch e.1 then s.switchTile e.1 p else s
    | none => s) s

/-- `FLUSH_DONE`: steps 3 to 5 of a FLUSH (spec/06_progress_deadlock_drain.md Table 6.4, R210). -/
def execFlushDone (s : State) : Res :=
  if s.halts || s.drain ≠ 2 then go s
  else
    let s := s.dropBasted.flushUnits
    let s := { s with tiles := s.tiles.map fun (e : Nat × Tile) => (e.1, e.2.flushed) }
    let s := s.onUnpick fun u => { u with chains := [], pages := [], refills := [], arrived := [], due := [], notices := [] }
    let s := ((s.set R.UNP_STATUS_DRAIN 3).bump R.FLUSHES 1).flushSwitch
    go s.drainedReplies

/-- `UNP_FLUSH_DEADLINE`: a FLUSH misses a bound (spec/06_progress_deadlock_drain.md R209). -/
def execUnpFlushDeadline (s : State) : Res :=
  if s.safe || s.drain ≠ 2 then go s else go (s.raise Code.UNP_FLUSH_DEADLINE 0xC32 0 0)

/-- A halted tile starts issue at its base, and no wait is tripped (spec/06_progress_deadlock_drain.md R196, R212; log entry
59). -/
def Tile.resumed (x : Tile) : Tile :=
  let x : Tile := { x with tripped := [] }
  if x.get T.TILE_STATUS_STATE = 0 && decide (0 < x.count) then
    (({ x with halted := false, past := false, loops := [] } : Tile).set T.TILE_STATUS_PC x.base).set T.TILE_STATUS_STATE 1
  else x

/-- `RESUME`: the inputs start again, and the tiles (spec/06_progress_deadlock_drain.md R212). -/
def execResume (tag : Nat) (s : State) : Res :=
  go (s.withCmd tag Op.RESUME fun s c =>
    if s.drain ≠ 3 then s.refuseState c
    else
      let s := { s with tiles := s.tiles.map fun (e : Nat × Tile) => (e.1, e.2.resumed) }
      let s := (s.set R.UNP_STATUS_DRAIN 0).onUnpick fun u => { u with stopped := false, flushed := false, sent := [], spent := [] }
      s.done c [])

end Sys2Proof.Machine
end

