-- ==== Sys2Proof/Machine/TapeUnit.lean ====
section
/-! DEFINITION. The command tape: packets, their checks, the start of commands, replies, and the tape unit's own commands
(spec/11_host_interface_and_command_tape.md R359 to R376). -/

namespace Sys2Proof.Machine

/-! ### Opcodes -/

/-- The opcodes of Thimble (spec/12_thimble_management_security.md Table 12.10). -/
def Op.TH_NEGOTIATE : Nat := 0x0100
def Op.SENSOR_READ : Nat := 0x0101
def Op.LOG_READ : Nat := 0x0102
def Op.LOG_CLEAR : Nat := 0x0103
def Op.IDENTITY : Nat := 0x0104
def Op.MEASURE : Nat := 0x0105
def Op.SHUTDOWN : Nat := 0x0110

/-- The parameter length of an opcode; none for a reserved one (spec/11_host_interface_and_command_tape.md Table 11.8,
spec/12_thimble_management_security.md Table 12.10). -/
def opLen (op : Nat) : Option Nat :=
  (kvGet? [(Op.NOP, 0), (Op.NEGOTIATE, 24), (Op.CANCEL, 8), (Op.PATTERN_LOAD, 16), (Op.PATTERN_ARM, 0), (Op.DRAIN, 8),
    (Op.RESUME, 0), (Op.STEP_OPEN, 24), (Op.CLASS, 16), (Op.MOVE, 24), (Op.BIAS, 16), (Op.DBG_READ, 32),
    (Op.DBG_WRITE, 32), (Op.TH_NEGOTIATE, 24), (Op.SENSOR_READ, 8), (Op.LOG_READ, 24), (Op.LOG_CLEAR, 8),
    (Op.IDENTITY, 0), (Op.MEASURE, 16), (Op.SHUTDOWN, 8)] op)

/-- The unit of an opcode: 0 tape unit, 1 pattern loader, 2 unpick controller, 3 press units, 4 memory, 5 Thimble
(spec/11_host_interface_and_command_tape.md Table 11.8). -/
def cmdUnit (op : Nat) : Nat :=
  if 0x100 ≤ op then 5
  else if op = Op.PATTERN_LOAD || op = Op.PATTERN_ARM then 1
  else if op = Op.DRAIN || op = Op.RESUME then 2
  else if op = Op.STEP_OPEN then 3
  else if op = Op.CLASS || op = Op.MOVE || op = Op.BIAS then 4
  else 0

/-- The reserved parameter bytes of an opcode, as offset and length (spec/11_host_interface_and_command_tape.md
Table 11.9, spec/12_thimble_management_security.md Table 12.10). -/
def opReserved (op : Nat) : List (Nat × Nat) :=
  if op = Op.NEGOTIATE then [(1, 7)]
  else if op = Op.CANCEL then [(3, 5)]
  else if op = Op.PATTERN_LOAD || op = Op.STEP_OPEN then [(12, 4)]
  else if op = Op.DRAIN || op = Op.SHUTDOWN then [(1, 7)]
  else if op = Op.CLASS || op = Op.BIAS then [(13, 3)]
  else if op = Op.DBG_READ || op = Op.DBG_WRITE then [(1, 1), (24, 8)]
  else if op = Op.TH_NEGOTIATE then [(0, 8)]
  else if op = Op.SENSOR_READ || op = Op.LOG_CLEAR then [(4, 4)]
  else if op = Op.LOG_READ then [(16, 8)]
  else if op = Op.MEASURE then [(9, 7)]
  else []

/-- Are the parameters of a debug command out of their limits (spec/11_host_interface_and_command_tape.md R367)? -/
def dbgBad (p : List Byte) : Bool :=
  let space := field p 0 1
  let len := field p 4 4
  let a := field p 8 8
  decide (1 < space) || decide (nTiles ≤ field p 2 2) || len % 4 ≠ 0 || decide (0x100000 < len)
    || (space = 1 && (decide (0x1000 < a + len) || a % 4 ≠ 0))

/-- Are the parameters illegal for the opcode (spec/11_host_interface_and_command_tape.md Table 11.9, R356, R367, R368,
spec/08_memory_system.md R278, spec/12_thimble_management_security.md Table 12.10)? -/
def paramBad (op : Nat) (p : List Byte) : Bool :=
  if op = Op.NEGOTIATE then decide (2 < field p 0 1)
  else if op = Op.PATTERN_LOAD then field p 0 8 % 64 ≠ 0
  else if op = Op.DRAIN || op = Op.SHUTDOWN then decide (1 < field p 0 1)
  else if op = Op.STEP_OPEN then
    let l := field p 16 8
    field p 6 2 ≠ 0 || (l ≠ 0xFFFFFFFFFFFFFFFF && (decide (lpEnd ≤ l) || decide (lpEnd < l + 2 * field p 8 2)))
  else if op = Op.MOVE then field p 0 8 % 64 ≠ 0 || field p 8 8 % 64 ≠ 0 || field p 16 8 % 64 ≠ 0
  else if op = Op.BIAS then
    decide (1 < field p 12 1) || field p 0 8 % mib2 ≠ 0 || decide (lpEnd < field p 0 8 + field p 8 4 * mib2)
  else if op = Op.DBG_READ || op = Op.DBG_WRITE then dbgBad p
  else if op = Op.SENSOR_READ then decide (10 < field p 2 2) || decide (139 < field p 0 2 + field p 2 2)
  else if op = Op.LOG_READ then decide (8064 < field p 4 4) || field p 8 8 % 32 ≠ 0
  else if op = Op.MEASURE then decide (7 < field p 8 1)
  else false

/-! ### Packets -/

/-- The span of a packet (spec/11_host_interface_and_command_tape.md R360). -/
def packetSpan (plen : Nat) : Nat := 64 * ceilDiv (32 + plen) 64

/-- The tape position in bytes. -/
def State.tapePos (s : State) : Nat := s.get R.TP_STATUS_POS * 64

/-- Does the tape unit take packets (spec/11_host_interface_and_command_tape.md R364, spec/14_reset_bringup_selftest.md
Table 14.4, Table 14.9 step 1)? -/
def State.takesPackets (s : State) : Bool := s.tapeState = 1 && s.rst.seq = .none

/-- The tape unit stops: no further packet is consumed, and vector 4 is raised
(spec/11_host_interface_and_command_tape.md R362). -/
def State.stopTape (s : State) : State :=
  (({ s with tape := { s.tape with torn := false } }).set R.TP_STATUS_STATE 2).vector 4

/-- Bytes of the tape read by the tape unit: none where the read fails, the fault recorded
(spec/11_host_interface_and_command_tape.md R361, R362). -/
def State.tapeRead (s : State) (off n : Nat) (e : Ecc) : State × Option (List Byte) :=
  let a := s.tapeArea.1 + off
  if s.reach a n ≠ .ok then (s.reachFault 0xC34 0 a n, none)
  else
    let r := s.load a n false e
    (r.1, if r.2.isNone then some (s.rdN a n) else none)

/-- The first fault of a consumed packet, of rows 1 to 4 of Table 11.7 (spec/11_host_interface_and_command_tape.md
R364). -/
def State.packetFault (s : State) (h : Pkt) : Option Nat :=
  if h.major ≠ s.get R.TP_VERSION_MAJOR ∨ h.minor ≠ s.get R.TP_VERSION_MINOR then some Code.TAPE_VERSION
  else if h.rsv ≠ 0 ∨ 4 ≤ h.flags ∨ h.tag = 0xFFFF then some Code.TAPE_FIELD
  else
    match opLen h.opcode with
    | none => some Code.TAPE_OPCODE
    | some n => if h.plen = n then none else some (if h.plen = 0 then Code.TAPE_PLEN_ZERO else Code.TAPE_PLEN)

/-- The fault of row 7 of Table 11.7 (spec/11_host_interface_and_command_tape.md R364). -/
def paramFault (op : Nat) (p : List Byte) : Option Nat :=
  if (opReserved op).any fun r => !zeroAt p r.1 r.2 then some Code.TAPE_PARAM
  else if op = Op.BIAS ∧ field p 8 4 = 0 then some Code.TAPE_PARAM_ZERO
  else if paramBad op p then some Code.TAPE_PARAM
  else none

/-- A consumed packet refused: the fault recorded, the refused reply stored (spec/11_host_interface_and_command_tape.md
R364, R372, spec/15_faults_and_safe_state.md Table 15.3). -/
def State.refusePacket (s : State) (h : Pkt) (code : Nat) : State :=
  let whole := (code = Code.TAPE_PARAM || code = Code.TAPE_PARAM_ZERO) && cmdUnit h.opcode = 4
  let s := (s.raiseTied code 0xC34 (if whole then h.opcode else 0) (tagArg h.tag h.epoch)).bump R.CMD_REFUSED 1
  let r : Reply := ⟨h.opcode, h.tag, h.epoch, 2, code, h.seq, [], false, bit h.flags 1⟩
  { s with tape := { s.tape with replies := s.tape.replies ++ [r] } }

/-- A consumed packet checked by Table 11.7, and its tag made live (spec/11_host_interface_and_command_tape.md R364). -/
def State.acceptPacket (s : State) (h : Pkt) (p : List Byte) : State :=
  match s.packetFault h with
  | some code => s.refusePacket h code
  | none =>
    if (s.tape.cmds.any fun c => !c.gone && c.tag = h.tag && c.epoch = h.epoch) then s.refusePacket h Code.TAPE_TAG_BUSY
    else if kvGet? s.tape.lastEpoch h.tag = some h.epoch then s.bump R.STALE_TAG 1
    else
      match paramFault h.opcode p with
      | some code => s.refusePacket h code
      | none =>
        let c : Cmd :=
          { tag := h.tag, epoch := h.epoch, opcode := h.opcode, seq := h.seq, fence := bit h.flags 0
            notify := bit h.flags 1, params := p }
        { s with tape := { s.tape with cmds := s.tape.cmds ++ [c] } }

/-- The packet at `POS` found incomplete: counted, and the torn timer started unless it runs
(spec/11_host_interface_and_command_tape.md R361, Table 11.16). -/
def State.tornPacket (s : State) : State :=
  { s with tape := { s.tape with torn := true } }.bump R.TORN_SEEN 1

/-- A complete packet consumed: `POS` and `NEXT_SEQ` move on (spec/11_host_interface_and_command_tape.md R361). -/
def State.takePacket (s : State) (h : Pkt) (p : List Byte) : State :=
  let s := { s with tape := { s.tape with torn := false } }.bump R.PACKETS 1
  let next := s.tapePos + packetSpan h.plen
  let pos := if s.tapeArea.2 < next + 4096 then 0 else next
  let s := s.acceptPacket h p
  s.setAll [(R.TP_STATUS_POS, pos / 64), (R.TP_STATUS_NEXT_SEQ, (s.get R.TP_STATUS_NEXT_SEQ + 1) % 2 ^ 32)]

/-- Is the sequence number of a header the expected one or a later one (spec/00_scope.md R22)? -/
def State.seqDue (s : State) (q : Nat) : Bool :=
  q = s.get R.TP_STATUS_NEXT_SEQ || serialLater 32 q (s.get R.TP_STATUS_NEXT_SEQ)

/-- The packet at `POS` examined for a notice of bytes `[off, off + n)` of the tape
(spec/11_host_interface_and_command_tape.md R361). -/
def State.examine (s : State) (off n : Nat) (e : Ecc) : State :=
  let pos := s.tapePos
  match s.tapeRead pos 32 e with
  | (s, none) => if overlaps off n pos 32 then s.stopTape else s
  | (s, some b) =>
    let h := parsePkt b
    let whole := h.magic = 0x45504154 && decide (h.plen ≤ 4064)
    if !overlaps off n pos (if whole then packetSpan h.plen else 32) then s
    else if h.magic ≠ 0x45504154 || !s.seqDue h.seq then s
    else if h.seq ≠ s.get R.TP_STATUS_NEXT_SEQ then (s.raise Code.TAPE_SEQ 0xC34 0 0).stopTape
    else if 4064 < h.plen then s.tornPacket
    else
      match (if h.plen = 0 then (s, some []) else s.tapeRead (pos + 32) h.plen .ok) with
      | (s, none) => s.stopTape
      | (s, some p) => if crc32 (b.take 28 ++ p) = h.crc then s.takePacket h p else s.tornPacket

/-- A notice kept while no packet was taken acts when packets are taken again: the packet at `POS` is examined
(spec/11_host_interface_and_command_tape.md R361). -/
def State.resumeTape (s : State) : State :=
  if s.tape.kept && s.takesPackets then
    { s with tape := { s.tape with kept := false } }.examine s.tapePos 1 .ok
  else s

/-- `TAPE_NOTICE`: a notice of a controller reaches the tape unit, which examines the packet at `POS` or keeps the notice
(spec/11_host_interface_and_command_tape.md R361). -/
def execTapeNotice (off len : Nat) (e : Ecc) (s : State) : Res :=
  if s.tape.notices.contains (off, len) then
    let s := { s with tape := { s.tape with notices := s.tape.notices.erase (off, len) } }
    if s.takesPackets then go (s.examine off len e) else go { s with tape := { s.tape with kept := true } }
  else go s

/-- `TORN_TIMEOUT`: a packet stays incomplete beyond `TORN_DL` (spec/11_host_interface_and_command_tape.md R362). -/
def execTornTimeout (s : State) : Res :=
  if s.tape.torn && s.takesPackets then go (s.raise Code.TAPE_TORN 0xC34 0 0).stopTape else go s

/-! ### Starting a command -/

/-- Has a command started? A deferred `STEP_OPEN` has not (spec/11_host_interface_and_command_tape.md R365). -/
def State.begun (s : State) (c : Cmd) : Bool :=
  c.started && !(s.press.deferred = some (c.tag, c.epoch) && c.opcode = Op.STEP_OPEN && !c.taken)

/-- The commands before the first unstarted one of a tag, and it. -/
def splitCmd (tag : Nat) : List Cmd → Option (List Cmd × Cmd)
  | [] => none
  | c :: l =>
    if c.tag = tag && !c.started && !c.gone then some ([], c)
    else (splitCmd tag l).map fun r => (c :: r.1, r.2)

/-- May a command start after those before it (spec/11_host_interface_and_command_tape.md R365,
spec/12_thimble_management_security.md R406)? -/
def State.mayStart (s : State) (before : List Cmd) (c : Cmd) : Bool :=
  (before.all fun d => cmdUnit d.opcode ≠ cmdUnit c.opcode || s.begun d)
    && (!c.fence || before.all fun d => d.gone)
    && !(cmdUnit c.opcode = 5 && s.th.restarting)

/-- `COMMAND_START`: the unit of a command takes it up (spec/11_host_interface_and_command_tape.md R365). -/
def execCommandStart (tag : Nat) (s : State) : Res :=
  if s.safe then go s
  else
    match splitCmd tag s.tape.cmds with
    | none => go s
    | some (before, c) =>
      if s.mayStart before c then
        go { s with tape := { s.tape with cmds := s.tape.cmds.map fun d => if d = c then { d with started := true } else d } }
      else go s

/-! ### Replies -/

/-- Is there space for the next reply, by the `HOST_RSEQ` read (spec/11_host_interface_and_command_tape.md R372)? -/
def State.replySpace (s : State) (hostRseq : Nat) : Bool :=
  decide ((s.get R.TP_RSEQ_RSEQ + 2 ^ 32 - hostRseq) % 2 ^ 32 + 1 < s.get R.TP_RSIZE_RSIZE)

/-- The host address of reply `r` (spec/11_host_interface_and_command_tape.md R372). -/
def State.replyAddr (s : State) (r : Nat) : Nat :=
  s.get R.TP_REPLY_RBASE * 64 + 64 * (1 + r % (s.get R.TP_RSIZE_RSIZE - 1))

/-- A tag retired by the final reply written (spec/11_host_interface_and_command_tape.md R364). -/
def Tape.retire (t : Tape) (r : Reply) : Tape :=
  if r.live then
    { t with
      cmds := t.cmds.filter fun c => c.gone || c.tag ≠ r.tag || c.epoch ≠ r.epoch
      lastEpoch := kvSet t.lastEpoch r.tag r.epoch }
  else t

/-- A reply written as one line, its tag retired, its vectors raised (spec/11_host_interface_and_command_tape.md R364,
R372 to R374, R376). -/
def State.writeReply (s : State) (r : Reply) (rest : List Reply) : State :=
  let n := s.get R.TP_RSEQ_RSEQ
  let b := replyRecord n r
  let a := s.replyAddr n
  let s : State := { s with tape := { s.tape with replies := rest }.retire r }
  let s := ((s.busWrite a b).set R.TP_RSEQ_RSEQ ((n + 1) % 2 ^ 32)).bump R.REPLIES 1
  let s := if r.notify then s.vector 1 else s
  if r.kind = 2 || r.kind = 3 || r.kind = 5 then s.vector 2 else s

/-- Whether replies wait for space after the control line was read; an episode ends when none does
(spec/11_host_interface_and_command_tape.md R372). -/
def State.noteWait (s : State) (hostRseq : Nat) : State :=
  let w := !s.tape.replies.isEmpty && !s.replySpace hostRseq
  { s with tape := { s.tape with waiting := w, episode := w && s.tape.episode } }

/-- `REPLY_WRITE`: the oldest waiting reply is written once space exists, and its tag retires; `hostRseq` is what the
control line holds (spec/11_host_interface_and_command_tape.md R372 to R374). -/
def execReplyWrite (hostRseq : W32) (s : State) : Res :=
  if !s.flag R.TP_CFG_EN || !s.cxl.linkUp then go s
  else
    match s.tape.replies with
    | [] => go s
    | r :: rest =>
      if s.replySpace hostRseq.toNat then go ((s.writeReply r rest).noteWait hostRseq.toNat).resumeTape
      else go (s.noteWait hostRseq.toNat)

/-- `REPLY_SPACE_POLL`: while the reply tape is full, the control line is read again
(spec/11_host_interface_and_command_tape.md R372). -/
def execReplySpacePoll (hostRseq : W32) (s : State) : Res :=
  if s.flag R.TP_CFG_EN && s.cxl.linkUp && s.tape.waiting then
    go ((s.busRead (s.get R.TP_REPLY_RBASE * 64) 64).noteWait hostRseq.toNat)
  else go s

/-- `TAPE_REPLY_DEADLINE`: a reply has waited `RPL_DL`; the fault and vector 3 come once per episode
(spec/11_host_interface_and_command_tape.md R372). -/
def execTapeReplyDeadline (s : State) : Res :=
  if s.flag R.TP_CFG_EN && s.tape.waiting && !s.tape.episode then
    let s := s.raise Code.TAPE_REPLY_DEADLINE 0xC34 0 0
    go ({ s with tape := { s.tape with episode := true } }.vector 3)
  else go s

/-! ### The tape unit's own commands -/

/-- `TAPE_NOP` (spec/11_host_interface_and_command_tape.md Table 11.8). -/
def execTapeNop (tag : Nat) (s : State) : Res := go (s.withCmd tag Op.NOP fun s c => s.done c [])

/-- The version that a negotiation settles: the highest major that both list, with the lower of the two minors; none
when no major is common (spec/10_seam_ports_and_collectives.md R320, spec/11_host_interface_and_command_tape.md R375). -/
def settleVer (mine theirs : List Byte) : Option (Nat × Nat) :=
  ((List.range 16).reverse.find? fun k => field mine k 1 ≠ 0xFF && field theirs k 1 ≠ 0xFF).map fun k =>
    (k, min (field mine k 1) (field theirs k 1))

/-- A list of minors that lists one major only. -/
def oneMajor (major minor : Nat) : List Byte :=
  (List.range 16).map fun k => if k = major then BitVec.ofNat 8 minor else 0xFF

/-- `NEGOTIATE` (spec/11_host_interface_and_command_tape.md R375). -/
def execNegotiate (tag : Nat) (s : State) : Res :=
  go (s.withCmd tag Op.NEGOTIATE fun s c =>
    let i := c.p 0 1
    if i ≠ 0 && s.plState ≠ 0 then s.refuseState c
    else
      match settleVer (oneMajor 1 0) (slice c.params 8 16) with
      | none => s.refuseTag c Code.TAPE_VERSION 0
      | some (ma, mi) =>
        let s := if i = 0 then s.setAll [(R.TP_VERSION_MAJOR, ma), (R.TP_VERSION_MINOR, mi)]
          else if i = 1 then s.setAll [(R.PL_VERSION_MAJOR, ma), (R.PL_VERSION_MINOR, mi)]
          else s.setAll [(R.TP_VERSION_BOB_MAJOR, ma), (R.TP_VERSION_BOB_MINOR, mi)]
        s.done c (leBytes 1 ma ++ leBytes 1 mi))

/-- A deferred `STEP_OPEN` forgotten. -/
def State.undefer (s : State) (c : Cmd) : State :=
  if s.press.deferred = some (c.tag, c.epoch) then { s with press := { s.press with deferred := none } } else s

/-- What `CANCEL` does to the live command that it names, and whether the command was cancelled
(spec/11_host_interface_and_command_tape.md R370). -/
def State.cancelCmd (s : State) (d : Cmd) : State × Bool :=
  let l := s.loader
  if !s.begun d || (d.opcode = Op.PATTERN_LOAD && !d.taken) then ((s.undefer d).reply d.tag d.epoch 4 0 [], true)
  else if d.opcode = Op.PATTERN_LOAD && l.live && l.tag = d.tag && l.epoch = d.epoch && !l.goSent && !l.discarding then
    (s.cancelLoad, true)
  else (s, false)

/-- `CANCEL` (spec/11_host_interface_and_command_tape.md R370). -/
def execCancel (tag : Nat) (s : State) : Res :=
  go (s.withCmd tag Op.CANCEL fun s c =>
    match s.tape.find (c.p 0 2) (c.p 2 1) with
    | none => s.done c (leBytes 1 1)
    | some d =>
      let r := s.cancelCmd d
      r.1.done c (leBytes 1 (if r.2 then 0 else 1)))

/-- `BIAS`: a range of pages takes the host or the device bias; a flip to host bias waits for the fabric requests
accepted before (spec/11_host_interface_and_command_tape.md R355, R356). -/
def execBias (tag : Nat) (s : State) : Res :=
  match s.cmdFor tag Op.BIAS with
  | none => go s
  | some c =>
    let ps := pagesOf (c.p 0 8) (c.p 8 4)
    if c.p 12 1 = 0 && s.linkMode = 1 && s.pagesBusy ps then go s
    else
      go (s.withCmd tag Op.BIAS fun s c =>
        if s.cxl.mode = 2 then s.refuseState c
        else
          (s.setBias c).done c [])

/-! ### Debug commands -/

/-- The runs of a range that one request each reaches: within a storage granule or a lining group. The last argument
bounds the recursion. -/
def State.dbgRuns (s : State) (a n : Nat) : Nat → List (Nat × Nat)
  | 0 => []
  | k + 1 =>
    if n = 0 then []
    else
      let m :=
        if a < lpEnd then
          match storOf s.mem.exts a with
          | some x => min n (dataPer (s.granCls (x / 256)) - x % 256)
          | none => n
        else min n (0x100000 - a % 0x100000)
      (a, m) :: s.dbgRuns (a + m) (n - m) k

/-- A read of fabric addresses by the tape unit: the bytes, or the code of the fault that aborts the command. -/
def State.dbgFetch (s : State) (l : List (Nat × Nat)) (e : Ecc) : State × (Nat ⊕ List Byte) :=
  l.foldl (fun r x =>
    match r.2 with
    | .inl _ => r
    | .inr b =>
      match r.1.readMem 0xC34 0 x.1 x.2 true e with
      | (s, .data d) => (s, .inr (b ++ d))
      | (s, .refused code) => (s.tieLast code, .inl code)) (s, .inr [])

/-- A write of fabric addresses by the tape unit: the code of the fault that aborts the command, if any. -/
def State.dbgStore (s : State) (a : Nat) (b : List Byte) (l : List (Nat × Nat)) : State × Option Nat :=
  l.foldl (fun r x =>
    match r.2 with
    | some _ => r
    | none =>
      match r.1.writeMem 0xC34 0 x.1 ((b.drop (x.1 - a)).take x.2) true .ok with
      | (s, .data _) => (s, none)
      | (s, .refused code) => (s.tieLast code, some code)) (s, none)

/-- Does a range meet the scratchpad window? -/
def inSpadWin (a n : Nat) : Bool := overlaps a n spadBase (spadEnd - spadBase)

/-- Does a range lie in it? -/
def allSpadWin (a n : Nat) : Bool := decide (spadBase ≤ a) && decide (a + n ≤ spadEnd)

/-- The bytes of the scratchpad window. -/
def State.spadWinRead (s : State) (a n : Nat) : List Byte :=
  (List.range n).map fun k =>
    let o := a + k - spadBase
    memRead (s.tile (o / 0x40000)).spad (o % 0x40000)

/-- Bytes written through the scratchpad window. -/
def State.spadWinWrite (s : State) (a : Nat) : List Byte → State
  | [] => s
  | b :: t =>
    let o := a - spadBase
    (s.onTile (o / 0x40000) fun x => { x with spad := memWrite x.spad (o % 0x40000) b }).spadWinWrite (a + 1) t

/-- 32-bit words of a tile's configuration space read in order. -/
def State.cfgWords (s : State) (t off : Nat) : Nat → State × List Byte
  | 0 => (s, [])
  | k + 1 =>
    let r := s.readWord (some t) off
    let q := r.2.cfgWords t (off + 4) k
    (q.1, leBytes 4 r.1 ++ q.2)

/-- A 32-bit word of a tile's configuration space written: a commit, bits cleared, or fields tacked
(spec/11_host_interface_and_command_tape.md R367, spec/05_patterns_and_reconfiguration.md R186, R189). -/
def State.cfgPut (s : State) (t off v : Nat) : State :=
  if off = 0x18 then (if bit v 0 then s.commitTile t else s)
  else
    match regCover (tileSpace + off) with
    | some (o, d) =>
      if d.flds.any fun f => f.ty = .w1c then s.clearW1c (some t) o d v 0
      else s.writeReg (some t) o d (8 * (tileSpace + off - o)) 32 v
    | none => s

/-- Words of a tile's configuration space written in order. -/
def State.cfgPuts (s : State) (t off : Nat) : List W32 → State
  | [] => s
  | w :: l => (s.cfgPut t off w.toNat).cfgPuts t (off + 4) l

/-- A command aborted under a code whose fault is recorded. -/
def State.abortDbg (s : State) (c : Cmd) (code : Nat) : State := s.reply c.tag c.epoch 3 code []

/-- `DBG_READ`: fabric or tile configuration data copied to host memory; the reply follows the last write observed. Data
of the host range come from outside: free values (spec/11_host_interface_and_command_tape.md R367, R374). -/
def execDbgRead (tag : Nat) (e : Ecc) (s : State) : Res :=
  go (s.withCmd tag Op.DBG_READ fun s c =>
    let n := c.p 4 4
    let a := c.p 8 8
    let host := c.p 16 8
    if n = 0 then s.done c []
    else if c.p 0 1 = 1 then
      let r := s.cfgWords (c.p 2 2) a (n / 4)
      r.1.cmdToHost c host r.2 []
    else if inSpadWin a n && !s.debugOk then s.refuseTag c Code.TAPE_DEBUG_LOCKED 0
    else if allSpadWin a n then s.cmdToHost c host (s.spadWinRead a n) []
    else if s.inHost a n then
      let r := s.freeBytes n
      r.2.cmdToHost c host r.1 []
    else
      match s.dbgFetch (s.dbgRuns a n (n + 1)) e with
      | (s, .inl code) => s.abortDbg c code
      | (s, .inr b) => s.cmdToHost c host b [])

/-- `DBG_WRITE`: host data copied into fabric memory or tile configuration space when debug access is permitted; `data` is
what the host answers (spec/11_host_interface_and_command_tape.md R367). -/
def execDbgWrite (tag : Nat) (data : List Byte) (s : State) : Res :=
  go (s.withCmd tag Op.DBG_WRITE fun s c =>
    let n := c.p 4 4
    let a := c.p 8 8
    let b := padTo n data
    if n = 0 then s.done c []
    else if !s.debugOk then s.refuseTag c Code.TAPE_DEBUG_LOCKED 0
    else if !s.cxl.linkUp then s.abortCmd c.tag c.epoch Code.HOST_UNREACH
    else if c.p 0 1 = 1 then (s.cfgPuts (c.p 2 2) a (bytesWords b)).done c []
    else if allSpadWin a n then (s.spadWinWrite a b).done c []
    else if s.inHost a n then s.cmdToHost c (s.hostPhys a) b []
    else
      match s.dbgStore a b (s.dbgRuns a n (n + 1)) with
      | (s, some code) => s.abortDbg c code
      | (s, none) => s.done c [])

end Sys2Proof.Machine
end

