-- ==== Sys2Proof/Machine/Thimble.lean ====
section
/-! DEFINITION. Thimble: the boot, its tape commands, shutdown and the finishing test, sensors, the event log, the watchdog
(spec/12_thimble_management_security.md R384 to R411, spec/14_reset_bringup_selftest.md R457 to R459). Layouts of the DMTF
standards: log entry 17. -/

namespace Sys2Proof.Machine

/-! ### The firmware image -/

/-- A byte of the image region of the flash. -/
def State.imgByte (s : State) (k : Nat) : Byte :=
  match s.th.flash with
  | none => Config.flashByte k
  | some m => if k < s.th.flashLen then memRead m k else Config.erasedByte k

/-- Bytes of the image region. -/
def State.imgBytes (s : State) (off n : Nat) : List Byte := (List.range n).map fun k => s.imgByte (off + k)

/-- `GC_REV` [15:0]. -/
def State.stepping (s : State) : Nat := s.get R.GC_REV_STEP_LETTER * 256 + s.get R.GC_REV_STEP_NUM

/-- Is a key slot usable (spec/12_thimble_management_security.md R385)? -/
def State.slotUsable (s : State) (k : Nat) : Bool :=
  decide (k < 4) && !s.th.revoked.contains k && decide (s.get R.RST_OPT_KEY_INDEX ≤ k)

/-- Is row 1 of Table 12.3 met by a header (spec/12_thimble_management_security.md R386, Table 12.2)? -/
def State.imageOk (s : State) (h : List Byte) : Bool :=
  let len := field h 8 4
  field h 0 4 = 0x424D4854 && field h 4 2 = 1 && len % 4096 = 0 && inRange 8192 (8 * 2 ^ 20) len && zeroAt h 0x18 104
    && zeroAt h 0x204 124 && (field h 0xE 2 = 0 || field h 0xE 2 = s.stepping)

/-- Rows 1 to 3 of Table 12.3 on a header: the fault of the first that fails (spec/12_thimble_management_security.md
R386). -/
def State.headerFault (s : State) (h : List Byte) : Option Nat :=
  let k := field h 6 1
  if !s.imageOk h then some Code.TH_BOOT_IMAGE
  else if !s.slotUsable k || Config.keyDigest k ≠ beNat (sha256 (slice h 0x80 388)) then some Code.TH_BOOT_KEY
  else if field h 7 1 < s.th.rollback then some Code.TH_BOOT_ROLLBACK
  else none

/-- What the signature of the image in flash covers (spec/12_thimble_management_security.md Table 12.2). -/
def State.imgSigned (s : State) : List Byte :=
  let len := leNat (s.imgBytes 8 4)
  s.imgBytes 0 0x280 ++ s.imgBytes 0x400 (len - 0x400)

/-- Table 12.3 on the image in flash (spec/12_thimble_management_security.md R386). -/
def State.imageFault (s : State) : Option Nat :=
  let h := s.imgBytes 0 1024
  match s.headerFault h with
  | some c => some c
  | none =>
    if rsaValid (slice h 0x80 384) (slice h 0x200 4) (slice h 0x280 384) s.imgSigned then none else some Code.TH_BOOT_IMAGE

/-! ### The boot -/

/-- The measurements formed at boot, by index from 1; measurement 5 is formed when it is read
(spec/12_thimble_management_security.md R396, Table 12.7). -/
def State.formMeas (s : State) (svn version : Nat) : List (List Byte) :=
  let t := s.th
  [beBytes 32 Config.romDigest, sha256 s.imgSigned, leBytes 1 svn ++ leBytes 1 t.rollback,
    beBytes 32 (Config.optDigest s.optBytes [t.rollback, t.keyIndex, b2n t.sealed, b2n t.policyLock]), [],
    beBytes 32 (Config.hwDigest t.revoked), leBytes 4 version]

/-- The firmware started from the image in flash; version 1.0 of its interface is in force until `TH_NEGOTIATE`
completes (spec/12_thimble_management_security.md R386, Table 12.4, spec/00_scope.md R23). -/
def State.runImage (s : State) : State :=
  let h := s.imgBytes 0 1024
  let ma := field h 0xD 1
  let mi := field h 0xC 1
  let s := s.setAll [(R.TH_VERSION_IF_MAJOR, 1), (R.TH_VERSION_IF_MINOR, 0), (R.TH_VERSION_FW_SVN, field h 7 1),
    (R.TH_STATUS_KEY_IDX, field h 6 1), (R.TH_STATUS_BOOT, 1)]
  { s with
    th := { s.th with
      imgMajor := ma, imgMinor := mi, fwVersion := field h 0x10 4, meas := s.formMeas (field h 7 1) (field h 0x10 4)
      advanced := false }
    rst := { s.rst with fwRunning := true } }

/-- ROM recovery (spec/12_thimble_management_security.md R389, spec/14_reset_bringup_selftest.md R452). -/
def State.recover (s : State) : State :=
  let s := s.setAll [(R.TH_STATUS_BOOT, 2), (R.GC_STATE_STATE, 3)]
  { s with rst := { s.rst with seq := .none } }.releaseOrders

/-- `ROM_BOOT`: on release of the always-on domain the ROM checks the image and starts it, or enters ROM recovery
(spec/12_thimble_management_security.md R386, R389). -/
def execRomBoot (s : State) : Res :=
  if !s.pins.vaux || s.get R.TH_STATUS_BOOT ≠ 0 then go s
  else if s.bootSrc = 1 || s.th.imgInvalid then go s.recover
  else
    match s.imageFault with
    | some code => go (s.raise code thUnit 0 0).recover
    | none => go s.runImage.releaseOrders

/-- `BOOT_DEADLINE`: a bound of Table 12.4 expires (spec/12_thimble_management_security.md R387). -/
def execBootDeadline (s : State) : Res :=
  if !s.pins.vaux || s.get R.TH_STATUS_BOOT ≠ 0 then go s else go (s.raise Code.TH_BOOT_IMAGE thUnit 0 0).recover

/-- Is the firmware running and serving (spec/12_thimble_management_security.md R409)? -/
def State.fwServes (s : State) : Bool := s.rst.fwRunning && !s.th.restarting

/-- Vector 5 for one of its causes (spec/12_thimble_management_security.md Table 12.12). -/
def State.thEvent (s : State) (k : Nat) : State := if bit (s.get R.TH_CFG_EVT_MASK) k then s.vector 5 else s

/-- A message sent unprompted; over SMBus the alert is asserted (spec/12_thimble_management_security.md R398,
spec/16_module_connections.md R487). -/
def State.sendMgmt (s : State) (vdm : Bool) (b : List Byte) : State :=
  let s := s.emit (.mgmt 2 b)
  if vdm then s else { s with th := { s.th with alert := true } }

/-! ### Tape commands -/

/-- A Thimble command's row: it waits while Thimble restarts (spec/12_thimble_management_security.md R409). -/
def State.withTh (s : State) (tag op : Nat) (k : State → Cmd → State) : State :=
  if s.fwServes then s.withCmd tag op k else s

/-- `TH_NEGOTIATE` (spec/12_thimble_management_security.md Table 12.10). -/
def execThNegotiate (tag : Nat) (s : State) : Res :=
  go (s.withTh tag Op.TH_NEGOTIATE fun s c =>
    match settleVer (oneMajor s.th.imgMajor s.th.imgMinor) (slice c.params 8 16) with
    | none => s.refuseTag c Code.TAPE_VERSION 0
    | some (ma, mi) =>
      (s.setAll [(R.TH_VERSION_IF_MAJOR, ma), (R.TH_VERSION_IF_MINOR, mi)]).done c (leBytes 1 ma ++ leBytes 1 mi))

/-- A sensor register as a word (spec/12_thimble_management_security.md Table 12.9). -/
def State.sensorWord (s : State) (k : Nat) : Nat :=
  s.get (R.TH_SENSOR_VALID k) * 2 ^ 31 + s.get (R.TH_SENSOR_AGE k) * 2 ^ 24 + s.get (R.TH_SENSOR_VALUE k)

/-- `SENSOR_READ` (spec/12_thimble_management_security.md Table 12.10). -/
def execSensorRead (tag : Nat) (s : State) : Res :=
  go (s.withTh tag Op.SENSOR_READ fun s c =>
    s.done c ((List.range (c.p 2 2)).flatMap fun k => leBytes 4 (s.sensorWord (c.p 0 2 + k))))

/-- The retained entries from a number onward, at most `n` (spec/12_thimble_management_security.md R404). -/
def State.logFrom (s : State) (from_ n : Nat) : List (Nat × List Byte) :=
  (s.th.log.filter fun e => e.1 = from_ || serialLater 32 e.1 from_).take n

/-- `LOG_READ`; the first number written, when nothing is, is a free value (spec/12_thimble_management_security.md
Table 12.10; log entry 22). -/
def execLogRead (tag : Nat) (s : State) : Res :=
  go (s.withTh tag Op.LOG_READ fun s c =>
    let from_ := c.p 0 4
    let l := s.logFrom from_ (c.p 4 4)
    match l with
    | [] =>
      let f := s.freeBytes 4
      f.2.done c (f.1 ++ leBytes 4 0 ++ leBytes 4 from_)
    | e :: _ =>
      s.cmdToHost c (c.p 8 8) (l.flatMap Prod.snd)
        (leBytes 4 e.1 ++ leBytes 4 l.length ++ leBytes 4 ((e.1 + l.length) % 2 ^ 32)))

/-- The log without the whole sectors whose entries all lie before a number; the first argument bounds the sectors. -/
def dropSectors (upto : Nat) : Nat → List (Nat × List Byte) → List (Nat × List Byte)
  | 0, l => l
  | k + 1, l =>
    if decide (126 ≤ l.length) && (l.take 126).all fun e => serialLater 32 upto e.1 then dropSectors upto k (l.drop 126) else l

/-- `LOG_CLEAR` (spec/12_thimble_management_security.md Table 12.10). -/
def execLogClear (tag : Nat) (s : State) : Res :=
  go (s.withTh tag Op.LOG_CLEAR fun s c =>
    let s := { s with th := { s.th with log := dropSectors (c.p 0 4) 64 s.th.log } }
    s.done c (leBytes 4 s.th.oldest))

/-- `IDENTITY` (spec/12_thimble_management_security.md Table 12.10). -/
def execIdentity (tag : Nat) (s : State) : Res :=
  go (s.withTh tag Op.IDENTITY fun s c =>
    s.done c (leBytes 8 Config.serial.toNat ++ leBytes 2 s.stepping ++ leBytes 1 (s.get R.TH_VERSION_IF_MAJOR)
      ++ leBytes 1 (s.get R.TH_VERSION_IF_MINOR) ++ leBytes 4 s.th.fwVersion ++ leBytes 1 (s.get R.TH_VERSION_FW_SVN)
      ++ leBytes 1 (s.get R.RST_OPT_KEY_INDEX) ++ leBytes 1 s.th.debug ++ leBytes 1 (s.get R.TH_STATUS_BOOT)))

/-- The value of a measurement (spec/12_thimble_management_security.md Table 12.7). -/
def State.measValue (s : State) (i : Nat) : List Byte := if i = 5 then leBytes 1 s.th.debug else s.th.meas.getD (i - 1) []

/-- The DMTF value type of a measurement, bit 7 set for a raw value (spec/12_thimble_management_security.md
Table 12.7). -/
def measType (i : Nat) : Nat := [0x00, 0x01, 0x87, 0x03, 0x85, 0x02, 0x86].getD (i - 1) 0

/-- A measurement block (spec/12_thimble_management_security.md R396; log entry 17). -/
def State.measBlock (s : State) (i : Nat) : List Byte :=
  let v := s.measValue i
  leBytes 1 i ++ leBytes 1 1 ++ leBytes 2 (v.length + 3) ++ leBytes 1 (measType i) ++ leBytes 2 v.length ++ v

/-- The blocks that an index names, 0 naming all. -/
def State.measBlocks (s : State) (i : Nat) : List Byte :=
  if i = 0 then (List.range 7).flatMap fun k => s.measBlock (k + 1) else s.measBlock i

/-- `MEASURE` (spec/12_thimble_management_security.md Table 12.10). -/
def execMeasure (tag : Nat) (s : State) : Res :=
  go (s.withTh tag Op.MEASURE fun s c =>
    let b := s.measBlocks (c.p 8 1)
    s.cmdToHost c (c.p 0 8) b (leBytes 4 b.length ++ sha256 b))

/-- `TH_COMMAND_TIMEOUT`: a Thimble command has not started within 1,000,000 reference cycles of a restart
(spec/12_thimble_management_security.md R406). -/
def execThCommandTimeout (tag : Nat) (s : State) : Res :=
  match s.tape.cmds.find? fun c => c.tag = tag && cmdUnit c.opcode = 5 && !c.started && !c.gone && !c.replied with
  | some c => if s.th.restarting then go (s.reply c.tag c.epoch 3 Code.TH_WDOG []) else go s
  | none => go s

/-! ### Shutdown -/

/-- The final reply of a shutdown (spec/14_reset_bringup_selftest.md Table 14.9 step 6). -/
def State.shutReply (s : State) (tag epoch : Nat) : State :=
  let s := { s with rst := { s.rst with testing := false, shut := 3 } }
  s.reply tag epoch 1 0 []

/-- Every seam link taken down for a shutdown. -/
def State.linksOff (s : State) : State :=
  (List.range 8).foldl (fun s p => if s.link p = 0 then s else (s.clearPort p).setLink p 0) s

/-- The step of Table 14.9 that a shutdown stands at, run when its condition holds
(spec/14_reset_bringup_selftest.md R457). -/
def State.advanceShutdown (s : State) : State :=
  match s.rst.seq with
  | .shutdown test tag ep =>
    if s.rst.shut = 0 then
      if s.stepOpen && !s.verdictSent then s.abandonStep 0
      else if s.phase = 0 then { s.startFlush with rst := { s.rst with shut := 1 } }
      else s
    else if s.rst.shut = 1 then
      if s.drain ≠ 3 then s
      else
        let s := s.linksOff
        if test then
          let s := { s with rst := { s.rst with testing := true, shut := 2 } }
          s.set R.GC_STATE_MEM_READY 0
        else s.shutReply tag ep
    else if s.rst.shut = 3 && (s.tape.cmds.all fun c => c.gone || c.tag ≠ tag || c.epoch ≠ ep) then s.removeRails
    else s
  | _ => s

/-- `SHUTDOWN` taken up: the tape unit takes no further packet, inputs stop, and an open step before its verdict is
abandoned (spec/14_reset_bringup_selftest.md Table 14.9 steps 1 and 2). -/
def State.shutdown (s : State) (tag : Nat) (test : Bool) : State :=
  match s.cmdFor tag Op.SHUTDOWN with
  | none => s
  | some c =>
    if s.rst.seq ≠ .none || c.p 0 1 ≠ b2n (!test) then s
    else
      s.withTh tag Op.SHUTDOWN fun s c =>
        { s with
          rst := { s.rst with seq := .shutdown test c.tag c.epoch, shut := 0 }
          unpick := { s.unpick with stopped := true } }.advanceShutdown

/-- `SHUTDOWN` with `MODE` 0 (spec/14_reset_bringup_selftest.md R457). -/
def execShutdownWithTest (tag : Nat) (s : State) : Res := go (s.shutdown tag true)

/-- `SHUTDOWN` with `MODE` 1 (spec/14_reset_bringup_selftest.md R457). -/
def execShutdownWithoutTest (tag : Nat) (s : State) : Res := go (s.shutdown tag false)

/-- A record that the finishing test adds (spec/14_reset_bringup_selftest.md R458, R459). -/
def State.addFound (s : State) (r : RepRec) : State :=
  let s := s.addRepair { r with source := 1, state := 0 }
  if inRange 1 6 r.kind then s.rstFault Code.RST_FT_FAIL 0 else s

/-- `FINISHING_TEST_DONE`: repair records and `FT_STATUS` are written, and the shutdown goes on
(spec/14_reset_bringup_selftest.md R457 to R459, Table 14.13). -/
def execFinishingTestDone (found : List RepRec) (analog : Nat) (s : State) : Res :=
  match s.rst.seq with
  | .shutdown _ tag ep =>
    if !s.rst.testing then go s
    else
      let before := s.th.repairs.length
      let l := found.filter fun r => inRange 1 6 r.kind || r.kind = 0x10
      let s := l.foldl State.addFound s
      let a := analog % 32
      let s := (List.range 5).foldl (fun s k => if bit a k then s.rstFault Code.RST_FT_ANALOG 0 else s) s
      let s := s.setAll [(R.FT_STATUS_FAILS, s.th.repairs.length - before), (R.FT_STATUS_ANALOG, a),
        (R.FT_STATUS_RAN, 1), (R.FT_STATUS_PASS, b2n (l.isEmpty && a = 0)), (R.FT_STATUS_TIMEOUT, 0)]
      go (s.shutReply tag ep)
  | _ => go s

/-- `RST_FT_DEADLINE`: the finishing test misses its bound, which is recorded, and the shutdown goes on
(spec/14_reset_bringup_selftest.md R457, Table 14.14). -/
def execRstFtDeadline (s : State) : Res :=
  match s.rst.seq with
  | .shutdown _ tag ep =>
    if !s.rst.testing then go s
    else
      let s := s.rstFault Code.RST_FT_DEADLINE 0
      let s := s.setAll [(R.FT_STATUS_FAILS, 0), (R.FT_STATUS_ANALOG, 0), (R.FT_STATUS_RAN, 1), (R.FT_STATUS_PASS, 0),
        (R.FT_STATUS_TIMEOUT, 1)]
      go (s.shutReply tag ep)
  | _ => go s

/-! ### Sensors -/

/-- The upper thresholds of a temperature sensor, in 1/16 °C: warning, critical, fatal
(spec/13_panels_clocks_power.md Table 13.6). -/
def State.thresholds (s : State) (k : Nat) : List Int :=
  if k < 36 then [16 * (s.get R.PWR_CFG_T_THROTTLE : Int), 16 * 105, 16 * 115]
  else if inRange 36 59 k then [16 * 85, 16 * 95, 16 * 105]
  else if k = 138 then [16 * 100, 16 * 115, 16 * 125]
  else []

/-- The place of a 24-bit signed reading in `VALUE`. -/
def sensorValue (v : Int) : Nat := (BitVec.ofInt 24 v).toNat

/-- A threshold of a sensor crossed, in either direction: reported to the receiver, and by vector 5
(spec/12_thimble_management_security.md R403). -/
def State.crossing (s : State) (k level : Nat) (v : Int) : State :=
  let thr := (s.thresholds k).getD level 0
  let was := s.th.above.contains (k, level)
  let is : Bool := decide (thr ≤ v)
  if was = is then s
  else
    let l := if is then (k, level) :: s.th.above else s.th.above.erase (k, level)
    let s := { s with th := { s.th with above := l } }
    let s := match s.th.receiver with
      | some (vdm, _) =>
        if s.th.sensorOff.contains k then s
        else s.sendMgmt vdm (leBytes 2 (k + 1) ++ leBytes 1 level ++ leBytes 1 (b2n is) ++ leBytes 3 (sensorValue v))
      | none => s
    s.thEvent 0

/-- `AGE` of a sensor one interval on (spec/12_thimble_management_security.md Table 12.9). -/
def State.ageSensor (s : State) (k : Nat) : State :=
  s.set (R.TH_SENSOR_AGE k) (min 127 (s.get (R.TH_SENSOR_AGE k) + 1))

/-- One sensor sampled: its reading, or none when the conversion is not valid (spec/12_thimble_management_security.md
R401, R402). -/
def State.sampleSensor (s : State) (k : Nat) (r : Option Int) : State :=
  if !s.pins.input50 && (decide (k ≤ 135) || k = 138) then (s.ageSensor k).set (R.TH_SENSOR_VALID k) 0
  else
    match r with
    | some v =>
      let s := s.setAll [(R.TH_SENSOR_VALID k, 1), (R.TH_SENSOR_AGE k, 0), (R.TH_SENSOR_VALUE k, sensorValue v)]
      let s := { s with th := { s.th with bad := kvErase s.th.bad k } }
      (List.range (s.thresholds k).length).foldl (fun s l => s.crossing k l v) s
    | none =>
      let n := kvGet 0 s.th.bad k + 1
      let s := { s.ageSensor k with th := { s.th with bad := kvSet s.th.bad k n } }
      if n = 3 then (s.set (R.TH_SENSOR_VALID k) 0).raise Code.TH_SENSOR thUnit 0 0 else s

/-- The temperature of a panel as Thimble has sampled it, when it is valid. -/
def State.sampledTemp (s : State) (p : Nat) : Option Int :=
  if s.flag (R.TH_SENSOR_VALID p) then some (BitVec.ofNat 24 (s.get (R.TH_SENSOR_VALUE p))).toInt else none

/-- How far a panel is above its coolest neighbour, of those with valid readings. -/
def State.hotterBy (s : State) (p : Nat) : Option Int :=
  match s.sampledTemp p with
  | none => none
  | some t => (((nbrs p).filterMap s.sampledTemp).map fun u => t - u).max?

/-- The clamp of a panel after a sample (spec/13_panels_clocks_power.md R422). -/
def State.clampStep (s : State) (p : Nat) : State :=
  let x := s.panel p
  match s.hotterBy p with
  | none => s
  | some d =>
    if 480 < d then
      let s1 := (s.setPanel p { x with clamp := max 400 (x.clamp - 100) }).adjust p
      if x.clamp = 2500 then
        (s1.bump R.CLAMPS 1).raise Code.PWR_NB_TEMP (panelUnit p) p (argOf ((s.sampledTemp p).getD 0))
      else s1
    else if d ≤ 432 && decide (x.clamp < 2500) then
      (s.setPanel p { x with clamp := min 2500 (x.clamp + 100) }).adjust p
    else s

/-- `SENSOR_SAMPLE`: every sensor is sampled in increasing number; neighbouring panels are compared; while Thimble
restarts, readings age (spec/12_thimble_management_security.md R401 to R403, R409, spec/13_panels_clocks_power.md
R422). -/
def execSensorSample (readings : List (Option Int)) (s : State) : Res :=
  if !s.rst.fwRunning then go s
  else if s.th.restarting then go ((List.range 139).foldl State.ageSensor s)
  else
    let s := (List.range 139).foldl (fun s k => s.sampleSensor k ((readings[k]?).getD none)) s
    go ((List.range 36).foldl State.clampStep s)

/-! ### The event log -/

/-- `LOG_WRITE`: the oldest buffered record is written to flash; a full log loses its oldest sector
(spec/12_thimble_management_security.md R404, R405). -/
def execLogWrite (s : State) : Res :=
  if !s.fwServes && s.get R.TH_STATUS_BOOT ≠ 2 then go s
  else
    match s.th.buf with
    | [] => go s
    | b :: rest =>
      let full := decide (8064 ≤ s.th.log.length)
      let log := if full then s.th.log.drop 126 else s.th.log
      let s := { s with th := { s.th with buf := rest, log := log ++ [(field b 0 4, b)] } }.bump R.LOG_WRITTEN 1
      if full then go ((s.bump R.LOG_OVERWRITTEN 126).thEvent 3) else go s

/-- The list without the first element that a condition holds of. -/
def dropOne {α : Type} (p : α → Bool) : List α → List α
  | [] => []
  | x :: l => if p x then l else x :: dropOne p l

/-- `FAULT_RECORD`: the oldest waiting record of a unit reaches Thimble, unless it restarts
(spec/15_faults_and_safe_state.md R466, Table 15.9). -/
def execFaultRecord (unit : Nat) (s : State) : Res :=
  if !s.fwServes && s.get R.TH_STATUS_BOOT ≠ 2 then go s
  else
    match s.flt.waiting.find? fun r => r.unit = unit with
    | none => go s
    | some r => go ({ s with flt := { s.flt with waiting := dropOne (fun q => q.unit = unit) s.flt.waiting } }.deliver r)

/-! ### The watchdog -/

/-- An update in progress ended (spec/12_thimble_management_security.md R391, Table 12.12). -/
def State.endUpdate (s : State) : State :=
  if s.th.upd.phase = .idle then s
  else ({ s with th := { s.th with upd := {} } }.set R.TH_STATUS_UPDATE 0).thEvent 1

/-- `WATCHDOG_EXPIRY`: the processor restarts from RAM; an update is cancelled; a second expiry within 1,000,000,000
reference cycles is module-fatal (spec/12_thimble_management_security.md R408, R409, Table 12.11). -/
def execWatchdogExpiry (s : State) : Res :=
  if !s.fwServes then go s
  else
    let again : Bool := match s.th.lastWdog with
      | some t => decide (s.now < t + 1000000000)
      | none => false
    let s := (s.raise Code.TH_WDOG thUnit 0 0).endUpdate.thEvent 4
    let s := { s with th := { s.th with restarting := true, lastWdog := some s.now } }.set R.TH_STATUS_BOOT 3
    if again then go (s.raise Code.TH_WDOG_REPEAT thUnit 0 0) else go s

/-- `THIMBLE_RESTART_DONE`: Thimble serves again (spec/12_thimble_management_security.md R409). -/
def execThimbleRestartDone (s : State) : Res :=
  if s.th.restarting then go ({ s with th := { s.th with restarting := false } }.set R.TH_STATUS_BOOT 1) else go s

end Sys2Proof.Machine
end

