-- ==== Sys2Proof/Machine/Clock.lean ====
section
/-! DEFINITION. One reference cycle of Thimble, which is what a step does on an empty queue (log entry 1). -/

namespace Sys2Proof.Machine

/-- The counters of reference cycles: a panel capped, a thermal cap or a neighbour cap limiting a panel
(spec/13_panels_clocks_power.md R425, R426, R429), a reply that waits for space
(spec/11_host_interface_and_command_tape.md R372). -/
def State.cycleCounters (s : State) : State :=
  let any (f : Nat → Fld) : Bool := (List.range 36).any fun p => s.flag (f p)
  let s := if s.get R.PWR_STATUS_FCAP < 2500 then s.bump R.STRETCH_TIME 1 else s
  let s := if any R.PNL_STATUS_LIM_T then s.bump R.THROTTLE_TIME 1 else s
  let s := if any R.PNL_STATUS_LIM_N then s.bump R.NB_LIMITED 1 else s
  if s.tape.waiting || (!s.flag R.TP_CFG_EN && !s.tape.replies.isEmpty) then s.bump R.REPLY_WAIT 1 else s

/-- The pauses of the seam ports run on by 10 ns; a port whose pause ends sends what it kept
(spec/10_seam_ports_and_collectives.md R324). -/
def State.runPauses (s : State) : State :=
  (List.range 8).foldl (fun s p =>
    let x := s.port p
    if x.pause = 0 then s
    else (s.setPort p { x with pause := x.pause - 1000 }).resumePort p) s

/-- One reference cycle: time goes on, an orderly shutdown goes on, and the counters count while Thimble runs (log
entry 1). -/
def State.tick (s : State) : State :=
  let s := { s with now := s.now + 1 }.runPauses.advanceShutdown
  if s.rst.fwRunning then s.cycleCounters else s

end Sys2Proof.Machine
end

