-- ==== Sys2Proof/Machine/BlockCommit.lean ====
section
/-! DEFINITION. Commits of the blocks of BAR0: the checks of the staged values, refusing and applying them
(spec/05_patterns_and_reconfiguration.md R186 to R188; the checks of each block by its own chapter). -/

namespace Sys2Proof.Machine

/-- A block of BAR0: the offset that its records count from, and the first and last offset of its registers. -/
structure Block where
  base : Nat
  lo : Nat
  hi : Nat
  deriving DecidableEq, Repr

/-- Is an offset of the block? -/
def Block.has (b : Block) (off : Nat) : Bool := inRange b.lo b.hi off

/-- The register file as the commit of a block would leave it. -/
def State.wouldBe (s : State) (b : Block) : RegFile := applyStage s.bar s.barStage b.has

/-- Does the commit of a block change a field? -/
def State.changes (s : State) (b : Block) (f : Fld) : Bool := decide (rfGet (s.wouldBe b) f ≠ s.get f)

/-- The block-relative offset of the first staged register, which a refusal that no register's value causes names. -/
def State.firstStaged (s : State) (b : Block) : Nat :=
  ((s.barStage.filter fun e => b.has (keyOff e.1)).foldl (fun m e => min m (keyOff e.1)) b.hi) - b.base

/-- The stage of a block discarded. -/
def State.dropBlock (s : State) (b : Block) : State := { s with barStage := dropStage s.barStage b.has }

/-- The stage of a block applied. -/
def State.applyBlock (s : State) (b : Block) : State := { s with bar := s.wouldBe b }.dropBlock b

/-- A commit of a block: nothing without bit 0 or with nothing staged; refused wholly with the first failure, or applied
wholly (spec/05_patterns_and_reconfiguration.md R187). -/
def State.commitBlock (s : State) (b : Block) (v : W32) (check : Fail) (post : State → State) : State :=
  if !bit v.toNat 0 || !s.takesWrite none b.lo || !anyStaged s.barStage b.has then s
  else
    match check with
    | some f => (s.dropBlock b).refuseCommit (blockUnit b.lo) f
    | none => post (s.applyBlock b)

/-! ### The blocks -/

def blkGc : Block := ⟨0, 0, 0xFFF⟩
def blkTp : Block := ⟨0x1000, 0x1000, 0x1FFF⟩
def blkFab : Block := ⟨0x4000, 0x4000, 0x40FF⟩
def blkUnp : Block := ⟨0x4000, 0x4100, 0x41FF⟩
def blkPl : Block := ⟨0x8000, 0x8000, 0xFFFF⟩
def blkMc (n : Nat) : Block := ⟨0x10000 + 0x400 * n, 0x10000 + 0x400 * n, 0x103FF + 0x400 * n⟩
def blkSp (n : Nat) : Block := ⟨0x20000 + 0x1000 * n, 0x20000 + 0x1000 * n, 0x207FF + 0x1000 * n⟩
def blkSeam : Block := ⟨0x20000, 0x20800, 0x208FF⟩
def blkPrs : Block := ⟨0x30000, 0x30000, 0x3FFFF⟩
def blkNum : Block := ⟨0x40000, 0x40000, 0x4007F⟩
def blkTh : Block := ⟨0x60000, 0x60000, 0x7FFFF⟩
def blkPwr : Block := ⟨0x80000, 0x80200, 0x803FF⟩

/-- `GC_COMMIT` (spec/01_module_overview.md R38, spec/14_reset_bringup_selftest.md R458). -/
def execGcCommit (v : W32) (s : State) : Res :=
  let rf := s.wouldBe blkGc
  go (s.commitBlock blkGc v (failIf (rfGet rf R.RST_CFG_IDLE_DL = 0) Code.RST_CFG_ZERO 0x50) id)

/-- `NUM_COMMIT`: refused while a step is open; a change of `MODULE` takes every link down
(spec/02_numerics.md R59, spec/10_seam_ports_and_collectives.md R316). -/
def execNumCommit (v : W32) (s : State) : Res :=
  let ch := s.changes blkNum R.NUM_SR_MODULE_MODULE
  go (s.commitBlock blkNum v (failIf s.stepOpen Code.NUM_SEED_BUSY (s.firstStaged blkNum)) fun s =>
    if ch then (List.range 8).foldl (fun s p => if s.link p = 0 then s else s.linkDown p true) s else s)

/-- `FAB_COMMIT` (spec/04_fabric_tokens_and_steering.md R146). -/
def execFabCommit (v : W32) (s : State) : Res :=
  go (s.commitBlock blkFab v (failIf (rfGet (s.wouldBe blkFab) R.FAB_CFG_VC3_GUARD = 0) Code.FAB_CFG_ZERO 0) id)

/-- `PL_COMMIT` (spec/05_patterns_and_reconfiguration.md R190). -/
def execPlCommit (v : W32) (s : State) : Res :=
  let rf := s.wouldBe blkPl
  go (s.commitBlock blkPl v
    (failIf (rfGet rf R.PL_CFG_ARM_DL = 0 || rfGet rf R.PL_CFG_RETIRE_DL = 0) Code.PAT_ZERO_FIELD 0x18) id)

/-- Does a new spill area leave LPDDR5X, or hold a granule of an extent that is not of class A
(spec/06_progress_deadlock_drain.md R216)? -/
def State.spillIllegal (s : State) (a n : Nat) : Bool :=
  decide (lpEnd < a + n) || s.mem.exts.any fun e => e.cls ≠ 2 && overlaps a n (e.base * mib2) (e.size * mib2)

/-- May the spill area not change now (spec/06_progress_deadlock_drain.md R216)? -/
def State.spillBusy (s : State) (a n : Nat) : Bool :=
  !s.unpick.pages.isEmpty || inRange 1 2 s.drain || decide (n < max s.loader.curSpillNeed s.loader.spillNeed * 2 ^ 20)
    || s.regions.any fun r => overlaps a n r.base r.size

/-- `UNP_COMMIT` (spec/06_progress_deadlock_drain.md R216). -/
def execUnpCommit (v : W32) (s : State) : Res :=
  let rf := s.wouldBe blkUnp
  let a := rfGet rf R.UNP_SPILL_BASE * 2 ^ 20
  let n := rfGet rf R.UNP_SPILL_SIZE * 2 ^ 20
  let ch := s.changes blkUnp R.UNP_SPILL_BASE || s.changes blkUnp R.UNP_SPILL_SIZE
  go (s.commitBlock blkUnp v
    (firstFail [
      failIf (rfGet rf R.UNP_CFG_STALL_TH = 0 || rfGet rf R.UNP_CFG_CONFIRM = 0 || rfGet rf R.UNP_CFG_DRAIN_DL = 0)
        Code.UNP_CFG_ZERO 0x100,
      failIf (n = 0) Code.UNP_CFG_ZERO 0x108,
      failIf (decide (1024 * 2 ^ 20 < n) || s.spillIllegal a n) Code.UNP_CFG_ILLEGAL 0x108,
      failIf (ch && s.spillBusy a n) Code.UNP_BUSY 0x108]) id)

/-- Is a bound on a norm illegal: not finite, or not above zero; an infinite skip bound is legal
(spec/07_training_step_and_press.md R251)? -/
def clipBad (w : W32) : Bool := !isFinite w || !flt 0 w
def skipBad (w : W32) : Bool := !flt 0 w

/-- `PRS_COMMIT` (spec/07_training_step_and_press.md R251). -/
def execPrsCommit (v : W32) (s : State) : Res :=
  let rf := s.wouldBe blkPrs
  let w (f : Fld) : W32 := BitVec.ofNat 32 (rfGet rf f)
  go (s.commitBlock blkPrs v
    (firstFail [
      failIf (s.phase ≠ 0) Code.PRS_BUSY (s.firstStaged blkPrs),
      failIf (rfGet rf R.PRS_DL_CLOSE_DL = 0 || rfGet rf R.PRS_DL_NORM_DL = 0 || rfGet rf R.PRS_DL_SWEEP_DL = 0)
        Code.PRS_CFG_ZERO 0x18,
      failIf (decide (4096 < rfGet rf R.PRS_CFG_GT_COUNT)) Code.PRS_PARAM 0,
      failIf (rfGet rf R.PRS_CFG_CLIP_EN = 1 && clipBad (w R.PRS_CLIP_NORM_CLIP_NORM)) Code.PRS_PARAM 0x10,
      failIf (rfGet rf R.PRS_CFG_SKIP_EN = 1 && skipBad (w R.PRS_SKIP_NORM_SKIP_NORM)) Code.PRS_PARAM 0x14]) id)

/-! ### Memory controllers -/

/-- Is the window of a lining group needed by a `REGION` of class 0x03, by a `SUM` array while `PHASE` is not idle, or by a
MOVE (spec/08_memory_system.md R273)? -/
def State.lnNeeded (s : State) (n g : Nat) : Bool :=
  let a := lpEnd + n * 0x400000 + g * 0x100000
  let meets (b m : Nat) : Bool := overlaps a 0x100000 b m
  (s.regions.any fun r => r.cls = 3 && meets r.base r.size)
    || (s.phase ≠ 0 && s.groupArrays.any fun x => x.1 = 0x68 && meets x.2.1 x.2.2)
    || (match s.mem.move with
        | some j => meets j.src j.len || meets j.dst j.len
        | none => false)

/-- The groups whose mode a commit would change: group, old and new mode. -/
def lnChanges (old new : Nat) : List (Nat × Nat × Nat) :=
  (List.range 4).filterMap fun g =>
    let a := bits old (2 * g) 2
    let b := bits new (2 * g) 2
    if a = b then none else some (g, a, b)

/-- The actions on the groups whose mode a commit changed begin (spec/08_memory_system.md R273, Table 8.5 step 1). -/
def State.lnStart (s : State) (n : Nat) (l : List (Nat × Nat × Nat)) : State :=
  l.foldl (fun s x =>
    let c : LnChange := ⟨n, x.1, x.2.1, x.2.2, false, false⟩
    let s := s.set (R.MC_STATUS_LN_BUSY n) (Nat.lor (s.get (R.MC_STATUS_LN_BUSY n)) (2 ^ x.1))
    let s := if x.2.1 = 2 then s.markAccepted n x.1 else s
    { s with mem := { s.mem with lnChg := s.mem.lnChg ++ [c] } }) s

/-- `MC_COMMIT` of controller `n` (spec/08_memory_system.md R273, R280, R282). -/
def execMcCommit (n : Nat) (v : W32) (s : State) : Res :=
  if 24 ≤ n then go s
  else
    let b := blkMc n
    let rf := s.wouldBe b
    let new := rfGet rf (R.MC_CFG_LN_MODE n)
    let l := lnChanges (s.get (R.MC_CFG_LN_MODE n)) new
    go (s.commitBlock b v
      (firstFail [
        failIf (rfGet rf (R.MC_CFG_ATOM_DL n) = 0 || rfGet rf (R.MC_CFG_SCRUB_INT n) = 0 || rfGet rf (R.MC_CFG_CE_TH n) = 0
          || rfGet rf (R.MC_CFG_PD_DL n) = 0) Code.MEM_CFG_ZERO 0,
        failIf ((List.range 4).any fun g => bits new (2 * g) 2 = 3) Code.MEM_CFG_ILLEGAL 0,
        failIf (l.any fun x => s.lnBusy n x.1 || (x.2.1 = 2 && s.lnNeeded n x.1)) Code.MEM_LINING_BUSY 0])
      fun s => s.lnStart n l)

/-! ### Seam ports -/

/-- Is a register of a port one of its deadlines? -/
def seamDl (n off : Nat) : Bool := inRange (0x20008 + 0x1000 * n) (0x2000F + 0x1000 * n) off

/-- `SP_COMMIT` of port `n`: the link starts again when a field other than a deadline changes
(spec/10_seam_ports_and_collectives.md R344, Table 10.11). -/
def execSpCommit (n : Nat) (v : W32) (s : State) : Res :=
  if 8 ≤ n then go s
  else
    let b := blkSp n
    let rf := s.wouldBe b
    let dl := [R.SP_DL_PEER_DL n, R.SP_DL_RTX_TO n, R.SP_DL_RTX_MAX n, R.SP_DL_ACK_INT n, R.SP_DL_FLUSH_WAIT n]
    let ch := s.barStage.any fun e =>
      let f : Fld := ⟨keyOff e.1, 63, e.1 % 64⟩
      b.has f.off && !seamDl n f.off && s.changes b f
    let xoff := rfGet rf (R.SP_CFG_PFC_XOFF n)
    let xon := rfGet rf (R.SP_CFG_PFC_XON n)
    go (s.commitBlock b v
      (firstFail [
        failIf (rfGet rf (R.SP_CFG_PFC_EN n) = 1 && xoff = 0) Code.SEAM_CFG_ZERO 0,
        failIf (dl.any fun f => rfGet rf f = 0) Code.SEAM_CFG_ZERO 8,
        failIf (decide (xon ≤ xoff) || decide (128 < xon)) Code.SEAM_CFG_ILLEGAL 0,
        failIf s.stepOpen Code.SEAM_BUSY (s.firstStaged b)])
      fun s => if ch then s.linkDown n true else s)

/-- `SEAM_GCOMMIT` (spec/10_seam_ports_and_collectives.md R344, Table 10.11). -/
def execSeamGcommit (v : W32) (s : State) : Res :=
  let rf := s.wouldBe blkSeam
  let dl := [R.SEAM_GDL_RED_DL, R.SEAM_GDL_RET_DL, R.SEAM_GDL_GATHER_DL]
  go (s.commitBlock blkSeam v
    (firstFail [
      failIf (dl.any fun f => rfGet rf f = 0) Code.SEAM_CFG_ZERO 0x808,
      failIf (bit (rfGet rf R.SEAM_GCFG_MAC_PFX) 16) Code.SEAM_CFG_ILLEGAL 0x800,
      failIf s.stepOpen Code.SEAM_BUSY (s.firstStaged blkSeam)]) id)

/-! ### The tape unit -/

/-- The checks of the values of a tape commit (spec/11_host_interface_and_command_tape.md R379). -/
def State.tapeFail (s : State) : Fail :=
  let rf := s.wouldBe blkTp
  let en := rfGet rf R.TP_CFG_EN = 1
  let size := rfGet rf R.TP_TAPE_SIZE
  let rsize := rfGet rf R.TP_RSIZE_RSIZE
  let a := rfGet rf R.TP_TAPE_BASE * 0x1000
  let n := size * 0x10000
  let placed : Bool := match extOf s.mem.exts a with
    | some e => decide (a + n ≤ e.dataEnd)
    | none => false
  let sp := s.spillArea
  firstFail [
    failIf (en && size = 0) Code.TAPE_CFG_ZERO 0x8,
    failIf (en && rsize = 0) Code.TAPE_CFG_ZERO 0x20,
    failIf (en && (rfGet rf R.TP_CFG_TORN_DL = 0 || rfGet rf R.TP_CFG_RPL_DL = 0)) Code.TAPE_CFG_ZERO 0x28,
    failIf (decide (4096 < size)) Code.TAPE_CFG_ILLEGAL 0x8,
    failIf (rsize = 1 || decide (65536 < rsize)) Code.TAPE_CFG_ILLEGAL 0x20,
    failIf (en && (!placed || overlaps a n sp.1 sp.2)) Code.TAPE_CFG_ILLEGAL 0x8,
    failIf (en && decide (2 ^ 64 < rfGet rf R.TP_REPLY_RBASE * 64 + 64 * rsize)) Code.TAPE_CFG_ILLEGAL 0x18]

/-- The fields that a tape commit may not change while tags are live, in order of offset
(spec/11_host_interface_and_command_tape.md R379). -/
def tapeHeld : List Fld := [R.TP_TAPE_BASE, R.TP_TAPE_SIZE, R.TP_SEQ0_SEQ0, R.TP_REPLY_RBASE, R.TP_RSIZE_RSIZE, R.TP_CFG_EN]

/-- The refusal of a tape commit: illegal values, live tags unless they are abandoned, the safe state
(spec/11_host_interface_and_command_tape.md R379). -/
def State.tapeCommitFail (s : State) (abandon : Bool) : Fail :=
  let ch := tapeHeld.find? fun f => s.changes blkTp f
  match s.tapeFail, ch with
  | some f, _ => some f
  | none, some f =>
    failIf ((s.tape.live ≠ 0 && !abandon) || s.safe) Code.TAPE_BUSY (f.off - 0x1000)
  | none, none => failIf s.safe Code.TAPE_BUSY (s.firstStaged blkTp)

/-- The tape after a commit: a commit that enables it starts replies and tape anew; one that moves it, or changes its size
or `SEQ0`, sets the position back (spec/11_host_interface_and_command_tape.md R359, R362, R372, R379). -/
def State.tapeRestart (s : State) (en moved : Bool) : State :=
  let s := if en then s.setAll [(R.TP_STATUS_STATE, 0), (R.TP_RSEQ_RSEQ, 0)] else s
  let s := if en || moved then
      { s with tape := { s.tape with torn := false } }.setAll
        [(R.TP_STATUS_POS, 0), (R.TP_STATUS_NEXT_SEQ, s.get R.TP_SEQ0_SEQ0)]
    else s
  s.resumeTape

/-- A tape commit with something staged. -/
def State.tapeCommit (s : State) (abandon : Bool) : State :=
  let en := isStaged s.barStage R.TP_CFG_EN && rfGet (s.wouldBe blkTp) R.TP_CFG_EN = 1
  let moved := [R.TP_TAPE_BASE, R.TP_TAPE_SIZE, R.TP_SEQ0_SEQ0].any fun f => s.changes blkTp f
  match s.tapeCommitFail abandon with
  | some f => (s.dropBlock blkTp).refuseCommit 0xC34 f
  | none => (s.applyBlock blkTp).tapeRestart en moved

/-- `TP_COMMIT` without `ABANDON`; in the safe state a commit of staged values is refused
(spec/11_host_interface_and_command_tape.md R379; log entry 19). -/
def execTpCommit (v : W32) (s : State) : Res :=
  if !bit v.toNat 0 || bit v.toNat 1 || !s.serves none 0x1000 || !anyStaged s.barStage blkTp.has then go s
  else go (s.tapeCommit false)

/-- Every live tag retired without a reply: commands not started are removed; the work of the others runs on, and its
replies will bear pairs no longer live (spec/11_host_interface_and_command_tape.md R371). -/
def State.abandonTags (s : State) : State :=
  let live := s.tape.cmds.filter fun c => !c.gone
  let last := live.foldl (fun m c => kvSet m c.tag c.epoch) s.tape.lastEpoch
  let stay := s.tape.cmds.filter fun c => c.gone || (s.begun c && !c.taken)
  let cmds : List Cmd := stay.map fun c => { c with gone := true }
  let s := live.foldl (fun s c => if s.begun c then s else s.undefer c) s
  { s with tape := { s.tape with
      cmds := cmds, lastEpoch := last, replies := s.tape.replies.filter fun r => !r.live } }

/-- A tape commit with `ABANDON`: the staged fields are checked and applied as if no tag were live, and every live tag is
retired (spec/11_host_interface_and_command_tape.md R371, R379). -/
def execTpAbandon (v : W32) (s : State) : Res :=
  if !bit v.toNat 0 || !bit v.toNat 1 || !s.takesWrite none 0x1000 then go s
  else if anyStaged s.barStage blkTp.has then
    match s.tapeCommitFail true with
    | some f => go ((s.dropBlock blkTp).refuseCommit 0xC34 f)
    | none => go (s.abandonTags.tapeCommit true)
  else go s.abandonTags.resumeTape

/-! ### Thimble, panels, power -/

/-- `TH_COMMIT` (spec/12_thimble_management_security.md R410). -/
def execThCommit (v : W32) (s : State) : Res :=
  go (s.commitBlock blkTh v (failIf (rfGet (s.wouldBe blkTh) R.TH_CFG_SAMPLE = 0) Code.TH_CFG_ZERO 0x20) id)

/-- `PNL_COMMIT` of panel `p`: one that meets a change is held and applied in order of arrival
(spec/13_panels_clocks_power.md R416, R420, R421). -/
def execPnlCommit (p : Nat) (v : W32) (s : State) : Res :=
  let off := 0x80000 + 0x400 * p
  if decide (36 ≤ p) || !bit v.toNat 0 || !s.takesWrite none off then go s
  else if s.frozen off then go (s.raise Code.PAT_TACK_BUSY (panelUnit p) 0 8)
  else if !anyStaged s.barStage fun o => o = off then go s
  else if !s.pow.commits.isEmpty || (s.panel p).changing then
    go { s with pow := { s.pow with commits := s.pow.commits ++ [p] } }
  else go (s.applyPanel p)

/-- `PWR_COMMIT` (spec/13_panels_clocks_power.md R434). -/
def execPwrCommit (v : W32) (s : State) : Res :=
  let rf := s.wouldBe blkPwr
  let lim := rfGet rf R.PWR_CFG_P_LIMIT
  let peak := rfGet rf R.PWR_CFG_P_PEAK
  let t := rfGet rf R.PWR_CFG_T_THROTTLE
  go (s.commitBlock blkPwr v
    (firstFail [
      failIf (lim = 0 || peak = 0 || t = 0 || rfGet rf R.PWR_CFG_NB_DL = 0) Code.PWR_CFG_ZERO 0x200,
      failIf (!inRange 100 600 lim || !inRange lim 780 peak || !inRange 60 105 t) Code.PWR_CFG_ILLEGAL 0x200]) id)

end Sys2Proof.Machine
end

