-- ==== Sys2Proof/Machine/Mgmt.lean ====
section
/-! DEFINITION. Management messages: PLDM base, monitoring and firmware update, SPDM, the Varbex vendor requests, IDE_KM and
MCTP control (spec/12_thimble_management_security.md R390 to R400, R403, spec/14_reset_bringup_selftest.md R451). The
contents that the spec leaves to the DMTF standards: log entry 17. -/

namespace Sys2Proof.Machine

/-- Is the endpoint's session of an identifier established? -/
def Thimble.hasSess (t : Thimble) (id : Nat) : Bool := t.sessions.any fun x => x.id = id && x.est

/-- Is a message served: by the firmware, over VDM only while the link is up, and in a session only in an established one;
in ROM recovery over SMBus only, and only what `rec` says (spec/12_thimble_management_security.md R389, R398, R409,
Table 12.5)? -/
def State.serves? (s : State) (v : MVia) (rec : Bool) : Bool :=
  if s.get R.TH_STATUS_BOOT = 2 then rec && !v.vdm && v.sess.isNone
  else s.fwServes && (!v.vdm || s.cxl.linkUp) && (match v.sess with | some id => s.th.hasSess id | none => true)

/-- A message that is served, when it is. -/
def State.onMgmt (s : State) (v : MVia) (rec : Bool) (k : State → State) : Res := go (if s.serves? v rec then k s else s)

/-- A message answered, and one answered with a failure. -/
def State.msgAnswer (s : State) (b : List Byte) : State := s.emit (.mgmt 0 b)
def State.refuseMgmt (s : State) : State := s.emit (.mgmt 1 [])

/-- A message answered when a condition holds, else with a failure. -/
def State.msgAnswerIf (s : State) (c : Bool) (b : List Byte) : State := if c then s.msgAnswer b else s.refuseMgmt

/-- A bit mask of a list of codes below 256, as 32 bytes. -/
def codeMask (l : List Nat) : List Byte := leBytes 32 ((l.dedup.map fun k => 2 ^ k).sum)

/-! ### PLDM base and monitoring -/

/-- `GET_TID`: the terminus identifier is a free value (spec/12_thimble_management_security.md Table 12.5;
log entry 5). -/
def execGetTid (v : MVia) (s : State) : Res :=
  s.onMgmt v true fun s =>
    let r := s.freeBytes 1
    r.2.msgAnswer r.1

/-- `GET_PLDM_VERSION`: the version of the firmware-update protocol (spec/12_thimble_management_security.md R391). -/
def execGetPldmVersion (v : MVia) (s : State) : Res := s.onMgmt v false fun s => s.msgAnswer [1, 1]

/-- `GET_PLDM_TYPES`: base, monitoring and firmware update (spec/12_thimble_management_security.md Table 12.5;
log entry 17). -/
def execGetPldmTypes (v : MVia) (s : State) : Res := s.onMgmt v false fun s => s.msgAnswer ((codeMask [0, 2, 5]).take 8)

/-- The commands of a PLDM type (spec/12_thimble_management_security.md Table 12.5; log entry 17). -/
def pldmCommands (ty : Nat) : Option (List Nat) :=
  if ty = 0 then some [2, 3, 4, 5]
  else if ty = 2 then some [0x04, 0x0A, 0x10, 0x11, 0x50, 0x51]
  else if ty = 5 then some [0x01, 0x02, 0x10, 0x13, 0x14, 0x15, 0x16, 0x17, 0x18, 0x1A, 0x1B, 0x1C, 0x1D]
  else none

/-- `GET_PLDM_COMMANDS` (spec/12_thimble_management_security.md Table 12.5). -/
def execGetPldmCommands (v : MVia) (ty : Nat) (s : State) : Res :=
  s.onMgmt v false fun s =>
    match pldmCommands ty with
    | some l => s.msgAnswer (codeMask l)
    | none => s.refuseMgmt

/-- `GET_PDR_REPOSITORY_INFO`: one record per sensor (spec/12_thimble_management_security.md R403). -/
def execGetPdrRepositoryInfo (v : MVia) (s : State) : Res := s.onMgmt v false fun s => s.msgAnswer (leBytes 4 139)

/-- The quantity of a sensor: 0 temperature in 1/16 °C, 1 mV, 2 MHz, 3 mA, 4 mW
(spec/12_thimble_management_security.md Table 12.8). -/
def sensorUnit (k : Nat) : Nat :=
  if k ≤ 59 || k = 138 then 0
  else if k ≤ 95 || k = 132 || k = 135 || k = 136 then 1
  else if k ≤ 131 then 2
  else if k = 133 then 3
  else 4

/-- `GET_PDR`: the numeric sensor record of sensor n, whose handle and sensor ID are n + 1: its unit and its thresholds
(spec/12_thimble_management_security.md R403, spec/13_panels_clocks_power.md R431). -/
def execGetPdr (v : MVia) (record : Nat) (s : State) : Res :=
  s.onMgmt v false fun s =>
    s.msgAnswerIf (inRange 1 139 record) (leBytes 2 record ++ leBytes 1 (sensorUnit (record - 1))
      ++ (s.thresholds (record - 1)).flatMap fun t => leBytes 3 (sensorValue t))

/-- `GET_SENSOR_READING`: 0 enabled, 1 disabled or 2 unavailable, and the reading (spec/12_thimble_management_security.md
R403). -/
def execGetSensorReading (v : MVia) (id : Nat) (s : State) : Res :=
  s.onMgmt v false fun s =>
    let k := id - 1
    let st := if s.th.sensorOff.contains k then 1 else if s.flag (R.TH_SENSOR_VALID k) then 0 else 2
    s.msgAnswerIf (inRange 1 139 id) (leBytes 1 st ++ leBytes 3 (s.get (R.TH_SENSOR_VALUE k)))

/-- `SET_NUMERIC_SENSOR_ENABLE`: operation 0 enables, 1 disables (spec/12_thimble_management_security.md Table 12.5). -/
def execSetNumericSensorEnable (v : MVia) (id op : Nat) (s : State) : Res :=
  s.onMgmt v false fun s =>
    if inRange 1 139 id && decide (op ≤ 1) then
      let l := s.th.sensorOff.filter (· ≠ id - 1)
      { s with th := { s.th with sensorOff := if op = 1 then (id - 1) :: l else l } }.msgAnswer []
    else s.refuseMgmt

/-- `SET_EVENT_RECEIVER` (spec/12_thimble_management_security.md R403). -/
def execSetEventReceiver (v : MVia) (enable : Bool) (eid : Nat) (s : State) : Res :=
  s.onMgmt v false fun s =>
    { s with th := { s.th with receiver := if enable then some (v.vdm, eid) else none } }.msgAnswer []

/-! ### PLDM firmware update -/

/-- Does a component identify the one that the module advertises (spec/12_thimble_management_security.md R391)? -/
def isComponent (cls id : Nat) : Bool := cls = 0x000A && id = 0x0001

/-- The state with the update changed. -/
def State.onUpd (s : State) (f : Update → Update) : State := { s with th := { s.th with upd := f s.th.upd } }

/-- `QUERY_DEVICE_IDENTIFIERS` (spec/12_thimble_management_security.md Table 12.5). -/
def execQueryDeviceIdentifiers (v : MVia) (s : State) : Res :=
  s.onMgmt v true fun s => s.msgAnswer (leBytes 2 Config.vendorId.toNat ++ leBytes 2 (s.get R.GC_ID_DEVICE))

/-- `GET_FIRMWARE_PARAMETERS`: the one component, the version of the running image, whether a verified image waits; without a
running image its version is a free value (spec/12_thimble_management_security.md R391; log entry 5). -/
def execGetFirmwareParameters (v : MVia) (s : State) : Res :=
  s.onMgmt v true fun s =>
    let r := if s.rst.fwRunning then (leBytes 4 s.th.fwVersion, s) else s.freeBytes 4
    r.2.msgAnswer (leBytes 2 0x000A ++ leBytes 2 0x0001 ++ r.1 ++ leBytes 1 (s.get R.TH_STATUS_ACT_PEND))

/-- `REQUEST_UPDATE`: refused as busy during an update, and in the clear when `UPDATE_AUTH` is set
(spec/12_thimble_management_security.md R390 to R392, Table 12.11). -/
def execRequestUpdate (v : MVia) (maxXfer : Nat) (s : State) : Res :=
  s.onMgmt v true fun s =>
    let clear := s.rst.fwRunning && s.flag R.RST_OPT_UPDATE_AUTH && v.sess.isNone
    if s.th.upd.phase ≠ .idle || clear then s.refuseMgmt
    else
      ((s.onUpd fun _ => { vdm := v.vdm, phase := .requested, maxXfer := maxXfer }).set R.TH_STATUS_UPDATE 1).msgAnswer []

/-- `PASS_COMPONENT_TABLE` (spec/12_thimble_management_security.md R391). -/
def execPassComponentTable (v : MVia) (cls id : Nat) (s : State) : Res :=
  s.onMgmt v true fun s => s.msgAnswerIf (s.th.upd.phase = .requested && isComponent cls id) []

/-- The bytes of the component that the module asks for next (spec/12_thimble_management_security.md R391). -/
def Update.nextLen (u : Update) : Nat := min (min 1024 u.maxXfer) (u.size - u.written)

/-- `RequestFirmwareData`: offset and length (spec/12_thimble_management_security.md R391, Table 12.5). -/
def State.askData (s : State) : State :=
  let u := s.th.upd
  if u.nextLen = 0 then s else s.sendMgmt u.vdm (leBytes 4 u.written ++ leBytes 4 u.nextLen)

/-- `UPDATE_COMPONENT`: the transfer starts (spec/12_thimble_management_security.md R391). -/
def execUpdateComponent (v : MVia) (cls id size : Nat) (s : State) : Res :=
  s.onMgmt v true fun s =>
    if s.th.upd.phase = .requested && isComponent cls id then
      ((s.onUpd fun u => { u with phase := .receiving, size := size, header := [], written := 0, passed := false }).msgAnswer
        []).askData
    else s.refuseMgmt

/-- The image region erased. -/
def State.eraseImage (s : State) : State := { s with th := { s.th with flash := some [], flashLen := 0 } }

/-- Bytes written to the image region after those written before. -/
def State.writeImage (s : State) (b : List Byte) : State :=
  let m := s.th.flash.getD []
  let n := s.th.flashLen
  { s with th := { s.th with flash := some (memWriteN m n b), flashLen := n + b.length } }

/-- Component data in ROM recovery: written into the image region (spec/12_thimble_management_security.md R390). -/
def State.recoverData (s : State) (b : List Byte) : State :=
  let s := if s.th.upd.written = 0 then s.eraseImage else s
  (s.writeImage b).onUpd fun u => { u with written := u.written + b.length }

/-- Component data for the running firmware: the header is checked when its 1,024 bytes have arrived, or the component has
ended before; then the region is marked invalid, erased and written (spec/12_thimble_management_security.md R391). -/
def State.updateData (s : State) (b : List Byte) : State :=
  let u := s.th.upd
  let s := s.onUpd fun u => { u with written := u.written + b.length }
  if u.passed then s.writeImage b
  else
    let h := u.header ++ b
    if decide (h.length < 1024) && decide (h.length < u.size) then s.onUpd fun u => { u with header := h }
    else if (s.headerFault h).isSome || field h 8 4 ≠ u.size || decide (h.length < 1024) then
      ((s.onUpd fun u => { u with phase := .requested, header := [] }).raise Code.TH_UPDATE_REFUSED thUnit 0 0).sendMgmt u.vdm []
    else
      let s := { s with th := { s.th with imgInvalid := true } }.eraseImage.writeImage h
      s.onUpd fun u => { u with passed := true, header := [] }

/-- `FIRMWARE_DATA`: the data that answers RequestFirmwareData (spec/12_thimble_management_security.md R390, R391). -/
def execFirmwareData (v : MVia) (off : Nat) (data : List Byte) (s : State) : Res :=
  s.onMgmt v true fun s =>
    let u := s.th.upd
    if u.phase ≠ .receiving || off ≠ u.written || data.length ≠ u.nextLen || data.isEmpty then s
    else
      let s := if s.rst.fwRunning then s.updateData data else s.recoverData data
      if s.th.upd.phase = .receiving then s.askData else s

/-- `TRANSFER_COMPLETE`: the whole component has arrived (spec/12_thimble_management_security.md Table 12.5). -/
def execTransferComplete (v : MVia) (s : State) : Res :=
  s.onMgmt v true fun s =>
    let u := s.th.upd
    if u.phase = .receiving && u.written = u.size then (s.onUpd fun u => { u with phase := .received }).msgAnswer []
    else s.refuseMgmt

/-- `VERIFY_COMPLETE`: Table 12.3 on the flash copy; a pass marks the region valid and sets `ACT_PEND`
(spec/12_thimble_management_security.md R390, R391). -/
def execVerifyComplete (v : MVia) (s : State) : Res :=
  s.onMgmt v true fun s =>
    if s.th.upd.phase ≠ .received then s.refuseMgmt
    else
      match s.imageFault with
      | some _ =>
        ((s.onUpd fun u => { u with phase := .requested }).raise Code.TH_UPDATE_VERIFY thUnit 0 0).refuseMgmt
      | none =>
        let s := { s with th := { s.th with imgInvalid := false } }.onUpd fun u => { u with phase := .verified, passed := true }
        (((s.set R.TH_STATUS_ACT_PEND 1).bump R.UPDATES 1).thEvent 1).msgAnswer []

/-- `APPLY_COMPLETE` (spec/12_thimble_management_security.md Table 12.5). -/
def execApplyComplete (v : MVia) (s : State) : Res :=
  s.onMgmt v true fun s => s.msgAnswerIf (s.th.upd.phase = .verified) []

/-- `ACTIVATE_FIRMWARE`: the verified image waits for a reset that clears the always-on domain; self-contained activation is
not supported (spec/12_thimble_management_security.md R390, R391). -/
def execActivateFirmware (v : MVia) (selfContained : Bool) (s : State) : Res :=
  s.onMgmt v true fun s =>
    if s.th.upd.phase = .verified && !selfContained then s.endUpdate.msgAnswer [] else s.refuseMgmt

/-- An update's phase as a number. -/
def UpdPhase.num : UpdPhase → Nat
  | .idle => 0 | .requested => 1 | .receiving => 2 | .received => 3 | .verified => 4

/-- `GET_STATUS`: the phase and the bytes received (spec/12_thimble_management_security.md Table 12.5;
log entry 17). -/
def execGetStatus (v : MVia) (s : State) : Res :=
  s.onMgmt v true fun s => s.msgAnswer (leBytes 1 s.th.upd.phase.num ++ leBytes 4 s.th.upd.written)

/-- `CANCEL_UPDATE_COMPONENT`: the component's transfer ends; the region stays as it is
(spec/12_thimble_management_security.md R391). -/
def execCancelUpdateComponent (v : MVia) (s : State) : Res :=
  s.onMgmt v true fun s =>
    if s.th.upd.phase = .idle || s.th.upd.phase = .requested then s.refuseMgmt
    else (s.onUpd fun u => { vdm := u.vdm, phase := .requested, maxXfer := u.maxXfer }).msgAnswer []

/-- `CANCEL_UPDATE` (spec/12_thimble_management_security.md R391). -/
def execCancelUpdate (v : MVia) (s : State) : Res :=
  s.onMgmt v true fun s => if s.th.upd.phase = .idle then s.refuseMgmt else s.endUpdate.msgAnswer []

/-! ### SPDM -/

/-- `GET_VERSION`: versions 1.0, 1.1 and 1.2; the connection starts anew (spec/12_thimble_management_security.md R393). -/
def execGetVersion (v : MVia) (s : State) : Res :=
  s.onMgmt v false fun s => { s with th := { s.th with algs := false } }.msgAnswer [0x10, 0x11, 0x12]

/-- `GET_CAPABILITIES`: the heartbeat period in seconds (spec/12_thimble_management_security.md Table 12.6). -/
def execGetCapabilities (v : MVia) (s : State) : Res := s.onMgmt v false fun s => s.msgAnswer [10]

/-- `NEGOTIATE_ALGORITHMS`: the supported set is selected when the requester offers it; its answer names the hash by
TPM_ALG_SHA_256 (spec/12_thimble_management_security.md Table 12.6). -/
def execNegotiateAlgorithms (v : MVia) (common : Bool) (s : State) : Res :=
  s.onMgmt v false fun s => if common then { s with th := { s.th with algs := true } }.msgAnswer [] else s.refuseMgmt

/-- The device certificate chain (spec/12_thimble_management_security.md R394, Table 12.6). -/
def certChain : List Byte := (List.range (min 4096 Config.certLen)).map Config.certByte

/-- A request served once the algorithms are selected. -/
def State.onSpdm (s : State) (v : MVia) (k : State → State) : Res :=
  s.onMgmt v false fun s => if s.th.algs then k s else s.refuseMgmt

/-- `GET_DIGESTS`: the digest of slot 0 (spec/12_thimble_management_security.md Table 12.6). -/
def execGetDigests (v : MVia) (s : State) : Res := s.onSpdm v fun s => s.msgAnswer (sha256 certChain)

/-- `GET_CERTIFICATE`: a part of the chain of slot 0 (spec/12_thimble_management_security.md R394, Table 12.6). -/
def execGetCertificate (v : MVia) (slot off len : Nat) (s : State) : Res :=
  s.onSpdm v fun s => s.msgAnswerIf (slot = 0 && decide (off < certChain.length)) ((certChain.drop off).take len)

/-- A signature of the identity key, which no one outside can form: free values (spec/12_thimble_management_security.md
R395; log entry 5). -/
def State.msgSigned (s : State) (b : List Byte) : State :=
  let r := s.freeBytes 384
  r.2.msgAnswer (b ++ r.1)

/-- `CHALLENGE` (spec/12_thimble_management_security.md R393). -/
def execChallenge (v : MVia) (slot : Nat) (nonce : List Byte) (s : State) : Res :=
  s.onSpdm v fun s =>
    if slot = 0 && nonce.length = 32 then s.msgSigned (sha256 certChain ++ nonce) else s.refuseMgmt

/-- `GET_MEASUREMENTS`: index 0 asks how many there are, 0xFF for all; the blocks describe the running image
(spec/12_thimble_management_security.md R396, Table 12.11; log entry 17). -/
def execGetMeasurements (v : MVia) (index : Nat) (nonce : List Byte) (s : State) : Res :=
  s.onSpdm v fun s =>
    if nonce.length ≠ 32 then s.refuseMgmt
    else if index = 0 then s.msgSigned ([7] ++ nonce)
    else if index = 0xFF then s.msgSigned (s.measBlocks 0 ++ nonce)
    else if index ≤ 7 then s.msgSigned (s.measBlock index ++ nonce)
    else s.refuseMgmt

/-- A handshake or secured message that fails authentication (spec/12_thimble_management_security.md Tables 12.13,
12.14). -/
def State.authFail (s : State) : State := ((s.bump R.SPDM_FAIL 1).raise Code.TH_SPDM_AUTH thUnit 0 0).refuseMgmt

/-- A session forgotten, with the nonces that it holds. -/
def State.dropSess (s : State) (id : Nat) : State :=
  { s with th := { s.th with
      sessions := s.th.sessions.filter fun x => x.id ≠ id, nonces := s.th.nonces.filter fun n => n.1 ≠ id } }

/-- `KEY_EXCHANGE`: a session begins, at most four at once (spec/12_thimble_management_security.md Table 12.6). -/
def execKeyExchange (v : MVia) (sess : Nat) (auth : Bool) (s : State) : Res :=
  s.onSpdm v fun s =>
    if !auth then s.authFail
    else if decide (4 ≤ s.th.sessions.length) || s.th.sessions.any fun x => x.id = sess then s.refuseMgmt
    else
      let x : Sess := ⟨sess, false⟩
      { s with th := { s.th with sessions := s.th.sessions ++ [x] } }.msgSigned []

/-- `FINISH`: the session is established (spec/12_thimble_management_security.md Table 12.13). -/
def execFinish (v : MVia) (sess : Nat) (auth : Bool) (s : State) : Res :=
  s.onSpdm v fun s =>
    if s.th.sessions.any fun x => x.id = sess && !x.est then
      if auth then
        let l : List Sess := s.th.sessions.map fun x => if x.id = sess then { x with est := true } else x
        ({ s with th := { s.th with sessions := l } }.bump R.SPDM_SESSIONS 1).msgAnswer []
      else (s.dropSess sess).authFail
    else s.refuseMgmt

/-- A message of an established session, which fails authentication or has its effect. -/
def State.inSess (s : State) (v : MVia) (sess : Nat) (auth : Bool) (k : State → State) : Res :=
  s.onMgmt v false fun s => if !s.th.hasSess sess then s.refuseMgmt else if auth then k s else s.authFail

/-- `HEARTBEAT` (spec/12_thimble_management_security.md Table 12.6). -/
def execHeartbeat (v : MVia) (sess : Nat) (auth : Bool) (s : State) : Res := s.inSess v sess auth fun s => s.msgAnswer []

/-- `KEY_UPDATE`: the keys of a session change; no register shows them (spec/12_thimble_management_security.md
Table 12.6, R395). -/
def execKeyUpdate (v : MVia) (sess : Nat) (auth : Bool) (s : State) : Res := s.inSess v sess auth fun s => s.msgAnswer []

/-- `END_SESSION` (spec/12_thimble_management_security.md Table 12.6). -/
def execEndSession (v : MVia) (sess : Nat) (auth : Bool) (s : State) : Res :=
  s.inSess v sess auth fun s => (s.dropSess sess).msgAnswer []

/-- `HEARTBEAT_TIMEOUT`: no heartbeat has come within the period, and the session ends
(spec/12_thimble_management_security.md Table 12.6). -/
def execHeartbeatTimeout (sess : Nat) (s : State) : Res :=
  if s.fwServes && s.th.hasSess sess then go (s.dropSess sess) else go s

/-! ### Vendor requests -/

/-- A vendor request, which is served inside a session only: the session's identifier is given. -/
def State.onVendor (s : State) (v : MVia) (k : State → Nat → State) : Res :=
  s.onMgmt v false fun s =>
    match v.sess with
    | some id => k s id
    | none => s.refuseMgmt

/-- Is a signature of the owner's debug key over the serial and a body valid? A digest of all zeros means no key
(spec/12_thimble_management_security.md R400, spec/14_reset_bringup_selftest.md Table 14.7, R451; log entry 23)? -/
def State.ownerSigned (s : State) (g : RsaSig) (body : List Byte) : Bool :=
  beNat s.th.ownerKey ≠ 0 && sha256 (g.modulus ++ g.exponent) = s.th.ownerKey
    && rsaValid g.modulus g.exponent g.sig (leBytes 8 Config.serial.toNat ++ body)

/-- `DEBUG_NONCE`: a fresh random nonce (spec/12_thimble_management_security.md R400; log entry 5). -/
def execDebugNonce (v : MVia) (s : State) : Res :=
  s.onVendor v fun s id =>
    let r := s.freeBytes 32
    let s := r.2
    { s with th := { s.th with nonces := s.th.nonces ++ [(id, r.1)] } }.msgAnswer r.1

/-- `DEBUG` after a change of the unlock: measurement 5 follows, and vector 5 (spec/12_thimble_management_security.md
R400, Table 12.12). -/
def State.setUnlock (s : State) (b : Bool) : State :=
  let was := s.th.debug
  let s := { s with th := { s.th with unlocked := b } }
  if s.th.debug = was then s else s.thEvent 2

/-- `DEBUG_UNLOCK`: a locked module is unlocked by a valid signature over a nonce of the same session, which is used up; an
open module needs no unlock (spec/12_thimble_management_security.md R399, R400). -/
def execDebugUnlock (v : MVia) (nonce : List Byte) (sig : RsaSig) (s : State) : Res :=
  s.onVendor v fun s id =>
    let fresh := s.th.nonces.contains (id, nonce)
    let s := { s with th := { s.th with nonces := s.th.nonces.erase (id, nonce) } }
    let sealed_ := s.th.debugLock = 0 || s.th.debugLock = 3
    if sealed_ || !fresh || !s.ownerSigned sig nonce then (s.raise Code.TH_DEBUG_REFUSED thUnit 0 0).refuseMgmt
    else if s.th.debugLock = 1 then ((s.raise Code.TH_DEBUG_UNLOCK thUnit 0 0).setUnlock true).msgAnswer []
    else s.msgAnswer []

/-- `DEBUG_LOCK` (spec/12_thimble_management_security.md R400). -/
def execDebugLock (v : MVia) (s : State) : Res := s.onVendor v fun s _ => (s.setUnlock false).msgAnswer []

/-- Is a request signed as the owner's key requires (spec/14_reset_bringup_selftest.md R451)? -/
def State.ownerOk (s : State) (sig : Option RsaSig) (body : List Byte) : Bool :=
  beNat s.th.ownerKey = 0 ||
    match sig with
    | some g => s.ownerSigned g body
    | none => false

/-- A request refused: `ARG` is the option-byte offset (spec/14_reset_bringup_selftest.md R451,
spec/15_faults_and_safe_state.md Table 15.3). -/
def State.refuseOption (s : State) (off : Nat) : State := (s.raise Code.RST_OPTION_REFUSED thUnit 0 off).refuseMgmt

/-- The offset of the first field for which an image fails R448, or that a burnt `SEAL` forbids
(spec/14_reset_bringup_selftest.md R448, R451). -/
def State.optImageBad (s : State) (o : List Byte) : Option Nat :=
  if o.length ≠ 128 then some 0
  else
    match optHeaderBad o with
    | some off => some off
    | none =>
      match (optFieldBad o).find? fun x => x.2 with
      | some x => some x.1
      | none => if s.th.sealed && field o 9 1 ≠ 0 then some 9 else none

/-- `OPTION_WRITE`: a new image of the flash-held option bytes, in force at the next aux reset
(spec/14_reset_bringup_selftest.md R451). -/
def execOptionWrite (v : MVia) (image : List Byte) (sig : Option RsaSig) (s : State) : Res :=
  s.onVendor v fun s _ =>
    if !s.ownerOk sig image then s.refuseOption 0
    else
      match s.optImageBad image with
      | some off => s.refuseOption off
      | none => { s with th := { s.th with optFlash := some image } }.msgAnswer []

/-- `FUSE_BURN`: one more bit of `KEY_INDEX`, `SEAL` or `POLICY_LOCK`, in force at the next aux reset
(spec/14_reset_bringup_selftest.md R449, R451; log entry 23). -/
def execFuseBurn (v : MVia) (fuse : FuseName) (body : List Byte) (sig : Option RsaSig) (s : State) : Res :=
  s.onVendor v fun s _ =>
    if !s.ownerOk sig body then s.refuseOption 0
    else
      let t := s.th
      let t : Thimble := match fuse with
        | .keyIndex => { t with keyIndex := min 3 (t.keyIndex + 1) }
        | .seal => { t with sealed := true }
        | .policyLock => { t with policyLock := true }
      { s with th := t }.msgAnswer []

/-! ### IDE_KM -/

/-- The key of a stream and key set in the port's key registers. -/
def ideSlot (stream keySet : Nat) : Nat := 2 * stream + keySet

/-- Is a stream one of the two (spec/12_thimble_management_security.md R397)? -/
def ideStream (stream : Nat) : Bool := decide (stream ≤ 1)

/-- `IDE_KM_QUERY` (spec/12_thimble_management_security.md R397). -/
def execIdeKmQuery (v : MVia) (stream : Nat) (s : State) : Res :=
  s.onVendor v fun s _ => s.msgAnswerIf (ideStream stream) (leBytes 1 stream)

/-- `IDE_KM_KEY_PROG`: a key goes into the port's key registers (spec/12_thimble_management_security.md R397). -/
def execIdeKmKeyProg (v : MVia) (stream keySet : Nat) (key : List Byte) (s : State) : Res :=
  s.onVendor v fun s _ =>
    if ideStream stream && decide (keySet ≤ 1) && key.length = 32 then
      { s with cxl := { s.cxl with ideKeys := kvSet s.cxl.ideKeys (ideSlot stream keySet) key } }.msgAnswer []
    else s.refuseMgmt

/-- `IDE_KM_K_SET_GO`: a key set that is programmed comes into use for its stream, in place of the other
(spec/12_thimble_management_security.md R397). -/
def execIdeKmKSetGo (v : MVia) (stream keySet : Nat) (s : State) : Res :=
  s.onVendor v fun s _ =>
    let k := ideSlot stream keySet
    if ideStream stream && decide (keySet ≤ 1) && (kvGet? s.cxl.ideKeys k).isSome then
      { s with cxl := { s.cxl with ideOn := k :: s.cxl.ideOn.filter fun j => j / 2 ≠ stream } }.msgAnswer []
    else s.refuseMgmt

/-- `IDE_KM_K_SET_STOP`: a key set goes out of use (spec/12_thimble_management_security.md R397). -/
def execIdeKmKSetStop (v : MVia) (stream keySet : Nat) (s : State) : Res :=
  s.onVendor v fun s _ =>
    let k := ideSlot stream keySet
    if ideStream stream && decide (keySet ≤ 1) then
      { s with cxl := { s.cxl with ideOn := s.cxl.ideOn.filter (· ≠ k) } }.msgAnswer []
    else s.refuseMgmt

/-! ### MCTP control -/

/-- `SET_ENDPOINT_ID`: one endpoint ID for both bindings; the null and broadcast IDs are refused
(spec/12_thimble_management_security.md R398; log entry 17). -/
def execSetEndpointId (v : MVia) (eid : Nat) (s : State) : Res :=
  s.onMgmt v true fun s =>
    if inRange 1 254 eid then { s with th := { s.th with eid := eid } }.msgAnswer (leBytes 1 eid) else s.refuseMgmt

/-- `GET_ENDPOINT_ID` (spec/12_thimble_management_security.md R398). -/
def execGetEndpointId (v : MVia) (s : State) : Res := s.onMgmt v true fun s => s.msgAnswer (leBytes 1 s.th.eid)

/-- `GET_MCTP_VERSION_SUPPORT`: 1.3 (spec/12_thimble_management_security.md R398). -/
def execGetMctpVersionSupport (v : MVia) (s : State) : Res := s.onMgmt v true fun s => s.msgAnswer [1, 3]

/-- `GET_MESSAGE_TYPE_SUPPORT`: PLDM, SPDM and secured messages (spec/12_thimble_management_security.md R398). -/
def execGetMessageTypeSupport (v : MVia) (s : State) : Res := s.onMgmt v true fun s => s.msgAnswer [0x01, 0x05, 0x06]

/-- `SMBUS_ALERT_RESPONSE`: the module answers the Alert Response Address and releases SMB_ALERT_N
(spec/16_module_connections.md R487). -/
def execSmbusAlertResponse (s : State) : Res :=
  if s.pins.vaux && s.th.alert then go { s with th := { s.th with alert := false } } else go s

end Sys2Proof.Machine
end

