-- ==== Sys2Proof/Machine/Reset.lean ====
section
/-! DEFINITION. Reset sources, the start and the warm reset as commands: supplies, pins, the link, idle requests, training,
readiness (spec/14_reset_bringup_selftest.md R438 to R460, spec/16_module_connections.md R484 to R489). -/

namespace Sys2Proof.Machine

/-! ### Supplies and pins -/

/-- `VAUX_VALID`: an aux reset, with the straps as the board holds them (spec/14_reset_bringup_selftest.md R439,
R447). -/
def execVauxValid (bootSrc clkMode : Nat) (s : State) : Res :=
  if s.pins.vaux then go s
  else
    go ({ s with pins := { s.pins with vaux := true, bootSrc := bootSrc % 4, clkMode := clkMode % 4 } }.auxSource 0)

/-- The backup domain lost with VAUX (spec/14_reset_bringup_selftest.md Table 14.1, R461). -/
def State.loseBackup (s : State) : State := { s with bar := s.bar.filter fun e => !backupReg (e.1 / 64) }

/-- The next log number as the newest sector holds it (spec/12_thimble_management_security.md R404). -/
def Thimble.newest (t : Thimble) : Nat :=
  match t.log.getLast? with
  | some e => (e.1 + 1) % 2 ^ 32
  | none => 0

/-- `VAUX_LOSS`: every rail is removed and the backup domain is lost; Thimble's domain loses power
(spec/16_module_connections.md R484, spec/12_thimble_management_security.md R405). -/
def execVauxLoss (s : State) : Res :=
  if !s.pins.vaux then go s
  else
    let s := ((s.removeRails.clearCold true).clearSeq).loseBackup
    let t := s.th.afterAux
    go { s with
      th := { t with nextLseq := t.newest }
      rst := {}
      flt := {}
      now := 0
      cxl := { s.cxl with perstAt := 0 }
      pow := { s.pow with fastAt := none }
      pins := { s.pins with vaux := false } }

/-- `AUX_RST_N`: an aux reset (spec/14_reset_bringup_selftest.md R439). -/
def execAuxRstN (s : State) : Res := if s.pins.vaux then go (s.auxSource 1) else go s

/-- `INPUT_50V_VALID`: with VAUX valid a cold reset and a start; before VAUX the power stage brings up no rail
(spec/14_reset_bringup_selftest.md R439, R452, spec/16_module_connections.md R484). -/
def execInput50vValid (s : State) : Res :=
  if s.pins.input50 then go s
  else
    let s := { s with pins := { s.pins with input50 := true } }
    if s.pins.vaux then go (s.coldSource 2) else go s

/-- `SYS_RST_N`: a cold reset; no domain of orders 2 to 7 is released while the pin is held
(spec/14_reset_bringup_selftest.md R439, spec/16_module_connections.md Table 16.7). -/
def execSysRstN (s : State) : Res :=
  if s.pins.vaux && !s.pins.sysRst then go ({ s with pins := { s.pins with sysRst := true } }.coldSource 4) else go s

/-- `SYS_RST_N_RELEASE`: the start runs from step 4 (spec/16_module_connections.md Table 16.7). -/
def execSysRstNRelease (s : State) : Res :=
  if s.pins.sysRst then go { s with pins := { s.pins with sysRst := false } }.beginStart else go s

/-- `PERST_ASSERT`: the link is held in reset; once it has been released, an assertion is a cold reset
(spec/14_reset_bringup_selftest.md R439, R442). -/
def execPerstAssert (s : State) : Res :=
  if s.cxl.perst then go s
  else
    let was := s.cxl.released
    let s := { s with cxl := { s.cxl with perst := true, released := false, linkUp := false, mode := 0, configReady := false } }
    if was then go (s.coldSource 3) else go s

/-- `PERST_DEASSERT`: the link leaves reset once order 4 is released (spec/14_reset_bringup_selftest.md R442). -/
def execPerstDeassert (s : State) : Res :=
  if s.cxl.perst then
    go { s with cxl := { s.cxl with perst := false, perstAt := s.now, released := s.rst.released } }
  else go s

/-! ### The warm reset -/

/-- `HOT_RESET`: a hot reset on the link, or the link going down from data-link-up: a warm source of the hot-reset form
(spec/14_reset_bringup_selftest.md R438, R439). -/
def execHotReset (s : State) : Res :=
  if s.cxl.linkUp then go ({ s with cxl := { s.cxl with linkUp := false } }.warmSource 5 false) else go s

/-- `FLR`: a warm source of the FLR form (spec/14_reset_bringup_selftest.md R438, R439). -/
def execFlr (s : State) : Res := if s.cxl.linkUp then go (s.warmSource 6 true) else go s

/-- `BLOCK_IDLE` (spec/14_reset_bringup_selftest.md R443, Table 14.4). -/
def execBlockIdle (b : Blk) (s : State) : Res := if s.canIdle b then go (s.idleBlk b) else go s

/-- `IDLE_TIMEOUT`: a block that has not reported idle is reset regardless (spec/14_reset_bringup_selftest.md R443,
spec/15_faults_and_safe_state.md Table 15.3). -/
def execIdleTimeout (b : Blk) (s : State) : Res :=
  if s.rst.busy.contains b then go ((s.rstFault Code.RST_IDLE_TIMEOUT (s.blkUnit b)).idleBlk b) else go s

/-! ### The start -/

/-- `RAILS_IN_REGULATION`: the rails are up in their order and the panels at their settings
(spec/13_panels_clocks_power.md R424, Table 13.5, spec/14_reset_bringup_selftest.md Table 14.8 step 5). -/
def execRailsInRegulation (s : State) : Res :=
  if s.pins.vaux && s.pins.input50 && !s.pins.sysRst && s.get R.PWR_STATUS_STATE = 1 then
    let s := { s with pow := { s.pow with railsUp := 7 }, rst := { s.rst with railsOk := true } }.set R.PWR_STATUS_STATE 2
    let s := s.stretchState.panelsUp
    go ((List.range 36).foldl State.limits s).releaseOrders
  else go s

/-- `CHANNEL_TRAINED`: every channel has ended its training, the controllers `refused` having trained fully; rows are
repaired, and the extent map is the one of a reset (spec/14_reset_bringup_selftest.md R453, R454, Table 14.8 steps 7 and 8,
spec/08_memory_system.md R269, R285). -/
def execChannelTrained (refused : List Nat) (s : State) : Res :=
  if s.rst.seq ≠ .start || !s.rst.fabricOk || s.rst.trainedOk then go s
  else
    let clk := s.get R.RST_STRAPS_CLK_MODE
    let all := List.range 24
    let full := if s.th.trained = some clk then all.filter fun n => refused.contains n else all
    let s := s.setAll (all.map fun n => (R.MC_STATUS_CH_OK n, 0xF))
    let s := full.foldl (fun s _ => s.rstFault Code.RST_TRAIN 0) s
    let s := { s with th := { s.th with trained := some clk }, rst := { s.rst with trainedOk := true } }
    let s := s.repairRows s.th.repairs []
    go (s.setFilling true)

/-- `ZERO_FILL_DONE`: the fill of a reset has ended (spec/08_memory_system.md R285, spec/14_reset_bringup_selftest.md
Table 14.8 step 9). -/
def execZeroFillDone (s : State) : Res :=
  if s.rst.seq = .start && s.rst.trainedOk && !s.rst.filled then
    let s := { s with rst := { s.rst with filled := true } }.setFilling false
    if (List.range 24).all fun n => s.get (R.MC_STATUS_CH_OK n) = 0xF then go (s.set R.GC_STATE_MEM_READY 1) else go s
  else go s

/-- A slot revoked; a fuse once burnt stays (spec/12_thimble_management_security.md R388). -/
def Thimble.revoke (t : Thimble) (k : Nat) : Thimble := if t.revoked.contains k then t else { t with revoked := t.revoked ++ [k] }

/-- The fuses burnt when the module first becomes ready on an image, with `AUTO_ADVANCE` set; whether the burns succeed is a
free value, and a failure is recorded (spec/12_thimble_management_security.md R385, R388; log entry 5). The counter has 63
bits, so a version above 63 burns them all (log entry 24). -/
def State.advanceFuses (s : State) : State :=
  if s.th.advanced || !s.rst.fwRunning then s
  else
    let s := { s with th := { s.th with advanced := true } }
    let svn := min 63 (s.get R.TH_VERSION_FW_SVN)
    let key := s.get R.TH_STATUS_KEY_IDX
    let due := decide (s.th.rollback < svn) || (List.range key).any fun k => !s.th.revoked.contains k
    if !s.flag R.RST_OPT_AUTO_ADVANCE || !due then s
    else
      let v := s.freeVal 1
      let s := v.2
      if v.1 = 1 then s.raise Code.TH_FUSE thUnit 0 0
      else
        let t := (List.range key).foldl Thimble.revoke s.th
        { s with th := { t with rollback := max t.rollback svn } }

/-- The module becomes ready, or, where an SRAM record found no spare row, enters the safe state
(spec/14_reset_bringup_selftest.md R456, Tables 14.5 and 14.8). -/
def State.becomeReady (s : State) : State :=
  let s := { s with rst := { s.rst with seq := .none } }
  if s.rst.repairFail then s.rstFault Code.RST_REPAIR_FAIL 0
  else
    let s := s.set R.GC_STATE_STATE 1
    s.advanceFuses

/-- `START_READY`: memory and fabric are ready, at a start; the fabric is, at a warm reset
(spec/14_reset_bringup_selftest.md Table 14.8 step 11, Table 14.5 step 6). -/
def execStartReady (s : State) : Res :=
  match s.rst.seq with
  | .start => if s.rst.filled && s.rst.fabricOk && s.flag R.GC_STATE_MEM_READY then go s.becomeReady else go s
  | .warm _ => if s.rst.busy.isEmpty then go s.becomeReady else go s
  | _ => go s

/-- `RST_READY_DEADLINE`: a bound of a start or of a warm reset is missed, which is module-fatal
(spec/14_reset_bringup_selftest.md R446, R452). -/
def execRstReadyDeadline (s : State) : Res :=
  match s.rst.seq with
  | .start => go ({ s with rst := { s.rst with seq := .none } }.rstFault Code.RST_READY_DEADLINE 0)
  | .warm _ => go ({ s with rst := { s.rst with seq := .none, busy := [] } }.rstFault Code.RST_READY_DEADLINE 0)
  | _ => go s

end Sys2Proof.Machine
end

