-- ==== Sys2Proof/Machine/SafeState.lean ====
section
/-! DEFINITION. Entry to the safe state (spec/15_faults_and_safe_state.md R469, R470, Table 15.7), and what the sideband
outputs show (spec/16_module_connections.md R487). -/

namespace Sys2Proof.Machine

/-- The press units stopped: an open step is abandoned without a reply or a message, a committed sweep or audit stops
(spec/07_training_step_and_press.md R250, spec/11_host_interface_and_command_tape.md R382, spec/15_faults_and_safe_state.md
Table 15.1). -/
def State.stopPress (s : State) : State :=
  let s := { s with press := s.press.cleared, seam := { s.seam with insts := [] } }
  if s.stepOpen then (s.set R.PRS_STATUS_PHASE 0).bump R.STEPS_ABANDONED 1
  else if s.phase = 4 then s.setAll [(R.PRS_STATUS_SWEEP_STOPPED, 1), (R.PRS_STATUS_PHASE, 7)]
  else if s.phase = 5 then s.set R.PRS_STATUS_PHASE 7
  else s

/-- The seam ports on entry: one that was up goes to holding and sends its first `HOLD`; one that was not stops bringing its
link up (spec/10_seam_ports_and_collectives.md R347). -/
def State.holdPorts (s : State) : State :=
  (List.range 8).foldl (fun s p =>
    if inRange 3 4 (s.link p) then (s.setLink p 5).sendHold p else s) s

/-- The record that caused the safe state delivered, as its fault event is in the reply store before the entry ends
(spec/15_faults_and_safe_state.md Table 15.7 step 6, R466). -/
def State.causeEvent (s : State) : State :=
  match s.flt.cause with
  | none => s
  | some r =>
    if s.flt.waiting.contains r && (s.rst.fwRunning && !s.th.restarting) then
      { s with flt := { s.flt with waiting := s.flt.waiting.erase r } }.deliver r
    else s

/-- The module passes through Table 15.7: every block stops, the ports hold, the fault event and vector 0 go out, every panel
goes to 400 MHz and 0.60 V once a change that runs has completed (spec/15_faults_and_safe_state.md R469, R470,
spec/13_panels_clocks_power.md R432, Table 13.7). -/
def State.enterSafe (s : State) : State :=
  let s := s.endTest.abortBobs
  let s := { s with
    flt := { s.flt with fatal := false, safe := true }
    rst := { s.rst with seq := .none, busy := [], testing := false } }
  let s := s.set R.GC_STATE_STATE 2
  let s := if s.pow.railsUp = 7 && s.get R.PWR_STATUS_STATE ≠ 5 then s.set R.PWR_STATUS_STATE 4 else s
  (s.stopPress.holdPorts.causeEvent.vector 0).adjustAll

/-- `SAFE_STATE_ENTRY`: a fatal line is asserted, and the module enters the safe state
(spec/15_faults_and_safe_state.md R469, Table 15.7). -/
def execSafeStateEntry (s : State) : Res := if !s.flt.fatal || s.flt.safe then go s else go s.enterSafe

/-- `FLT_SAFE_DEADLINE`: a bound of steps 3 to 6 of the entry is missed; every controller refuses fabric writes, and VDIE is
removed (spec/15_faults_and_safe_state.md R469, Table 15.5). -/
def execFltSafeDeadline (s : State) : Res :=
  if !s.flt.fatal && !s.flt.safe then go s
  else
    let s := if s.flt.safe then s else s.enterSafe
    let s := s.raise Code.FLT_SAFE_DEADLINE 0xC65 0 0
    go ({ s with pow := { s.pow with railsUp := min s.pow.railsUp 6 } }.set R.PWR_STATUS_STATE 5)

/-- SAFE_N is asserted from step 2 of the entry until the next reset is asserted (spec/16_module_connections.md R487). -/
def State.safeN (s : State) : Bool := s.safe

/-- PWRGD is released while the rails are up (spec/16_module_connections.md R487). -/
def State.pwrgd (s : State) : Bool := inRange 2 4 (s.get R.PWR_STATUS_STATE)

end Sys2Proof.Machine
end

