-- ==== Sys2Proof/Machine/SeamStream.lean ====
section
/-! DEFINITION. Pipeline streams, just-in-time gathering, the answers to re-requests, and the messages that serve both a
collective and a gather (spec/10_seam_ports_and_collectives.md R329 to R331, R339 to R341). -/

namespace Sys2Proof.Machine

/-! ### Outbound streams -/

/-- Tokens in a full `STREAM` message by the body size of the link to the receiver
(spec/10_seam_ports_and_collectives.md Table 10.5). -/
def State.streamMax (s : State) (p m : Nat) : Nat := if s.lineMax (s.seamTabOf p).routes m = 16 then 56 else 14

/-- A token record of 72 bytes (spec/10_seam_ports_and_collectives.md R330). -/
def tokenRecord (k : Token) : List Byte := leBytes 8 k.hdr.toNat ++ padTo 64 k.pay

/-- The tokens of a stream that may be sent: those before the first basted one. -/
def OutStream.ready (o : OutStream) : List Token := o.packed.takeWhile fun k => !hBasted k.hdr

/-- The outbound streams with one changed. -/
def State.onOut (s : State) (o o' : OutStream) : State :=
  { s with seam := { s.seam with outs := s.seam.outs.map fun x => if x = o then o' else x } }

/-- The first `n` tokens of a stream sent in one message (spec/10_seam_ports_and_collectives.md R329). -/
def State.sendStream (s : State) (o : OutStream) (n : Nat) : State × OutStream :=
  let o' : OutStream := { o with packed := o.packed.drop n, credits := o.credits - n }
  ((s.onOut o o').sendMsg o.rc.port
    (s.msg 0x10 o.rc.rmod o.rc.rslot s.stepNo 0 0 0 ((o.packed.take n).flatMap tokenRecord)), o')

/-- Full messages of a stream sent as far as its credits go, and a rest as well when `all` is set; the second argument
bounds the recursion (spec/10_seam_ports_and_collectives.md R329). -/
def State.pumpOut (s : State) (all : Bool) : Nat → OutStream → State × OutStream
  | 0, o => (s, o)
  | k + 1, o =>
    let full := s.streamMax o.rc.port o.rc.rmod
    let n := min full (min o.ready.length o.credits)
    if n = full || (all && decide (0 < n)) then
      let x := s.sendStream o n
      x.1.pumpOut all k x.2
    else (s, o)

/-- A stream that has delivered its hem marker ends once its tokens have gone: `STREAM_HEM` follows
(spec/10_seam_ports_and_collectives.md R329). -/
def State.endOut (s : State) (o : OutStream) : State :=
  if o.hem && o.packed.isEmpty then
    { s with seam := { s.seam with outs := s.seam.outs.filter fun x => x ≠ o } }.sendMsg o.rc.port
      (s.msg 0x12 o.rc.rmod o.rc.rslot s.stepNo 0 0 0 [])
  else s

/-- A stream sends what it may. -/
def State.runOut (s : State) (o : OutStream) : State :=
  let x := s.pumpOut o.hem (o.packed.length + 1) o
  x.1.endOut x.2

/-- Has every channel of a generation that sends stream tokens to an engine delivered its hem marker? -/
def State.streamsHemmed (s : State) (p gen : Nat) : Bool :=
  !(s.tiles.any fun e => e.2.gen = gen && (List.range 32).any fun c =>
      chEn e.2.regs c && e.2.get (T.OCH_DEST c) = seamUnit p && e.2.get (T.OCH_DQ c) = 0 && !(e.2.och c).hem)
    && !s.net.any fun n => hDest n.tok.hdr = seamUnit p && hDq n.tok.hdr = 0 && hGen n.tok.hdr = gen

/-- A token joins an outbound stream; one whose `SLOT` names no record has no effect (spec/10_seam_ports_and_collectives.md
R329). -/
def State.packTok (s : State) (p : Nat) (k : Token) : State :=
  match s.seam.outs.find? fun o => o.rc.port = p && o.rc.slot = hSlot k.hdr && o.gen = hGen k.hdr && !o.hem with
  | some o =>
    let o' : OutStream := { o with packed := o.packed ++ [k] }
    (s.onOut o o').runOut o'
  | none => s

/-- `STREAM_TOKEN_OUT`: a token for an `OUT` record reaches its engine and is packed, a basted one held until its verdict;
once the channels of a generation have ended, so do its `OUT` records (spec/10_seam_ports_and_collectives.md R329,
spec/04_fabric_tokens_and_steering.md R131, R137). -/
def execStreamTokenOut (p : Nat) (hdr : W64) (pay : List Byte) (s : State) : Res :=
  let g := hGen hdr
  if s.safe || decide (8 ≤ p) || hDest hdr ≠ seamUnit p || hDq hdr ≠ 0 then go s
  else if hKind hdr = kHem then
    if !s.streamsHemmed p g then go s
    else
      let mine := s.seam.outs.filter fun o => o.rc.port = p && o.gen = g && !o.hem
      go (mine.foldl (fun s o => (s.onOut o { o with hem := true }).runOut { o with hem := true }) s)
  else if hKind hdr = kData || hKind hdr = kCtl || hKind hdr = kEnd then
    match s.fate (seamUnit p) (· = 0) (if hBasted hdr then some (hTag hdr) else none) with
    | (s, .sewn) => go (s.packTok p (Token.sewn ⟨hdr, pay⟩))
    | (s, .gone) => go s
    | (s, .held _) => go (s.packTok p ⟨hdr, pay⟩)
  else go s

/-- `STREAM_PACK_TIMEOUT`: a partial message is sent (spec/10_seam_ports_and_collectives.md R329). -/
def execStreamPackTimeout (p slot : Nat) (s : State) : Res :=
  match s.seam.outs.find? fun o => o.rc.port = p && o.rc.slot = slot && !o.ready.isEmpty with
  | some o =>
    if s.safe then go s
    else
      let x := s.pumpOut true (o.packed.length + 1) o
      go (x.1.endOut x.2)
  | none => go s

/-- `STREAM_CREDIT`: credits for an outbound stream, for the oldest record of the slot that still stands
(spec/10_seam_ports_and_collectives.md R329). -/
def execStreamCredit (p : Nat) (m : SMsg) (s : State) : Res :=
  go (s.onMsg p m 0x11 fun s =>
    match s.seam.outs.find? fun o => o.rc.rmod = m.src && o.rc.rslot = m.kid with
    | some o =>
      let o' : OutStream := { o with credits := o.credits + field m.body 0 4 }
      (s.onOut o o').runOut o'
    | none => s)

/-! ### Inbound streams -/

/-- The tokens of a `STREAM` body. -/
def bodyTokens (b : List Byte) : List Token :=
  (List.range (b.length / 72)).map fun k =>
    let h : W64 := BitVec.ofNat 64 (field b (72 * k) 8)
    ⟨h, (slice b (72 * k + 8) 64).take (hLen h)⟩

/-- The record to which a message for a slot belongs: that of the generation whose `STREAM_HEM` has not come
(spec/10_seam_ports_and_collectives.md R331). -/
def State.inFor (s : State) (p slot : Nat) : Option InStream :=
  s.seam.ins.find? fun i => i.rc.port = p && i.rc.slot = slot && !i.hem

/-- Is a message held: during a QUIESCE, one whose step is later than the last step opened here
(spec/10_seam_ports_and_collectives.md Table 10.11, spec/06_progress_deadlock_drain.md R208)? -/
def State.quiesceHolds (s : State) (m : SMsg) : Bool :=
  (s.drain = 1 || s.drain = 3) && (!s.press.everOpened || serialLater 48 m.kstep s.stepNo)

/-- The inbound streams with one changed. -/
def State.onIn (s : State) (i i' : InStream) : State :=
  { s with seam := { s.seam with ins := s.seam.ins.map fun x => if x = i then i' else x } }

/-- A `STREAM` message acted on: mapped to its record, or kept while there is none yet
(spec/10_seam_ports_and_collectives.md R331). -/
def State.takeStream (s : State) (p : Nat) (m : SMsg) : State :=
  let keep : State := { s with seam := { s.seam with streams := s.seam.streams ++ [(p, m)] } }
  if s.quiesceHolds m then keep
  else
    match s.inFor p m.kid with
    | some i =>
      if i.rc.smod ≠ m.src then s.raise Code.SEAM_STREAM_ORPHAN (seamUnit p) 0x10 (seamArg m.src 0)
      else s.onIn i { i with queue := i.queue ++ bodyTokens m.body }
    | none =>
      if s.seam.hemSlots.contains (p, m.kid) then keep
      else s.raise Code.SEAM_STREAM_ORPHAN (seamUnit p) 0x10 (seamArg m.src 0)

/-- `STREAM` arrives (spec/10_seam_ports_and_collectives.md R331). A message waits behind those of its slot that are kept.
-/
def execStream (p : Nat) (m : SMsg) (s : State) : Res :=
  go (s.onMsg p m 0x10 fun s =>
    if s.seam.streams.any fun x => x.1 = p && x.2.kid = m.kid then
      { s with seam := { s.seam with streams := s.seam.streams ++ [(p, m)] } }
    else s.takeStream p m)

/-- The hem marker of a record whose tokens have all been re-injected, and the end of the record
(spec/10_seam_ports_and_collectives.md R331, spec/05_patterns_and_reconfiguration.md R177). -/
def State.hemIn (s : State) (i : InStream) : State :=
  if i.hem && i.queue.isEmpty && decide (0 < i.credits) && decide (0 < i.bucket)
      && !s.chanStopped (seamUnit i.rc.port) i.rc.slot then
    let s := if i.owed = 0 then s else s.grant i.rc.port i.rc.smod i.rc.slot i.owed
    { s with seam := { s.seam with ins := s.seam.ins.filter fun x => x ≠ i } }.sendUnit (seamUnit i.rc.port)
      ⟨mkHdr ⟨i.rc.dest, i.rc.dq, i.gen, 0, kHem, false, i.rc.vc, 0, 0x3F, 0⟩, []⟩ (some (seamUnit i.rc.port, i.rc.slot))
  else s

/-- `STREAM_HEM` arrives: the slot's record ends, and the pending generation's takes effect
(spec/10_seam_ports_and_collectives.md R331). -/
def execStreamHem (p : Nat) (m : SMsg) (s : State) : Res :=
  go (s.onMsg p m 0x12 fun s =>
    match s.inFor p m.kid with
    | some i =>
      if i.rc.smod ≠ m.src then s.raise Code.SEAM_STREAM_ORPHAN (seamUnit p) 0x12 (seamArg m.src 0)
      else
        let i' : InStream := { i with hem := true }
        let s := s.onIn i i'
        let s : State :=
          if (s.inFor p m.kid).isNone then { s with seam := { s.seam with hemSlots := (p, m.kid) :: s.seam.hemSlots } } else s
        (s.enforceIns p (s.unitGenNow (seamUnit p))).hemIn i'
    | none => s.raise Code.SEAM_STREAM_ORPHAN (seamUnit p) 0x12 (seamArg m.src 0))

/-- The messages kept for a slot that can now be mapped, taken up in their order. -/
def State.takeKept (s : State) (p slot : Nat) : Nat → State
  | 0 => s
  | k + 1 =>
    match s.seam.streams.find? fun x => x.1 = p && x.2.kid = slot with
    | some x =>
      if s.quiesceHolds x.2 || ((s.inFor p slot).isNone && s.seam.hemSlots.contains (p, slot)) then s
      else
        let s : State := { s with seam := { s.seam with streams := s.seam.streams.erase x } }
        (s.takeStream x.1 x.2).takeKept p slot k
    | none => s

/-- The token that a record re-injects (spec/10_seam_ports_and_collectives.md R331). -/
def InStream.reinject (i : InStream) (k : Token) : Token :=
  let f := hdrF k.hdr
  let counts := f.kind = kData || f.kind = kCtl
  ⟨mkHdr { f with dest := i.rc.dest, dq := i.rc.dq, gen := i.gen, tag := if counts then i.tagc else 0, basted := false
                  vc := i.rc.vc, srcp := 0x3F }, k.pay⟩

/-- `STREAM_REINJECT`: the inbound engine re-injects a token, or the hem marker of a record that has ended
(spec/10_seam_ports_and_collectives.md R331). -/
def execStreamReinject (p slot : Nat) (s : State) : Res :=
  if s.safe || s.drain = 2 then go s
  else
    let s := s.takeKept p slot s.seam.streams.length
    match s.seam.ins.find? fun i => i.rc.port = p && i.rc.slot = slot && i.inForce with
    | none => go s
    | some i =>
      match i.queue with
      | [] => go (s.hemIn i)
      | k :: l =>
        if i.credits = 0 || i.bucket = 0 || s.chanStopped (seamUnit p) slot then go s
        else
          let t := i.reinject k
          let counts := hKind k.hdr = kData || hKind k.hdr = kCtl
          let due := decide (16 ≤ i.owed + 1)
          let i' : InStream := { i with
            queue := l, credits := i.credits - 1, bucket := i.bucket - 1
            tagc := if counts then (i.tagc + 1) % 256 else i.tagc
            owed := if due then 0 else i.owed + 1 }
          let s := (s.onIn i i').sendUnit (seamUnit p) t (some (seamUnit p, slot))
          go (if due then s.grant p i.rc.smod slot (i.owed + 1) else s)

/-- `CREDIT_GRANT_TIMEOUT`: the credits of tokens re-injected are granted (spec/10_seam_ports_and_collectives.md R331). -/
def execCreditGrantTimeout (p slot : Nat) (s : State) : Res :=
  match s.seam.ins.find? fun i => i.rc.port = p && i.rc.slot = slot && decide (0 < i.owed) with
  | some i => if s.safe then go s else go ((s.onIn i { i with owed := 0 }).grant p i.rc.smod slot i.owed)
  | none => go s

/-! ### Gathering: the requester -/

/-- The fields of a gather request (spec/10_seam_ports_and_collectives.md Table 10.10). -/
def parseGather (p gen : Nat) (b : List Byte) : Gather :=
  let w (k : Nat) : Nat := field b (8 * k) 8
  { port := p, daddr := bits (w 0) 0 48, line := bits (w 1) 0 37, nlines := bits (w 1) 37 16, stepq := bits (w 2) 0 48
    owner := bits (w 2) 48 14, group := bits (w 3) 0 12, cdest := bits (w 3) 12 12, cdq := bits (w 3) 24 5
    tag := bits (w 3) 29 8, gen := gen }

/-- May the engine complete into a queue: in the requester's generation it is a control queue on VC1 from 0x3F and nothing
else feeds it (spec/05_patterns_and_reconfiguration.md R160)? -/
def State.gatherQueueOk (s : State) (g : Gather) : Bool :=
  (((s.tile g.cdest).liveRegs g.gen).any fun rf =>
    qEn rf g.cdq && rfGet rf (T.QCFG_CTL g.cdq) = 1 && rfGet rf (T.QCFG_VC g.cdq) = 1
      && rfGet rf (T.QCFG_SRC_PANEL g.cdq) = 0x3F)
    && decide (g.cdest < nTiles)
    && match s.feeder g.cdest g.cdq g.gen with
      | none => true
      | some f => f = (seamUnit g.port, doneChan g.cdest g.cdq) && s.chanCred f.1 f.2 g.gen = 16

/-- The completion channel of a gather, there from its first request on (spec/05_patterns_and_reconfiguration.md R160). -/
def State.gatherChan (s : State) (g : Gather) : State :=
  if s.seam.done.any fun d => d.port = g.port && d.dest = g.cdest && d.dq = g.cdq && d.gen = g.gen then s
  else { s with seam := { s.seam with done := s.seam.done ++
    [{ port := g.port, dest := g.cdest, dq := g.cdq, gen := g.gen, cred := 16, credits := 16, bucket := doneBurst }] } }

/-- The completion of a gather: `TAG` and status, counted (spec/10_seam_ports_and_collectives.md R341). -/
def State.gatherEnd (s : State) (g : Gather) (failed : Bool) : State :=
  ((s.gatherChan g).bump R.GATHERS 1).oweDone g.port g.cdest g.cdq g.gen (leBytes 8 (g.tag + b2n failed * 256))

/-- The scale plane of a gather begins at the next 64-byte boundary (spec/10_seam_ports_and_collectives.md R341). -/
def Gather.sclAt (g : Gather) (d : FmtD) : Nat := (g.daddr + g.nlines * lineBytes d + 63) / 64 * 64

/-- Does the destination lie in a `REGION` that permits it (spec/10_seam_ports_and_collectives.md R341)? -/
def State.gatherDestOk (s : State) (g : Gather) : Bool :=
  let d := (s.grp g.group).wfmt
  let n := if d.scaled then g.sclAt d + g.nlines * lineScales d - g.daddr else g.nlines * lineBytes d
  g.daddr % 64 = 0 && decide (g.group < s.gtCount) && (s.regionsOf g.gen).any fun r =>
    inRange 2 3 r.cls && bit r.access 1 && decide (r.base ≤ g.daddr) && decide (g.daddr + n ≤ r.base + r.size)

/-- A gather request begun: refused, completed at once, or sent to the owner
(spec/10_seam_ports_and_collectives.md R341). -/
def State.beginGather (s : State) (p gen : Nat) (b : List Byte) : State :=
  let g := parseGather p gen b
  if !s.gatherQueueOk g then s.raise Code.SEAM_GATHER_REFUSED (seamUnit p) 0 (seamArg g.owner g.group)
  else if g.nlines = 0 then s.gatherEnd g false
  else s.withRec (seamUnit p) g.group fun s =>
    if !s.gatherDestOk g then
      (s.gatherEnd g true).raise Code.SEAM_GATHER_REFUSED (seamUnit p) 0 (seamArg g.owner g.group)
    else
      let s : State := { s.gatherChan g with seam := { (s.gatherChan g).seam with gathers := s.seam.gathers ++ [g] } }
      s.sendMsg p (s.msg 0x30 g.owner g.tag g.stepq g.group 0 g.line (padTo 32 b))

/-- A gather request taken up, or left waiting while 16 are in progress (spec/10_seam_ports_and_collectives.md R341). -/
def State.startGather (s : State) (p gen : Nat) (b : List Byte) : State :=
  if 16 ≤ (s.seam.gathers.filter fun g => g.port = p).length then
    { s with seam := { s.seam with gatherWait := s.seam.gatherWait ++ [(p, gen, b)] } }
  else s.beginGather p gen b

/-- A gather taken off the engine, and the next that waits begun. -/
def State.dropGather (s : State) (g : Gather) : State :=
  let s : State := { s with seam := { s.seam with gathers := s.seam.gathers.filter fun x => !(x.port = g.port && x.tag = g.tag) } }
  match s.seam.gatherWait.find? fun w => w.1 = g.port with
  | some w => { s with seam := { s.seam with gatherWait := s.seam.gatherWait.erase w } }.beginGather w.1 w.2.1 w.2.2
  | none => s

/-- `GATHER_REQUEST`: a request token reaches an engine; a basted one is held (spec/10_seam_ports_and_collectives.md R341,
spec/04_fabric_tokens_and_steering.md R137). -/
def execGatherRequest (p : Nat) (hdr : GatherHdr) (payload : List Byte) (basted : Bool) (s : State) : Res :=
  if s.safe || decide (8 ≤ p) then go s
  else
    match s.fate (seamUnit p) (· = 1) (if basted then some hdr.tag else none) with
    | (s, .sewn) => go (s.startGather p hdr.gen payload)
    | (s, .gone) => go s
    | (s, .held g) => go { s with seam := { s.seam with gatherHeld := s.seam.gatherHeld ++ [⟨p, g, hdr.gen, payload⟩] } }

/-- `SEAM_GATHER_DEADLINE`: a gather is not complete in time (spec/10_seam_ports_and_collectives.md R341). -/
def execSeamGatherDeadline (p tag : Nat) (s : State) : Res :=
  match s.seam.gathers.find? fun g => g.port = p && g.tag = tag with
  | some g =>
    if s.safe then go s
    else go ((s.dropGather g).raise Code.SEAM_GATHER_DEADLINE (seamUnit p) 0 (seamArg g.owner g.group))
  | none => go s

/-- Lines of a gather derived by D and written, the conversions counted with the engine; the element and scale bytes written
(spec/10_seam_ports_and_collectives.md R341, spec/02_numerics.md R71). -/
def State.gatherLines (s : State) (g : Gather) (d : FmtD) (line : Nat) : List (List Byte) → State × List Byte × List Byte
  | [] => (s, [], [])
  | b :: l =>
    if line < g.line ∨ g.line + g.nlines ≤ line then s.gatherLines g d (line + 1) l
    else
      let x := derive d (bytesWords b)
      let k := line - g.line
      let s := ((s.put (g.daddr + k * lineBytes d) x.1).put (g.sclAt d + k * lineScales d) x.2.1).addCnt (60 + g.port) x.2.2
      let y := s.gatherLines g d (line + 1) l
      (y.1, x.1 ++ y.2.1, x.2.1 ++ y.2.2)

/-- The gather that a message from an owner serves. -/
def State.gatherFor (s : State) (m : SMsg) (asked : Bool) : Option Gather :=
  s.seam.gathers.find? fun g => g.tag = m.kid && g.owner = m.src && g.group = m.group && g.asked = asked

/-- Lines of `MASTER` that arrive for a gather (spec/10_seam_ports_and_collectives.md R341). -/
def State.rxGather (s : State) (g : Gather) (m : SMsg) : State :=
  s.withRec (seamUnit g.port) g.group fun s =>
    let x := s.gatherLines g (s.grp g.group).wfmt m.line (bodyLines m.body)
    let g' : Gather := { g with masters := g.masters ++ m.body, elems := g.elems ++ x.2.1, scales := g.scales ++ x.2.2 }
    { x.1 with seam := { x.1.seam with gathers := x.1.seam.gathers.map fun y => if y = g then g' else y } }

/-- A `DIGEST` that arrives for a gather: refused, served, asked for again, or failed
(spec/10_seam_ports_and_collectives.md R341). -/
def State.rxGatherDigest (s : State) (g : Gather) (m : SMsg) : State :=
  let arg := seamArg g.owner g.group
  if field m.body 24 8 = 1 then
    ((s.gatherEnd g true).dropGather g).raise Code.SEAM_GATHER_REFUSED (seamUnit g.port) 0x23 arg
  else if digestOf g.masters g.elems g.scales = (field m.body 0 8, field m.body 8 8) && field m.body 16 8 = g.nlines then
    (s.gatherEnd g false).dropGather g
  else if !g.asked then
    let g' : Gather := { g with masters := [], elems := [], scales := [], asked := true }
    let s : State := { s with seam := { s.seam with gathers := s.seam.gathers.map fun y => if y = g then g' else y } }
    let s := (s.bump R.DIGEST_MISMATCH 1).raise Code.SEAM_DIGEST (seamUnit g.port) 0x23 arg
    s.sendMsg g.port (s.msg 0x24 g.owner g.tag g.stepq g.group 0 g.line (leBytes 8 g.nlines))
  else ((s.gatherEnd g true).dropGather g).raise Code.SEAM_SUSPECT (seamUnit g.port) 0x23 arg

/-- `GATHER_RESP` arrives (spec/10_seam_ports_and_collectives.md R341). -/
def execGatherResp (p : Nat) (m : SMsg) (s : State) : Res :=
  go (s.onMsg p m 0x31 fun s =>
    match s.gatherFor m false with
    | some g => s.rxGather g m
    | none => s)

/-- `RETURN` arrives: lines asked for again by a gather, or of a collective's return
(spec/10_seam_ports_and_collectives.md R339 to R341). -/
def execReturnMsg (p : Nat) (m : SMsg) (s : State) : Res :=
  go (s.onMsg p m 0x22 fun s =>
    match s.gatherFor m true with
    | some g => s.rxGather g m
    | none => s.collMsg p m)

/-- `DIGEST` arrives, for a gather or for a collective's return (spec/10_seam_ports_and_collectives.md R339 to R341). -/
def execDigest (p : Nat) (m : SMsg) (s : State) : Res :=
  go (s.onMsg p m 0x23 fun s =>
    match s.seam.gathers.find? fun g => g.tag = m.kid && g.owner = m.src && g.group = m.group with
    | some g => s.rxGatherDigest g m
    | none => s.collMsg p m)

/-! ### The owner -/

/-- Lines of `MASTER` sent to one module with their digest, or a digest that says refused
(spec/10_seam_ports_and_collectives.md R340, R341). -/
def State.answerLines (s : State) (p : Nat) (m : SMsg) (ty step first count : Nat) (served : Bool) : State :=
  let r := s.grp m.group
  let c := if served then s.engCheck [(r.ownAt r.master first, 256 * count)] else (s, false)
  let s := c.1
  if c.2 then
    let x := s.masterMsgs r first count (s.lineMax (s.seamTabOf p).routes m.src)
    let s := x.1.foldl (fun s b => s.sendMsg p (s.msg ty m.src m.kid step m.group 0 b.1 b.2)) s
    s.sendMsg p (s.msg 0x23 m.src m.kid step m.group 0 first (digestBody x.2 count 0))
  else s.sendMsg p (s.msg 0x23 m.src m.kid step m.group 0 first (digestBody (0, 0) 0 1))

/-- Do lines lie in the owned range of a group? -/
def State.ownsLines (s : State) (g first count : Nat) : Bool :=
  let r := s.grp g
  decide (g < s.gtCount) && decide (r.ownLo ≤ lineElems * first) && decide (lineElems * (first + count) ≤ r.ownHi)

/-- `M_STEP` of a group. -/
def GRec.mStep (r : GRec) : Nat := field r 0xB0 6

/-- The answer to a `REREQ` or `GATHER_REQ` (spec/10_seam_ports_and_collectives.md R340, R341). -/
def State.answerReq (s : State) (p : Nat) (m : SMsg) : State :=
  if m.ty = 0x24 then
    let n := field m.body 0 8
    s.answerLines p m 0x22 (s.grp m.group).mStep m.line n (s.ownsLines m.group m.line n)
  else
    let g := parseGather p s.curGen m.body
    s.answerLines p { m with group := g.group } 0x31 g.stepq g.line g.nlines
      (s.ownsLines g.group g.line g.nlines && (s.grp g.group).mStep = g.stepq)

/-- The group that a request names. -/
def reqGroup (m : SMsg) : Nat := if m.ty = 0x24 then m.group else bits (field m.body 24 8) 0 12

/-- A request at the owner: deferred while a sweep of the group runs (spec/10_seam_ports_and_collectives.md R340, R341). -/
def State.ownerReq (s : State) (p : Nat) (m : SMsg) : State :=
  s.withRec (seamUnit p) (reqGroup m) fun s =>
    if s.sweeping (reqGroup m) then { s with seam := { s.seam with deferred := s.seam.deferred ++ [(p, m)] } } else s.answerReq p m

/-- `REREQ` arrives (spec/10_seam_ports_and_collectives.md R340). -/
def execRereq (p : Nat) (m : SMsg) (s : State) : Res := go (s.onMsg p m 0x24 fun s => s.ownerReq p m)

/-- `GATHER_REQ` arrives (spec/10_seam_ports_and_collectives.md R341). -/
def execGatherReq (p : Nat) (m : SMsg) (s : State) : Res := go (s.onMsg p m 0x30 fun s => s.ownerReq p m)

/-- `OWNER_DEFERRED_ANSWER`: the requests deferred for a group are answered once no sweep of it runs
(spec/10_seam_ports_and_collectives.md R340, R341). -/
def execOwnerDeferredAnswer (group : Nat) (s : State) : Res :=
  if s.safe then go s
  else go (s.withRec 0xC20 group fun s =>
    if s.sweeping group then s
    else
      let mine := s.seam.deferred.filter fun x => reqGroup x.2 = group
      let s : State := { s with seam := { s.seam with deferred := s.seam.deferred.filter fun x => reqGroup x.2 ≠ group } }
      mine.foldl (fun s x => s.answerReq x.1 x.2) s)

end Sys2Proof.Machine
end

