-- ==== Sys2Proof/Machine/Verdicts.lean ====
section
/-! DEFINITION. A verdict that reaches an agent: a tile, a memory controller, a press unit or a seam engine
(spec/04_fabric_tokens_and_steering.md R131, R132, R137). -/

namespace Sys2Proof.Machine

/-- A verdict of a basted close token held at a controller (spec/07_training_step_and_press.md R231). -/
def State.decideClose (s : State) (h : HeldClose) (sew : Bool) : State :=
  let s := { s with press := { s.press with heldClose := s.press.heldClose.erase h } }
  if sew then s.closeTok h.mc h.len h.payload else s

/-- The stream of an engine that holds a basted token of a tag, and the token. -/
def State.bastedOut (s : State) (p g : Nat) : Option (OutStream × Token) :=
  s.seam.outs.findSome? fun o => if o.rc.port = p then (o.packed.find? (bastedTag g)).map fun k => (o, k) else none

/-- A token of a list replaced by tokens. -/
def replaceTok (k : Token) (r : List Token) : List Token → List Token
  | [] => []
  | x :: l => if x = k then r ++ l else x :: replaceTok k r l

/-- A verdict of a basted stream token held at an engine: sewn, it goes on, as do those behind it; squashed, it is
discarded (spec/10_seam_ports_and_collectives.md R329). -/
def State.decideOut (s : State) (o : OutStream) (k : Token) (sew : Bool) : State :=
  let r : List Token := if sew then [k.sewn] else []
  let o' : OutStream := { o with packed := replaceTok k r o.packed }
  (s.onOut o o').runOut o'

/-- A verdict of a basted gather request held at an engine (spec/10_seam_ports_and_collectives.md R341). -/
def State.decideGather (s : State) (h : HeldGather) (sew : Bool) : State :=
  let s := { s with seam := { s.seam with gatherHeld := s.seam.gatherHeld.erase h } }
  if sew then s.startGather h.port h.gen h.payload else s

/-- A verdict that matches nothing held at a selvedge unit: it is kept while the basted token is in the mesh or has not been
acted on yet, and else it is an orphan, unless it has decided a fault held for the token
(spec/04_fabric_tokens_and_steering.md R131, R148). -/
def State.unitOrphan (s : State) (u q g : Nat) (sew held : Bool) : State :=
  if held then s
  else if s.bastedInNet u q g || s.fab.came.contains (u, q, g) then
    { s with fab := { s.fab with verdicts := s.fab.verdicts ++ [(u, q, g, sew)] } }
  else s.raise Code.FAB_VERDICT_ORPHAN u q 0

/-- The state after a verdict for what a selvedge unit holds of a basted token of a queue and tag, if it holds it: an atomic
request on queue 28, a close token on queue 30, any other request of a memory controller; a stream token on queue 0, a
gather request on queue 1 of a seam engine (spec/04_fabric_tokens_and_steering.md R131, R137). -/
def State.decideAt (s : State) (u q g : Nat) (sew : Bool) : Option State :=
  if inRange 0xC00 0xC17 u then
    if q = 30 then (s.press.heldClose.find? fun h => h.mc = u - 0xC00 && h.tag = g).map fun h => s.decideClose h sew
    else
      (s.mem.heldReqs.find? fun h => h.mc = u - 0xC00 && h.tag = some g && isAtom h.req = decide (q = 28)).map fun h =>
        s.decideReq h sew
  else if inRange 0xC20 0xC27 u then
    if q = 0 then (s.bastedOut (u - 0xC20) g).map fun x => s.decideOut x.1 x.2 sew
    else if q = 1 then (s.seam.gatherHeld.find? fun h => h.port = u - 0xC20 && h.tag = g).map fun h => s.decideGather h sew
    else none
  else none

/-- A verdict absorbed at a selvedge unit: faults held for the token are recorded or discarded, and what the unit holds of
the token goes on or is discarded. -/
def State.verdictUnit (s : State) (u q g : Nat) (sew : Bool) : State :=
  let held := s.fab.hfaults.any fun f => f.dest = u && f.q = q && f.tag = g
  let s := s.heldUnit u q g sew
  (s.decideAt u q g sew).getD (s.unitOrphan u q g sew held)

/-- `VERDICT_TOKEN`: a verdict reaches tile or unit `t` for a basted token of a queue and tag
(spec/04_fabric_tokens_and_steering.md R131, R132, R137). -/
def execVerdictToken (t q tag : Nat) (sew : Bool) (s : State) : Res :=
  if s.safe then go s
  else if t < nTiles then go (s.verdictAt t q tag sew)
  else go (s.verdictUnit t q tag sew)

end Sys2Proof.Machine
end

