-- ==== Sys2Proof/Machine/Dispatch.lean ====
section
/-! DEFINITION. One arm per command: the meaning that gives its effect. -/

namespace Sys2Proof.Machine

def exec (i : Instr) (s : State) : Host.Outcome State Fault Refusal :=
  match i with
  | .regWrite tile off wide v => Sys2Proof.Machine.execRegWrite tile off wide v s
  | .regAccessMisaligned off size write v => Sys2Proof.Machine.execRegAccessMisaligned off size write v s
  | .lowerWordLatchRead tile off => Sys2Proof.Machine.execLowerWordLatchRead tile off s
  | .upperWordRead tile off => Sys2Proof.Machine.execUpperWordRead tile off s
  | .counterRead tile off wide => Sys2Proof.Machine.execCounterRead tile off wide s
  | .w1cClear tile off v set => Sys2Proof.Machine.execW1cClear tile off v set s
  | .gcCommit v => Sys2Proof.Machine.execGcCommit v s
  | .numCommit v => Sys2Proof.Machine.execNumCommit v s
  | .tileCommit t v => Sys2Proof.Machine.execTileCommit t v s
  | .tileCommitApply t => Sys2Proof.Machine.execTileCommitApply t s
  | .tileCommitWait t => Sys2Proof.Machine.execTileCommitWait t s
  | .bankFillDone t bank => Sys2Proof.Machine.execBankFillDone t bank s
  | .fabCommit v => Sys2Proof.Machine.execFabCommit v s
  | .plCommit v => Sys2Proof.Machine.execPlCommit v s
  | .unpCommit v => Sys2Proof.Machine.execUnpCommit v s
  | .prsCommit v => Sys2Proof.Machine.execPrsCommit v s
  | .mcCommit n v => Sys2Proof.Machine.execMcCommit n v s
  | .modeRegisterRead n v => Sys2Proof.Machine.execModeRegisterRead n v s
  | .modeRegisterWrite n v => Sys2Proof.Machine.execModeRegisterWrite n v s
  | .hardPpr n v => Sys2Proof.Machine.execHardPpr n v s
  | .mcRepairDone n fail rv => Sys2Proof.Machine.execMcRepairDone n fail rv s
  | .spCommit n v => Sys2Proof.Machine.execSpCommit n v s
  | .seamGcommit v => Sys2Proof.Machine.execSeamGcommit v s
  | .tpCommit v => Sys2Proof.Machine.execTpCommit v s
  | .tpAbandon v => Sys2Proof.Machine.execTpAbandon v s
  | .thCommit v => Sys2Proof.Machine.execThCommit v s
  | .pnlCommit p v => Sys2Proof.Machine.execPnlCommit p v s
  | .pwrCommit v => Sys2Proof.Machine.execPwrCommit v s
  | .halt t e => Sys2Proof.Machine.execHalt t e s
  | .nop t e => Sys2Proof.Machine.execNop t e s
  | .fence t e units => Sys2Proof.Machine.execFence t e units s
  | .loop t e count last => Sys2Proof.Machine.execLoop t e count last s
  | .brctl t e q target => Sys2Proof.Machine.execBrctl t e q target s
  | .jmp t e target => Sys2Proof.Machine.execJmp t e target s
  | .tmma t e d a b => Sys2Proof.Machine.execTmma t e d a b s
  | .vop t e k a b c dst n => Sys2Proof.Machine.execVop t e k a b c dst n s
  | .vcvt t e src dst fmt n => Sys2Proof.Machine.execVcvt t e src dst fmt n s
  | .vred t e mx src idx n => Sys2Proof.Machine.execVred t e mx src idx n s
  | .accrd t e m base n dst => Sys2Proof.Machine.execAccrd t e m base n dst s
  | .accinit t e m base n => Sys2Proof.Machine.execAccinit t e m base n s
  | .accadd t e m src base n => Sys2Proof.Machine.execAccadd t e m src base n s
  | .rpub t e r k => Sys2Proof.Machine.execRpub t e r k s
  | .rrel t e r k => Sys2Proof.Machine.execRrel t e r k s
  | .recv t e pay q dst => Sys2Proof.Machine.execRecv t e pay q dst s
  | .send t e c slot src len => Sys2Proof.Machine.execSend t e c slot src len s
  | .dlld t e reg q => Sys2Proof.Machine.execDlld t e reg q s
  | .bobgo t e b entry => Sys2Proof.Machine.execBobgo t e b entry s
  | .opComplete t idx err => Sys2Proof.Machine.execOpComplete t idx err s
  | .spCorrWriteback t bank => Sys2Proof.Machine.execSpCorrWriteback t bank s
  | .ringAccessResume t agent cycles => Sys2Proof.Machine.execRingAccessResume t agent cycles s
  | .tileRingStall t w => Sys2Proof.Machine.execTileRingStall t w s
  | .basteSew b => Sys2Proof.Machine.execBasteSew b s
  | .basteSquash t idx => Sys2Proof.Machine.execBasteSquash t idx s
  | .tokenRouterInput r hdr pay e => Sys2Proof.Machine.execTokenRouterInput r hdr pay e s
  | .tokenDelivery dest hdr pay e => Sys2Proof.Machine.execTokenDelivery dest hdr pay e s
  | .creditReturn dest chan => Sys2Proof.Machine.execCreditReturn dest chan s
  | .bucketRefill t c => Sys2Proof.Machine.execBucketRefill t c s
  | .vc3GuardExpiry r p => Sys2Proof.Machine.execVc3GuardExpiry r p s
  | .fabChanDeadline t agent w => Sys2Proof.Machine.execFabChanDeadline t agent w s
  | .shuttleFire t k => Sys2Proof.Machine.execShuttleFire t k s
  | .shuttleBaste t k => Sys2Proof.Machine.execShuttleBaste t k s
  | .shuttleResolve t k => Sys2Proof.Machine.execShuttleResolve t k s
  | .shuttleEndPass t k => Sys2Proof.Machine.execShuttleEndPass t k s
  | .shuttleHemPass t k => Sys2Proof.Machine.execShuttleHemPass t k s
  | .verdictToken t q tag sew => Sys2Proof.Machine.execVerdictToken t q tag sew s
  | .predicateFire p => Sys2Proof.Machine.execPredicateFire p s
  | .predicateHemPass t => Sys2Proof.Machine.execPredicateHemPass t s
  | .patternLoad tag => Sys2Proof.Machine.execPatternLoad tag s
  | .loadPass2 e => Sys2Proof.Machine.execLoadPass2 e s
  | .patternArm tag => Sys2Proof.Machine.execPatternArm tag s
  | .arm unit => Sys2Proof.Machine.execArm unit s
  | .armAck unit => Sys2Proof.Machine.execArmAck unit s
  | .go unit => Sys2Proof.Machine.execGo unit s
  | .hemSend t c => Sys2Proof.Machine.execHemSend t c s
  | .tileSwitch t => Sys2Proof.Machine.execTileSwitch t s
  | .selvedgeGenEnd unit => Sys2Proof.Machine.execSelvedgeGenEnd unit s
  | .retireAck unit => Sys2Proof.Machine.execRetireAck unit s
  | .discard unit => Sys2Proof.Machine.execDiscard unit s
  | .discardAck unit => Sys2Proof.Machine.execDiscardAck unit s
  | .patLoadDeadline => Sys2Proof.Machine.execPatLoadDeadline s
  | .patRetireDeadline => Sys2Proof.Machine.execPatRetireDeadline s
  | .monitorTrip t agent w => Sys2Proof.Machine.execMonitorTrip t agent w s
  | .stallReport panel => Sys2Proof.Machine.execStallReport panel s
  | .probe t => Sys2Proof.Machine.execProbe t s
  | .probeReply t payload => Sys2Proof.Machine.execProbeReply t payload s
  | .confirmWindowEnd => Sys2Proof.Machine.execConfirmWindowEnd s
  | .unpProbeDeadline => Sys2Proof.Machine.execUnpProbeDeadline s
  | .spillCommand t q => Sys2Proof.Machine.execSpillCommand t q s
  | .spillArrival t hdr pay => Sys2Proof.Machine.execSpillArrival t hdr pay s
  | .spillRecord t q => Sys2Proof.Machine.execSpillRecord t q s
  | .refill t q e => Sys2Proof.Machine.execRefill t q e s
  | .refillToken t q => Sys2Proof.Machine.execRefillToken t q s
  | .switchNotice t => Sys2Proof.Machine.execSwitchNotice t s
  | .spillModeExit t q => Sys2Proof.Machine.execSpillModeExit t q s
  | .drainQuiesce tag => Sys2Proof.Machine.execDrainQuiesce tag s
  | .drainFlush tag => Sys2Proof.Machine.execDrainFlush tag s
  | .quiesceStopInputs => Sys2Proof.Machine.execQuiesceStopInputs s
  | .quiesceProbeRound => Sys2Proof.Machine.execQuiesceProbeRound s
  | .unpDrainDeadline => Sys2Proof.Machine.execUnpDrainDeadline s
  | .flushDone => Sys2Proof.Machine.execFlushDone s
  | .unpFlushDeadline => Sys2Proof.Machine.execUnpFlushDeadline s
  | .resume tag => Sys2Proof.Machine.execResume tag s
  | .memRead agent addr len noalloc e => Sys2Proof.Machine.execMemRead agent addr len noalloc e s
  | .memWrite agent addr bytes noalloc basted e => Sys2Proof.Machine.execMemWrite agent addr bytes noalloc basted e s
  | .f32add agent addr set cnt seq salt addends basted e => Sys2Proof.Machine.execF32add agent addr set cnt seq salt addends basted e s
  | .pairadd agent addr set cnt seq salt addends basted e => Sys2Proof.Machine.execPairadd agent addr set cnt seq salt addends basted e s
  | .bf16add agent addr set cnt seq salt addends basted e => Sys2Proof.Machine.execBf16add agent addr set cnt seq salt addends basted e s
  | .i32add agent addr set cnt seq salt addends basted e => Sys2Proof.Machine.execI32add agent addr set cnt seq salt addends basted e s
  | .setReset agent mc set cnt => Sys2Proof.Machine.execSetReset agent mc set cnt s
  | .atomTicketDeadline mc idx => Sys2Proof.Machine.execAtomTicketDeadline mc idx s
  | .scrubRead chan e => Sys2Proof.Machine.execScrubRead chan e s
  | .rowRemap chan bank row bad => Sys2Proof.Machine.execRowRemap chan bank row bad s
  | .channelFail chan => Sys2Proof.Machine.execChannelFail chan s
  | .setClass tag => Sys2Proof.Machine.execSetClass tag s
  | .classFillEnd => Sys2Proof.Machine.execClassFillEnd s
  | .move tag hostData => Sys2Proof.Machine.execMove tag hostData s
  | .moveDone => Sys2Proof.Machine.execMoveDone s
  | .liningRequestsDrained n g => Sys2Proof.Machine.execLiningRequestsDrained n g s
  | .liningPdDeadline n g => Sys2Proof.Machine.execLiningPdDeadline n g s
  | .liningWritebackDone n g => Sys2Proof.Machine.execLiningWritebackDone n g s
  | .liningWritebackDeadline n g => Sys2Proof.Machine.execLiningWritebackDeadline n g s
  | .liningPowerUpDone n g => Sys2Proof.Machine.execLiningPowerUpDone n g s
  | .bobEnd t b => Sys2Proof.Machine.execBobEnd t b s
  | .bobLoop t b => Sys2Proof.Machine.execBobLoop t b s
  | .endl t b => Sys2Proof.Machine.execEndl t b s
  | .skipdl t b => Sys2Proof.Machine.execSkipdl t b s
  | .seta t b => Sys2Proof.Machine.execSeta t b s
  | .adda t b => Sys2Proof.Machine.execAdda t b s
  | .seti t b => Sys2Proof.Machine.execSeti t b s
  | .ldr t b => Sys2Proof.Machine.execLdr t b s
  | .ldp t b => Sys2Proof.Machine.execLdp t b s
  | .str t b err => Sys2Proof.Machine.execStr t b err s
  | .stp t b err => Sys2Proof.Machine.execStp t b err s
  | .pub t b => Sys2Proof.Machine.execPub t b s
  | .rel t b => Sys2Proof.Machine.execRel t b s
  | .emit t b => Sys2Proof.Machine.execEmit t b s
  | .wait t b => Sys2Proof.Machine.execWait t b s
  | .bobbinRequest target p0 p1 data wait e => Sys2Proof.Machine.execBobbinRequest target p0 p1 data wait e s
  | .bobbinResponse t b ridx num status epoch data => Sys2Proof.Machine.execBobbinResponse t b ridx num status epoch data s
  | .retirementToken target stream epoch => Sys2Proof.Machine.execRetirementToken target stream epoch s
  | .bobReqDeadline t b => Sys2Proof.Machine.execBobReqDeadline t b s
  | .stepOpen tag => Sys2Proof.Machine.execStepOpen tag s
  | .stepOpenResume => Sys2Proof.Machine.execStepOpenResume s
  | .closeToken mc tag len payload basted => Sys2Proof.Machine.execCloseToken mc tag len payload basted s
  | .closeEnd group => Sys2Proof.Machine.execCloseEnd group s
  | .partialNorm => Sys2Proof.Machine.execPartialNorm s
  | .sweepLine mc group line e => Sys2Proof.Machine.execSweepLine mc group line e s
  | .audit mc => Sys2Proof.Machine.execAudit mc s
  | .prsCloseDeadline => Sys2Proof.Machine.execPrsCloseDeadline s
  | .prsNormDeadline => Sys2Proof.Machine.execPrsNormDeadline s
  | .prsSweepDeadline => Sys2Proof.Machine.execPrsSweepDeadline s
  | .linkTrained p => Sys2Proof.Machine.execLinkTrained p s
  | .seamLinkTrain p => Sys2Proof.Machine.execSeamLinkTrain p s
  | .negotiateTick p => Sys2Proof.Machine.execNegotiateTick p s
  | .seamNegotiate p m => Sys2Proof.Machine.execSeamNegotiate p m s
  | .seamNegFail p => Sys2Proof.Machine.execSeamNegFail p s
  | .ack p m => Sys2Proof.Machine.execAck p m s
  | .nak p m => Sys2Proof.Machine.execNak p m s
  | .hold p m => Sys2Proof.Machine.execHold p m s
  | .stream p m => Sys2Proof.Machine.execStream p m s
  | .streamCredit p m => Sys2Proof.Machine.execStreamCredit p m s
  | .streamHem p m => Sys2Proof.Machine.execStreamHem p m s
  | .owner p m => Sys2Proof.Machine.execOwner p m s
  | .partialMsg p m => Sys2Proof.Machine.execPartialMsg p m s
  | .returnMsg p m => Sys2Proof.Machine.execReturnMsg p m s
  | .digest p m => Sys2Proof.Machine.execDigest p m s
  | .rereq p m => Sys2Proof.Machine.execRereq p m s
  | .normPart p m => Sys2Proof.Machine.execNormPart p m s
  | .verdict p m => Sys2Proof.Machine.execVerdict p m s
  | .abandon p m => Sys2Proof.Machine.execAbandon p m s
  | .gatherReq p m => Sys2Proof.Machine.execGatherReq p m s
  | .gatherResp p m => Sys2Proof.Machine.execGatherResp p m s
  | .messageRelay p m => Sys2Proof.Machine.execMessageRelay p m s
  | .otherFrame f => Sys2Proof.Machine.execOtherFrame f s
  | .fcsErrorFrame p => Sys2Proof.Machine.execFcsErrorFrame p s
  | .ackInterval p => Sys2Proof.Machine.execAckInterval p s
  | .rtxTimeout p => Sys2Proof.Machine.execRtxTimeout p s
  | .pfcFrame p prio quanta => Sys2Proof.Machine.execPfcFrame p prio quanta s
  | .peerSilence p => Sys2Proof.Machine.execPeerSilence p s
  | .pcsLoss p => Sys2Proof.Machine.execPcsLoss p s
  | .streamTokenOut p hdr pay => Sys2Proof.Machine.execStreamTokenOut p hdr pay s
  | .streamPackTimeout p slot => Sys2Proof.Machine.execStreamPackTimeout p slot s
  | .streamReinject p slot => Sys2Proof.Machine.execStreamReinject p slot s
  | .creditGrantTimeout p slot => Sys2Proof.Machine.execCreditGrantTimeout p slot s
  | .contribTimeout group => Sys2Proof.Machine.execContribTimeout group s
  | .seamRedDeadline => Sys2Proof.Machine.execSeamRedDeadline s
  | .seamRetDeadline => Sys2Proof.Machine.execSeamRetDeadline s
  | .gatherRequest p hdr payload basted => Sys2Proof.Machine.execGatherRequest p hdr payload basted s
  | .seamGatherDeadline p tag => Sys2Proof.Machine.execSeamGatherDeadline p tag s
  | .ownerDeferredAnswer group => Sys2Proof.Machine.execOwnerDeferredAnswer group s
  | .holdTick p => Sys2Proof.Machine.execHoldTick p s
  | .reservedTypeMessage p m => Sys2Proof.Machine.execReservedTypeMessage p m s
  | .linkModeSettle cxl speed width => Sys2Proof.Machine.execLinkModeSettle cxl speed width s
  | .configAccess write off v => Sys2Proof.Machine.execConfigAccess write off v s
  | .hdmDecoderCommit d base size ways1 => Sys2Proof.Machine.execHdmDecoderCommit d base size ways1 s
  | .hdmRead acc len e => Sys2Proof.Machine.execHdmRead acc len e s
  | .hdmWrite acc bytes poisoned => Sys2Proof.Machine.execHdmWrite acc bytes poisoned s
  | .tapeWindowAccess write off len bytes => Sys2Proof.Machine.execTapeWindowAccess write off len bytes s
  | .hostSnoop acc => Sys2Proof.Machine.execHostSnoop acc s
  | .hostBiasAnswer idx => Sys2Proof.Machine.execHostBiasAnswer idx s
  | .hostResponse idx ans => Sys2Proof.Machine.execHostResponse idx ans s
  | .hostCompletionTimeout idx => Sys2Proof.Machine.execHostCompletionTimeout idx s
  | .tapeNotice off len e => Sys2Proof.Machine.execTapeNotice off len e s
  | .tornTimeout => Sys2Proof.Machine.execTornTimeout s
  | .commandStart tag => Sys2Proof.Machine.execCommandStart tag s
  | .replyWrite hostRseq => Sys2Proof.Machine.execReplyWrite hostRseq s
  | .replySpacePoll hostRseq => Sys2Proof.Machine.execReplySpacePoll hostRseq s
  | .tapeReplyDeadline => Sys2Proof.Machine.execTapeReplyDeadline s
  | .tapeNop tag => Sys2Proof.Machine.execTapeNop tag s
  | .negotiate tag => Sys2Proof.Machine.execNegotiate tag s
  | .cancel tag => Sys2Proof.Machine.execCancel tag s
  | .bias tag => Sys2Proof.Machine.execBias tag s
  | .dbgRead tag e => Sys2Proof.Machine.execDbgRead tag e s
  | .dbgWrite tag data => Sys2Proof.Machine.execDbgWrite tag data s
  | .thNegotiate tag => Sys2Proof.Machine.execThNegotiate tag s
  | .sensorRead tag => Sys2Proof.Machine.execSensorRead tag s
  | .logRead tag => Sys2Proof.Machine.execLogRead tag s
  | .logClear tag => Sys2Proof.Machine.execLogClear tag s
  | .identity tag => Sys2Proof.Machine.execIdentity tag s
  | .measure tag => Sys2Proof.Machine.execMeasure tag s
  | .shutdownWithTest tag => Sys2Proof.Machine.execShutdownWithTest tag s
  | .shutdownWithoutTest tag => Sys2Proof.Machine.execShutdownWithoutTest tag s
  | .thCommandTimeout tag => Sys2Proof.Machine.execThCommandTimeout tag s
  | .finishingTestDone found analog => Sys2Proof.Machine.execFinishingTestDone found analog s
  | .rstFtDeadline => Sys2Proof.Machine.execRstFtDeadline s
  | .romBoot => Sys2Proof.Machine.execRomBoot s
  | .bootDeadline => Sys2Proof.Machine.execBootDeadline s
  | .getTid v => Sys2Proof.Machine.execGetTid v s
  | .getPldmVersion v => Sys2Proof.Machine.execGetPldmVersion v s
  | .getPldmTypes v => Sys2Proof.Machine.execGetPldmTypes v s
  | .getPldmCommands v ty => Sys2Proof.Machine.execGetPldmCommands v ty s
  | .getPdrRepositoryInfo v => Sys2Proof.Machine.execGetPdrRepositoryInfo v s
  | .getPdr v record => Sys2Proof.Machine.execGetPdr v record s
  | .getSensorReading v id => Sys2Proof.Machine.execGetSensorReading v id s
  | .setNumericSensorEnable v id op => Sys2Proof.Machine.execSetNumericSensorEnable v id op s
  | .setEventReceiver v enable eid => Sys2Proof.Machine.execSetEventReceiver v enable eid s
  | .queryDeviceIdentifiers v => Sys2Proof.Machine.execQueryDeviceIdentifiers v s
  | .getFirmwareParameters v => Sys2Proof.Machine.execGetFirmwareParameters v s
  | .requestUpdate v maxXfer => Sys2Proof.Machine.execRequestUpdate v maxXfer s
  | .passComponentTable v cls id => Sys2Proof.Machine.execPassComponentTable v cls id s
  | .updateComponent v cls id size => Sys2Proof.Machine.execUpdateComponent v cls id size s
  | .firmwareData v off data => Sys2Proof.Machine.execFirmwareData v off data s
  | .transferComplete v => Sys2Proof.Machine.execTransferComplete v s
  | .verifyComplete v => Sys2Proof.Machine.execVerifyComplete v s
  | .applyComplete v => Sys2Proof.Machine.execApplyComplete v s
  | .activateFirmware v selfContained => Sys2Proof.Machine.execActivateFirmware v selfContained s
  | .getStatus v => Sys2Proof.Machine.execGetStatus v s
  | .cancelUpdateComponent v => Sys2Proof.Machine.execCancelUpdateComponent v s
  | .cancelUpdate v => Sys2Proof.Machine.execCancelUpdate v s
  | .getVersion v => Sys2Proof.Machine.execGetVersion v s
  | .getCapabilities v => Sys2Proof.Machine.execGetCapabilities v s
  | .negotiateAlgorithms v common => Sys2Proof.Machine.execNegotiateAlgorithms v common s
  | .getDigests v => Sys2Proof.Machine.execGetDigests v s
  | .getCertificate v slot off len => Sys2Proof.Machine.execGetCertificate v slot off len s
  | .challenge v slot nonce => Sys2Proof.Machine.execChallenge v slot nonce s
  | .getMeasurements v index nonce => Sys2Proof.Machine.execGetMeasurements v index nonce s
  | .keyExchange v sess auth => Sys2Proof.Machine.execKeyExchange v sess auth s
  | .finish v sess auth => Sys2Proof.Machine.execFinish v sess auth s
  | .heartbeat v sess auth => Sys2Proof.Machine.execHeartbeat v sess auth s
  | .keyUpdate v sess auth => Sys2Proof.Machine.execKeyUpdate v sess auth s
  | .endSession v sess auth => Sys2Proof.Machine.execEndSession v sess auth s
  | .debugNonce v => Sys2Proof.Machine.execDebugNonce v s
  | .debugUnlock v nonce sig => Sys2Proof.Machine.execDebugUnlock v nonce sig s
  | .debugLock v => Sys2Proof.Machine.execDebugLock v s
  | .optionWrite v image sig => Sys2Proof.Machine.execOptionWrite v image sig s
  | .fuseBurn v fuse body sig => Sys2Proof.Machine.execFuseBurn v fuse body sig s
  | .ideKmQuery v stream => Sys2Proof.Machine.execIdeKmQuery v stream s
  | .ideKmKeyProg v stream keySet key => Sys2Proof.Machine.execIdeKmKeyProg v stream keySet key s
  | .ideKmKSetGo v stream keySet => Sys2Proof.Machine.execIdeKmKSetGo v stream keySet s
  | .ideKmKSetStop v stream keySet => Sys2Proof.Machine.execIdeKmKSetStop v stream keySet s
  | .setEndpointId v eid => Sys2Proof.Machine.execSetEndpointId v eid s
  | .getEndpointId v => Sys2Proof.Machine.execGetEndpointId v s
  | .getMctpVersionSupport v => Sys2Proof.Machine.execGetMctpVersionSupport v s
  | .getMessageTypeSupport v => Sys2Proof.Machine.execGetMessageTypeSupport v s
  | .smbusAlertResponse => Sys2Proof.Machine.execSmbusAlertResponse s
  | .sensorSample readings => Sys2Proof.Machine.execSensorSample readings s
  | .logWrite => Sys2Proof.Machine.execLogWrite s
  | .faultRecord unit => Sys2Proof.Machine.execFaultRecord unit s
  | .watchdogExpiry => Sys2Proof.Machine.execWatchdogExpiry s
  | .neighbourAnnounce p q f => Sys2Proof.Machine.execNeighbourAnnounce p q f s
  | .governorSlowLoop p100 p1ms p1s vin iin => Sys2Proof.Machine.execGovernorSlowLoop p100 p1ms p1s vin iin s
  | .governorFastLoop p1ms => Sys2Proof.Machine.execGovernorFastLoop p1ms s
  | .envelopeTimeout p100 => Sys2Proof.Machine.execEnvelopeTimeout p100 s
  | .thermalSample src temp => Sys2Proof.Machine.execThermalSample src temp s
  | .thermalCapStep p => Sys2Proof.Machine.execThermalCapStep p s
  | .tripPersistTimeout => Sys2Proof.Machine.execTripPersistTimeout s
  | .nbTempDeadline p q => Sys2Proof.Machine.execNbTempDeadline p q s
  | .droop p => Sys2Proof.Machine.execDroop p s
  | .droopEnd p => Sys2Proof.Machine.execDroopEnd p s
  | .railOutOfTolerance r => Sys2Proof.Machine.execRailOutOfTolerance r s
  | .inputOutOfRange mv => Sys2Proof.Machine.execInputOutOfRange mv s
  | .inputCollapse mv => Sys2Proof.Machine.execInputCollapse mv s
  | .refClockLoss => Sys2Proof.Machine.execRefClockLoss s
  | .oscillatorFail => Sys2Proof.Machine.execOscillatorFail s
  | .vauxValid bootSrc clkMode => Sys2Proof.Machine.execVauxValid bootSrc clkMode s
  | .vauxLoss => Sys2Proof.Machine.execVauxLoss s
  | .auxRstN => Sys2Proof.Machine.execAuxRstN s
  | .input50vValid => Sys2Proof.Machine.execInput50vValid s
  | .sysRstN => Sys2Proof.Machine.execSysRstN s
  | .sysRstNRelease => Sys2Proof.Machine.execSysRstNRelease s
  | .perstAssert => Sys2Proof.Machine.execPerstAssert s
  | .perstDeassert => Sys2Proof.Machine.execPerstDeassert s
  | .hotReset => Sys2Proof.Machine.execHotReset s
  | .flr => Sys2Proof.Machine.execFlr s
  | .blockIdle b => Sys2Proof.Machine.execBlockIdle b s
  | .idleTimeout b => Sys2Proof.Machine.execIdleTimeout b s
  | .channelTrained refused => Sys2Proof.Machine.execChannelTrained refused s
  | .zeroFillDone => Sys2Proof.Machine.execZeroFillDone s
  | .startReady => Sys2Proof.Machine.execStartReady s
  | .rstReadyDeadline => Sys2Proof.Machine.execRstReadyDeadline s
  | .safeStateEntry => Sys2Proof.Machine.execSafeStateEntry s
  | .fltSafeDeadline => Sys2Proof.Machine.execFltSafeDeadline s
  | .pwrChangeDeadline p => Sys2Proof.Machine.execPwrChangeDeadline p s
  | .panelChangeEnd p => Sys2Proof.Machine.execPanelChangeEnd p s
  | .neighbourCapAck p q => Sys2Proof.Machine.execNeighbourCapAck p q s
  | .cxlLinkUp => Sys2Proof.Machine.execCxlLinkUp s
  | .liningModeChangeEnd n g => Sys2Proof.Machine.execLiningModeChangeEnd n g s
  | .thimbleRestartDone => Sys2Proof.Machine.execThimbleRestartDone s
  | .railsInRegulation => Sys2Proof.Machine.execRailsInRegulation s
  | .powerUpDeadline r => Sys2Proof.Machine.execPowerUpDeadline r s
  | .heartbeatTimeout sess => Sys2Proof.Machine.execHeartbeatTimeout sess s

end Sys2Proof.Machine
end

