-- ==== Sys2Proof/Safety.lean ====
section
/-! DEFINITION. What counts as a safe run, and the terms in which the statements speak of two states: which parts of
the state are the same, and what a write has staged. -/

namespace Sys2Proof

open Machine

/-- The step goes on: it ends in no fault and in no refusal. -/
def GoesOn (s : State) : Prop := ∃ s', step s = .next s'

/-- A run of `k` steps that goes on at each of them. -/
def SafeFor : Nat → State → Prop
  | 0, _ => True
  | k + 1, s => ∃ s', step s = .next s' ∧ SafeFor k s'

/-- The parts of the state, one for each of its fields. -/
inductive Part where
  | bar | barStage | barLatch | tiles | net | fab | lane | loader | unpick | press | mem | seam | tape | cxl | th | pow | rst
  | flt | pins | out | host | now | free | pending
  deriving DecidableEq, Repr

/-- Is a part the same in two states? -/
def Part.Same (s t : State) : Part → Prop
  | .bar => t.bar = s.bar
  | .barStage => t.barStage = s.barStage
  | .barLatch => t.barLatch = s.barLatch
  | .tiles => t.tiles = s.tiles
  | .net => t.net = s.net
  | .fab => t.fab = s.fab
  | .lane => t.lane = s.lane
  | .loader => t.loader = s.loader
  | .unpick => t.unpick = s.unpick
  | .press => t.press = s.press
  | .mem => t.mem = s.mem
  | .seam => t.seam = s.seam
  | .tape => t.tape = s.tape
  | .cxl => t.cxl = s.cxl
  | .th => t.th = s.th
  | .pow => t.pow = s.pow
  | .rst => t.rst = s.rst
  | .flt => t.flt = s.flt
  | .pins => t.pins = s.pins
  | .out => t.out = s.out
  | .host => t.host = s.host
  | .now => t.now = s.now
  | .free => t.free = s.free
  | .pending => t.pending = s.pending

/-- Every part of the state but those listed is unchanged. -/
def Only (ps : List Part) (s t : State) : Prop := ∀ p : Part, p ∉ ps → p.Same s t

/-- Every field of BAR0 but those listed reads as before. -/
def OnlyFields (fs : List Fld) (s t : State) : Prop :=
  ∀ f : Fld, f.key ∉ fs.map Fld.key → t.get f = s.get f

/-- Every tile but one is unchanged, and so is every other part of the state. -/
def OnlyTile (k : Nat) (s t : State) : Prop := Only [.tiles] s t ∧ ∀ j, j ≠ k → t.tile j = s.tile j

/-- The whole of a field is tacked, with a value (spec/05_patterns_and_reconfiguration.md R186). -/
def Tacked (st : Stage) (f : Fld) (v : Nat) : Prop :=
  ∃ m x, kvGet? st f.key = some (m, x) ∧ Nat.land m (2 ^ f.width - 1) = 2 ^ f.width - 1
    ∧ Nat.land x (2 ^ f.width - 1) = v

end Sys2Proof
end

