-- ==== Sys2Proof/Certificates/Slice0/Obligations.lean ====
section
/-! DEFINITION. The statements about this model. A statement over several commands is a conjunction with one clause or
more for each; a clause concludes with the next state that the command answers. -/

open Sys2Proof Sys2Proof.Machine

/-- A step with a command at the front of the queue is that command's effect on the state with the queue's rest; on an
empty queue one reference cycle of Thimble passes (the model's choice, log entry 1). -/
def Obligations.StepRunsTheFrontCommand : Prop :=
  (∀ (c : Instr) (l : List Instr) (s : State), step { s with pending := c :: l } = exec c { s with pending := l })
  ∧ (∀ s : State, s.pending = [] → step s = .next s.tick)

/-- In the state after reset every field of every register of the field tables holds the value of its Reset column
(spec/00_scope.md R14), nothing is staged, queued or recorded, and the extent map is that of spec/08_memory_system.md R258. -/
def Obligations.ResetLeavesEveryFieldAtItsResetValue : Prop :=
  (∀ d ∈ regTable, ∀ off : Nat, (d.find off).isSome = true → ∀ f ∈ d.flds, State.reset.get ⟨off, f.hi, f.lo⟩ = f.rst)
  ∧ (∀ d ∈ regTable, ∀ off : Nat, (d.find off).isSome = true → ∀ f ∈ d.flds, ∀ k : Nat,
      (State.reset.tile k).get ⟨off, f.hi, f.lo⟩ = f.rst)
  ∧ State.reset.barStage = [] ∧ State.reset.barLatch = [] ∧ State.reset.net = [] ∧ State.reset.lane = []
  ∧ State.reset.flt.waiting = [] ∧ State.reset.safe = false ∧ State.reset.tape.cmds = [] ∧ State.reset.tape.replies = []
  ∧ State.reset.mem.exts = [⟨0, 393088, 2⟩, ⟨393088, 128, 2⟩] ∧ State.reset.pending = []

/-- Does an access break R8 of spec/00_scope.md: neither 4 nor 8 bytes, not aligned to its size, or 8 bytes over a register
of 32 bits (R9, R10)? -/
def Obligations.MisalignedAccessesAreDiscarded : Prop :=
  classOf Code.FLT_REG_ACCESS = .correctable
  ∧ ∀ (off size : Nat) (v : W64) (s : State),
    ((size ≠ 4 ∧ size ≠ 8) ∨ off % size ≠ 0
      ∨ (size = 8 ∧ ((∃ d, regAt off = some d ∧ d.width = 32) ∨ ∃ d, regAt (off + 4) = some d ∧ d.width = 32))) →
    exec (.regAccessMisaligned off size true v) s = .next (s.raise Code.FLT_REG_ACCESS 0xC65 0 off)
    ∧ exec (.regAccessMisaligned off size false v) s
      = .next ((s.emit (.regRead off (2 ^ (8 * size) - 1))).raise Code.FLT_REG_ACCESS 0xC65 0 off)

/-- `REG_WRITE`, the three reads and `W1C_CLEAR` act on a register by the types of its fields (spec/00_scope.md R11, R13,
spec/02_numerics.md R72, spec/05_patterns_and_reconfiguration.md R186). -/
def Obligations.RegisterAccessesActByFieldType : Prop :=
  -- a 64-bit or 32-bit write to a register that has an `ST` field
  (∀ (s : State) (off : Nat) (wide : Bool) (v : W64) (b : Nat) (d : RDesc),
    let size := if wide then 8 else 4
    off % size = 0 → s.takesWrite none off = true → ¬ (0x2000 ≤ off ∧ off ≤ 0x207F) → regCover off = some (b, d) →
    (wide = true → d.width = 64) → s.frozen b = false →
    ∃ t, exec (.regWrite none off wide v) s = .next t ∧ Only [.barStage] s t
      ∧ (∀ f ∈ d.flds, f.ty = .st → 8 * (off - b) ≤ f.lo → f.hi < 8 * (off - b) + 8 * size → f.lo ≤ f.hi →
          Tacked t.barStage ⟨b, f.hi, f.lo⟩ (bits v.toNat (f.lo - 8 * (off - b)) (f.hi + 1 - f.lo)))
      ∧ ∀ k : Nat, (∀ f ∈ d.flds, f.ty = .st → k ≠ Fld.key ⟨b, f.hi, f.lo⟩) →
          kvGet? t.barStage k = kvGet? s.barStage k)
  -- the same for the space of a tile, by debug access
  ∧ (∀ (s : State) (n off : Nat) (wide : Bool) (v : W64) (b : Nat) (d : RDesc),
    let size := if wide then 8 else 4
    let w := if wide then v.toNat else v.toNat % 2 ^ 32
    off % size = 0 → s.takesWrite (some n) off = true → s.debugOk = true → regCover (tileSpace + off) = some (b, d) →
    (wide = true → d.width = 64) → (s.tile n).frozen = false → (b = tileSpace + 0x740 → predCap n = true) →
    (d.flds.any fun f => f.ty = .st) = true →
    exec (.regWrite (some n) off wide v) s
      = .next (s.onTile n fun x => { x with stage := tackReg x.stage b d (8 * (tileSpace + off - b)) (8 * size) w }))
  -- a register with no staged field, and an offset that no register occupies
  ∧ (∀ (s : State) (off : Nat) (wide : Bool) (v : W64), ¬ (0x2000 ≤ off ∧ off ≤ 0x207F) →
    (∀ b d, regCover off = some (b, d) → ∀ f ∈ d.flds, f.ty ≠ .st) → exec (.regWrite none off wide v) s = .next s)
  -- the data word of an MSI-X vector
  ∧ (∀ (s : State) (k : Nat) (v : W64), k < 8 → s.takesWrite none (0x2008 + 16 * k) = true →
    exec (.regWrite none (0x2008 + 16 * k) false v) s
      = .next { s with tape := { s.tape with msixData := kvSet s.tape.msixData k (v.toNat % 2 ^ 32) } })
  -- the lower word of a 64-bit register that is no counter, and both words at once
  ∧ (∀ (s : State) (off : Nat) (d : RDesc), s.readable none off = true → regAt off = some d → d.width = 64 → d.isRc = false →
    (breaksR8 off 4 = false → exec (.lowerWordLatchRead none off) s
      = .next ({ s with barLatch := kvSet s.barLatch off (s.showReg none off d / 2 ^ 32) }.emit
          (.regRead off (s.showReg none off d % 2 ^ 32))))
    ∧ (breaksR8 off 8 = false → exec (.counterRead none off true) s
      = .next ({ s with barLatch := kvErase s.barLatch off }.emit (.regRead off (s.showReg none off d)))))
  -- the upper word, with and without a latched value
  ∧ (∀ (s : State) (o : Nat) (d : RDesc) (v : Nat), s.readable none (o + 4) = true → regCover (o + 4) = some (o, d) →
    d.width = 64 → breaksR8 (o + 4) 4 = false → kvGet? s.barLatch o = some v →
    exec (.upperWordRead none (o + 4)) s
      = .next ({ s with barLatch := kvErase s.barLatch o }.emit (.regRead (o + 4) v)))
  ∧ (∀ (s : State) (o : Nat) (d : RDesc), s.readable none (o + 4) = true → regCover (o + 4) = some (o, d) →
    d.width = 64 → breaksR8 (o + 4) 4 = false → kvGet? s.barLatch o = none →
    exec (.upperWordRead none (o + 4)) s = .next (s.emit (.regRead (o + 4) (s.showReg none o d / 2 ^ 32))))
  -- a register of 32 bits, and an offset that no register occupies
  ∧ (∀ (s : State) (off : Nat) (d : RDesc), s.readable none off = true → regAt off = some d → d.width = 32 →
    breaksR8 off 4 = false → d.isRc = false →
    exec (.lowerWordLatchRead none off) s = .next (s.emit (.regRead off (s.showReg none off d))))
  ∧ (∀ (s : State) (off : Nat), s.readable none off = true → regCover off = none → ¬ (0x2000 ≤ off ∧ off ≤ 0x207F) →
    off ≠ 0x3000 → breaksR8 off 4 = false → exec (.lowerWordLatchRead none off) s = .next (s.emit (.regRead off 0)))
  -- a word of the MSI-X table
  ∧ (∀ (s : State) (k : Nat), k < 8 → s.readable none (0x2008 + 16 * k) = true →
    exec (.lowerWordLatchRead none (0x2008 + 16 * k)) s
      = .next (s.emit (.regRead (0x2008 + 16 * k) (kvGet 0 s.tape.msixData k))))
  -- a counter, by a 64-bit and by a 32-bit read
  ∧ (∀ (s : State) (off : Nat) (d : RDesc), s.readable none off = true → regAt off = some d → d.width = 64 → d.isRc = true →
    (breaksR8 off 8 = false → exec (.counterRead none off true) s
      = .next (({ s with barLatch := kvErase s.barLatch off }.set ⟨off, 63, 0⟩ 0).emit
          (.regRead off (s.showReg none off d))))
    ∧ (breaksR8 off 4 = false → exec (.counterRead none off false) s
      = .next (({ s with barLatch := kvSet s.barLatch off (s.showReg none off d / 2 ^ 32) }.set ⟨off, 63, 0⟩ 0).emit
          (.regRead off (s.showReg none off d % 2 ^ 32)))))
  -- the two registers of BAR0 that hold a `W1C` bit
  ∧ (∀ (s : State) (v set : W32), s.takesWrite none 0x20818 = true →
    exec (.w1cClear none 0x20818 v set) s
      = .next (s.set R.SEAM_GSTATUS_SUSPECT (b2n (bit set.toNat 1 || (bit (s.get R.SEAM_GSTATUS_SUSPECT) 0 && !bit v.toNat 1)))))
  ∧ (∀ (s : State) (v set : W32), s.takesWrite none 0x30030 = true →
    exec (.w1cClear none 0x30030 v set) s
      = .next (s.set R.PRS_STATUS_UW_HOLD (b2n (bit set.toNat 3 || (bit (s.get R.PRS_STATUS_UW_HOLD) 0 && !bit v.toNat 3)))))

/-- Every commit of a block of BAR0 applies all its staged fields, or refuses, discards them all and records its fault
(spec/05_patterns_and_reconfiguration.md R187; the checks by the chapters of the blocks). -/
def Obligations.CommitsAreAllOrNothing : Prop :=
  -- what applying and discarding the stage of a block mean
  (∀ (s : State) (b : Block), Only [.bar, .barStage] s (s.applyBlock b) ∧ Only [.barStage] s (s.dropBlock b)
    ∧ (s.applyBlock b).barStage = (s.dropBlock b).barStage
    ∧ (∀ e, e ∈ (s.dropBlock b).barStage ↔ e ∈ s.barStage ∧ b.has (keyOff e.1) = false)
    ∧ ∀ f : Fld, f.lo < 64 → (s.applyBlock b).get f = if b.has f.off then staged s.bar s.barStage f else s.get f)
  -- identity and global control
  ∧ (∀ (v : W32) (s : State), bit v.toNat 0 = true → s.takesWrite none blkGc.lo = true → anyStaged s.barStage blkGc.has = true →
    exec (.gcCommit v) s = .next (if rfGet (s.wouldBe blkGc) R.RST_CFG_IDLE_DL = 0
      then (s.dropBlock blkGc).raise Code.RST_CFG_ZERO 0xC65 0 0x50 else s.applyBlock blkGc))
  -- numerics: refused while a step is open; every link goes down when the module id changes
  ∧ (∀ (v : W32) (s : State), bit v.toNat 0 = true → s.takesWrite none blkNum.lo = true → anyStaged s.barStage blkNum.has = true →
    (s.stepOpen = true →
      exec (.numCommit v) s = .next ((s.dropBlock blkNum).raise Code.NUM_SEED_BUSY 0xC65 0 (s.firstStaged blkNum)))
    ∧ (s.stepOpen = false → s.changes blkNum R.NUM_SR_MODULE_MODULE = false →
      exec (.numCommit v) s = .next (s.applyBlock blkNum))
    ∧ (s.stepOpen = false → s.changes blkNum R.NUM_SR_MODULE_MODULE = true →
      ∃ t, exec (.numCommit v) s = .next t ∧ t.modId = rfGet (s.wouldBe blkNum) R.NUM_SR_MODULE_MODULE
        ∧ ∀ p, p < 8 → t.link p ≤ 1))
  -- fabric control
  ∧ (∀ (v : W32) (s : State), bit v.toNat 0 = true → s.takesWrite none blkFab.lo = true → anyStaged s.barStage blkFab.has = true →
    exec (.fabCommit v) s = .next (if rfGet (s.wouldBe blkFab) R.FAB_CFG_VC3_GUARD = 0
      then (s.dropBlock blkFab).raise Code.FAB_CFG_ZERO 0xC67 0 0 else s.applyBlock blkFab))
  -- the pattern loader
  ∧ (∀ (v : W32) (s : State), bit v.toNat 0 = true → s.takesWrite none blkPl.lo = true → anyStaged s.barStage blkPl.has = true →
    exec (.plCommit v) s = .next (if rfGet (s.wouldBe blkPl) R.PL_CFG_ARM_DL = 0 ∨ rfGet (s.wouldBe blkPl) R.PL_CFG_RETIRE_DL = 0
      then (s.dropBlock blkPl).raise Code.PAT_ZERO_FIELD 0xC31 0 0x18 else s.applyBlock blkPl))
  -- unpick, drain and the spill area
  ∧ (∀ (v : W32) (s : State), bit v.toNat 0 = true → s.takesWrite none blkUnp.lo = true → anyStaged s.barStage blkUnp.has = true →
    let rf := s.wouldBe blkUnp
    let a := rfGet rf R.UNP_SPILL_BASE * 2 ^ 20
    let n := rfGet rf R.UNP_SPILL_SIZE * 2 ^ 20
    let bad (code off : Nat) : State := (s.dropBlock blkUnp).raise code 0xC32 0 off
    exec (.unpCommit v) s = .next (
      if rfGet rf R.UNP_CFG_STALL_TH = 0 ∨ rfGet rf R.UNP_CFG_CONFIRM = 0 ∨ rfGet rf R.UNP_CFG_DRAIN_DL = 0
      then bad Code.UNP_CFG_ZERO 0x100
      else if n = 0 then bad Code.UNP_CFG_ZERO 0x108
      else if 1024 * 2 ^ 20 < n ∨ s.spillIllegal a n = true then bad Code.UNP_CFG_ILLEGAL 0x108
      else if (s.changes blkUnp R.UNP_SPILL_BASE = true ∨ s.changes blkUnp R.UNP_SPILL_SIZE = true) ∧ s.spillBusy a n = true
      then bad Code.UNP_BUSY 0x108
      else s.applyBlock blkUnp))
  -- press units and norm gate
  ∧ (∀ (v : W32) (s : State), bit v.toNat 0 = true → s.takesWrite none blkPrs.lo = true → anyStaged s.barStage blkPrs.has = true →
    let rf := s.wouldBe blkPrs
    let bad (code off : Nat) : State := (s.dropBlock blkPrs).raise code 0xC66 0 off
    exec (.prsCommit v) s = .next (
      if s.phase ≠ 0 then bad Code.PRS_BUSY (s.firstStaged blkPrs)
      else if rfGet rf R.PRS_DL_CLOSE_DL = 0 ∨ rfGet rf R.PRS_DL_NORM_DL = 0 ∨ rfGet rf R.PRS_DL_SWEEP_DL = 0
      then bad Code.PRS_CFG_ZERO 0x18
      else if 4096 < rfGet rf R.PRS_CFG_GT_COUNT then bad Code.PRS_PARAM 0
      else if rfGet rf R.PRS_CFG_CLIP_EN = 1 ∧ clipBad (BitVec.ofNat 32 (rfGet rf R.PRS_CLIP_NORM_CLIP_NORM)) = true
      then bad Code.PRS_PARAM 0x10
      else if rfGet rf R.PRS_CFG_SKIP_EN = 1 ∧ skipBad (BitVec.ofNat 32 (rfGet rf R.PRS_SKIP_NORM_SKIP_NORM)) = true
      then bad Code.PRS_PARAM 0x14
      else s.applyBlock blkPrs))
  -- a memory controller: legal values, and no lining mode changed
  ∧ (∀ (n : Nat) (v : W32) (s : State), n < 24 → bit v.toNat 0 = true → s.takesWrite none (blkMc n).lo = true →
    anyStaged s.barStage (blkMc n).has = true →
    let rf := s.wouldBe (blkMc n)
    let new := rfGet rf (R.MC_CFG_LN_MODE n)
    let zero := rfGet rf (R.MC_CFG_ATOM_DL n) = 0 ∨ rfGet rf (R.MC_CFG_SCRUB_INT n) = 0 ∨ rfGet rf (R.MC_CFG_CE_TH n) = 0
      ∨ rfGet rf (R.MC_CFG_PD_DL n) = 0
    (zero → exec (.mcCommit n v) s = .next (((s.dropBlock (blkMc n)).raise Code.MEM_CFG_ZERO (0xC00 + n) 0 0)))
    ∧ (¬ zero → (∃ g, g < 4 ∧ bits new (2 * g) 2 = 3) →
      exec (.mcCommit n v) s = .next (((s.dropBlock (blkMc n)).raise Code.MEM_CFG_ILLEGAL (0xC00 + n) 0 0)))
    ∧ (¬ zero → (∀ g, g < 4 → bits new (2 * g) 2 = bits (s.get (R.MC_CFG_LN_MODE n)) (2 * g) 2 ∧ bits new (2 * g) 2 ≠ 3) →
      exec (.mcCommit n v) s = .next (s.applyBlock (blkMc n)))
    ∧ (¬ zero → (∀ g, g < 4 → bits new (2 * g) 2 ≠ 3) →
      (∀ g, g < 4 → bits new (2 * g) 2 ≠ bits (s.get (R.MC_CFG_LN_MODE n)) (2 * g) 2 →
        s.lnBusy n g = false ∧ (bits (s.get (R.MC_CFG_LN_MODE n)) (2 * g) 2 = 2 → s.lnNeeded n g = false)) →
      ∃ t, exec (.mcCommit n v) s = .next t ∧ t.get (R.MC_CFG_LN_MODE n) = new
        ∧ ∀ g, g < 4 → bits new (2 * g) 2 ≠ bits (s.get (R.MC_CFG_LN_MODE n)) (2 * g) 2 →
          bit (t.get (R.MC_STATUS_LN_BUSY n)) g = true))
  -- a seam port: the link starts again when a field other than a deadline changes
  ∧ (∀ (n : Nat) (v : W32) (s : State), n < 8 → bit v.toNat 0 = true → s.takesWrite none (blkSp n).lo = true →
    anyStaged s.barStage (blkSp n).has = true →
    let rf := s.wouldBe (blkSp n)
    let bad (code off : Nat) : State := (s.dropBlock (blkSp n)).raise code (0xC20 + n) 0 off
    let xoff := rfGet rf (R.SP_CFG_PFC_XOFF n)
    let xon := rfGet rf (R.SP_CFG_PFC_XON n)
    exec (.spCommit n v) s = .next (
      if rfGet rf (R.SP_CFG_PFC_EN n) = 1 ∧ xoff = 0 then bad Code.SEAM_CFG_ZERO 0
      else if rfGet rf (R.SP_DL_PEER_DL n) = 0 ∨ rfGet rf (R.SP_DL_RTX_TO n) = 0 ∨ rfGet rf (R.SP_DL_RTX_MAX n) = 0
        ∨ rfGet rf (R.SP_DL_ACK_INT n) = 0 ∨ rfGet rf (R.SP_DL_FLUSH_WAIT n) = 0 then bad Code.SEAM_CFG_ZERO 8
      else if xon ≤ xoff ∨ 128 < xon then bad Code.SEAM_CFG_ILLEGAL 0
      else if s.stepOpen = true then bad Code.SEAM_BUSY (s.firstStaged (blkSp n))
      else if ∃ e ∈ s.barStage, (blkSp n).has (keyOff e.1) = true ∧ seamDl n (keyOff e.1) = false
        ∧ s.changes (blkSp n) ⟨keyOff e.1, 63, e.1 % 64⟩ = true
      then (s.applyBlock (blkSp n)).linkDown n true
      else s.applyBlock (blkSp n)))
  -- the global seam registers
  ∧ (∀ (v : W32) (s : State), bit v.toNat 0 = true → s.takesWrite none blkSeam.lo = true →
    anyStaged s.barStage blkSeam.has = true →
    let rf := s.wouldBe blkSeam
    let bad (code off : Nat) : State := (s.dropBlock blkSeam).raise code 0xC20 0 off
    exec (.seamGcommit v) s = .next (
      if rfGet rf R.SEAM_GDL_RED_DL = 0 ∨ rfGet rf R.SEAM_GDL_RET_DL = 0 ∨ rfGet rf R.SEAM_GDL_GATHER_DL = 0
      then bad Code.SEAM_CFG_ZERO 0x808
      else if bit (rfGet rf R.SEAM_GCFG_MAC_PFX) 16 = true then bad Code.SEAM_CFG_ILLEGAL 0x800
      else if s.stepOpen = true then bad Code.SEAM_BUSY (s.firstStaged blkSeam)
      else s.applyBlock blkSeam))
  -- Thimble
  ∧ (∀ (v : W32) (s : State), bit v.toNat 0 = true → s.takesWrite none blkTh.lo = true → anyStaged s.barStage blkTh.has = true →
    exec (.thCommit v) s = .next (if rfGet (s.wouldBe blkTh) R.TH_CFG_SAMPLE = 0
      then (s.dropBlock blkTh).raise Code.TH_CFG_ZERO 0xC33 0 0x20 else s.applyBlock blkTh))
  -- power limits and thresholds
  ∧ (∀ (v : W32) (s : State), bit v.toNat 0 = true → s.takesWrite none blkPwr.lo = true →
    anyStaged s.barStage blkPwr.has = true →
    let rf := s.wouldBe blkPwr
    let lim := rfGet rf R.PWR_CFG_P_LIMIT
    let peak := rfGet rf R.PWR_CFG_P_PEAK
    let th := rfGet rf R.PWR_CFG_T_THROTTLE
    exec (.pwrCommit v) s = .next (
      if lim = 0 ∨ peak = 0 ∨ th = 0 ∨ rfGet rf R.PWR_CFG_NB_DL = 0
      then (s.dropBlock blkPwr).raise Code.PWR_CFG_ZERO 0xC64 0 0x200
      else if ¬ (100 ≤ lim ∧ lim ≤ 600 ∧ lim ≤ peak ∧ peak ≤ 780 ∧ 60 ≤ th ∧ th ≤ 105)
      then (s.dropBlock blkPwr).raise Code.PWR_CFG_ILLEGAL 0xC64 0 0x200
      else s.applyBlock blkPwr))

/-- What raising a fault does, by the class that it resolves to (spec/15_faults_and_safe_state.md Table 15.1, R464, R466). -/
def Obligations.RaisingAFaultResolvesRecordsAndActs : Prop :=
  ∀ (s : State) (code unit sub arg : Nat),
    let rec' (cls flags : Nat) : FltRec := ⟨code, cls, flags, s.unitGen unit, unit, sub, arg, false⟩
    let room : Prop := (s.flt.waiting.filter fun q => q.unit = unit).length < 4
    let note (ctr : Fld) (cls flags : Nat) : State :=
      { s.bump ctr 1 with flt := { s.flt with waiting := s.flt.waiting ++ [rec' cls flags] } }
    -- correctable and contained
    (classOf code = .correctable → room → s.raise code unit sub arg = note R.CORRECTABLE 0 0)
    ∧ (classOf code = .contained → room → s.raise code unit sub arg = note R.CONTAINED 1 0)
    ∧ (classOf code = .contained → ¬ room → s.raise code unit sub arg = (s.bump R.CONTAINED 1).bump R.RECORDS_LOST 1)
    -- step-fatal with no step open and no committed step that still awaits its audit
    ∧ (classOf code = .stepFatal → s.stepOpen = false → s.press.replies = [] → room →
      s.raise code unit sub arg = note R.CONTAINED 1 0)
    -- step-fatal with a step open, before and after this module's verdict
    ∧ (classOf code = .stepFatal → s.stepOpen = true → s.flag R.FLT_CFG_STOP_ON_STEP = false → s.flt.cause = none →
      s.verdictSent = false → s.drain ≠ 2 → room →
      let t := s.raise code unit sub arg
      t.phase = 0 ∧ t.flt.waiting = s.flt.waiting ++ [rec' 2 0] ∧ t.flt.cause = none ∧ t.drain = 2 ∧ t.unpick.stopped = true
        ∧ (∀ i ∈ t.seam.insts, i ∈ s.seam.insts ∧ i.step ≠ s.stepNo))
    ∧ (classOf code = .stepFatal → s.stepOpen = true → s.flag R.FLT_CFG_STOP_ON_STEP = false → s.flt.cause = none →
      s.verdictSent = true → s.press.heldFault = none → room →
      s.raise code unit sub arg = { note R.STEP_FATAL 2 0 with press := { s.press with heldFault := some code } })
    -- escalated by `STOP_ON_STEP`
    ∧ (classOf code = .stepFatal → s.stepOpen = true → s.flag R.FLT_CFG_STOP_ON_STEP = true → s.flt.cause = none →
      isBootCode code = false → room →
      (s.raise code unit sub arg).flt.cause = some (rec' 3 24) ∧ (s.raise code unit sub arg).flt.fatal = true
        ∧ (s.raise code unit sub arg).flt.waiting = s.flt.waiting ++ [rec' 3 24])
    -- module-fatal: the first one and a later one
    ∧ (classOf code = .moduleFatal → isBootCode code = false → s.flt.cause = none → room →
      (s.raise code unit sub arg).flt = { s.flt with waiting := s.flt.waiting ++ [rec' 3 16], cause := some (rec' 3 16), fatal := true }
        ∧ Only [.bar, .flt, .mem] s (s.raise code unit sub arg))
    ∧ (classOf code = .moduleFatal → s.flt.cause ≠ none → room →
      (s.raise code unit sub arg).flt = { s.flt with waiting := s.flt.waiting ++ [rec' 3 0] }
        ∧ Only [.bar, .flt, .mem] s (s.raise code unit sub arg))

/-- The tape unit's commits (spec/11_host_interface_and_command_tape.md R371, R379) and the accesses to LPDDR5X packages
(spec/08_memory_system.md R270, Table 8.7). -/
def Obligations.TapeCommitsAndPackageAccess : Prop :=
  -- a legal commit without `ABANDON`
  (∀ (v : W32) (s : State), bit v.toNat 0 = true → bit v.toNat 1 = false → s.serves none 0x1000 = true →
    anyStaged s.barStage blkTp.has = true → s.tapeCommitFail false = none → s.tape.kept = false →
    let en := isStaged s.barStage R.TP_CFG_EN = true ∧ rfGet (s.wouldBe blkTp) R.TP_CFG_EN = 1
    let moved := s.changes blkTp R.TP_TAPE_BASE = true ∨ s.changes blkTp R.TP_TAPE_SIZE = true
      ∨ s.changes blkTp R.TP_SEQ0_SEQ0 = true
    ∃ t, exec (.tpCommit v) s = .next t ∧ Only [.bar, .barStage, .tape] s t
      ∧ (∀ f ∈ [R.TP_TAPE_BASE, R.TP_TAPE_SIZE, R.TP_SEQ0_SEQ0, R.TP_REPLY_RBASE, R.TP_RSIZE_RSIZE, R.TP_CFG_EN,
          R.TP_CFG_TORN_DL, R.TP_CFG_RPL_DL], t.get f = staged s.bar s.barStage f)
      ∧ t.barStage = (s.dropBlock blkTp).barStage
      ∧ (en → t.get R.TP_STATUS_STATE = 0 ∧ t.get R.TP_RSEQ_RSEQ = 0)
      ∧ (en ∨ moved → t.get R.TP_STATUS_POS = 0 ∧ t.get R.TP_STATUS_NEXT_SEQ = t.get R.TP_SEQ0_SEQ0 % 2 ^ 32
          ∧ t.tape = { s.tape with torn := false })
      ∧ (¬ en ∧ ¬ moved → t = s.applyBlock blkTp))
  -- a commit that is refused: an illegal value, or live tags that the change would strand
  ∧ (∀ (v : W32) (s : State) (f : Nat × Nat), bit v.toNat 0 = true → bit v.toNat 1 = false → s.serves none 0x1000 = true →
    anyStaged s.barStage blkTp.has = true → s.tapeCommitFail false = some f →
    exec (.tpCommit v) s = .next ((s.dropBlock blkTp).raise f.1 0xC34 0 f.2))
  ∧ (∀ (s : State) (f : Fld), s.tapeFail = none → (tapeHeld.find? fun f => s.changes blkTp f) = some f → s.tape.live ≠ 0 →
    s.tapeCommitFail false = some (Code.TAPE_BUSY, f.off - 0x1000))
  -- `ABANDON` with nothing staged
  ∧ (∀ (v : W32) (s : State), bit v.toNat 0 = true → bit v.toNat 1 = true → s.takesWrite none 0x1000 = true →
    anyStaged s.barStage blkTp.has = false → s.tape.kept = false →
    ∃ t, exec (.tpAbandon v) s = .next t ∧ Only [.tape, .press] s t ∧ t.tape.live = 0
      ∧ t.tape.cmds = (s.tape.cmds.filter fun c => c.gone || (s.begun c && !c.taken)).map (fun c => { c with gone := true })
      ∧ t.tape.replies = s.tape.replies.filter (fun r => !r.live))
  -- the three operations of `MC_REPAIR`
  ∧ (∀ (n : Nat) (v : W64) (s : State), s.safe = false →
    ∀ p ∈ [(1, Instr.modeRegisterRead n v), (2, Instr.modeRegisterWrite n v), (3, Instr.hardPpr n v)],
      (s.debugOk = true → bit (s.get (R.MC_STATUS_CH_OK n)) (bits v.toNat 62 2) = false →
        s.get (R.MC_REPAIR_ST_DONE n) = 1 → bits v.toNat 36 4 = p.1 →
        exec p.2 s = .next { s.set (R.MC_REPAIR_ST_DONE n) 0 with mem := { s.mem with repair := kvSet s.mem.repair n v } })
      ∧ (s.debugOk = false ∨ bit (s.get (R.MC_STATUS_CH_OK n)) (bits v.toNat 62 2) = true ∨ s.get (R.MC_REPAIR_ST_DONE n) ≠ 1 →
        exec p.2 s = .next (s.raise Code.MEM_REPAIR_LOCKED (0xC00 + n) (4 * n + bits v.toNat 62 2) 0)))
  -- the end of a running operation
  ∧ (∀ (n : Nat) (fail : Bool) (rv : Byte) (v : W64) (s : State), kvGet? s.mem.repair n = some v →
    ∃ t, exec (.mcRepairDone n fail rv) s = .next t ∧ Only [.bar, .mem] s t ∧ t.get (R.MC_REPAIR_ST_DONE n) = 1
      ∧ t.get (R.MC_REPAIR_ST_FAIL n) = b2n fail ∧ kvGet? t.mem.repair n = none
      ∧ (bits v.toNat 36 4 = 1 → fail = false →
          kvGet? s.mem.modeRegs ((4 * n + bits v.toNat 62 2) * 256 + bits v.toNat 16 8) = none →
          t.get (R.MC_REPAIR_ST_MRV n) = rv.toNat)
      ∧ (bits v.toNat 36 4 = 2 → fail = false →
          kvGet? t.mem.modeRegs ((4 * n + bits v.toNat 62 2) * 256 + bits v.toNat 16 8) = some (bits v.toNat 8 8))
      ∧ (bits v.toNat 36 4 ≠ 1 ∨ fail = true → OnlyFields [R.MC_REPAIR_ST_DONE n, R.MC_REPAIR_ST_FAIL n] s t))

/-- `TILE_COMMIT`, `TILE_COMMIT_APPLY`, `TILE_COMMIT_WAIT` and `BANK_FILL_DONE` (spec/03_compute_tile.md R75, R76, R100,
R104). -/
def Obligations.TileCommitsApplyHoldOrRefuse : Prop :=
  (∀ (k : Nat) (v : W32) (s : State), k < nTiles → bit v.toNat 0 = true → s.takesWrite (some k) 0x18 = true → s.debugOk = true →
    let x := s.tile k
    let check := tileCheck k x.regs x.stage (applyStage x.regs x.stage fun _ => true)
    (x.frozen = true → exec (.tileCommit k v) s = .next (s.raise Code.PAT_TACK_BUSY k 0 0x18))
    ∧ (x.frozen = false → x.stage ≠ [] → check = none → x.mustHold = false →
        exec (.tileCommit k v) s = .next (s.setTile k x.applyCommit))
    ∧ (x.frozen = false → x.stage ≠ [] → check = none → x.mustHold = true →
        exec (.tileCommit k v) s = .next (s.setTile k { x with commitHeld := true }))
    ∧ (∀ f, x.frozen = false → x.stage ≠ [] → check = some f →
        exec (.tileCommit k v) s
          = .next ((s.setTile k { x with stage := [], commitHeld := false }).raiseAs .contained false f.1 k 0 f.2)))
  ∧ (∀ (k : Nat) (s : State), (s.tile k).commitHeld = true → (s.tile k).mustHold = false →
      let x := s.tile k
      let check := tileCheck k x.regs x.stage (applyStage x.regs x.stage fun _ => true)
      (check = none → exec (.tileCommitApply k) s = .next (s.setTile k x.applyCommit))
      ∧ ∀ f, check = some f → exec (.tileCommitApply k) s
          = .next ((s.setTile k { x with stage := [], commitHeld := false }).raiseAs .contained false f.1 k 0 f.2))
  ∧ (∀ (k : Nat) (s : State), (s.tile k).commitHeld = true →
      exec (.tileCommitWait k) s = .next ((s.setTile k { s.tile k with stage := [], commitHeld := false }).raiseAs .contained
        false Code.TILE_COMMIT_WAIT k 0 0x18))
  -- what applying does
  ∧ (∀ x : Tile, x.applyCommit.stage = [] ∧ x.applyCommit.commitHeld = false
      ∧ (∀ f : Fld, f.lo < 64 → (∀ r, r < 16 → f.off ≠ (T.RING_STAT_HEAD r).off) →
          x.applyCommit.get f = staged x.regs x.stage f)
      ∧ (∀ r, r < 16 → commitChanges x.regs x.stage (0x40 + 0x10 * r) = true →
          x.applyCommit.get (T.RING_STAT_HEAD r) = 0 ∧ x.applyCommit.get (T.RING_STAT_TAIL r) = 0)
      ∧ (∀ b, b < 8 → bankW x.regs b ≠ bankW (applyStage x.regs x.stage fun _ => true) b →
          x.applyCommit.filling.contains b = true ∧ ∀ a, b * 0x8000 ≤ a → a < (b + 1) * 0x8000 →
            memRead x.applyCommit.spad a = 0)
      ∧ (∀ c, c < 32 → commitChanges x.regs x.stage (chOff c) = true →
          (x.applyCommit.och c).tagc = 0
            ∧ (x.applyCommit.och c).credits = rfGet (applyStage x.regs x.stage fun _ => true) (T.OCH_CRED c)))
  ∧ (∀ (k b : Nat) (s : State), (s.tile k).filling.contains b = true →
      ∃ u, exec (.bankFillDone k b) s = .next u ∧ OnlyTile k s u
        ∧ u.tile k = { s.tile k with filling := (s.tile k).filling.filter (· ≠ b) })

/-- The instructions of the sequencer that issue no operation (spec/03_compute_tile.md R77 to R81, R92,
spec/04_fabric_tokens_and_steering.md R124, spec/09_bobbin_streams.md R305, R307). -/
def Obligations.SequencerControlInstructions : Prop :=
  -- the next word: no loop, a loop that goes round, a loop not at its last word
  (∀ x : Tile, x.loops = [] →
      x.advance.get T.TILE_STATUS_PC = (x.base + (x.rel + 1)) % 2048 ∧ x.advance.get T.TILE_STATUS_STATE = 1)
  ∧ (∀ (x : Tile) (f : LoopFrame) (l : List LoopFrame), x.loops = f :: l → x.rel = f.last → 1 < f.left →
      x.advance.get T.TILE_STATUS_PC = (x.base + f.start) % 2048 ∧ x.advance.loops = { f with left := f.left - 1 } :: l)
  ∧ (∀ (x : Tile) (f : LoopFrame) (l : List LoopFrame), x.loops = f :: l → x.rel ≠ f.last →
      x.advance.get T.TILE_STATUS_PC = (x.base + (x.rel + 1)) % 2048 ∧ x.advance.loops = f :: l)
  -- beyond the program's last word, up to word 2,048, `HALT` is next
  ∧ (∀ x : Tile, x.loops = [] → x.count ≤ x.rel + 1 → x.base + (x.rel + 1) ≤ 2048 → x.advance.opcode = 0)
  -- a branch
  ∧ (∀ (x : Tile) (r : Nat), (x.branch r).get T.TILE_STATUS_PC = (x.base + r) % 2048
      ∧ (x.branch r).loops = x.loops.filter fun f => decide (f.start ≤ r) && decide (r ≤ f.last))
  -- the fetch of the word
  ∧ (∀ (k : Nat) (s : State), ∀ p ∈ [(0x01, fun e => Instr.nop k e), (0x06, fun e => Instr.jmp k e 0),
        (0x02, fun e => Instr.fence k e []), (0x04, fun e => Instr.loop k e (.imm 1) 0), (0x00, fun e => Instr.halt k e)],
      s.fetches k p.1 = true → (s.tile k).halted = false →
      exec (p.2 .uncorrectable) s = .next (s.tileStop k Code.TILE_IMEM_UNCORR 0)
      ∧ exec (p.2 .corrected) s = exec (p.2 .ok) (((s.onTile k fun x => (x.set T.TILE_STATUS_SP_CORR 1).bump T.SP_CORR_CNT 1).bump
          (R.SP_CORR_CNT (panelOf k)) 1).tileFault Code.TILE_SP_CORR k 0))
  -- nothing issues while 96 operations are outstanding
  ∧ (∀ (k : Nat) (s : State), ∀ p ∈ [(0x01, Instr.nop k .ok), (0x06, Instr.jmp k .ok 0), (0x02, Instr.fence k .ok []),
        (0x04, Instr.loop k .ok (.imm 1) 0), (0x00, Instr.halt k .ok), (0x05, Instr.brctl k ⟨.ok, .ok⟩ 0 0),
        (0x1E, Instr.dlld k ⟨.ok, .ok⟩ 0 0), (0x1F, Instr.bobgo k .ok 0 0)],
      s.fetches k p.1 = true → (s.tile k).halted = false → 96 ≤ (s.tile k).outstanding →
      exec p.2 s = .next (s.setTile k ((s.tile k).waits none)))
  -- `NOP`
  ∧ (∀ (k : Nat) (s : State), s.fetches k 0x01 = true → (s.tile k).outstanding < 96 →
      exec (.nop k .ok) s = .next (s.setTile k (s.tile k).advance))
  -- `HALT`
  ∧ (∀ (k : Nat) (s : State), s.fetches k 0x00 = true → (s.tile k).halted = false → (s.tile k).outstanding = 0 →
      (s.tile k).entries = [] →
      exec (.halt k .ok) s = .next (s.setTile k { (s.tile k).running.set T.TILE_STATUS_STATE 0 with halted := true, loops := [] }))
  -- `FENCE`, with its units idle and with one of them busy
  ∧ (∀ (k : Nat) (us : List TUnit) (s : State), s.fetches k 0x02 = true → (s.tile k).outstanding < 96 →
      ((∀ u ∈ us, (s.tile k).unitBusy u = false) → exec (.fence k .ok us) s = .next (s.setTile k (s.tile k).advance))
      ∧ ((∃ u ∈ us, (s.tile k).unitBusy u = true) → exec (.fence k .ok us) s = .next s))
  -- `LOOP`
  ∧ (∀ (k n last : Nat) (s : State), s.fetches k 0x04 = true → (s.tile k).outstanding < 96 →
      let x := s.tile k
      (n ≠ 0 → exec (.loop k .ok (.imm n) last) s
        = .next (s.setTile k { x.advance with loops := ⟨x.rel + 1, last, n⟩ :: x.loops }))
      ∧ exec (.loop k .ok (.imm 0) last) s = .next (s.setTile k (x.goTo 5 (last + 1)).running))
  ∧ (∀ (k r st last : Nat) (s : State), s.fetches k 0x04 = true →
      exec (.loop k .ok (.dl r st) last) s = exec (.loop k .ok (.imm (dlCount ((s.tile k).dls.getD r 0) st)) last) s)
  -- `JMP`
  ∧ (∀ (k r : Nat) (s : State), s.fetches k 0x06 = true → (s.tile k).outstanding < 96 →
      exec (.jmp k .ok r) s = .next (s.setTile k ((s.tile k).branch r)))
  -- `BRCTL` and `DLLD` with a control token at the head
  ∧ (∀ (k q r : Nat) (tk : Token) (s : State), s.fetches k 0x05 = true → (s.tile k).outstanding < 96 →
      qEn (s.tile k).regs q = true → (s.tile k).get (T.QCFG_CONS q) = 0 → (s.tile k).get (T.QCFG_CTL q) ≠ 0 →
      (s.tile k).head q = some tk → hKind tk.hdr = kCtl → (hBasted tk.hdr = true → (s.tile k).entries.length < 8) →
      exec (.brctl k ⟨.ok, .ok⟩ q r) s
        = .next ((s.progTake k q tk).onTile k fun x => if bit (payWord tk) 0 then x.branch r else x.advance)
      ∧ (tk.pay ≠ [] → exec (.brctl k ⟨.ok, .uncorrectable⟩ q r) s = .next (s.tileStop k Code.FAB_PAYLOAD_UNCORR q)))
  ∧ (∀ (k q d : Nat) (tk : Token) (s : State), s.fetches k 0x1E = true → (s.tile k).outstanding < 96 →
      qEn (s.tile k).regs q = true → (s.tile k).get (T.QCFG_CONS q) = 0 → (s.tile k).get (T.QCFG_CTL q) ≠ 0 →
      (s.tile k).head q = some tk → hKind tk.hdr = kCtl → (hBasted tk.hdr = true → (s.tile k).entries.length < 8) →
      (∃ u, exec (.dlld k ⟨.ok, .ok⟩ d q) s = .next u ∧ (u.tile k).dls.getD (min d 3) 0 = payWord tk % 65536)
      ∧ (tk.pay ≠ [] → exec (.dlld k ⟨.ok, .uncorrectable⟩ d q) s = .next (s.tileStop k Code.FAB_PAYLOAD_UNCORR q)))
  -- `BOBGO`
  ∧ (∀ (k b n : Nat) (s : State), s.fetches k 0x1F = true → b < 2 → n < 8 → (s.tile k).outstanding < 96 →
      (s.tile k).entries = [] →
      let x := s.tile k
      let en := bits (x.get T.BOB_ENTRY_ENTRIES) (8 * n) 8
      let ep := (x.get (T.BOB_STAT_EPOCH b) + 1) % 16
      bit en 7 = true → bobEn x.regs b = true → s.unpick.stopped = false → (x.bob b).run = false →
      (∀ p ∈ (x.bob b).quar, p.1 ≠ ep) →
      ∃ u, exec (.bobgo k .ok b n) s = .next u ∧ OnlyTile k s u ∧ ((u.tile k).bob b).run = true
        ∧ ((u.tile k).bob b).reqs = [] ∧ ((u.tile k).bob b).quar = (x.bob b).quar
        ∧ (u.tile k).get (T.BOB_STAT_EPOCH b) = ep ∧ (u.tile k).get (T.BOB_STAT_PROG b) = n
        ∧ (u.tile k).get (T.BOB_STAT_PC b) = (x.bobBase + en % 128) % 128 ∧ (u.tile k).get (T.BOB_STAT_STATE b) = 1
        ∧ (u.tile k).get T.TILE_STATUS_PC = x.advance.get T.TILE_STATUS_PC)

/-- Operations of the execution units: issue (spec/03_compute_tile.md R78, R87, R92, R97, R105, R106) and completion (R79,
R94, R96, R99). -/
def Obligations.TileOperationsIssueAndComplete : Prop :=
  -- what issuing leaves
  (∀ (k : Nat) (op : TileOp) (s : State), ∃ o : OutOp, o.op = op ∧ o.dl = (s.tile k).dls ∧ o.ent = (s.tile k).young
      ∧ s.issue k op = s.setTile k ({ s.tile k with outst := (s.tile k).outst ++ [o], stall := none } : Tile).advance)
  -- operations of the vector unit that issue under an open basting-record entry too; of length zero they are complete at once
  ∧ (∀ (k : Nat) (s : State), (s.tile k).outstanding < 96 →
      ∀ (kd : VKind) (a b c : VSrc) (d : VDst) (f idx base n : Nat) (mx : Bool) (acc : AccMode), fmtCheck true f = none →
      ∀ p ∈ [(0x10, TileOp.vop kd a b c d n, Instr.vop k .ok kd a b c d n), (0x11, .vcvt a d f n, .vcvt k .ok a d f n),
        (0x12, .vred mx a idx n, .vred k .ok mx a idx n), (0x14, .accrd acc base n d, .accrd k .ok acc base n d)],
      s.fetches k p.1 = true →
      (∀ adr, n ≠ 0 → (s.tile k).accesses p.2.1 = .ok adr → exec p.2.2 s = .next (s.issue k p.2.1))
      ∧ (n ≠ 0 → (s.tile k).accesses p.2.1 = .vec → exec p.2.2 s = .next (s.issue k p.2.1))
      ∧ (n = 0 → (s.tile k).accesses p.2.1 = .vec → exec p.2.2 s = .next (s.setTile k (s.tile k).advance))
      ∧ (∀ code, (s.tile k).accesses p.2.1 = .fault code → ∃ sub, exec p.2.2 s = .next (s.progFault k code sub))
      ∧ (∀ r, n ≠ 0 → (s.tile k).accesses p.2.1 = .stall r → exec p.2.2 s = .next (s.setTile k
          { (s.tile k).set T.TILE_STATUS_STATE 2 with stall := some ⟨r, opStallSide p.2.1 r, some p.2.1⟩ })))
  -- a word whose descriptor may not be written with passes no load, so none is executed
  ∧ (∀ (k f n : Nat) (a : VSrc) (d : VDst) (s : State), (fmtCheck true f).isSome = true → exec (.vcvt k .ok a d f n) s = .next s)
  -- accumulator writes wait while an entry is open
  ∧ (∀ (k base n : Nat) (acc : AccMode) (a : VSrc) (s : State), (s.tile k).outstanding < 96 → (s.tile k).entries = [] →
      ∀ p ∈ [(0x15, TileOp.accinit acc base n, Instr.accinit k .ok acc base n), (0x16, .accadd acc a base n, .accadd k .ok acc a base n)],
      s.fetches k p.1 = true →
      (∀ adr, n ≠ 0 → (s.tile k).accesses p.2.1 = .ok adr → exec p.2.2 s = .next (s.issue k p.2.1))
      ∧ (n ≠ 0 → (s.tile k).accesses p.2.1 = .vec → exec p.2.2 s = .next (s.issue k p.2.1))
      ∧ (n = 0 → (s.tile k).accesses p.2.1 = .vec → exec p.2.2 s = .next (s.setTile k (s.tile k).advance)))
  -- the tensor unit: both operands must fit before either is accessed
  ∧ (∀ (k d a b : Nat) (s : State), s.fetches k 0x08 = true → (s.tile k).outstanding < 96 → (s.tile k).entries = [] →
      tdUnused (s.tile k).regs d = false →
      let x := s.tile k
      let fits (o : Operand) : Prop := x.operandFits o (tdK x.regs d) = true
      let both := fits (tdOperandA x.regs d) ∧ fits (tdOperandB x.regs d)
      (both → (∃ adr, worst [x.operandAccess (tdOperandA x.regs d) (tdK x.regs d) a,
          x.operandAccess (tdOperandB x.regs d) (tdK x.regs d) b] = .ok adr) →
        exec (.tmma k .ok d a b) s = .next (s.issue k (.tmma d a b)))
      ∧ (¬ both → ∃ sub, exec (.tmma k .ok d a b) s = .next (s.progFault k Code.TILE_OPERAND_RANGE sub)))
  -- publication and release
  ∧ (∀ (k r n : Nat) (s : State), (s.tile k).outstanding < 96 → (s.tile k).entries = [] → n ≠ 0 →
      (s.fetches k 0x18 = true → (s.tile k).ownsRing r true = true → exec (.rpub k .ok r n) s = .next (s.issue k (.rpub r n)))
      ∧ (s.fetches k 0x19 = true → (s.tile k).ownsRing r false = true → exec (.rrel k .ok r n) s = .next (s.issue k (.rrel r n)))
      ∧ (s.fetches k 0x18 = true → (s.tile k).ownsRing r true = false →
          exec (.rpub k .ok r n) s = .next (s.tileStop k Code.TILE_RING_ORDER (0x8000 + r)))
      ∧ (s.fetches k 0x19 = true → (s.tile k).ownsRing r false = false →
          exec (.rrel k .ok r n) s = .next (s.tileStop k Code.TILE_RING_ORDER r))
      ∧ (s.fetches k 0x18 = true → exec (.rpub k .ok r 0) s = .next (s.setTile k (s.tile k).advance))
      ∧ (s.fetches k 0x19 = true → exec (.rrel k .ok r 0) s = .next (s.setTile k (s.tile k).advance)))
  -- completion; an error counts where the operation reads the bank, or touches accumulator entries
  ∧ (∀ (k idx : Nat) (o : OutOp) (s : State), s.issues = true → (s.tile k).outst[idx]? = some o →
      (s.tile k).mayComplete idx o = true →
      let s' := s.setTile k { s.tile k with outst := (s.tile k).outst.eraseIdx idx }
      let reads (b : Nat) : Bool := readsBank (o.reads (s.tile k).regs) b
      let wide (b : Nat) : Bool := bankW (s.tile k).regs b
      exec (.opComplete k idx .none) s = .next (s'.perform k o)
      ∧ ((opAcc (s.tile k).regs o.op).2 ≠ 0 →
          exec (.opComplete k idx .accParity) s = .next (s'.tileStop k Code.TILE_ACC_PARITY 0))
      ∧ ((opAcc (s.tile k).regs o.op).2 = 0 → exec (.opComplete k idx .accParity) s = .next (s'.perform k o))
      ∧ (∀ b, reads b = true → wide b = true →
          exec (.opComplete k idx (.spUncorr b)) s = .next (s'.tileStop k Code.TILE_SP_UNCORR b)
          ∧ exec (.opComplete k idx (.spCorr b)) s = .next ((s'.spCorrected k b).perform k o)
          ∧ exec (.opComplete k idx (.spParity b)) s = .next (s'.perform k o))
      ∧ (∀ b, reads b = true → wide b = false →
          exec (.opComplete k idx (.spParity b)) s = .next (s'.tileStop k Code.TILE_SP_PARITY b)
          ∧ exec (.opComplete k idx (.spUncorr b)) s = .next (s'.perform k o))
      ∧ (∀ b, reads b = false → exec (.opComplete k idx (.spUncorr b)) s = .next (s'.perform k o)
          ∧ exec (.opComplete k idx (.spParity b)) s = .next (s'.perform k o)))
  -- what the operations do
  ∧ (∀ (k r n : Nat) (o : OutOp) (s : State), o.op = .rpub r n →
      ringOcc (s.tile k).regs r + n ≤ (s.tile k).get (T.RING_CFG_SLOTS r) →
      s.perform k o = s.setTile k (((s.tile k).set (T.RING_STAT_TAIL r) ((s.tile k).get (T.RING_STAT_TAIL r) + n)).untripOn
        (.ring r false)))
  ∧ (∀ (k r n : Nat) (o : OutOp) (s : State), o.op = .rrel r n → n ≤ ringOcc (s.tile k).regs r →
      s.perform k o = s.setTile k (((s.tile k).set (T.RING_STAT_HEAD r) ((s.tile k).get (T.RING_STAT_HEAD r) + n)).untripOn
        (.ring r true)))
  ∧ (∀ (k base n j : Nat) (m : AccMode) (o : OutOp) (s : State), o.op = .accinit m base n → j < n →
      ((s.perform k o).tile k).accW (accAt m base j) = 0)
  ∧ (∀ (k n g : Nat) (kd : VKind) (a b c : VSrc) (o : OutOp) (s : State), o.op = .vop kd a b c (.spad g) n → n ≠ 0 → o.ent = none →
      let x := s.tile k
      s.perform k o = s.setTile k { x with spad := memWriteN x.spad (64 * g) (wordsBytes ((List.range n).map fun i =>
        vlane kd ((x.vread o a n).getD i 0) ((x.vread o b n).getD i 0) ((x.vread o c n).getD i 0))) })
  ∧ (∀ (k n idx : Nat) (mx : Bool) (a : VSrc) (o : OutOp) (s : State), o.op = .vred mx a idx n → n ≠ 0 →
      let red := reduceIdx mx (((s.tile k).vread o a n).zipIdx.map fun p => (p.1, BitVec.ofNat 32 (idx + p.2)))
      ((s.tile k).openEnt o = none → s.perform k o = s.setTile k { s.tile k with vred := red })
      ∧ (∀ i, (s.tile k).openEnt o = some i → s.perform k o = s.setTile k ((s.tile k).holdAt i (.vred red))))
  ∧ (∀ (k b : Nat) (s : State), (s.tile k).corrBanks.contains b = true →
      exec (.spCorrWriteback k b) s = .next (s.setTile k { s.tile k with corrBanks := (s.tile k).corrBanks.erase b }))

/-- `RECV`, `SEND`, stalled ring accesses and the verdicts of the basting record (spec/04_fabric_tokens_and_steering.md
R116 to R135, spec/03_compute_tile.md R97, R107, R108). -/
def Obligations.RecvSendAndTheBastingRecord : Prop :=
  -- what taking a token does
  (∀ (k q : Nat) (tk : Token) (s : State), hBasted tk.hdr = true →
      let x := s.tile k
      OnlyTile k s (s.progTake k q tk)
        ∧ ∃ e : BEntry, ((s.progTake k q tk).tile k).entries = x.entries ++ [e] ∧ e.tok = tk ∧ e.q = q ∧ e.held = [] ∧ e.verdict = none
          ∧ e.chk.pc = x.get T.TILE_STATUS_PC ∧ e.chk.loops = x.loops ∧ e.chk.dl = x.dls)
  ∧ (∀ (k q : Nat) (tk : Token) (s : State), hBasted tk.hdr = false → (s.tile k).entries = [] → s.progTake k q tk = s.consume k q)
  ∧ (∀ (k q : Nat) (s : State), ((s.tile k).queue q).spill = false →
      Only [.tiles, .lane] s (s.consume k q) ∧ (∀ j, j ≠ k → (s.consume k q).tile j = s.tile j)
        ∧ ((s.consume k q).tile k).queue q = ((s.tile k).dropHead q).queue q
        ∧ ∃ l : List Credit, (s.consume k q).lane = s.lane ++ l ∧ l.length ≤ 1)
  ∧ (∀ (k q : Nat) (tk : Token) (e : BEntry) (l : List BEntry) (s : State), hBasted tk.hdr = false →
      (s.tile k).entries = l ++ [e] →
      s.progTake k q tk = s.setTile k { (s.tile k).dropHead q with
        entries := l ++ [{ e with taken := e.taken ++ [(q, tk, !((s.tile k).queue q).spill)] }] })
  -- a token sent by a tile: a credit and a bucket token spent, the token at the tile's own input of its router
  ∧ (∀ (k c kind tag slot : Nat) (b : Bool) (pay : List Byte) (s : State),
      let x := s.tile k
      let h : HdrF := ⟨x.get (T.OCH_DEST c), x.get (T.OCH_DQ c), x.gen, tag, kind, b, x.get (T.OCH_VC c), pay.length, panelOf k, slot⟩
      let s' := s.setTile k (x.setOch c { x.och c with credits := (x.och c).credits - 1, bucket := (x.och c).bucket - 1 })
      s.sendAs k c kind tag slot b pay = { s' with
        net := s.net ++ [⟨k, .out, false, ⟨mkHdr h, pay⟩, s'.attOf k (hDest (mkHdr h)) (some (k, c)), some (k, c)⟩] })
  -- `RECV` of a data token that lands
  ∧ (∀ (k q : Nat) (l : Landing) (dst : VDst) (tk : Token) (s : State), s.fetches k 0x1C = true → (s.tile k).outstanding < 96 →
      qEn (s.tile k).regs q = true → (s.tile k).get (T.QCFG_CONS q) = 0 → (s.tile k).head q = some tk →
      hKind tk.hdr ≠ kHem → hKind tk.hdr ≠ kEnd → (hBasted tk.hdr = true → (s.tile k).entries.length < 8) → tk.pay ≠ [] →
      (s.tile k).landing dst (hSlot tk.hdr) tk.pay.length = l → (l = .vec ∨ ∃ adr, l = .ok adr) →
      exec (.recv k .ok .ok q dst) s = .next ((s.progTake k q tk).onTile k fun x => (x.land l (hSlot tk.hdr) tk.pay).advance)
      ∧ exec (.recv k .ok .uncorrectable q dst) s = .next (s.tileStop k Code.FAB_PAYLOAD_UNCORR q)
      ∧ exec (.recv k .ok .corrected q dst) s = .next (((s.tokFault tk Code.FAB_PAYLOAD_CORR k q false).progTake k q tk).onTile k
          fun x => (x.land l (hSlot tk.hdr) tk.pay).advance))
  ∧ (∀ (x : Tile) (adr slot : Nat) (b : List Byte), x.entries = [] →
      x.land (.ok adr) slot b = { x with spad := memWriteN x.spad adr b }
      ∧ x.land .vec slot b = { x with vec := landVec x.vec (64 * slot) b })
  ∧ (∀ (x : Tile) (adr slot : Nat) (b : List Byte) (l : List BEntry) (e : BEntry), x.entries = l ++ [e] →
      x.land (.ok adr) slot b = { x with entries := l ++ [{ e with held := e.held ++ [.write adr b] }] }
      ∧ x.land .vec slot b = { x with entries := l ++ [{ e with held := e.held ++ [.vec (64 * slot) b] }] })
  ∧ (∀ (x : Tile) (slot g n adr : Nat), x.landing (.spad g) slot n = .ok adr → adr = 64 * (g + slot) ∧ adr + n ≤ 0x40000)
  -- a marker, an empty queue, an end token, a hem marker, a queue of another consumer, a landing that may not be made
  ∧ (∀ (k q : Nat) (pay : Ecc) (dst : VDst) (s : State), s.fetches k 0x1C = true → (s.tile k).outstanding < 96 →
      (qEn (s.tile k).regs q = false ∨ (s.tile k).get (T.QCFG_CONS q) ≠ 0 →
        exec (.recv k .ok pay q dst) s = .next (s.progFault k Code.FAB_QUEUE_OWNER q))
      ∧ (qEn (s.tile k).regs q = true → (s.tile k).get (T.QCFG_CONS q) = 0 → (s.tile k).head q = none →
        exec (.recv k .ok pay q dst) s = .next (s.setTile k ((s.tile k).waits (some (.queue q)))))
      ∧ (∀ tk, qEn (s.tile k).regs q = true → (s.tile k).get (T.QCFG_CONS q) = 0 → (s.tile k).head q = some tk → hKind tk.hdr = kHem →
        exec (.recv k .ok pay q dst) s = .next (s.progFault k Code.PAT_HEM_EARLY q))
      ∧ (∀ tk, qEn (s.tile k).regs q = true → (s.tile k).get (T.QCFG_CONS q) = 0 → (s.tile k).head q = some tk → hKind tk.hdr = kEnd →
        exec (.recv k .ok pay q dst) s = .next ((s.progTake k q tk).onTile k Tile.afterEnd))
      ∧ (∀ tk, qEn (s.tile k).regs q = true → (s.tile k).get (T.QCFG_CONS q) = 0 → (s.tile k).head q = some tk →
        hKind tk.hdr ≠ kHem → hKind tk.hdr ≠ kEnd → (hBasted tk.hdr = true → (s.tile k).entries.length < 8) →
        (tk.pay = [] → exec (.recv k .ok pay q dst) s = .next ((s.progTake k q tk).onTile k Tile.advance))
        ∧ (∀ c, tk.pay ≠ [] → (s.tile k).landing dst (hSlot tk.hdr) tk.pay.length = .fault c →
            (hBasted tk.hdr = false → exec (.recv k .ok pay q dst) s = .next (s.progFault k c q))
            ∧ (hBasted tk.hdr = true →
                exec (.recv k .ok pay q dst) s = .next (s.setTile k ((s.tile k).waits (some (.queue q))))))
        ∧ (∀ c, tk.pay ≠ [] → (s.tile k).landing dst (hSlot tk.hdr) tk.pay.length = .stall c →
            exec (.recv k .ok pay q dst) s
              = .next (s.setTile k { (s.tile k).set T.TILE_STATUS_STATE 2 with stall := some ⟨c, true, none⟩ }))))
  -- `SEND` of a token, basted while an entry is open
  ∧ (∀ (k c slot len : Nat) (src : VSrc) (s : State), s.fetches k 0x1D = true → len ≤ 64 → (s.tile k).outstanding < 96 →
      chEn (s.tile k).regs c = true → (src = .vec ∧ (s.tile k).unitBusy .vector = false ∨ ∃ adr, (s.tile k).reading src len = .ok adr) →
      (s.tile k).canSend c = true →
      let x := s.tile k
      let kind := if x.get (T.OCH_CTL c) = 1 then kCtl else kData
      let s' := s.sendAs k c kind (x.och c).tagc slot x.bastes (x.sendBytes src len)
      ∃ u, exec (.send k ⟨.ok, .none⟩ c slot src len) s = .next u ∧ u.net = s'.net ∧ Only [.tiles, .net] s u
        ∧ (∀ j, j ≠ k → u.tile j = s.tile j)
        ∧ (u.tile k).och c = { x.och c with
            credits := (x.och c).credits - 1, bucket := (x.och c).bucket - 1, tagc := ((x.och c).tagc + 1) % 256 }
        ∧ (x.entries = [] → (u.tile k).entries = [])
        ∧ (∀ l e, x.entries = l ++ [e] → (u.tile k).entries
            = l ++ [{ e with held := e.held ++ [.sent c (x.get (T.OCH_DEST c)) (x.get (T.OCH_DQ c)) (x.och c).tagc] }]))
  -- `SEND` that meets an uncorrectable word, a parity error, a word corrected; on a channel not enabled; without a credit
  ∧ (∀ (k c slot len adr b : Nat) (src : VSrc) (s : State), s.fetches k 0x1D = true → len ≤ 64 → (s.tile k).outstanding < 96 →
      chEn (s.tile k).regs c = true → src ≠ .vec → (s.tile k).reading src len = .ok adr → (s.tile k).canSend c = true →
      readsBank [(adr, len)] b = true →
      (bankW (s.tile k).regs b = true →
        exec (.send k ⟨.ok, (.spUncorr b)⟩ c slot src len) s = .next (s.tileStop k Code.TILE_SP_UNCORR b)
        ∧ ∃ u, exec (.send k ⟨.ok, (.spCorr b)⟩ c slot src len) s = .next u ∧ u.flt = (s.spCorrected k b).flt
            ∧ ∃ n, u.net = s.net ++ [n])
      ∧ (bankW (s.tile k).regs b = false →
        exec (.send k ⟨.ok, (.spParity b)⟩ c slot src len) s = .next (s.tileStop k Code.TILE_SP_PARITY b)))
  ∧ (∀ (k c slot len : Nat) (err : OpErr) (src : VSrc) (s : State), s.fetches k 0x1D = true → len ≤ 64 → (s.tile k).outstanding < 96 →
      (chEn (s.tile k).regs c = false →
        exec (.send k ⟨.ok, err⟩ c slot src len) s = .next (s.progFault k Code.FAB_CHAN_MISMATCH (0x8000 + c)))
      ∧ (chEn (s.tile k).regs c = true → (∃ adr, (s.tile k).reading src len = .ok adr) → src ≠ .vec →
          (s.tile k).canSend c = false →
          exec (.send k ⟨.ok, err⟩ c slot src len) s = .next (s.setTile k ((s.tile k).waits (some (.och c))))))
  -- stalled ring accesses
  ∧ (∀ (k n : Nat) (q : RingStall) (op : TileOp) (s : State), s.issues = true → (s.tile k).stall = some q → q.op = some op →
      (s.retry k op = .ok 0 ∨ s.retry k op = .vec) →
      exec (.ringAccessResume k .prog n) s
        = .next (((s.stalledCycles k n).onTile k fun x => { x with stall := none }).issue k op))
  ∧ (∀ (k n : Nat) (q : RingStall) (s : State), s.issues = true → (s.tile k).stall = some q → q.op = none →
      exec (.ringAccessResume k .prog n) s
        = .next ((s.stalledCycles k n).onTile k fun x => { x.running with stall := none }))
  ∧ (∀ (k n b : Nat) (s : State), s.issues = true → ((s.tile k).bob b).stalled = true →
      exec (.ringAccessResume k (.bob b) n) s = .next ((s.stalledCycles k n).onTile k fun x =>
        ((x.setBob b { x.bob b with stalled := false }).set (T.BOB_STAT_STATE b) 1).untrip (.bob b)))
  ∧ (∀ (k n : Nat) (s : State), s.stalledCycles k n
      = (s.setTile k ((s.tile k).bump T.RING_STALL n)).bump (R.RING_STALL (panelOf k)) n)
  ∧ (∀ (k n : Nat) (q : RingStall) (s : State), (s.tile k).stall = some q → s.stallCounts q.prod = true →
      exec (.tileRingStall k ⟨.prog, n⟩) s
        = .next ((s.stalledCycles k n).tileStop k Code.TILE_RING_STALL (q.ring + (if q.prod then 0x8000 else 0))))
  ∧ (∀ (k n b : Nat) (s : State), ((s.tile k).bob b).stalled = true → s.stallCounts (bobProd (s.tile k).regs b) = true →
      exec (.tileRingStall k ⟨(.bob b), n⟩) s
        = .next (((s.stalledCycles k n).abortStream k b).tileStop k Code.TILE_RING_STALL
            ((s.tile k).get (T.BOB_CFG_RING b) + (if bobProd (s.tile k).regs b then 0x8000 else 0))))
  ∧ (∀ (s : State) (prod : Bool), s.stallCounts prod = true ↔ s.issues = true ∧ s.drain ≠ 2 ∧ (prod = true ∨ s.drain = 0))
  -- verdicts of the basting record
  ∧ (∀ (k idx : Nat) (e : BEntry) (s : State), (s.tile k).entries[idx]? = some e → e.verdict = none →
      exec (.basteSew ⟨k, idx⟩) s = .next (s.verdictAt k e.q (hTag e.tok.hdr) true)
      ∧ exec (.basteSquash k idx) s = .next (s.verdictAt k e.q (hTag e.tok.hdr) false))
  ∧ (∀ (k idx : Nat) (e : BEntry) (s : State), (s.tile k).entries[idx]? = some e → e.verdict ≠ none →
      exec (.basteSew ⟨k, idx⟩) s = .next s ∧ exec (.basteSquash k idx) s = .next s)
  -- a sew verdict of the oldest entry closes it; one of a younger entry waits for the older ones
  ∧ (∀ (k : Nat) (e : BEntry) (s : State), (s.tile k).entries = [e] → e.verdict = none →
      (s.tile k).holdsFault e.q (hTag e.tok.hdr) = false →
      ∃ u, exec (.basteSew ⟨k, 0⟩) s = .next u
        ∧ u = (s.setTile k { s.tile k with entries := [{ e with verdict := some true }] }).closeEntry k { e with verdict := some true })
  ∧ (∀ (k q g : Nat) (e f : BEntry) (l : List BEntry) (s : State), (s.tile k).entries = e :: l → e.verdict = none →
      (l.map BEntry.id).Nodup → ¬ e.id ∈ l.map BEntry.id → (s.tile k).holdsFault q g = false →
      ¬ (e.q = q ∧ hTag e.tok.hdr = g) → l.find? (fun f => f.q = q && hTag f.tok.hdr = g && f.verdict.isNone) = some f →
      s.verdictAt k q g true = s.setTile k { s.tile k with
        entries := e :: l.map fun h => if h.id = f.id then { h with verdict := some true } else h })
  -- an entry that closes releases what it holds and frees its slots
  ∧ (∀ (k : Nat) (e : BEntry) (s : State), e.taken = [] → e.held = [] →
      s.closeEntry k e = (s.setTile k { s.tile k with entries := (s.tile k).entries.drop 1 }).freeSlot k e.q (s.tile k).gen e.owes)
  ∧ (∀ (k adr off code sub a d q g c : Nat) (b : List Byte) (p : W32 × W32) (s : State),
      s.release k (.write adr b) = s.setTile k { s.tile k with spad := memWriteN (s.tile k).spad adr b }
      ∧ s.release k (.vec off b) = s.setTile k { s.tile k with vec := landVec (s.tile k).vec off b }
      ∧ s.release k (.vred p) = s.setTile k { s.tile k with vred := p }
      ∧ s.release k (.fault code sub a) = s.tileStop k code sub
      ∧ s.release k (.sent c d q g) = s.sendVerdict k d q g true)
  -- a squash verdict takes the entry and every younger one out and restores the checkpoint
  ∧ (∀ (k idx : Nat) (e : BEntry) (s : State), (s.tile k).entries[idx]? = some e → ((s.tile k).entries.map BEntry.id).Nodup →
      e.verdict = none → (s.tile k).holdsFault e.q (hTag e.tok.hdr) = false →
      (∀ j f, j < idx → (s.tile k).entries[j]? = some f → ¬ (f.q = e.q ∧ hTag f.tok.hdr = hTag e.tok.hdr)) →
      ∃ u, exec (.basteSquash k idx) s = .next u ∧ (u.tile k).entries = (s.tile k).entries.take idx
        ∧ (u.tile k).get T.TILE_STATUS_PC = e.chk.pc % 2048 ∧ (u.tile k).loops = e.chk.loops
        ∧ (u.tile k).get T.TILE_DL_DL0 = e.chk.dl.getD 0 0 % 65536 ∧ (u.tile k).spad = (s.tile k).spad
        ∧ (u.tile k).vec = (s.tile k).vec ∧ (u.tile k).vred = (s.tile k).vred)
  -- a verdict that nothing can match
  ∧ (∀ (k q g : Nat) (b : Bool) (s : State), s.safe = false → k < nTiles → (s.tile k).entries = [] → ((s.tile k).queue q).toks = [] →
      (s.tile k).staging = [] → (s.tile k).fwd = [] → (s.tile k).hfaults = [] → s.bastedInNet k q g = false →
      exec (.verdictToken k q g b) s = .next (s.tileStop k Code.FAB_VERDICT_ORPHAN q))

/-- Tokens in the mesh and at their destinations, credits, buckets, guards and wait deadlines
(spec/04_fabric_tokens_and_steering.md R112 to R121, R140, R141, Table 4.4). -/
def Obligations.TokensTravelAndAreDelivered : Prop :=
  -- the way of a token: columns first
  (∀ r d : Nat, (portTo r d = .out ↔ tileX r = tileX d ∧ tileY r = tileY d)
      ∧ (tileX r < tileX d → portTo r d = .east) ∧ (tileX d < tileX r → portTo r d = .west)
      ∧ (tileX r = tileX d → tileY r < tileY d → portTo r d = .north)
      ∧ (tileX r = tileX d → tileY d < tileY r → portTo r d = .south))
  ∧ (∀ n : NetTok, hDest n.tok.hdr < nTiles → n.exit = hDest n.tok.hdr ∧ n.port = portTo n.r (hDest n.tok.hdr))
  ∧ (∀ (n : NetTok) (a : Nat × Nat), nTiles ≤ hDest n.tok.hdr → (attachments (hDest n.tok.hdr))[n.att]? = some a →
      n.exit = a.2 ∧ (n.r = a.2 → n.port = attSide (hDest n.tok.hdr)))
  -- a router takes in the token that moves next there: checked, it lies at the input on which it arrives
  ∧ (∀ (r : Nat) (hdr : W64) (pay : List Byte) (n : NetTok) (s : State), r < nTiles → s.safe = false →
      s.named (fun m => !m.arrived && m.next.1 = r) hdr = .tok n → n.next.1 = r →
      (hdrOk hdr = true → fieldBad hdr = false →
        exec (.tokenRouterInput r hdr pay .ok) s = .next { s.depart n with
          net := s.net.erase n ++ [{ n with r := r, inp := n.next.2, ent := true }] })
      ∧ (∀ e, hdrOk hdr = false →
        exec (.tokenRouterInput r hdr pay e) s = .next ((s.depart n).tileStop r Code.FAB_HDR_CRC 0))
      ∧ (hdrOk hdr = true → fieldBad hdr = true → hBasted n.tok.hdr = false →
        exec (.tokenRouterInput r hdr pay .ok) s = .next ((s.depart n).tileStop r Code.FAB_HDR_FIELD 0))
      ∧ (hdrOk hdr = true → n.tok.pay ≠ [] →
        exec (.tokenRouterInput r hdr pay .uncorrectable) s = .next ((s.depart n).tileStop r Code.FAB_PAYLOAD_UNCORR 0)))
  ∧ (∀ (r : Nat) (hdr : W64) (pay : List Byte) (s : State), r < nTiles → s.safe = false →
      s.named (fun m => !m.arrived && m.next.1 = r) hdr = .outside →
      (hdrOk hdr = true → fieldBad hdr = false →
        exec (.tokenRouterInput r hdr pay .ok) s = .next { s with
          net := s.net ++ [⟨r, .out, true, ⟨hdr, pay⟩, s.attOf r (hDest hdr) none, none⟩] })
      ∧ (∀ e, hdrOk hdr = false → exec (.tokenRouterInput r hdr pay e) s = .next (s.tileStop r Code.FAB_HDR_CRC 0))
      ∧ (hdrOk hdr = true → fieldBad hdr = true → hBasted hdr = false →
        exec (.tokenRouterInput r hdr pay .ok) s = .next (s.tileStop r Code.FAB_HDR_FIELD 0)))
  -- the token that moves is one of the mesh with that header, and it may move
  ∧ (∀ (there : NetTok → Bool) (n : NetTok) (s : State), s.named there n.tok.hdr = .tok n → hdrOk n.tok.hdr = true →
      n ∈ s.net ∧ there n = true ∧ s.moves n = true)
  -- one token of each input and virtual channel contends; the class that has not been granted last goes first
  ∧ (∀ (a : Arb) (l : List NetTok), (∃ n ∈ l, n.vc < 2) → (∃ n ∈ l, n.vc = 2 ∨ n.vc = 3) →
      (a.low = true → a.pickVc l = 2 ∨ a.pickVc l = 3) ∧ (a.low = false → a.pickVc l = 0 ∨ a.pickVc l = 1))
  ∧ (∀ (a : Arb) (n : NetTok), (a.granted n).low = decide (n.vc < 2) ∧ (n.vc = 3 → (a.granted n).guard = false))
  ∧ (∀ (a : Arb) (l : List NetTok), (∀ n ∈ l, n.vc = 2 ∨ n.vc = 3) → (∃ n ∈ l, n.vc = 2) → (∃ n ∈ l, n.vc = 3) →
      (a.guard = false → a.pickVc l = 2)
      ∧ (a.guard = true → a.pickVc l = 3 ∧ a.pick l = (l.filter fun n => n.vc = 3).head?))
  -- delivery at a tile queue: the checks in their order
  ∧ (∀ (d : Nat) (n : NetTok) (s : State), d < nTiles → s.safe = false → hDest n.tok.hdr = d →
      s.named (fun m => m.arrived && hDest m.tok.hdr = d) n.tok.hdr = .tok n → hBasted n.tok.hdr = false →
      hKind n.tok.hdr ≠ kSpill → ctlToken n.tok.hdr = false →
      let s' := s.depart n
      let x := s.tile d
      let q := hDq n.tok.hdr
      s'.ownRow d n.tok = false →
      (x.liveRegs (hGen n.tok.hdr) = none →
        exec (.tokenDelivery d n.tok.hdr n.tok.pay .ok) s
          = .next ((s'.bump R.GEN_DROP 1).tileStop d Code.PAT_GEN_UNKNOWN q))
      ∧ (∀ rf, x.liveRegs (hGen n.tok.hdr) = some rf →
          (x.chanOk rf q n.tok.hdr = false →
            exec (.tokenDelivery d n.tok.hdr n.tok.pay .ok) s = .next (s'.tileStop d Code.FAB_CHAN_MISMATCH q))
          ∧ (x.chanOk rf q n.tok.hdr = true → (x.queue q).spill = false → x.freeSlots q = 0 →
            exec (.tokenDelivery d n.tok.hdr n.tok.pay .ok) s = .next (s'.tileStop d Code.FAB_CREDIT q))
          ∧ (x.chanOk rf q n.tok.hdr = true → (x.queue q).spill = false → x.freeSlots q ≠ 0 →
            exec (.tokenDelivery d n.tok.hdr n.tok.pay .ok) s = .next (s'.setTile d (x.landTok q n.tok)))
          ∧ (x.chanOk rf q n.tok.hdr = true → (x.queue q).spill = true → x.staging.length < 8 →
            exec (.tokenDelivery d n.tok.hdr n.tok.pay .ok) s = .next (s'.stageTok d q n.tok))
          ∧ (x.chanOk rf q n.tok.hdr = true → (x.queue q).spill = true → 8 ≤ x.staging.length → s.ownRow d n.tok = false →
            exec (.tokenDelivery d n.tok.hdr n.tok.pay .ok) s = .next s)))
  ∧ (∀ (x : Tile) (q : Nat) (k : Token), ((x.landTok q k).queue q).toks = (x.queue q).toks ++ [k])
  -- delivery at a selvedge unit
  ∧ (∀ (d : Nat) (n : NetTok) (s : State), nTiles ≤ d → destReserved d = false → s.safe = false →
      s.named (fun m => m.arrived && hDest m.tok.hdr = d) n.tok.hdr = .tok n → ctlToken n.tok.hdr = false →
      hBasted n.tok.hdr = false → hKind n.tok.hdr ≠ kSpill →
      let s' := (s.depart n).edge n
      (s'.unitLive d (hGen n.tok.hdr) = false →
        exec (.tokenDelivery d n.tok.hdr n.tok.pay .ok) s
          = .next ((s'.bump R.GEN_DROP 1).raise Code.PAT_GEN_UNKNOWN d (hDq n.tok.hdr) 0))
      ∧ (s'.unitLive d (hGen n.tok.hdr) = true → hDq n.tok.hdr ≠ 28 →
        exec (.tokenDelivery d n.tok.hdr n.tok.pay .ok) s = .next (s'.creditTo n.src (hGen n.tok.hdr))))
  ∧ (∀ (n : NetTok) (a : Nat × Nat) (s : State), (attachments (hDest n.tok.hdr))[n.att]? = some a →
      s.edge n = s.bump (R.EDGE_BUSY a.1) (if hLen n.tok.hdr ≤ 28 then 1 else 2))
  -- a probe or management token is taken by the control logic of its destination, without checks 3 to 6
  ∧ (∀ (d : Nat) (n : NetTok) (s : State), destReserved d = false → s.safe = false →
      s.named (fun m => m.arrived && hDest m.tok.hdr = d) n.tok.hdr = .tok n → ctlToken n.tok.hdr = true →
      exec (.tokenDelivery d n.tok.hdr n.tok.pay .ok) s = .next ((s.depart n).edge n))
  -- a credit for a tile's channel of the current generation
  ∧ (∀ (d c g : Nat) (s : State), d < nTiles → (s.lane.find? fun e => e.dest = d && e.chan = c) = some ⟨d, c, g⟩ →
      g = (s.tile d).gen → s.tape.chans = [] → s.tape.pendChans = [] → s.seam.done = [] →
      exec (.creditReturn d c) s = .next ({ s with lane := s.lane.erase ⟨d, c, g⟩ }.setTile d
        (((s.tile d).setOch c { (s.tile d).och c with credits := ((s.tile d).och c).credits + 1 }).ochWaitOver c)))
  -- buckets
  ∧ (∀ (d c : Nat) (s : State), s.safe = false → d < nTiles → chEn (s.tile d).regs c = true →
      exec (.bucketRefill d c) s = .next (s.setTile d (
        if ((s.tile d).och c).bucket < (s.tile d).get (T.OCH_BURST c)
        then ((s.tile d).setOch c { (s.tile d).och c with bucket := ((s.tile d).och c).bucket + 1 }).ochWaitOver c
        else s.tile d)))
  ∧ (∀ (x : Tile) (c : Nat), x.ochWaitOver c = if x.canSend c then { x with tripped := x.tripped.filter fun v => v.2 ≠ .och c } else x)
  -- the guard of VC3 runs out at an output where a VC3 token waits
  ∧ (∀ (r : Nat) (p : Port) (n : NetTok) (s : State), s.safe = false → n ∈ s.net → n.ent = true → n.r = r → n.port = p → n.vc = 3 →
      exec (.vc3GuardExpiry r p) s = .next { s with fab := { s.fab with
        arb := kvSet s.fab.arb (outKey r p) { s.arbAt r p with guard := true } } })
  -- a wait that reaches its deadline stops the tile, and a bobbin's stream; at a selvedge unit it stops the channel
  ∧ (∀ (k : Nat) (w : Wait) (s : State), k < nTiles → s.unitWaits k w = false →
      (s.waitCounts k .prog w = true →
        exec (.fabChanDeadline k .prog w) s = .next (s.tileStop k Code.FAB_CHAN_DEADLINE (waitSub w)))
      ∧ (∀ b, s.waitCounts k (.bob b) w = true →
        exec (.fabChanDeadline k (.bob b) w) s = .next ((s.abortStream k b).tileStop k Code.FAB_CHAN_DEADLINE (waitSub w)))
      ∧ (∀ a, s.waitCounts k a w = false → exec (.fabChanDeadline k a w) s = .next s))
  ∧ (∀ (u c : Nat) (a : TAgent) (s : State), s.unitWaits u (.och c) = true →
      exec (.fabChanDeadline u a (.och c)) s = .next ({ s with fab := { s.fab with stopped := s.fab.stopped ++ [(u, c)] } }.raise
        Code.FAB_CHAN_DEADLINE u (0x8000 + c) 0))

/-- Shuttles, predicate units and verdicts (spec/04_fabric_tokens_and_steering.md R125 to R132, R136, R139,
spec/05_patterns_and_reconfiguration.md R175). -/
def Obligations.ShuttlesPredicatesAndVerdicts : Prop :=
  -- steering: heads of one tag, no baste of its own outstanding
  (∀ (k n : Nat) (c d : Token) (s : State),
      let x := s.tile k
      s.shuttles k n = true → x.resending n = false → (∀ b ∈ x.shut n, b.own = false) → x.head (x.ctlq n) = some c →
      isMarker c = false → x.head (x.sideQ n (sideOf c)) = some d →
      (isMarker d = true ∨ hTag c.hdr ≠ hTag d.hdr → hBasted c.hdr = false → hBasted d.hdr = false →
        ∀ e f, exec (.shuttleFire k ⟨n, e, f⟩) s = .next (s.tileStop k Code.FAB_TAG_MISMATCH n))
      ∧ (isMarker d = false → hTag c.hdr = hTag d.hdr → hBasted c.hdr = false → hBasted d.hdr = false →
          ¬ (x.get (T.SHUT_CFG_MODE n) = 3 ∧ sideOf c = 0) → x.canSend (x.sideOut n (sideOf c)) = true →
          exec (.shuttleFire k ⟨n, .ok, .ok⟩) s = .next ((((s.consume k (x.ctlq n)).consume k (x.sideQ n (sideOf c))).sendAs k
            (x.sideOut n (sideOf c)) (hKind d.hdr) (hTag d.hdr) (hSlot d.hdr) false d.pay).onTile k fun y =>
              y.set (T.SHUT_STAT_TAG n) (hTag c.hdr))
          ∧ (c.pay ≠ [] → ∀ f, exec (.shuttleFire k ⟨n, .uncorrectable, f⟩) s
              = .next (s.tileStop k Code.FAB_PAYLOAD_UNCORR (x.ctlq n)))
          ∧ (d.pay ≠ [] → exec (.shuttleFire k ⟨n, .ok, .uncorrectable⟩) s
              = .next (s.tileStop k Code.FAB_PAYLOAD_UNCORR (x.sideQ n (sideOf c)))))
      ∧ (isMarker d = false → hTag c.hdr = hTag d.hdr → x.get (T.SHUT_CFG_MODE n) = 3 → sideOf c = 0 →
          ∃ u, exec (.shuttleFire k ⟨n, .ok, .ok⟩) s = .next u ∧ u.net = s.net ∧ (u.tile k).get (T.SHUT_STAT_TAG n) = hTag c.hdr % 256))
  -- a basted datum, or one steered by a basted control token, goes on basted, and its verdicts are forwarded
  ∧ (∀ (k n c : Nat) (l : List (Nat × Token)) (d : Token) (s : State), (∃ p ∈ l, hBasted p.2.hdr = true) →
      let x := s.tile k
      let u := s.passOn k n c l d
      (∃ m, u.net = s.net ++ [m] ∧ hBasted m.tok.hdr = true ∧ m.tok.pay = d.pay)
      ∧ (u.tile k).fwd = x.fwd ++ (l.filter fun p => hBasted p.2.hdr).map fun p => (p.1, hTag p.2.hdr, x.chanDst c (hTag d.hdr)))
  -- basting on the predicted side
  ∧ (∀ (k n : Nat) (d : Token) (s : State),
      let x := s.tile k
      let side := x.predicted n
      s.shuttles k n = true → x.resending n = false → s.flag R.FAB_CFG_BASTE_EN = true → x.get (T.SHUT_CFG_BASTE_WAIT n) ≠ 0 →
      (x.shut n).length < x.get (T.SHUT_CFG_DEPTH n) → x.head (x.ctlq n) = none → ¬ (x.get (T.SHUT_CFG_MODE n) = 3 ∧ side = 0) →
      x.canSend (x.sideOut n side) = true → x.head (x.sideQ n side) = some d → hKind d.hdr = kData → d.pay ≠ [] →
      ∀ f, ∃ u, exec (.shuttleBaste k ⟨n, f, .ok⟩) s = .next u ∧ Only [.tiles, .net, .lane, .bar] s u ∧ (∀ j, j ≠ k → u.tile j = s.tile j)
        ∧ (∃ m, u.net = s.net ++ [m] ∧ hBasted m.tok.hdr = true ∧ m.tok.pay = d.pay)
        ∧ (u.tile k).shut n = x.shut n ++ [⟨hTag d.hdr, side, d, true, x.chanDst (x.sideOut n side) (hTag d.hdr)⟩])
  -- the prediction resolved
  ∧ (∀ (k n : Nat) (b : BasteBuf) (c : Token) (s : State),
      let x := s.tile k
      let verdict (sew : Bool) (m : NetTok) : Prop := m.tok =
        ⟨mkHdr ⟨b.dst.1, b.dst.2.1, x.gen, b.dst.2.2, kCtl, false, 1, 8, panelOf k, 0⟩, leBytes 8 (verdictWord sew)⟩
      let alone : Prop := (x.setShut n ((x.shut n).erase b)).undecided b.dst = false
      s.shuttles k n = true → x.resending n = false → (x.shut n).find? BasteBuf.own = some b → x.head (x.ctlq n) = some c →
      isMarker c = false → hTag c.hdr = b.tag → hBasted c.hdr = false →
      (sideOf c = b.side → alone → ∀ f, ∃ u, exec (.shuttleResolve k ⟨n, .ok, f⟩) s = .next u ∧ (∀ j, j ≠ k → u.tile j = s.tile j)
        ∧ (u.tile k).shut n = (x.shut n).erase b ∧ (u.tile k).resend = x.resend ∧ ∃ m, u.net = s.net ++ [m] ∧ verdict true m)
      ∧ (sideOf c = b.side → ¬ alone → ∀ f, ∃ u, exec (.shuttleResolve k ⟨n, .ok, f⟩) s = .next u ∧ (∀ j, j ≠ k → u.tile j = s.tile j)
        ∧ (u.tile k).shut n = (x.shut n).erase b ++ [{ b with own := false }] ∧ u.net = s.net)
      ∧ (sideOf c ≠ b.side → x.get (T.SHUT_CFG_MODE n) = 3 → ∀ f, ∃ u, exec (.shuttleResolve k ⟨n, .ok, f⟩) s = .next u
        ∧ (u.tile k).shut n = (x.shut n).erase b ∧ ∃ m, u.net = s.net ++ [m] ∧ verdict false m)
      ∧ (sideOf c ≠ b.side → x.get (T.SHUT_CFG_MODE n) ≠ 3 → (∀ f ∈ x.fwd, f.2.2 ≠ b.dst) → ∀ f, ∃ u, exec (.shuttleResolve k ⟨n, .ok, f⟩) s = .next u
        ∧ (u.tile k).shut n = (x.shut n).erase b
        ∧ ∃ m l, u.net = s.net ++ m :: l ∧ verdict false m ∧ l.length ≤ 1 ∧ ∀ j ∈ l, j.tok.pay = b.tok.pay))
  -- markers
  ∧ (∀ (k n : Nat) (s : State), s.passes? k n kEnd = true →
      exec (.shuttleEndPass k n) s = .next (((s.tile k).markOuts n).foldl (fun s c => s.sendNew k c kEnd 0 false [])
        (((s.tile k).markQueues n).foldl (fun s q => s.consume k q) s)))
  ∧ (∀ (k n : Nat) (s : State), s.passes? k n kHem = true →
      ∃ u, exec (.shuttleHemPass k n) s = .next u ∧ (∀ j, j ≠ k → u.tile j = s.tile j)
        ∧ (if n = 0 then (u.tile k).shutHem0 = true else (u.tile k).shutHem1 = true)
        ∧ (∀ c ∈ (s.tile k).markOuts n, ((u.tile k).och c).hem = true)
        ∧ u.net.length = s.net.length + ((s.tile k).markOuts n).length)
  -- the predicate unit; a comparison with the index waits while basted tokens that it counts may be squashed
  ∧ (∀ (k : Nat) (d : Token) (s : State),
      let x := s.tile k
      let q := x.get T.PRED_CFG_INQ
      s.predicates k = true → x.head q = some d →
      (hKind d.hdr ≠ kEnd → hKind d.hdr ≠ kHem → ¬ (x.get T.PRED_CFG_OP = 4 ∧ x.predOpen ≠ []) →
        exec (.predicateFire ⟨k, .ok⟩) s = .next ((x.predOuts.foldl
          (fun s c => s.predSend k c q d (xor (x.predicate d) (x.get T.PRED_CFG_INV = 1))) (s.consume k q)).onTile k fun y =>
            { y with
              predIdx := y.predIdx + 1
              predOpen := if hBasted d.hdr then y.predOpen ++ [(q, hTag d.hdr)] else y.predOpen })
        ∧ (d.pay ≠ [] → exec (.predicateFire ⟨k, .uncorrectable⟩) s = .next (s.tileStop k Code.FAB_PAYLOAD_UNCORR q)))
      ∧ (hKind d.hdr ≠ kEnd → x.get T.PRED_CFG_OP = 4 → x.predOpen ≠ [] → ∀ e, exec (.predicateFire ⟨k, e⟩) s = .next s)
      ∧ (∀ e, hKind d.hdr = kEnd →
        exec (.predicateFire ⟨k, e⟩) s = .next ((x.predOuts.foldl (fun s c => s.sendNew k c kEnd 0 false []) (s.consume k q)).onTile k
          fun y => { y with predIdx := 0, predOpen := [] }))
      ∧ (hKind d.hdr = kHem → ∃ u, exec (.predicateHemPass k) s = .next u ∧ (u.tile k).predHem = true
          ∧ (∀ c ∈ x.predOuts, ((u.tile k).och c).hem = true) ∧ u.net.length = s.net.length + x.predOuts.length))
  ∧ (∀ (k c q : Nat) (d : Token) (r : Bool) (s : State), hBasted d.hdr = false →
      s.predSend k c q d r = s.sendAs k c kCtl (hTag d.hdr) 0 false (leBytes 8 (b2n r)))
  -- the comparisons of a predicate unit
  ∧ (∀ (x : Tile) (d : Token), x.get T.PRED_CFG_TYPE = 2 →
      let w := field d.pay (4 * x.get T.PRED_CFG_LANE) 4
      (x.get T.PRED_CFG_OP = 0 → x.get T.PRED_CFG_CONST < 2 ^ 32 → (x.predicate d = true ↔ w % 2 ^ 32 = x.get T.PRED_CFG_CONST))
      ∧ (x.get T.PRED_CFG_OP = 1 → x.get T.PRED_CFG_CONST < 2 ^ 32 → (x.predicate d = true ↔ w % 2 ^ 32 < x.get T.PRED_CFG_CONST)))
  -- verdicts at a tile
  ∧ (∀ (k q g : Nat) (sew : Bool) (s : State), k < nTiles → s.safe = false →
      let x := s.tile k
      let open? (e : BEntry) : Bool := e.q = q && hTag e.tok.hdr = g && e.verdict.isNone
      let staged? (p : Nat × Token) : Bool := p.1 = q && bastedTag g p.2
      x.holdsFault q g = false →
      (∀ e, x.entries.find? open? = some e → sew = false → exec (.verdictToken k q g sew) s = .next (s.squashEntry k e))
      ∧ (∀ e, x.entries.find? open? = some e → sew = true → exec (.verdictToken k q g sew) s = .next ((s.onTile k fun y =>
          { y with entries := y.entries.map fun f => if f.id = e.id then { f with verdict := some true } else f }).closeSewn k 8))
      ∧ (∀ tk, x.entries.find? open? = none → (x.queue q).toks.find? (bastedTag g) = some tk →
          exec (.verdictToken k q g true) s = .next (s.setTile k (x.setQueue q { x.queue q with
            toks := (x.queue q).toks.map fun j => if j = tk then ⟨mkHdr { hdrF tk.hdr with basted := false }, tk.pay⟩ else j }))
          ∧ ∃ u, exec (.verdictToken k q g false) s = .next u ∧ ((u.tile k).queue q).toks = (x.queue q).toks.erase tk)
      ∧ (∀ p, x.entries.find? open? = none → (x.queue q).toks.find? (bastedTag g) = none → x.staging.find? staged? = some p →
          exec (.verdictToken k q g sew) s = .next (s.verdictStaged k q p.2 sew))
      ∧ (x.entries.find? open? = none → (x.queue q).toks.find? (bastedTag g) = none → x.staging.find? staged? = none →
          (x.fwd.any fun f => f.1 = q && f.2.1 = g) = true → exec (.verdictToken k q g sew) s = .next (s.forward k q g sew))
      ∧ (x.entries.find? open? = none → (x.queue q).toks.find? (bastedTag g) = none → x.staging.find? staged? = none →
          (x.fwd.any fun f => f.1 = q && f.2.1 = g) = false →
          (s.bastedInNet k q g = true → exec (.verdictToken k q g sew) s
            = .next (s.setTile k { x with verdicts := x.verdicts ++ [(q, g, sew)] }))
          ∧ (s.bastedInNet k q g = false → exec (.verdictToken k q g sew) s = .next (s.tileStop k Code.FAB_VERDICT_ORPHAN q))))

/-- Loading, checking, arming and starting a pattern (spec/05_patterns_and_reconfiguration.md R156 to R165, R182, R184,
Table 5.9). -/
def Obligations.APatternIsLoadedCheckedAndArmed : Prop :=
  -- the load command
  (∀ (tag : Nat) (c : Cmd) (s : State), s.safe = false → s.cmdFor tag Op.PATTERN_LOAD = some c →
    let t := s.takeCmd c
    let g := (s.curGen + 1) % 16
    let len := c.p 8 4
    (s.flag R.GC_STATE_FABRIC_READY = false ∨ s.draining = true →
      exec (.patternLoad tag) s = .next (t.refuseLoad c Code.PAT_NOT_READY noSec 0))
    ∧ (s.flag R.GC_STATE_FABRIC_READY = true → s.draining = false → s.plState ≠ 0 ∨ s.genState g ≠ 0 →
      exec (.patternLoad tag) s = .next (t.refuseLoad c Code.PAT_GEN_BUSY noSec 0))
    ∧ (s.flag R.GC_STATE_FABRIC_READY = true → s.draining = false → s.plState = 0 → s.genState g = 0 →
      (∀ u code, t.readImage (c.p 0 8) (readLen len) .ok = (u, .inl code) →
        exec (.patternLoad tag) s = .next (u.refuseLoadAs c code))
      ∧ ∀ u img, t.readImage (c.p 0 8) (readLen len) .ok = (u, .inr img) →
        (∀ f, u.pass1 img len = some f → exec (.patternLoad tag) s = .next (u.refuseLoad c f.1 f.2.1 f.2.2))
        ∧ (u.pass1 img len = none → ∃ v, exec (.patternLoad tag) s = .next v ∧ Only [.bar, .tiles, .loader] u v
          ∧ v.plState = 2 ∧ v.genState ((u.curGen + 1) % 16) = 2 ∧ v.curGen = u.curGen ∧ v.loader.live = true
          ∧ (u.tilesIn.length < 4096 → v.get R.PL_STATUS_LEFT = u.tilesIn.length)
          ∧ v.loader.discarding = false ∧ v.loader.goSent = false ∧ v.loader.hold = imgHold img
          ∧ ∀ k, k < nTiles → (v.tile k).stage = [] ∧ (v.tile k).pend = some { gen := (u.curGen + 1) % 16 }
            ∧ (v.tile k).regs = (u.tile k).regs ∧ (v.tile k).imem = (u.tile k).imem)))
  -- pass 2
  ∧ (∀ (e : Ecc) (s : State), s.halts = false → s.loader.live = true → s.loader.discarding = false → s.plState = 2 →
    let l := s.loader
    (∀ u code, s.readImage l.base l.len e = (u, .inl code) →
      exec (.loadPass2 e) s = .next (u.abandonLoad 3 code noSec 0))
    ∧ ∀ u img, s.readImage l.base l.len e = (u, .inr img) →
      (imgCrcOk img = false →
        exec (.loadPass2 e) s = .next ((u.raiseTied Code.PAT_CRC 0xC31 noSec 0x3C).abandonLoad 3 Code.PAT_CRC noSec 0x3C))
      ∧ (imgCrcOk img = true →
        exec (.loadPass2 e) s = .next (if l.hold then (u.pass2 img).setPl 3 else (u.pass2 img).issueLoad)))
  ∧ (∀ (s : State) (img : List Byte) (k : Nat), k < nTiles →
    let y := (s.pass2 img).tile k
    ∃ p, y.pend = some p ∧ p.gen = s.loader.gen ∧ p.regs = newRegs img k ∧ p.count = (newWords img k).length
      ∧ (∀ j, j < p.count → kvGet? y.imem (p.base + j) = (newWords img k)[j]?)
      ∧ y.regs = (s.tile k).regs ∧ y.queues = (s.tile k).queues ∧ y.ochs = (s.tile k).ochs)
  -- the checks at issue
  ∧ (∀ s : State, (s.issueFail = none → s.issueLoad = s.setPl 4)
    ∧ ∀ code, s.issueFail = some code →
      s.issueLoad = (s.raiseTied code 0xC31 noSec 0).abandonLoad 2 code noSec 0)
  ∧ (∀ (s : State) (kind code sec off : Nat), s.loader.gen < 16 →
    let u := s.abandonLoad kind code sec off
    u.genState s.loader.gen = 3 ∧ u.plState = 6 ∧ u.loader.discarding = true ∧ u.loader.discardTo = s.loader.written
      ∧ Only [.bar, .tape, .loader] s u)
  ∧ (∀ (tag : Nat) (c : Cmd) (s : State), s.safe = false → s.cmdFor tag Op.PATTERN_ARM = some c →
    let t := s.takeCmd c
    (s.plState ≠ 3 → exec (.patternArm tag) s = .next (t.refuseTag c Code.TAPE_STATE 0))
    ∧ (s.plState = 3 → t.issueFail = none → exec (.patternArm tag) s = .next ((t.setPl 4).done c []))
    ∧ (∀ code, s.plState = 3 → t.issueFail = some code →
      exec (.patternArm tag) s = .next
        (((t.raiseTied code 0xC31 noSec 0).abandonLoad 2 code noSec 0).reply c.tag c.epoch 2 code [])))
  -- ARM, its acknowledgement, GO
  ∧ (∀ (unit : Nat) (s : State), s.safe = false → s.plState = 4 → allUnits.contains unit = true →
    s.loader.unitArmed.contains unit = false →
    let t := { s with loader := { s.loader with unitArmed := unit :: s.loader.unitArmed } }
    exec (.arm unit) s = .next (
      if unit < nTiles then t.onTile unit fun x => { x with pend := x.pend.map fun p => { p with armed := true } } else t))
  ∧ (∀ (unit : Nat) (s : State), s.halts = false → s.plState = 4 → s.loader.unitArmed.contains unit = true →
    s.loader.armed.contains unit = false →
    let t := { s with loader := { s.loader with armed := unit :: s.loader.armed } }
    (t.loader.armed.length ≠ allUnits.length → exec (.armAck unit) s = .next t)
    ∧ (t.loader.armed.length = allUnits.length → exec (.armAck unit) s = .next t.sendGo))
  ∧ (∀ s : State,
    let u := s.sendGo
    (s.tilesIn ≠ [] → u.plState = 5 ∧ u.loader.goSent = true ∧ u.loader.awaited = allUnits
      ∧ (∀ k ∈ s.tilesIn, k ∈ u.loader.parts) ∧ (∀ k ∈ selvedge, s.unitPart k s.loader.oldGen = true → k ∈ u.loader.parts)
      ∧ Only [.bar, .loader] s u)
    ∧ (s.tilesIn = [] → u.curGen = s.loader.gen % 16))
  ∧ (∀ (unit : Nat) (s : State), s.safe = false → s.loader.goSent = true → allUnits.contains unit = true →
    s.loader.unitGone.contains unit = false →
    let l := s.loader
    let t := { s with loader := { l with
      unitGone := unit :: l.unitGone, ackSent := if l.parts.contains unit then l.ackSent else unit :: l.ackSent } }
    (unit < nTiles → exec (.go unit) s
      = .next (t.onTile unit fun x => { x with pend := x.pend.map fun p => { p with go := true } }))
    ∧ (0xC20 ≤ unit → unit ≤ 0xC27 → exec (.go unit) s = .next (t.enforceIns (unit - 0xC20) l.gen).moveSeam)
    ∧ (unit = 0xC34 → exec (.go unit) s = .next t.moveTape)
    ∧ (nTiles ≤ unit → unit < 0xC20 ∨ 0xC27 < unit → unit ≠ 0xC34 → exec (.go unit) s = .next t))
  -- from GO on an engine works by the new table, which is module-wide once every engine has GO; the tape unit's new
  -- step channels take the old ones' place once the new generation is current too
  ∧ (∀ (p : Nat) (tab : SeamTab) (s : State), s.seam.pend = some tab →
    (s.loader.unitGone.contains (0xC20 + p) = true → s.seamTabOf p = tab)
    ∧ (s.loader.unitGone.contains (0xC20 + p) = false → s.seamTabOf p = s.seam.cur)
    ∧ ((∀ j, j < 8 → (0xC20 + j) ∈ s.loader.unitGone) → s.moveSeam.seam.cur = tab ∧ s.moveSeam.seam.pend = none))
  ∧ (∀ s : State, s.loader.unitGone.contains 0xC34 = true → s.curGen = s.loader.gen →
    s.moveTape.tape.chans = s.tape.pendChans ∧ s.moveTape.tape.pendChans = [])

/-- Ending, switching, retiring and discarding generations (spec/05_patterns_and_reconfiguration.md R162 to R182). -/
def Obligations.GenerationsEndAndRetire : Prop :=
  -- hem markers of the program's channels
  (∀ (t c : Nat) (s : State),
    let x := s.tile t
    s.issues = true → t < nTiles → chEn x.regs c = true → unitOut t x.regs c = false → (x.och c).hem = false →
    x.programEnded = true → (x.count ≠ 0 ∨ x.pend.any TilePend.go = true) → x.canSend c = true →
    ∃ u m, exec (.hemSend t c) s = .next u ∧ u.net = s.net ++ [m] ∧ hKind m.tok.hdr = kHem
      ∧ ((u.tile t).och c).hem = true ∧ (u.tile t).queues = x.queues ∧ ∀ j, j ≠ t → u.tile j = s.tile j)
  -- the switch of a tile
  ∧ (∀ (t : Nat) (p : TilePend) (s : State), (s.tile t).pend = some p → s.safe = false → s.canSwitch t = true →
    let s1 := s.takeHems t
    let x := s1.tile t
    let st := stageTo x.regs p.regs
    (∀ f, tileCheck t x.regs st p.regs = some f →
      exec (.tileSwitch t) s = .next ((s1.raise Code.PAT_SWITCH_FAIL t 0 (f.1 + f.2 * 2 ^ 16)).onTile t fun x =>
        { x.stopped with stage := [], pend := none }))
    ∧ (tileCheck t x.regs st p.regs = none →
      ∃ u, exec (.tileSwitch t) s = .next u ∧ (u.tile t).get T.TILE_STATUS_GEN = p.gen % 16
        ∧ (u.tile t).get T.TILE_STATUS_STATE = (if p.count = 0 ∨ (s1.unpick.flushed = true ∧ s1.drain = 3) then 0 else 1)
        ∧ (u.tile t).pend = none ∧ (u.tile t).count = p.count ∧ (u.tile t).base = p.base ∧ (u.tile t).loops = []
        ∧ (u.tile t).imem = x.imem ∧ (u.tile t).acc = x.acc ∧ (t ∈ u.loader.ackSent ∨ u.loader.live = false) ∧ u.net = s1.net ∧ u.mem = s1.mem
        ∧ ∀ j, j ≠ t → u.tile j = s1.tile j))
  -- a tile that takes no part in the old generation and has scratchpad data to come switches once GO is there
  ∧ (∀ (t : Nat) (p : TilePend) (s : State), (s.tile t).pend = some p → p.go = true → p.spad ≠ [] → s.canSwitch t = true)
  ∧ (∀ (t : Nat) (p : TilePend) (s : State), (s.tile t).pend = some p → p.go = false → s.canSwitch t = false)
  -- the pending generation becomes current
  ∧ (∀ s : State, s.loader.gen < 16 → s.loader.oldGen < 16 → s.loader.gen ≠ s.loader.oldGen →
    let u := s.makeCurrent
    u.genState s.loader.gen = 1 ∧ u.genState s.loader.oldGen = 3 ∧ u.curGen = s.loader.gen ∧ u.plState = 6
      ∧ (s.loader.unitGone.contains 0xC34 = true → u.tape.chans = s.tape.pendChans ∧ u.tape.pendChans = [])
      ∧ (s.loader.unitGone.contains 0xC34 = false → u.tape.chans = s.tape.chans ∧ u.tape.pendChans = s.tape.pendChans)
      ∧ u.loader.curRegions = s.loader.regions ∧ Only [.bar, .loader, .tape] s u)
  -- a selvedge unit ends the old generation
  ∧ (∀ (unit : Nat) (s : State), s.safe = false → selvedge.contains unit = true → s.loader.unitGone.contains unit = true →
    s.loader.ackSent.contains unit = false →
    let g := s.loader.oldGen
    let t := if unit = 0xC34 then s.hemChans g else if 0xC20 ≤ unit ∧ unit ≤ 0xC27 then s.hemDone (unit - 0xC20) g else s
    (t.unitEnded unit g = false → exec (.selvedgeGenEnd unit) s = .next t)
    ∧ (t.unitEnded unit g = true → exec (.selvedgeGenEnd unit) s
      = .next { t with loader := { t.loader with ackSent := unit :: t.loader.ackSent } }))
  ∧ (∀ (s : State) (g : Nat), s.fab.stopped = [] → ∀ c ∈ (s.hemChans g).tape.chans, c.gen = g →
    c.hem = true ∨ c.owed ≠ [] ∨ c.owedEnd = true ∨ c.credits = 0 ∨ c.bucket = 0)
  -- acknowledgements of retirement
  ∧ (∀ (unit : Nat) (s : State), s.halts = false → s.loader.ackSent.contains unit = true → s.loader.awaited.contains unit = true →
    exec (.retireAck unit) s
      = .next { s with loader := { s.loader with awaited := s.loader.awaited.erase unit } }.endRetire)
  ∧ (∀ s : State, s.plState = 6 → s.loader.discarding = false → s.loader.live = true →
    (s.loader.awaited ≠ [] ∨ s.loader.late = true ∨ (∃ e ∈ s.tiles, e.2.pend ≠ none) → s.endRetire = s)
    ∧ (s.loader.awaited = [] → s.loader.late = false → (∀ e ∈ s.tiles, e.2.pend = none) → s.loader.oldGen < 16 →
      s.endRetire.genState s.loader.oldGen = 0 ∧ s.endRetire.plState = 0 ∧ s.endRetire.loader.live = false
        ∧ Only [.bar, .loader] s s.endRetire))
  -- DISCARD and its acknowledgement
  ∧ (∀ (unit : Nat) (s : State), s.safe = false → s.loader.discarding = true → s.loader.discardTo.contains unit = true →
    let l := s.loader
    let t := { s with loader := { l with discardTo := l.discardTo.erase unit, discarded := unit :: l.discarded } }
    (unit < nTiles → exec (.discard unit) s = .next (t.onTile unit fun x => { x with stage := [], pend := none }))
    ∧ (unit = 0xC34 → exec (.discard unit) s = .next { t with tape := { t.tape with pendChans := [] } })
    ∧ (0xC20 ≤ unit → unit ≤ 0xC27 → ∃ u, exec (.discard unit) s = .next u ∧ Only [.seam] t u ∧ u.seam.pend = none
      ∧ (∀ o, o ∈ u.seam.outs ↔ o ∈ s.seam.outs ∧ ¬ (o.rc.port = unit - 0xC20 ∧ o.gen = l.gen))
      ∧ (∀ i, i ∈ u.seam.ins ↔ i ∈ s.seam.ins ∧ ¬ (i.rc.port = unit - 0xC20 ∧ i.gen = l.gen))
      ∧ (∀ d, d ∈ u.seam.done ↔ d ∈ s.seam.done ∧ ¬ (d.port = unit - 0xC20 ∧ d.gen = l.gen))))
  ∧ (∀ (unit : Nat) (s : State), s.halts = false → s.loader.discarding = true → s.loader.discarded.contains unit = true →
    exec (.discardAck unit) s
      = .next { s with loader := { s.loader with discarded := s.loader.discarded.erase unit } }.endDiscard)
  ∧ (∀ s : State, s.loader.discarding = true →
    (s.loader.discardTo ≠ [] ∨ s.loader.discarded ≠ [] → s.endDiscard = s)
    ∧ (s.loader.discardTo = [] → s.loader.discarded = [] → s.loader.gen < 16 →
      s.endDiscard.genState s.loader.gen = 0 ∧ s.endDiscard.plState = 0 ∧ s.endDiscard.loader.discarding = false
        ∧ (s.loader.cancelled = false → s.endDiscard.tape = s.tape) ∧ Only [.bar, .loader, .tape] s s.endDiscard))
  -- deadlines
  ∧ (∀ s : State, s.halts = false → s.loader.live = true → s.loader.discarding = false →
    (s.loader.goSent = false → s.plState ≠ 3 → exec .patLoadDeadline s = .next
      ((s.raiseAs .contained true Code.PAT_LOAD_DEADLINE 0xC31 noSec 0).abandonLoad 3 Code.PAT_LOAD_DEADLINE noSec 0))
    ∧ (s.loader.goSent = true → s.plState = 5 ∨ (s.plState = 6 ∧ ∃ e ∈ s.tiles, e.2.pend ≠ none) →
      exec .patLoadDeadline s = .next (s.raiseAs .run false Code.PAT_LOAD_DEADLINE 0xC31 noSec 0)))
  ∧ (∀ s : State, s.halts = false → s.plState = 6 → s.loader.live = true →
    let t := s.raise Code.PAT_RETIRE_DEADLINE 0xC31 noSec 0
    exec .patRetireDeadline s
      = .next (if s.loader.discarding then t else { t with loader := { t.loader with late := true } }))

/-- Progress monitors and the runs of the unpick controller (spec/06_progress_deadlock_drain.md R194 to R199). -/
def Obligations.MonitorsTripAndProbesDecide : Prop :=
  -- a trip, and the report of its panel
  (∀ (t : Nat) (a : TAgent) (w : WaitOn) (s : State), s.flag R.UNP_CFG_MON_EN = true → s.waitsOn t a w = true →
    (s.tile t).tripped.contains (a, w) = false →
    let p := panelOf t
    let u := s.onTile t fun x => { x with tripped := x.tripped ++ [(a, w)] }
    (s.panelTrips p = true → s.unpick.spent.contains p = true → exec (.monitorTrip t a w) s = .next u)
    ∧ (s.panelTrips p = false ∨ s.unpick.spent.contains p = false →
      ∃ v, exec (.monitorTrip t a w) s = .next v ∧ Only [.unpick] u v ∧ p ∈ v.unpick.sent ∧ p ∈ v.unpick.spent))
  ∧ (∀ (t : Nat) (a : TAgent) (w : WaitOn) (s : State),
    s.flag R.UNP_CFG_MON_EN = false ∨ s.waitsOn t a w = false ∨ (s.tile t).tripped.contains (a, w) = true →
    exec (.monitorTrip t a w) s = .next s)
  -- what counts: neither an empty queue nor an empty ring in a drain, and nothing in a FLUSH
  ∧ (∀ (t q r : Nat) (a : TAgent) (s : State), s.drain ≠ 0 →
    s.waitsOn t a (.queue q) = false ∧ s.waitsOn t a (.ring r false) = false
    ∧ (s.drain = 2 → s.waitsOn t a (.och q) = false ∧ s.waitsOn t a (.ring r true) = false ∧ s.waitsOn t a .req = false))
  -- a report
  ∧ (∀ (p : Nat) (s : State), s.halts = false → s.unpick.sent.contains p = true →
    let t := { s.bump R.TRIPS 1 with unpick := { s.unpick with sent := s.unpick.sent.erase p } }
    (s.unpState = 0 → ∃ u, exec (.stallReport p) s = .next u ∧ u.unpState = 1 ∧ u.unpick.probed = List.range nTiles
      ∧ u.unpick.answers = [] ∧ Only [.bar, .unpick] s u)
    ∧ (s.unpState = 1 → exec (.stallReport p) s = .next t)
    ∧ (1 < s.unpState → exec (.stallReport p) s = .next { t with unpick := { t.unpick with again := true } }))
  -- a probe answered
  ∧ (∀ (t : Nat) (s : State), s.safe = false → s.unpick.probed.contains t = true →
    ∃ u, exec (.probe t) s = .next u ∧ Only [.tiles, .unpick] s u ∧ (∀ j, j ≠ t → u.tile j = s.tile j)
      ∧ u.unpick.probed = s.unpick.probed.erase t ∧ u.unpick.owed = s.unpick.owed ++ [⟨t, s.probeAnswer t⟩]
      ∧ ∀ e ∈ (u.tile t).queues, e.2.moved = false)
  ∧ (∀ (t : Nat) (s : State),
    let v := (s.probeAnswer t).toNat
    let x := s.tile t
    (∀ q, q < 32 → (bit v q = true ↔ qEn x.regs q = true ∧ x.get (T.QCFG_SPILL q) = 1 ∧ (x.queue q).spill = false
      ∧ (x.queue q).toks ≠ [] ∧ (x.queue q).moved = false))
    ∧ (bit v 32 = true ↔ s.trips t ≠ []) ∧ (bit v 33 = true ↔ ∃ w ∈ s.trips t, creditWait w.2 = true) ∧ (bit v 34 = true ↔ x.quiet = true)
    ∧ v < 2 ^ 35)
  ∧ (∀ q r : Nat, creditWait (.och q) = true ∧ creditWait (.ring r true) = true ∧ creditWait (.ring r false) = false
    ∧ creditWait (.queue q) = false ∧ creditWait .req = false)
  -- an answer collected
  ∧ (∀ (t : Nat) (payload : W64) (s : State), s.halts = false → s.unpick.owed.contains ⟨t, payload⟩ = true →
    let u := { s with unpick := { s.unpick with
      owed := s.unpick.owed.erase ⟨t, payload⟩, answers := s.unpick.answers ++ [⟨t, payload⟩] } }
    let last : Prop := u.unpick.probed = [] ∧ u.unpick.owed = []
    (¬ last → exec (.probeReply t payload) s = .next u)
    ∧ (last → s.unpState = 1 → exec (.probeReply t payload) s = .next (u.set R.UNP_STATUS_STATE 2))
    ∧ (last → s.unpState = 3 → exec (.probeReply t payload) s = .next u.unpDecide))
  -- the decision
  ∧ (∀ s : State,
    let l := s.unpick.answers
    let stalled : Prop := ∃ a ∈ l, bit a.payload.toNat 32 = true
    let stuck : Prop := (∃ a ∈ l, bits a.payload.toNat 0 32 ≠ 0) ∧ s.flag R.UNP_CFG_UNPICK_EN = true
    let full (t : Nat) : Prop := ∃ a ∈ l, a.tile = t ∧ bit a.payload.toNat 33 = true
    (¬ stalled → s.unpDecide = (s.bump R.TRANSIENT 1).endRun)
    ∧ (stalled → stuck → s.unpDecide.unpState = 4 ∧ s.unpDecide.unpick.spillCmds = stuckOf l ∧ Only [.bar, .unpick] s s.unpDecide)
    ∧ (∀ t, t < nTiles → stalled → ¬ stuck → full t → (∀ j, j < t → ¬ full j) →
      s.unpDecide = s.endRun.raise Code.UNP_STUCK 0xC32 0 t)
    ∧ (stalled → ¬ stuck → (∀ t, t < nTiles → ¬ full t) → s.unpDecide = (s.bump R.STARVED 1).endRun))
  ∧ (∀ (l : List ProbeAns) (t q : Nat), (t, q) ∈ stuckOf l ↔ q < 32 ∧ ∃ a ∈ l, a.tile = t ∧ bit a.payload.toNat q = true)
  ∧ (∀ s : State, (s.unpick.again = false → s.endRun.unpState = 0) ∧ (s.unpick.again = true → s.endRun.unpState = 1)
    ∧ s.endRun.unpick.again = false ∧ ∀ p, p ∈ s.endRun.unpick.sent ↔ p ∈ s.unpick.sent ∨ (p < 36 ∧ s.panelTrips p = true))
  -- the window and the bound of a round
  ∧ (∀ s : State, s.halts = false → s.unpState = 2 →
    ∃ u, exec .confirmWindowEnd s = .next u ∧ u.unpState = 3 ∧ u.unpick.probed = List.range nTiles ∧ u.unpick.owed = []
      ∧ u.unpick.answers = [] ∧ Only [.bar, .unpick] s u)
  ∧ (∀ (t : Nat) (l : List Nat) (s : State), s.halts = false → s.unpState = 1 ∨ s.unpState = 3 →
    s.unpick.probed ++ s.unpick.owed.map ProbeAns.tile = t :: l →
    exec .unpProbeDeadline s = .next (s.raise Code.UNP_PROBE_DEADLINE 0xC32 0 t))

/-- Spill mode: entering it, arrivals, records, refill, leaving it (spec/06_progress_deadlock_drain.md R200 to R205). -/
def Obligations.QueuesSpillAndRefill : Prop :=
  -- entering spill mode
  (∀ (t q : Nat) (s : State), s.safe = false → s.unpick.spillCmds.contains (t, q) = true → ((s.tile t).queue q).spill = false →
    let v := (s.tile t).queue q
    let left := s.unpick.spillCmds.erase (t, q)
    (left ≠ [] ∨ s.unpState ≠ 4 → ∃ u, exec (.spillCommand t q) s = .next u ∧ Only [.bar, .tiles, .lane, .unpick] s u
      ∧ (u.tile t).queue q = { v with spill := true, rsv := (s.tile t).freeSlots q }
      ∧ (∀ j, j ≠ t → u.tile j = s.tile j) ∧ (∀ p, p ≠ q → (u.tile t).queue p = (s.tile t).queue p)
      ∧ u.unpick = { s.unpick with spillCmds := left } ∧ (v.rsv = 0 → (u.tile t).freeSlots q = 0))
    ∧ (left = [] → s.unpState = 4 → s.unpick.again = false → ∃ u, exec (.spillCommand t q) s = .next u
      ∧ Only [.bar, .tiles, .lane, .unpick] s u ∧ u.unpState = 0 ∧ u.unpick.spillCmds = []
      ∧ (u.tile t).queue q = { v with spill := true, rsv := (s.tile t).freeSlots q }))
  -- arrivals
  ∧ (∀ (t : Nat) (n : NetTok) (s : State), t < nTiles → s.safe = false → ((s.tile t).queue (hDq n.tok.hdr)).spill = true →
    let h := n.tok.hdr
    let s' := s.depart n
    ((s.tile t).stuck n.tok = true → exec (.spillArrival t h n.tok.pay) s = .next s)
    ∧ ((s.tile t).stuck n.tok = false → s.named (fun m => m.arrived && hDest m.tok.hdr = t) h = .tok n →
      (hdrOk h = false → exec (.spillArrival t h n.tok.pay) s = .next (s'.tileStop t Code.FAB_HDR_CRC (hDq h)))
      ∧ (hdrOk h = true → fieldBad h = true → hBasted h = false →
        exec (.spillArrival t h n.tok.pay) s = .next (s'.tileStop t Code.FAB_HDR_FIELD (hDq h)))
      ∧ (∀ rf, hdrOk h = true → fieldBad h = false → (s.tile t).liveRegs (hGen h) = some rf →
        ((s.tile t).chanOk rf (hDq h) h = true → exec (.spillArrival t h n.tok.pay) s = .next (s'.stageTok t (hDq h) n.tok))
        ∧ ((s.tile t).chanOk rf (hDq h) h = false → hBasted h = false →
          exec (.spillArrival t h n.tok.pay) s = .next (s'.tileStop t Code.FAB_CHAN_MISMATCH (hDq h))))))
  -- the staging buffer holds eight tokens; a sewn one goes on to the controller, while its chain has room
  ∧ (∀ (x : Tile) (k : Token) (rf : RegFile), (x.queue (hDq k.hdr)).spill = true → x.liveRegs (hGen k.hdr) = some rf →
    x.chanOk rf (hDq k.hdr) k.hdr = true → (x.stuck k = true ↔ 8 ≤ x.staging.length))
  ∧ (∀ (t q : Nat) (k : Token) (s : State), s.spillRoom (t, q, hGen k.hdr) = false →
    s.sendSpill t q k = (s.onTile t fun x => { x with staging := x.staging ++ [(q, k)] }).raise Code.UNP_SPILL_FULL 0xC32 0 0)
  -- a record: the pair that came first
  ∧ (∀ (t q : Nat) (k : Token) (rest : List (Nat × Token)) (s : State), s.halts = false → s.unpick.flushed = false →
    firstPair s.unpick.arrived = some (k, rest) → hDest k.hdr = t → hDq k.hdr = q →
    let c := (s.chain t q (hGen k.hdr)).getD ⟨t, q, hGen k.hdr, []⟩
    (s.recordAddr c = none → exec (.spillRecord t q) s = .next (s.raise Code.UNP_SPILL_FULL 0xC32 0 0))
    ∧ (∀ a, s.recordAddr c = some a →
      let w := (s.put a (spillBytes k)).bump R.RECORDS_SPILLED 1
      ∃ u, exec (.spillRecord t q) s = .next u ∧ Only [.unpick] w u ∧ u.unpick.arrived = rest
        ∧ u.unpick.seq = w.unpick.seq + 1
        ∧ u.unpick.chains = putChain w.unpick.chains { c with recs := c.recs ++ [(a, w.unpick.seq)] }
        ∧ kvGet 0 u.unpick.pages (a / 4096 * 4096) = kvGet 0 w.unpick.pages (a / 4096 * 4096) + 1))
  ∧ (∀ (a b : Nat × Token) (l m : List (Nat × Token)), a.1 = b.1 → (∀ c ∈ l, c.1 ≠ a.1) →
    firstPair (a :: l ++ b :: m) = some (⟨BitVec.ofNat 64 (leNat a.2.pay), b.2.pay⟩, l ++ m))
  ∧ (∀ k : Token, (spillBytes k).take 8 = leBytes 8 k.hdr.toNat ∧ ((spillBytes k).drop 64).take k.pay.length = k.pay
    ∧ (k.pay.length ≤ 64 → (spillBytes k).length = 128))
  -- a refill: the oldest record that may be refilled
  ∧ (∀ (t q a n : Nat) (rest : List (Nat × Nat)) (c : Chain) (e : Ecc) (s : State), s.halts = false → s.unpick.flushed = false →
    s.chain t q ((s.tile t).get T.TILE_STATUS_GEN) = some c → c.recs = (a, n) :: rest → s.refillable c = true →
    (∀ d ∈ s.unpick.chains, s.refillable d = true → c.oldest ≤ d.oldest) →
    let r := s.load a 128 false e
    let b := r.1.rdN a 128
    let k : Token := ⟨BitVec.ofNat 64 (field b 0 8), (b.drop 64).take (hLen (BitVec.ofNat 64 (field b 0 8)))⟩
    let left := kvGet 1 s.unpick.pages (a / 4096 * 4096) - 1
    let w := { r.1 with unpick := { r.1.unpick with
      chains := putChain r.1.unpick.chains { c with recs := rest }
      pages := if left = 0 then kvErase r.1.unpick.pages (a / 4096 * 4096) else kvSet r.1.unpick.pages (a / 4096 * 4096) left } }
    (r.2 = none → ∃ u, exec (.refill t q e) s = .next u ∧ u.unpick = { w.unpick with refills := w.unpick.refills ++ [(t, q, k)] }
      ∧ Only [.bar, .net, .unpick] w u)
    ∧ (r.2 ≠ none → exec (.refill t q e) s = .next (w.raise Code.UNP_SPILL_LOST 0xC32 0 t)))
  ∧ (∀ (c : Chain) (s : State), s.refillable c = true ↔ ((s.tile c.tile).queue c.queue).spill = true
    ∧ (s.unpick.refills.filter fun r => r.1 = c.tile && r.2.1 = c.queue).length < ((s.tile c.tile).queue c.queue).rsv
    ∧ (s.tile c.tile).get T.TILE_STATUS_GEN = c.gen ∧ s.unpick.notices.contains c.tile = false)
  ∧ (∀ (t q : Nat) (k : Token) (rest : List Token) (s : State), s.safe = false →
    refillPair q (s.tile t).spillIn = some (k, rest) →
    ∃ u, exec (.refillToken t q) s = .next u ∧ Only [.tiles, .unpick] s u ∧ (∀ j, j ≠ t → u.tile j = s.tile j)
      ∧ ((u.tile t).queue q).toks = ((s.tile t).queue q).toks ++ [k] ∧ ((u.tile t).queue q).rsv = ((s.tile t).queue q).rsv - 1
      ∧ (u.tile t).spillIn = rest)
  -- notices, and leaving spill mode
  ∧ (∀ (t : Nat) (s : State), s.safe = false →
    exec (.switchNotice t) s = .next { s with unpick := { s.unpick with notices := s.unpick.notices.erase t } })
  ∧ (∀ (t q : Nat) (s : State), s.safe = false → s.spillOver t q = true →
    exec (.spillModeExit t q) s = .next (s.setTile t ((s.tile t).setQueue q { (s.tile t).queue q with spill := false, rsv := 0 })))

/-- QUIESCE, FLUSH and RESUME (spec/06_progress_deadlock_drain.md R207 to R212). -/
def Obligations.DrainsQuiesceFlushAndResume : Prop :=
  -- QUIESCE
  (∀ (tag : Nat) (c : Cmd) (s : State), s.safe = false → s.cmdFor tag Op.DRAIN = some c → c.p 0 1 = 0 →
    let t := s.takeCmd c
    let w := { t with unpick := { t.unpick with drainTags := t.unpick.drainTags ++ [(c.tag, c.epoch)] } }
    (s.drain = 3 → exec (.drainQuiesce tag) s = .next (t.done c []))
    ∧ (s.drain = 0 → exec (.drainQuiesce tag) s = .next (w.set R.UNP_STATUS_DRAIN 1))
    ∧ (s.drain = 1 ∨ s.drain = 2 → exec (.drainQuiesce tag) s = .next w))
  ∧ (∀ s : State, s.halts = false → s.drain = 1 → s.stepOpen = false →
    exec .quiesceStopInputs s = .next { s with unpick := { s.unpick with stopped := true } })
  ∧ (∀ s : State, s.halts = false → s.drain = 1 → s.unpick.stopped = true →
    (s.quiescent = false → ∃ u, exec .quiesceProbeRound s = .next u ∧ Only [.tiles] s u
      ∧ ∀ t, u.tile t = (s.tile t).clearMoved)
    ∧ (s.quiescent = true → ∃ u, exec .quiesceProbeRound s = .next u ∧ Only [.bar, .tiles, .tape, .unpick] s u
      ∧ u.drain = 3 ∧ u.unpick.drainTags = [] ∧ u.unpick.stopped = true ∧ ∀ t, u.tile t = (s.tile t).clearMoved))
  ∧ (∀ s : State, s.halts = false → s.drain = 1 →
    exec .unpDrainDeadline s = .next (s.raise Code.UNP_DRAIN_DEADLINE 0xC32 0 0).startFlush)
  ∧ (∀ s : State, s.drain ≠ 2 → s.startFlush.drain = 2 ∧ s.startFlush.unpick.stopped = true
    ∧ s.startFlush.unpick.flushed = true ∧ Only [.bar, .tiles, .net, .unpick] s s.startFlush
    ∧ ∀ k, (s.startFlush.tile k).bob0.run = false ∧ (s.startFlush.tile k).bob1.run = false)
  -- FLUSH
  ∧ (∀ (tag : Nat) (c : Cmd) (s : State), s.safe = false → s.cmdFor tag Op.DRAIN = some c → c.p 0 1 = 1 →
    let t := s.takeCmd c
    let w := { t with unpick := { t.unpick with drainTags := t.unpick.drainTags ++ [(c.tag, c.epoch)] } }
    (s.drain = 2 → exec (.drainFlush tag) s = .next w)
    ∧ (s.drain ≠ 2 → ∃ u, exec (.drainFlush tag) s = .next u ∧ u.drain = 2 ∧ u.unpick.stopped = true ∧ u.unpick.flushed = true
      ∧ (c.tag, c.epoch) ∈ u.unpick.drainTags ∧ (s.stepOpen = true → s.verdictSent = false → u.phase = 0)
      ∧ ∀ k, (u.tile k).bob0.run = false ∧ (u.tile k).bob1.run = false))
  ∧ (∀ s : State, s.halts = false → s.drain = 2 → (∀ e ∈ s.tiles, ∀ p, e.2.pend = some p → p.go = false) →
    ∃ u, exec .flushDone s = .next u ∧ u.drain = 3 ∧ u.net = [] ∧ u.lane = [] ∧ u.unpick.chains = [] ∧ u.unpick.pages = []
      ∧ u.unpick.refills = [] ∧ u.unpick.arrived = [] ∧ u.unpick.due = [] ∧ u.fab = { arb := s.fab.arb } ∧ u.unpick.drainTags = []
      ∧ (∀ t, (u.tile t).queues = [] ∧ (u.tile t).loops = [] ∧ (u.tile t).entries = [] ∧ (u.tile t).outst = []
        ∧ (u.tile t).get T.TILE_STATUS_STATE = 0)
      ∧ (s.mem.heldReqs = [] → Only [.bar, .tiles, .net, .fab, .lane, .unpick, .press, .seam, .tape] s u
        ∧ ∀ t, (u.tile t).acc = (s.tile t).acc ∧ (u.tile t).spad = (s.tile t).spad ∧ (u.tile t).imem = (s.tile t).imem))
  ∧ (∀ s : State, s.safe = false → s.drain = 2 →
    exec .unpFlushDeadline s = .next (s.raise Code.UNP_FLUSH_DEADLINE 0xC32 0 0))
  -- RESUME
  ∧ (∀ (tag : Nat) (c : Cmd) (s : State), s.safe = false → s.cmdFor tag Op.RESUME = some c →
    let t := s.takeCmd c
    (s.drain ≠ 3 → exec (.resume tag) s = .next (t.refuseTag c Code.TAPE_STATE 0))
    ∧ (s.drain = 3 → ∃ u, exec (.resume tag) s = .next u ∧ u.drain = 0 ∧ u.unpick.stopped = false ∧ u.unpick.flushed = false
      ∧ (∀ k, u.tile k = (s.tile k).resumed) ∧ Only [.bar, .tiles, .unpick, .tape] s u))
  ∧ (∀ x : Tile, x.get T.TILE_STATUS_STATE = 0 → 0 < x.count → x.base < 2048 →
    x.resumed.get T.TILE_STATUS_STATE = 1 ∧ x.resumed.get T.TILE_STATUS_PC = x.base ∧ x.resumed.halted = false
      ∧ x.resumed.loops = [])
  ∧ (∀ x : Tile, x.get T.TILE_STATUS_STATE ≠ 0 ∨ x.count = 0 → x.resumed = { x with tripped := [] })

/-- Reads, writes, atomics and tickets at the memory controllers (spec/08_memory_system.md R263 to R266, R274 to R277). -/
def Obligations.MemoryReadsWritesAndAtomics : Prop :=
  -- bytes written are those, and no other, bytes of memory
  (∀ (s : State) (a : Nat) (l : List Byte),
    (∀ x, (∀ k, k < l.length → s.memKey (a + k) ≠ some x) → memRead (s.wrN a l).mem.data x = memRead s.mem.data x)
    ∧ ((∀ i j, i < l.length → j < l.length → s.memKey (a + i) = s.memKey (a + j) → i = j) →
      (∀ i, i < l.length → (s.memKey (a + i)).isSome = true) → (s.wrN a l).rdN a l.length = l)
    ∧ (s.mem.data.wf = true → (s.wrN a l).mem.data.wf = true))
  -- a read; a request that is late by its slack is counted
  ∧ (∀ (agent addr len wait : Nat) (na : Bool) (e : Ecc) (s : State), s.takes addr len = true →
    let d := s.dry (s.mcOf addr) 0xFFFF wait
    let run := exec (.memRead agent addr len na ⟨wait, e⟩) s
    (d.behind (d.orderKey addr) = true → run = .next (d.holdReq addr none (.memRead agent addr len na ⟨wait, e⟩)))
    ∧ (d.behind (d.orderKey addr) = false → d.inHostBias addr = true →
      run = .next { d with cxl := { d.cxl with biasReqs := d.cxl.biasReqs ++ [⟨addr, .memRead agent addr len na ⟨wait, e⟩, d.seed⟩] } })
    ∧ (d.behind (d.orderKey addr) = false → d.inHostBias addr = false →
      (d.reach addr len ≠ .ok →
        run = .next ((d.reachFault agent 0 addr len).emit (.memRefused agent addr (d.reachCode addr len))))
      ∧ (d.reach addr len = .ok → e = .ok → d.mem.errs = [] → lpEnd ≤ addr ∨ d.mem.poison.contains (d.memUnit addr) = false →
        ∃ u, run = .next u ∧ Only [.bar, .mem, .out] d u ∧ u.out = d.out ++ [.memData agent addr (d.rdN addr len)]
          ∧ u.mem.data = d.mem.data ∧ u.mem.exts = d.mem.exts ∧ u.mem.poison = d.mem.poison)
      ∧ (d.reach addr len = .ok → addr < lpEnd → d.mem.poison.contains (d.memUnit addr) = true →
        ∃ u, run = .next u ∧ u.mem.data = d.mem.data
          ∧ u.out.getLast? = some (.memRefused agent addr (d.ueCodeAt addr (readerOf agent))))))
  ∧ (∀ (n slack wait : Nat) (s : State), (wait ≤ 16 * slack → s.dry n slack wait = s)
    ∧ (16 * slack < wait → s.dry n slack wait = s.bump (R.DRY_LATE n) 1))
  -- what becomes of a basted request: its verdict has come, or is awaited
  ∧ (∀ (u g : Nat) (dq : Nat → Bool) (s : State),
    s.fate u dq none = (s, .sewn)
    ∧ ((s.fab.verdicts.find? fun v => v.1 = u && dq v.2.1 && v.2.2.1 = g) = none → (s.fate u dq (some g)).2 = .held g)
    ∧ (∀ v, (s.fab.verdicts.find? fun v => v.1 = u && dq v.2.1 && v.2.2.1 = g) = some v →
        (s.fate u dq (some g)).2 = (if v.2.2.2 then .sewn else .gone)
        ∧ (s.fate u dq (some g)).1.fab.verdicts = s.fab.verdicts.erase v)
    ∧ ∀ b, Only [.fab] s (s.fate u dq b).1)
  -- a write
  ∧ (∀ (agent addr wait : Nat) (bytes : List Byte) (na : Bool) (tag : Option Nat) (e : Ecc) (s : State),
    s.takes addr bytes.length = true →
    let run := exec (.memWrite agent addr bytes na tag ⟨wait, e⟩) s
    let len := bytes.length
    let f := (s.dry (s.mcOf addr) 0xFFFF wait).fate (0xC00 + s.mcOf addr) (fun q => !(q = 28 || q = 30)) tag
    let t := f.1
    let plain : Prop := f.2 = .sewn ∧ t.behind (t.orderKey addr) = false ∧ t.inHostBias addr = false
    let keptOut : Prop := addr < lpEnd ∧ t.granCls (t.memUnit addr) = 0 ∧ writesW agent = false
    (∀ g, f.2 = .held g → run = .next (t.holdReq addr (some g) (.memWrite agent addr bytes na none ⟨wait, e⟩)))
    ∧ (f.2 = .gone → run = .next t)
    ∧ (plain → t.reach addr len ≠ .ok →
      run = .next ((t.reachFault agent 0 addr len).emit (.memRefused agent addr (t.reachCode addr len))))
    ∧ (plain → t.reach addr len = .ok → keptOut →
      run = .next ((t.memFault Code.MEM_W_WRITE addr).emit (.memRefused agent addr Code.MEM_W_WRITE)))
    ∧ (plain → t.reach addr len = .ok → ¬ keptOut → e = .ok → t.mem.errs = [] →
        lpEnd ≤ addr ∨ t.mem.poison.contains (t.memUnit addr) = false →
      ∃ u, run = .next u ∧ Only [.bar, .mem, .out] t u ∧ u.out = t.out ++ [.memDone agent addr]
        ∧ u.mem.data = (t.wrN addr bytes).mem.data ∧ u.mem.exts = t.mem.exts)
    ∧ (plain → t.reach addr len = .ok → ¬ keptOut → addr < lpEnd → t.wholeGranule addr len = true →
      ∃ u, run = .next u ∧ u.mem.data = (t.wrN addr bytes).mem.data ∧ u.mem.poison = t.mem.poison.erase (t.memUnit addr)))
  -- atomics arrive
  ∧ (∀ (agent addr set cnt seq salt wait : Nat) (adds : List W32) (tag : Option Nat) (e : Ecc) (s : State), s.safe = false →
    ∀ p ∈ [(atomF32, Instr.f32add agent addr set cnt seq salt adds tag ⟨wait, e⟩, Instr.f32add agent addr set cnt seq salt adds none ⟨wait, e⟩),
      (atomPair, .pairadd agent addr set cnt seq salt adds tag ⟨wait, e⟩, .pairadd agent addr set cnt seq salt adds none ⟨wait, e⟩),
      (atomBf16, .bf16add agent addr set cnt seq salt adds tag ⟨wait, e⟩, .bf16add agent addr set cnt seq salt adds none ⟨wait, e⟩),
      (atomI32, .i32add agent addr set cnt seq salt adds tag ⟨wait, e⟩, .i32add agent addr set cnt seq salt adds none ⟨wait, e⟩)],
    let q : AtomReq := ⟨agent, p.1, addr, set, cnt, seq, salt, adds, false, s.seed⟩
    let f := (s.dry (s.atomMc q) 0xFFFF wait).fate (0xC00 + s.atomMc q) (fun d => d = 28) tag
    (∀ g, f.2 = .held g → exec p.2.1 s = .next (f.1.holdReq addr (some g) p.2.2))
    ∧ (f.2 = .gone → exec p.2.1 s = .next f.1)
    ∧ (f.2 = .sewn → f.1.behind (f.1.orderKey addr) = true → exec p.2.1 s = .next (f.1.holdReq addr none p.2.2))
    ∧ (f.2 = .sewn → f.1.behind (f.1.orderKey addr) = false → f.1.inHostBias addr = false → exec p.2.1 s = .next (f.1.atom q e)))
  -- the payload of an atomic token
  ∧ (∀ (agent : Nat) (pay : List Byte) (seed : Nat × Nat),
    let p0 := field pay 0 8
    let p1 := field pay 8 8
    let q := atomOf agent pay seed
    q.op = bits p0 48 4 ∧ q.addr = bits p0 0 48 ∧ q.set = bits p0 52 4 ∧ q.cnt = bits p0 56 4 ∧ q.seq = bits p1 0 16
      ∧ q.salt = bits p1 16 8 ∧ q.addends = bytesWords (pay.drop 16)
      ∧ (q.illegal = true ↔ (3 < q.op ∧ q.op ≠ 7) ∨ bits p0 60 4 ≠ 0 ∨ bits p1 24 40 ≠ 0 ∨ pay.length < 16 + 4 * q.cnt))
  -- what an atomic does
  ∧ (∀ (q : AtomReq) (e : Ecc) (s : State), s.mem.atomWait = [] →
    let mc := s.atomMc q
    let done := (s.atomApply q e).setTicket mc q.set (q.seq + 1)
    (∀ c, s.atomRefusal q = some c → ∃ u, s.atom q e = u ∧ u.out.getLast? = some (.memRefused q.agent q.addr c) ∧ u.mem.data = s.mem.data)
    ∧ (s.atomRefusal q = none →
      (q.cnt = 0 → s.atom q e = s.emit (.memDone q.agent q.addr))
      ∧ (q.cnt ≠ 0 → q.set = 0 → s.atom q e = s.atomApply q e)
      ∧ (q.cnt ≠ 0 → q.set ≠ 0 → q.seq = s.ticket mc q.set → s.mem.heldAtoms = [] → s.atom q e = done)
      ∧ (q.cnt ≠ 0 → q.set ≠ 0 → q.seq ≠ s.ticket mc q.set → serialLater 16 q.seq (s.ticket mc q.set) = true →
        ((s.ticketed mc).length < 32 → s.atom q e = { s with mem := { s.mem with
          heldAtoms := s.mem.heldAtoms ++ [q], errs := addErr s.mem.errs (s.errKey q.addr) e } })
        ∧ (32 ≤ (s.ticketed mc).length → s.atom q e = { s with mem := { s.mem with atomWait := [(q, e)] } }))
      ∧ (q.cnt ≠ 0 → q.set ≠ 0 → q.seq ≠ s.ticket mc q.set → serialLater 16 q.seq (s.ticket mc q.set) = false →
        s.atom q e = (s.memFault Code.MEM_ATOM_ORDER q.addr).emit (.memRefused q.agent q.addr Code.MEM_ATOM_ORDER))))
  ∧ (∀ (q : AtomReq) (s : State), s.mem.errs = [] → lpEnd ≤ q.addr ∨ s.mem.poison.contains (s.memUnit q.addr) = false →
    let u := s.atomApply q .ok
    u.mem.data = (s.wrN q.addr ((List.range q.cnt).flatMap fun k => (s.atomOne q k).1)).mem.data
      ∧ u.out = s.out ++ [.memDone q.agent q.addr] ∧ Only [.bar, .mem, .out] s u ∧ u.mem.next = s.mem.next
      ∧ u.mem.heldAtoms = s.mem.heldAtoms)
  ∧ (∀ (q : AtomReq) (k : Nat) (s : State),
    let v := q.addends.getD k 0
    let old (o n : Nat) : Nat := leNat (s.rdN (q.addr + k * atomElem q.op + o) n)
    (q.op = atomF32 → (s.atomOne q k).1 = leBytes 4 (fadd (BitVec.ofNat 32 (old 0 4)) v).toNat)
    ∧ (q.op = atomI32 → (s.atomOne q k).1
      = leBytes 4 (BitVec.ofInt 32 (max (-2 ^ 31) (min (2 ^ 31 - 1) ((BitVec.ofNat 32 (old 0 4)).toInt + v.toInt)))).toNat)
    ∧ (q.op = atomPair → let p := cadd ⟨BitVec.ofNat 32 (old 0 4), BitVec.ofNat 32 (old 4 4)⟩ v
      (s.atomOne q k).1 = leBytes 4 p.s.toNat ++ leBytes 4 p.c.toNat)
    ∧ (q.op = atomBf16 → (s.atomOne q k).1 = leBytes 2 (convPlain 1
      (Rnd.sr (srDraw (srKey q.seed.1 q.seed.2 q.seq q.salt) (q.addr / 2 + k)))
      (f32v (fadd (BitVec.ofNat 32 (old 0 2 * 65536)) v))).1))
  -- tickets
  ∧ (∀ (agent mc set cnt : Nat) (s : State), s.safe = false →
    (cnt ≠ 0 ∨ 15 < set → exec (.setReset agent mc set cnt) s
      = .next ((s.raise Code.MEM_ATOM_RANGE (0xC00 + mc) 0 0).emit (.memRefused agent 0 Code.MEM_ATOM_RANGE)))
    ∧ (cnt = 0 → set = 0 → exec (.setReset agent mc set cnt) s
      = .next ((s.raise Code.MEM_ATOM_CLASS (0xC00 + mc) 0 0).emit (.memRefused agent 0 Code.MEM_ATOM_CLASS)))
    ∧ (cnt = 0 → 0 < set → set ≤ 15 → s.mem.heldAtoms = [] → s.mem.atomWait = [] → ∃ u, exec (.setReset agent mc set cnt) s = .next u
      ∧ u.ticket mc set = 0 ∧ u.out = s.out ++ [.memDone agent 0] ∧ Only [.mem, .out] s u ∧ u.mem.data = s.mem.data))
  ∧ (∀ (mc idx : Nat) (q : AtomReq) (s : State), (s.ticketed mc)[idx]? = some q →
    exec (.atomTicketDeadline mc idx) s = .next (s.memFault Code.MEM_ATOM_ORDER q.addr))
  -- every counter is 0 when a step opens
  ∧ (∀ (mc set : Nat) (s : State), s.mem.heldAtoms = [] → s.zeroTickets.ticket mc set = 0 ∧ Only [.mem] s s.zeroTickets)

/-- Scrubbing, rows, channels, classes and MOVE (spec/08_memory_system.md R259 to R268, R278, R279). -/
def Obligations.ScrubbingRemappingClassesAndMoves : Prop :=
  -- the granule at a position of a channel
  (∀ ch c : Nat, ch < 96 → c < 2 ^ 25 → chanOf (granAt ch c) = ch ∧ chanGran (granAt ch c) = c)
  -- the check of one granule: an error that has arisen in it waits for the access that reads it
  ∧ (∀ (g : Nat) (e : Ecc) (r : Reader) (s : State),
    let found := worseOf e (kvGet .ok s.mem.errs g)
    (s.mem.poison.contains g = true → s.checkRead [g] e r = (s.ueFault g r, false))
    ∧ (s.mem.poison.contains g = false →
      (found = .ok → s.checkRead [g] e r = (s, true))
      ∧ (found = .corrected → s.checkRead [g] e r = (s.memCe g, true))
      ∧ (found = .uncorrectable → s.checkRead [g] e r = (s.memUe g r, false) ∧ g ∈ (s.memUe g r).mem.poison)))
  ∧ (∀ e : Ecc, worseOf e .ok = e ∧ worseOf .ok e = e ∧ worseOf .uncorrectable e = .uncorrectable
    ∧ worseOf e .uncorrectable = .uncorrectable ∧ worseOf .corrected .corrected = .corrected)
  -- a CRC at a channel corrects nothing; a corrected error at a channel counts against its row, one elsewhere does not
  ∧ (∀ (g : Nat) (s : State),
    let d := { s with mem := { s.mem with errs := kvErase s.mem.errs g } }
    let told (u : State) : State := (u.bump (R.CE (mcOfGran g)) 1).raise Code.MEM_CE (0xC00 + mcOfGran g) (placeSub g (s.placeOf g)) g
    (s.placeOf g = .channel → s.granCls g = 2 → s.memCe g = d)
    ∧ (s.placeOf g = .channel → s.granCls g ≠ 2 →
      s.memCe g = told { d with mem := { d.mem with rows := countRow s.mem.rows (chanOf g) (bankOf g) (rowOf g) } })
    ∧ (s.placeOf g ≠ .channel → s.memCe g = told d))
  ∧ (∀ (g : Nat) (s : State),
    (∀ x, s.mem.lines.find? (fun x => x.granule = g) = some x → s.placeOf g = .lining x.group ∧ placeSub g (s.placeOf g) = 0x100 + x.group)
    ∧ ((∀ x ∈ s.mem.lines, x.granule ≠ g) →
      ((∃ r ∈ s.mem.remaps, r.chan = chanOf g ∧ r.bank = bankOf g ∧ r.row = rowOf g) → s.placeOf g = .remap)
      ∧ ((∀ r ∈ s.mem.remaps, ¬ (r.chan = chanOf g ∧ r.bank = bankOf g ∧ r.row = rowOf g)) → s.placeOf g = .channel)))
  ∧ (∀ (ch : Nat) (e : Ecc) (l : List (Nat × Ecc)) (s : State),
    let s1 := { s with mem := { s.mem with errs := l.foldl (fun m x => addErr m x.1 x.2) s.mem.errs } }
    let c := kvGet 0 s.mem.scrub ch
    let t := { s1 with mem := { s1.mem with scrub := kvSet s.mem.scrub ch ((c + 1) % 2 ^ 25) } }
    (ch < 96 → s.flag (R.MC_CFG_SCRUB_EN (ch / 4)) = true → s.chOk ch = true →
      exec (.scrubRead ch ⟨e, l⟩) s = .next ((t.checkRead [granAt ch c] e .scrub).1.bump (R.SCRUBBED (ch / 4)) 1))
    ∧ (s.flag (R.MC_CFG_SCRUB_EN (ch / 4)) = false ∨ s.chOk ch = false → exec (.scrubRead ch ⟨e, l⟩) s = .next s1))
  -- rows
  ∧ (∀ (ch bank row : Nat) (bad : List Nat) (r : RowCount) (s : State), s.rowOf? ch bank row = some r → ch < 96 →
    s.flag (R.MC_CFG_REMAP_EN (ch / 4)) = true → s.get (R.MC_CFG_CE_TH (ch / 4)) ≤ r.count →
    let left := s.get (R.MC_STATUS_REMAP_FREE (ch / 4))
    (left = 0 → exec (.rowRemap ch bank row bad) s = .next (s.raise Code.MEM_REMAP_FULL (0xC00 + ch / 4) ch 0))
    ∧ (0 < left → left < 256 → s.th.repairs.length < 4092 → ∃ u, exec (.rowRemap ch bank row bad) s = .next u
      ∧ Only [.bar, .mem, .th] s u ∧ u.get (R.MC_STATUS_REMAP_FREE (ch / 4)) = left - 1 ∧ u.mem.remaps = s.mem.remaps ++ [r]
      ∧ u.mem.rows = s.mem.rows.erase r ∧ u.th.repairs.length = s.th.repairs.length + 1 ∧ u.mem.data = s.mem.data
      ∧ (∀ g ∈ bad, chanOf g = ch → bankOf g = bank → rowOf g = row → g ∈ u.mem.poison)
      ∧ (∀ g ∈ s.mem.poison, g ∈ u.mem.poison)
      ∧ ∀ g, chanOf g = ch → bankOf g = bank → rowOf g = row → (∀ x ∈ s.mem.lines, x.granule ≠ g) → r.chan = ch → r.bank = bank →
        r.row = row → u.placeOf g = .remap))
  ∧ (∀ (ch : Nat) (s : State), ch < 96 → s.chOk ch = true →
    let t := s.set (R.MC_STATUS_CH_OK (ch / 4)) (s.get (R.MC_STATUS_CH_OK (ch / 4)) - 2 ^ (ch % 4))
    exec (.channelFail ch) s = .next (t.raise Code.MEM_CH_FAIL (0xC00 + ch / 4) ch 0) ∧ t.chOk ch = false)
  -- classes
  ∧ (∀ (tag : Nat) (c : Cmd) (s : State), s.safe = false → s.cmdFor tag Op.CLASS = some c →
    let t := s.takeCmd c
    let a := c.p 0 8
    let size := c.p 8 4
    let cls := c.p 12 1
    (∀ code, t.classRefusal a size cls = some code →
      exec (.setClass tag) s = .next (t.refuse c code 0xC34 Op.CLASS (tagArg c.tag c.epoch) []))
    ∧ (t.classRefusal a size cls = none → ∃ u, exec (.setClass tag) s = .next u ∧ Only [.bar, .mem, .tape] s u
      ∧ u.mem.exts = reclass s.mem.exts (a / mib2) size cls ∧ a % mib2 = 0 ∧ 0 < size
      ∧ (∀ x, a ≤ x → x < a + size * mib2 → memRead u.mem.data x = 0)
      ∧ (∀ g ∈ u.mem.poison, g * 256 < a ∨ a + size * mib2 ≤ g * 256)
      ∧ ⟨some (c.tag, c.epoch), a / mib2, size⟩ ∈ u.mem.fills
      ∧ ∀ n, n < 24 → u.get (R.MC_STATUS_FILLING n) = 1))
  ∧ (∀ (l : List Extent) (base size cls : Nat), 0 < size →
    ⟨base, size, cls⟩ ∈ reclass l base size cls
    ∧ ∀ e ∈ reclass l base size cls, e = ⟨base, size, cls⟩ ∨ e.base + e.size ≤ base ∨ base + size ≤ e.base)
  ∧ (∀ (f : FillJob) (l : List FillJob) (s : State), s.mem.fills = f :: l →
    let rest := l.filter fun g => g.cmd ≠ f.cmd
    let t := { s with mem := { s.mem with fills := rest } }.setFilling (!rest.isEmpty)
    (f.cmd = none → exec .classFillEnd s = .next t)
    ∧ ∀ tag ep, f.cmd = some (tag, ep) → exec .classFillEnd s = .next (t.reply tag ep 1 0 []))
  -- MOVE
  ∧ (∀ (tag : Nat) (hostData : List Byte) (c : Cmd) (s : State), s.safe = false → s.mem.move = none →
    s.cmdFor tag Op.MOVE = some c →
    let t := s.takeCmd c
    let a := c.p 0 8
    let b := c.p 8 8
    let n := c.p 16 8
    (n = 0 → exec (.move tag hostData) s = .next (t.done c []))
    ∧ (n ≠ 0 → t.moveBad a b n = true →
      exec (.move tag hostData) s = .next (t.refuse c Code.MEM_MOVE 0xC34 Op.MOVE (tagArg c.tag c.epoch) []))
    ∧ (n ≠ 0 → t.moveBad a b n = false → exec (.move tag hostData) s
      = .next { t with mem := { t.mem with move := some ⟨a, b, n, c.tag, c.epoch, padTo n hostData, false⟩ } }))
  -- the end of a MOVE: bytes that cannot be read, that may not be written or that the tape unit does not reach end it there
  ∧ (∀ (j : MoveJob) (s : State), s.mem.move = some j →
    let t := { s with mem := { s.mem with move := none } }
    let n := min (t.moveReach j.src j.len) (t.moveReach j.dst j.len)
    let c := if hostBase ≤ j.src then (t, none) else t.load j.src n true .ok
    let src := if hostBase ≤ j.src then j.host else t.rdN j.src j.len
    let r := if j.touched then c.1.freeBytes j.len else (src, c.1)
    let d := r.2.putBytes j.dst (r.1.take n)
    let z := d.1.store j.src (List.replicate j.len 0) true
    (c.2 = none → d.2 = none → n = j.len → hostBase ≤ j.src → exec .moveDone s = .next (d.1.reply j.tag j.epoch 1 0 []))
    ∧ (c.2 = none → d.2 = none → n = j.len → j.src < hostBase →
      (z.2 = none → exec .moveDone s = .next (z.1.reply j.tag j.epoch 1 0 []))
      ∧ ∀ f, z.2 = some f → exec .moveDone s = .next (z.1.moveAbort j f.2))
    ∧ (∀ f, c.2 = some f → exec .moveDone s = .next ((r.2.putBytes j.dst (r.1.take (f.1 - j.src))).1.moveAbort j f.2))
    ∧ (∀ f, c.2 = none → d.2 = some f → exec .moveDone s = .next (d.1.moveAbort j f.2))
    ∧ (c.2 = none → d.2 = none → n < j.len → exec .moveDone s = .next (d.1.moveUnmapped j n)))
  ∧ (∀ (a n : Nat) (s : State), (a < lnEnd → s.moveReach a n = n) ∧ (lnEnd ≤ a → a < hostBase → s.moveReach a n = 0)
    ∧ (hostBase ≤ a → s.hostPhys a + n ≤ 2 ^ 64 → s.moveReach a n = n))
  ∧ (∀ (a : Nat) (b : List Byte) (s : State), hostBase ≤ a →
    (s.putBytes a b).2 = none ∧ (s.putBytes a b).1.host = memWriteN s.host (s.get R.GC_HOST_WIN_BASE * 0x1000 + (a - hostBase)) b)

/-- The lining groups that change mode (spec/08_memory_system.md R273, R280, Table 8.5). -/
def Obligations.LiningGroupsChangeMode : Prop :=
  -- what the end of a change leaves
  (∀ (n g : Nat) (s : State), n < 24 → g < 4 →
    let u := s.lnFinish n g
    let a := lpEnd + n * 0x400000 + g * 0x100000
    s.get (R.MC_STATUS_LN_BUSY n) < 16 → (
      Only [.bar, .mem] s u ∧ u.lnBusy n g = false ∧ u.lnChange n g = none
      ∧ (∀ h, h < 4 → h ≠ g → u.lnBusy n h = s.lnBusy n h ∧ u.lnChange n h = s.lnChange n h)
      ∧ (∀ x, a ≤ x → x < a + 0x100000 → memRead u.mem.data x = 0)
      ∧ (∀ x ∈ u.mem.lines, ¬ (x.mc = n ∧ x.group = g)) ∧ (∀ x ∈ s.mem.lines, ¬ (x.mc = n ∧ x.group = g) → x ∈ u.mem.lines)
      ∧ ∀ m h, u.lnMode m h = s.lnMode m h))
  -- step 2: the requests accepted before have drained
  ∧ (∀ (n g : Nat) (c : LnChange) (s : State), s.lnChange n g = some c → c.drained = false →
    (∀ h ∈ s.mem.heldReqs, h.before n g = false) → (∀ q ∈ s.mem.heldAtoms, q.within n g = false) →
    (c.new = 0 → c.old = 2 → exec (.liningRequestsDrained n g) s = .next (s.lnFinish n g))
    ∧ (c.new ≠ 0 ∨ c.old ≠ 2 → ∃ u, exec (.liningRequestsDrained n g) s = .next u ∧ Only [.mem] s u
      ∧ u.lnChange n g = some { c with drained := true } ∧ u.mem.lines = s.mem.lines ∧ u.mem.data = s.mem.data))
  ∧ (∀ (n g : Nat) (s : State), (∃ h ∈ s.mem.heldReqs, h.before n g = true) ∨ (∃ q ∈ s.mem.heldAtoms, q.within n g = true) →
    exec (.liningRequestsDrained n g) s = .next s)
  ∧ (∀ (h : HeldReq) (n g : Nat), h.before n g = true ↔ h.accepted = true ∧ h.mc = n
    ∧ (lpEnd + n * 0x400000 + g * 0x100000) / 256 ≤ h.gran ∧ h.gran ≤ (lpEnd + n * 0x400000 + g * 0x100000 + 0xFFFFF) / 256)
  ∧ (∀ (n g : Nat) (c : LnChange) (s : State), s.lnChange n g = some c → c.drained = false → c.new = 0 →
    ∃ u, exec (.liningPdDeadline n g) s = .next ((u.raise Code.MEM_PD_DEADLINE (0xC00 + n) (0x100 + g) 0).lnDrained n g c)
      ∧ Only [.mem, .out, .net] s u
      ∧ (∀ h, h ∈ u.mem.heldReqs ↔ h ∈ s.mem.heldReqs ∧ h.before n g = false)
      ∧ (∀ q, q ∈ u.mem.heldAtoms ↔ q ∈ s.mem.heldAtoms ∧ q.within n g = false)
      ∧ (∀ q ∈ s.mem.heldAtoms, q.within n g = true → Out.memRefused q.agent q.addr Code.MEM_PD_DEADLINE ∈ u.out)
      ∧ ∀ (h : HeldReq) (agent a len : Nat) (na : Bool) (wait : Nat) (e : Ecc), h ∈ s.mem.heldReqs → h.before n g = true →
        h.req = .memRead agent a len na ⟨wait, e⟩ → Out.memRefused agent a Code.MEM_PD_DEADLINE ∈ u.out)
  -- step 3: the dirty lines are written back
  ∧ (∀ (n g : Nat) (c : LnChange) (s : State), s.lnChange n g = some c → c.old = 1 → c.drained = true →
    (c.new = 0 → exec (.liningWritebackDone n g) s = .next (s.lnFinish n g))
    ∧ (c.new ≠ 0 → ∃ u, exec (.liningWritebackDone n g) s = .next u ∧ Only [.mem] s u
      ∧ u.lnChange n g = some { c with written := true } ∧ u.mem.data = s.mem.data
      ∧ ∀ x, x ∈ u.mem.lines ↔ x ∈ s.mem.lines ∧ ¬ (x.mc = n ∧ x.group = g)))
  ∧ (∀ (n g : Nat) (c : LnChange) (s : State), s.lnChange n g = some c → c.old = 1 → c.written = false →
    exec (.liningWritebackDeadline n g) s = .next (s.raise Code.MEM_PD_WRITEBACK (0xC00 + n) (0x100 + g) 0))
  -- power-up, and the passage between cache and scratchpad
  ∧ (∀ (n g : Nat) (c : LnChange) (s : State), s.lnChange n g = some c → c.old = 0 →
    exec (.liningPowerUpDone n g) s = .next (s.lnFinish n g))
  ∧ (∀ (n g : Nat) (c : LnChange) (s : State), s.lnChange n g = some c → c.old ≠ 0 → c.new ≠ 0 →
    exec (.liningModeChangeEnd n g) s = .next (s.lnFinish n g))

/-- The control words of a bobbin (spec/09_bobbin_streams.md R288 to R291, Table 9.3). -/
def Obligations.BobbinControlWords : Prop :=
  ∀ (t b : Nat) (s : State),
    let x := s.tile t
    let v := x.bob b
    let w := x.bword (x.bpc b)
    -- the bobbin goes on at a word, and nothing outside its tile changes
    let at_ (pc : Nat) (u : State) : Prop := OnlyTile t s u ∧ (u.tile t).bpc b = pc % 128
      ∧ (u.tile t).get (T.BOB_STAT_STATE b) = 1 ∧ (u.tile t).spad = x.spad ∧ (u.tile t).bob (1 - b) = x.bob (1 - b)
    let after (u : State) : Bob := (u.tile t).bob b
    -- `END`
    (s.bobRuns t b 0x00 = true →
      (v.reqs = [] → v.pubs = 0 → ∃ u, exec (.bobEnd t b) s = .next u ∧ OnlyTile t s u ∧ (after u).run = false
        ∧ (after u).loops = [] ∧ (u.tile t).get (T.BOB_STAT_STATE b) = 0)
      ∧ (v.reqs ≠ [] ∨ v.pubs ≠ 0 → ∃ u, exec (.bobEnd t b) s = .next u ∧ OnlyTile t s u ∧ after u = v
        ∧ (u.tile t).get (T.BOB_STAT_STATE b) = 5))
    -- `LOOP`
    ∧ (s.bobRuns t b 0x01 = true →
      let n := if bit w 57 then dlCount (x.dls.getD (bits w 55 2) 0) (bits w 39 16) else bits w 39 16
      (n ≠ 0 → ∃ u, exec (.bobLoop t b) s = .next u ∧ at_ (x.bpc b + 1) u
        ∧ (after u).loops = ⟨x.bpc b + 1, n, 0, signed (bits w 19 20) 20, signed (bits w 0 19) 19, v.a0, v.a1⟩ :: v.loops
        ∧ (after u).a0 = v.a0 ∧ (after u).a1 = v.a1 ∧ (after u).reqs = v.reqs)
      ∧ (n = 0 → ∃ u, exec (.bobLoop t b) s = .next u ∧ at_ (x.afterEndl 128 (x.bpc b + 1) 1) u ∧ after u = v))
    -- `ENDL`
    ∧ (∀ l ls, s.bobRuns t b 0x02 = true → v.loops = l :: ls →
      (1 < l.left → ∃ u, exec (.endl t b) s = .next u ∧ at_ l.start u
        ∧ (after u).a0 = addrAdd v.a0 (l.s0 * 16) ∧ (after u).a1 = addrAdd v.a1 (l.s1 * 16)
        ∧ (after u).loops = { l with left := l.left - 1, index := l.index + 1 } :: ls ∧ (after u).reqs = v.reqs)
      ∧ (l.left ≤ 1 → ∃ u, exec (.endl t b) s = .next u ∧ at_ (x.bpc b + 1) u ∧ (after u).a0 = l.a0 ∧ (after u).a1 = l.a1
        ∧ (after u).loops = ls ∧ (after u).reqs = v.reqs))
    -- `SKIPDL`
    ∧ (∀ l, s.bobRuns t b 0x03 = true → v.loops[bits w 55 3]? = some l →
      (x.dls.getD (bits w 53 2) 0 ≤ l.index * bits w 37 16 → ∃ u, exec (.skipdl t b) s = .next u
        ∧ at_ (x.afterEndl 128 (x.bpc b + 1) (bits w 55 3 + 1)) u ∧ (after u).a0 = l.a0 ∧ (after u).a1 = l.a1
        ∧ (after u).loops = v.loops.drop (bits w 55 3 + 1) ∧ (after u).reqs = v.reqs)
      ∧ (l.index * bits w 37 16 < x.dls.getD (bits w 53 2) 0 → ∃ u, exec (.skipdl t b) s = .next u ∧ at_ (x.bpc b + 1) u
        ∧ after u = { v with prog := 0, seed := none }))
    -- address registers, the element index
    ∧ (s.bobRuns t b 0x04 = true → ∃ u, exec (.seta t b) s = .next u ∧ at_ (x.bpc b + 1) u
      ∧ after u = { v.setA (bit w 57) (bits w 0 48) with prog := 0, seed := none })
    ∧ (s.bobRuns t b 0x05 = true → ∃ u, exec (.adda t b) s = .next u ∧ at_ (x.bpc b + 1) u
      ∧ after u = { v.setA (bit w 57) ((v.getA (bit w 57) + bits w 0 48) % 2 ^ 48) with prog := 0, seed := none })
    ∧ (s.bobRuns t b 0x06 = true → ∃ u, exec (.seti t b) s = .next u ∧ at_ (x.bpc b + 1) u
      ∧ after u = { v with ei := bits w 0 48, prog := 0, seed := none })
    -- `WAIT`
    ∧ (s.bobRuns t b 0x0F = true →
      (v.reqs = [] → ∃ u, exec (.wait t b) s = .next u ∧ at_ (x.bpc b + 1) u ∧ after u = { v with prog := 0, seed := none })
      ∧ (v.reqs ≠ [] → ∃ u, exec (.wait t b) s = .next u ∧ OnlyTile t s u ∧ after u = v ∧ (u.tile t).bpc b = x.bpc b
        ∧ (u.tile t).get (T.BOB_STAT_STATE b) = 3))

/-- The transfers of a bobbin, its ring positions and its tokens (spec/09_bobbin_streams.md R292 to R302). -/
def Obligations.BobbinTransfersAndRings : Prop :=
  (∀ (t b : Nat) (s : State),
    let x := s.tile t
    let v := x.bob b
    let w := x.bword (x.bpc b)
    let len := bits w 32 13
    let goff := bits w 45 8
    let gran := bits w 45 12
    let r := x.bring b
    let lpos := (v.fill + bits w 53 4) % 0x10000
    let spos := (v.drain + bits w 53 4) % 0x10000
    let inSlot : Prop := goff + ceilDiv len 64 ≤ x.get (T.RING_CFG_SLOT_G r)
    let room : Prop := (ringOcc x.regs r + ringDiff lpos (x.get (T.RING_STAT_TAIL r))) % 0x10000 < x.get (T.RING_CFG_SLOTS r)
    let full : Prop := ringDiff spos (x.get (T.RING_STAT_HEAD r)) < ringOcc x.regs r
    let next : State := s.setTile t (x.bnext b)
    let bad : State := s.bobFault t b Code.BOB_RANGE 0
    let stall : State := s.setTile t (x.bstall b)
    -- `LDR`
    (s.bobRuns t b 0x08 = true →
      (len = 0 → exec (.ldr t b) s = .next next)
      ∧ (len ≠ 0 → ¬ inSlot → exec (.ldr t b) s = .next bad)
      ∧ (len ≠ 0 → inSlot → x.bobOwns b true = false → exec (.ldr t b) s = .next (s.bobRingFault t b (0x8000 + r)))
      ∧ (len ≠ 0 → inSlot → x.bobOwns b true = true → ¬ room → exec (.ldr t b) s = .next stall)
      ∧ (len ≠ 0 → inSlot → x.bobOwns b true = true → room → exec (.ldr t b) s = .next (s.carry t b
          ⟨false, [⟨v.getA (bit w 57), slotByte x.regs r lpos + 64 * goff, len, []⟩], some lpos, bit w 31⟩ 64)))
    -- `LDP`
    ∧ (s.bobRuns t b 0x09 = true →
      (len = 0 → exec (.ldp t b) s = .next next)
      ∧ (len ≠ 0 → x.plainBad gran len = true → exec (.ldp t b) s = .next bad)
      ∧ (len ≠ 0 → x.plainBad gran len = false → exec (.ldp t b) s = .next (s.carry t b
          ⟨false, [⟨v.getA (bit w 57), 64 * gran, len, []⟩], none, bit w 31⟩ 64)))
    -- `STR`
    ∧ (∀ e, s.bobRuns t b 0x0A = true →
      (len = 0 → exec (.str t b e) s = .next next)
      ∧ (len ≠ 0 → ¬ inSlot → exec (.str t b e) s = .next bad)
      ∧ (len ≠ 0 → inSlot → x.bobOwns b false = false → exec (.str t b e) s = .next (s.bobRingFault t b r))
      ∧ (len ≠ 0 → inSlot → x.bobOwns b false = true → ¬ full → exec (.str t b e) s = .next stall)
      ∧ (len ≠ 0 → inSlot → x.bobOwns b false = true → full → x.meetsFill (slotByte x.regs r spos + 64 * goff) len = true →
          exec (.str t b e) s = .next s)
      ∧ (len ≠ 0 → inSlot → x.bobOwns b false = true → full → x.meetsFill (slotByte x.regs r spos + 64 * goff) len = false → exec (.str t b e) s = .next (s.storeFrom t b (slotByte x.regs r spos + 64 * goff) len w e)))
    -- `STP`
    ∧ (∀ e, s.bobRuns t b 0x0B = true →
      (len = 0 → exec (.stp t b e) s = .next next)
      ∧ (len ≠ 0 → x.plainBad gran len = true → exec (.stp t b e) s = .next bad)
      ∧ (len ≠ 0 → x.plainBad gran len = false → x.meetsFill (64 * gran) len = true → exec (.stp t b e) s = .next s)
      ∧ (len ≠ 0 → x.plainBad gran len = false → x.meetsFill (64 * gran) len = false → exec (.stp t b e) s = .next (s.storeFrom t b (64 * gran) len w e)))
    ∧ (∀ a n wd k, a / 0x8000 = k → 0 < n →
      (bankW x.regs k = true → s.storeFrom t b a n wd (.spUncorr k) = (s.abortStream t b).tileStop t Code.TILE_SP_UNCORR k)
      ∧ (bankW x.regs k = false → s.storeFrom t b a n wd (.spParity k) = (s.abortStream t b).tileStop t Code.TILE_SP_PARITY k)
      ∧ (bit wd 30 = false → s.storeFrom t b a n wd .none
        = (s.onTile t fun y => y.onBob b fun v => { v with seed := some (v.seed.getD s.seed) }).carry t b
            ⟨true, [⟨v.getA (bit wd 57), a, n, memReadN x.spad a n⟩], none, bit wd 31⟩ 64))
    -- `PUB`
    ∧ (s.bobRuns t b 0x0C = true → r < 8 →
      let k := bits w 0 16
      let past : Prop := k ≠ 0 ∧ x.get (T.RING_CFG_SLOTS r) < (v.fill + 0x10000 - x.get (T.RING_STAT_HEAD r)) % 0x10000 + k
      (past ∨ (k ≠ 0 ∧ x.bobOwns b true = false) → exec (.pub t b) s = .next (s.bobRingFault t b (0x8000 + r)))
      ∧ (¬ past → k = 0 ∨ x.bobOwns b true = true → ∃ u, exec (.pub t b) s = .next u ∧ OnlyTile t s u ∧ ((u.tile t).bob b).fill = (v.fill + k) % 0x10000
        ∧ ((u.tile t).bob b).pubs ≤ v.pubs + k ∧ (u.tile t).spad = x.spad
        ∧ ((u.tile t).get (T.RING_STAT_TAIL r) + ((u.tile t).bob b).pubs) % 0x10000
            = (x.get (T.RING_STAT_TAIL r) + v.pubs + k) % 0x10000))
    -- `REL`
    ∧ (s.bobRuns t b 0x0D = true → r < 8 →
      let k := bits w 0 16
      (ringOcc x.regs r < k ∨ (k ≠ 0 ∧ x.bobOwns b false = false) → exec (.rel t b) s = .next (s.bobRingFault t b r))
      ∧ (k = 0 → exec (.rel t b) s = .next next)
      ∧ (k ≠ 0 → x.bobOwns b false = true → k ≤ ringOcc x.regs r → ∃ u, exec (.rel t b) s = .next u ∧ OnlyTile t s u
        ∧ ((u.tile t).bob b).drain = (v.drain + k) % 0x10000
        ∧ (u.tile t).get (T.RING_STAT_HEAD r) = (x.get (T.RING_STAT_HEAD r) + k) % 0x10000
        ∧ (u.tile t).bpc b = (x.bpc b + 1) % 128))
    -- `EMIT`
    ∧ (s.bobRuns t b 0x0E = true →
      let c := bits w 53 5
      (x.canSend c = false → exec (.emit t b) s = .next (s.setTile t (x.setBobState b 4)))
      ∧ (x.canSend c = true → ∃ u m, exec (.emit t b) s = .next u ∧ u.net = s.net ++ [m]
        ∧ hKind m.tok.hdr = (if bits w 51 2 = 0 then kEnd else kCtl)
        ∧ (bits w 51 2 = 0 → m.tok.pay = []) ∧ (bits w 51 2 = 1 → m.tok.pay = leBytes 8 (bits w 0 32))
        ∧ (bits w 51 2 = 2 → m.tok.pay = leBytes 8 (((v.loops[bits w 48 3]?).map BobLoop.index).getD 0 % 2 ^ 32))
        ∧ (u.tile t).bpc b = (x.bpc b + 1) % 128 ∧ ∀ j, j ≠ t → u.tile j = s.tile j)))
  -- a transfer carried on
  ∧ (∀ (t b k : Nat) (f : Xfer) (s : State),
    let x := s.tile t
    (segAt f.segs (x.bob b).prog = none → s.carry t b f (k + 1) = s.setTile t (x.bnext b))
    ∧ ∀ g o, segAt f.segs (x.bob b).prog = some (g, o) →
      (s.idled = true → s.carry t b f (k + 1) = s)
      ∧ (s.idled = false → (x.bob b).freeIdx = none →
        s.carry t b f (k + 1) = s.setTile t ((x.bump (T.BOB_FULL b) 1).setBobState b 3))
      ∧ (∀ i, s.idled = false → (x.bob b).freeIdx = some i → s.reqUnit (g.addr + o) = none →
        (s.permitted x.gen (b2n f.wr) (g.addr + o) 1 = false → s.carry t b f (k + 1) = s.bobFault t b Code.BOB_REGION i)
        ∧ (s.permitted x.gen (b2n f.wr) (g.addr + o) 1 = true →
          s.carry t b f (k + 1) = (s.unmapped t b (g.addr + o)).bobFault t b Code.BOB_ABORTED i))
      ∧ ∀ i m target, s.idled = false → (x.bob b).freeIdx = some i → s.reqUnit (g.addr + o) = some (m, target) →
        let n := min (min m (g.len - o)) 256
        (s.permitted x.gen (b2n f.wr) (g.addr + o) n = false → s.carry t b f (k + 1) = s.bobFault t b Code.BOB_REGION i)
        ∧ (s.permitted x.gen (b2n f.wr) (g.addr + o) n = true →
          s.carry t b f (k + 1) = (s.issueReq t b i f g o n target).carry t b f k))
  ∧ (∀ (t b i o n target : Nat) (f : Xfer) (g : Seg) (s : State), b < 2 →
    let u := s.issueReq t b i f g o n target
    let v := (s.tile t).bob b
    ∃ l, u.net = s.net ++ l ∧ l.length = 1 + (if f.wr then ceilDiv ((g.data.drop o).take n).length 64 else 0)
      ∧ (∀ m ∈ l, m.r = t ∧ hDest m.tok.hdr = target % 4096)
      ∧ ((u.tile t).bob b).reqs = v.reqs ++ [⟨i, f.wr, target, g.addr + o, n, g.spad + o, f.pos,
          if f.wr then [0] else List.range (ceilDiv n 64), if target = 0xC30 then s.hostPhys (g.addr + o) else 0⟩]
      ∧ ((u.tile t).bob b).prog = v.prog + n ∧ (∀ j, j ≠ t → u.tile j = s.tile j) ∧ Only [.tiles, .net] s u)

/-- Requests of bobbins at their targets, and the responses (spec/09_bobbin_streams.md R299 to R306). -/
def Obligations.BobbinRequestsAreServedAndAnswered : Prop :=
  -- at a memory controller
  (∀ (target : Nat) (p0 p1 : W64) (data : List Byte) (wait : Nat) (e : Ecc) (s : State), s.safe = false →
    0xC00 ≤ target → target ≤ 0xC17 →
    let q := breq p0 p1
    let i := Instr.bobbinRequest target p0 p1 data wait e
    let t := if 16 * q.slack < wait then s.bump (R.DRY_LATE (target - 0xC00)) 1 else s
    (s.behind (s.orderKey q.addr) = true → exec i s = .next (t.holdReq q.addr none i))
    ∧ (s.behind (s.orderKey q.addr) = false → s.inHostBias q.addr = true →
      exec i s = .next { t with cxl := { s.cxl with biasReqs := s.cxl.biasReqs ++ [⟨q.addr, i, s.seed⟩] } })
    ∧ (s.behind (s.orderKey q.addr) = false → s.inHostBias q.addr = false →
      exec i s = .next (t.serveReq target q data e)))
  ∧ (∀ (target : Nat) (q : BReq) (data : List Byte) (s : State), 0xC00 ≤ target → target ≤ 0xC17 → 0 < q.bytes →
    s.reach q.addr q.bytes = .ok → s.mem.errs = [] → lpEnd ≤ q.addr ∨ s.mem.poison.contains (s.memUnit q.addr) = false →
    let u := s.serveReq target q data .ok
    (q.wr = false → u.mem.data = s.mem.data ∧ u.net.length = s.net.length + ceilDiv q.bytes 64
      ∧ (u.net.drop s.net.length).flatMap (fun m => m.tok.pay) = s.rdN q.addr q.bytes ∧ u.tiles = s.tiles)
    ∧ (q.wr = true → lpEnd ≤ q.addr ∨ s.granCls (s.memUnit q.addr) ≠ 0 →
      u.mem.data = (s.wrN q.addr (padTo q.bytes data)).mem.data ∧ u.net.length = s.net.length + 1 ∧ u.tiles = s.tiles))
  -- at the host port
  ∧ (∀ (p0 p1 : W64) (data : List Byte) (wait : Nat) (e : Ecc) (s : State), s.safe = false →
    let q := breq p0 p1
    let t := if 16 * q.slack < wait then s.bump (R.DRY_LATE 24) 1 else s
    let a := s.reqPhys q
    (s.cxl.linkUp = true → ∃ u, exec (.bobbinRequest 0xC30 p0 p1 data wait e) s = .next u ∧ Only [.bar, .cxl, .host, .out] s u
      ∧ u.cxl.reqs = s.cxl.reqs ++ [⟨.bob (q.stream / 2) (q.stream % 2) q.ridx q.epoch, q.wr, a, q.bytes⟩]
      ∧ u.out = s.out ++ [if q.wr then .busWrite a (padTo q.bytes data) (busLines s.cxl.mode true a (padTo q.bytes data).length)
          else .busRead a q.bytes (busLines s.cxl.mode false a q.bytes)]
      ∧ u.host = (if q.wr then memWriteN s.host a (padTo q.bytes data) else s.host))
    ∧ (s.cxl.linkUp = false → exec (.bobbinRequest 0xC30 p0 p1 data wait e) s
      = .next ((t.raise Code.HOST_UNREACH 0xC30 0 0).respond 0xC30 q.stream q.epoch q.ridx 1 [])))
  ∧ (∀ (q : BReq) (r : BobReq) (s : State), let x := s.tile (q.stream / 2)
    ((x.bob (q.stream % 2)).reqs.find? fun r => r.ridx = q.ridx && r.addr % 2 ^ 48 = q.addr
      && x.get (T.BOB_STAT_EPOCH (q.stream % 2)) = q.epoch) = some r → s.reqPhys q = r.phys)
  -- responses
  ∧ (∀ (t b ridx num status epoch : Nat) (data : List Byte) (s : State), t < nTiles → b < 2 →
    let x := s.tile t
    let v := x.bob b
    let run := exec (.bobbinResponse t b ridx num status epoch data) s
    let live : Prop := v.run = true ∧ x.get (T.BOB_STAT_EPOCH b) = epoch
    (live → (v.reqs.find? fun q => q.ridx = ridx) = none → run = .next (s.bobFault t b Code.BOB_RESP_ORPHAN ridx))
    ∧ (∀ q, live → (v.reqs.find? fun q => q.ridx = ridx) = some q → status ≠ 0 →
      run = .next ((s.setTile t (x.setBob b { v with reqs := v.reqs.erase q })).bobFault t b Code.BOB_ABORTED ridx))
    ∧ (∀ q, live → (v.reqs.find? fun q => q.ridx = ridx) = some q → status = 0 → q.wr = false →
      x.meetsFill (q.spad + 64 * num) data.length = true → run = .next s)
    ∧ (∀ q, live → (v.reqs.find? fun q => q.ridx = ridx) = some q → status = 0 → q.left.contains num = true →
      q.wr = true ∨ x.meetsFill (q.spad + 64 * num) data.length = false →
      ∃ u, run = .next u ∧ OnlyTile t s u
        ∧ (u.tile t).spad = (if q.wr then x.spad else memWriteN x.spad (q.spad + 64 * num) (data.take (q.bytes - 64 * num)))
        ∧ (q.left.erase num = [] → ((u.tile t).bob b).reqs = v.reqs.erase q)
        ∧ (q.left.erase num ≠ [] → ((u.tile t).bob b).reqs
            = v.reqs.map fun r => if r = q then { q with left := q.left.erase num } else r))
    ∧ (¬ live → status = 3 → (v.quar.any fun p => p.1 = epoch) = true → run = .next (s.setTile t (x.retire b epoch)))
    ∧ (¬ live → status ≠ 3 ∨ (v.quar.any fun p => p.1 = epoch) = false → run = .next (s.bump R.STALE_STREAM 1)))
  -- a retirement token
  ∧ (∀ (target stream epoch : Nat) (s : State), 0xC00 ≤ target → target ≤ 0xC17 →
    ∃ u, exec (.retirementToken target stream epoch) s = .next u ∧ u.net.length = s.net.length + 1
      ∧ (∀ h, h ∈ u.mem.heldReqs ↔ h ∈ s.mem.heldReqs ∧ ¬ (h.mc = target - 0xC00 ∧ ofStream stream epoch h.req = true))
      ∧ (∀ h, h ∈ u.cxl.biasReqs ↔ h ∈ s.cxl.biasReqs ∧ ¬ (s.mcOf h.addr = target - 0xC00 ∧ ofStream stream epoch h.req = true))
      ∧ u.mem.data = s.mem.data ∧ u.tiles = s.tiles ∧ Only [.bar, .mem, .cxl, .net] s u)
  ∧ (∀ (stream epoch : Nat) (s : State),
    ∃ u, exec (.retirementToken 0xC30 stream epoch) s = .next u ∧ u.net.length = s.net.length + 1
      ∧ (∀ r ∈ u.cxl.reqs, ∀ t b i ep, r.agent = .bob t b i ep → ¬ (t * 2 + b = stream ∧ ep = epoch))
      ∧ Only [.bar, .cxl, .net] s u)
  -- the deadline of a request, and of a retirement
  ∧ (∀ (t b : Nat) (s : State),
    let v := (s.tile t).bob b
    (∀ q l, v.reqs = q :: l → exec (.bobReqDeadline t b) s = .next (s.bobFault t b Code.BOB_REQ_DEADLINE q.ridx))
    ∧ (v.reqs = [] → v.quar ≠ [] → exec (.bobReqDeadline t b) s = .next (s.bobFault t b Code.BOB_REQ_DEADLINE 0)))

/-- Opening a step, its close tokens and closes, its bounds (spec/07_training_step_and_press.md R220 to R232, R236, R248). -/
def Obligations.StepsOpenCloseAndMissBounds : Prop :=
  -- `STEP_OPEN`, and one that was deferred
  (∀ (tag : Nat) (c : Cmd) (s : State), s.safe = false → s.cmdFor tag Op.STEP_OPEN = some c →
    exec (.stepOpen tag) s = .next (s.openStep c)
    ∧ (s.press.deferred = some (tag, c.epoch) → s.stepDeferred = false → exec .stepOpenResume s = .next (s.openStep c)))
  ∧ (∀ (c : Cmd) (s : State),
    let step := c.p 0 8 % 2 ^ 48
    let t := { s with press := { s.press with deferred := none } }
    let refused (u : State) (code sub arg : Nat) : State := (u.takeCmd c).refuse c code 0xC66 sub arg []
    let table := t.engCheck [(t.grpAddr 0, 256 * t.gtCount)]
    (c.p 8 2 = 0 → s.openStep c = (t.takeCmd c).done c (stepResult step 0 0 0 0 0))
    ∧ (c.p 8 2 ≠ 0 →
      (s.stepOpen = true → s.openStep c = refused t Code.PRS_STEP_BUSY 0xFFFF 0)
      ∧ (s.stepOpen = false → s.stepDeferred = true →
        s.openStep c = { s with press := { s.press with deferred := some (c.tag, c.epoch) } })
      ∧ (s.stepOpen = false → s.stepDeferred = false → (step = stepNone ∨ s.afterLast step = false) →
        s.openStep c = refused t Code.PRS_STEP_ORDER 0xFFFF 0)
      ∧ (s.stepOpen = false → s.stepDeferred = false → step ≠ stepNone → s.afterLast step = true →
        (t.gtCount = 0 → s.openStep c = (t.takeCmd c).beginStep c step)
        ∧ (0 < t.gtCount → t.rangeClass 1 (t.grpAddr 0) (256 * t.gtCount) = false → s.openStep c = refused t Code.PRS_GROUP 0xFFFF 0)
        ∧ (0 < t.gtCount → t.rangeClass 1 (t.grpAddr 0) (256 * t.gtCount) = true →
          (table.2 = false → s.openStep c
            = ((table.1.tieLast Code.MEM_UE_S).takeCmd c).reply c.tag c.epoch 2 Code.MEM_UE_S [])
          ∧ (∀ f, table.2 = true → table.1.tableBad = some f → s.openStep c = refused table.1 Code.PRS_GROUP f.1 f.2)
          ∧ (table.2 = true → table.1.tableBad = none → s.openStep c = (table.1.takeCmd c).beginStep c step)))))
  ∧ (∀ (c : Cmd) (step : Nat) (s : State), s.colls = [] → s.seam.future = [] → s.mem.heldAtoms = [] → step < 2 ^ 48 →
    c.p 0x10 8 = 0xFFFFFFFFFFFFFFFF →
    let u := s.beginStep c step
    u.phase = 1 ∧ u.stepNo = step ∧ u.get R.NUM_SR_STEP_STEP = step ∧ u.press.cmd = some (c.tag, c.epoch)
      ∧ u.press.everOpened = true ∧ u.press.closed = [] ∧ u.press.closeCnt = [] ∧ u.mem.next = []
      ∧ u.press.crcs = (List.range s.gtCount).map fun g => (s.grp g).watch)
  -- close tokens: a basted one waits for its verdict, unless that has come before it
  ∧ (∀ (mc tag len : Nat) (w : W64) (s : State), s.safe = false → mc < 24 →
    let f := s.fate (0xC00 + mc) (fun d => d = 30) (some tag)
    (∀ g, f.2 = .held g → g = tag ∧ exec (.closeToken mc tag len w true) s
      = .next { f.1 with press := { f.1.press with heldClose := f.1.press.heldClose ++ [⟨mc, tag, len, w⟩] } })
    ∧ (f.2 = .gone → exec (.closeToken mc tag len w true) s = .next f.1)
    ∧ (f.2 = .sewn → exec (.closeToken mc tag len w true) s = exec (.closeToken mc tag len w false) f.1)
    ∧ Only [.fab] s f.1)
  ∧ (∀ (mc tag len : Nat) (w : W64) (s : State), s.safe = false → mc < 24 →
    let g := w.toNat % 2 ^ 12
    let bad : Prop := len ≠ 8 ∨ bits w.toNat 12 4 ≠ 0 ∨ s.gtCount ≤ g ∨ bits w.toNat 16 48 ≠ s.stepNo
    let n := kvGet 0 s.press.closeCnt g + 1
    (s.stepOpen = false →
      exec (.closeToken mc tag len w false) s = .next (s.raiseAs .contained false Code.PRS_CLOSE_STEP (0xC00 + mc) g 0))
    ∧ (s.stepOpen = true → bad →
      exec (.closeToken mc tag len w false) s = .next (s.raiseAs .stepFatal false Code.PRS_CLOSE_STEP (0xC00 + mc) g 0))
    ∧ (s.stepOpen = true → ¬ bad → s.grpChanged g = true →
      exec (.closeToken mc tag len w false) s = .next (s.raiseAs .stepFatal false Code.PRS_RECORD_CHANGED (0xC00 + mc) g 0))
    ∧ (s.stepOpen = true → ¬ bad → s.grpChanged g = false → (s.grp g).closers < n →
      exec (.closeToken mc tag len w false) s = .next (s.raise Code.PRS_CLOSE_EXTRA (0xC00 + mc) g 0))
    ∧ (s.stepOpen = true → ¬ bad → s.grpChanged g = false → n ≤ (s.grp g).closers →
      ∃ u, exec (.closeToken mc tag len w false) s = .next u ∧ Only [.bar, .press] s u
        ∧ u.phase = (if s.phase = 1 then 2 else s.phase) ∧ kvGet 0 u.press.closeCnt g = n
        ∧ (n < (s.grp g).closers → u.press.closing = s.press.closing)
        ∧ (n = (s.grp g).closers → (s.grp g).closes = true → u.press.closing = s.press.closing ++ [g])))
  -- the end of a close
  ∧ (∀ (g : Nat) (s : State), s.safe = false → s.stepOpen = true → s.press.closing.contains g = true →
    let c := s.engCheck (s.closeReads (s.grp g))
    let v := c.1.closeGroup g
    let u := { v with press := { v.press with closing := v.press.closing.erase g, closed := v.press.closed ++ [g] } }
    (s.grpChanged g = true → exec (.closeEnd g) s = .next (s.raiseAs .stepFatal false Code.PRS_RECORD_CHANGED 0xC66 g 0))
    ∧ (s.grpChanged g = false → c.2 = false → exec (.closeEnd g) s = .next c.1)
    ∧ (s.grpChanged g = false → c.2 = true → exec (.closeEnd g) s = .next (if (s.grp g).reduces then u.groupClosed g else u)))
  -- bounds
  ∧ (∀ (g : Nat) (s : State), s.safe = false → s.phase = 1 ∨ s.phase = 2 → (List.range s.gtCount).find? s.recBad = some g →
    exec .prsCloseDeadline s = .next (s.raiseAs .stepFatal false Code.PRS_RECORD_CHANGED 0xC66 g 0))
  ∧ (∀ s : State, s.safe = false → s.phase = 1 ∨ s.phase = 2 → (∀ g, g < s.gtCount → s.recBad g = false) →
    s.allClosed = false ∨ s.allRed = true →
    exec .prsCloseDeadline s = .next (s.raise Code.PRS_CLOSE_DEADLINE 0xC66 0xFFFF 0))
  ∧ (∀ s : State, s.safe = false → s.phase = 3 → (∀ i ∈ s.seam.insts, i.rc.kind = 2 → i.step = s.stepNo → i.sentVerdict = false) →
    exec .prsNormDeadline s = .next (s.raise Code.PRS_NORM_DEADLINE 0xC66 0xFFFF 0))
  ∧ (∀ s : State, s.safe = false → s.phase = 3 → s.flag R.FLT_CFG_STOP_ON_STEP = false → s.flt.cause = none → s.drain ≠ 2 →
    ∃ u, exec .prsNormDeadline s = .next u ∧ u.phase = 0 ∧ u.drain = 2)
  ∧ (∀ s : State, s.safe = false → s.phase = 4 ∨ s.phase = 5 →
    exec .prsSweepDeadline s = .next (s.raise Code.PRS_SWEEP_DEADLINE 0xC66 0xFFFF 0))

/-- The norm, the verdict, the sweep and the audit (spec/07_training_step_and_press.md R222, R235 to R246). -/
def Obligations.NormVerdictSweepAndAudit : Prop :=
  -- a changed record
  (∀ (g : Nat) (s : State), (List.range s.gtCount).find? s.recBad = some g →
    (s.safe = false → s.phase = 1 ∨ s.phase = 2 →
      exec .partialNorm s = .next (s.raiseAs .stepFatal false Code.PRS_RECORD_CHANGED 0xC66 g 0))
    ∧ ∀ mc, mc < 24 → s.pressStopped = false →
      (∀ h j e, s.phase = 4 → exec (.sweepLine mc h j e) s
        = .next (s.raiseAs .moduleFatal false Code.PRS_RECORD_CHANGED (0xC00 + mc) g 0))
      ∧ (s.phase = 5 → s.press.audited.contains mc = false → exec (.audit mc) s
        = .next (s.raiseAs .moduleFatal false Code.PRS_RECORD_CHANGED (0xC00 + mc) g 0)))
  -- the partial norm
  ∧ (∀ s : State, s.safe = false → s.phase = 1 ∨ s.phase = 2 → s.allClosed = true → s.allRed = true →
    (∀ g, g < s.gtCount → s.recBad g = false) →
      let c := s.engCheck s.normReads
      (c.2 = false → exec .partialNorm s = .next c.1)
      ∧ (c.2 = true → exec .partialNorm s = .next ((c.1.set R.PRS_STATUS_PHASE 3).normStart c.1.partialNorm)))
  ∧ (∀ (p : W32) (s : State), s.normInst s.stepNo = none →
    s.normStart p = s.confirm (s.decideNorm (combine [p])).1 (combine [p]) (s.decideNorm (combine [p])).2)
  -- the decision
  ∧ (∀ (n2 : W32) (s : State),
    let norm := fsqrt n2
    let clip : W32 := BitVec.ofNat 32 (s.get R.PRS_CLIP_NORM_CLIP_NORM)
    let skips : Prop := isFinite n2 = false
      ∨ (s.flag R.PRS_CFG_SKIP_EN = true ∧ Machine.flt (BitVec.ofNat 32 (s.get R.PRS_SKIP_NORM_SKIP_NORM)) norm = true)
    let clips : Prop := s.flag R.PRS_CFG_CLIP_EN = true ∧ Machine.flt clip norm = true
    (skips → s.decideNorm n2 = (3, 0)) ∧ (¬ skips → clips → s.decideNorm n2 = (2, fdiv clip norm))
    ∧ (¬ skips → ¬ clips → s.decideNorm n2 = (1, 0x3F800000)))
  -- the verdict confirmed
  ∧ (∀ (n2 k : W32) (s : State),
    let u := s.confirm 3 n2 k
    u.phase = 0 ∧ u.get R.PRS_LAST_LAST = s.get R.PRS_LAST_LAST ∧ u.get R.PRS_STATUS_VERDICT = 3
      ∧ u.get R.PRS_CLIPK_K = k.toNat ∧ u.mem = s.mem ∧ (∀ i ∈ u.seam.insts, i.step ≠ s.stepNo))
  ∧ (∀ (v : Nat) (n2 k : W32) (s : State), v = 1 ∨ v = 2 → s.stepNo < 2 ^ 48 → (∀ i ∈ s.seam.insts, i.step ≠ s.stepNo) →
    (∀ g, g < s.gtCount → s.grpChanged g = false) →
    let u := s.confirm v n2 k
    u.get R.PRS_LAST_LAST = s.stepNo ∧ u.get R.PRS_STATUS_VERDICT = v ∧ (u.phase = 4 ∨ u.phase = 5) ∧ u.press.n2 = n2
      ∧ u.press.k = k ∧ u.press.cmd = none ∧ u.press.swept = [] ∧ u.mem = s.mem)
  -- a line swept
  ∧ (∀ (mc g j : Nat) (e : Ecc) (s : State), s.pressStopped = false → s.phase = 4 → mc < 24 → s.nextSweep mc = some (g, j) →
    (∀ h, h < s.gtCount → s.recBad h = false) →
    let c := s.engRead ((s.grp g).sweepReads j) e
    let v := c.1.sweepLine mc g j
    (c.2 = false → exec (.sweepLine mc g j e) s = .next c.1)
    ∧ (c.2 = true → exec (.sweepLine mc g j e) s
      = .next (if v.groupLinesSwept g then ((v.endGroup g).groupSwept g).afterSweep else v)))
  ∧ (∀ (mc g j : Nat) (s : State), s.mem.errs = [] → s.mem.poison = [] →
    let r := s.grp g
    let old := s.elems r j
    let new := List.zipWith (fun e a => r.update (r.t + 1) e a) old ((s.gradLine g r j).map fun a => fmul a s.press.k)
    let u := s.sweepLine mc g j
    u.press.swept = (g, mc, j) :: s.press.swept ∧ Only [.bar, .mem, .press] s u ∧ new.length ≤ 64
      ∧ ∃ m1 m2, m1 = (s.put (r.ownAt r.master j) (wordsBytes (new.map Elem.w)))
        ∧ m2 = (if r.usesS1 then m1.put (r.ownAt r.s1 j) (wordsBytes (new.map Elem.s1)) else m1)
        ∧ u.mem = ((if r.usesS2 then m2.put (r.ownAt r.s2 j) (wordsBytes (new.map Elem.s2)) else m2).putWork r j
          (derive r.wfmt (new.map Elem.w)) mc).mem)
  ∧ (∀ (a : Nat) (b : List Byte) (s : State), s.mem.errs = [] → s.mem.poison = [] →
    (∀ k, k < b.length → (s.memKey (a + k)).isSome = true) →
    (s.put a b).mem.data = (s.wrN a b).mem.data ∧ (s.put a b).mem.errs = [] ∧ (s.put a b).mem.poison = []
      ∧ Only [.bar, .mem] s (s.put a b))
  -- the audit of a line, and of a unit
  ∧ (∀ (mc g j : Nat) (s : State), s.mem.errs = [] → s.mem.poison = [] →
    let r := s.grp g
    let x := derive r.wfmt (s.masterLine r j)
    let same : Prop := s.rdN (r.workAt j) (lineBytes r.wfmt) = x.1 ∧ s.rdN (r.workSclAt j) (lineScales r.wfmt) = x.2.1
    (same → Only [.bar, .mem] s (s.auditLine mc g j) ∧ (s.auditLine mc g j).mem.data = s.mem.data)
    ∧ (¬ same → ∃ u, s.auditLine mc g j = u.raise Code.PRS_DRIFT (0xC00 + mc) g 0 ∧ u.mem.data = (s.putWork r j x mc).mem.data
      ∧ Only [.bar, .mem] s u))
  ∧ (∀ (mc : Nat) (s : State), s.pressStopped = false → s.phase = 5 → mc < 24 → s.press.audited.contains mc = false →
    (∀ h, h < s.gtCount → s.recBad h = false) →
    let t := (s.auditLines mc).foldl (fun s x => if s.pressStopped then s else s.auditLine mc x.1 x.2) s
    let v := { t with press := { t.press with audited := mc :: t.press.audited } }
    (v.press.audited.length ≠ 24 ∨ v.flt.cause ≠ none → exec (.audit mc) s = .next v)
    ∧ (v.press.audited.length = 24 → v.flt.cause = none →
      ∃ u, exec (.audit mc) s = .next u ∧ u.phase = 0 ∧ u.press.audited = [] ∧ u.mem = v.mem ∧ u.seam = v.seam
        ∧ ∀ r ∈ u.press.replies, r.idle = true ∧ u.returning r.step = true))

/-- Seam links: training, negotiation, holding and going down (spec/10_seam_ports_and_collectives.md R314 to R325, R347). -/
def Obligations.SeamLinksComeUpHoldAndGoDown : Prop :=
  -- a link that starts again
  (∀ (p : Nat) (quiet : Bool) (s : State), p < 8 →
    let t := (s.clearPort p).setLink p (if s.flag (R.SP_CFG_EN p) then 1 else 0)
    t.link p = (if s.flag (R.SP_CFG_EN p) then 1 else 0) ∧ t.port p = { pause := (s.port p).pause }
    ∧ (∀ f, f ∈ t.seam.future ↔ f ∈ s.seam.future ∧ f.1 ≠ some p) ∧ Only [.bar, .seam] s t
    ∧ (∀ q, q < 8 → q ≠ p → t.link q = s.link q ∧ t.port q = s.port q)
    ∧ (quiet = false → s.link p = 3 ∨ s.link p = 4 →
      s.linkDown p quiet = t.raise Code.SEAM_LINK_DOWN (0xC20 + p) 0 (s.get (R.SP_STATUS_PEER p)))
    ∧ (quiet = true ∨ (s.link p ≠ 3 ∧ s.link p ≠ 4) → s.linkDown p quiet = t))
  -- training
  ∧ (∀ (p : Nat) (s : State), s.safe = false → p < 8 → s.link p = 1 →
    exec (.linkTrained p) s = .next ((s.clearPort p).setLink p 2)
    ∧ exec (.seamLinkTrain p) s = .next (s.raise Code.SEAM_LINK_TRAIN (0xC20 + p) 0 0))
  -- negotiation: a tick
  ∧ (∀ (p : Nat) (s : State), s.safe = false → p < 8 → s.link p = 2 → (s.port p).pause = 0 →
    ∃ u m, exec (.negotiateTick p) s = .next u ∧ u.out = s.out ++ [.seam p m (s.wire p m)] ∧ m.ty = 1 ∧ m.src = s.modId ∧ m.body = s.negBody p
      ∧ smCrcOk m = true ∧ ((s.port p).seen = true → m.dst = s.get (R.SP_STATUS_PEER p) ∧ m.rport = s.get (R.SP_STATUS_PEER_PORT p))
      ∧ (u.port p).sentSeen = ((s.port p).sentSeen || (s.port p).seen)
      ∧ u.link p = (if (s.port p).sentSeen = true ∨ (s.port p).seen = true then (if (s.port p).peerSeen then 3 else 2) else 2))
  -- `NEGOTIATE` arrives at a port that negotiates, or whose peer held it
  ∧ (∀ (p : Nat) (m : SMsg) (s : State), s.safe = false → p < 8 → m.ty = 1 → s.link p = 2 ∨ s.link p = 4 →
    let t := s.bump (R.FRAMES_RX p) 1
    smCrcOk m = true → t.msgBad p m = false →
      exec (.seamNegotiate p m) s = .next ((if s.link p = 4 then (t.clearPort p).setLink p 2 else t).rxNegotiate p m))
  ∧ (∀ (p : Nat) (m : SMsg) (s : State), s.safe = false → p < 8 → m.ty = 1 → 2 ≤ s.link p → s.link p ≤ 4 →
    let t := s.bump (R.FRAMES_RX p) 1
    (smCrcOk m = false → exec (.seamNegotiate p m) s
      = .next ((t.bump (R.E2E_ERR p) 1).raise Code.SEAM_E2E_CRC (0xC20 + p) 1 (seamArg m.src 0)))
    ∧ (smCrcOk m = true → t.msgBad p m = true → exec (.seamNegotiate p m) s
      = .next (t.raise Code.SEAM_MSG_FIELD (0xC20 + p) 1 (seamArg m.src 0)))
    ∧ (smCrcOk m = true → t.msgBad p m = false → s.link p = 3 → exec (.seamNegotiate p m) s = .next t))
  ∧ (∀ (p : Nat) (m : SMsg) (s : State), p < 8 →
    let peer := field m.body 0 2
    let fl := field m.body 3 1
    let common := commonMajor (slice m.body 8 16) myVminor
    let agrees : Prop := field m.body 4 4 = s.get R.SEAM_GCFG_INSTALL ∧ peer ≠ s.modId ∧ bit fl 2 = s.flag (R.SP_CFG_PFC_EN p)
    (∀ k, common = some k → agrees →
      let u := s.rxNegotiate p m
      u.get (R.SP_STATUS_PEER p) = peer % 2 ^ 14 ∧ u.get (R.SP_STATUS_VMAJ p) = k % 16 ∧ (u.port p).seen = true
        ∧ (u.port p).id = s.modId ∧ Only [.bar, .seam] s u
        ∧ u.link p = (if s.link p = 2 ∧ (s.port p).sentSeen = true ∧ ((s.port p).peerSeen = true ∨ bit fl 0 = true)
            then 3 else s.link p))
    ∧ ((common = none ∨ ¬ agrees) → (s.port p).refused = true → s.rxNegotiate p m = s)
    ∧ ((common = none ∨ ¬ agrees) → (s.port p).refused = false → s.rxNegotiate p m
      = (s.setPort p { s.port p with refused := true }).raise Code.SEAM_NEG_FAIL (0xC20 + p) 1 (seamArg peer 0)))
  ∧ (∀ (p : Nat) (s : State), s.safe = false → p < 8 → s.link p = 2 →
    exec (.seamNegFail p) s = .next ((s.raise Code.SEAM_NEG_FAIL (0xC20 + p) 1 0).linkDown p true))
  -- `HOLD`
  ∧ (∀ (p : Nat) (m : SMsg) (t s : State), m.ty = 3 → s.receive p m = (t, true) →
    exec (.hold p m) s = .next (((t.setLink p 4).set (R.SP_PEER_FAULT_PEER_FAULT p) (field m.body 0 2)).raise
      Code.SEAM_PEER_HOLD (0xC20 + p) 3 (seamArg (field m.body 2 2) 0)))
  ∧ (∀ (p : Nat) (s : State), s.safe = true → p < 8 → s.link p = 5 → (s.port p).pause = 0 →
    ∃ u m, exec (.holdTick p) s = .next u ∧ u.out = s.out ++ [.seam p m (s.wire p m)] ∧ m.ty = 3 ∧ m.dst = s.get (R.SP_STATUS_PEER p)
      ∧ m.body = leBytes 2 ((s.flt.cause.map FltRec.code).getD 0) ++ leBytes 2 s.modId ∧ smCrcOk m = true ∧ Only [.bar, .out] s u)
  -- silence, loss of alignment
  ∧ (∀ (p : Nat) (s : State), s.safe = false → p < 8 → s.link p = 3 → exec (.peerSilence p) s = .next (s.linkDown p false))
  ∧ (∀ (p : Nat) (s : State), s.safe = false → p < 8 → 2 ≤ s.link p → s.link p ≤ 4 →
    exec (.pcsLoss p) s = .next (s.linkDown p false))

/-- Reliable delivery on a seam link (spec/10_seam_ports_and_collectives.md R316 to R324, R328). -/
def Obligations.SeamFramesAreDeliveredInOrderOnce : Prop :=
  -- what a frame's `LACK` releases, when nothing waits for the window
  (∀ (p : Nat) (m : SMsg) (s : State), (s.port p).toSend = [] →
    let x := s.port p
    let adv := diff24 m.lack x.lack
    let y := (s.takeLack p m).port p
    Only [.seam] s (s.takeLack p m) ∧ y.free = m.free ∧ y.rxSeq = x.rxSeq ∧ y.txSeq = x.txSeq
    ∧ (0 < adv → adv ≤ x.replay.length → y.replay = x.replay.drop adv ∧ y.lack = m.lack % 2 ^ 24 ∧ y.rtx = 0)
    ∧ (adv = 0 ∨ x.replay.length < adv → y.replay = x.replay ∧ y.lack = x.lack))
  -- receiving a frame
  ∧ (∀ (p : Nat) (m : SMsg) (s : State), s.safe = false → p < 8 → s.link p = 3 ∨ s.link p = 4 →
    let t := (s.bump (R.FRAMES_RX p) 1).takeLack p m
    let x := t.port p
    let q := m.lseq % 2 ^ 24
    (m.ty < 0x10 → s.receive p m = t.checkMsg p m)
    ∧ (0x10 ≤ m.ty → q = x.rxSeq →
      s.receive p m = (t.setPort p { x with rxSeq := (x.rxSeq + 1) % 2 ^ 24, naked := false }).checkMsg p m)
    ∧ (0x10 ≤ m.ty → q ≠ x.rxSeq → serialLater 24 q x.rxSeq = true → s.receive p m
      = (if x.naked then t else (t.setPort p { x with naked := true }).sendAck p true, false))
    ∧ (0x10 ≤ m.ty → q ≠ x.rxSeq → serialLater 24 q x.rxSeq = false → s.receive p m = (t.sendAck p false, false)))
  ∧ (∀ (p : Nat) (m : SMsg) (s : State),
    (smCrcOk m = false →
      s.checkMsg p m = ((s.bump (R.E2E_ERR p) 1).raise Code.SEAM_E2E_CRC (0xC20 + p) m.ty (seamArg m.src 0), false))
    ∧ (smCrcOk m = true → s.msgBad p m = true →
      s.checkMsg p m = (s.raise Code.SEAM_MSG_FIELD (0xC20 + p) m.ty (seamArg m.src 0), false))
    ∧ (smCrcOk m = true → s.msgBad p m = false → 0x10 ≤ m.ty → m.dst ≠ s.modId → s.checkMsg p m = (s.sendMsg p m, false))
    ∧ (smCrcOk m = true → s.msgBad p m = false → m.ty < 0x10 ∨ m.dst = s.modId → s.checkMsg p m = (s, true))
    ∧ (knownType m.ty = false → s.msgBad p m = true))
  -- acknowledgements
  ∧ (∀ (p : Nat) (m : SMsg) (s : State), m.ty = 2 →
    (m.kid ≠ 1 → exec (.ack p m) s = .next (s.receive p m).1)
    ∧ (∀ t, m.kid = 1 → s.receive p m = (t, true) →
      exec (.nak p m) s = .next (if (t.port p).replay.isEmpty then t else t.retransmit p)))
  ∧ (∀ (p : Nat) (s : State),
    let x := s.port p
    (s.get (R.SP_DL_RTX_MAX p) ≤ x.rtx → s.retransmit p = s.linkDown p false)
    ∧ (x.rtx < s.get (R.SP_DL_RTX_MAX p) → x.pause = 0 → x.replay.take x.free ≠ [] →
      ∃ u, s.retransmit p = u ∧ Only [.bar, .seam, .out] s u
      ∧ (u.port p).rtx = x.rtx + 1 ∧ (u.port p).replay = x.replay
      ∧ u.out.length = s.out.length + (x.replay.take x.free).length)
    ∧ (x.rtx < s.get (R.SP_DL_RTX_MAX p) → x.pause ≠ 0 ∨ x.free = 0 → s.retransmit p = s))
  ∧ (∀ (p : Nat) (s : State), s.safe = false → p < 8 → s.link p = 3 → (s.port p).replay ≠ [] →
    exec (.rtxTimeout p) s = .next (s.retransmit p))
  ∧ (∀ (p : Nat) (s : State), s.safe = false → p < 8 → s.link p = 3 ∨ s.link p = 4 → (s.port p).pause = 0 →
    ∃ u m, exec (.ackInterval p) s = .next u ∧ u.out = s.out ++ [.seam p m (s.wire p m)] ∧ m.ty = 2 ∧ m.kid = 0
      ∧ m.lack = (s.port p).rxSeq ∧ m.free = 128 - (s.port p).slots ∧ m.dst = s.get (R.SP_STATUS_PEER p) ∧ smCrcOk m = true)
  -- relayed and reserved messages
  ∧ (∀ (p : Nat) (m : SMsg) (s : State),
    (m.dst ≠ s.modId → 0x10 ≤ m.ty → exec (.messageRelay p m) s = .next (s.receive p m).1)
    ∧ (knownType m.ty = false → exec (.reservedTypeMessage p m) s = .next (s.receive p m).1))
  ∧ (∀ (p : Nat) (m : SMsg) (s : State),
    (routeFor (s.seamTabOf p).routes m.dst = none → s.sendMsg p m = s.raise Code.SEAM_ROUTE (0xC20 + p) m.ty m.src)
    ∧ ∀ r, routeFor (s.seamTabOf p).routes m.dst = some r →
      s.sendMsg p m = s.portSend r.lport (smSigned { m with rport := r.rport }))
  -- an acknowledgement of a paused port waits
  ∧ (∀ (p : Nat) (neg : Bool) (s : State), let x := s.port p
    (x.pause ≠ 0 → s.sendAck p neg = s.setPort p { x with ackDue := some (neg || x.ackDue = some true) })
    ∧ (x.pause = 0 → ∃ u m, s.sendAck p neg = u ∧ Only [.bar, .out] s u ∧ u.out = s.out ++ [.seam p m (s.wire p m)]
      ∧ m.ty = 2 ∧ m.kid = b2n neg ∧ m.lack = x.rxSeq))
  -- frames counted and not taken
  ∧ (∀ (p : Nat) (s : State), s.safe = false → p < 8 → 2 ≤ s.link p → s.link p ≤ 4 →
    (∀ (da : List Byte) (etype : Nat), da ≠ s.macAddr p s.modId ∨ etype ≠ s.get (R.SP_CFG_ETYPE p) →
      exec (.otherFrame ⟨p, da, etype⟩) s = .next (s.bump (R.OTHER_RX p) 1))
    ∧ exec (.fcsErrorFrame p) s = .next (s.bump (R.FCS_ERR p) 1))
  -- a PFC frame
  ∧ (∀ (p quanta : Nat) (s : State), s.safe = false → p < 8 → 2 ≤ s.link p → s.link p ≤ 4 →
    s.flag (R.SP_CFG_PFC_EN p) = true → (s.port p).toSend = [] → (s.port p).ackDue = none →
    exec (.pfcFrame p (s.get (R.SP_CFG_PRIO p)) quanta) s
      = .next ((s.bump (R.PAUSE_RX p) quanta).setPort p { s.port p with pause := 128 * quanta }))

/-- The messages of the step collective (spec/10_seam_ports_and_collectives.md R332 to R340). -/
def Obligations.CollectiveMessagesReduceDecideAndReturn : Prop :=
  -- each type received goes to the collective
  (∀ (p : Nat) (m : SMsg) (t s : State), s.receive p m = (t, true) →
    (m.ty = 0x20 → exec (.owner p m) s = .next (t.collMsg p m))
    ∧ (m.ty = 0x21 → exec (.partialMsg p m) s = .next (t.collMsg p m))
    ∧ (m.ty = 0x28 → exec (.normPart p m) s = .next (t.collMsg p m))
    ∧ (m.ty = 0x29 → exec (.verdict p m) s = .next (t.collMsg p m))
    ∧ (m.ty = 0x2A → exec (.abandon p m) s = .next (t.collMsg p m))
    ∧ (m.ty = 0x22 → t.gatherFor m true = none → exec (.returnMsg p m) s = .next (t.collMsg p m))
    ∧ (m.ty = 0x23 → (t.seam.gathers.find? fun g => g.tag = m.kid && g.owner = m.src && g.group = m.group) = none →
      exec (.digest p m) s = .next (t.collMsg p m)))
  ∧ (∀ (p : Nat) (m : SMsg) (s : State),
    (∀ i, s.instFor m = some i → s.collMsg p m = s.deliverTo i m)
    ∧ (s.instFor m = none → s.isFuture m = true → (s.seam.future.filter fun f => f.1.isNone).length < 64 →
      ∃ u, s.collMsg p m = u ∧ Only [.bar, .seam] s u ∧ u.seam.future = s.seam.future ++ [(none, m)] ∧ u.seam.insts = s.seam.insts)
    ∧ (s.instFor m = none → s.isFuture m = true → 64 ≤ (s.seam.future.filter fun f => f.1.isNone).length →
      ∃ u, s.collMsg p m = u ∧ u.seam.future = s.seam.future ++ [(some p, m)] ∧ (u.port p).slots = (s.port p).slots + 1)
    ∧ (s.instFor m = none → s.isFuture m = false → s.collMsg p m = s.bump R.STALE_COLL 1))
  -- the instance of a message: that of its step, but for the answer to a re-request of an earlier step
  ∧ (∀ (m : SMsg) (s : State),
    (m.kep ≠ m.kstep % 256 → s.instFor m = none)
    ∧ (∀ i, m.kep = m.kstep % 256 → s.inst m.kid m.kstep = some i →
      ((∀ j ∈ s.seam.insts, j.awaits m = false) → s.instFor m = some i)
      ∧ ((i.range m.group m.src).checked = 0 → s.instFor m = some i)
      ∧ ∀ j, (s.seam.insts.find? fun j => j.awaits m) = some j → (i.range m.group m.src).checked ≠ 0 → s.instFor m = some j)
    ∧ (m.kep = m.kstep % 256 → s.inst m.kid m.kstep = none → s.instFor m = s.seam.insts.find? fun j => j.awaits m))
  -- what each does at its instance
  ∧ (∀ (i : Inst) (m : SMsg) (s : State), i.rc.kind = 1 →
    -- `OWNER`
    (∀ rg, m.ty = 0x20 → (i.groups.find? fun rg => !(ownerEntry m.body rg.group).any (ownerFits i.rc.pos rg.gr)) = some rg →
      s.deliverTo i m = s.raise Code.SEAM_OWN_MISMATCH i.unit 0x20 (seamArg m.src rg.group))
    ∧ (m.ty = 0x20 → (i.groups.find? fun rg => !(ownerEntry m.body rg.group).any (ownerFits i.rc.pos rg.gr)) = none →
      s.deliverTo i m = (i.groups.map RedGroup.group).foldl (fun s g => s.advance i.rc.id i.step g)
        (s.onInst i.rc.id i.step fun i => { i with groups := i.groups.map fun rg =>
          { rg with prev := (ownerEntry m.body rg.group).map fun e => (e.2.1, e.2.2) } }))
    -- `PARTIAL`
    ∧ (∀ rg, m.ty = 0x21 → i.rg m.group = some rg → rg.up = .excluded → s.deliverTo i m = s.lateDrop i.step)
    ∧ (∀ rg, m.ty = 0x21 → i.rg m.group = some rg → rg.up ≠ .excluded → s.deliverTo i m
      = (s.onRedGroup i.rc.id i.step m.group fun r => { r with
          up := .included, timer := r.own = .undecided
          parts := r.parts ++ [⟨m.line, m.n, (List.range (m.body.length / 256)).map fun c => bytesWords (slice m.body (256 * c) 256)⟩] }).advance
          i.rc.id i.step m.group)
    -- `RETURN` and `DIGEST` of an instance
    ∧ (m.ty = 0x22 → s.deliverTo i m = s.rxReturn i m) ∧ (m.ty = 0x23 → s.deliverTo i m = s.rxDigest i m))
  ∧ (∀ (i : Inst) (m : SMsg) (rg : RedGroup) (s : State), i.rg m.group = some rg →
    let rr := i.range m.group m.src
    let t := if rr.asked then s else s.ringPass i m m.src
    let put (r : RetRange) (v : State) : State := v.onInst i.rc.id i.step fun i => i.setRange r
    let good : Prop := digestOf rr.masters rr.elems rr.scales = (field m.body 0 8, field m.body 8 8)
    let done : RetRange := { rr with masters := [], elems := [], scales := [], checked := field m.body 16 8 }
    let x := t.applyLines rg.gr m.line (bodyLines m.body)
    s.rxReturn i m = put { rr with masters := rr.masters ++ m.body, elems := rr.elems ++ x.2.1, scales := rr.scales ++ x.2.2 } x.1
    ∧ (good → s.rxDigest i m = (put done t).tryReturn i.rc.id i.step)
    ∧ (¬ good → rr.asked = false → s.rxDigest i m
      = ((put { rr with masters := [], elems := [], scales := [], asked := true } (t.bump R.DIGEST_MISMATCH 1)).raise
          Code.SEAM_DIGEST i.unit 0x23 (seamArg m.src m.group)).sendVia i.rc.port i.routes
          (((put { rr with masters := [], elems := [], scales := [], asked := true } (t.bump R.DIGEST_MISMATCH 1)).raise
            Code.SEAM_DIGEST i.unit 0x23 (seamArg m.src m.group)).msg 0x24 m.src i.rc.id i.step m.group 0 m.line
            (leBytes 8 (field m.body 16 8))))
    ∧ (¬ good → rr.asked = true → s.rxDigest i m
      = (((put done t).setSuspect).raise Code.SEAM_SUSPECT i.unit 0x23 (seamArg m.src m.group)).tryReturn i.rc.id i.step))
  -- the norm ring
  ∧ (∀ (i : Inst) (m : SMsg) (s : State), i.rc.kind = 2 →
    let orig := field m.body 4 2
    let t := s.ringPass i m orig
    (m.ty = 0x28 → field m.body 8 8 ≠ t.get R.PRS_LAST_LAST →
      s.deliverTo i m = t.raise Code.SEAM_STEP_SPLIT i.unit 0x28 (seamArg orig 0))
    ∧ (m.ty = 0x28 → field m.body 8 8 = t.get R.PRS_LAST_LAST → s.deliverTo i m
      = (t.onInst i.rc.id i.step fun i => { i with
          partials := kvSet i.partials orig (BitVec.ofNat 32 (field m.body 0 4)) }).normCheck i.rc.id i.step)
    ∧ (m.ty = 0x29 → ∃ v : State, s.deliverTo i m = v.verdCheck i.rc.id i.step ∧ v.mem = s.mem ∧ v.press = s.press)
    ∧ (m.ty = 0x2A → s.stepOpen = true → i.step = s.stepNo → s.normInst s.stepNo = some i → ∃ v : State, s.deliverTo i m
        = v.raise Code.SEAM_PEER_ABANDON i.unit 0x2A (seamArg (field m.body 0 2) 0) ∧ v.verdictSent = false ∧ v.stepOpen = true))
  ∧ (∀ (i : Inst) (id step : Nat) (s : State), s.inst id step = some i →
    -- the last partial decides
    (i.sentVerdict = true ∨ kvGet? i.partials s.modId = none ∨ i.partials.length < i.rc.p → s.normCheck id step = s)
    -- verdicts compared
    ∧ (∀ w l, i.verdicts = w :: l →
      ((∃ x ∈ l, (x.v, x.n2, x.k) ≠ (w.v, w.n2, w.k)) → i.split = false → s.verdCheck id step
        = (s.onInst id step fun i => { i with split := true }).raise Code.SEAM_VERDICT_SPLIT i.unit 0x29 0)
      ∧ ((∃ x ∈ l, (x.v, x.n2, x.k) ≠ (w.v, w.n2, w.k)) → i.split = true → s.verdCheck id step = s)
      ∧ ((∀ x ∈ l, (x.v, x.n2, x.k) = (w.v, w.n2, w.k)) → i.sentVerdict = true → i.rc.p ≤ i.verdicts.length →
        s.stepOpen = true → step = s.stepNo → s.verdCheck id step = s.confirm w.v w.n2 w.k)))
  -- timers
  ∧ (∀ (g : Nat) (i : Inst) (rg : RedGroup) (s : State), s.safe = false →
    (s.seam.insts.find? fun i => (i.rg g).any RedGroup.timer) = some i → i.rg g = some rg →
    ∃ f : RedGroup → RedGroup, exec (.contribTimeout g) s
        = .next ((s.onRedGroup i.rc.id i.step g f).advance i.rc.id i.step g)
      ∧ (∀ r, (f r).timer = false ∧ (f r).parts = r.parts)
      ∧ (∀ r, r.own = .undecided → (f r).own = .excluded ∧ (f r).up = r.up)
      ∧ (∀ r, r.own ≠ .undecided → rg.prev ≠ some (0, rg.gr.nElem) → (f r).up = .excluded ∧ (f r).own = r.own))
  ∧ (∀ (i : Inst) (rg : RedGroup) (s : State), s.safe = false → s.stepOpen = true → s.allClosed = true →
    (∀ g, g < s.gtCount → s.recBad g = false) →
    (s.seam.insts.find? fun i => i.rc.kind = 1 && i.step = s.stepNo
      && i.groups.any fun rg => decide (rg.ended < rg.gr.ownLines.length)) = some i →
    (i.groups.find? fun rg => decide (rg.ended < rg.gr.ownLines.length)) = some rg →
    exec .seamRedDeadline s = .next (s.raise Code.SEAM_RED_DEADLINE i.unit 0 (seamArg 0 rg.group)))
  ∧ (∀ (i : Inst) (s : State), s.safe = false → (s.seam.insts.find? fun i => i.rc.kind = 1 && i.committed) = some i →
    ∃ u, exec .seamRetDeadline s = .next u
      ∧ u = ((s.raise Code.SEAM_RET_DEADLINE i.unit 0 0).setSuspect).retireReturn i
      ∧ ∀ j ∈ u.seam.insts, ¬ (j.rc.id = i.rc.id ∧ j.step = i.step))

/-- Pipeline streams (spec/10_seam_ports_and_collectives.md R329 to R331). -/
def Obligations.StreamsPackCreditAndReinject : Prop :=
  -- a token for an `OUT` record
  (∀ (p : Nat) (hdr : W64) (pay : List Byte) (s : State), s.safe = false → p < 8 → hDest hdr = 0xC20 + p →
    hDq hdr = 0 → hKind hdr = kData ∨ hKind hdr = kCtl ∨ hKind hdr = kEnd →
    let f := s.fate (0xC20 + p) (fun d => d = 0) (if hBasted hdr then some (hTag hdr) else none)
    (hBasted hdr = false → f = (s, .sewn)) ∧ Only [.fab] s f.1
    ∧ (f.2 = .sewn → exec (.streamTokenOut p hdr pay) s = .next (f.1.packTok p (Token.sewn ⟨hdr, pay⟩)))
    ∧ (f.2 = .gone → exec (.streamTokenOut p hdr pay) s = .next f.1)
    ∧ (∀ g, f.2 = .held g → exec (.streamTokenOut p hdr pay) s = .next (f.1.packTok p ⟨hdr, pay⟩)))
  ∧ (∀ (p : Nat) (k : Token) (s : State),
    let hit := s.seam.outs.find? fun o => o.rc.port = p && o.rc.slot = hSlot k.hdr && o.gen = hGen k.hdr && !o.hem
    (∀ o, hit = some o → let o' : OutStream := { o with packed := o.packed ++ [k] }
      s.packTok p k = (s.onOut o o').runOut o')
    ∧ (hit = none → s.packTok p k = s))
  ∧ (∀ (p : Nat) (hdr : W64) (pay : List Byte) (s : State), s.safe = false → p < 8 → hDest hdr = 0xC20 + p → hDq hdr = 0 →
    hKind hdr = kHem →
    (s.streamsHemmed p (hGen hdr) = false → exec (.streamTokenOut p hdr pay) s = .next s)
    ∧ (∀ o, s.streamsHemmed p (hGen hdr) = true →
      (s.seam.outs.filter fun o => o.rc.port = p && o.gen = hGen hdr && !o.hem) = [o] →
      exec (.streamTokenOut p hdr pay) s = .next ((s.onOut o { o with hem := true }).runOut { o with hem := true })))
  -- what a stream sends
  ∧ (∀ (all : Bool) (k : Nat) (o : OutStream) (s : State),
    let full := s.streamMax o.rc.port o.rc.rmod
    let n := min full (min (o.packed.takeWhile fun k => !hBasted k.hdr).length o.credits)
    (n = full ∨ (all = true ∧ 0 < n) →
      s.pumpOut all (k + 1) o = (s.sendStream o n).1.pumpOut all k { o with packed := o.packed.drop n, credits := o.credits - n })
    ∧ (n ≠ full → all = false ∨ n = 0 → s.pumpOut all (k + 1) o = (s, o)))
  ∧ (∀ (o : OutStream) (n : Nat) (s : State),
    (s.sendStream o n).1 = (s.onOut o { o with packed := o.packed.drop n, credits := o.credits - n }).sendMsg o.rc.port
      (s.msg 0x10 o.rc.rmod o.rc.rslot s.stepNo 0 0 0 ((o.packed.take n).flatMap tokenRecord)))
  ∧ (∀ (o : OutStream) (s : State),
    (o.hem = true → o.packed = [] → s.endOut o
      = { s with seam := { s.seam with outs := s.seam.outs.filter fun x => x ≠ o } }.sendMsg o.rc.port
        (s.msg 0x12 o.rc.rmod o.rc.rslot s.stepNo 0 0 0 []))
    ∧ (o.hem = false ∨ o.packed ≠ [] → s.endOut o = s)
    ∧ s.runOut o = (s.pumpOut o.hem (o.packed.length + 1) o).1.endOut (s.pumpOut o.hem (o.packed.length + 1) o).2)
  ∧ (∀ (p slot : Nat) (o : OutStream) (s : State), s.safe = false →
    (s.seam.outs.find? fun o => o.rc.port = p && o.rc.slot = slot && !o.ready.isEmpty) = some o →
    exec (.streamPackTimeout p slot) s
      = .next ((s.pumpOut true (o.packed.length + 1) o).1.endOut (s.pumpOut true (o.packed.length + 1) o).2))
  -- credits
  ∧ (∀ (p : Nat) (m : SMsg) (o : OutStream) (t s : State), m.ty = 0x11 → s.receive p m = (t, true) →
    (t.seam.outs.find? fun o => o.rc.rmod = m.src && o.rc.rslot = m.kid) = some o →
    let o' : OutStream := { o with credits := o.credits + field m.body 0 4 }
    exec (.streamCredit p m) s = .next ((t.onOut o o').runOut o'))
  -- `STREAM`
  ∧ (∀ (p : Nat) (m : SMsg) (t s : State), m.ty = 0x10 → s.receive p m = (t, true) →
    let keep : State := { t with seam := { t.seam with streams := t.seam.streams ++ [(p, m)] } }
    let behind : Prop := ∃ x ∈ t.seam.streams, x.1 = p ∧ x.2.kid = m.kid
    (behind → exec (.stream p m) s = .next keep)
    ∧ (¬ behind → t.quiesceHolds m = true → exec (.stream p m) s = .next keep)
    ∧ (∀ i, ¬ behind → t.quiesceHolds m = false → t.inFor p m.kid = some i →
      (i.rc.smod = m.src → exec (.stream p m) s = .next (t.onIn i { i with queue := i.queue ++ bodyTokens m.body }))
      ∧ (i.rc.smod ≠ m.src →
        exec (.stream p m) s = .next (t.raise Code.SEAM_STREAM_ORPHAN (0xC20 + p) 0x10 (seamArg m.src 0))))
    ∧ (¬ behind → t.quiesceHolds m = false → t.inFor p m.kid = none → exec (.stream p m) s
      = .next (if t.seam.hemSlots.contains (p, m.kid) then keep
        else t.raise Code.SEAM_STREAM_ORPHAN (0xC20 + p) 0x10 (seamArg m.src 0))))
  -- `STREAM_HEM`
  ∧ (∀ (p : Nat) (m : SMsg) (t s : State), m.ty = 0x12 → s.receive p m = (t, true) →
    let orphan := t.raise Code.SEAM_STREAM_ORPHAN (0xC20 + p) 0x12 (seamArg m.src 0)
    (t.inFor p m.kid = none → exec (.streamHem p m) s = .next orphan)
    ∧ ∀ i, t.inFor p m.kid = some i →
      (i.rc.smod ≠ m.src → exec (.streamHem p m) s = .next orphan)
      ∧ (i.rc.smod = m.src →
        let i' : InStream := { i with hem := true }
        let a := t.onIn i i'
        let b : State := if (a.inFor p m.kid).isNone then { a with seam := { a.seam with hemSlots := (p, m.kid) :: a.seam.hemSlots } } else a
        exec (.streamHem p m) s = .next ((b.enforceIns p (b.unitGenNow (0xC20 + p))).hemIn i')))
  -- a record that has ended, its tokens re-injected: what is owed is granted, and its hem marker goes
  ∧ (∀ (i : InStream) (s : State),
    let ready : Prop := i.hem = true ∧ i.queue = [] ∧ 0 < i.credits ∧ 0 < i.bucket ∧ s.chanStopped (0xC20 + i.rc.port) i.rc.slot = false
    (¬ ready → s.hemIn i = s)
    ∧ (ready → i.rc.port < 8 → let t := if i.owed = 0 then s else s.grant i.rc.port i.rc.smod i.rc.slot i.owed
      ∃ m, (s.hemIn i).net = t.net ++ [m] ∧ hKind m.tok.hdr = kHem ∧ hDest m.tok.hdr = i.rc.dest % 4096 ∧ hGen m.tok.hdr = i.gen % 16
        ∧ (∀ x, x ∈ (s.hemIn i).seam.ins ↔ x ∈ t.seam.ins ∧ x ≠ i) ∧ Only [.net, .seam] t (s.hemIn i)))
  -- re-injection
  ∧ (∀ (p slot : Nat) (i : InStream) (s : State), s.safe = false → s.drain ≠ 2 → p < 8 →
    let t := s.takeKept p slot s.seam.streams.length
    (t.seam.ins.find? fun i => i.rc.port = p && i.rc.slot = slot && i.inForce) = some i →
    (i.queue = [] → exec (.streamReinject p slot) s = .next (t.hemIn i))
    ∧ (∀ k l, i.queue = k :: l → i.credits = 0 ∨ i.bucket = 0 ∨ t.chanStopped (0xC20 + p) slot = true →
      exec (.streamReinject p slot) s = .next t)
    ∧ (∀ k l, i.queue = k :: l → 0 < i.credits → 0 < i.bucket → t.chanStopped (0xC20 + p) slot = false →
      let counts := hKind k.hdr = kData || hKind k.hdr = kCtl
      let i' : InStream := { i with
        queue := l, credits := i.credits - 1, bucket := i.bucket - 1
        tagc := if counts then (i.tagc + 1) % 256 else i.tagc
        owed := if 16 ≤ i.owed + 1 then 0 else i.owed + 1 }
      let u := (t.onIn i i').sendUnit (0xC20 + p) (i.reinject k) (some (0xC20 + p, slot))
      exec (.streamReinject p slot) s = .next (if 16 ≤ i.owed + 1 then u.grant p i.rc.smod slot (i.owed + 1) else u)
      ∧ ∃ m, u.net = t.net ++ [m] ∧ m.tok = i.reinject k))
  ∧ (∀ (i : InStream) (k : Token), hBasted (i.reinject k).hdr = false ∧ (i.reinject k).pay = k.pay
    ∧ hDest (i.reinject k).hdr = i.rc.dest % 4096 ∧ hGen (i.reinject k).hdr = i.gen % 16 ∧ hKind (i.reinject k).hdr = hKind k.hdr)
  ∧ (∀ (p slot : Nat) (i : InStream) (s : State), s.safe = false →
    (s.seam.ins.find? fun i => i.rc.port = p && i.rc.slot = slot && decide (0 < i.owed)) = some i →
    exec (.creditGrantTimeout p slot) s = .next ((s.onIn i { i with owed := 0 }).grant p i.rc.smod slot i.owed))

/-- Just-in-time gathering, at the requester and at the owner (spec/10_seam_ports_and_collectives.md R340, R341). -/
def Obligations.GathersFetchLinesFromTheirOwner : Prop :=
  -- a request token
  (∀ (p tag gen : Nat) (b : List Byte) (s : State), s.safe = false → p < 8 →
    let full (t : State) : Prop := 16 ≤ (t.seam.gathers.filter fun g => g.port = p).length
    let f := s.fate (0xC20 + p) (fun d => d = 1) (some tag)
    (∀ g, f.2 = .held g → exec (.gatherRequest p ⟨tag, gen⟩ b true) s
      = .next { f.1 with seam := { f.1.seam with gatherHeld := f.1.seam.gatherHeld ++ [⟨p, g, gen, b⟩] } })
    ∧ (f.2 = .gone → exec (.gatherRequest p ⟨tag, gen⟩ b true) s = .next f.1)
    ∧ (f.2 = .sewn → exec (.gatherRequest p ⟨tag, gen⟩ b true) s = exec (.gatherRequest p ⟨tag, gen⟩ b false) f.1)
    ∧ (full s → exec (.gatherRequest p ⟨tag, gen⟩ b false) s
      = .next { s with seam := { s.seam with gatherWait := s.seam.gatherWait ++ [(p, gen, b)] } })
    ∧ (¬ full s → exec (.gatherRequest p ⟨tag, gen⟩ b false) s = .next (s.beginGather p gen b)))
  ∧ (∀ (p gen : Nat) (b : List Byte) (s : State),
    let g := parseGather p gen b
    let refused (t : State) : State := t.raise Code.SEAM_GATHER_REFUSED (0xC20 + p) 0 (seamArg g.owner g.group)
    (s.gatherQueueOk g = false → s.beginGather p gen b = refused s)
    ∧ (s.gatherQueueOk g = true → g.nlines = 0 → s.beginGather p gen b = s.gatherEnd g false)
    ∧ (s.gatherQueueOk g = true → g.nlines ≠ 0 → s.recBad g.group = true → s.beginGather p gen b = s.recFault (0xC20 + p) g.group)
    ∧ (s.gatherQueueOk g = true → g.nlines ≠ 0 → s.recBad g.group = false → s.gatherDestOk g = false →
      s.beginGather p gen b = refused (s.gatherEnd g true))
    ∧ (s.gatherQueueOk g = true → g.nlines ≠ 0 → s.recBad g.group = false → s.gatherDestOk g = true → ∃ t, Only [.seam] s t
      ∧ t.seam.gathers = s.seam.gathers ++ [g] ∧ t.seam.done = (s.gatherChan g).seam.done
      ∧ s.beginGather p gen b = t.sendMsg p (t.msg 0x30 g.owner g.tag g.stepq g.group 0 g.line (padTo 32 b))))
  -- lines that arrive
  ∧ (∀ (p : Nat) (m : SMsg) (g : Gather) (t s : State), s.receive p m = (t, true) →
    (m.ty = 0x31 → t.gatherFor m false = some g → exec (.gatherResp p m) s = .next (t.rxGather g m))
    ∧ (m.ty = 0x22 → t.gatherFor m true = some g → exec (.returnMsg p m) s = .next (t.rxGather g m))
    ∧ (m.ty = 0x23 → (t.seam.gathers.find? fun g => g.tag = m.kid && g.owner = m.src && g.group = m.group) = some g →
      exec (.digest p m) s = .next (t.rxGatherDigest g m)))
  ∧ (∀ (g : Gather) (d : FmtD) (line : Nat) (b : List Byte) (l : List (List Byte)) (s : State),
    (line < g.line ∨ g.line + g.nlines ≤ line → s.gatherLines g d line (b :: l) = s.gatherLines g d (line + 1) l)
    ∧ (g.line ≤ line → line < g.line + g.nlines →
      let x := derive d (bytesWords b)
      let t := ((s.put (g.daddr + (line - g.line) * lineBytes d) x.1).put (g.sclAt d + (line - g.line) * lineScales d) x.2.1).addCnt
        (60 + g.port) x.2.2
      (s.gatherLines g d line (b :: l)).1 = (t.gatherLines g d (line + 1) l).1))
  ∧ (∀ (g : Gather) (m : SMsg) (s : State),
    (s.recBad g.group = true → s.rxGather g m = s.recFault (0xC20 + g.port) g.group)
    ∧ (s.recBad g.group = false →
      let x := s.gatherLines g (s.grp g.group).wfmt m.line (bodyLines m.body)
      let g' : Gather := { g with masters := g.masters ++ m.body, elems := g.elems ++ x.2.1, scales := g.scales ++ x.2.2 }
      s.rxGather g m = { x.1 with seam := { x.1.seam with gathers := x.1.seam.gathers.map fun y => if y = g then g' else y } }))
  -- the digest
  ∧ (∀ (g : Gather) (m : SMsg) (s : State),
    let arg := seamArg g.owner g.group
    let unit := 0xC20 + g.port
    let agrees : Prop := digestOf g.masters g.elems g.scales = (field m.body 0 8, field m.body 8 8) ∧ field m.body 16 8 = g.nlines
    let failed := (s.gatherEnd g true).dropGather g
    (field m.body 24 8 = 1 → s.rxGatherDigest g m = failed.raise Code.SEAM_GATHER_REFUSED unit 0x23 arg)
    ∧ (field m.body 24 8 ≠ 1 → agrees → s.rxGatherDigest g m = (s.gatherEnd g false).dropGather g)
    ∧ (field m.body 24 8 ≠ 1 → ¬ agrees → g.asked = true →
      s.rxGatherDigest g m = failed.raise Code.SEAM_SUSPECT unit 0x23 arg)
    ∧ (field m.body 24 8 ≠ 1 → ¬ agrees → g.asked = false → ∃ t : State,
      s.rxGatherDigest g m = t.sendMsg g.port (t.msg 0x24 g.owner g.tag g.stepq g.group 0 g.line (leBytes 8 g.nlines))
      ∧ t.seam.gathers = s.seam.gathers.map fun y => if y = g then { g with masters := [], elems := [], scales := [], asked := true } else y))
  -- the deadline
  ∧ (∀ (p tag : Nat) (g : Gather) (s : State), s.safe = false → (s.seam.gathers.find? fun g => g.port = p && g.tag = tag) = some g →
    exec (.seamGatherDeadline p tag) s
      = .next ((s.dropGather g).raise Code.SEAM_GATHER_DEADLINE (0xC20 + p) 0 (seamArg g.owner g.group)))
  -- the owner
  ∧ (∀ (p : Nat) (m : SMsg) (t s : State), s.receive p m = (t, true) → m.ty = 0x24 ∨ m.ty = 0x30 →
    let run := if m.ty = 0x24 then exec (.rereq p m) s else exec (.gatherReq p m) s
    let g := if m.ty = 0x24 then m.group else bits (field m.body 24 8) 0 12
    (t.recBad g = true → run = .next (t.recFault (0xC20 + p) g))
    ∧ (t.recBad g = false → t.sweeping g = true → run = .next { t with seam := { t.seam with deferred := t.seam.deferred ++ [(p, m)] } })
    ∧ (t.recBad g = false → t.sweeping g = false → run = .next (t.answerReq p m)))
  ∧ (∀ (p : Nat) (m : SMsg) (s : State),
    (m.ty = 0x24 → s.answerReq p m = s.answerLines p m 0x22 (s.grp m.group).mStep m.line (field m.body 0 8)
      (s.ownsLines m.group m.line (field m.body 0 8)))
    ∧ (m.ty = 0x30 → let g := parseGather p s.curGen m.body
      s.answerReq p m = s.answerLines p { m with group := g.group } 0x31 g.stepq g.line g.nlines
        (s.ownsLines g.group g.line g.nlines && decide ((s.grp g.group).mStep = g.stepq)))
    ∧ (∀ ty step first count, s.answerLines p m ty step first count false
      = s.sendMsg p (s.msg 0x23 m.src m.kid step m.group 0 first (digestBody (0, 0) 0 1))))
  ∧ (∀ (g : Nat) (s : State), s.safe = false → s.recBad g = false → s.sweeping g = false →
    exec (.ownerDeferredAnswer g) s = .next ((s.seam.deferred.filter fun x => reqGroup x.2 = g).foldl
      (fun s x => s.answerReq x.1 x.2)
      { s with seam := { s.seam with deferred := s.seam.deferred.filter fun x => reqGroup x.2 ≠ g } }))

/-- Host accesses to module memory (spec/11_host_interface_and_command_tape.md R352 to R354, R361, R382,
spec/15_faults_and_safe_state.md R471; the data before memory is active are free values: log entry 16). -/
def Obligations.HostAccessesReachModuleMemory : Prop :=
  -- reads
  (∀ (a n wait : Nat) (prot : Bool) (e : Ecc) (s : State), s.hdmOk a n = true → s.ideTakes 1 prot = true →
    let t := if 16 * s.get R.TP_CFG_HOST_SLACK < wait then s.bump (R.DRY_LATE (s.mcOf a)) 1 else s
    (s.memActive = false → ∃ u b, exec (.hdmRead ⟨⟨a, prot⟩, wait⟩ n e) s = .next u ∧ b.length = n ∧ Only [.out, .free] s u
      ∧ u.out = s.out ++ [.hdmData a b])
    ∧ (∀ b, s.memActive = true → s.hostBehind a n = some b →
      exec (.hdmRead ⟨⟨a, prot⟩, wait⟩ n e) s = .next (t.holdReq b none (.hdmRead ⟨⟨a, prot⟩, wait⟩ n e)))
    ∧ (s.memActive = true → s.hostBehind a n = none → exec (.hdmRead ⟨⟨a, prot⟩, wait⟩ n e) s = .next (t.serveHdmRead a n e)))
  ∧ (∀ (a n : Nat) (s : State), s.safe = false → (∀ k < n, s.inTail (a + k) = false) →
    let u := s.serveHdmRead a n .ok
    (s.mem.errs = [] → (∀ g ∈ s.granules a n, s.mem.poison.contains g = false) →
      u.out = s.out ++ [.hdmData a (s.rdN a n)] ∧ u.mem.data = s.mem.data ∧ Only [.bar, .mem, .out] s u
      ∧ u.get R.HDM_RD_BYTES = Nat.min (s.get R.HDM_RD_BYTES + n) (2 ^ R.HDM_RD_BYTES.width - 1))
    ∧ ((∃ g ∈ s.granules a n, s.mem.poison.contains g = true) → Out.poisoned a ∈ u.out ∧ u.mem.data = s.mem.data))
  ∧ (∀ (a n : Nat) (e : Ecc) (s : State), s.safe = true → (∃ g ∈ s.granules a n, s.mem.unsound.contains (mcOfGran g) = true) →
    s.serveHdmRead a n e = ((s.bump R.HDM_RD_BYTES n).bump R.POISONED_READS 1).emit (.poisoned a))
  ∧ (∀ (a n k : Nat) (s : State), k < n → s.inTail (a + k) = true →
    (s.rdN a n)[k]? = some 0 ∧ s.hostTail a n = (s.bump R.HOST_TAIL 1).raise Code.HOST_TAIL hostUnit 0 0)
  -- writes
  ∧ (∀ (a wait : Nat) (b : List Byte) (poisoned prot : Bool) (s : State), s.hdmOk a b.length = true → s.ideTakes 1 prot = true →
    let t := if 16 * s.get R.TP_CFG_HOST_SLACK < wait then s.bump (R.DRY_LATE (s.mcOf a)) 1 else s
    let i := Instr.hdmWrite ⟨⟨a, prot⟩, wait⟩ b poisoned
    (s.safe = true ∨ s.memActive = false → exec i s = .next (s.emit (.memDone hostUnit a)))
    ∧ (∀ k, s.safe = false → s.memActive = true → s.hostBehind a b.length = some k → exec i s = .next (t.holdReq k none i))
    ∧ (s.safe = false → s.memActive = true → s.hostBehind a b.length = none →
      exec i s = .next ((t.serveHdmWrite a b poisoned).emit (.memDone hostUnit a))))
  ∧ (∀ (a : Nat) (b : List Byte) (poisoned : Bool) (s : State), (∀ k < b.length, s.inTail (a + k) = false) →
    s.runs a b.length = [(a, b.length)] → s.reach a b.length = .ok → s.mem.poison.contains (s.memUnit a) = false →
    s.mem.errs = [] → a < lpEnd →
    let u := s.serveHdmWrite a b poisoned
    u.mem.data = (s.wrN a b).mem.data ∧ Only [.bar, .mem, .tape] s u
    ∧ (poisoned = true → ∀ g ∈ s.granules a b.length, g ∈ u.mem.poison)
    ∧ (overlaps a b.length s.tapeArea.1 s.tapeArea.2 = false → u.tape = s.tape)
    ∧ (0 < b.length → overlaps a b.length s.tapeArea.1 s.tapeArea.2 = true → ∃ x, u.tape = { s.tape with notices := s.tape.notices ++ [x] }))
  -- an access that is not protected, on a stream for which integrity and data encryption is on
  ∧ (∀ (a n wait : Nat) (w poisoned : Bool) (b : List Byte) (e : Ecc) (s : State),
    (s.ideTakes 1 false = false → exec (.hdmRead ⟨⟨a, false⟩, wait⟩ n e) s = .next s ∧ exec (.hdmWrite ⟨⟨a, false⟩, wait⟩ b poisoned) s = .next s)
    ∧ (s.ideTakes 0 false = false → exec (.tapeWindowAccess w ⟨a, false⟩ n b) s = .next s))
  -- the tape window
  ∧ (∀ (off n : Nat) (b : List Byte) (prot : Bool) (s : State), s.linkMode = 2 → s.ideTakes 0 prot = true → off + n ≤ 0x10000000 →
    exec (.tapeWindowAccess false ⟨off, prot⟩ n b) s = .next (s.windowRead off n)
    ∧ (s.safe = true → exec (.tapeWindowAccess true ⟨off, prot⟩ n b) s = .next s)
    ∧ (s.safe = false → exec (.tapeWindowAccess true ⟨off, prot⟩ n b) s
      = .next (s.serveHdmWrite (s.tapeArea.1 + off) ((padTo n b).take (min n (s.tapeArea.2 - off))) false))
    ∧ (s.tapeArea.2 ≤ off → ∃ u, s.windowRead off n = u ∧ u.out = s.out ++ [.hdmData off (List.replicate n 0)]
      ∧ Only [.bar, .out] s u))

/-- The host port (spec/11_host_interface_and_command_tape.md R350 to R357, spec/14_reset_bringup_selftest.md R455; the
readiness of configuration space before one second is a free value: log entry 5; the places of the fields are those of PCIe 5.0
and CXL 2.0: log entry 16). -/
def Obligations.TheHostPortSettlesAndAnswers : Prop :=
  -- the link
  (∀ (cxl : Bool) (speed width : Nat) (s : State), s.cxl.perst = false → s.cxl.released = true →
    (s.cxl.mode = 0 → 1 ≤ speed → speed ≤ 5 → width ∈ [1, 2, 4, 8, 12, 16] → ∃ u, exec (.linkModeSettle cxl speed width) s = .next u ∧ Only [.cxl] s u
      ∧ u.linkMode = (if cxl && !s.th.pcieOnly then 1 else 2) ∧ u.cxl.speed = speed ∧ u.cxl.width = width
      ∧ u.cxl.hostBias = s.cxl.hostBias ∧ u.cxl.hdm = s.cxl.hdm ∧ u.cxl.reqs = s.cxl.reqs)
    ∧ (s.cxl.mode ≠ 0 → exec .cxlLinkUp s = .next { s with cxl := { s.cxl with linkUp := true } }
      ∧ exec (.linkModeSettle cxl speed width) s = .next s))
  -- configuration space
  ∧ (∀ (off : Nat) (v : W32) (prot : Bool) (s : State), s.cxl.linkUp = true → s.ideTakes 0 prot = true → off % 4 = 0 → off < 0x1000 →
    (s.cxl.configReady = true ∨ s.cxl.perstAt + 100000000 ≤ s.now →
      let t : State := { s with cxl := { s.cxl with configReady := true } }
      let stored : State := { t with cxl := { t.cxl with cfg := kvSet s.cxl.cfg off v.toNat } }
      (∀ w, t.cfgDword off = some w → exec (.configAccess false ⟨off, prot⟩ v) s = .next (t.emit (.cfgRead off (w % 2 ^ 32))))
      ∧ (t.cfgDword off = none → ∃ x : W32,
          let kept := if off = 0x44 then some (kvGet 0 s.cxl.cfg off) else kvGet? s.cxl.cfg off
          let w := (kept.map fun k => overlay x.toNat (cfgWritable off) (Nat.land k (cfgWritable off))).getD x.toNat
          exec (.configAccess false ⟨off, prot⟩ v) s
            = .next { t.emit (.cfgRead off (overlay w (t.cfgFixed off).1 (t.cfgFixed off).2)) with free := s.free + 1 })
      ∧ (off ≠ 0x50 → off ≠ 0x44 → exec (.configAccess true ⟨off, prot⟩ v) s = .next (stored.emit (.completion 0)))
      ∧ (off = 0x44 → (v.toNat % 4 = 0 ∨ v.toNat % 4 = 3) → exec (.configAccess true ⟨off, prot⟩ v) s = .next (stored.emit (.completion 0)))
      ∧ (off = 0x44 → (v.toNat % 4 = 1 ∨ v.toNat % 4 = 2) → exec (.configAccess true ⟨off, prot⟩ v) s = .next (t.emit (.completion 0)))
      ∧ (off = 0x50 → exec (.configAccess true ⟨off, prot⟩ v) s = .next ((t.msixControl v.toNat).emit (.completion 0))))
    ∧ (∀ write, ∃ u, exec (.configAccess write ⟨off, prot⟩ v) s = .next u
      ∧ (u.cxl.configReady = true ∨ (u.out = s.out ++ [.completion 2] ∧ Only [.cxl, .free, .out] s u))))
  ∧ (∀ (write : Bool) (off : Nat) (v : W32) (s : State), s.ideTakes 0 false = false → exec (.configAccess write ⟨off, false⟩ v) s = .next s)
  ∧ (∀ s : State, s.cfgDword 0 = some (Config.vendorId.toNat + 0x23040000) ∧ s.cfgDword 8 = some 0x120000A1
    ∧ (s.cfgFixed 0x164).2 / 2 = s.get R.GC_STATE_MEM_READY ∧ (s.cfgFixed 0x174).2 / 2 = s.get R.GC_STATE_MEM_READY)
  -- decoders
  ∧ (∀ (d base size : Nat) (ways1 : Bool) (s : State), d < 2 → s.linkMode = 1 →
    ∃ u, exec (.hdmDecoderCommit d base size ways1) s = .next u ∧ Only [.cxl] s u
      ∧ kvGet? u.cxl.hdm d = some (base, size, s.decoderOk d base size ways1)
      ∧ (d ∈ u.cxl.hdmErr ↔ s.decoderOk d base size ways1 = false)
      ∧ u.cxl.hostBias = s.cxl.hostBias ∧ u.cxl.reqs = s.cxl.reqs ∧ u.linkMode = 1)
  ∧ (∀ (size : Nat) (s : State), (s.decoderOk 0 0 size true = true ↔ size % 0x10000000 = 0 ∧ size ≤ lpEnd)
    ∧ ∀ base ways1, s.decoderOk 0 base size ways1 = true → base = 0 ∧ ways1 = true)
  -- a snoop
  ∧ (∀ (a : Nat) (prot : Bool) (s : State), s.linkMode = 1 →
    exec (.hostSnoop ⟨a, prot⟩) s = .next (if s.ideTakes 1 prot then s.emit (.snoopMiss a) else s))
  -- the answer to a bias request
  ∧ (∀ (k : Nat) (b : BiasReq) (s : State), s.cxl.biasReqs[k]? = some b → s.safe = false →
    (s.cxl.biasReqs.take k).all (fun c => s.orderKey c.addr ≠ s.orderKey b.addr) = true →
    exec (.hostBiasAnswer k) s = .next ({ s with cxl := { s.cxl with biasReqs := s.cxl.biasReqs.eraseIdx k } }.serve b.seed b.req))
  -- answers to requests to host memory
  ∧ (∀ (k : Nat) (r : HostReq) (s : State), s.cxl.reqs[k]? = some r → s.cxl.linkUp = true →
    let t : State := { s with cxl := { s.cxl with reqs := s.cxl.reqs.eraseIdx k } }
    (∀ tl b i ep data, r.agent = .bob tl b i ep → exec (.hostResponse k (.ok data)) s
      = .next (t.respond 0xC30 (2 * tl + b) ep i 0 (if r.wr then [] else padTo r.len data)))
    ∧ (∀ tag ep data, r.agent = .cmd tag ep → (∃ q ∈ t.cxl.reqs, q.agent = r.agent) → exec (.hostResponse k (.ok data)) s = .next t)
    ∧ (∀ tag ep data, r.agent = .cmd tag ep → (∀ q ∈ t.cxl.reqs, q.agent ≠ r.agent) → exec (.hostResponse k (.ok data)) s
      = .next (t.reply tag ep 1 0 (t.resultOf tag ep)))
    ∧ exec (.hostResponse k .poisoned) s = .next (t.hostFail r Code.HOST_POISON 2)
    ∧ exec (.hostResponse k .unsupported) s = .next (t.hostFail r Code.HOST_UNREACH 1))
  ∧ (∀ (k : Nat) (r : HostReq) (s : State), s.cxl.reqs[k]? = some r → exec (.hostCompletionTimeout k) s
    = .next ({ s with cxl := { s.cxl with reqs := s.cxl.reqs.eraseIdx k } }.hostFail r Code.HOST_UNREACH 1))
  ∧ (∀ (r : HostReq) (code status : Nat) (s : State),
    (∀ tl b i ep, r.agent = .bob tl b i ep →
      s.hostFail r code status = (s.raise code 0xC30 0 0).respond 0xC30 (2 * tl + b) ep i status [])
    ∧ (∀ tag ep, r.agent = .cmd tag ep → ∃ t : State, Only [.cxl] s t
      ∧ (∀ q, q ∈ t.cxl.reqs ↔ q ∈ s.cxl.reqs ∧ q.agent ≠ r.agent)
      ∧ s.hostFail r code status = (t.raiseTied code 0xC30 0 (tagArg tag ep)).reply tag ep 3 code []))

/-- The tape unit: packets, commands and replies (spec/11_host_interface_and_command_tape.md R360 to R376). -/
def Obligations.TheTapeTakesPacketsAndWritesReplies : Prop :=
  let sound (s : State) (off n : Nat) : Prop := s.reach (s.tapeArea.1 + off) n = .ok
    ∧ ∀ g ∈ s.granules (s.tapeArea.1 + off) n, s.mem.poison.contains g = false
  -- a notice
  (∀ (off n : Nat) (e : Ecc) (s : State), s.tape.notices.contains (off, n) = true →
    let t : State := { s with tape := { s.tape with notices := s.tape.notices.erase (off, n) } }
    (s.takesPackets = true → exec (.tapeNotice off n e) s = .next (t.examine off n e))
    ∧ (s.takesPackets = false → exec (.tapeNotice off n e) s = .next { t with tape := { t.tape with kept := true } }))
  ∧ (∀ (off n : Nat) (e : Ecc) (s : State), s.reach (s.tapeArea.1 + s.tapePos) 32 ≠ .ok → overlaps off n s.tapePos 32 = true →
    s.examine off n e = (s.reachFault 0xC34 0 (s.tapeArea.1 + s.tapePos) 32).stopTape)
  -- a read of sound data is looked up in the lining cache and changes no data
  ∧ (∀ (off n : Nat) (s : State), sound s off n → s.mem.errs = [] →
    let c := s.load (s.tapeArea.1 + off) n false .ok
    c.2 = none ∧ Only [.bar, .mem] s c.1 ∧ c.1.mem.data = s.mem.data ∧ c.1.mem.poison = s.mem.poison ∧ c.1.tapePos = s.tapePos)
  ∧ (∀ (off n : Nat) (s : State), sound s s.tapePos 32 → s.mem.errs = [] →
    let b := s.rdN (s.tapeArea.1 + s.tapePos) 32
    let p := s.rdN (s.tapeArea.1 + s.tapePos + 32) (parsePkt b).plen
    let h := parsePkt b
    let t := (s.load (s.tapeArea.1 + s.tapePos) 32 false .ok).1
    let v := if h.plen = 0 then t else (t.load (s.tapeArea.1 + s.tapePos + 32) h.plen false .ok).1
    (h.magic ≠ 0x45504154 ∨ s.seqDue h.seq = false → s.examine off n .ok = t)
    ∧ (h.magic = 0x45504154 → s.seqDue h.seq = true → overlaps off n s.tapePos 32 = true →
      (h.seq ≠ s.get R.TP_STATUS_NEXT_SEQ → s.examine off n .ok = (t.raise Code.TAPE_SEQ 0xC34 0 0).stopTape)
      ∧ (h.seq = s.get R.TP_STATUS_NEXT_SEQ → 4064 < h.plen → s.examine off n .ok = t.tornPacket)
      ∧ (h.seq = s.get R.TP_STATUS_NEXT_SEQ → h.plen ≤ 4064 → h.plen = 0 ∨ sound s (s.tapePos + 32) h.plen →
        s.examine off n .ok = if crc32 (b.take 28 ++ p) = h.crc then v.takePacket h p else v.tornPacket)))
  ∧ (∀ s : State, let u := s.tornPacket
    u.tape = { s.tape with torn := true } ∧ OnlyFields [R.TORN_SEEN] s u ∧ Only [.bar, .tape] s u)
  ∧ (∀ s : State, let u := s.stopTape
    u.get R.TP_STATUS_STATE = 2 ∧ u.tape.torn = false ∧ Only [.bar, .tape, .out] s u ∧ OnlyFields [R.TP_STATUS_STATE] s u)
  ∧ (∀ s : State, s.tape.torn = true → s.takesPackets = true →
    exec .tornTimeout s = .next (s.raise Code.TAPE_TORN 0xC34 0 0).stopTape)
  -- a packet consumed
  ∧ (∀ (h : Pkt) (p : List Byte) (s : State), ∃ t u : State, Only [.bar, .tape] s t ∧ t.tape = { s.tape with torn := false }
    ∧ OnlyFields [R.PACKETS] s t ∧ u = t.acceptPacket h p ∧ s.takePacket h p
      = u.setAll [(R.TP_STATUS_POS, (if s.tapeArea.2 < s.tapePos + 64 * ceilDiv (32 + h.plen) 64 + 4096 then 0
            else s.tapePos + 64 * ceilDiv (32 + h.plen) 64) / 64),
          (R.TP_STATUS_NEXT_SEQ, (u.get R.TP_STATUS_NEXT_SEQ + 1) % 2 ^ 32)])
  ∧ (∀ (h : Pkt) (p : List Byte) (s : State),
    let busy : Prop := ∃ c ∈ s.tape.cmds, c.gone = false ∧ c.tag = h.tag ∧ c.epoch = h.epoch
    (∀ code, s.packetFault h = some code → s.acceptPacket h p = s.refusePacket h code)
    ∧ (s.packetFault h = none → busy → s.acceptPacket h p = s.refusePacket h Code.TAPE_TAG_BUSY)
    ∧ (s.packetFault h = none → ¬ busy → kvGet? s.tape.lastEpoch h.tag = some h.epoch →
      s.acceptPacket h p = s.bump R.STALE_TAG 1)
    ∧ (s.packetFault h = none → ¬ busy → kvGet? s.tape.lastEpoch h.tag ≠ some h.epoch →
      (∀ code, paramFault h.opcode p = some code → s.acceptPacket h p = s.refusePacket h code)
      ∧ (paramFault h.opcode p = none → ∃ c : Cmd, s.acceptPacket h p = { s with tape := { s.tape with cmds := s.tape.cmds ++ [c] } }
        ∧ c.tag = h.tag ∧ c.epoch = h.epoch ∧ c.opcode = h.opcode ∧ c.seq = h.seq ∧ c.params = p ∧ c.started = false
        ∧ c.taken = false ∧ c.replied = false ∧ c.gone = false ∧ c.fence = bit h.flags 0 ∧ c.notify = bit h.flags 1)))
  -- the start of a command
  ∧ (∀ (tag : Nat) (before : List Cmd) (c : Cmd) (s : State), s.safe = false → splitCmd tag s.tape.cmds = some (before, c) →
    (s.mayStart before c = true → exec (.commandStart tag) s = .next { s with tape := { s.tape with
      cmds := s.tape.cmds.map fun d => if d = c then { d with started := true } else d } })
    ∧ (s.mayStart before c = false → exec (.commandStart tag) s = .next s)
    ∧ ((∀ d ∈ before, cmdUnit d.opcode ≠ cmdUnit c.opcode ∨ s.begun d = true) → c.fence = false →
      (cmdUnit c.opcode = 5 → s.th.restarting = false) → s.mayStart before c = true)
    ∧ (c.fence = true → (∃ d ∈ before, d.gone = false) → s.mayStart before c = false))
  -- replies
  ∧ (∀ (h : W32) (r : Reply) (rest : List Reply) (s : State), s.flag R.TP_CFG_EN = true → s.cxl.linkUp = true →
    s.tape.replies = r :: rest →
    (s.replySpace h.toNat = true → exec (.replyWrite h) s = .next ((s.writeReply r rest).noteWait h.toNat).resumeTape)
    ∧ (s.replySpace h.toNat = false → exec (.replyWrite h) s = .next (s.noteWait h.toNat)
      ∧ (s.noteWait h.toNat).tape.waiting = true)
    ∧ (s.tape.waiting = true → ∃ u, exec (.replySpacePoll h) s = .next u ∧ u = { s.noteWait h.toNat with out := u.out }
      ∧ u.out = s.out ++ [.busRead (s.get R.TP_REPLY_RBASE * 64) 64 (busLines s.cxl.mode false (s.get R.TP_REPLY_RBASE * 64) 64)]))
  ∧ (∀ (r : Reply) (rest : List Reply) (s : State),
    let n := s.get R.TP_RSEQ_RSEQ
    let u := s.writeReply r rest
    u.host = memWriteN s.host (s.get R.TP_REPLY_RBASE * 64 + 64 * (1 + n % (s.get R.TP_RSIZE_RSIZE - 1))) (replyRecord n r)
    ∧ u.get R.TP_RSEQ_RSEQ = (n + 1) % 2 ^ 32 ∧ u.tape.replies = rest ∧ Only [.bar, .tape, .host, .out] s u
    ∧ OnlyFields [R.TP_RSEQ_RSEQ, R.REPLIES] s u
    ∧ (r.live = true → (∀ c, c ∈ u.tape.cmds ↔ c ∈ s.tape.cmds ∧ ¬ (c.gone = false ∧ c.tag = r.tag ∧ c.epoch = r.epoch))
      ∧ kvGet? u.tape.lastEpoch r.tag = some r.epoch)
    ∧ (r.live = false → u.tape.cmds = s.tape.cmds ∧ u.tape.lastEpoch = s.tape.lastEpoch))
  ∧ (∀ s : State, s.tape.kept = false → s.resumeTape = s)
  ∧ (∀ s : State, s.flag R.TP_CFG_EN = true → s.tape.waiting = true → s.tape.episode = false →
    let t := s.raise Code.TAPE_REPLY_DEADLINE 0xC34 0 0
    exec .tapeReplyDeadline s = .next ({ t with tape := { t.tape with episode := true } }.vector 3))

/-- The commands of the tape unit (spec/11_host_interface_and_command_tape.md Table 11.8, R355 to R375; host data that a
debug read takes from the host range are free values: log entry 5). -/
def Obligations.TheTapeUnitsOwnCommandsAct : Prop :=
  (∀ (tag : Nat) (c : Cmd) (s : State), s.safe = false →
    let t := s.takeCmd c
    -- NOP
    (s.cmdFor tag Op.NOP = some c → exec (.tapeNop tag) s = .next (t.reply c.tag c.epoch 1 0 []))
    -- NEGOTIATE
    ∧ (s.cmdFor tag Op.NEGOTIATE = some c →
      let i := c.p 0 1
      let v := settleVer (oneMajor 1 0) (slice c.params 8 16)
      (i ≠ 0 → t.plState ≠ 0 → exec (.negotiate tag) s = .next (t.refuseTag c Code.TAPE_STATE 0))
      ∧ (i = 0 ∨ t.plState = 0 → v = none → exec (.negotiate tag) s = .next (t.refuseTag c Code.TAPE_VERSION 0))
      ∧ (∀ ma mi, i = 0 ∨ t.plState = 0 → v = some (ma, mi) → ∃ u, exec (.negotiate tag) s
          = .next (u.reply c.tag c.epoch 1 0 (leBytes 1 ma ++ leBytes 1 mi)) ∧ Only [.bar] t u
        ∧ (i = 0 → u.get R.TP_VERSION_MAJOR = ma ∧ u.get R.TP_VERSION_MINOR = mi ∧ OnlyFields [R.TP_VERSION_MAJOR, R.TP_VERSION_MINOR] t u)
        ∧ (i = 1 → u.get R.PL_VERSION_MAJOR = ma ∧ u.get R.PL_VERSION_MINOR = mi ∧ OnlyFields [R.PL_VERSION_MAJOR, R.PL_VERSION_MINOR] t u)
        ∧ (2 ≤ i → u.get R.TP_VERSION_BOB_MAJOR = ma ∧ u.get R.TP_VERSION_BOB_MINOR = mi
            ∧ OnlyFields [R.TP_VERSION_BOB_MAJOR, R.TP_VERSION_BOB_MINOR] t u)))
    -- CANCEL
    ∧ (s.cmdFor tag Op.CANCEL = some c →
      (t.tape.find (c.p 0 2) (c.p 2 1) = none → exec (.cancel tag) s = .next (t.reply c.tag c.epoch 1 0 [1]))
      ∧ (∀ d, t.tape.find (c.p 0 2) (c.p 2 1) = some d →
        exec (.cancel tag) s = .next ((t.cancelCmd d).1.reply c.tag c.epoch 1 0 [if (t.cancelCmd d).2 then 0 else 1])))
    -- BIAS
    ∧ (s.cmdFor tag Op.BIAS = some c →
      let pages := pagesOf (c.p 0 8) (c.p 8 4)
      (c.p 12 1 = 0 → s.linkMode = 1 → s.pagesBusy pages = true → exec (.bias tag) s = .next s)
      ∧ (s.cxl.mode = 2 → exec (.bias tag) s = .next (t.refuseTag c Code.TAPE_STATE 0))
      ∧ (s.cxl.mode ≠ 2 → c.p 12 1 ≠ 0 ∨ s.pagesBusy pages = false → ∃ u, exec (.bias tag) s = .next (u.reply c.tag c.epoch 1 0 [])
        ∧ Only [.cxl] t u ∧ u.cxl = { s.cxl with hostBias := u.cxl.hostBias }
        ∧ ∀ q, q ∈ u.cxl.hostBias ↔ (q ∈ s.cxl.hostBias ∧ q ∉ pages) ∨ (c.p 12 1 = 0 ∧ q ∈ pages)))
    -- DBG_READ
    ∧ (s.cmdFor tag Op.DBG_READ = some c →
      let n := c.p 4 4
      let a := c.p 8 8
      let host := c.p 16 8
      (∀ e, n = 0 → exec (.dbgRead tag e) s = .next (t.reply c.tag c.epoch 1 0 []))
      ∧ (∀ e, n ≠ 0 → c.p 0 1 = 1 → exec (.dbgRead tag e) s
          = .next ((t.cfgWords (c.p 2 2) a (n / 4)).1.cmdToHost c host (t.cfgWords (c.p 2 2) a (n / 4)).2 []))
      ∧ (∀ e, n ≠ 0 → c.p 0 1 ≠ 1 → inSpadWin a n = true → t.debugOk = false →
          exec (.dbgRead tag e) s = .next (t.refuseTag c Code.TAPE_DEBUG_LOCKED 0))
      ∧ (∀ e, n ≠ 0 → c.p 0 1 ≠ 1 → allSpadWin a n = true → t.debugOk = true →
          exec (.dbgRead tag e) s = .next (t.cmdToHost c host (t.spadWinRead a n) []))
      ∧ (∀ e, n ≠ 0 → c.p 0 1 ≠ 1 → inSpadWin a n = false → t.inHost a n = true → ∃ b, b.length = n ∧
          exec (.dbgRead tag e) s = .next ({ t with free := t.free + n }.cmdToHost c host b []))
      ∧ (∀ e, n ≠ 0 → c.p 0 1 ≠ 1 → inSpadWin a n = false → t.inHost a n = false →
          let r := t.dbgFetch (t.dbgRuns a n (n + 1)) e
          (∀ b, r.2 = .inr b → exec (.dbgRead tag e) s = .next (r.1.cmdToHost c host b []))
          ∧ (∀ code, r.2 = .inl code → exec (.dbgRead tag e) s = .next (r.1.reply c.tag c.epoch 3 code []))))
    -- DBG_WRITE
    ∧ (s.cmdFor tag Op.DBG_WRITE = some c →
      let n := c.p 4 4
      let a := c.p 8 8
      (∀ data, n = 0 → exec (.dbgWrite tag data) s = .next (t.reply c.tag c.epoch 1 0 []))
      ∧ (∀ data, n ≠ 0 → t.debugOk = false → exec (.dbgWrite tag data) s = .next (t.refuseTag c Code.TAPE_DEBUG_LOCKED 0))
      ∧ (∀ data, n ≠ 0 → t.debugOk = true → t.cxl.linkUp = false →
          exec (.dbgWrite tag data) s = .next (t.abortCmd c.tag c.epoch Code.HOST_UNREACH))
      ∧ (∀ data, n ≠ 0 → t.debugOk = true → t.cxl.linkUp = true →
        let b := padTo n data
        (c.p 0 1 = 1 → exec (.dbgWrite tag data) s = .next ((t.cfgPuts (c.p 2 2) a (bytesWords b)).reply c.tag c.epoch 1 0 []))
        ∧ (c.p 0 1 ≠ 1 → allSpadWin a n = true → exec (.dbgWrite tag data) s = .next ((t.spadWinWrite a b).reply c.tag c.epoch 1 0 []))
        ∧ (c.p 0 1 ≠ 1 → allSpadWin a n = false → t.inHost a n = true →
            exec (.dbgWrite tag data) s = .next (t.cmdToHost c (t.hostPhys a) b []))
        ∧ (c.p 0 1 ≠ 1 → allSpadWin a n = false → t.inHost a n = false →
          let r := t.dbgStore a b (t.dbgRuns a n (n + 1))
          (r.2 = none → exec (.dbgWrite tag data) s = .next (r.1.reply c.tag c.epoch 1 0 []))
          ∧ (∀ code, r.2 = some code → exec (.dbgWrite tag data) s = .next (r.1.reply c.tag c.epoch 3 code []))))))
  -- what a cancel does to the command that it names
  ∧ (∀ (d : Cmd) (s : State), let l := s.loader
    (s.begun d = false ∨ (d.opcode = Op.PATTERN_LOAD ∧ d.taken = false) → ∃ u, s.cancelCmd d = (u.reply d.tag d.epoch 4 0 [], true)
      ∧ Only [.press] s u ∧ (u.press.deferred = some (d.tag, d.epoch) → False))
    ∧ (s.begun d = true → d.opcode = Op.PATTERN_LOAD → d.taken = true → l.live = true → l.tag = d.tag → l.epoch = d.epoch →
      l.goSent = false → l.discarding = false → s.cancelCmd d = (s.cancelLoad, true))
    ∧ (s.begun d = true → d.opcode ≠ Op.PATTERN_LOAD → s.cancelCmd d = (s, false)))
  -- memory through a single run, and what a command sends to the host
  ∧ (∀ (a : Nat) (b : List Byte) (s : State), spadBase ≤ a → a + b.length ≤ spadEnd →
    (s.spadWinWrite a b).spadWinRead a b.length = b)
  ∧ (∀ (c : Cmd) (a : Nat) (b res : List Byte) (s : State),
    (s.cxl.linkUp = false → s.cmdToHost c a b res = s.abortCmd c.tag c.epoch Code.HOST_UNREACH)
    ∧ (s.cxl.linkUp = true → ∃ u, s.cmdToHost c a b res = u ∧ Only [.tape, .host, .cxl, .out] s u ∧ u.host = memWriteN s.host a b
      ∧ u.cxl.reqs = s.cxl.reqs ++ [⟨.cmd c.tag c.epoch, true, a, b.length⟩] ∧ u.out = s.out ++ [.busWrite a b (busLines s.cxl.mode true a b.length)]))

/-- Thimble's tape commands (spec/12_thimble_management_security.md Table 12.10, R404, R406, R409; the first number of an
empty read is a free value: log entry 22). -/
def Obligations.ThimbleServesTapeCommands : Prop :=
  (∀ (tag : Nat) (c : Cmd) (s : State), s.safe = false → s.fwServes = true →
    let t := s.takeCmd c
    (s.cmdFor tag Op.TH_NEGOTIATE = some c →
      let v := settleVer (oneMajor s.th.imgMajor s.th.imgMinor) (slice c.params 8 16)
      (v = none → exec (.thNegotiate tag) s = .next (t.refuseTag c Code.TAPE_VERSION 0))
      ∧ (∀ ma mi, v = some (ma, mi) → ∃ u, exec (.thNegotiate tag) s = .next (u.reply c.tag c.epoch 1 0 (leBytes 1 ma ++ leBytes 1 mi))
        ∧ Only [.bar] t u ∧ OnlyFields [R.TH_VERSION_IF_MAJOR, R.TH_VERSION_IF_MINOR] t u
        ∧ u.get R.TH_VERSION_IF_MAJOR = ma % 256 ∧ u.get R.TH_VERSION_IF_MINOR = mi % 256))
    ∧ (s.cmdFor tag Op.SENSOR_READ = some c → exec (.sensorRead tag) s = .next (t.reply c.tag c.epoch 1 0
        ((List.range (c.p 2 2)).flatMap fun k => leBytes 4 (s.sensorWord (c.p 0 2 + k)))))
    ∧ (s.cmdFor tag Op.LOG_READ = some c →
      let l := s.logFrom (c.p 0 4) (c.p 4 4)
      (l = [] → ∃ first, first.length = 4 ∧ exec (.logRead tag) s
        = .next ({ t with free := t.free + 4 }.reply c.tag c.epoch 1 0 (first ++ leBytes 4 0 ++ leBytes 4 (c.p 0 4))))
      ∧ (∀ e r, l = e :: r → exec (.logRead tag) s = .next (t.cmdToHost c (c.p 8 8) (l.flatMap Prod.snd)
          (leBytes 4 e.1 ++ leBytes 4 l.length ++ leBytes 4 ((e.1 + l.length) % 2 ^ 32)))))
    ∧ (s.cmdFor tag Op.LOG_CLEAR = some c → ∃ u : State, exec (.logClear tag) s = .next (u.reply c.tag c.epoch 1 0 (leBytes 4 u.th.oldest))
      ∧ u = { t with th := { s.th with log := u.th.log } }
      ∧ ∃ k, u.th.log = s.th.log.drop (126 * k) ∧ 126 * k ≤ s.th.log.length
        ∧ ∀ e ∈ s.th.log.take (126 * k), serialLater 32 (c.p 0 4) e.1 = true)
    ∧ (s.cmdFor tag Op.IDENTITY = some c → exec (.identity tag) s = .next (t.reply c.tag c.epoch 1 0
        (leBytes 8 Config.serial.toNat ++ leBytes 2 (s.get R.GC_REV_STEP_LETTER * 256 + s.get R.GC_REV_STEP_NUM)
          ++ leBytes 1 (s.get R.TH_VERSION_IF_MAJOR) ++ leBytes 1 (s.get R.TH_VERSION_IF_MINOR) ++ leBytes 4 s.th.fwVersion
          ++ leBytes 1 (s.get R.TH_VERSION_FW_SVN) ++ leBytes 1 (s.get R.RST_OPT_KEY_INDEX) ++ leBytes 1 s.th.debug
          ++ leBytes 1 (s.get R.TH_STATUS_BOOT))))
    ∧ (s.cmdFor tag Op.MEASURE = some c →
      let b := s.measBlocks (c.p 8 1)
      exec (.measure tag) s = .next (t.cmdToHost c (c.p 0 8) b (leBytes 4 b.length ++ sha256 b))))
  -- while Thimble restarts
  ∧ (∀ (tag : Nat) (s : State), s.fwServes = false →
    ∀ i ∈ [Instr.thNegotiate tag, .sensorRead tag, .logRead tag, .logClear tag, .identity tag, .measure tag], exec i s = .next s)
  ∧ (∀ (tag : Nat) (c : Cmd) (s : State), s.th.restarting = true →
    (s.tape.cmds.find? fun c => c.tag = tag && cmdUnit c.opcode = 5 && !c.started && !c.gone && !c.replied) = some c →
    exec (.thCommandTimeout tag) s = .next (s.reply c.tag c.epoch 3 Code.TH_WDOG []))

/-- The orderly shutdown (spec/14_reset_bringup_selftest.md R457 to R459, Table 14.9). That the steps advance on idle
ticks, and that a deadline zeroes the counts of `FT_STATUS`, are the model's choices (log entry 1). -/
def Obligations.ShutdownRunsInOrder : Prop :=
  -- the command
  (∀ (tag : Nat) (c : Cmd) (s : State), s.safe = false → s.fwServes = true → s.rst.seq = .none → s.cmdFor tag Op.SHUTDOWN = some c →
    let begun (test : Bool) : State := ({ s.takeCmd c with
      rst := { s.rst with seq := .shutdown test c.tag c.epoch, shut := 0 }, unpick := { s.unpick with stopped := true } } : State)
    (c.p 0 1 = 0 → exec (.shutdownWithTest tag) s = .next (begun true).advanceShutdown ∧ exec (.shutdownWithoutTest tag) s = .next s)
    ∧ (c.p 0 1 = 1 → exec (.shutdownWithoutTest tag) s = .next (begun false).advanceShutdown ∧ exec (.shutdownWithTest tag) s = .next s))
  -- its steps
  ∧ (∀ (test : Bool) (tag ep : Nat) (s : State), s.rst.seq = .shutdown test tag ep →
    (s.rst.shut = 0 → s.stepOpen = true → s.verdictSent = false → s.advanceShutdown = s.abandonStep 0)
    ∧ (s.rst.shut = 0 → s.stepOpen = true → s.verdictSent = true → s.advanceShutdown = s)
    ∧ (s.rst.shut = 0 → s.phase = 0 → ∃ u, s.advanceShutdown = u ∧ u.rst.shut = 1 ∧ (s.drain ≠ 2 → u.drain = 2 ∧ u.unpick.flushed = true))
    ∧ (s.rst.shut = 1 → s.drain ≠ 3 → s.advanceShutdown = s)
    ∧ (s.rst.shut = 1 → s.drain = 3 → test = true → ∃ u, s.advanceShutdown = u ∧ u.rst.testing = true ∧ u.rst.shut = 2
      ∧ u.get R.GC_STATE_MEM_READY = 0 ∧ ∀ p, p < 8 → u.link p = 0)
    ∧ (s.rst.shut = 1 → s.drain = 3 → test = false → s.advanceShutdown = s.linksOff.shutReply tag ep
      ∧ ∀ p, p < 8 → s.linksOff.link p = 0)
    ∧ (s.rst.shut = 3 → (∀ c ∈ s.tape.cmds, c.gone = true ∨ ¬ (c.tag = tag ∧ c.epoch = ep)) → s.advanceShutdown = s.removeRails)
    ∧ (s.rst.shut = 3 → (∃ c ∈ s.tape.cmds, c.gone = false ∧ c.tag = tag ∧ c.epoch = ep) → s.advanceShutdown = s))
  ∧ (∀ s : State, s.pending = [] → step s = .next s.tick
    ∧ let x := ({ s with now := s.now + 1 } : State).runPauses.advanceShutdown
      s.tick = if x.rst.fwRunning then x.cycleCounters else x)
  -- the finishing test
  ∧ (∀ (found : List RepRec) (analog tag ep : Nat) (test : Bool) (s : State), s.rst.seq = .shutdown test tag ep → s.rst.testing = true →
    ∃ t u : State, exec (.finishingTestDone found analog) s = .next (u.shutReply tag ep)
      ∧ t = (List.range 5).foldl (fun s k => if bit (analog % 32) k then s.raise Code.RST_FT_ANALOG 0xC65 0 0 else s)
          ((found.filter fun r => inRange 1 6 r.kind || r.kind = 0x10).foldl State.addFound s)
      ∧ Only [.bar] t u ∧ u.get R.FT_STATUS_RAN = 1 ∧ u.get R.FT_STATUS_TIMEOUT = 0 ∧ u.get R.FT_STATUS_ANALOG = analog % 32
      ∧ (u.get R.FT_STATUS_PASS = 1 ↔ analog % 32 = 0 ∧ ∀ r ∈ found, inRange 1 6 r.kind = false ∧ r.kind ≠ 0x10))
  ∧ (∀ (tag ep : Nat) (test : Bool) (s : State), s.rst.seq = .shutdown test tag ep → s.rst.testing = true →
    ∃ u : State, exec .rstFtDeadline s = .next (u.shutReply tag ep) ∧ Only [.bar] (s.raise Code.RST_FT_DEADLINE 0xC65 0 0) u
      ∧ u.get R.FT_STATUS_RAN = 1 ∧ u.get R.FT_STATUS_TIMEOUT = 1 ∧ u.get R.FT_STATUS_PASS = 0)
  ∧ (∀ (tag ep : Nat) (s : State), s.shutReply tag ep
    = ({ s with rst := { s.rst with testing := false, shut := 3 } } : State).reply tag ep 1 0 [])

/-- PLDM base and monitoring, and MCTP control (spec/12_thimble_management_security.md R389 to R403; contents that the DMTF
standards lay down: log entry 17). -/
def Obligations.ManagementBasicsAreAnswered : Prop :=
  -- what is served
  (∀ (v : MVia) (s : State),
    (s.get R.TH_STATUS_BOOT = 2 → (∀ rec, s.serves? v rec = true ↔ rec = true ∧ v.vdm = false ∧ v.sess = none))
    ∧ (s.get R.TH_STATUS_BOOT ≠ 2 → ∀ rec, s.serves? v rec = true ↔ s.rst.fwRunning = true ∧ s.th.restarting = false
        ∧ (v.vdm = true → s.cxl.linkUp = true) ∧ ∀ id, v.sess = some id → ⟨id, true⟩ ∈ s.th.sessions))
  -- messages of the firmware alone
  ∧ (∀ (v : MVia) (s : State), s.serves? v false = true →
    exec (.getPldmVersion v) s = .next (s.msgAnswer [1, 1])
    ∧ exec (.getPldmTypes v) s = .next (s.msgAnswer [0x25, 0, 0, 0, 0, 0, 0, 0])
    ∧ (∀ ty l, pldmCommands ty = some l → exec (.getPldmCommands v ty) s = .next (s.msgAnswer (codeMask l)))
    ∧ (∀ ty, pldmCommands ty = none → exec (.getPldmCommands v ty) s = .next s.refuseMgmt)
    ∧ exec (.getPdrRepositoryInfo v) s = .next (s.msgAnswer [139, 0, 0, 0])
    ∧ (∀ k, k < 139 → exec (.getPdr v (k + 1)) s = .next (s.msgAnswer (leBytes 2 (k + 1) ++ leBytes 1 (sensorUnit k)
        ++ (s.thresholds k).flatMap fun t => leBytes 3 (sensorValue t))))
    ∧ (∀ k, k < 139 → exec (.getSensorReading v (k + 1)) s = .next (s.msgAnswer (leBytes 1 (if k ∈ s.th.sensorOff then 1
        else if s.get (R.TH_SENSOR_VALID k) = 1 then 0 else 2) ++ leBytes 3 (s.get (R.TH_SENSOR_VALUE k)))))
    ∧ (∀ id, id = 0 ∨ 139 < id → exec (.getPdr v id) s = .next s.refuseMgmt ∧ exec (.getSensorReading v id) s = .next s.refuseMgmt
        ∧ ∀ op, exec (.setNumericSensorEnable v id op) s = .next s.refuseMgmt)
    ∧ (∀ k op, k < 139 → op ≤ 1 → ∃ u : State, exec (.setNumericSensorEnable v (k + 1) op) s = .next (u.msgAnswer [])
        ∧ u = { s with th := { s.th with sensorOff := u.th.sensorOff } } ∧ (k ∈ u.th.sensorOff ↔ op = 1)
        ∧ ∀ j, j ≠ k → (j ∈ u.th.sensorOff ↔ j ∈ s.th.sensorOff))
    ∧ (∀ eid, exec (.setEventReceiver v true eid) s
          = .next (({ s with th := { s.th with receiver := some (v.vdm, eid) } } : State).msgAnswer [])
        ∧ exec (.setEventReceiver v false eid) s = .next (({ s with th := { s.th with receiver := none } } : State).msgAnswer [])))
  -- messages of the firmware and of ROM recovery
  ∧ (∀ (v : MVia) (s : State), s.serves? v true = true →
    (∃ b, b.length = 1 ∧ exec (.getTid v) s = .next (({ s with free := s.free + 1 } : State).msgAnswer b))
    ∧ (∀ eid, 1 ≤ eid → eid ≤ 254 →
        exec (.setEndpointId v eid) s = .next (({ s with th := { s.th with eid := eid } } : State).msgAnswer (leBytes 1 eid)))
    ∧ (∀ eid, eid = 0 ∨ 255 ≤ eid → exec (.setEndpointId v eid) s = .next s.refuseMgmt)
    ∧ exec (.getEndpointId v) s = .next (s.msgAnswer (leBytes 1 s.th.eid))
    ∧ exec (.getMctpVersionSupport v) s = .next (s.msgAnswer [1, 3])
    ∧ exec (.getMessageTypeSupport v) s = .next (s.msgAnswer [1, 5, 6]))
  -- messages that are not served
  ∧ (∀ (v : MVia) (k op : Nat) (en : Bool) (s : State), s.serves? v true = false →
    ∀ i ∈ [Instr.getTid v, .getPldmVersion v, .getPldmTypes v, .getPldmCommands v k, .getPdrRepositoryInfo v, .getPdr v k,
      .getSensorReading v k, .setNumericSensorEnable v k op, .setEventReceiver v en k, .setEndpointId v k, .getEndpointId v,
      .getMctpVersionSupport v, .getMessageTypeSupport v], exec i s = .next s)
  -- the alert
  ∧ (∀ s : State, s.pins.vaux = true → s.th.alert = true →
    exec .smbusAlertResponse s = .next { s with th := { s.th with alert := false } })

/-- PLDM firmware update (spec/12_thimble_management_security.md R390 to R392; contents that the DMTF standards lay down: log
entry 17). -/
def Obligations.FirmwareUpdatesAreCheckedAndKept : Prop :=
  (∀ (v : MVia) (s : State), s.serves? v true = true →
    let ph := s.th.upd.phase
    -- identity
    exec (.queryDeviceIdentifiers v) s = .next (s.msgAnswer (leBytes 2 Config.vendorId.toNat ++ leBytes 2 (s.get R.GC_ID_DEVICE)))
    ∧ (s.rst.fwRunning = true → exec (.getFirmwareParameters v) s = .next (s.msgAnswer (leBytes 2 0x000A ++ leBytes 2 0x0001
        ++ leBytes 4 s.th.fwVersion ++ leBytes 1 (s.get R.TH_STATUS_ACT_PEND))))
    -- opening
    ∧ (∀ n, ph = .idle → (s.rst.fwRunning = true → s.get R.RST_OPT_UPDATE_AUTH = 1 → v.sess ≠ none) →
      ∃ u : State, exec (.requestUpdate v n) s = .next (u.msgAnswer []) ∧ Only [.th, .bar] s u
        ∧ u.th = { s.th with upd := { vdm := v.vdm, phase := .requested, maxXfer := n } } ∧ u.get R.TH_STATUS_UPDATE = 1
        ∧ OnlyFields [R.TH_STATUS_UPDATE] s u)
    ∧ (∀ n, ph ≠ .idle ∨ (s.rst.fwRunning = true ∧ s.get R.RST_OPT_UPDATE_AUTH = 1 ∧ v.sess = none) →
      exec (.requestUpdate v n) s = .next s.refuseMgmt)
    ∧ (∀ c id, exec (.passComponentTable v c id) s
        = .next (if ph = .requested ∧ c = 0x000A ∧ id = 1 then s.msgAnswer [] else s.refuseMgmt))
    ∧ (∀ size, ph = .requested → ∃ u : State, exec (.updateComponent v 0x000A 1 size) s = .next (u.msgAnswer []).askData
        ∧ u = { s with th := { s.th with upd := u.th.upd } } ∧ u.th.upd.phase = .receiving ∧ u.th.upd.size = size
        ∧ u.th.upd.written = 0 ∧ u.th.upd.passed = false ∧ u.th.upd.maxXfer = s.th.upd.maxXfer)
    ∧ (∀ c id size, ph ≠ .requested ∨ c ≠ 0x000A ∨ id ≠ 1 → exec (.updateComponent v c id size) s = .next s.refuseMgmt)
    -- data
    ∧ (∀ off data, ph = .receiving → off = s.th.upd.written → data.length = s.th.upd.nextLen → data ≠ [] →
      let u := if s.rst.fwRunning then s.updateData data else s.recoverData data
      exec (.firmwareData v off data) s = .next (if u.th.upd.phase = .receiving then u.askData else u))
    ∧ (∀ off data, ph ≠ .receiving ∨ off ≠ s.th.upd.written ∨ data.length ≠ s.th.upd.nextLen →
      exec (.firmwareData v off data) s = .next s)
    -- the end of the transfer, and the check
    ∧ (exec (.transferComplete v) s = .next (if ph = .receiving ∧ s.th.upd.written = s.th.upd.size
        then ({ s with th := { s.th with upd := { s.th.upd with phase := .received } } } : State).msgAnswer [] else s.refuseMgmt))
    ∧ (ph ≠ .received → exec (.verifyComplete v) s = .next s.refuseMgmt)
    ∧ (ph = .received → ∃ u : State, exec (.verifyComplete v) s = .next (match s.imageFault with
        | some _ => (({ s with th := { s.th with upd := { s.th.upd with phase := .requested } } } : State).raise
            Code.TH_UPDATE_VERIFY 0xC33 0 0).refuseMgmt
        | none => (u.thEvent 1).msgAnswer [])
      ∧ Only [.th, .bar] s u ∧ u.th.imgInvalid = false ∧ u.th.upd.phase = .verified ∧ u.get R.TH_STATUS_ACT_PEND = 1
      ∧ u.th.flash = s.th.flash ∧ u.th.rollback = s.th.rollback ∧ OnlyFields [R.TH_STATUS_ACT_PEND, R.UPDATES] s u)
    ∧ (exec (.applyComplete v) s = .next (if ph = .verified then s.msgAnswer [] else s.refuseMgmt))
    ∧ (∀ sc, exec (.activateFirmware v sc) s
        = .next (if ph = .verified ∧ sc = false then s.endUpdate.msgAnswer [] else s.refuseMgmt))
    -- status, and cancelling
    ∧ exec (.getStatus v) s = .next (s.msgAnswer (leBytes 1 ph.num ++ leBytes 4 s.th.upd.written))
    ∧ (exec (.cancelUpdate v) s = .next (if ph = .idle then s.refuseMgmt else s.endUpdate.msgAnswer []))
    ∧ (ph = .idle ∨ ph = .requested → exec (.cancelUpdateComponent v) s = .next s.refuseMgmt)
    ∧ (ph ≠ .idle → ph ≠ .requested → exec (.cancelUpdateComponent v) s = .next (({ s with th := { s.th with
        upd := { vdm := s.th.upd.vdm, phase := .requested, maxXfer := s.th.upd.maxXfer } } } : State).msgAnswer [])))
  -- the ends of an update
  ∧ (∀ s : State, s.th.upd.phase ≠ .idle → ∃ u : State, s.endUpdate = u.thEvent 1 ∧ Only [.th, .bar] s u
    ∧ u.th = { s.th with upd := {} } ∧ u.get R.TH_STATUS_UPDATE = 0 ∧ OnlyFields [R.TH_STATUS_UPDATE] s u)
  -- what data do
  ∧ (∀ (b : List Byte) (s : State),
    let u := s.th.upd
    let h := u.header ++ b
    let more : Prop := h.length < 1024 ∧ h.length < u.size
    let bad : Prop := s.headerFault h ≠ none ∨ field h 8 4 ≠ u.size ∨ h.length < 1024
    (u.passed = true → (s.updateData b).th.flash = some (memWriteN (s.th.flash.getD []) s.th.flashLen b)
      ∧ (s.updateData b).th.flashLen = s.th.flashLen + b.length ∧ Only [.th] s (s.updateData b))
    ∧ (u.passed = false → more → s.updateData b
        = { s with th := { s.th with upd := { u with header := h, written := u.written + b.length } } })
    ∧ (u.passed = false → ¬ more → ∃ t : State,
      (bad ∧ s.updateData b = t.sendMgmt u.vdm [] ∧ t.th.flash = s.th.flash ∧ t.th.imgInvalid = s.th.imgInvalid
        ∧ t.th.upd.phase = .requested)
      ∨ (¬ bad ∧ s.updateData b = t ∧ Only [.th] s t ∧ t.th.imgInvalid = true ∧ t.th.flash = some (memWriteN [] 0 h)
        ∧ t.th.flashLen = h.length ∧ t.th.upd.passed = true)))
  -- the checks of a header
  ∧ (∀ (h : List Byte) (s : State), field h 0 4 ≠ 0x424D4854 ∨ field h 4 2 ≠ 1 ∨ field h 8 4 % 4096 ≠ 0
      ∨ field h 8 4 < 8192 ∨ 8 * 2 ^ 20 < field h 8 4 ∨ 4 ≤ field h 6 1 ∨ field h 6 1 ∈ s.th.revoked
      ∨ field h 6 1 < s.get R.RST_OPT_KEY_INDEX ∨ Config.keyDigest (field h 6 1) ≠ beNat (sha256 (slice h 0x80 388))
      ∨ field h 7 1 < s.th.rollback → s.headerFault h ≠ none)

/-- The SPDM responder (spec/12_thimble_management_security.md R393 to R396; signatures are free values: log entry 5; layouts
that the DMTF standards lay down: log entry 17). -/
def Obligations.SpdmSessionsAndMeasurements : Prop :=
  let withTh (s : State) (t : Thimble) : State := { s with th := t }
  let signs (i : Instr) (s : State) (b : List Byte) : Prop :=
    ∃ g, g.length = 384 ∧ exec i s = .next (({ s with free := s.free + 384 } : State).msgAnswer (b ++ g))
  -- the connection
  (∀ (v : MVia) (s : State), s.serves? v false = true →
    exec (.getVersion v) s = .next ((withTh s { s.th with algs := false }).msgAnswer [0x10, 0x11, 0x12])
    ∧ exec (.getCapabilities v) s = .next (s.msgAnswer [10])
    ∧ exec (.negotiateAlgorithms v true) s = .next ((withTh s { s.th with algs := true }).msgAnswer [])
    ∧ exec (.negotiateAlgorithms v false) s = .next s.refuseMgmt
    ∧ (s.th.algs = false → ∀ (k n m : Nat) (b : List Byte) (a : Bool),
      ∀ i ∈ [Instr.getDigests v, .getCertificate v k n m, .challenge v k b, .getMeasurements v k b, .keyExchange v k a, .finish v k a],
        exec i s = .next s.refuseMgmt))
  -- certificates, challenges and measurements
  ∧ (∀ (v : MVia) (s : State), s.serves? v false = true → s.th.algs = true →
    exec (.getDigests v) s = .next (s.msgAnswer (sha256 certChain))
    ∧ (∀ off len, off < certChain.length → exec (.getCertificate v 0 off len) s = .next (s.msgAnswer ((certChain.drop off).take len)))
    ∧ (∀ slot off len, slot ≠ 0 ∨ certChain.length ≤ off → exec (.getCertificate v slot off len) s = .next s.refuseMgmt)
    ∧ (∀ b, b.length = 32 → signs (.challenge v 0 b) s (sha256 certChain ++ b)
        ∧ signs (.getMeasurements v 0 b) s ([7] ++ b)
        ∧ (∀ k, 1 ≤ k → k ≤ 7 → signs (.getMeasurements v k b) s (s.measBlock k ++ b))
        ∧ signs (.getMeasurements v 0xFF b) s (s.measBlocks 0 ++ b))
    ∧ (∀ k b, b.length ≠ 32 ∨ (7 < k ∧ k ≠ 0xFF) → exec (.getMeasurements v k b) s = .next s.refuseMgmt)
    ∧ (∀ slot b, slot ≠ 0 ∨ b.length ≠ 32 → exec (.challenge v slot b) s = .next s.refuseMgmt)
    -- the start of a session
    ∧ (∀ id, exec (.keyExchange v id false) s = .next s.authFail)
    ∧ (∀ id, 4 ≤ s.th.sessions.length ∨ (∃ x ∈ s.th.sessions, x.id = id) → exec (.keyExchange v id true) s = .next s.refuseMgmt)
    ∧ (∀ id, s.th.sessions.length < 4 → (∀ x ∈ s.th.sessions, x.id ≠ id) → ∃ g, g.length = 384 ∧ exec (.keyExchange v id true) s
        = .next (({ withTh s { s.th with sessions := s.th.sessions ++ [⟨id, false⟩] } with free := s.free + 384 } : State).msgAnswer g))
    ∧ (∀ id, (⟨id, false⟩ : Sess) ∈ s.th.sessions →
      (∃ u : State, exec (.finish v id true) s = .next (u.msgAnswer []) ∧ Only [.th, .bar] s u ∧ OnlyFields [R.SPDM_SESSIONS] s u
        ∧ u.th = { s.th with sessions := u.th.sessions } ∧ u.th.hasSess id = true
        ∧ u.th.sessions.map Sess.id = s.th.sessions.map Sess.id
        ∧ ∀ x, x.id ≠ id → (x ∈ u.th.sessions ↔ x ∈ s.th.sessions))
      ∧ exec (.finish v id false) s = .next (s.dropSess id).authFail)
    ∧ (∀ id a, (∀ x ∈ s.th.sessions, x.id = id → x.est = true) → exec (.finish v id a) s = .next s.refuseMgmt))
  -- in a session
  ∧ (∀ (v : MVia) (id : Nat) (s : State), s.serves? v false = true →
    (s.th.hasSess id = true →
      exec (.heartbeat v id true) s = .next (s.msgAnswer []) ∧ exec (.keyUpdate v id true) s = .next (s.msgAnswer [])
      ∧ exec (.endSession v id true) s = .next ((s.dropSess id).msgAnswer [])
      ∧ ∀ i ∈ [Instr.heartbeat v id false, .keyUpdate v id false, .endSession v id false], exec i s = .next s.authFail)
    ∧ (s.th.hasSess id = false → ∀ a, ∀ i ∈ [Instr.heartbeat v id a, .keyUpdate v id a, .endSession v id a], exec i s = .next s.refuseMgmt))
  ∧ (∀ (id : Nat) (s : State), s.fwServes = true → s.th.hasSess id = true → exec (.heartbeatTimeout id) s = .next (s.dropSess id))
  ∧ (∀ (id : Nat) (s : State), ∃ u, s.dropSess id = u ∧ Only [.th] s u ∧ u.th.hasSess id = false
    ∧ (∀ x, x ∈ u.th.sessions ↔ x ∈ s.th.sessions ∧ x.id ≠ id) ∧ ∀ n, n ∈ u.th.nonces ↔ n ∈ s.th.nonces ∧ n.1 ≠ id)
  ∧ (∀ s : State, s.authFail = ((s.bump R.SPDM_FAIL 1).raise Code.TH_SPDM_AUTH 0xC33 0 0).refuseMgmt)
  -- the measurements
  ∧ (∀ s : State, s.measValue 5 = leBytes 1 s.th.debug ∧ ∀ i, i ≠ 5 → s.measValue i = s.th.meas.getD (i - 1) [])

/-- The vendor requests and IDE_KM (spec/12_thimble_management_security.md R397 to R400, spec/14_reset_bringup_selftest.md
R448 to R451; what the owner's signature covers: log entry 23; nonces are free values: log entry 5). -/
def Obligations.DebugOptionsFusesAndKeysAreGuarded : Prop :=
  let withTh (s : State) (t : Thimble) : State := { s with th := t }
  -- outside a session
  (∀ (v : MVia) (b : List Byte) (g : RsaSig) (f : FuseName) (k n : Nat) (s : State), s.serves? v false = true → v.sess = none →
    ∀ i ∈ [Instr.debugNonce v, .debugUnlock v b g, .debugLock v, .optionWrite v b (some g), .fuseBurn v f b (some g), .ideKmQuery v k,
      .ideKmKeyProg v k n b, .ideKmKSetGo v k n, .ideKmKSetStop v k n], exec i s = .next s.refuseMgmt)
  ∧ (∀ (v : MVia) (id : Nat) (s : State), s.serves? v false = true → v.sess = some id →
    -- debug
    (∃ b, b.length = 32 ∧ exec (.debugNonce v) s = .next
        (({ withTh s { s.th with nonces := s.th.nonces ++ [(id, b)] } with free := s.free + 32 } : State).msgAnswer b))
    ∧ (∀ nonce g,
      let u := withTh s { s.th with nonces := s.th.nonces.erase (id, nonce) }
      let ok : Bool := s.th.nonces.contains (id, nonce) && s.ownerSigned g nonce
      (s.th.debugLock ≠ 1 ∧ s.th.debugLock ≠ 2 ∧ s.th.debugLock < 4 ∨ (id, nonce) ∉ s.th.nonces →
        exec (.debugUnlock v nonce g) s = .next (u.raise Code.TH_DEBUG_REFUSED 0xC33 0 0).refuseMgmt)
      ∧ (s.th.debugLock = 1 → exec (.debugUnlock v nonce g) s = .next (if ok then
          ((u.raise Code.TH_DEBUG_UNLOCK 0xC33 0 0).setUnlock true).msgAnswer []
        else (u.raise Code.TH_DEBUG_REFUSED 0xC33 0 0).refuseMgmt))
      ∧ (s.th.debugLock = 2 → exec (.debugUnlock v nonce g) s
        = .next (if ok then u.msgAnswer [] else (u.raise Code.TH_DEBUG_REFUSED 0xC33 0 0).refuseMgmt)))
    ∧ exec (.debugLock v) s = .next ((s.setUnlock false).msgAnswer [])
    -- option bytes
    ∧ (∀ o g, s.ownerOk g o = false → exec (.optionWrite v o g) s = .next (s.refuseOption 0))
    ∧ (∀ o g off, s.ownerOk g o = true → s.optImageBad o = some off → exec (.optionWrite v o g) s = .next (s.refuseOption off))
    ∧ (∀ o g, s.ownerOk g o = true → s.optImageBad o = none →
        exec (.optionWrite v o g) s = .next ((withTh s { s.th with optFlash := some o }).msgAnswer []))
    -- fuses
    ∧ (∀ f o g, s.ownerOk g o = false → exec (.fuseBurn v f o g) s = .next (s.refuseOption 0))
    ∧ (∀ o g, s.ownerOk g o = true →
        exec (.fuseBurn v .keyIndex o g) s = .next ((withTh s { s.th with keyIndex := min 3 (s.th.keyIndex + 1) }).msgAnswer [])
        ∧ exec (.fuseBurn v .seal o g) s = .next ((withTh s { s.th with sealed := true }).msgAnswer [])
        ∧ exec (.fuseBurn v .policyLock o g) s = .next ((withTh s { s.th with policyLock := true }).msgAnswer []))
    -- link keys
    ∧ (∀ k, exec (.ideKmQuery v k) s = .next (if k ≤ 1 then s.msgAnswer (leBytes 1 k) else s.refuseMgmt))
    ∧ (∀ k n key, k ≤ 1 → n ≤ 1 → key.length = 32 → exec (.ideKmKeyProg v k n key) s = .next
        (({ s with cxl := { s.cxl with ideKeys := kvSet s.cxl.ideKeys (2 * k + n) key } } : State).msgAnswer []))
    ∧ (∀ k n key, 2 ≤ k ∨ 2 ≤ n ∨ key.length ≠ 32 → exec (.ideKmKeyProg v k n key) s = .next s.refuseMgmt)
    ∧ (∀ k n, k ≤ 1 → n ≤ 1 → kvGet? s.cxl.ideKeys (2 * k + n) ≠ none → ∃ u : State, exec (.ideKmKSetGo v k n) s = .next (u.msgAnswer [])
        ∧ u = { s with cxl := { s.cxl with ideOn := u.cxl.ideOn } }
        ∧ ∀ j, j ∈ u.cxl.ideOn ↔ j = 2 * k + n ∨ (j ∈ s.cxl.ideOn ∧ j / 2 ≠ k))
    ∧ (∀ k n, 2 ≤ k ∨ 2 ≤ n ∨ kvGet? s.cxl.ideKeys (2 * k + n) = none → exec (.ideKmKSetGo v k n) s = .next s.refuseMgmt)
    ∧ (∀ k n, k ≤ 1 → n ≤ 1 → ∃ u : State, exec (.ideKmKSetStop v k n) s = .next (u.msgAnswer [])
        ∧ u = { s with cxl := { s.cxl with ideOn := u.cxl.ideOn } } ∧ ∀ j, j ∈ u.cxl.ideOn ↔ j ∈ s.cxl.ideOn ∧ j ≠ 2 * k + n))
  -- the unlock itself, and who may sign
  ∧ (∀ (b : Bool) (s : State), ∃ u, s.setUnlock b = u ∧ u.th = { s.th with unlocked := b } ∧ Only [.th, .tape, .out] s u)
  ∧ (∀ (g : Option RsaSig) (b : List Byte) (s : State),
    (beNat s.th.ownerKey = 0 → s.ownerOk g b = true) ∧ (beNat s.th.ownerKey ≠ 0 → s.ownerOk none b = false))
  ∧ (∀ (g : RsaSig) (b : List Byte) (s : State), beNat s.th.ownerKey = 0 ∨ sha256 (g.modulus ++ g.exponent) ≠ s.th.ownerKey →
    s.ownerSigned g b = false)
  -- an image that may be written
  ∧ (∀ (o : List Byte) (s : State), s.optImageBad o = none → o.length = 128 ∧ field o 0 4 = 0x54504F4C ∧ field o 4 2 = 1 ∧ field o 6 2 = 128
    ∧ field o 0x7C 4 = crc32 (slice o 0 0x7C) ∧ (∀ x ∈ optFieldBad o, x.2 = false) ∧ (s.th.sealed = true → field o 9 1 = 0))

/-- The boot, the sensors, the event log and the watchdog (spec/12_thimble_management_security.md R386 to R409,
spec/15_faults_and_safe_state.md R465, R466). -/
def Obligations.ThimbleBootsSamplesLogsAndRestarts : Prop :=
  -- the boot
  (∀ s : State, s.pins.vaux = true → s.get R.TH_STATUS_BOOT = 0 →
    (s.bootSrc = 1 ∨ s.th.imgInvalid = true → exec .romBoot s = .next s.recover)
    ∧ (s.bootSrc ≠ 1 → s.th.imgInvalid = false → exec .romBoot s = .next (match s.imageFault with
        | some code => (s.raise code 0xC33 0 0).recover
        | none => s.runImage.releaseOrders))
    ∧ exec .bootDeadline s = .next (s.raise Code.TH_BOOT_IMAGE 0xC33 0 0).recover)
  ∧ (∀ s : State, s.recover.get R.TH_STATUS_BOOT = 2 ∧ s.recover.get R.GC_STATE_STATE = 3 ∧ s.recover.rst.seq = .none)
  ∧ (∀ s : State, let u := s.runImage
    u.get R.TH_STATUS_BOOT = 1 ∧ u.rst = { s.rst with fwRunning := true } ∧ u.get R.TH_VERSION_FW_SVN = (s.imgByte 7).toNat
    ∧ u.get R.TH_VERSION_IF_MAJOR = 1 ∧ u.get R.TH_VERSION_IF_MINOR = 0 ∧ u.th.imgMajor = (s.imgByte 0xD).toNat ∧ u.th.imgMinor = (s.imgByte 0xC).toNat ∧ u.th.meas.length = 7
    ∧ u.th.rollback = s.th.rollback ∧ u.th.flash = s.th.flash ∧ Only [.bar, .th, .rst] s u
    ∧ OnlyFields [R.TH_VERSION_IF_MAJOR, R.TH_VERSION_IF_MINOR, R.TH_VERSION_FW_SVN, R.TH_STATUS_KEY_IDX, R.TH_STATUS_BOOT] s u)
  -- sensors
  ∧ (∀ (r : List (Option Int)) (s : State), s.rst.fwRunning = true →
    (s.th.restarting = false → exec (.sensorSample r) s = .next ((List.range 36).foldl State.clampStep
      ((List.range 139).foldl (fun s k => s.sampleSensor k ((r[k]?).getD none)) s)))
    ∧ (s.th.restarting = true → exec (.sensorSample r) s = .next ((List.range 139).foldl State.ageSensor s)))
  ∧ (∀ (k : Nat) (v : Int) (s : State), k < 139 →
    let off : Prop := s.pins.input50 = false ∧ (k ≤ 135 ∨ k = 138)
    let older := min 127 (s.get (R.TH_SENSOR_AGE k) + 1)
    let bad := kvGet 0 s.th.bad k + 1
    (¬ off → ∃ u, s.sampleSensor k (some v) = u ∧ u.get (R.TH_SENSOR_VALID k) = 1 ∧ u.get (R.TH_SENSOR_AGE k) = 0
      ∧ u.get (R.TH_SENSOR_VALUE k) = (BitVec.ofInt 24 v).toNat ∧ kvGet? u.th.bad k = none ∧ Only [.bar, .th, .tape, .out] s u
      ∧ OnlyFields [R.TH_SENSOR_VALID k, R.TH_SENSOR_AGE k, R.TH_SENSOR_VALUE k] s u
      ∧ ∀ l thr, (s.thresholds k)[l]? = some thr → ((k, l) ∈ u.th.above ↔ thr ≤ v ∨ 1 < s.th.above.count (k, l)))
    ∧ (¬ off → bad ≠ 3 → ∃ u, s.sampleSensor k none = u ∧ u.get (R.TH_SENSOR_AGE k) = older ∧ kvGet? u.th.bad k = some bad
      ∧ Only [.bar, .th] s u ∧ OnlyFields [R.TH_SENSOR_AGE k] s u)
    ∧ (¬ off → bad = 3 → ∃ t, s.sampleSensor k none = t.raise Code.TH_SENSOR 0xC33 0 0 ∧ t.get (R.TH_SENSOR_VALID k) = 0
      ∧ t.get (R.TH_SENSOR_AGE k) = older ∧ Only [.bar, .th] s t)
    ∧ (off → ∀ r, ∃ u, s.sampleSensor k r = u ∧ u.get (R.TH_SENSOR_VALID k) = 0 ∧ u.get (R.TH_SENSOR_AGE k) = older ∧ Only [.bar] s u))
  -- fault records
  ∧ (∀ (unit : Nat) (r : FltRec) (s : State), s.fwServes = true ∨ s.get R.TH_STATUS_BOOT = 2 →
    (s.flt.waiting.find? fun r => r.unit = unit) = some r → ∃ t, exec (.faultRecord unit) s = .next (State.deliver t r)
      ∧ t = { s with flt := { s.flt with waiting := t.flt.waiting } } ∧ t.flt.waiting.length + 1 = s.flt.waiting.length
      ∧ ∀ q, q.unit ≠ unit → t.flt.waiting.count q = s.flt.waiting.count q)
  ∧ (∀ (r : FltRec) (s : State),
    let lost : Bool := s.suppressed r || decide (512 ≤ s.th.buf.length)
    let b := faultRecord r s.th.nextLseq (if s.press.everOpened then s.stepNo else stepNone) (s.now / 1024 % 2 ^ 48) lost
    let u := s.deliver r
    Only [.bar, .th, .tape] s u
    ∧ (lost = false → u.th.buf = s.th.buf ++ [b] ∧ u.th.nextLseq = (s.th.nextLseq + 1) % 2 ^ 32)
    ∧ (lost = true → u.th = s.th)
    ∧ (r.cls ≠ 0 → ∀ k, k < 4 → u.get (R.FLT_LAST_REC k) = field b (8 * k) 8)
    ∧ (bit r.flags 4 = true → ∀ k, k < 4 → u.get (R.FLT_FIRST_REC k) = field b (8 * k) 8)
    ∧ (bit r.flags 4 = false → ∀ k, k < 4 → u.get (R.FLT_FIRST_REC k) = s.get (R.FLT_FIRST_REC k))
    ∧ (s.passes r = true → (s.tape.replies.filter fun q => q.kind = 5).length < 64 →
        ∃ q, u.tape = { s.tape with replies := s.tape.replies ++ [q] } ∧ q.kind = 5 ∧ q.tag = 0xFFFF ∧ q.result = b)
    ∧ (s.passes r = false → u.tape = s.tape))
  -- the log
  ∧ (∀ (b : List Byte) (l : List (List Byte)) (s : State), s.fwServes = true ∨ s.get R.TH_STATUS_BOOT = 2 → s.th.buf = b :: l →
    (s.th.log.length < 8064 → ∃ u, exec .logWrite s = .next u ∧ Only [.bar, .th] s u
      ∧ u.th = { s.th with buf := l, log := s.th.log ++ [(field b 0 4, b)] } ∧ OnlyFields [R.LOG_WRITTEN] s u)
    ∧ (8064 ≤ s.th.log.length → ∃ u, exec .logWrite s = .next u ∧ Only [.bar, .th, .tape, .out] s u
      ∧ u.th = { s.th with buf := l, log := s.th.log.drop 126 ++ [(field b 0 4, b)] }
      ∧ OnlyFields [R.LOG_WRITTEN, R.LOG_OVERWRITTEN] s u))
  -- the watchdog
  ∧ (∀ s : State, s.fwServes = true → ∃ t : State, Only [.bar, .th] ((s.raise Code.TH_WDOG 0xC33 0 0).endUpdate.thEvent 4) t
    ∧ t.th.restarting = true ∧ t.th.lastWdog = some s.now ∧ t.get R.TH_STATUS_BOOT = 3 ∧ t.th.upd.phase = .idle
    ∧ ((∀ x, s.th.lastWdog = some x → x + 1000000000 ≤ s.now) → exec .watchdogExpiry s = .next t)
    ∧ (∀ x, s.th.lastWdog = some x → s.now < x + 1000000000 →
        exec .watchdogExpiry s = .next (t.raise Code.TH_WDOG_REPEAT 0xC33 0 0)))
  ∧ (∀ s : State, s.th.restarting = true → ∃ u, exec .thimbleRestartDone s = .next u ∧ u.th = { s.th with restarting := false }
    ∧ u.get R.TH_STATUS_BOOT = 1 ∧ Only [.bar, .th] s u ∧ OnlyFields [R.TH_STATUS_BOOT] s u)

/-- Panels, the governor and temperature (spec/13_panels_clocks_power.md R417 to R432). -/
def Obligations.PanelsFollowCapsNeighboursAndTemperature : Prop :=
  -- what a panel is to deliver
  (∀ (p : Nat) (s : State), let x := s.panel p
    (s.safe = true → s.fTarget p = 400 ∧ s.vTarget p = 600)
    ∧ 400 ≤ s.fTarget p ∧ s.fTarget p ≤ 2500 ∧ s.fTarget p % 25 = 0
    ∧ ∀ c ∈ [s.fset p, s.get R.PWR_STATUS_FCAP, x.tcap, x.clamp, x.ncap], s.fTarget p ≤ max 400 c)
  -- the start of a change
  ∧ (∀ (p : Nat) (s : State),
    let t := s.limits p
    let x := s.panel p
    let f := s.fTarget p
    let v := s.vTarget p
    let same : Prop := f = s.get (R.PNL_STATUS_FDEL p) ∧ v = s.get (R.PNL_STATUS_VDEL p)
    let starts : Prop := 7 ≤ s.pow.railsUp ∧ x.changing = false ∧ ¬ same
    (¬ starts → p < 36 → s.adjust p = t)
    ∧ (starts → p < 36 → f < 625 → f < s.get (R.PNL_STATUS_FDEL p) → s.safe = false →
      s.adjust p = t.setPanel p { x with changing := true, ftgt := f, vtgt := v, acks := nbrs p, ann := f })
    ∧ (starts → p < 36 → 625 ≤ f ∨ s.get (R.PNL_STATUS_FDEL p) ≤ f ∨ s.safe = true →
      s.adjust p = t.setPanel p { x with changing := true, ftgt := f, vtgt := v, acks := [] })
    ∧ (p < 36 → Only [.bar] s t
      ∧ OnlyFields [R.PNL_STATUS_LIM_P p, R.PNL_STATUS_LIM_T p, R.PNL_STATUS_LIM_N p, R.PNL_STATUS_CLAMP p] s t))
  -- a commit of its settings
  ∧ (∀ (p : Nat) (v : W32) (s : State), p < 36 → bit v.toNat 0 = true → s.takesWrite none (0x80000 + 0x400 * p) = true →
    s.frozen (0x80000 + 0x400 * p) = false → anyStaged s.barStage (fun o => o = 0x80000 + 0x400 * p) = true →
    (s.pow.commits = [] → (s.panel p).changing = false → exec (.pnlCommit p v) s = .next (s.applyPanel p))
    ∧ (s.pow.commits ≠ [] ∨ (s.panel p).changing = true →
      exec (.pnlCommit p v) s = .next { s with pow := { s.pow with commits := s.pow.commits ++ [p] } })
    ∧ (∀ f, s.panelBad p = some f → s.applyPanel p = (s.dropPanelStage p).raise f.1 (0xC40 + p) 0 f.2)
    ∧ (s.panelBad p = none → ∃ t : State, s.applyPanel p = t.adjust p ∧ Only [.bar, .barStage] s t
      ∧ t.barStage = (s.dropPanelStage p).barStage
      ∧ ∀ f ∈ [R.PNL_CFG_FSET p, R.PNL_CFG_VSET p], t.get f = staged s.bar s.barStage f))
  -- the end of a change, and neighbours
  ∧ (∀ (p : Nat) (s : State), (s.panel p).changing = true → (s.panel p).acks = [] → p < 36 →
    (s.panel p).ftgt < 4096 → (s.panel p).vtgt < 1024 → ∃ t, exec (.panelChangeEnd p) s = .next ((State.adjust t p).drainCommits 36)
      ∧ t.panel p = { s.panel p with changing := false, ann := (s.panel p).ftgt } ∧ Only [.bar, .pow] s t
      ∧ t.get (R.PNL_STATUS_FDEL p) = (s.panel p).ftgt ∧ t.get (R.PNL_STATUS_VDEL p) = (s.panel p).vtgt
      ∧ OnlyFields [R.PNL_STATUS_FDEL p, R.PNL_STATUS_VDEL p] s t ∧ ∀ q, q ≠ p → t.panel q = s.panel q)
  ∧ (∀ (p q f : Nat) (s : State), q ∈ nbrs p → (s.panel q).ann = f → ∃ t : State, exec (.neighbourAnnounce p q f) s = .next (t.adjust p)
    ∧ Only [.pow] s t ∧ kvGet? (t.panel p).nbAnn q = some f ∧ (t.panel p).ncap ≤ 4 * f ∧ ∀ r, r ≠ p → t.panel r = s.panel r)
  ∧ (∀ (p q : Nat) (s : State), (s.panel p).changing = true → q ∈ (s.panel p).acks →
    kvGet? (s.panel q).nbAnn p = some (s.panel p).ann →
    exec (.neighbourCapAck p q) s = .next (s.setPanel p { s.panel p with acks := (s.panel p).acks.erase q }))
  ∧ (∀ (p : Nat) (s : State), (s.panel p).changing = true → exec (.pwrChangeDeadline p) s
    = .next (s.raise Code.PWR_CHANGE_DEADLINE (0xC40 + p) (96 + p) (s.get (R.PNL_STATUS_FDEL p))))
  -- the governor
  ∧ (∀ (p100 p1ms p1s vin iin : Nat) (s : State), 7 ≤ s.pow.railsUp →
    let lim := s.get R.PWR_CFG_P_LIMIT
    let f := s.get R.PWR_STATUS_FCAP
    let fast : Prop := ∃ x, s.pow.fastAt = some x ∧ s.now < x + 10000
    ∃ t : State, Only [.bar] s t
      ∧ OnlyFields [R.PWR_STATUS_P_1S, R.PWR_STATUS_P_1MS, R.PWR_INPUT_VIN, R.PWR_INPUT_IIN] s t
      ∧ ((lim - 4) * 1000 < p100 → exec (.governorSlowLoop p100 p1ms p1s vin iin) s = .next (t.setFcap (max 400 (f - 25))))
      ∧ (p100 < (lim - 16) * 1000 → ¬ fast → exec (.governorSlowLoop p100 p1ms p1s vin iin) s = .next (t.setFcap (min 2500 (f + 25))))
      ∧ (p100 ≤ (lim - 4) * 1000 → (lim - 16) * 1000 ≤ p100 ∨ fast → exec (.governorSlowLoop p100 p1ms p1s vin iin) s = .next t))
  ∧ (∀ (p1ms : Nat) (s : State), 7 ≤ s.pow.railsUp →
    (95 * 1000 * s.get R.PWR_CFG_P_PEAK < 100 * p1ms → exec (.governorFastLoop p1ms) s
      = .next (({ s with pow := { s.pow with fastAt := some s.now } } : State).setFcap (max 400 (s.get R.PWR_STATUS_FCAP - 100))))
    ∧ (100 * p1ms ≤ 95 * 1000 * s.get R.PWR_CFG_P_PEAK → exec (.governorFastLoop p1ms) s = .next s))
  ∧ (∀ (f : Nat) (s : State), f ≤ 2500 → (s.setFcap f).get R.PWR_STATUS_FCAP = f ∧ Only [.bar, .pow] s (s.setFcap f))
  ∧ (∀ (p100 : Nat) (s : State), s.get R.PWR_STATUS_FCAP = 400 → s.get R.PWR_CFG_P_LIMIT * 1000 < p100 →
    exec (.envelopeTimeout p100) s = .next (s.raise Code.PWR_ENVELOPE 0xC64 134 p100))
  -- temperature
  ∧ (∀ (v : Int) (s : State), 7 ≤ s.pow.railsUp →
    (∀ p, p < 36 → exec (.thermalSample (.panel p) v) s = .next (s.panelSample p v))
    ∧ (∀ n, n < 24 → let t : State := { s with pow := { s.pow with pkg := kvSet s.pow.pkg n v } }
      (1680 ≤ v → kvGet 0 s.pow.pkg n < 1680 →
        exec (.thermalSample (.package n) v) s = .next (t.raise Code.PWR_TRIP 0xC64 (36 + n) (argOf v)))
      ∧ (v < 1680 ∨ 1680 ≤ kvGet 0 s.pow.pkg n → exec (.thermalSample (.package n) v) s = .next t))
    ∧ (let t : State := { s with pow := { s.pow with stage := v } }
      (2000 ≤ v → s.pow.stage < 2000 → exec (.thermalSample .stage v) s = .next (t.raise Code.PWR_TRIP 0xC64 138 (argOf v)).removeRails)
      ∧ (v < 2000 ∨ 2000 ≤ s.pow.stage → exec (.thermalSample .stage v) s = .next t)))
  ∧ (∀ (p : Nat) (v : Int) (s : State), p < 36 →
    let hot := s.get (R.PNL_STATUS_HOT p)
    ∃ t : State, Only [.bar, .pow] s t ∧ t.panel p = { s.panel p with temp := v } ∧ (∀ q, q ≠ p → t.panel q = s.panel q)
      ∧ t.get (R.PNL_STATUS_TEMP p) = (BitVec.ofInt 12 v).toNat ∧ OnlyFields [R.PNL_STATUS_TEMP p, R.PNL_STATUS_HOT p] s t
      ∧ (v < 1680 → s.panelSample p v = t ∧ t.get (R.PNL_STATUS_HOT p) = (if v < 1632 ∧ hot = 1 then 0 else hot))
      ∧ (1680 ≤ v → v < 1840 → hot ≠ 1 → s.panelSample p v = t.raise Code.PWR_HOT (0xC40 + p) p (argOf v)
          ∧ t.get (R.PNL_STATUS_HOT p) = 1)
      ∧ (1680 ≤ v → v < 1840 → hot = 1 → s.panelSample p v = t)
      ∧ (1840 ≤ v → (s.panel p).temp < 1840 → hot = 1 → s.panelSample p v
          = ({ t with pow := { t.pow with tripped := true } } : State).raise Code.PWR_TRIP (0xC40 + p) p (argOf v))
      ∧ (1840 ≤ v → 1840 ≤ (s.panel p).temp → hot = 1 → s.panelSample p v = t)
      ∧ (1840 ≤ v → hot ≠ 1 → let h := t.raise Code.PWR_HOT (0xC40 + p) p (argOf v)
          t.get (R.PNL_STATUS_HOT p) = 1 ∧ s.panelSample p v = (if (s.panel p).temp < 1840 then
            ({ h with pow := { h.pow with tripped := true } } : State).raise Code.PWR_TRIP (0xC40 + p) p (argOf v) else h)))
  ∧ (∀ (p : Nat) (s : State), p < 36 →
    let x := s.panel p
    let thr : Int := s.get R.PWR_CFG_T_THROTTLE * 16
    (thr ≤ x.temp → exec (.thermalCapStep p) s = .next ((s.setPanel p { x with tcap := max 400 (x.tcap - 25) }).adjust p))
    ∧ (x.temp ≤ thr - 48 → exec (.thermalCapStep p) s = .next ((s.setPanel p { x with tcap := min 2500 (x.tcap + 25) }).adjust p))
    ∧ (thr - 48 < x.temp → x.temp < thr → exec (.thermalCapStep p) s = .next s))
  ∧ (∀ s : State, s.pow.tripped = true →
    ((∃ p < 36, 1840 ≤ (s.panel p).temp) → ∃ u, exec .tripPersistTimeout s = .next u ∧ u.pow.railsUp = min s.pow.railsUp 6
      ∧ u.pow.tripped = false ∧ u.get R.PWR_STATUS_STATE = 5 ∧ Only [.bar, .pow] s u ∧ OnlyFields [R.PWR_STATUS_STATE] s u)
    ∧ ((∀ p < 36, (s.panel p).temp < 1840) →
      exec .tripPersistTimeout s = .next { s with pow := { s.pow with tripped := false } }))
  ∧ (∀ (p q : Nat) (s : State), q ∈ nbrs p →
    (480 < (s.panel p).temp - (s.panel q).temp → exec (.nbTempDeadline p q) s
      = .next (s.raise Code.PWR_NEIGHBOUR (0xC40 + p) p (argOf (s.panel p).temp)))
    ∧ ((s.panel p).temp - (s.panel q).temp ≤ 480 → exec (.nbTempDeadline p q) s = .next s))
  -- droop
  ∧ (∀ (p : Nat) (s : State), p < 36 →
    ((s.panel p).droop = false → exec (.droop p) s = .next ((s.setPanel p { s.panel p with droop := true }).bump R.DROOPS 1))
    ∧ ((s.panel p).droop = true → exec (.droop p) s = .next s
      ∧ exec (.droopEnd p) s = .next (s.setPanel p { s.panel p with droop := false })))

/-- Rails, the input and the references (spec/13_panels_clocks_power.md R414, R415, R419 to R425; which event a collapse
records: log entry 18; detail of a record that no sensor gives is free: log entry 5). -/
def Obligations.RailsInputsAndReferencesFail : Prop :=
  -- rails
  (∀ s : State,
    (∀ p, p < 36 → 7 ≤ s.pow.railsUp → exec (.railOutOfTolerance (.panel p)) s = .next (s.railFault (.panel p)))
    ∧ (∀ k, 1 ≤ k → k ≤ 7 → k ≤ s.pow.railsUp → exec (.railOutOfTolerance (.module k)) s = .next (s.railFault (.module k)))
    ∧ (∀ r, s.get R.PWR_STATUS_STATE = 1 → exec (.powerUpDeadline r) s = .next (s.railFault r))
    ∧ (∀ p, ∃ a, s.railFault (.panel p) = ({ s with free := s.free + 1 } : State).raise Code.PWR_RAIL (0xC40 + p) (60 + p) a)
    ∧ (∀ k, ∃ (t : State) (n a : Nat), s.railFault (.module k) = t.raise Code.PWR_RAIL 0xC64 n a ∧ Only [.free, .mem] s t
        ∧ (k = 1 → n = 135) ∧ (2 ≤ k → k ≤ 5 → t.mem = { s.mem with unsound := List.range 24 })
        ∧ (k < 2 ∨ 5 < k → t.mem = s.mem)))
  -- the input
  ∧ (∀ (mv : Nat) (s : State), s.pins.input50 = true →
    (mv < 44000 ∨ 56000 < mv → exec (.inputOutOfRange mv) s = .next (s.raise Code.PWR_INPUT 0xC64 132 mv))
    ∧ (44000 ≤ mv → mv ≤ 56000 → exec (.inputOutOfRange mv) s = .next s)
    ∧ (mv < 40000 ∨ 60000 < mv → exec (.inputCollapse mv) s = .next (s.raise Code.PWR_INPUT 0xC64 132 mv).lose50)
    ∧ (40000 ≤ mv → mv ≤ 60000 → exec (.inputCollapse mv) s = .next s))
  ∧ (∀ s : State, ∃ u, s.lose50 = u ∧ u.pins = { s.pins with input50 := false } ∧ u.pow.railsUp = 0 ∧ u.pow.panels = []
    ∧ u.get R.PWR_STATUS_FCAP = 2500 ∧ u.get R.PWR_STATUS_STATE = 0 ∧ u.get R.GC_STATE_STATE = (if s.safe then s.get R.GC_STATE_STATE else 0) ∧ u.get R.GC_STATE_MEM_READY = 0
    ∧ u.get R.GC_STATE_FABRIC_READY = 0 ∧ u.tiles = [] ∧ u.net = [] ∧ u.mem = { exts := resetExtents } ∧ u.cxl.linkUp = false
    ∧ u.rst.seq = .none ∧ u.th = s.th ∧ u.flt = s.flt ∧ u.out = s.out
    ∧ ∀ p, p < 36 → u.get (R.PNL_STATUS_FDEL p) = 0 ∧ u.get (R.PNL_STATUS_VDEL p) = 0)
  ∧ (∀ s : State, (s.rst.testing = false → s.endTest = s)
    ∧ (s.rst.testing = true → ∃ u, s.endTest = u ∧ Only [.bar] s u ∧ u.get R.FT_STATUS_RAN = 1 ∧ u.get R.FT_STATUS_PASS = 0
      ∧ u.get R.FT_STATUS_TIMEOUT = 1 ∧ OnlyFields [R.FT_STATUS_RAN, R.FT_STATUS_PASS, R.FT_STATUS_TIMEOUT] s u))
  -- the rails up
  ∧ (∀ s : State, s.pins.vaux = true → s.pins.input50 = true → s.pins.sysRst = false → s.get R.PWR_STATUS_STATE = 1 →
    (∀ p, p < 36 → s.get (R.PNL_CFG_VSET p) ≤ 127) → ∃ t : State, exec .railsInRegulation s = .next t.releaseOrders ∧ t.pow.railsUp = 7 ∧ t.rst = { s.rst with railsOk := true }
      ∧ t.get R.PWR_STATUS_STATE = (if s.get R.PWR_STATUS_FCAP < 2500 then 3 else 2) ∧ Only [.bar, .pow, .rst] s t
      ∧ ∀ p, p < 36 → t.get (R.PNL_STATUS_FDEL p) = t.fTarget p ∧ t.get (R.PNL_STATUS_VDEL p) = t.vTarget p
          ∧ (t.panel p).changing = false ∧ (t.panel p).ann = t.fTarget p)
  -- the references
  ∧ (∀ s : State, s.get R.RST_STRAPS_CLK_MODE % 2 = 0 → s.pow.onOsc = false →
    exec .refClockLoss s = .next ({ s with pow := { s.pow with onOsc := true } } : State).clockFault)
  ∧ (∀ s : State, s.pow.oscBad = false → ∃ t : State, exec .oscillatorFail s = .next t.clockFault ∧ t.pow.oscBad = true
    ∧ ∀ p, p < 8 → s.link p ≠ 0 → t.link p = if s.get (R.SP_CFG_EN p) = 1 then 1 else 0)
  ∧ (∀ s : State, ∃ n a, s.clockFault = ({ s with free := s.free + 2 } : State).raise Code.PWR_CLOCK 0xC64 n a)

/-- Reset sources and the warm reset (spec/14_reset_bringup_selftest.md R438 to R447, spec/16_module_connections.md R484,
R489). -/
def Obligations.ResetSourcesClearWhatTheyReach : Prop :=
  let counted (s u : State) (k kind : Nat) : Prop :=
    u.get (R.RST_CNT_COUNT k) = min (2 ^ 32 - 1) (s.get (R.RST_CNT_COUNT k) + 1) ∧ u.get R.RST_LAST_KIND = kind
      ∧ u.get R.RST_LAST_CAUSE = k ∧ u.get R.RST_LAST_SAFE = (if s.safe then 1 else 0)
  let empty (s u : State) : Prop := u.tiles = [] ∧ u.net = [] ∧ u.mem = { exts := resetExtents } ∧ u.tape.cmds = [] ∧ u.seam.ports = []
    ∧ u.cxl.linkUp = false ∧ u.cxl.hdm = [] ∧ u.safe = false ∧ u.pow.railsUp = 0 ∧ u.pins = s.pins ∧ u.rst.released = false
  let starts (s u : State) : Prop := s.pins.vaux = true → s.pins.input50 = true → s.pins.sysRst = false → u.get R.PWR_STATUS_STATE = 1
  -- an aux reset
  (∀ (k : Nat) (s : State), k < 8 → let u := s.auxSource k
    counted s u k 0 ∧ empty s u ∧ starts s u ∧ u.get R.TH_STATUS_BOOT = 0 ∧ u.now = 0 ∧ u.rst.fwRunning = false
    ∧ u.th.rollback = s.th.rollback ∧ u.th.revoked = s.th.revoked ∧ u.th.keyIndex = s.th.keyIndex ∧ u.th.sealed = s.th.sealed
    ∧ u.th.policyLock = s.th.policyLock ∧ u.th.flash = s.th.flash ∧ u.th.log = s.th.log ∧ u.th.nextLseq = s.th.nextLseq
    ∧ u.th.repairs = s.th.repairs ∧ u.th.unlocked = false ∧ u.th.sessions = [] ∧ u.th.buf = [])
  -- a cold reset
  ∧ (∀ (k : Nat) (s : State), k < 8 → let u := s.coldSource k
    counted s u k 1 ∧ empty s u ∧ starts s u ∧ u.th = s.th ∧ u.get R.TH_STATUS_BOOT = s.get R.TH_STATUS_BOOT ∧ u.now = s.now
    ∧ u.rst.fwRunning = s.rst.fwRunning)
  -- their sources
  ∧ (∀ (b c : Nat) (s : State), s.pins.vaux = false → exec (.vauxValid b c) s
    = .next (({ s with pins := { s.pins with vaux := true, bootSrc := b % 4, clkMode := c % 4 } } : State).auxSource 0))
  ∧ (∀ s : State, s.pins.vaux = true → exec .auxRstN s = .next (s.auxSource 1)
    ∧ (∃ u, exec .vauxLoss s = .next u ∧ u.pins = { s.pins with vaux := false } ∧ u.tiles = [] ∧ u.mem = { exts := resetExtents }
      ∧ u.pow.railsUp = 0 ∧ u.flt = {} ∧ u.rst = {} ∧ (∀ k, k < 8 → u.get (R.RST_CNT_COUNT k) = 0) ∧ u.get R.TH_STATUS_BOOT = 0
      ∧ u.th.rollback = s.th.rollback ∧ u.th.revoked = s.th.revoked ∧ u.th.keyIndex = s.th.keyIndex ∧ u.th.sealed = s.th.sealed
      ∧ u.th.policyLock = s.th.policyLock ∧ u.th.flash = s.th.flash ∧ u.th.log = s.th.log ∧ u.th.buf = []))
  ∧ (∀ s : State, s.pins.input50 = false → let t : State := { s with pins := { s.pins with input50 := true } }
    exec .input50vValid s = .next (if s.pins.vaux then t.coldSource 2 else t))
  ∧ (∀ s : State, s.pins.sysRst = false → s.pins.vaux = true →
    exec .sysRstN s = .next (({ s with pins := { s.pins with sysRst := true } } : State).coldSource 4))
  ∧ (∀ s : State, s.pins.sysRst = true →
    exec .sysRstNRelease s = .next ({ s with pins := { s.pins with sysRst := false } } : State).beginStart)
  ∧ (∀ s : State, s.cxl.perst = false → ∃ t : State, exec .perstAssert s = .next (if s.cxl.released then t.coldSource 3 else t)
    ∧ Only [.cxl] s t ∧ t.cxl.perst = true ∧ t.cxl.released = false ∧ t.cxl.linkUp = false ∧ t.cxl.mode = 0)
  ∧ (∀ s : State, s.cxl.perst = true → exec .perstDeassert s
    = .next { s with cxl := { s.cxl with perst := false, perstAt := s.now, released := s.rst.released } })
  -- the warm reset
  ∧ (∀ s : State, s.cxl.linkUp = true → exec .flr s = .next (s.warmSource 6 true)
    ∧ exec .hotReset s = .next (({ s with cxl := { s.cxl with linkUp := false } } : State).warmSource 5 false))
  ∧ (∀ (k : Nat) (flr : Bool) (s : State), k < 8 → let u := s.warmSource k flr
    (s.rst.seq ≠ .none ∨ s.pow.railsUp = 0 → u = s.countReset k)
    ∧ (s.rst.seq = .none → s.pow.railsUp ≠ 0 → s.escalates = true →
      ∃ t : State, u = State.coldReset t ∧ t.get R.RST_LAST_KIND = 1 ∧ t.get R.RST_LAST_CAUSE = 7)
    ∧ (s.rst.seq = .none → s.pow.railsUp ≠ 0 → s.escalates = false → s.get R.TH_STATUS_BOOT ≠ 2 →
      counted s u k 2 ∧ u.rst = { s.rst with seq := .warm flr, busy := allBlks } ∧ u.get R.GC_STATE_STATE = 0 ∧ Only [.bar, .rst] s u)
    ∧ (s.rst.seq = .none → s.pow.railsUp ≠ 0 → s.escalates = false → s.get R.TH_STATUS_BOOT = 2 →
      u.tiles = [] ∧ u.get R.GC_STATE_STATE = 3 ∧ u.th = s.th))
  ∧ (∀ (b : Blk) (s : State),
    (s.canIdle b = true → exec (.blockIdle b) s = .next (s.idleBlk b))
    ∧ (b ∈ s.rst.busy → exec (.idleTimeout b) s = .next ((s.raise Code.RST_IDLE_TIMEOUT 0xC65 0 (s.blkUnit b)).idleBlk b)))
  ∧ (∀ (b : Blk) (flr : Bool) (s : State), s.rst.seq = .warm flr → b ∈ s.rst.busy →
    let t : State := { s with rst := { s.rst with busy := s.rst.busy.erase b } }
    s.idleBlk b = if s.rst.busy.erase b = [] then t.warmAssert flr else t)
  ∧ (∀ (flr : Bool) (s : State), let u := s.warmAssert flr
    u.tiles = [] ∧ u.net = [] ∧ u.tape.cmds = [] ∧ u.safe = false ∧ u.rst.fabricOk = true ∧ u.get R.GC_STATE_FABRIC_READY = 1
    ∧ (s.mem.move = none → s.mem.heldReqs = [] → s.cxl.biasReqs = [] → u.mem.data = s.mem.data ∧ u.mem.exts = s.mem.exts)
    ∧ (flr = true → u.cxl.linkUp = s.cxl.linkUp ∧ u.cxl.hdm = s.cxl.hdm)
    ∧ (flr = false → u.cxl.linkUp = false ∧ u.cxl.hdm = []))

/-- The end of a start, and the safe state (spec/14_reset_bringup_selftest.md R452 to R456, spec/15_faults_and_safe_state.md
R469, R470; whether burns succeed is a free value: log entry 5). -/
def Obligations.StartsEndReadyAndSafeEntryStopsAll : Prop :=
  -- training and the fill
  (∀ (refused : List Nat) (s : State), s.rst.seq = .start → s.rst.fabricOk = true → s.rst.trainedOk = false →
    let full := if s.th.trained = some (s.get R.RST_STRAPS_CLK_MODE) then (List.range 24).filter fun n => refused.contains n else List.range 24
    ∃ t u : State, exec (.channelTrained refused) s = .next ((State.repairRows u u.th.repairs []).setFilling true)
      ∧ Only [.bar] s t ∧ (∀ n, n < 24 → t.get (R.MC_STATUS_CH_OK n) = 15)
      ∧ Only [.th, .rst] (full.foldl (fun s _ => s.raise Code.RST_TRAIN 0xC65 0 0) t) u
      ∧ u.rst.trainedOk = true ∧ u.th = { s.th with trained := some (s.get R.RST_STRAPS_CLK_MODE) })
  ∧ (∀ s : State, s.rst.seq = .start → s.rst.trainedOk = true → s.rst.filled = false → ∃ u, exec .zeroFillDone s = .next u
    ∧ Only [.bar, .rst] s u ∧ u.rst = { s.rst with filled := true }
    ∧ ((∀ n, n < 24 → s.get (R.MC_STATUS_CH_OK n) = 15) → u.get R.GC_STATE_MEM_READY = 1)
    ∧ ((∃ n, n < 24 ∧ s.get (R.MC_STATUS_CH_OK n) ≠ 15) → u.get R.GC_STATE_MEM_READY = s.get R.GC_STATE_MEM_READY)
    ∧ ∀ n, n < 24 → u.get (R.MC_STATUS_FILLING n) = 0)
  -- readiness
  ∧ (∀ s : State,
    (s.rst.seq = .start → s.rst.filled = true → s.rst.fabricOk = true → s.get R.GC_STATE_MEM_READY = 1 → exec .startReady s = .next s.becomeReady)
    ∧ (∀ flr, s.rst.seq = .warm flr → s.rst.busy = [] → exec .startReady s = .next s.becomeReady)
    ∧ (s.rst.seq = .start → exec .rstReadyDeadline s
      = .next (({ s with rst := { s.rst with seq := .none } } : State).raise Code.RST_READY_DEADLINE 0xC65 0 0))
    ∧ (∀ flr, s.rst.seq = .warm flr → exec .rstReadyDeadline s
      = .next (({ s with rst := { s.rst with seq := .none, busy := [] } } : State).raise Code.RST_READY_DEADLINE 0xC65 0 0)))
  ∧ (∀ s : State, let t : State := { s with rst := { s.rst with seq := .none } }
    (s.rst.repairFail = true → s.becomeReady = t.raise Code.RST_REPAIR_FAIL 0xC65 0 0)
    ∧ (s.rst.repairFail = false → ∃ u : State, s.becomeReady = u.advanceFuses ∧ Only [.bar] t u ∧ u.get R.GC_STATE_STATE = 1
      ∧ OnlyFields [R.GC_STATE_STATE] t u))
  ∧ (∀ s : State, let u := s.advanceFuses
    (s.th.advanced = true ∨ s.rst.fwRunning = false → u = s)
    ∧ (s.th.advanced = false → s.rst.fwRunning = true → u.th.advanced = true ∧ s.th.rollback ≤ u.th.rollback
      ∧ (∀ k ∈ s.th.revoked, k ∈ u.th.revoked)
      ∧ (s.get R.RST_OPT_AUTO_ADVANCE ≠ 1 → u = { s with th := { s.th with advanced := true } })
      ∧ (∀ k ∈ u.th.revoked, k ∈ s.th.revoked ∨ k < s.get R.TH_STATUS_KEY_IDX)
      ∧ u.th.rollback ≤ max s.th.rollback (s.get R.TH_VERSION_FW_SVN)))
  -- entry to the safe state
  ∧ (∀ s : State, s.flt.fatal = true → s.flt.safe = false → ∃ u, exec .safeStateEntry s = .next u
    ∧ u.safe = true ∧ u.flt.fatal = false ∧ u.flt.cause = s.flt.cause ∧ u.get R.GC_STATE_STATE = 2 ∧ u.rst.seq = .none
    ∧ u.phase ≠ 1 ∧ u.phase ≠ 2 ∧ u.phase ≠ 3 ∧ u.press.cmd = none ∧ u.seam.insts = [] ∧ u.mem = s.mem
    ∧ (∀ k, ((u.tile k).bob 0).run = false ∧ ((u.tile k).bob 1).run = false) ∧ (∀ p, p < 8 → s.link p = 3 ∨ s.link p = 4 → u.link p = 5)
    ∧ (∀ p, p < 8 → s.link p ≠ 3 → s.link p ≠ 4 → u.link p = s.link p)
    ∧ (s.pow.railsUp = 7 → ∀ p, p < 36 → s.get (R.PNL_STATUS_FDEL p) ≠ 400 →
        (s.panel p).changing = false → (u.panel p).changing = true ∧ (u.panel p).ftgt = 400 ∧ (u.panel p).vtgt = 600 ∧ (u.panel p).acks = [])
    ∧ (s.cxl.msixEnable = true → s.cxl.msixFuncMask = false → s.tape.msixMask.getD 0 true = false → Out.msix 0 ∈ u.out))
  ∧ (∀ s : State, s.flt.fatal = true ∨ s.flt.safe = true →
    ∃ t u : State, (s.flt.safe = true → t = s) ∧ (s.flt.safe = false → exec .safeStateEntry { s with flt := { s.flt with fatal := true } } = .next t)
      ∧ exec .fltSafeDeadline s = .next u
      ∧ u.safe = true ∧ u.pow = { t.pow with railsUp := min t.pow.railsUp 6 } ∧ u.get R.PWR_STATUS_STATE = 5
      ∧ Only [.bar, .pow] (t.raise Code.FLT_SAFE_DEADLINE 0xC65 0 0) u)
  -- in the safe state
  ∧ (∀ s : State, s.safe = true → s.takesPackets = false ∧ s.tapeState = 4
    ∧ (∀ tag ep k code b, s.reply tag ep k code b = s) ∧ ∀ (tag op : Nat) (f : State → Cmd → State), s.withCmd tag op f = s)

/-- The fuse-held option bytes: what each does, and that no command and no idle step restores one
(spec/14_reset_bringup_selftest.md R449). -/
def Obligations.FusesAreNeverRestored : Prop :=
  -- a fuse once burnt is never restored
  (∀ s t : State, s.th.keyIndex ≤ 3 → step s = .next t →
    s.th.rollback ≤ t.th.rollback ∧ (∀ k ∈ s.th.revoked, k ∈ t.th.revoked) ∧ s.th.keyIndex ≤ t.th.keyIndex ∧ t.th.keyIndex ≤ 3
    ∧ (s.th.sealed = true → t.th.sealed = true) ∧ (s.th.policyLock = true → t.th.policyLock = true))
  -- what each does
  ∧ (∀ (o : List Byte) (d : Bool) (s : State), s.th.keyIndex ≤ 3 →
    let u := s.applyOptions o d
    u.get R.RST_OPT_KEY_INDEX = s.th.keyIndex
    ∧ (s.th.sealed = true → u.th.debugLock = 0 ∧ u.get R.RST_OPT_DEBUG_LOCK = 0 ∧ u.get R.RST_OPT_SEAL = 1)
    ∧ (s.th.policyLock = true → u.get R.RST_OPT_AUTO_ADVANCE = 1 ∧ u.get R.RST_OPT_UPDATE_AUTH = 1 ∧ u.get R.RST_OPT_POLICY_LOCK = 1))
  ∧ ∀ s : State, s.showField none R.TH_ROLLBACK_COUNTER = s.th.rollback

/-- The debug lock (spec/12_thimble_management_security.md R399). -/
def Obligations.DebugAccessFollowsTheLock : Prop :=
  (∀ s : State, s.debugOk = true ↔ s.th.debugLock = 2 ∨ (s.th.debugLock = 1 ∧ s.th.unlocked = true))
  ∧ (∀ s : State,
    (s.th.debugLock = 0 ∨ s.th.debugLock = 3 → s.debugOk = false ∧ s.showField none R.TH_STATUS_DEBUG = 0
      ∧ ∀ (v : MVia) (n : List Byte) (g : RsaSig), ∃ t, exec (.debugUnlock v n g) s = .next t ∧ t.debugOk = false)
    ∧ (s.th.debugLock = 1 → s.showField none R.TH_STATUS_DEBUG = if s.th.unlocked then 1 else 0)
    ∧ (s.th.debugLock = 2 → s.showField none R.TH_STATUS_DEBUG = 2))

/-- The power envelope (spec/13_panels_clocks_power.md R427). -/
def Obligations.TheEnvelopeFaultNeedsFullCapAndExcess : Prop :=
  ∀ (p100 : Nat) (s : State),
    (s.get R.PWR_STATUS_FCAP = 400 → s.get R.PWR_CFG_P_LIMIT * 1000 < p100 →
      exec (.envelopeTimeout p100) s = .next (s.raise Code.PWR_ENVELOPE 0xC64 134 p100))
    ∧ (s.get R.PWR_STATUS_FCAP ≠ 400 ∨ p100 ≤ s.get R.PWR_CFG_P_LIMIT * 1000 → exec (.envelopeTimeout p100) s = .next s)

/-- The safe state is left only through a reset and entered only by its entry (spec/15_faults_and_safe_state.md R469,
R472). -/
def Obligations.TheSafeStateEndsOnlyByReset : Prop :=
  (∀ (c : Instr) (s t : State), s.safe = true → exec c s = .next t → t.safe = false →
    (∃ b k, c = .vauxValid b k) ∨ c ∈ [Instr.vauxLoss, .auxRstN, .input50vValid, .sysRstN, .perstAssert, .hotReset, .flr]
      ∨ ∃ b, c = .blockIdle b ∨ c = .idleTimeout b)
  ∧ (∀ (c : Instr) (s t : State), s.safe = false → exec c s = .next t → t.safe = true → c = .safeStateEntry ∨ c = .fltSafeDeadline)
  ∧ (∀ s : State, s.tick.safe = s.safe)

/-- The byte memories are in canonical form. -/
def Canonical (s : State) : Prop :=
  s.mem.data.wf = true ∧ s.host.wf = true ∧ (∀ e ∈ s.tiles, e.2.spad.wf = true) ∧ ∀ m, s.th.flash = some m → m.wf = true

/-- Every step keeps the byte memories in the model's canonical form (an unlisted byte reads zero, as the zero fill of
spec/08_memory_system.md R285 leaves it). -/
def Obligations.MemoriesStayCanonical : Prop :=
  ∀ s t : State, Canonical s → step s = .next t → Canonical t

/-- The invariants hold at reset (values that no source gives: log entry 3). -/
def Obligations.ResetMeetsTheInvariants : Prop :=
  State.reset.th.keyIndex ≤ 3 ∧ State.reset.th.rollback ≤ 63 ∧ Canonical State.reset ∧ State.reset.pending = []
    ∧ State.reset.flt.waiting = [] ∧ State.reset.flt.fatal = false ∧ State.reset.safe = false

/-- Every command goes on: a fault is an effect on the state (spec/15_faults_and_safe_state.md R463), and a command acts on
everything but the queue. -/
def Obligations.EveryCommandGoesOnAndLeavesTheQueue : Prop :=
  ∀ (c : Instr) (s : State), ∃ t, exec c s = .next t ∧ t.pending = s.pending

/-- Completion of `RECV`, `SEND`, `RING_ACCESS_RESUME`, `TILE_RING_STALL`, `BASTE_SEW` and `BASTE_SQUASH`
(spec/04_fabric_tokens_and_steering.md R116, R119, R123, R135, spec/03_compute_tile.md R97, R107, R108). -/
def Obligations.TileProgramCommandsComplete : Prop :=
  (∀ (k q g adr : Nat) (tk : Token) (s : State), s.fetches k 0x1C = true → (s.tile k).outstanding < 96 →
    qEn (s.tile k).regs q = true → (s.tile k).get (T.QCFG_CONS q) = 0 → (s.tile k).head q = some tk → hKind tk.hdr = kData →
    hBasted tk.hdr = false → tk.pay ≠ [] → (s.tile k).landing (.spad g) (hSlot tk.hdr) tk.pay.length = .ok adr →
    exec (.recv k .ok .ok q (.spad g)) s
      = .next ((s.progTake k q tk).onTile k fun x => (x.land (.ok adr) (hSlot tk.hdr) tk.pay).advance))
  ∧ (∀ (k c slot len : Nat) (s : State), s.fetches k 0x1D = true → len ≤ 64 → (s.tile k).outstanding < 96 →
    chEn (s.tile k).regs c = true → (s.tile k).unitBusy .vector = false → (s.tile k).canSend c = true → (s.tile k).entries = [] →
    exec (.send k ⟨.ok, .none⟩ c slot .vec len) s
      = .next ((s.sendNew k c (if (s.tile k).get (T.OCH_CTL c) = 1 then kCtl else kData) slot false
          ((s.tile k).sendBytes .vec len)).onTile k Tile.advance))
  ∧ (∀ (k n b : Nat) (s : State), s.issues = true → ((s.tile k).bob b).stalled = true →
    exec (.ringAccessResume k (.bob b) n) s = .next ((s.stalledCycles k n).onTile k fun x =>
      ((x.setBob b { x.bob b with stalled := false }).set (T.BOB_STAT_STATE b) 1).untrip (.bob b)))
  ∧ (∀ (k n r : Nat) (prod : Bool) (op : TileOp) (s : State), s.issues = true → (s.tile k).stall = some ⟨r, prod, some op⟩ →
    s.retry k op = .ok 0 →
    exec (.ringAccessResume k .prog n) s
      = .next (((s.stalledCycles k n).onTile k fun x => { x with stall := none }).issue k op))
  ∧ (∀ (k n r : Nat) (prod : Bool) (op : Option TileOp) (s : State), (s.tile k).stall = some ⟨r, prod, op⟩ → s.stallCounts prod = true →
    exec (.tileRingStall k ⟨.prog, n⟩) s
      = .next ((s.stalledCycles k n).tileStop k Code.TILE_RING_STALL (r + (if prod then 0x8000 else 0))))
  ∧ (∀ (k idx : Nat) (e : BEntry) (s : State), (s.tile k).entries[idx]? = some e → e.verdict = none →
    exec (.basteSew ⟨k, idx⟩) s = .next (s.verdictAt k e.q (hTag e.tok.hdr) true)
    ∧ exec (.basteSquash k idx) s = .next (s.verdictAt k e.q (hTag e.tok.hdr) false))

/-- Completion of the thirteen commands of panels, governor, temperature and droop (spec/13_panels_clocks_power.md R416 to
R430). -/
def Obligations.PanelCommandsComplete : Prop :=
  (∀ (p : Nat) (v : W32) (s : State), p < 36 → bit v.toNat 0 = true → s.takesWrite none (0x80000 + 0x400 * p) = true →
    s.frozen (0x80000 + 0x400 * p) = false → anyStaged s.barStage (fun o => o = 0x80000 + 0x400 * p) = true →
    s.pow.commits = [] → (s.panel p).changing = false → exec (.pnlCommit p v) s = .next (s.applyPanel p))
  ∧ (∀ (p : Nat) (s : State), (s.panel p).changing = true → (s.panel p).acks = [] →
    exec (.panelChangeEnd p) s = .next (((((s.setPanel p { s.panel p with changing := false, ann := (s.panel p).ftgt }).setAll
      [(R.PNL_STATUS_FDEL p, (s.panel p).ftgt), (R.PNL_STATUS_VDEL p, (s.panel p).vtgt)]).adjust p).drainCommits 36)))
  ∧ (∀ (p q f : Nat) (s : State), q ∈ nbrs p → (s.panel q).ann = f → (s.panel p).changing = false →
    exec (.neighbourAnnounce p q f) s
      = .next ((s.onPanel p fun x => { x with nbAnn := kvSet x.nbAnn q f }).adjust p))
  ∧ (∀ (p q : Nat) (s : State), (s.panel p).changing = true → q ∈ (s.panel p).acks →
    kvGet? (s.panel q).nbAnn p = some (s.panel p).ann →
    exec (.neighbourCapAck p q) s = .next (s.setPanel p { s.panel p with acks := (s.panel p).acks.erase q }))
  ∧ (∀ (p : Nat) (s : State), (s.panel p).changing = true →
    exec (.pwrChangeDeadline p) s = .next (s.raise Code.PWR_CHANGE_DEADLINE (panelUnit p) (96 + p) (s.get (R.PNL_STATUS_FDEL p))))
  ∧ (∀ (p100 p1ms p1s vin iin : Nat) (s : State), 7 ≤ s.pow.railsUp →
    let t := s.setAll [(R.PWR_STATUS_P_1S, p1s / 1000), (R.PWR_STATUS_P_1MS, p1ms / 1000), (R.PWR_INPUT_VIN, vin / 10),
      (R.PWR_INPUT_IIN, iin / 10)]
    (t.get R.PWR_CFG_P_LIMIT - 4) * 1000 < p100 →
    exec (.governorSlowLoop p100 p1ms p1s vin iin) s = .next (t.setFcap (max 400 (t.get R.PWR_STATUS_FCAP - 25))))
  ∧ (∀ (p1ms : Nat) (s : State), 7 ≤ s.pow.railsUp → 95 * 1000 * s.get R.PWR_CFG_P_PEAK < 100 * p1ms →
    let t : State := { s with pow := { s.pow with fastAt := some s.now } }
    exec (.governorFastLoop p1ms) s = .next (t.setFcap (max 400 (t.get R.PWR_STATUS_FCAP - 100))))
  ∧ (∀ (p : Nat) (v : Int) (s : State), 7 ≤ s.pow.railsUp → p < 36 →
    exec (.thermalSample (.panel p) v) s = .next (s.panelSample p v))
  ∧ (∀ (p : Nat) (s : State), p < 36 → (s.get R.PWR_CFG_T_THROTTLE : Int) * 16 ≤ (s.panel p).temp →
    exec (.thermalCapStep p) s = .next ((s.setPanel p { s.panel p with tcap := max 400 ((s.panel p).tcap - 25) }).adjust p))
  ∧ (∀ (p : Nat) (s : State), s.pow.tripped = true → p < 36 → 1840 ≤ (s.panel p).temp →
    exec .tripPersistTimeout s = .next (State.set
      { s with pow := { s.pow with railsUp := min s.pow.railsUp 6, tripped := false } } R.PWR_STATUS_STATE 5))
  ∧ (∀ (p q : Nat) (s : State), q ∈ nbrs p → 480 < (s.panel p).temp - (s.panel q).temp →
    exec (.nbTempDeadline p q) s = .next (s.raise Code.PWR_NEIGHBOUR (panelUnit p) p (argOf (s.panel p).temp)))
  ∧ (∀ (p : Nat) (s : State), p < 36 → (s.panel p).droop = false →
    exec (.droop p) s = .next ((s.onPanel p fun x => { x with droop := true }).bump R.DROOPS 1))
  ∧ (∀ (p : Nat) (s : State), (s.panel p).droop = true →
    exec (.droopEnd p) s = .next (s.onPanel p fun x => { x with droop := false }))

/-- Completion of the PLDM base and monitoring commands, of MCTP control and of the alert response
(spec/12_thimble_management_security.md R389 to R403, Table 12.5, spec/16_module_connections.md R487; response contents that
the DMTF standards lay down: log entry 17). -/
def Obligations.ManagementMessagesComplete : Prop :=
  (∀ (v : MVia) (s : State), s.serves? v true = true →
    exec (.getTid v) s = .next ((s.freeBytes 1).2.msgAnswer (s.freeBytes 1).1)
    ∧ (∀ eid, 1 ≤ eid → eid ≤ 254 →
        exec (.setEndpointId v eid) s = .next (State.msgAnswer { s with th := { s.th with eid := eid } } (leBytes 1 eid)))
    ∧ exec (.getEndpointId v) s = .next (s.msgAnswer (leBytes 1 s.th.eid))
    ∧ exec (.getMctpVersionSupport v) s = .next (s.msgAnswer [1, 3])
    ∧ exec (.getMessageTypeSupport v) s = .next (s.msgAnswer [1, 5, 6]))
  ∧ (∀ (v : MVia) (s : State), s.serves? v false = true →
    exec (.getPldmVersion v) s = .next (s.msgAnswer [1, 1])
    ∧ exec (.getPldmTypes v) s = .next (s.msgAnswer [0x25, 0, 0, 0, 0, 0, 0, 0])
    ∧ (∀ ty l, pldmCommands ty = some l → exec (.getPldmCommands v ty) s = .next (s.msgAnswer (codeMask l)))
    ∧ exec (.getPdrRepositoryInfo v) s = .next (s.msgAnswer [139, 0, 0, 0])
    ∧ (∀ k, k < 139 → exec (.getPdr v (k + 1)) s = .next (s.msgAnswer (leBytes 2 (k + 1) ++ leBytes 1 (sensorUnit k)
        ++ (s.thresholds k).flatMap fun t => leBytes 3 (sensorValue t))))
    ∧ (∀ k, k < 139 → exec (.getSensorReading v (k + 1)) s = .next (s.msgAnswer (leBytes 1 (if s.th.sensorOff.contains k then 1
        else if s.get (R.TH_SENSOR_VALID k) = 1 then 0 else 2) ++ leBytes 3 (s.get (R.TH_SENSOR_VALUE k)))))
    ∧ (∀ k, k < 139 →
        exec (.setNumericSensorEnable v (k + 1) 0) s = .next (State.msgAnswer
          { s with th := { s.th with sensorOff := s.th.sensorOff.filter (· ≠ k) } } [])
        ∧ exec (.setNumericSensorEnable v (k + 1) 1) s = .next (State.msgAnswer
          { s with th := { s.th with sensorOff := k :: s.th.sensorOff.filter (· ≠ k) } } []))
    ∧ (∀ en eid, exec (.setEventReceiver v en eid) s
        = .next (State.msgAnswer { s with th := { s.th with receiver := if en then some (v.vdm, eid) else none } } [])))
  ∧ (∀ s : State, s.pins.vaux = true → s.th.alert = true →
    exec .smbusAlertResponse s = .next { s with th := { s.th with alert := false } })

/-- Completion of the thirteen messages of a firmware update (spec/12_thimble_management_security.md R390 to R392,
Table 12.5; the contents that the DMTF standards lay down: log entry 17). -/
def Obligations.FirmwareUpdateMessagesComplete : Prop :=
  ∀ (v : MVia) (s : State), s.serves? v true = true →
    exec (.queryDeviceIdentifiers v) s = .next (s.msgAnswer (leBytes 2 Config.vendorId.toNat ++ leBytes 2 (s.get R.GC_ID_DEVICE)))
    ∧ (s.rst.fwRunning = true → exec (.getFirmwareParameters v) s = .next (s.msgAnswer (leBytes 2 0x000A ++ leBytes 2 0x0001
        ++ leBytes 4 s.th.fwVersion ++ leBytes 1 (s.get R.TH_STATUS_ACT_PEND))))
    ∧ exec (.getStatus v) s = .next (s.msgAnswer (leBytes 1 s.th.upd.phase.num ++ leBytes 4 s.th.upd.written))
    ∧ (∀ n, s.th.upd.phase = .idle → s.rst.fwRunning = false ∨ v.sess ≠ none →
        exec (.requestUpdate v n) s = .next ((State.set { s with th := { s.th with
          upd := { vdm := v.vdm, phase := .requested, maxXfer := n } } } R.TH_STATUS_UPDATE 1).msgAnswer []))
    ∧ (s.th.upd.phase = .requested →
        exec (.passComponentTable v 0x000A 1) s = .next (s.msgAnswer [])
        ∧ ∀ size, ∃ u : Update, exec (.updateComponent v 0x000A 1 size) s
            = .next (State.askData (State.msgAnswer { s with th := { s.th with upd := u } } []))
          ∧ u.phase = .receiving ∧ u.size = size ∧ u.written = 0)
    ∧ (∀ data, s.th.upd.phase = .receiving → data ≠ [] → data.length = s.th.upd.nextLen →
        let u := if s.rst.fwRunning then s.updateData data else s.recoverData data
        exec (.firmwareData v s.th.upd.written data) s = .next (if u.th.upd.phase = .receiving then u.askData else u))
    ∧ (s.th.upd.phase = .receiving → s.th.upd.written = s.th.upd.size →
        exec (.transferComplete v) s
          = .next (State.msgAnswer { s with th := { s.th with upd := { s.th.upd with phase := .received } } } []))
    ∧ (s.th.upd.phase = .received → s.imageFault = none →
        exec (.verifyComplete v) s = .next (((((State.set { s with th := { s.th with
          imgInvalid := false, upd := { s.th.upd with phase := .verified, passed := true } } } R.TH_STATUS_ACT_PEND 1).bump R.UPDATES 1).thEvent
          1).msgAnswer [])))
    ∧ (s.th.upd.phase = .verified → exec (.applyComplete v) s = .next (s.msgAnswer [])
        ∧ exec (.activateFirmware v false) s = .next (s.endUpdate.msgAnswer []))
    ∧ (s.th.upd.phase = .receiving → exec (.cancelUpdateComponent v) s = .next (State.msgAnswer { s with th := { s.th with
        upd := { vdm := s.th.upd.vdm, phase := .requested, maxXfer := s.th.upd.maxXfer } } } []))
    ∧ (s.th.upd.phase ≠ .idle → exec (.cancelUpdate v) s = .next (s.endUpdate.msgAnswer []))

/-- Completion of the SPDM messages (spec/12_thimble_management_security.md R393 to R396, Table 12.6; signatures are free
values: log entry 5; layouts that the DMTF standards lay down: log entry 17). -/
def Obligations.SpdmMessagesComplete : Prop :=
  (∀ (v : MVia) (s : State), s.serves? v false = true →
    exec (.getVersion v) s = .next (State.msgAnswer { s with th := { s.th with algs := false } } [0x10, 0x11, 0x12])
    ∧ exec (.getCapabilities v) s = .next (s.msgAnswer [10])
    ∧ exec (.negotiateAlgorithms v true) s = .next (State.msgAnswer { s with th := { s.th with algs := true } } [])
    ∧ (s.th.algs = true →
      exec (.getDigests v) s = .next (s.msgAnswer (sha256 certChain))
      ∧ (∀ off len, off < certChain.length →
          exec (.getCertificate v 0 off len) s = .next (s.msgAnswer ((certChain.drop off).take len)))
      ∧ (∀ b, b.length = 32 → exec (.challenge v 0 b) s = .next (s.msgSigned (sha256 certChain ++ b))
          ∧ exec (.getMeasurements v 0xFF b) s = .next (s.msgSigned (s.measBlocks 0 ++ b)))
      ∧ (∀ id, s.th.sessions.length < 4 → (∀ x ∈ s.th.sessions, x.id ≠ id) → exec (.keyExchange v id true) s
          = .next (State.msgSigned { s with th := { s.th with sessions := s.th.sessions ++ [⟨id, false⟩] } } []))
      ∧ (∀ id, (⟨id, false⟩ : Sess) ∈ s.th.sessions → exec (.finish v id true) s
          = .next ((State.bump { s with th := { s.th with
              sessions := s.th.sessions.map fun x => if x.id = id then { x with est := true } else x } }
              R.SPDM_SESSIONS 1).msgAnswer [])))
    ∧ (∀ id, s.th.hasSess id = true → exec (.heartbeat v id true) s = .next (s.msgAnswer [])
        ∧ exec (.keyUpdate v id true) s = .next (s.msgAnswer [])
        ∧ exec (.endSession v id true) s = .next ((s.dropSess id).msgAnswer [])))
  ∧ (∀ (id : Nat) (s : State), s.fwServes = true → s.th.hasSess id = true → exec (.heartbeatTimeout id) s = .next (s.dropSess id))
end

