-- ==== Sys2Proof/Laws/Kv.lean ====
section
/-! SUPPORT. Sparse tables and byte memory: read after write, writes elsewhere, and the canonical form kept. -/

namespace Sys2Proof.Machine

variable {α : Type}

@[simp] theorem kvGet?_kvSet_same (m : Kv α) (k : Nat) (v : α) : kvGet? (kvSet m k v) k = some v := by
  induction m with
  | nil => simp [kvSet, kvGet?]
  | cons e t ih =>
    obtain ⟨k', v'⟩ := e
    simp only [kvSet]
    split
    · simp [kvGet?]
    · split
      · simp [kvGet?]
      · rename_i h; simp [kvGet?, h, ih]

theorem kvGet?_kvSet_other (m : Kv α) {k j : Nat} (v : α) (h : j ≠ k) : kvGet? (kvSet m k v) j = kvGet? m j := by
  induction m with
  | nil => simp [kvSet, kvGet?, h]
  | cons e t ih =>
    obtain ⟨k', v'⟩ := e
    simp only [kvSet]
    split
    · simp [kvGet?, h]
    · split
      · rename_i h2; subst h2; simp [kvGet?, h]
      · simp [kvGet?, ih]

@[simp] theorem kvGet_kvSet_same (d : α) (m : Kv α) (k : Nat) (v : α) : kvGet d (kvSet m k v) k = v := by
  simp [kvGet]

theorem kvGet_kvSet_other (d : α) (m : Kv α) {k j : Nat} (v : α) (h : j ≠ k) : kvGet d (kvSet m k v) j = kvGet d m j := by
  simp [kvGet, kvGet?_kvSet_other m v h]

@[simp] theorem kvGet?_kvErase_same (m : Kv α) (k : Nat) : kvGet? (kvErase m k) k = none := by
  induction m with
  | nil => rfl
  | cons e t ih =>
    obtain ⟨k', v'⟩ := e
    simp only [kvErase]
    split
    · exact ih
    · rename_i h; simp [kvGet?, h, ih]

theorem kvGet?_kvErase_other (m : Kv α) {k j : Nat} (h : j ≠ k) : kvGet? (kvErase m k) j = kvGet? m j := by
  induction m with
  | nil => rfl
  | cons e t ih =>
    obtain ⟨k', v'⟩ := e
    simp only [kvErase]
    split
    · rename_i h2; subst h2; simp [kvGet?, h, ih]
    · simp [kvGet?, ih]

/-! ### Byte memory -/

@[simp] theorem memRead_memWrite_same (m : Memory) (a : Nat) (b : Byte) : memRead (memWrite m a b) a = b := by
  unfold memRead memWrite
  split
  · rename_i h; simp [kvGet, h]
  · simp

theorem memRead_memWrite_other (m : Memory) {a c : Nat} (b : Byte) (h : c ≠ a) :
    memRead (memWrite m a b) c = memRead m c := by
  unfold memRead memWrite
  split
  · simp [kvGet, kvGet?_kvErase_other m h]
  · exact kvGet_kvSet_other 0 m b h

theorem memRead_memWriteN_below (l : List Byte) (m : Memory) (a c : Nat) (h : c < a) :
    memRead (memWriteN m a l) c = memRead m c := by
  induction l generalizing m a with
  | nil => rfl
  | cons b t ih => rw [memWriteN, ih _ _ (by omega), memRead_memWrite_other _ _ (by omega)]

theorem memRead_memWriteN_above (l : List Byte) (m : Memory) (a c : Nat) (h : a + l.length ≤ c) :
    memRead (memWriteN m a l) c = memRead m c := by
  induction l generalizing m a with
  | nil => rfl
  | cons b t ih =>
    simp only [List.length_cons] at h
    rw [memWriteN, ih _ _ (by omega), memRead_memWrite_other _ _ (by omega)]

/-- The canonical form as a property of the list of cells. -/
theorem Memory.wf_iff (m : Memory) :
    m.wf = true ↔ m.Pairwise (fun c d => c.1 < d.1) ∧ ∀ c ∈ m, c.2 ≠ 0 := by
  induction m with
  | nil => simp [Memory.wf]
  | cons c t ih =>
    cases t with
    | nil => simp [Memory.wf]
    | cons d t =>
      simp only [Memory.wf, Bool.and_eq_true, decide_eq_true_eq, ih, List.pairwise_cons, List.mem_cons, forall_eq_or_imp]
      constructor
      · rintro ⟨⟨h1, h2⟩, ⟨h3, h4⟩, h5⟩
        exact ⟨⟨⟨h1, fun x hx => Nat.lt_trans h1 (h3 x hx)⟩, h3, h4⟩, h2, h5⟩
      · rintro ⟨⟨⟨h1, -⟩, h3, h4⟩, h2, h5⟩
        exact ⟨⟨h1, h2⟩, ⟨h3, h4⟩, h5⟩

theorem kvErase_sublist (m : Kv α) (k : Nat) : (kvErase m k).Sublist m := by
  induction m with
  | nil => exact .slnil
  | cons e t ih =>
    obtain ⟨k', v'⟩ := e
    simp only [kvErase]
    split
    · exact ih.cons _
    · exact ih.cons_cons _

theorem mem_kvSet (m : Kv α) (k : Nat) (v : α) (c : Nat × α) (h : c ∈ kvSet m k v) : c = (k, v) ∨ c ∈ m := by
  induction m with
  | nil => simpa [kvSet] using h
  | cons e t ih =>
    obtain ⟨k', v'⟩ := e
    simp only [kvSet] at h
    split at h
    · simpa using h
    · split at h
      · rcases List.mem_cons.1 h with h | h
        · exact .inl h
        · exact .inr (List.mem_cons_of_mem _ h)
      · rcases List.mem_cons.1 h with h | h
        · exact .inr (h ▸ List.mem_cons_self ..)
        · exact (ih h).imp id (List.mem_cons_of_mem _)

theorem kvSet_rising (m : Kv α) (k : Nat) (v : α) (h : m.Pairwise fun c d => c.1 < d.1) :
    (kvSet m k v).Pairwise fun c d => c.1 < d.1 := by
  induction m with
  | nil => simp [kvSet]
  | cons e t ih =>
    obtain ⟨k', v'⟩ := e
    obtain ⟨h1, h2⟩ := List.pairwise_cons.1 h
    simp only [kvSet]
    split
    · rename_i hk
      refine List.pairwise_cons.2 ⟨fun c hc => ?_, h⟩
      rcases List.mem_cons.1 hc with hc | hc
      · subst hc; exact hk
      · exact Nat.lt_trans hk (h1 c hc)
    · split
      · rename_i hk; subst hk
        exact List.pairwise_cons.2 ⟨h1, h2⟩
      · rename_i hk hk2
        refine List.pairwise_cons.2 ⟨fun c hc => ?_, ih h2⟩
        rcases mem_kvSet t k v c hc with hc | hc
        · subst hc; simp only; omega
        · exact h1 c hc

/-- Writing a byte keeps the canonical form. -/
theorem memWrite_wf (m : Memory) (a : Nat) (b : Byte) (h : m.wf = true) : (memWrite m a b).wf = true := by
  rw [Memory.wf_iff] at *
  unfold memWrite
  split
  · exact ⟨h.1.sublist (kvErase_sublist m a), fun c hc => h.2 c ((kvErase_sublist m a).subset hc)⟩
  · rename_i hb
    refine ⟨kvSet_rising m a b h.1, fun c hc => ?_⟩
    rcases mem_kvSet m a b c hc with hc | hc
    · subst hc; exact hb
    · exact h.2 c hc

/-- Writing bytes keeps the canonical form. -/
theorem memWriteN_wf (l : List Byte) (m : Memory) (a : Nat) (h : m.wf = true) : (memWriteN m a l).wf = true := by
  induction l generalizing m a with
  | nil => exact h
  | cons b t ih => exact ih _ _ (memWrite_wf m a b h)

/-- Filling a range with zeros keeps the canonical form. -/
theorem memZero_wf (m : Memory) (lo hi : Nat) (h : m.wf = true) : (memZero m lo hi).wf = true := by
  rw [Memory.wf_iff] at *
  exact ⟨h.1.sublist List.filter_sublist, fun c hc => h.2 c (List.mem_of_mem_filter hc)⟩

/-- A byte of a range filled with zeros reads zero. -/
theorem memRead_memZero_in (m : Memory) (lo hi a : Nat) (h : lo ≤ a ∧ a < hi) : memRead (memZero m lo hi) a = 0 := by
  unfold memRead memZero kvGet
  induction m with
  | nil => rfl
  | cons e t ih =>
    obtain ⟨k, v⟩ := e
    by_cases hk : k < lo ∨ hi ≤ k
    · have : ((decide (k < lo) || decide (hi ≤ k)) = true) := by simpa using hk
      rw [List.filter_cons_of_pos (by simpa using hk)]
      simp only [kvGet?]
      rw [if_neg (by omega)]
      exact ih
    · rw [List.filter_cons_of_neg (by simpa using hk)]
      exact ih

/-- A cell of a table with rising keys is what a read of its key gives. -/
theorem kvGet?_of_mem (m : Kv α) (h : m.Pairwise fun c d => c.1 < d.1) (c : Nat × α) (hc : c ∈ m) :
    kvGet? m c.1 = some c.2 := by
  induction m with
  | nil => cases hc
  | cons e t ih =>
    obtain ⟨h1, h2⟩ := List.pairwise_cons.1 h
    rcases List.mem_cons.1 hc with hc | hc
    · subst hc; simp [kvGet?]
    · have := h1 c hc
      simp only [kvGet?]
      rw [if_neg (by omega)]
      exact ih h2 hc

end Sys2Proof.Machine
end

