-- ==== Sys2Proof/Laws/State.lean ====
section
/-! SUPPORT. One lemma per field per update: what the shared updates of the state leave as it was. -/

namespace Sys2Proof.Machine

@[simp] theorem State.set_barStage (s : State) (f : Fld) (v : Nat) : (s.set f v).barStage = s.barStage := rfl
@[simp] theorem State.set_barLatch (s : State) (f : Fld) (v : Nat) : (s.set f v).barLatch = s.barLatch := rfl
@[simp] theorem State.set_tiles (s : State) (f : Fld) (v : Nat) : (s.set f v).tiles = s.tiles := rfl
@[simp] theorem State.set_net (s : State) (f : Fld) (v : Nat) : (s.set f v).net = s.net := rfl
@[simp] theorem State.set_lane (s : State) (f : Fld) (v : Nat) : (s.set f v).lane = s.lane := rfl
@[simp] theorem State.set_fab (s : State) (f : Fld) (v : Nat) : (s.set f v).fab = s.fab := rfl
@[simp] theorem State.set_loader (s : State) (f : Fld) (v : Nat) : (s.set f v).loader = s.loader := rfl
@[simp] theorem State.set_unpick (s : State) (f : Fld) (v : Nat) : (s.set f v).unpick = s.unpick := rfl
@[simp] theorem State.set_press (s : State) (f : Fld) (v : Nat) : (s.set f v).press = s.press := rfl
@[simp] theorem State.set_mem (s : State) (f : Fld) (v : Nat) : (s.set f v).mem = s.mem := rfl
@[simp] theorem State.set_seam (s : State) (f : Fld) (v : Nat) : (s.set f v).seam = s.seam := rfl
@[simp] theorem State.set_tape (s : State) (f : Fld) (v : Nat) : (s.set f v).tape = s.tape := rfl
@[simp] theorem State.set_cxl (s : State) (f : Fld) (v : Nat) : (s.set f v).cxl = s.cxl := rfl
@[simp] theorem State.set_th (s : State) (f : Fld) (v : Nat) : (s.set f v).th = s.th := rfl
@[simp] theorem State.set_pow (s : State) (f : Fld) (v : Nat) : (s.set f v).pow = s.pow := rfl
@[simp] theorem State.set_rst (s : State) (f : Fld) (v : Nat) : (s.set f v).rst = s.rst := rfl
@[simp] theorem State.set_flt (s : State) (f : Fld) (v : Nat) : (s.set f v).flt = s.flt := rfl
@[simp] theorem State.set_pins (s : State) (f : Fld) (v : Nat) : (s.set f v).pins = s.pins := rfl
@[simp] theorem State.set_out (s : State) (f : Fld) (v : Nat) : (s.set f v).out = s.out := rfl
@[simp] theorem State.set_host (s : State) (f : Fld) (v : Nat) : (s.set f v).host = s.host := rfl
@[simp] theorem State.set_now (s : State) (f : Fld) (v : Nat) : (s.set f v).now = s.now := rfl
@[simp] theorem State.set_free (s : State) (f : Fld) (v : Nat) : (s.set f v).free = s.free := rfl
@[simp] theorem State.set_pending (s : State) (f : Fld) (v : Nat) : (s.set f v).pending = s.pending := rfl
@[simp] theorem State.setAll_barStage (s : State) (l : List (Fld × Nat)) : (s.setAll l).barStage = s.barStage := rfl
@[simp] theorem State.setAll_barLatch (s : State) (l : List (Fld × Nat)) : (s.setAll l).barLatch = s.barLatch := rfl
@[simp] theorem State.setAll_tiles (s : State) (l : List (Fld × Nat)) : (s.setAll l).tiles = s.tiles := rfl
@[simp] theorem State.setAll_net (s : State) (l : List (Fld × Nat)) : (s.setAll l).net = s.net := rfl
@[simp] theorem State.setAll_lane (s : State) (l : List (Fld × Nat)) : (s.setAll l).lane = s.lane := rfl
@[simp] theorem State.setAll_fab (s : State) (l : List (Fld × Nat)) : (s.setAll l).fab = s.fab := rfl
@[simp] theorem State.setAll_loader (s : State) (l : List (Fld × Nat)) : (s.setAll l).loader = s.loader := rfl
@[simp] theorem State.setAll_unpick (s : State) (l : List (Fld × Nat)) : (s.setAll l).unpick = s.unpick := rfl
@[simp] theorem State.setAll_press (s : State) (l : List (Fld × Nat)) : (s.setAll l).press = s.press := rfl
@[simp] theorem State.setAll_mem (s : State) (l : List (Fld × Nat)) : (s.setAll l).mem = s.mem := rfl
@[simp] theorem State.setAll_seam (s : State) (l : List (Fld × Nat)) : (s.setAll l).seam = s.seam := rfl
@[simp] theorem State.setAll_tape (s : State) (l : List (Fld × Nat)) : (s.setAll l).tape = s.tape := rfl
@[simp] theorem State.setAll_cxl (s : State) (l : List (Fld × Nat)) : (s.setAll l).cxl = s.cxl := rfl
@[simp] theorem State.setAll_th (s : State) (l : List (Fld × Nat)) : (s.setAll l).th = s.th := rfl
@[simp] theorem State.setAll_pow (s : State) (l : List (Fld × Nat)) : (s.setAll l).pow = s.pow := rfl
@[simp] theorem State.setAll_rst (s : State) (l : List (Fld × Nat)) : (s.setAll l).rst = s.rst := rfl
@[simp] theorem State.setAll_flt (s : State) (l : List (Fld × Nat)) : (s.setAll l).flt = s.flt := rfl
@[simp] theorem State.setAll_pins (s : State) (l : List (Fld × Nat)) : (s.setAll l).pins = s.pins := rfl
@[simp] theorem State.setAll_out (s : State) (l : List (Fld × Nat)) : (s.setAll l).out = s.out := rfl
@[simp] theorem State.setAll_host (s : State) (l : List (Fld × Nat)) : (s.setAll l).host = s.host := rfl
@[simp] theorem State.setAll_now (s : State) (l : List (Fld × Nat)) : (s.setAll l).now = s.now := rfl
@[simp] theorem State.setAll_free (s : State) (l : List (Fld × Nat)) : (s.setAll l).free = s.free := rfl
@[simp] theorem State.setAll_pending (s : State) (l : List (Fld × Nat)) : (s.setAll l).pending = s.pending := rfl
@[simp] theorem State.bump_barStage (s : State) (f : Fld) (n : Nat) : (s.bump f n).barStage = s.barStage := rfl
@[simp] theorem State.bump_barLatch (s : State) (f : Fld) (n : Nat) : (s.bump f n).barLatch = s.barLatch := rfl
@[simp] theorem State.bump_tiles (s : State) (f : Fld) (n : Nat) : (s.bump f n).tiles = s.tiles := rfl
@[simp] theorem State.bump_net (s : State) (f : Fld) (n : Nat) : (s.bump f n).net = s.net := rfl
@[simp] theorem State.bump_lane (s : State) (f : Fld) (n : Nat) : (s.bump f n).lane = s.lane := rfl
@[simp] theorem State.bump_fab (s : State) (f : Fld) (n : Nat) : (s.bump f n).fab = s.fab := rfl
@[simp] theorem State.bump_loader (s : State) (f : Fld) (n : Nat) : (s.bump f n).loader = s.loader := rfl
@[simp] theorem State.bump_unpick (s : State) (f : Fld) (n : Nat) : (s.bump f n).unpick = s.unpick := rfl
@[simp] theorem State.bump_press (s : State) (f : Fld) (n : Nat) : (s.bump f n).press = s.press := rfl
@[simp] theorem State.bump_mem (s : State) (f : Fld) (n : Nat) : (s.bump f n).mem = s.mem := rfl
@[simp] theorem State.bump_seam (s : State) (f : Fld) (n : Nat) : (s.bump f n).seam = s.seam := rfl
@[simp] theorem State.bump_tape (s : State) (f : Fld) (n : Nat) : (s.bump f n).tape = s.tape := rfl
@[simp] theorem State.bump_cxl (s : State) (f : Fld) (n : Nat) : (s.bump f n).cxl = s.cxl := rfl
@[simp] theorem State.bump_th (s : State) (f : Fld) (n : Nat) : (s.bump f n).th = s.th := rfl
@[simp] theorem State.bump_pow (s : State) (f : Fld) (n : Nat) : (s.bump f n).pow = s.pow := rfl
@[simp] theorem State.bump_rst (s : State) (f : Fld) (n : Nat) : (s.bump f n).rst = s.rst := rfl
@[simp] theorem State.bump_flt (s : State) (f : Fld) (n : Nat) : (s.bump f n).flt = s.flt := rfl
@[simp] theorem State.bump_pins (s : State) (f : Fld) (n : Nat) : (s.bump f n).pins = s.pins := rfl
@[simp] theorem State.bump_out (s : State) (f : Fld) (n : Nat) : (s.bump f n).out = s.out := rfl
@[simp] theorem State.bump_host (s : State) (f : Fld) (n : Nat) : (s.bump f n).host = s.host := rfl
@[simp] theorem State.bump_now (s : State) (f : Fld) (n : Nat) : (s.bump f n).now = s.now := rfl
@[simp] theorem State.bump_free (s : State) (f : Fld) (n : Nat) : (s.bump f n).free = s.free := rfl
@[simp] theorem State.bump_pending (s : State) (f : Fld) (n : Nat) : (s.bump f n).pending = s.pending := rfl
@[simp] theorem State.setTile_bar (s : State) (t : Nat) (x : Tile) : (s.setTile t x).bar = s.bar := rfl
@[simp] theorem State.setTile_barStage (s : State) (t : Nat) (x : Tile) : (s.setTile t x).barStage = s.barStage := rfl
@[simp] theorem State.setTile_barLatch (s : State) (t : Nat) (x : Tile) : (s.setTile t x).barLatch = s.barLatch := rfl
@[simp] theorem State.setTile_net (s : State) (t : Nat) (x : Tile) : (s.setTile t x).net = s.net := rfl
@[simp] theorem State.setTile_lane (s : State) (t : Nat) (x : Tile) : (s.setTile t x).lane = s.lane := rfl
@[simp] theorem State.setTile_fab (s : State) (t : Nat) (x : Tile) : (s.setTile t x).fab = s.fab := rfl
@[simp] theorem State.setTile_loader (s : State) (t : Nat) (x : Tile) : (s.setTile t x).loader = s.loader := rfl
@[simp] theorem State.setTile_unpick (s : State) (t : Nat) (x : Tile) : (s.setTile t x).unpick = s.unpick := rfl
@[simp] theorem State.setTile_press (s : State) (t : Nat) (x : Tile) : (s.setTile t x).press = s.press := rfl
@[simp] theorem State.setTile_mem (s : State) (t : Nat) (x : Tile) : (s.setTile t x).mem = s.mem := rfl
@[simp] theorem State.setTile_seam (s : State) (t : Nat) (x : Tile) : (s.setTile t x).seam = s.seam := rfl
@[simp] theorem State.setTile_tape (s : State) (t : Nat) (x : Tile) : (s.setTile t x).tape = s.tape := rfl
@[simp] theorem State.setTile_cxl (s : State) (t : Nat) (x : Tile) : (s.setTile t x).cxl = s.cxl := rfl
@[simp] theorem State.setTile_th (s : State) (t : Nat) (x : Tile) : (s.setTile t x).th = s.th := rfl
@[simp] theorem State.setTile_pow (s : State) (t : Nat) (x : Tile) : (s.setTile t x).pow = s.pow := rfl
@[simp] theorem State.setTile_rst (s : State) (t : Nat) (x : Tile) : (s.setTile t x).rst = s.rst := rfl
@[simp] theorem State.setTile_flt (s : State) (t : Nat) (x : Tile) : (s.setTile t x).flt = s.flt := rfl
@[simp] theorem State.setTile_pins (s : State) (t : Nat) (x : Tile) : (s.setTile t x).pins = s.pins := rfl
@[simp] theorem State.setTile_out (s : State) (t : Nat) (x : Tile) : (s.setTile t x).out = s.out := rfl
@[simp] theorem State.setTile_host (s : State) (t : Nat) (x : Tile) : (s.setTile t x).host = s.host := rfl
@[simp] theorem State.setTile_now (s : State) (t : Nat) (x : Tile) : (s.setTile t x).now = s.now := rfl
@[simp] theorem State.setTile_free (s : State) (t : Nat) (x : Tile) : (s.setTile t x).free = s.free := rfl
@[simp] theorem State.setTile_pending (s : State) (t : Nat) (x : Tile) : (s.setTile t x).pending = s.pending := rfl
@[simp] theorem State.onTile_bar (s : State) (t : Nat) (f : Tile → Tile) : (s.onTile t f).bar = s.bar := rfl
@[simp] theorem State.onTile_barStage (s : State) (t : Nat) (f : Tile → Tile) : (s.onTile t f).barStage = s.barStage := rfl
@[simp] theorem State.onTile_barLatch (s : State) (t : Nat) (f : Tile → Tile) : (s.onTile t f).barLatch = s.barLatch := rfl
@[simp] theorem State.onTile_net (s : State) (t : Nat) (f : Tile → Tile) : (s.onTile t f).net = s.net := rfl
@[simp] theorem State.onTile_lane (s : State) (t : Nat) (f : Tile → Tile) : (s.onTile t f).lane = s.lane := rfl
@[simp] theorem State.onTile_fab (s : State) (t : Nat) (f : Tile → Tile) : (s.onTile t f).fab = s.fab := rfl
@[simp] theorem State.onTile_loader (s : State) (t : Nat) (f : Tile → Tile) : (s.onTile t f).loader = s.loader := rfl
@[simp] theorem State.onTile_unpick (s : State) (t : Nat) (f : Tile → Tile) : (s.onTile t f).unpick = s.unpick := rfl
@[simp] theorem State.onTile_press (s : State) (t : Nat) (f : Tile → Tile) : (s.onTile t f).press = s.press := rfl
@[simp] theorem State.onTile_mem (s : State) (t : Nat) (f : Tile → Tile) : (s.onTile t f).mem = s.mem := rfl
@[simp] theorem State.onTile_seam (s : State) (t : Nat) (f : Tile → Tile) : (s.onTile t f).seam = s.seam := rfl
@[simp] theorem State.onTile_tape (s : State) (t : Nat) (f : Tile → Tile) : (s.onTile t f).tape = s.tape := rfl
@[simp] theorem State.onTile_cxl (s : State) (t : Nat) (f : Tile → Tile) : (s.onTile t f).cxl = s.cxl := rfl
@[simp] theorem State.onTile_th (s : State) (t : Nat) (f : Tile → Tile) : (s.onTile t f).th = s.th := rfl
@[simp] theorem State.onTile_pow (s : State) (t : Nat) (f : Tile → Tile) : (s.onTile t f).pow = s.pow := rfl
@[simp] theorem State.onTile_rst (s : State) (t : Nat) (f : Tile → Tile) : (s.onTile t f).rst = s.rst := rfl
@[simp] theorem State.onTile_flt (s : State) (t : Nat) (f : Tile → Tile) : (s.onTile t f).flt = s.flt := rfl
@[simp] theorem State.onTile_pins (s : State) (t : Nat) (f : Tile → Tile) : (s.onTile t f).pins = s.pins := rfl
@[simp] theorem State.onTile_out (s : State) (t : Nat) (f : Tile → Tile) : (s.onTile t f).out = s.out := rfl
@[simp] theorem State.onTile_host (s : State) (t : Nat) (f : Tile → Tile) : (s.onTile t f).host = s.host := rfl
@[simp] theorem State.onTile_now (s : State) (t : Nat) (f : Tile → Tile) : (s.onTile t f).now = s.now := rfl
@[simp] theorem State.onTile_free (s : State) (t : Nat) (f : Tile → Tile) : (s.onTile t f).free = s.free := rfl
@[simp] theorem State.onTile_pending (s : State) (t : Nat) (f : Tile → Tile) : (s.onTile t f).pending = s.pending := rfl
@[simp] theorem State.emit_bar (s : State) (o : Out) : (s.emit o).bar = s.bar := rfl
@[simp] theorem State.emit_barStage (s : State) (o : Out) : (s.emit o).barStage = s.barStage := rfl
@[simp] theorem State.emit_barLatch (s : State) (o : Out) : (s.emit o).barLatch = s.barLatch := rfl
@[simp] theorem State.emit_tiles (s : State) (o : Out) : (s.emit o).tiles = s.tiles := rfl
@[simp] theorem State.emit_net (s : State) (o : Out) : (s.emit o).net = s.net := rfl
@[simp] theorem State.emit_lane (s : State) (o : Out) : (s.emit o).lane = s.lane := rfl
@[simp] theorem State.emit_fab (s : State) (o : Out) : (s.emit o).fab = s.fab := rfl
@[simp] theorem State.emit_loader (s : State) (o : Out) : (s.emit o).loader = s.loader := rfl
@[simp] theorem State.emit_unpick (s : State) (o : Out) : (s.emit o).unpick = s.unpick := rfl
@[simp] theorem State.emit_press (s : State) (o : Out) : (s.emit o).press = s.press := rfl
@[simp] theorem State.emit_mem (s : State) (o : Out) : (s.emit o).mem = s.mem := rfl
@[simp] theorem State.emit_seam (s : State) (o : Out) : (s.emit o).seam = s.seam := rfl
@[simp] theorem State.emit_tape (s : State) (o : Out) : (s.emit o).tape = s.tape := rfl
@[simp] theorem State.emit_cxl (s : State) (o : Out) : (s.emit o).cxl = s.cxl := rfl
@[simp] theorem State.emit_th (s : State) (o : Out) : (s.emit o).th = s.th := rfl
@[simp] theorem State.emit_pow (s : State) (o : Out) : (s.emit o).pow = s.pow := rfl
@[simp] theorem State.emit_rst (s : State) (o : Out) : (s.emit o).rst = s.rst := rfl
@[simp] theorem State.emit_flt (s : State) (o : Out) : (s.emit o).flt = s.flt := rfl
@[simp] theorem State.emit_pins (s : State) (o : Out) : (s.emit o).pins = s.pins := rfl
@[simp] theorem State.emit_host (s : State) (o : Out) : (s.emit o).host = s.host := rfl
@[simp] theorem State.emit_now (s : State) (o : Out) : (s.emit o).now = s.now := rfl
@[simp] theorem State.emit_free (s : State) (o : Out) : (s.emit o).free = s.free := rfl
@[simp] theorem State.emit_pending (s : State) (o : Out) : (s.emit o).pending = s.pending := rfl
@[simp] theorem State.freeVal_bar (s : State) (w : Nat) : ((s.freeVal w).2).bar = s.bar := rfl
@[simp] theorem State.freeVal_barStage (s : State) (w : Nat) : ((s.freeVal w).2).barStage = s.barStage := rfl
@[simp] theorem State.freeVal_barLatch (s : State) (w : Nat) : ((s.freeVal w).2).barLatch = s.barLatch := rfl
@[simp] theorem State.freeVal_tiles (s : State) (w : Nat) : ((s.freeVal w).2).tiles = s.tiles := rfl
@[simp] theorem State.freeVal_net (s : State) (w : Nat) : ((s.freeVal w).2).net = s.net := rfl
@[simp] theorem State.freeVal_lane (s : State) (w : Nat) : ((s.freeVal w).2).lane = s.lane := rfl
@[simp] theorem State.freeVal_fab (s : State) (w : Nat) : ((s.freeVal w).2).fab = s.fab := rfl
@[simp] theorem State.freeVal_loader (s : State) (w : Nat) : ((s.freeVal w).2).loader = s.loader := rfl
@[simp] theorem State.freeVal_unpick (s : State) (w : Nat) : ((s.freeVal w).2).unpick = s.unpick := rfl
@[simp] theorem State.freeVal_press (s : State) (w : Nat) : ((s.freeVal w).2).press = s.press := rfl
@[simp] theorem State.freeVal_mem (s : State) (w : Nat) : ((s.freeVal w).2).mem = s.mem := rfl
@[simp] theorem State.freeVal_seam (s : State) (w : Nat) : ((s.freeVal w).2).seam = s.seam := rfl
@[simp] theorem State.freeVal_tape (s : State) (w : Nat) : ((s.freeVal w).2).tape = s.tape := rfl
@[simp] theorem State.freeVal_cxl (s : State) (w : Nat) : ((s.freeVal w).2).cxl = s.cxl := rfl
@[simp] theorem State.freeVal_th (s : State) (w : Nat) : ((s.freeVal w).2).th = s.th := rfl
@[simp] theorem State.freeVal_pow (s : State) (w : Nat) : ((s.freeVal w).2).pow = s.pow := rfl
@[simp] theorem State.freeVal_rst (s : State) (w : Nat) : ((s.freeVal w).2).rst = s.rst := rfl
@[simp] theorem State.freeVal_flt (s : State) (w : Nat) : ((s.freeVal w).2).flt = s.flt := rfl
@[simp] theorem State.freeVal_pins (s : State) (w : Nat) : ((s.freeVal w).2).pins = s.pins := rfl
@[simp] theorem State.freeVal_out (s : State) (w : Nat) : ((s.freeVal w).2).out = s.out := rfl
@[simp] theorem State.freeVal_host (s : State) (w : Nat) : ((s.freeVal w).2).host = s.host := rfl
@[simp] theorem State.freeVal_now (s : State) (w : Nat) : ((s.freeVal w).2).now = s.now := rfl
@[simp] theorem State.freeVal_pending (s : State) (w : Nat) : ((s.freeVal w).2).pending = s.pending := rfl
@[simp] theorem State.freeBytes_bar (s : State) (n : Nat) : ((s.freeBytes n).2).bar = s.bar := rfl
@[simp] theorem State.freeBytes_barStage (s : State) (n : Nat) : ((s.freeBytes n).2).barStage = s.barStage := rfl
@[simp] theorem State.freeBytes_barLatch (s : State) (n : Nat) : ((s.freeBytes n).2).barLatch = s.barLatch := rfl
@[simp] theorem State.freeBytes_tiles (s : State) (n : Nat) : ((s.freeBytes n).2).tiles = s.tiles := rfl
@[simp] theorem State.freeBytes_net (s : State) (n : Nat) : ((s.freeBytes n).2).net = s.net := rfl
@[simp] theorem State.freeBytes_lane (s : State) (n : Nat) : ((s.freeBytes n).2).lane = s.lane := rfl
@[simp] theorem State.freeBytes_fab (s : State) (n : Nat) : ((s.freeBytes n).2).fab = s.fab := rfl
@[simp] theorem State.freeBytes_loader (s : State) (n : Nat) : ((s.freeBytes n).2).loader = s.loader := rfl
@[simp] theorem State.freeBytes_unpick (s : State) (n : Nat) : ((s.freeBytes n).2).unpick = s.unpick := rfl
@[simp] theorem State.freeBytes_press (s : State) (n : Nat) : ((s.freeBytes n).2).press = s.press := rfl
@[simp] theorem State.freeBytes_mem (s : State) (n : Nat) : ((s.freeBytes n).2).mem = s.mem := rfl
@[simp] theorem State.freeBytes_seam (s : State) (n : Nat) : ((s.freeBytes n).2).seam = s.seam := rfl
@[simp] theorem State.freeBytes_tape (s : State) (n : Nat) : ((s.freeBytes n).2).tape = s.tape := rfl
@[simp] theorem State.freeBytes_cxl (s : State) (n : Nat) : ((s.freeBytes n).2).cxl = s.cxl := rfl
@[simp] theorem State.freeBytes_th (s : State) (n : Nat) : ((s.freeBytes n).2).th = s.th := rfl
@[simp] theorem State.freeBytes_pow (s : State) (n : Nat) : ((s.freeBytes n).2).pow = s.pow := rfl
@[simp] theorem State.freeBytes_rst (s : State) (n : Nat) : ((s.freeBytes n).2).rst = s.rst := rfl
@[simp] theorem State.freeBytes_flt (s : State) (n : Nat) : ((s.freeBytes n).2).flt = s.flt := rfl
@[simp] theorem State.freeBytes_pins (s : State) (n : Nat) : ((s.freeBytes n).2).pins = s.pins := rfl
@[simp] theorem State.freeBytes_out (s : State) (n : Nat) : ((s.freeBytes n).2).out = s.out := rfl
@[simp] theorem State.freeBytes_host (s : State) (n : Nat) : ((s.freeBytes n).2).host = s.host := rfl
@[simp] theorem State.freeBytes_now (s : State) (n : Nat) : ((s.freeBytes n).2).now = s.now := rfl
@[simp] theorem State.freeBytes_pending (s : State) (n : Nat) : ((s.freeBytes n).2).pending = s.pending := rfl
@[simp] theorem State.setPort_bar (s : State) (p : Nat) (x : SPort) : (s.setPort p x).bar = s.bar := rfl
@[simp] theorem State.setPort_barStage (s : State) (p : Nat) (x : SPort) : (s.setPort p x).barStage = s.barStage := rfl
@[simp] theorem State.setPort_barLatch (s : State) (p : Nat) (x : SPort) : (s.setPort p x).barLatch = s.barLatch := rfl
@[simp] theorem State.setPort_tiles (s : State) (p : Nat) (x : SPort) : (s.setPort p x).tiles = s.tiles := rfl
@[simp] theorem State.setPort_net (s : State) (p : Nat) (x : SPort) : (s.setPort p x).net = s.net := rfl
@[simp] theorem State.setPort_lane (s : State) (p : Nat) (x : SPort) : (s.setPort p x).lane = s.lane := rfl
@[simp] theorem State.setPort_fab (s : State) (p : Nat) (x : SPort) : (s.setPort p x).fab = s.fab := rfl
@[simp] theorem State.setPort_loader (s : State) (p : Nat) (x : SPort) : (s.setPort p x).loader = s.loader := rfl
@[simp] theorem State.setPort_unpick (s : State) (p : Nat) (x : SPort) : (s.setPort p x).unpick = s.unpick := rfl
@[simp] theorem State.setPort_press (s : State) (p : Nat) (x : SPort) : (s.setPort p x).press = s.press := rfl
@[simp] theorem State.setPort_mem (s : State) (p : Nat) (x : SPort) : (s.setPort p x).mem = s.mem := rfl
@[simp] theorem State.setPort_tape (s : State) (p : Nat) (x : SPort) : (s.setPort p x).tape = s.tape := rfl
@[simp] theorem State.setPort_cxl (s : State) (p : Nat) (x : SPort) : (s.setPort p x).cxl = s.cxl := rfl
@[simp] theorem State.setPort_th (s : State) (p : Nat) (x : SPort) : (s.setPort p x).th = s.th := rfl
@[simp] theorem State.setPort_pow (s : State) (p : Nat) (x : SPort) : (s.setPort p x).pow = s.pow := rfl
@[simp] theorem State.setPort_rst (s : State) (p : Nat) (x : SPort) : (s.setPort p x).rst = s.rst := rfl
@[simp] theorem State.setPort_flt (s : State) (p : Nat) (x : SPort) : (s.setPort p x).flt = s.flt := rfl
@[simp] theorem State.setPort_pins (s : State) (p : Nat) (x : SPort) : (s.setPort p x).pins = s.pins := rfl
@[simp] theorem State.setPort_out (s : State) (p : Nat) (x : SPort) : (s.setPort p x).out = s.out := rfl
@[simp] theorem State.setPort_host (s : State) (p : Nat) (x : SPort) : (s.setPort p x).host = s.host := rfl
@[simp] theorem State.setPort_now (s : State) (p : Nat) (x : SPort) : (s.setPort p x).now = s.now := rfl
@[simp] theorem State.setPort_free (s : State) (p : Nat) (x : SPort) : (s.setPort p x).free = s.free := rfl
@[simp] theorem State.setPort_pending (s : State) (p : Nat) (x : SPort) : (s.setPort p x).pending = s.pending := rfl

/-! ### What the updates change -/

@[simp] theorem State.set_bar (s : State) (f : Fld) (v : Nat) : (s.set f v).bar = rfSet s.bar f v := rfl
@[simp] theorem State.bump_bar (s : State) (f : Fld) (n : Nat) : (s.bump f n).bar = rfCount s.bar f n := rfl
@[simp] theorem State.setTile_tiles (s : State) (t : Nat) (x : Tile) : (s.setTile t x).tiles = kvSet s.tiles t x := rfl
@[simp] theorem State.emit_out (s : State) (o : Out) : (s.emit o).out = s.out ++ [o] := rfl

@[simp] theorem rfGet_rfSet_same (rf : RegFile) (f : Fld) (v : Nat) : rfGet (rfSet rf f v) f = v % 2 ^ f.width := by
  simp [rfGet, rfSet]

theorem rfGet_rfSet_other (rf : RegFile) (f g : Fld) (v : Nat) (h : g.key ≠ f.key) :
    rfGet (rfSet rf f v) g = rfGet rf g := by
  simp [rfGet, rfSet, kvGet?_kvSet_other _ _ h]

@[simp] theorem rfGet_rfCount_same (rf : RegFile) (f : Fld) (n : Nat) :
    rfGet (rfCount rf f n) f = min (2 ^ f.width - 1) (rfGet rf f + n) := by
  simp [rfGet, rfCount]

theorem rfGet_rfCount_other (rf : RegFile) (f g : Fld) (n : Nat) (h : g.key ≠ f.key) :
    rfGet (rfCount rf f n) g = rfGet rf g := by
  simp [rfGet, rfCount, kvGet?_kvSet_other _ _ h]

@[simp] theorem State.tile_setTile_same (s : State) (t : Nat) (x : Tile) : (s.setTile t x).tile t = x := by
  simp [State.tile, State.setTile]

theorem State.tile_setTile_other (s : State) (t u : Nat) (x : Tile) (h : u ≠ t) : (s.setTile t x).tile u = s.tile u := by
  simp [State.tile, State.setTile, kvGet_kvSet_other _ _ _ h]

@[simp] theorem State.tile_onTile_same (s : State) (t : Nat) (f : Tile → Tile) : (s.onTile t f).tile t = f (s.tile t) := by
  simp [State.onTile]

@[simp] theorem State.port_setPort_same (s : State) (p : Nat) (x : SPort) : (s.setPort p x).port p = x := by
  simp [State.port, State.setPort]

@[simp] theorem State.get_emit (s : State) (o : Out) (f : Fld) : (s.emit o).get f = s.get f := rfl
@[simp] theorem State.get_setTile (s : State) (t : Nat) (x : Tile) (f : Fld) : (s.setTile t x).get f = s.get f := rfl
@[simp] theorem State.get_onTile (s : State) (t : Nat) (g : Tile → Tile) (f : Fld) : (s.onTile t g).get f = s.get f := rfl
@[simp] theorem State.tile_set (s : State) (f : Fld) (v t : Nat) : (s.set f v).tile t = s.tile t := rfl
@[simp] theorem State.tile_bump (s : State) (f : Fld) (n t : Nat) : (s.bump f n).tile t = s.tile t := rfl
@[simp] theorem State.tile_emit (s : State) (o : Out) (t : Nat) : (s.emit o).tile t = s.tile t := rfl

end Sys2Proof.Machine
end

