-- ==== Sys2Proof/Laws/Ops.lean ====
section
/-! SUPPORT. What the shared operations change: for each, once, the parts of the state that it may change; everything else
is as it was. -/

namespace Sys2Proof

open Machine

variable {L M : List Part} {s t u : State}

theorem Only.refl (L : List Part) (s : State) : Only L s s := fun p _ => by cases p <;> rfl

theorem Only.trans (h : Only L s t) (g : Only L t u) : Only L s u := by
  intro p hp
  have a := h p hp
  have b := g p hp
  cases p <;> simp only [Part.Same] at a b ⊢ <;> exact b.trans a

theorem Only.mono (h : Only M s t) (hs : M ⊆ L) : Only L s t := fun p hp => h p fun hm => hp (hs hm)

theorem Only.foldl {α : Type} {f : State → α → State} (h : ∀ s x, Only L s (f s x)) (l : List α) (s : State) :
    Only L s (l.foldl f s) := by
  induction l generalizing s with
  | nil => exact .refl L s
  | cons x l ih => exact (h s x).trans (ih _)

end Sys2Proof

namespace Sys2Proof.Machine

/-! ### The plain updates -/

theorem State.set_only (s : State) (f : Fld) (v : Nat) : Only [.bar] s (s.set f v) := fun p hp => by cases p <;> first | rfl | simp at hp
theorem State.setAll_only (s : State) (l : List (Fld × Nat)) : Only [.bar] s (s.setAll l) := fun p hp => by cases p <;> first | rfl | simp at hp
theorem State.bump_only (s : State) (f : Fld) (n : Nat) : Only [.bar] s (s.bump f n) := fun p hp => by cases p <;> first | rfl | simp at hp
theorem State.emit_only (s : State) (o : Out) : Only [.out] s (s.emit o) := fun p hp => by cases p <;> first | rfl | simp at hp
theorem State.setPort_only (s : State) (n : Nat) (x : SPort) : Only [.seam] s (s.setPort n x) := fun p hp => by cases p <;> first | rfl | simp at hp
theorem State.onTile_only (s : State) (k : Nat) (f : Tile → Tile) : Only [.tiles] s (s.onTile k f) := fun p hp => by cases p <;> first | rfl | simp at hp

/-! ### Interrupts, replies, messages -/

theorem State.vector_only (s : State) (v : Nat) : Only [.tape, .out] s (s.vector v) := by
  unfold State.vector
  split
  · split
    · exact fun p hp => by cases p <;> first | rfl | simp at hp
    · exact (s.emit_only _).mono (by simp)
  · exact .refl _ s

theorem State.reply_only (s : State) (tag ep k c : Nat) (r : List Byte) : Only [.bar, .tape] s (s.reply tag ep k c r) := by
  unfold State.reply
  split
  · exact .refl _ s
  · split
    · exact (s.bump_only _ _).mono (by simp)
    · dsimp only
      split
      · exact Only.trans (fun p hp => by cases p <;> first | rfl | simp at hp) ((State.bump_only _ _ _).mono (by simp))
      · exact fun p hp => by cases p <;> first | rfl | simp at hp

theorem State.event_only (s : State) (r : List Byte) : Only [.bar, .tape] s (s.event r) := by
  unfold State.event
  split
  · exact (s.bump_only _ _).mono (by simp)
  · exact fun p hp => by cases p <;> first | rfl | simp at hp

theorem State.addCnt_only (s : State) (n : Nat) (c : Cnt) : Only [.bar] s (s.addCnt n c) :=
  (((s.bump_only _ _).trans (State.bump_only _ _ _)).trans (State.bump_only _ _ _)).trans (State.bump_only _ _ _)

theorem State.frame_only (s : State) (p : Nat) (m : SMsg) : Only [.bar, .out] s (s.frame p m) :=
  (((s.emit_only _).mono (by simp)).trans ((State.bump_only _ _ _).mono (by simp))).trans ((State.bump_only _ _ _).mono (by simp))

theorem State.portSend_only (s : State) (p : Nat) (m : SMsg) : Only [.bar, .seam, .out] s (s.portSend p m) := by
  unfold State.portSend
  split
  · dsimp only
    split
    · exact ((s.setPort_only _ _).mono (by simp)).trans ((State.frame_only _ _ _).mono (by simp))
    · exact (s.setPort_only _ _).mono (by simp)
  · exact .refl _ s

theorem State.pumpPort_only (k : Nat) (s : State) (p : Nat) : Only [.bar, .seam, .out] s (s.pumpPort p k) := by
  induction k generalizing s with
  | zero => exact .refl _ s
  | succ k ih =>
    unfold State.pumpPort
    dsimp only
    split
    · split
      · exact (((s.setPort_only _ _).mono (by simp)).trans ((State.frame_only _ _ _).mono (by simp))).trans (ih _)
      · exact .refl _ s
    · exact .refl _ s

theorem State.sendBy_only (s : State) (rs : List RouteRec) (m : SMsg) : Only [.bar, .seam, .out] s (s.sendBy rs m) := by
  unfold State.sendBy
  split
  · exact s.portSend_only _ _
  · exact .refl _ s

theorem State.sendSucc_only (s : State) (i : Inst) (ty g n li : Nat) (b : List Byte) :
    Only [.bar, .seam, .out] s (s.sendSucc i ty g n li b) := by
  unfold State.sendSucc
  split
  · exact .refl _ s
  · exact s.sendBy_only _ _

/-! ### Ending a step, stopping the fabric -/

theorem State.abandonStep_only (s : State) (c : Nat) : Only [.bar, .seam, .out, .tape, .press] s (s.abandonStep c) := by
  unfold State.abandonStep
  split
  · extract_lets step code s1 s2 s3
    have h1 : Only [.bar, .seam, .out, .tape, .press] s s1 := by
      simp only [s1]
      split
      · exact (s.sendSucc_only _ _ _ _ _ _).mono (by simp)
      · exact .refl _ s
    have h2 : Only [.bar, .seam, .out, .tape, .press] s s2 := by
      refine h1.trans ?_
      simp only [s2]
      split
      · exact (State.reply_only _ _ _ _ _ _).mono (by simp)
      · exact .refl _ _
    have h3 : Only [.bar, .seam, .out, .tape, .press] s s3 :=
      (h2.trans ((State.set_only _ _ _).mono (by simp))).trans ((State.bump_only _ _ _).mono (by simp))
    exact h3.trans fun p hp => by cases p <;> first | rfl | simp at hp
  · exact .refl _ s

theorem State.injectAt_only (s : State) (r : Nat) (p : Port) (k : Token) (src : Option (Nat × Nat)) :
    Only [.net] s (s.injectAt r p k src) := fun q hq => by cases q <;> first | rfl | simp at hq

theorem State.injectAll_only (s : State) (k : Nat) (l : List Token) : Only [.net] s (s.injectAll k l) :=
  Only.foldl (fun s x => s.injectAt_only k .out x none) l s

theorem State.abortStream_only (s : State) (k b : Nat) : Only [.net, .tiles] s (s.abortStream k b) :=
  Only.trans (t := s.setTile k _) (fun p hp => by cases p <;> first | rfl | simp at hp)
    ((State.injectAll_only _ _ _).mono (by simp))

theorem State.abortBobs_only (s : State) : Only [.net, .tiles] s s.abortBobs :=
  Only.trans (Only.foldl (fun s k => (s.abortStream_only k 0).trans (State.abortStream_only _ k 1)) _ s)
    fun p hp => by cases p <;> first | rfl | simp at hp

theorem State.startFlush_only (s : State) : Only [.bar, .net, .tiles, .unpick] s s.startFlush := by
  unfold State.startFlush
  split
  · exact .refl _ s
  · exact Only.trans (((State.set_only _ _ _).trans (State.set_only _ _ _)).mono (by simp))
      (((State.abortBobs_only _).mono (by simp)).trans fun p hp => by cases p <;> first | rfl | simp at hp)

/-! ### Raising and delivering faults -/

/-- The parts of the state that raising a fault may change. -/
abbrev raiseParts : List Part := [.bar, .seam, .out, .tape, .press, .net, .tiles, .unpick, .mem, .flt]

theorem State.hold_only (s : State) (r : FltRec) : Only [.bar, .flt] s (s.hold r) := by
  unfold State.hold
  split
  · exact (s.bump_only _ _).mono (by simp)
  · exact fun p hp => by cases p <;> first | rfl | simp at hp

theorem State.stepFatal_only (s : State) (c : Nat) :
    Only [.bar, .seam, .out, .tape, .press, .net, .tiles, .unpick] s (s.stepFatal c) := by
  unfold State.stepFatal
  split
  · split
    · exact .refl _ s
    · exact fun p hp => by cases p <;> first | rfl | simp at hp
  · exact ((s.abandonStep_only _).mono (by simp)).trans ((State.startFlush_only _).mono (by simp))

theorem State.raiseAs_only (s : State) (k : FClass) (b : Bool) (c n i a : Nat) :
    Only raiseParts s (s.raiseAs k b c n i a) := by
  unfold State.raiseAs
  extract_lets r cls boot first flags rec' wasSafe s1 m1 s2 f2 p2 s3
  have h1 : Only raiseParts s s1 := (((s.bump_only _ _).mono (by simp)).trans ((State.hold_only _ _).mono (by simp)))
  have h2 : Only raiseParts s s2 := by
    refine h1.trans ?_
    simp only [s2]
    split
    · exact fun p hp => by cases p <;> first | rfl | simp at hp
    · exact .refl _ _
  split
  · exact h2.trans fun p hp => by cases p <;> first | rfl | simp at hp
  · split
    · exact h2
    · split
      · exact h2.trans fun p hp => by cases p <;> first | rfl | simp at hp
      · have h3 : Only raiseParts s s3 := by
          refine h2.trans ?_
          simp only [s3]
          split
          · exact (State.stepFatal_only _ _).mono (by simp)
          · exact .refl _ _
        split
        · exact h3.trans ((State.startFlush_only _).mono (by simp))
        · exact h3

theorem State.raise_only (s : State) (c n i a : Nat) : Only raiseParts s (s.raise c n i a) := s.raiseAs_only _ _ _ _ _ _

theorem State.raiseTied_only (s : State) (c n i a : Nat) : Only raiseParts s (s.raiseTied c n i a) := s.raiseAs_only _ _ _ _ _ _

theorem State.tieLast_only (s : State) (c : Nat) : Only [.flt] s (s.tieLast c) := by
  unfold State.tieLast
  dsimp only
  split
  · split
    · exact fun p hp => by cases p <;> first | rfl | simp at hp
    · exact .refl _ s
  · exact .refl _ s

theorem State.refuse_only (s : State) (x : Cmd) (c n i a : Nat) (r : List Byte) : Only raiseParts s (s.refuse x c n i a r) :=
  (s.raiseTied_only _ _ _ _).trans ((State.reply_only _ _ _ _ _ _).mono (by simp))

theorem State.refuseTag_only (s : State) (x : Cmd) (c n : Nat) : Only raiseParts s (s.refuseTag x c n) := s.refuse_only _ _ _ _ _ _

theorem State.setRec_only (s : State) (f : Nat → Fld) (b : List Byte) : Only [.bar] s (s.setRec f b) := s.setAll_only _

theorem State.deliver_only (s : State) (r : FltRec) : Only [.bar, .th, .tape] s (s.deliver r) := by
  unfold State.deliver
  extract_lets unlogged step b t1 s1 s2 s3
  have h1 : Only [.bar, .th, .tape] s s1 := by
    simp only [s1]
    split
    · exact (s.bump_only _ _).mono (by simp)
    · exact fun p hp => by cases p <;> first | rfl | simp at hp
  have h2 : Only [.bar, .th, .tape] s s2 := by
    refine h1.trans ?_
    simp only [s2]
    split
    · exact .refl _ _
    · exact (State.setRec_only _ _ _).mono (by simp)
  have h3 : Only [.bar, .th, .tape] s s3 := by
    refine h2.trans ?_
    simp only [s3]
    split
    · exact (State.setRec_only _ _ _).mono (by simp)
    · exact .refl _ _
  split
  · exact h3.trans (((State.bump_only _ _ _).mono (by simp)).trans ((State.event_only _ _).mono (by simp)))
  · exact h3

/-! ### What raising keeps of the parts that it may change -/

theorem State.hold_safe (s : State) (r : FltRec) : (s.hold r).flt.safe = s.flt.safe := by
  unfold State.hold
  split <;> rfl

/-- Raising a fault never enters the safe state by itself: the entry is a command of its own
(spec/15_faults_and_safe_state.md R469). -/
theorem State.raiseAs_safe (s : State) (k : FClass) (b : Bool) (c n i a : Nat) :
    (s.raiseAs k b c n i a).flt.safe = s.flt.safe := by
  unfold State.raiseAs
  extract_lets r cls boot first flags rec' wasSafe s1 m1 s2 f2 p2 s3
  have h1 : s1.flt.safe = s.flt.safe := State.hold_safe _ _
  have h2 : s2.flt.safe = s.flt.safe := by
    simp only [s2]
    split <;> exact h1
  have h3 : s3.flt.safe = s.flt.safe := by
    simp only [s3]
    split
    · exact (congrArg Flt.safe (State.stepFatal_only _ _ .flt (by simp))).trans h2
    · exact h2
  split
  · exact h2
  · split
    · exact h2
    · split
      · exact h2
      · split
        · exact (congrArg Flt.safe (State.startFlush_only _ .flt (by simp))).trans h3
        · exact h3

/-- Raising a fault leaves the contents of memory. -/
theorem State.raiseAs_data (s : State) (k : FClass) (b : Bool) (c n i a : Nat) :
    (s.raiseAs k b c n i a).mem.data = s.mem.data := by
  unfold State.raiseAs
  extract_lets r cls boot first flags rec' wasSafe s1 m1 s2 f2 p2 s3
  have h1 : s1.mem = s.mem := (((s.bump_only _ _).mono (by simp)).trans (State.hold_only _ _) : Only [.bar, .flt] s s1) .mem (by simp)
  have h2 : s2.mem.data = s.mem.data := by
    simp only [s2]
    have h : s1.mem.data = s.mem.data := congrArg MemSys.data h1
    split <;> exact h
  have h3 : s3.mem.data = s.mem.data := by
    simp only [s3]
    split
    · exact (congrArg MemSys.data (State.stepFatal_only _ _ .mem (by simp))).trans h2
    · exact h2
  split
  · exact h2
  · split
    · exact h2
    · split
      · exact h2
      · split
        · exact (congrArg MemSys.data (State.startFlush_only _ .mem (by simp))).trans h3
        · exact h3

end Sys2Proof.Machine
end

