-- ==== Sys2Proof/Laws/Mem.lean ====
section
/-! SUPPORT. What the operations over memory, the commands of the tape and the commits of blocks change, and that memory
keeps its canonical form. -/

namespace Sys2Proof.Machine

/-! ### Memory -/

theorem MemSys.wrKeys_wf (l : List (Option Nat × Byte)) (m : Memory) (h : m.wf = true) : (MemSys.wrKeys m l).wf = true := by
  induction l generalizing m with
  | nil => exact h
  | cons x t ih =>
    obtain ⟨k, b⟩ := x
    cases k with
    | none => exact ih m h
    | some k => exact ih _ (memWrite_wf m k b h)

theorem State.wrN_wf (s : State) (a : Nat) (l : List Byte) (h : s.mem.data.wf = true) : (s.wrN a l).mem.data.wf = true :=
  MemSys.wrKeys_wf _ _ h

theorem State.wrN_only (s : State) (a : Nat) (l : List Byte) : Only [.mem] s (s.wrN a l) :=
  fun p hp => by cases p <;> first | rfl | simp at hp

/-- The parts of the state that the check of data may change. -/
abbrev checkParts : List Part := .free :: raiseParts

theorem State.raise_check (s : State) (c n i a : Nat) : Only checkParts s (s.raise c n i a) :=
  (s.raise_only c n i a).mono (by simp)

theorem State.bump_check (s : State) (f : Fld) (n : Nat) : Only checkParts s (s.bump f n) := (s.bump_only f n).mono (by simp)

theorem State.setAll_check (s : State) (l : List (Fld × Nat)) : Only checkParts s (s.setAll l) :=
  (s.setAll_only l).mono (by simp)

theorem State.mem_check (s : State) (m : MemSys) : Only checkParts s { s with mem := m } :=
  fun p hp => by cases p <;> first | rfl | simp at hp

theorem State.ueFault_only (s : State) (g : Nat) (r : Reader) : Only checkParts s (s.ueFault g r) :=
  (s.bump_check _ _).trans (State.raise_check _ _ _ _ _)

theorem State.dropErr_only (s : State) (k : Nat) : Only checkParts s (s.dropErr k) := s.mem_check _

theorem State.memUe_only (s : State) (g : Nat) (r : Reader) : Only checkParts s (s.memUe g r) := by
  unfold State.memUe
  extract_lets n at_ cls s1 s2 s3
  exact ((((s.dropErr_only _).trans (State.mem_check _ _)).trans (State.setAll_check _ _)).trans (State.bump_check _ _ _)).trans
    (State.raise_check _ _ _ _ _)

theorem State.memCe_only (s : State) (g : Nat) : Only checkParts s (s.memCe g) := by
  unfold State.memCe
  extract_lets at_ s1 m1 s2
  have h1 : Only checkParts s s1 := s.dropErr_only _
  split
  · exact h1
  · have h2 : Only checkParts s s2 := by
      simp only [s2]
      split
      · exact h1.trans (State.mem_check _ _)
      · exact h1
    exact (h2.trans (State.bump_check _ _ _)).trans (State.raise_check _ _ _ _ _)

theorem State.checkGran_only (s : State) (g : Nat) (e : Ecc) (r : Reader) : Only checkParts s (s.checkGran g e r).1 := by
  unfold State.checkGran
  split
  · exact s.ueFault_only _ _
  · split
    · exact .refl _ s
    · exact s.memCe_only _
    · exact s.memUe_only _ _

/-- The check of a read's granules records faults, and nothing else. -/
theorem State.checkRead_only (gs : List Nat) (s : State) (e : Ecc) (r : Reader) : Only checkParts s (s.checkRead gs e r).1 := by
  induction gs generalizing s e with
  | nil => exact .refl _ s
  | cons g l ih =>
    unfold State.checkRead
    dsimp only
    split
    · exact (s.checkGran_only _ _ _).trans (ih _ _)
    · exact s.checkGran_only _ _ _

theorem State.lnErr_only (s : State) (a : Nat) (e : Ecc) (r : Reader) : Only checkParts s (s.lnErr a e r).1 := by
  unfold State.lnErr
  cases e with
  | ok => exact .refl _ s
  | corrected => exact (s.bump_check _ _).trans (State.raise_check _ _ _ _ _)
  | uncorrectable =>
    exact (Only.trans (t := ((s.freeVal 32).2.freeVal 2).2) (fun p hp => by cases p <;> first | rfl | simp at hp)
      ((State.setAll_check _ _).trans (State.bump_check _ _ _))).trans (State.raise_check _ _ _ _ _)

theorem State.checkLn_only (n : Nat) (s : State) (a : Nat) (e : Ecc) (r : Reader) :
    Only checkParts s (s.checkLn a e r n).1 := by
  induction n generalizing s a e with
  | zero => exact .refl _ s
  | succ n ih =>
    unfold State.checkLn
    extract_lets w c
    have h : Only checkParts s c.1 := by
      simp only [c]
      split
      · exact (s.dropErr_only _).trans (State.lnErr_only _ _ _ _)
      · exact s.lnErr_only _ _ _
    split
    · exact h.trans (ih _ _ _)
    · exact h

/-- The check of what an access of one granule or lining group reads records faults, and nothing else. -/
theorem State.checkAt_only (s : State) (a n : Nat) (e : Ecc) (r : Reader) : Only checkParts s (s.checkAt a n e r).1 := by
  unfold State.checkAt
  split
  · split
    · exact s.checkGran_only _ _ _
    · exact .refl _ s
  · exact s.checkLn_only _ _ _ _

/-- A lookup in the lining cache changes its lines and counts. -/
theorem State.touchAt_only (s : State) (a : Nat) (w x : Bool) : Only [.bar, .mem] s (s.touchAt a w x) := by
  unfold State.touchAt
  split
  · unfold State.cacheTouch
    extract_lets mc gs m put
    have hp (l : List Line) : Only [.bar, .mem] s (put l) := fun p hp => by cases p <;> first | rfl | simp at hp
    split
    · split
      · exact (hp _).trans ((State.bump_only _ _ _).mono (by simp))
      · exact hp _
    · split
      · exact .refl _ s
      · split
        · exact (s.bump_only _ _).mono (by simp)
        · exact (hp _).trans ((State.bump_only _ _ _).mono (by simp))
  · exact .refl _ s

/-- A write of one run changes memory and records faults. -/
theorem State.storeRun_only (s : State) (a : Nat) (b : List Byte) (x : Bool) (e : Ecc) (r : Reader) :
    Only checkParts s (s.storeRun a b x e r).1 := by
  have wr (s : State) : Only checkParts s (s.wrN a b) := (s.wrN_only a b).mono (by simp)
  have tc (s : State) (w : Bool) : Only checkParts s (s.touchAt a w x) := (s.touchAt_only a w x).mono (by simp)
  unfold State.storeRun
  dsimp only
  split
  · split
    · exact ((s.mem_check _).trans (tc _ _)).trans (wr _)
    · split
      · exact ((s.checkAt_only _ _ _ _).trans (tc _ _)).trans (wr _)
      · exact (s.checkAt_only _ _ _ _).trans (tc _ _)
  · have he : Only checkParts s (s.checkEdges a b.length e r).1 := by
      unfold State.checkEdges
      extract_lets hd
      have h1 : Only checkParts s hd.1 := by
        simp only [hd]
        split
        · exact .refl _ s
        · exact s.checkLn_only _ _ _ _
      split
      · exact h1
      · split
        · exact h1
        · exact h1.trans (State.checkLn_only _ _ _ _ _)
    split
    · exact (he.trans (State.mem_check _ _)).trans (wr _)
    · exact he

/-- Runs written in order change memory and record faults. -/
theorem State.storeRuns_only (l : List (Nat × Nat)) (s : State) (base : Nat) (b : List Byte) (x : Bool) (r : Reader) :
    Only checkParts s (s.storeRuns base b x r l).1 := by
  induction l generalizing s with
  | nil => exact .refl _ s
  | cons g l ih => exact (s.storeRun_only _ _ _ _ _).trans (ih _)

theorem State.put_only (s : State) (a : Nat) (b : List Byte) : Only checkParts s (s.put a b) := State.storeRuns_only _ _ _ _ _ _

/-! ### Commands of the tape -/

theorem State.takeCmd_only (s : State) (c : Cmd) : Only [.tape] s (s.takeCmd c) :=
  fun p hp => by cases p <;> first | rfl | simp at hp

/-- A command's row changes what its continuation may change, and the tape unit. -/
theorem State.withCmd_only {L : List Part} (s : State) (tag op : Nat) (k : State → Cmd → State) (hL : Part.tape ∈ L)
    (hk : ∀ s c, Only L s (k s c)) : Only L s (s.withCmd tag op k) := by
  unfold State.withCmd
  split
  · exact .refl _ s
  · split
    · exact ((s.takeCmd_only _).mono (by simpa using hL)).trans (hk _ _)
    · exact .refl _ s

theorem State.done_only (s : State) (c : Cmd) (r : List Byte) : Only [.bar, .tape] s (s.done c r) := s.reply_only _ _ _ _ _

theorem State.refuseState_only (s : State) (c : Cmd) : Only raiseParts s (s.refuseState c) := s.refuseTag_only _ _ _

/-! ### Commits -/

theorem State.refuseCommit_only (s : State) (unit : Nat) (f : Nat × Nat) : Only raiseParts s (s.refuseCommit unit f) :=
  s.raise_only _ _ _ _

theorem State.dropBlock_only (s : State) (b : Block) : Only [.barStage] s (s.dropBlock b) :=
  fun p hp => by cases p <;> first | rfl | simp at hp

theorem State.applyBlock_only (s : State) (b : Block) : Only [.bar, .barStage] s (s.applyBlock b) :=
  fun p hp => by cases p <;> first | rfl | simp at hp

/-- A commit changes the registers and the stage, what a refusal raises, and what its continuation may change. -/
theorem State.commitBlock_only {L : List Part} (s : State) (b : Block) (v : W32) (f : Fail) (post : State → State)
    (hL : .barStage :: raiseParts ⊆ L) (hp : ∀ s, Only L s (post s)) : Only L s (s.commitBlock b v f post) := by
  unfold State.commitBlock
  split
  · exact .refl _ s
  · split
    · exact ((s.dropBlock_only b).mono fun p h => hL (by simp_all)).trans
        ((State.refuseCommit_only _ _ _).mono fun p h => hL (List.mem_cons_of_mem _ h))
    · exact ((s.applyBlock_only b).mono fun p h => hL (by simp only [List.mem_cons, List.not_mem_nil, or_false] at h; rcases h with rfl | rfl <;> simp)).trans
        (hp _)

end Sys2Proof.Machine
end

