-- ==== Sys2Proof/WellFormed.lean ====
section
/-! DEFINITION. Which commands are well formed: tiles, units, queues, channels, groups and the like that the spec gives the
module (spec/01_module_overview.md Table 1.1, spec/04_fabric_tokens_and_steering.md Table 4.2), operands within the widths
of their fields. A meaning also takes a command that is not: it leaves the state as it is, or refuses as the spec says. -/

namespace Sys2Proof.WellFormed

/-- A tile id (spec/00_scope.md R19). -/
def tile (t : Nat) : Bool := decide (t < 2304)

/-- A tile, none for BAR0. -/
def tile? : Option Nat → Bool
  | none => true
  | some t => tile t

/-- A unit code of twelve bits (spec/04_fabric_tokens_and_steering.md Table 4.2). -/
def unit (u : Nat) : Bool := decide (u < 4096)

/-- A basting tag, if any (spec/04_fabric_tokens_and_steering.md Table 4.1). -/
def tag? : Option Nat → Bool
  | none => true
  | some g => decide (g < 256)

/-- A tape tag; 0xFFFF is reserved (spec/11_host_interface_and_command_tape.md R360). -/
def tapeTag (g : Nat) : Bool := decide (g < 0xFFFF)

/-- An agent of a tile: two bobbins, two shuttles. -/
def agent : TAgent → Bool
  | .bob k => decide (k < 2)
  | .shut k => decide (k < 2)
  | .prog | .pred => true

/-- What a monitor watches: one of 32 queues, output channels or 16 rings. -/
def waitOn : WaitOn → Bool
  | .queue q => decide (q < 32)
  | .och c => decide (c < 32)
  | .ring r _ => decide (r < 16)
  | .req => true

/-- What an agent waits on: one of 32 queues, or of the channels of a tile or unit. -/
def wait : Wait → Bool
  | .queue q => decide (q < 32)
  | .och c => decide (c < 256)

/-- A source or destination of a vector operation: 4,096 granules of scratchpad, 16 rings
(spec/03_compute_tile.md). -/
def src : VSrc → Bool
  | .spad g => decide (g < 4096)
  | .ring r _ => decide (r < 16)
  | .vec => true
def dst : VDst → Bool
  | .spad g => decide (g < 4096)
  | .ring r _ => decide (r < 16)
  | .vec => true

/-- A loop count: 16 bits, or one of four DL registers and a step (spec/03_compute_tile.md R80). -/
def count : LoopCount → Bool
  | .imm n => decide (n < 65536)
  | .dl reg step => decide (reg < 4) && decide (0 < step)

/-- A seam message: fields within their widths (spec/10_seam_ports_and_collectives.md R317, R318, Table 10.4). -/
def msg (m : SMsg) : Bool :=
  decide (m.ty < 256) && decide (m.ver < 256) && decide (m.src < 2 ^ 14) && decide (m.dst < 2 ^ 14)
    && decide (m.lseq < 2 ^ 24) && decide (m.lack < 2 ^ 24) && decide (m.kid < 256) && decide (m.kep < 256)
    && decide (m.kstep < 2 ^ 48) && decide (m.group < 4096) && decide (m.n < 2 ^ 15) && decide (m.line < 2 ^ 37)

/-- A sample: 36 panels, 24 packages (spec/13_panels_clocks_power.md R429, R430). -/
def sens : TSens → Bool
  | .panel p => decide (p < 36)
  | .package n => decide (n < 24)
  | .stage => true

/-- A rail: a panel's, or one of the seven orders of spec/13_panels_clocks_power.md Table 13.4. -/
def rail : Rail → Bool
  | .panel p => decide (p < 36)
  | .module k => decide (1 ≤ k) && decide (k ≤ 7)

end Sys2Proof.WellFormed

namespace Sys2Proof

open WellFormed in
/-- Is a command well formed? -/
def Instr.wf : Instr → Bool
  | .regWrite tile off _ _ => WellFormed.tile? tile && decide (off < 2 ^ 20)
  | .regAccessMisaligned off _ _ _ => decide (off < 2 ^ 20)
  | .lowerWordLatchRead tile off => WellFormed.tile? tile && decide (off < 2 ^ 20)
  | .upperWordRead tile off => WellFormed.tile? tile && decide (off < 2 ^ 20)
  | .counterRead tile off _ => WellFormed.tile? tile && decide (off < 2 ^ 20)
  | .w1cClear tile off _ _ => WellFormed.tile? tile && decide (off < 2 ^ 20)
  | .gcCommit _ => true
  | .numCommit _ => true
  | .tileCommit t _ => WellFormed.tile t
  | .tileCommitApply t => WellFormed.tile t
  | .tileCommitWait t => WellFormed.tile t
  | .bankFillDone t bank => WellFormed.tile t && decide (bank < 8)
  | .fabCommit _ => true
  | .plCommit _ => true
  | .unpCommit _ => true
  | .prsCommit _ => true
  | .mcCommit n _ => decide (n < 24)
  | .modeRegisterRead n _ => decide (n < 24)
  | .modeRegisterWrite n _ => decide (n < 24)
  | .hardPpr n _ => decide (n < 24)
  | .mcRepairDone n _ _ => decide (n < 24)
  | .spCommit n _ => decide (n < 8)
  | .seamGcommit _ => true
  | .tpCommit _ => true
  | .tpAbandon _ => true
  | .thCommit _ => true
  | .pnlCommit p _ => decide (p < 36)
  | .pwrCommit _ => true
  | .halt t _ => WellFormed.tile t
  | .nop t _ => WellFormed.tile t
  | .fence t _ _ => WellFormed.tile t
  | .loop t _ count last => WellFormed.tile t && WellFormed.count count && decide (last < 2048)
  | .brctl t _ q target => WellFormed.tile t && decide (q < 32) && decide (target < 2048)
  | .jmp t _ target => WellFormed.tile t && decide (target < 2048)
  | .tmma t _ d _ _ => WellFormed.tile t && decide (d < 16)
  | .vop t _ _ a b c dst _ => WellFormed.tile t && WellFormed.src a && WellFormed.src b && WellFormed.src c
      && WellFormed.dst dst
  | .vcvt t _ src dst _ _ => WellFormed.tile t && WellFormed.src src && WellFormed.dst dst
  | .vred t _ _ src _ _ => WellFormed.tile t && WellFormed.src src
  | .accrd t _ _ _ _ dst => WellFormed.tile t && WellFormed.dst dst
  | .accinit t _ _ _ _ => WellFormed.tile t
  | .accadd t _ _ src _ _ => WellFormed.tile t && WellFormed.src src
  | .rpub t _ r _ => WellFormed.tile t && decide (r < 16)
  | .rrel t _ r _ => WellFormed.tile t && decide (r < 16)
  | .recv t _ _ q dst => WellFormed.tile t && decide (q < 32) && WellFormed.dst dst
  | .send t _ c slot src _ => WellFormed.tile t && decide (c < 32) && decide (slot < 256) && WellFormed.src src
  | .dlld t _ reg q => WellFormed.tile t && decide (reg < 4) && decide (q < 32)
  | .bobgo t _ b _ => WellFormed.tile t && decide (b < 2)
  | .opComplete t _ _ => WellFormed.tile t
  | .spCorrWriteback t bank => WellFormed.tile t && decide (bank < 8)
  | .ringAccessResume t agent _ => WellFormed.tile t && WellFormed.agent agent
  | .tileRingStall t w => WellFormed.tile t && WellFormed.agent w.agent
  | .basteSew b => WellFormed.tile b.tile
  | .basteSquash t _ => WellFormed.tile t
  | .tokenRouterInput r _ pay _ => WellFormed.tile r && decide (pay.length ≤ 64)
  | .tokenDelivery dest _ pay _ => WellFormed.unit dest && decide (pay.length ≤ 64)
  | .creditReturn dest _ => WellFormed.unit dest
  | .bucketRefill t c => WellFormed.unit t && decide (c < 256)
  | .vc3GuardExpiry r _ => WellFormed.tile r
  | .fabChanDeadline t agent w => WellFormed.unit t && WellFormed.agent agent && WellFormed.wait w
  | .shuttleFire t k => WellFormed.tile t && decide (k.k < 2)
  | .shuttleBaste t k => WellFormed.tile t && decide (k.k < 2)
  | .shuttleResolve t k => WellFormed.tile t && decide (k.k < 2)
  | .shuttleEndPass t k => WellFormed.tile t && decide (k < 2)
  | .shuttleHemPass t k => WellFormed.tile t && decide (k < 2)
  | .verdictToken t q tag _ => WellFormed.unit t && decide (q < 32) && decide (tag < 256)
  | .predicateFire p => WellFormed.tile p.tile
  | .predicateHemPass t => WellFormed.tile t
  | .patternLoad tag => tapeTag tag
  | .loadPass2 _ => true
  | .patternArm tag => tapeTag tag
  | .arm unit => WellFormed.unit unit
  | .armAck unit => WellFormed.unit unit
  | .go unit => WellFormed.unit unit
  | .hemSend t c => WellFormed.tile t && decide (c < 32)
  | .tileSwitch t => WellFormed.tile t
  | .selvedgeGenEnd unit => WellFormed.unit unit
  | .retireAck unit => WellFormed.unit unit
  | .discard unit => WellFormed.unit unit
  | .discardAck unit => WellFormed.unit unit
  | .patLoadDeadline => true
  | .patRetireDeadline => true
  | .monitorTrip t agent w => WellFormed.tile t && WellFormed.agent agent && WellFormed.waitOn w
  | .stallReport panel => decide (panel < 36)
  | .probe t => WellFormed.tile t
  | .probeReply t _ => WellFormed.tile t
  | .confirmWindowEnd => true
  | .unpProbeDeadline => true
  | .spillCommand t q => WellFormed.tile t && decide (q < 32)
  | .spillArrival t _ pay => WellFormed.tile t && decide (pay.length ≤ 64)
  | .spillRecord t q => WellFormed.tile t && decide (q < 32)
  | .refill t q _ => WellFormed.tile t && decide (q < 32)
  | .refillToken t q => WellFormed.tile t && decide (q < 32)
  | .switchNotice t => WellFormed.tile t
  | .spillModeExit t q => WellFormed.tile t && decide (q < 32)
  | .drainQuiesce tag => tapeTag tag
  | .drainFlush tag => tapeTag tag
  | .quiesceStopInputs => true
  | .quiesceProbeRound => true
  | .unpDrainDeadline => true
  | .flushDone => true
  | .unpFlushDeadline => true
  | .resume tag => tapeTag tag
  | .memRead agent addr _ _ _ => WellFormed.unit agent && decide (addr < 2 ^ 48)
  | .memWrite agent addr bytes _ basted _ => WellFormed.unit agent && decide (addr < 2 ^ 48)
      && decide (bytes.length ≤ 256) && WellFormed.tag? basted
  | .f32add agent addr set _ _ _ addends basted _ => WellFormed.unit agent && decide (addr < 2 ^ 48)
      && decide (set < 16) && decide (addends.length ≤ 12) && WellFormed.tag? basted
  | .pairadd agent addr set _ _ _ addends basted _ => WellFormed.unit agent && decide (addr < 2 ^ 48)
      && decide (set < 16) && decide (addends.length ≤ 12) && WellFormed.tag? basted
  | .bf16add agent addr set _ _ _ addends basted _ => WellFormed.unit agent && decide (addr < 2 ^ 48)
      && decide (set < 16) && decide (addends.length ≤ 12) && WellFormed.tag? basted
  | .i32add agent addr set _ _ _ addends basted _ => WellFormed.unit agent && decide (addr < 2 ^ 48)
      && decide (set < 16) && decide (addends.length ≤ 12) && WellFormed.tag? basted
  | .setReset agent mc set cnt => WellFormed.unit agent && decide (mc < 24) && decide (set < 16)
      && decide (cnt < 2 ^ 16)
  | .atomTicketDeadline mc _ => decide (mc < 24)
  | .scrubRead chan _ => decide (chan < 96)
  | .rowRemap chan bank row _ => decide (chan < 96) && decide (bank < 16) && decide (row < 2 ^ 18)
  | .channelFail chan => decide (chan < 96)
  | .setClass tag => tapeTag tag
  | .classFillEnd => true
  | .move tag _ => tapeTag tag
  | .moveDone => true
  | .liningRequestsDrained n g => decide (n < 24) && decide (g < 4)
  | .liningPdDeadline n g => decide (n < 24) && decide (g < 4)
  | .liningWritebackDone n g => decide (n < 24) && decide (g < 4)
  | .liningWritebackDeadline n g => decide (n < 24) && decide (g < 4)
  | .liningPowerUpDone n g => decide (n < 24) && decide (g < 4)
  | .bobEnd t b => WellFormed.tile t && decide (b < 2)
  | .bobLoop t b => WellFormed.tile t && decide (b < 2)
  | .endl t b => WellFormed.tile t && decide (b < 2)
  | .skipdl t b => WellFormed.tile t && decide (b < 2)
  | .seta t b => WellFormed.tile t && decide (b < 2)
  | .adda t b => WellFormed.tile t && decide (b < 2)
  | .seti t b => WellFormed.tile t && decide (b < 2)
  | .ldr t b => WellFormed.tile t && decide (b < 2)
  | .ldp t b => WellFormed.tile t && decide (b < 2)
  | .str t b _ => WellFormed.tile t && decide (b < 2)
  | .stp t b _ => WellFormed.tile t && decide (b < 2)
  | .pub t b => WellFormed.tile t && decide (b < 2)
  | .rel t b => WellFormed.tile t && decide (b < 2)
  | .emit t b => WellFormed.tile t && decide (b < 2)
  | .wait t b => WellFormed.tile t && decide (b < 2)
  | .bobbinRequest target _ _ _ _ _ => WellFormed.unit target
  | .bobbinResponse t b ridx _ _ epoch _ => WellFormed.tile t && decide (b < 2) && decide (ridx < 8)
      && decide (epoch < 16)
  | .retirementToken target _ epoch => WellFormed.unit target && decide (epoch < 16)
  | .bobReqDeadline t b => WellFormed.tile t && decide (b < 2)
  | .stepOpen tag => tapeTag tag
  | .stepOpenResume => true
  | .closeToken mc _ _ _ _ => decide (mc < 24)
  | .closeEnd group => decide (group < 4096)
  | .partialNorm => true
  | .sweepLine mc group _ _ => decide (mc < 24) && decide (group < 4096)
  | .audit mc => decide (mc < 24)
  | .prsCloseDeadline => true
  | .prsNormDeadline => true
  | .prsSweepDeadline => true
  | .linkTrained p => decide (p < 8)
  | .seamLinkTrain p => decide (p < 8)
  | .negotiateTick p => decide (p < 8)
  | .seamNegotiate p m => decide (p < 8) && WellFormed.msg m
  | .seamNegFail p => decide (p < 8)
  | .ack p m => decide (p < 8) && WellFormed.msg m
  | .nak p m => decide (p < 8) && WellFormed.msg m
  | .hold p m => decide (p < 8) && WellFormed.msg m
  | .stream p m => decide (p < 8) && WellFormed.msg m
  | .streamCredit p m => decide (p < 8) && WellFormed.msg m
  | .streamHem p m => decide (p < 8) && WellFormed.msg m
  | .owner p m => decide (p < 8) && WellFormed.msg m
  | .partialMsg p m => decide (p < 8) && WellFormed.msg m
  | .returnMsg p m => decide (p < 8) && WellFormed.msg m
  | .digest p m => decide (p < 8) && WellFormed.msg m
  | .rereq p m => decide (p < 8) && WellFormed.msg m
  | .normPart p m => decide (p < 8) && WellFormed.msg m
  | .verdict p m => decide (p < 8) && WellFormed.msg m
  | .abandon p m => decide (p < 8) && WellFormed.msg m
  | .gatherReq p m => decide (p < 8) && WellFormed.msg m
  | .gatherResp p m => decide (p < 8) && WellFormed.msg m
  | .messageRelay p m => decide (p < 8) && WellFormed.msg m
  | .otherFrame f => decide (f.port < 8) && f.da.length = 6
  | .fcsErrorFrame p => decide (p < 8)
  | .ackInterval p => decide (p < 8)
  | .rtxTimeout p => decide (p < 8)
  | .pfcFrame p _ _ => decide (p < 8)
  | .peerSilence p => decide (p < 8)
  | .pcsLoss p => decide (p < 8)
  | .streamTokenOut p _ pay => decide (p < 8) && decide (pay.length ≤ 64)
  | .streamPackTimeout p slot => decide (p < 8) && decide (slot < 256)
  | .streamReinject p slot => decide (p < 8) && decide (slot < 256)
  | .creditGrantTimeout p slot => decide (p < 8) && decide (slot < 256)
  | .contribTimeout group => decide (group < 4096)
  | .seamRedDeadline => true
  | .seamRetDeadline => true
  | .gatherRequest p hdr payload _ => decide (p < 8) && decide (hdr.gen < 16) && payload.length = 32
  | .seamGatherDeadline p _ => decide (p < 8)
  | .ownerDeferredAnswer group => decide (group < 4096)
  | .holdTick p => decide (p < 8)
  | .reservedTypeMessage p m => decide (p < 8) && WellFormed.msg m
  | .linkModeSettle _ speed width => decide (1 ≤ speed) && decide (speed ≤ 5) && [1, 2, 4, 8, 12, 16].contains width
  | .configAccess _ off _ => off.addr % 4 = 0 && decide (off.addr < 0x1000)
  | .hdmDecoderCommit d _ _ _ => decide (d < 2)
  | .hdmRead _ _ _ => true
  | .hdmWrite _ _ _ => true
  | .tapeWindowAccess _ _ _ _ => true
  | .hostSnoop _ => true
  | .hostBiasAnswer _ => true
  | .hostResponse _ _ => true
  | .hostCompletionTimeout _ => true
  | .tapeNotice _ _ _ => true
  | .tornTimeout => true
  | .commandStart tag => tapeTag tag
  | .replyWrite _ => true
  | .replySpacePoll _ => true
  | .tapeReplyDeadline => true
  | .tapeNop tag => tapeTag tag
  | .negotiate tag => tapeTag tag
  | .cancel tag => tapeTag tag
  | .bias tag => tapeTag tag
  | .dbgRead tag _ => tapeTag tag
  | .dbgWrite tag _ => tapeTag tag
  | .thNegotiate tag => tapeTag tag
  | .sensorRead tag => tapeTag tag
  | .logRead tag => tapeTag tag
  | .logClear tag => tapeTag tag
  | .identity tag => tapeTag tag
  | .measure tag => tapeTag tag
  | .shutdownWithTest tag => tapeTag tag
  | .shutdownWithoutTest tag => tapeTag tag
  | .thCommandTimeout tag => tapeTag tag
  | .finishingTestDone _ _ => true
  | .rstFtDeadline => true
  | .romBoot => true
  | .bootDeadline => true
  | .getTid _ => true
  | .getPldmVersion _ => true
  | .getPldmTypes _ => true
  | .getPldmCommands _ _ => true
  | .getPdrRepositoryInfo _ => true
  | .getPdr _ _ => true
  | .getSensorReading _ _ => true
  | .setNumericSensorEnable _ _ _ => true
  | .setEventReceiver _ _ _ => true
  | .queryDeviceIdentifiers _ => true
  | .getFirmwareParameters _ => true
  | .requestUpdate _ _ => true
  | .passComponentTable _ _ _ => true
  | .updateComponent _ _ _ _ => true
  | .firmwareData _ _ _ => true
  | .transferComplete _ => true
  | .verifyComplete _ => true
  | .applyComplete _ => true
  | .activateFirmware _ _ => true
  | .getStatus _ => true
  | .cancelUpdateComponent _ => true
  | .cancelUpdate _ => true
  | .getVersion _ => true
  | .getCapabilities _ => true
  | .negotiateAlgorithms _ _ => true
  | .getDigests _ => true
  | .getCertificate _ _ _ _ => true
  | .challenge _ _ _ => true
  | .getMeasurements _ _ _ => true
  | .keyExchange _ _ _ => true
  | .finish _ _ _ => true
  | .heartbeat _ _ _ => true
  | .keyUpdate _ _ _ => true
  | .endSession _ _ _ => true
  | .debugNonce _ => true
  | .debugUnlock _ nonce _ => nonce.length = 32
  | .debugLock _ => true
  | .optionWrite _ _ _ => true
  | .fuseBurn _ _ _ _ => true
  | .ideKmQuery _ _ => true
  | .ideKmKeyProg _ _ _ _ => true
  | .ideKmKSetGo _ _ _ => true
  | .ideKmKSetStop _ _ _ => true
  | .setEndpointId _ _ => true
  | .getEndpointId _ => true
  | .getMctpVersionSupport _ => true
  | .getMessageTypeSupport _ => true
  | .smbusAlertResponse => true
  | .sensorSample readings => readings.length = 139
  | .logWrite => true
  | .faultRecord unit => WellFormed.unit unit
  | .watchdogExpiry => true
  | .neighbourAnnounce p from_ _ => decide (p < 36) && decide (from_ < 36)
  | .governorSlowLoop _ _ _ _ _ => true
  | .governorFastLoop _ => true
  | .envelopeTimeout _ => true
  | .thermalSample src _ => WellFormed.sens src
  | .thermalCapStep p => decide (p < 36)
  | .tripPersistTimeout => true
  | .nbTempDeadline p q => decide (p < 36) && decide (q < 36)
  | .droop p => decide (p < 36)
  | .droopEnd p => decide (p < 36)
  | .railOutOfTolerance r => WellFormed.rail r
  | .inputOutOfRange _ => true
  | .inputCollapse _ => true
  | .refClockLoss => true
  | .oscillatorFail => true
  | .vauxValid bootSrc clkMode => decide (bootSrc < 4) && decide (clkMode < 4)
  | .vauxLoss => true
  | .auxRstN => true
  | .input50vValid => true
  | .sysRstN => true
  | .sysRstNRelease => true
  | .perstAssert => true
  | .perstDeassert => true
  | .hotReset => true
  | .flr => true
  | .blockIdle _ => true
  | .idleTimeout _ => true
  | .channelTrained _ => true
  | .zeroFillDone => true
  | .startReady => true
  | .rstReadyDeadline => true
  | .safeStateEntry => true
  | .fltSafeDeadline => true
  | .pwrChangeDeadline p => decide (p < 36)
  | .panelChangeEnd p => decide (p < 36)
  | .neighbourCapAck p q => decide (p < 36) && decide (q < 36)
  | .cxlLinkUp => true
  | .liningModeChangeEnd n g => decide (n < 24) && decide (g < 4)
  | .thimbleRestartDone => true
  | .railsInRegulation => true
  | .powerUpDeadline r => WellFormed.rail r
  | .heartbeatTimeout _ => true

end Sys2Proof
end

