-- ==== Sys2Proof/Tests/Slice0.lean ====
section
/-! SUPPORT. Tests: worked values of the spec, ill-formed commands that the check refuses, and for every statement
concrete states and operands that meet its hypotheses. -/

namespace Sys2Proof.Tests

open Sys2Proof Sys2Proof.Machine

set_option Elab.async false

/-- The module as power finds it. -/
def s0 : State := State.reset

/-- The module as power finds it, with a tile changed. -/
def inTile (t : Nat) (f : Tile → Tile) : State := s0.onTile t f

/-! ### Worked values of the spec -/

/-- spec/00_scope.md, the worked example of R20 and R21: tile (13, 30). -/
theorem test_tile_id : tileAt 13 30 = 1453 ∧ panelOf 1453 = 19 ∧ tileX 1453 = 13 ∧ tileY 1453 = 30 := by decide

/-- spec/01_module_overview.md: the registers of MC13, SP5 and panel 19. -/
theorem test_register_blocks : (R.MC_CFG_LN_MODE 13).off / 0x400 = 0x13400 / 0x400 ∧ (R.SP_CFG_EN 5).off = 0x25000
    ∧ (R.PNL_CFG_FSET 19).off / 0x400 = 0x84C00 / 0x400 := by decide

/-- spec/00_scope.md R22: serial arithmetic on 8 bits, at both ends of the window. -/
theorem test_serial : serialLater 8 0x00 0xFF = true ∧ serialLater 8 0x7F 0x00 = true ∧ serialLater 8 0x80 0x00 = false
    ∧ serialLater 8 5 5 = false := by decide

/-- spec/02_numerics.md, the worked example of R53: 0.3 to BF16, to nearest and with the draw 0x7000, and at the two
sides of the draw 26,214. -/
theorem test_bf16 : convPlain 1 .rne (f32v 0x3E99999A) = (0x3E9A, {}) ∧ convPlain 1 (.sr 0x7000) (f32v 0x3E99999A) = (0x3E9A, {})
    ∧ (convPlain 1 (.sr 26214) (f32v 0x3E99999A)).1 = 0x3E9A ∧ (convPlain 1 (.sr 26213) (f32v 0x3E99999A)).1 = 0x3E99 := by
  decide +kernel

/-- The sixteen values of spec/02_numerics.md Table 2.5. -/
def table25 : List W32 := [0x41500000, 0xC0A00000, 0x400CCCCD, 0x3E99999A, 0xBF8CCCCD, 0, 0x40E00000, 0xBF666666,
  0x3F800000, 0xC0000000, 0x3F19999A, 0x408CCCCD, 0xC0533333, 0x3D4CCCCD, 0x41100000, 0xC1400000]

/-- spec/02_numerics.md Table 2.5, `FIT`: the scale byte, the element plane and the counters. -/
theorem test_mxfp4_fit : let r := convRow ⟨0, false, true, 0, 9⟩ ⟨0, 0, 0, 0⟩ table25
    r.1 = [0x81] ∧ packCodes 4 r.2.1 = [0xA5, 0x01, 0x09, 0x84, 0x90, 0x20, 0x0A, 0xD4]
    ∧ (r.2.2.sat, r.2.2.uflow) = (0, 5) := by decide +kernel

/-- spec/02_numerics.md Table 2.5, `OCP`: the scale byte, two elements and the counters. -/
theorem test_mxfp4_ocp : let r := convRow ⟨0, false, false, 0, 9⟩ ⟨0, 0, 0, 0⟩ table25
    r.1 = [0x80] ∧ r.2.1.take 3 = [7, 0xC, 2] ∧ (r.2.2.sat, r.2.2.uflow) = (1, 2) := by decide +kernel

/-- spec/04_fabric_tokens_and_steering.md, the worked example of R145: MC3's nearer attachment to tile (13, 30). -/
theorem test_attachment : (attachments 0xC03)[nearIdx 0xC03 1453]?.map Prod.snd = some (tileAt 0 29) := by decide

/-- spec/08_memory_system.md, the worked example of R261 and R262: line 7 of `MASTER` and of `S1`. -/
theorem test_channels : chanOf 8 = 66 ∧ mcOfGran 8 = 16 ∧ bankOf 8 = 0 ∧ rowOf 8 = 0 ∧ chanOf 9 = 3 ∧ mcOfGran 9 = 0
    ∧ chanOf 3145736 = 66 ∧ bankOf 3145736 = 1 ∧ rowOf 3145736 = 256
    ∧ storOf [⟨0, 0x10000, 1⟩] 0x700 = some (8 * 256) := by decide +kernel

/-- The group of the worked example of spec/07_training_step_and_press.md R254: lr 2⁻¹⁰, b1 0.875, b2 0.9375, eps 2⁻²⁰. -/
def grp7 : GRec := List.replicate 0x70 0 ++ leBytes 4 0x3A800000 ++ leBytes 4 0x3F600000 ++ leBytes 4 0x3F700000
  ++ leBytes 4 0x35800000 ++ List.replicate 0x80 0

/-- spec/07_training_step_and_press.md, step 5 of that example: the update of w = 0.5 by g = 0.375, at t = 1. -/
theorem test_adamw : grp7.adamw 1 ⟨0x3F000000, 0, 0⟩ 0x3EC00000 = ⟨0x3EFF8000, 0x3D400000, 0x3C100000⟩ := by decide +kernel

/-- spec/07_training_step_and_press.md, step 6: the working copy in BF16 rounds the tie to 0.5. -/
theorem test_derive : (convPlain 1 .rne (f32v 0x3EFF8000)).1 = 0x3F00 := by decide +kernel

/-- spec/10_seam_ports_and_collectives.md, the worked example of R337: 1.75 / 3. -/
theorem test_gradient : fdiv (fadd (fadd 0x3F000000 0x3E800000) 0x3F800000) (natF32 3) = 0x3F155555 := by decide +kernel

/-- spec/11_host_interface_and_command_tape.md, the worked example of R377: the span of the `STEP_OPEN`, space for reply
700 with `HOST_RSEQ` 500, and its line 191. -/
theorem test_tape : packetSpan 24 = 64 ∧
    (let s := (s0.set R.TP_RSIZE_RSIZE 256).set R.TP_RSEQ_RSEQ 700
     s.replySpace 500 = true ∧ s.replySpace 445 = false ∧ s.replyAddr 700 = 64 * 191) := by decide +kernel

/-- spec/12_thimble_management_security.md, the worked example of R403: panel 19 at 92.5 °C, five intervals old; a panel
at −5.0 °C. -/
theorem test_sensor : (s0.setAll [(R.TH_SENSOR_VALID 19, 1), (R.TH_SENSOR_AGE 19, 5), (R.TH_SENSOR_VALUE 19, 1480)]).sensorWord 19
    = 0x850005C8 ∧ sensorValue (-80) = 0xFFFFB0 := by decide +kernel

/-- spec/13_panels_clocks_power.md, the worked example of R428: two decisions of the slow loop. -/
theorem test_governor : let s : State := { s0 with pow := { s0.pow with railsUp := 7 } }
    let f (cap p : Nat) : Option Nat := match exec (.governorSlowLoop p 600000 600000 50000 12000) (s.set R.PWR_STATUS_FCAP cap) with
      | .next t => some (t.get R.PWR_STATUS_FCAP)
      | _ => none
    f 2200 600300 = some 2175 ∧ f 2175 595400 = some 2175 := by
  decide +kernel

/-- Two check words: the CRC-32 of IEEE 802.3 that spec/05_patterns_and_reconfiguration.md R151 gives and the CRC-32C of
spec/10_seam_ports_and_collectives.md R318, each over the digits 1 to 9, as those codes are published. -/
theorem test_crc : crc32 ((List.range 9).map fun k => BitVec.ofNat 8 (0x31 + k)) = 0xCBF43926
    ∧ crc32c ((List.range 9).map fun k => BitVec.ofNat 8 (0x31 + k)) = 0xE3069283 := by decide +kernel

/-- SHA-256 over the three letters abc, as FIPS 180-4 publishes it: the first and last word. -/
theorem test_sha : (sha256 [0x61, 0x62, 0x63]).take 4 = [0xBA, 0x78, 0x16, 0xBF]
    ∧ (sha256 [0x61, 0x62, 0x63]).drop 28 = [0xF2, 0x00, 0x15, 0xAD] := by decide +kernel

/-! ### Ill-formed commands -/

theorem test_wf_tile : (Instr.halt 2304 .ok).wf = false ∧ (Instr.halt 2303 .ok).wf = true := by decide
theorem test_wf_reg : (Instr.regWrite none 0x100000 false 0).wf = false ∧ (Instr.regWrite (some 2304) 0 false 0).wf = false
    ∧ (Instr.regAccessMisaligned 0x100000 3 true 0).wf = false ∧ (Instr.regWrite none 0xFFFFC false 0).wf = true := by decide
theorem test_wf_unit : (Instr.creditReturn 4096 0).wf = false ∧ (Instr.creditReturn 0xC34 0).wf = true := by decide
theorem test_wf_tag : (Instr.tapeNop 0xFFFF).wf = false ∧ (Instr.tapeNop 0xFFFE).wf = true := by decide
theorem test_wf_basted : (Instr.memWrite 0 0 [] false (some 256) ⟨0, .ok⟩).wf = false := by decide
theorem test_wf_addr : (Instr.memRead 0 (2 ^ 48) 1 false ⟨0, .ok⟩).wf = false ∧ (Instr.memRead 0 (2 ^ 48 - 1) 1 false ⟨0, .ok⟩).wf = true := by
  decide
theorem test_wf_agent : (Instr.tileRingStall 0 ⟨(.bob 2), 0⟩).wf = false ∧ (Instr.tileRingStall 0 ⟨(.shut 2), 0⟩).wf = false := by decide
theorem test_wf_wait : (Instr.fabChanDeadline 0 .prog (.queue 32)).wf = false
    ∧ (Instr.fabChanDeadline 0 .prog (.och 256)).wf = false := by decide
theorem test_wf_src : (Instr.send 0 ⟨.ok, .none⟩ 0 0 (.spad 4096) 8).wf = false ∧ (Instr.send 0 ⟨.ok, .none⟩ 0 0 (.ring 16 0) 8).wf = false
    ∧ (Instr.send 0 ⟨.ok, .none⟩ 32 0 .vec 8).wf = false ∧ (Instr.send 0 ⟨.ok, .none⟩ 0 256 .vec 8).wf = false := by decide
theorem test_wf_dst : (Instr.recv 0 .ok .ok 0 (.spad 4096)).wf = false ∧ (Instr.recv 0 .ok .ok 0 (.ring 16 0)).wf = false
    ∧ (Instr.recv 0 .ok .ok 32 .vec).wf = false := by decide
theorem test_wf_loop : (Instr.loop 0 .ok (.imm 65536) 0).wf = false ∧ (Instr.loop 0 .ok (.dl 4 1) 0).wf = false
    ∧ (Instr.loop 0 .ok (.dl 0 0) 0).wf = false ∧ (Instr.loop 0 .ok (.imm 1) 2048).wf = false := by decide
theorem test_wf_sequencer : (Instr.jmp 0 .ok 2048).wf = false ∧ (Instr.tmma 0 .ok 16 0 0).wf = false
    ∧ (Instr.dlld 0 ⟨.ok, .ok⟩ 4 0).wf = false ∧ (Instr.rpub 0 .ok 16 1).wf = false ∧ (Instr.bobgo 0 .ok 2 0).wf = false := by decide
theorem test_wf_bank : (Instr.bankFillDone 0 8).wf = false ∧ (Instr.spCorrWriteback 0 8).wf = false := by decide
theorem test_wf_controller : (Instr.mcCommit 24 0).wf = false ∧ (Instr.spCommit 8 0).wf = false
    ∧ (Instr.pnlCommit 36 0).wf = false ∧ (Instr.liningPowerUpDone 0 4).wf = false := by decide
theorem test_wf_token : (Instr.tokenDelivery 0 0 (List.replicate 65 0) .ok).wf = false
    ∧ (Instr.verdictToken 0 0 256 true).wf = false := by decide
theorem test_wf_shuttle : (Instr.shuttleFire 0 ⟨2, .ok, .ok⟩).wf = false ∧ (Instr.hemSend 0 32).wf = false := by decide
theorem test_wf_atomic : (Instr.f32add 0 0 16 0 0 0 [] none ⟨0, .ok⟩).wf = false
    ∧ (Instr.f32add 0 0 0 0 0 0 (List.replicate 13 0) none ⟨0, .ok⟩).wf = false
    ∧ (Instr.setReset 0 0 0 (2 ^ 16)).wf = false := by decide
theorem test_wf_channel : (Instr.channelFail 96).wf = false ∧ (Instr.rowRemap 0 16 0 []).wf = false
    ∧ (Instr.rowRemap 0 0 (2 ^ 18) []).wf = false := by decide
theorem test_wf_bobbin : (Instr.ldr 0 2).wf = false ∧ (Instr.bobbinResponse 0 0 8 0 0 0 []).wf = false
    ∧ (Instr.retirementToken 0 0 16).wf = false := by decide
theorem test_wf_group : (Instr.closeEnd 4096).wf = false ∧ (Instr.contribTimeout 4096).wf = false := by decide

/-- A message within the widths of its fields. -/
def blankMsg : SMsg := ⟨0, 1, 0, 0, 0, 0, 0, 0, 0, 0, 0, 0, 0, [], 0, 0⟩

theorem test_wf_msg : (Instr.ack 0 blankMsg).wf = true ∧ (Instr.ack 8 blankMsg).wf = false
    ∧ (Instr.ack 0 { blankMsg with lseq := 2 ^ 24 }).wf = false ∧ (Instr.ack 0 { blankMsg with src := 2 ^ 14 }).wf = false
    ∧ (Instr.ack 0 { blankMsg with line := 2 ^ 37 }).wf = false ∧ (Instr.ack 0 { blankMsg with kstep := 2 ^ 48 }).wf = false := by
  decide
theorem test_wf_gather : (Instr.gatherRequest 0 ⟨0, 0⟩ (List.replicate 31 0) false).wf = false
    ∧ (Instr.streamPackTimeout 0 256).wf = false := by decide
theorem test_wf_host : (Instr.configAccess true ⟨2, false⟩ 0).wf = false ∧ (Instr.configAccess true ⟨0x1000, false⟩ 0).wf = false
    ∧ (Instr.hdmDecoderCommit 2 0 0 true).wf = false := by decide
theorem test_wf_thimble : (Instr.sensorSample []).wf = false ∧ (Instr.debugUnlock ⟨true, none⟩ [] ⟨[], [], []⟩).wf = false
    ∧ (Instr.faultRecord 4096).wf = false := by decide
theorem test_wf_power : (Instr.thermalSample (.panel 36) 0).wf = false ∧ (Instr.thermalSample (.package 24) 0).wf = false
    ∧ (Instr.railOutOfTolerance (.module 8)).wf = false ∧ (Instr.railOutOfTolerance (.module 0)).wf = false
    ∧ (Instr.neighbourAnnounce 0 36 0).wf = false := by decide
theorem test_wf_straps : (Instr.vauxValid 4 0).wf = false ∧ (Instr.vauxValid 0 4).wf = false ∧ (Instr.vauxValid 0 0).wf = true := by
  decide

/-! ### Witnesses: states and operands that meet the hypotheses of each statement -/

/-! StepRunsTheFrontCommand -/

theorem wit_step_idle : s0.pending = [] := by decide

/-! ResetLeavesEveryFieldAtItsResetValue -/

theorem wit_reset_field : (regTable.any fun d => (d.find 0x1028).isSome && d.flds.any fun f => f.rst = 0x0400) = true := by
  decide

/-! MisalignedAccessesAreDiscarded -/

theorem wit_misaligned_size : (2 ≠ 4 ∧ 2 ≠ 8) := by decide
theorem wit_misaligned_off : 6 % 4 ≠ 0 := by decide
theorem wit_misaligned_cover : (regAt 0x0).map RDesc.width = some 32 := by decide
theorem wit_misaligned_upper : (regAt (0x1020 + 4)).map RDesc.width = none ∧ (regAt (0x1000 + 4)).isNone ∧
    (regAt (0x0 + 4)).map RDesc.width = some 32 := by decide

/-! RegisterAccessesActByFieldType -/

theorem wit_reg_write : (0x54 - 4) % 4 = 0 ∧ s0.takesWrite none 0x50 = true ∧
    (regCover 0x50).map Prod.fst = some 0x50 ∧ s0.frozen 0x50 = false := by decide
theorem wit_reg_write_top : 0x60020 % 4 = 0 ∧ s0.takesWrite none 0x80000 = true ∧
    (regCover 0x80000).isSome ∧ s0.frozen 0x80000 = false := by decide
theorem wit_reg_write_tile : ({ s0 with th := { s0.th with debugLock := 2 } }).debugOk = true ∧
    ({ s0 with th := { s0.th with debugLock := 2 } }).takesWrite (some 2303) 0x500 = true ∧
    (regCover (tileSpace + 0x500)).isSome ∧
    (({ s0 with th := { s0.th with debugLock := 2 } }).tile 2303).frozen = false := by decide
theorem wit_reg_no_st : (regCover 0x4).map (fun p => p.2.flds.all fun f => f.ty ≠ .st) = some true ∧
    (regCover 0xFFC).isNone := by decide
theorem wit_msix : (7 < 8) ∧ s0.takesWrite none (0x2008 + 16 * 7) = true := by decide
theorem wit_lower : s0.readable none 0x4118 = true ∧ (regAt 0x4118).map (fun d => (d.width, d.isRc)) = some (64, false) ∧
    breaksR8 0x4118 4 = false ∧ breaksR8 0x4118 8 = false := by decide
theorem wit_upper_latched : s0.readable none (0x4118 + 4) = true ∧ (regCover (0x4118 + 4)).map Prod.fst = some 0x4118 ∧
    breaksR8 (0x4118 + 4) 4 = false ∧
    kvGet? ({ s0 with barLatch := [(0x4118, 7)] }).barLatch 0x4118 = some 7 ∧ kvGet? s0.barLatch 0x4118 = none := by decide
theorem wit_narrow : s0.readable none 0x4 = true ∧ (regAt 0x4).map (fun d => (d.width, d.isRc)) = some (32, false) ∧
    breaksR8 0x4 4 = false := by decide
theorem wit_no_register : s0.readable none 0xFFC = true ∧ regCover 0xFFC = none ∧ breaksR8 0xFFC 4 = false ∧
    ¬ (0x2000 ≤ 0xFFC ∧ 0xFFC ≤ 0x207F) ∧ 0xFFC ≠ 0x3000 ∧ s0.readable none (0x2008 + 16 * 7) = true := by decide
theorem wit_counter : (regTable.any fun d => d.isRc && d.width = 64 && (d.find d.base).isSome && s0.readable none d.base
    && !breaksR8 d.base 8 && !breaksR8 d.base 4) = true := by decide
theorem wit_w1c : s0.takesWrite none 0x20818 = true ∧ s0.takesWrite none 0x30030 = true := by decide

/-! CommitsAreAllOrNothing -/

/-- The module as power finds it, with a value tacked into a whole field. -/
def staging (f : Fld) (v : Nat) : State := { s0 with barStage := [(f.key, (2 ^ f.width - 1, v))] }

/-- Is the stage of a block ready for a commit? -/
def ready (s : State) (b : Block) : Bool := s.takesWrite none b.lo && anyStaged s.barStage b.has

theorem wit_commit_bit : bit (1#32).toNat 0 = true := by decide
theorem wit_commit_gc : ready (staging R.RST_CFG_IDLE_DL 0) blkGc = true ∧ ready (staging R.RST_CFG_IDLE_DL 0xFFFF) blkGc = true := by
  decide +kernel
theorem wit_commit_num : let s := staging R.NUM_SR_MODULE_MODULE 7
    ready s blkNum = true ∧ s.stepOpen = false ∧ s.changes blkNum R.NUM_SR_MODULE_MODULE = true
    ∧ ready (staging R.NUM_SR_MODULE_MODULE 0) blkNum = true
    ∧ (staging R.NUM_SR_MODULE_MODULE 0).changes blkNum R.NUM_SR_MODULE_MODULE = false
    ∧ ((staging R.NUM_SR_MODULE_MODULE 0).set R.PRS_STATUS_PHASE 1).stepOpen = true := by decide +kernel
theorem wit_commit_fab : ready (staging R.FAB_CFG_VC3_GUARD 0) blkFab = true ∧ ready (staging R.FAB_CFG_VC3_GUARD 255) blkFab = true := by
  decide +kernel
theorem wit_commit_pl : ready (staging R.PL_CFG_ARM_DL 0) blkPl = true ∧ ready (staging R.PL_CFG_ARM_DL 65535) blkPl = true := by
  decide +kernel
theorem wit_commit_unp : ready (staging R.UNP_SPILL_SIZE 1025) blkUnp = true ∧ ready (staging R.UNP_SPILL_SIZE 0x100) blkUnp = true := by
  decide +kernel
theorem wit_commit_prs : ready (staging R.PRS_CFG_GT_COUNT 4096) blkPrs = true ∧ ready (staging R.PRS_CFG_GT_COUNT 4097) blkPrs = true := by
  decide +kernel
theorem wit_commit_mc : let s := staging (R.MC_CFG_LN_MODE 23) 0x56
    (23 < 24) ∧ ready s (blkMc 23) = true ∧ rfGet (s.wouldBe (blkMc 23)) (R.MC_CFG_LN_MODE 23) = 0x56
    ∧ ¬ (rfGet (s.wouldBe (blkMc 23)) (R.MC_CFG_ATOM_DL 23) = 0 ∨ rfGet (s.wouldBe (blkMc 23)) (R.MC_CFG_SCRUB_INT 23) = 0
      ∨ rfGet (s.wouldBe (blkMc 23)) (R.MC_CFG_CE_TH 23) = 0 ∨ rfGet (s.wouldBe (blkMc 23)) (R.MC_CFG_PD_DL 23) = 0)
    ∧ (∀ g, g < 4 → bits 0x56 (2 * g) 2 ≠ 3)
    ∧ (∀ g, g < 4 → bits 0x56 (2 * g) 2 ≠ bits (s.get (R.MC_CFG_LN_MODE 23)) (2 * g) 2 →
        s.lnBusy 23 g = false ∧ (bits (s.get (R.MC_CFG_LN_MODE 23)) (2 * g) 2 = 2 → s.lnNeeded 23 g = false)) := by
  decide +kernel
theorem wit_commit_mc_other : ready (staging (R.MC_CFG_LN_MODE 0) 0x57) (blkMc 0) = true ∧ bits 0x57 0 2 = 3
    ∧ ready (staging (R.MC_CFG_ATOM_DL 0) 0) (blkMc 0) = true ∧ ready (staging (R.MC_CFG_ATOM_DL 0) 9) (blkMc 0) = true
    ∧ (∀ g, g < 4 → bits (rfGet ((staging (R.MC_CFG_ATOM_DL 0) 9).wouldBe (blkMc 0)) (R.MC_CFG_LN_MODE 0)) (2 * g) 2
      = bits ((staging (R.MC_CFG_ATOM_DL 0) 9).get (R.MC_CFG_LN_MODE 0)) (2 * g) 2) := by decide +kernel
theorem wit_commit_sp : (7 < 8) ∧ ready (staging (R.SP_CFG_EN 7) 1) (blkSp 7) = true := by decide +kernel
theorem wit_commit_seam : ready (staging R.SEAM_GCFG_INSTALL 5) blkSeam = true := by decide +kernel
theorem wit_commit_th : ready (staging R.TH_CFG_SAMPLE 0) blkTh = true ∧ ready (staging R.TH_CFG_SAMPLE 1) blkTh = true := by
  decide +kernel
theorem wit_commit_pwr : ready (staging R.PWR_CFG_P_LIMIT 600) blkPwr = true ∧ ready (staging R.PWR_CFG_P_LIMIT 99) blkPwr = true := by
  decide +kernel

/-! RaisingAFaultResolvesRecordsAndActs -/

/-- The module with a step open. -/
def inStep : State := s0.set R.PRS_STATUS_PHASE 1

/-- The module with a step open whose verdict this module has sent. -/
def verdictGone : State :=
  let i : Inst := { rc := ⟨0, 2, 1, 1, 0, 0, 0, 0, 0, 0, 0, 0, 0⟩, routes := [], step := 0, gen := 0, sentVerdict := true }
  { inStep.set R.PRS_STEP_STEP 0 with seam := { s0.seam with insts := [i] } }

/-- Four records of one unit. -/
def fullUnit : State :=
  let r : FltRec := ⟨Code.MEM_CFG_ZERO, 1, 0, 0, 0xC00, 0, 0, false⟩
  { s0 with flt := { s0.flt with waiting := [r, r, r, r] } }

theorem wit_raise_classes : classOf Code.FLT_REG_ACCESS = .correctable ∧ classOf Code.MEM_CFG_ZERO = .contained
    ∧ classOf Code.PRS_CLOSE_STEP = .stepFatal ∧ classOf Code.PWR_TRIP = .moduleFatal ∧ isBootCode Code.PWR_TRIP = false
    ∧ isBootCode Code.PRS_CLOSE_STEP = false := by decide
theorem wit_raise_room : (s0.flt.waiting.filter fun q => q.unit = 0xC00).length < 4
    ∧ ¬ (fullUnit.flt.waiting.filter fun q => q.unit = 0xC00).length < 4 := by decide
theorem wit_raise_step : inStep.stepOpen = true ∧ inStep.flag R.FLT_CFG_STOP_ON_STEP = false ∧ inStep.flt.cause = none
    ∧ inStep.verdictSent = false ∧ inStep.drain ≠ 2 ∧ (inStep.set R.FLT_CFG_STOP_ON_STEP 1).flag R.FLT_CFG_STOP_ON_STEP = true
    ∧ (inStep.set R.FLT_CFG_STOP_ON_STEP 1).stepOpen = true ∧ s0.stepOpen = false ∧ s0.press.replies = [] := by decide +kernel
theorem wit_raise_held : verdictGone.stepOpen = true ∧ verdictGone.verdictSent = true ∧ verdictGone.press.heldFault = none
    ∧ verdictGone.flag R.FLT_CFG_STOP_ON_STEP = false := by decide +kernel
theorem wit_raise_later : ({ s0 with flt := { s0.flt with cause := some ⟨0, 3, 16, 0, 0, 0, 0, false⟩ } }).flt.cause ≠ none := by
  decide

/-! TapeCommitsAndPackageAccess -/

/-- A tape of one unit of 64 KiB at 0, replies in 64 KiB of host memory, and `EN` tacked. -/
def tapeOn : State :=
  ((s0.set R.TP_TAPE_SIZE 1).set R.TP_RSIZE_RSIZE 1024) |> fun s => { s with barStage := (staging R.TP_CFG_EN 1).barStage }

/-- The module with debug access open and channel 0 of controller 23 out of service. -/
def repairing : State := { s0 with th := { s0.th with debugLock := 2 } }

theorem wit_tp_commit : bit (1#32).toNat 0 = true ∧ bit (1#32).toNat 1 = false ∧ tapeOn.serves none 0x1000 = true
    ∧ anyStaged tapeOn.barStage blkTp.has = true ∧ tapeOn.tapeCommitFail false = none ∧ tapeOn.tape.kept = false := by
  decide +kernel
theorem wit_tp_refused : (staging R.TP_CFG_EN 1).tapeCommitFail false = some (Code.TAPE_CFG_ZERO, 0x8) := by decide +kernel
theorem wit_tp_busy : let s := { staging R.TP_SEQ0_SEQ0 9 with tape := { s0.tape with cmds := [⟨1, 0, 1, 0, false, false, [], true, false, false, false, []⟩] } }
    s.tapeFail = none ∧ (tapeHeld.find? fun f => s.changes blkTp f) = some R.TP_SEQ0_SEQ0 ∧ s.tape.live ≠ 0 := by decide +kernel
theorem wit_tp_abandon : bit (3#32).toNat 0 = true ∧ bit (3#32).toNat 1 = true ∧ s0.takesWrite none 0x1000 = true
    ∧ anyStaged s0.barStage blkTp.has = false := by decide +kernel
theorem wit_repair : repairing.safe = false ∧ repairing.debugOk = true
    ∧ bit (repairing.get (R.MC_STATUS_CH_OK 23)) 0 = false ∧ repairing.get (R.MC_REPAIR_ST_DONE 23) = 1
    ∧ s0.debugOk = false := by decide +kernel
theorem wit_repair_done : kvGet? ({ s0 with mem := { s0.mem with repair := [(23, 0x1000000000#64)] } }).mem.repair 23
    = some 0x1000000000#64 ∧ bits (0x1000000000#64).toNat 36 4 = 1 := by decide

/-! TileCommitsApplyHoldOrRefuse -/

/-- A tile under open debug access, with its registers, stage and operations. -/
def debugTile (x : Tile) : State := { inTile 2303 fun _ => x with th := { s0.th with debugLock := 2 } }

/-- A tile with bank 0 changed to class W in its stage. -/
def staging2303 : Tile := { stage := [(T.TILE_BANKCFG_BANKS.key, (1, 1))] }

theorem wit_tile_commit : (2303 < nTiles) ∧ (debugTile staging2303).takesWrite (some 2303) 0x18 = true
    ∧ (debugTile staging2303).debugOk = true ∧ staging2303.frozen = false ∧ staging2303.stage ≠ [] ∧ staging2303.mustHold = false
    ∧ tileCheck 2303 staging2303.regs staging2303.stage (applyStage staging2303.regs staging2303.stage fun _ => true) = none := by
  decide +kernel
theorem wit_tile_commit_refused : let x : Tile := { stage := [((T.RING_CFG_EN 15).key, (1, 1))] }
    tileCheck 2303 x.regs x.stage (applyStage x.regs x.stage fun _ => true) = some (Code.TILE_RING_ZERO, 0x130) := by decide +kernel
theorem wit_tile_commit_held :
    let x : Tile := { stage := [((T.RING_CFG_SLOTS 15).key, (1, 1))], outst := [⟨.rpub 15 1, [], [], 0, 0, none⟩] }
    x.mustHold = true ∧ x.frozen = false
    ∧ tileCheck 2303 x.regs x.stage (applyStage x.regs x.stage fun _ => true) = none := by decide +kernel
theorem wit_tile_commit_apply : ({ staging2303 with commitHeld := true } : Tile).mustHold = false
    ∧ tileCheck 0 [] [((T.RING_CFG_EN 15).key, (1, 1))] (applyStage [] [((T.RING_CFG_EN 15).key, (1, 1))] fun _ => true)
      = some (Code.TILE_RING_ZERO, 0x130) := by decide +kernel
theorem wit_tile_commit_ring : commitChanges [] [((T.RING_CFG_SLOTS 15).key, (1, 1))] (0x40 + 0x10 * 15) = true
    ∧ commitChanges [] [((T.OCH_CRED 31).key, (1, 1))] (chOff 31) = true
    ∧ bankW [] 0 ≠ bankW (applyStage [] staging2303.stage fun _ => true) 0 := by decide +kernel
theorem wit_bank_fill : ((inTile 2303 fun x => { x with filling := [7] }).tile 2303).filling.contains 7 = true := by decide

/-! SequencerControlInstructions -/

/-- A tile that issues an instruction of an opcode at the first word of its program. -/
def issuing (op : Nat) (x : Tile) : Tile :=
  ({ x with count := 2, imem := [(0, BitVec.ofNat 64 (op * 2 ^ 58))] } : Tile).set T.TILE_STATUS_STATE 1

/-- A sewn control token with bit 0 of its payload set. -/
def controlToken : Token := ⟨mkHdr ⟨2303, 31, 0, 0, kCtl, false, 1, 8, 35, 0⟩, leBytes 8 1⟩

/-- Queue 31 a control queue of the tile program with a token at its head. -/
def ctlQueue (x : Tile) : Tile :=
  (({ x with queues := [(31, { toks := [controlToken] })] } : Tile).set (T.QCFG_EN 31) 1).set (T.QCFG_CTL 31) 1

theorem wit_advance : ({} : Tile).loops = [] ∧ ({ loops := [⟨0, 0, 2⟩] } : Tile).rel = 0
    ∧ ({ loops := [⟨0, 3, 2⟩] } : Tile).rel ≠ 3
    ∧ (let x := (({ count := 2048 } : Tile).set T.TILE_STATUS_PC 2047); x.loops = [] ∧ x.count ≤ x.rel + 1 ∧ x.base + (x.rel + 1) ≤ 2048) := by
  decide +kernel
theorem wit_issue_full : (inTile 0 fun x => { issuing 1 x with outst := List.replicate 96 ⟨.rpub 0 0, [], [], 0, 0, none⟩ }).fetches 0 1 = true
    ∧ 96 ≤ ((inTile 0 fun x => { issuing 1 x with outst := List.replicate 96 ⟨.rpub 0 0, [], [], 0, 0, none⟩ }).tile 0).outstanding := by
  decide +kernel
theorem wit_fetches : ∀ op ∈ [0x00, 0x01, 0x02, 0x04, 0x05, 0x06, 0x1E, 0x1F],
    (inTile 2303 (issuing op)).fetches 2303 op = true ∧ ((inTile 2303 (issuing op)).tile 2303).outstanding = 0
    ∧ ((inTile 2303 (issuing op)).tile 2303).halted = false ∧ ((inTile 2303 (issuing op)).tile 2303).entries = [] := by
  decide +kernel
theorem wit_fence : ((inTile 0 (issuing 2)).tile 0).unitBusy .tensor = false
    ∧ ({ outst := [⟨.tmma 0 0 0, [], [], 0, 0, none⟩] } : Tile).unitBusy .tensor = true := by decide +kernel
theorem wit_ctl_head : let x := ctlQueue (issuing 0x05 {})
    x.head 31 = some controlToken ∧ hKind controlToken.hdr = kCtl ∧ hBasted controlToken.hdr = false ∧ qEn x.regs 31 = true
    ∧ x.get (T.QCFG_CONS 31) = 0 ∧ x.get (T.QCFG_CTL 31) ≠ 0 := by decide +kernel
theorem wit_bobgo : let x := (({} : Tile).set T.BOB_ENTRY_ENTRIES 0xFF00000000000000).set (T.BOB_CFG_EN 1) 1
    bit (bits (x.get T.BOB_ENTRY_ENTRIES) (8 * 7) 8) 7 = true ∧ bobEn x.regs 1 = true ∧ (x.bob 1).run = false
    ∧ (∀ p ∈ (x.bob 1).quar, p.1 ≠ 1) := by decide +kernel

/-! TileOperationsIssueAndComplete -/

theorem wit_issue : ∀ p ∈ [(0x10, TileOp.vop .add (.spad 0) (.spad 1) .vec (.spad 4095) 16), (0x11, .vcvt (.spad 0) .vec 0 16),
      (0x12, .vred true .vec 0 1), (0x14, .accrd .comp 0 16 (.spad 0)), (0x15, .accinit .plain 16383 1),
      (0x16, .accadd .int (.spad 0) 0 16)],
    (inTile 0 (issuing p.1)).fetches 0 p.1 = true ∧ ((inTile 0 (issuing p.1)).tile 0).outstanding < 96
    ∧ fmtCheck true 0 = none ∧ (fmtCheck true 15).isSome = true
    ∧ (((inTile 0 (issuing p.1)).tile 0).accesses p.2 = .ok 0 ∨ ((inTile 0 (issuing p.1)).tile 0).accesses p.2 = .vec) := by
  decide +kernel
theorem wit_issue_fault : ({} : Tile).accesses (.accrd .comp 1 1 .vec) = .fault Code.TILE_OPERAND_RANGE
    ∧ ({} : Tile).accesses (.vred true (.ring 0 0) 0 1) = .fault Code.TILE_RING_ORDER := by decide +kernel
/-- Ring 15 with the tile program as producer, two slots, nothing published. -/
def ringTile (x : Tile) : Tile :=
  (((((x.set (T.RING_CFG_EN 15) 1).set (T.RING_CFG_SLOTS 15) 2).set (T.RING_CFG_SLOT_G 15) 1).set (T.RING_CFG_DL 15) 1).set
    (T.RING_CFG_PROD 15) 3)
theorem wit_issue_stall : let x := (ringTile {}).set (T.RING_CFG_CONS 15) 3
    x.accesses (.vred true (.ring 15 0) 0 1) = .stall 15 := by decide +kernel
theorem wit_tmma : let x := issuing 0x08 (((({} : Tile).set (T.TD_SHAPE_MQ 15) 1).set (T.TD_SHAPE_NQ 15) 1).set (T.TD_SHAPE_KQ 15) 1 |>.set
      (T.TD_SHAPE_F 15) 1)
    (inTile 0 fun _ => x).fetches 0 0x08 = true ∧ tdUnused x.regs 15 = false
    ∧ x.operandFits (tdOperandA x.regs 15) (tdK x.regs 15) = true ∧ x.operandFits (tdOperandB x.regs 15) (tdK x.regs 15) = true
    ∧ (x.set (T.TD_A_A_ADDR 15) 4095).operandFits (tdOperandA (x.set (T.TD_A_A_ADDR 15) 4095).regs 15) (tdK x.regs 15) = false
    ∧ worst [x.operandAccess (tdOperandA x.regs 15) (tdK x.regs 15) 0, x.operandAccess (tdOperandB x.regs 15) (tdK x.regs 15) 0]
      = .ok 0 := by decide +kernel
theorem wit_rings : let x := ringTile (issuing 0x18 {})
    (inTile 0 fun _ => x).fetches 0 0x18 = true ∧ x.ownsRing 15 true = true ∧ x.ownsRing 15 false = false
    ∧ (inTile 0 fun _ => issuing 0x19 {}).fetches 0 0x19 = true
    ∧ ((ringTile (issuing 0x19 {})).set (T.RING_CFG_CONS 15) 3).ownsRing 15 false = true
    ∧ ringOcc x.regs 15 + 2 ≤ x.get (T.RING_CFG_SLOTS 15) := by decide +kernel
theorem wit_rrel_perform : 1 ≤ ringOcc ((ringTile {}).set (T.RING_STAT_TAIL 15) 1).regs 15 := by decide +kernel
theorem wit_complete : let o : OutOp := ⟨.vred true (.spad 4095) 0 1, [], [], 0, 0, none⟩
    let x : Tile := { outst := [o] }
    (inTile 0 fun _ => x).issues = true ∧ x.outst[0]? = some o ∧ x.mayComplete 0 o = true
    ∧ readsBank (o.reads x.regs) 7 = true ∧ readsBank (o.reads x.regs) 0 = false
    ∧ bankW x.regs 7 = false ∧ bankW (x.set T.TILE_BANKCFG_BANKS 0x4000).regs 7 = true ∧ (opAcc x.regs o.op).2 = 0
    ∧ (opAcc x.regs (.accinit .plain 0 1)).2 ≠ 0 ∧ x.openEnt o = none := by decide +kernel
theorem wit_perform_held : let e : BEntry := { id := 3, chk := ⟨0, [], [], []⟩, tok := controlToken, q := 31 }
    ({ entries := [e] } : Tile).openEnt ⟨.vred true .vec 0 1, [], [], 0, 0, some 3⟩ = some 3 := by decide +kernel
theorem wit_writeback : ({ corrBanks := [7] } : Tile).corrBanks.contains 7 = true := by decide

/-! RecvSendAndTheBastingRecord -/

/-- A sewn data token for queue 31 with a payload of 64 bytes for slot 255. -/
def dataToken (basted : Bool) : Token := ⟨mkHdr ⟨2303, 31, 0, 0, kData, basted, 2, 64, 35, 255⟩, List.replicate 64 7⟩

/-- Queue 31 a data queue of the tile program with a token at its head. -/
def dataQueue (tk : Token) (x : Tile) : Tile := ({ x with queues := [(31, { toks := [tk] })] } : Tile).set (T.QCFG_EN 31) 1

/-- A basting-record entry. -/
def entry (id : Nat) : BEntry := { id := id, chk := ⟨5, [], [1, 2, 3, 4], []⟩, tok := dataToken true, q := 31 }
theorem wit_take : hBasted (dataToken true).hdr = true ∧ hBasted (dataToken false).hdr = false
    ∧ ((inTile 0 fun x => x).tile 0).entries = [] ∧ ((({} : Tile).queue 31).spill = false) := by decide +kernel
theorem wit_take_open : ((inTile 0 fun x => { x with entries := [entry 0] }).tile 0).entries = [] ++ [entry 0] := by decide +kernel
theorem wit_recv : let s := inTile 2303 fun x => dataQueue (dataToken false) (issuing 0x1C x)
    s.fetches 2303 0x1C = true ∧ (s.tile 2303).outstanding < 96 ∧ qEn (s.tile 2303).regs 31 = true
    ∧ (s.tile 2303).get (T.QCFG_CONS 31) = 0 ∧ (s.tile 2303).head 31 = some (dataToken false)
    ∧ hKind (dataToken false).hdr = kData ∧ (dataToken false).pay ≠ []
    ∧ (s.tile 2303).landing (.spad 3840) (hSlot (dataToken false).hdr) 64 = .ok (64 * 4095) := by decide +kernel
theorem wit_recv_empty : let s := inTile 0 fun x => (issuing 0x1C x).set (T.QCFG_EN 31) 1
    (s.tile 0).head 31 = none ∧ qEn (s.tile 0).regs 31 = true ∧ qEn (s.tile 0).regs 30 = false := by decide +kernel
theorem wit_recv_hem : hKind (mkHdr ⟨0, 31, 0, 0, kHem, false, 2, 0, 0, 0⟩) = kHem := by decide +kernel
theorem wit_send : let s := inTile 0 fun x => ({ issuing 0x1D x with ochs := [(31, { credits := 1, bucket := 1 })] } : Tile).set (T.OCH_EN 31) 1
    s.fetches 0 0x1D = true ∧ (s.tile 0).outstanding < 96 ∧ chEn (s.tile 0).regs 31 = true ∧ (s.tile 0).canSend 31 = true
    ∧ (s.tile 0).reading (.spad 4095) 64 = .ok (64 * 4095) ∧ (s.tile 0).entries = [] ∧ chEn (s.tile 0).regs 30 = false
    ∧ ((s.tile 0).set (T.OCH_EN 30) 1).canSend 30 = false := by decide +kernel
theorem wit_send_vec : (({} : Tile).unitBusy .vector = false) ∧ (({} : Tile).landing .vec 0 64 = .vec) := by decide +kernel
theorem wit_send_bank : readsBank [(64 * 4095, 64)] 7 = true ∧ bankW (({} : Tile).set T.TILE_BANKCFG_BANKS 0x4000).regs 7 = true
    ∧ bankW ({} : Tile).regs 7 = false := by decide +kernel
theorem wit_land_fault : (({} : Tile).landing (.spad 4095) 255 64 = .fault Code.TILE_OPERAND_RANGE)
    ∧ ((ringTile {}).landing (.ring 15 5) 0 64 = .stall 15) := by decide +kernel
theorem wit_resume : let s := inTile 0 fun x => { ringTile x with stall := some ⟨15, true, some (.rpub 15 1)⟩ }
    s.issues = true ∧ s.stallCounts true = true ∧ (s.tile 0).stall = some ⟨15, true, some (.rpub 15 1)⟩ ∧ s.retry 0 (.rpub 15 1) = .vec
    ∧ ((({ bob1 := { stalled := true } } : Tile).bob 1).stalled = true) := by decide +kernel
theorem wit_entries : (inTile 0 fun x => { x with entries := [entry 0, { entry 1 with q := 30 }] }).tile 0 |>.entries[1]?
    = some { entry 1 with q := 30 } := by decide +kernel
theorem wit_entries_ids : ([entry 0, entry 1].map BEntry.id).Nodup ∧ (entry 0).held = [] ∧ (entry 0).taken = []
    ∧ (entry 0).verdict = none ∧ ({ entry 0 with verdict := some true } : BEntry).verdict ≠ none := by decide
theorem wit_entries_fault : (({} : Tile).holdsFault 31 0 = false) ∧ ¬ ((entry 0).q = 30 ∧ hTag (entry 0).tok.hdr = 0)
    ∧ ([{ entry 1 with q := 30 }].find? fun f => f.q = 30 && hTag f.tok.hdr = 0 && f.verdict.isNone)
      = some { entry 1 with q := 30 } := by decide +kernel
theorem wit_orphan_tile : s0.safe = false ∧ (s0.tile 2303).entries = [] ∧ ((s0.tile 2303).queue 31).toks = []
    ∧ (s0.tile 2303).staging = [] ∧ (s0.tile 2303).fwd = [] ∧ (s0.tile 2303).hfaults = []
    ∧ s0.bastedInNet 2303 31 255 = false := by decide +kernel

/-! TokensTravelAndAreDelivered -/

/-- A token in the mesh at a router: one that an agent of the tile has sent, or one that has come to its exit. -/
def netAt (r : Nat) (ent : Bool) (k : Token) : State := { s0 with net := [⟨r, .out, ent, k, 0, none⟩] }

theorem wit_router : let k := dataToken false
    let s := netAt 0 false k
    s.named (fun m => !m.arrived && m.next.1 = 0) k.hdr = .tok ⟨0, .out, false, k, 0, none⟩
    ∧ (⟨0, .out, false, k, 0, none⟩ : NetTok).next.1 = 0 ∧ hdrOk k.hdr = true ∧ fieldBad k.hdr = false ∧ k.pay ≠ [] := by
  decide +kernel
theorem wit_router_next : let k := dataToken false
    (netAt 0 true k).named (fun m => !m.arrived && m.next.1 = 1) k.hdr = .tok ⟨0, .out, true, k, 0, none⟩
    ∧ (⟨0, .out, true, k, 0, none⟩ : NetTok).next = (1, .west) := by decide +kernel
theorem wit_router_bad : hdrOk 1#64 = false ∧ s0.named (fun m => !m.arrived && m.next.1 = 2303) 1#64 = .outside
    ∧ (netAt 0 false (dataToken false)).named (fun m => !m.arrived && m.next.1 = 0) 1#64
      = .tok ⟨0, .out, false, dataToken false, 0, none⟩
    ∧ (let h := mkHdr ⟨0xFFF, 0, 0, 0, kData, false, 2, 0, 0, 0⟩
       hdrOk h = true ∧ fieldBad h = true ∧ hBasted h = false
         ∧ s0.named (fun m => !m.arrived && m.next.1 = 2303) h = .outside) := by decide +kernel
/-- A token of a virtual channel that waits for the east output of router 0. -/
def waiting (vc : Nat) : NetTok := ⟨0, .out, true, ⟨mkHdr ⟨2303, 31, 0, 0, kData, false, vc, 0, 0, 0⟩, []⟩, 0, none⟩
theorem wit_arbiter : (waiting 0).vc < 2 ∧ (waiting 2).vc = 2 ∧ (waiting 3).vc = 3 ∧ ({} : Arb).low = false
    ∧ ({ low := true } : Arb).low = true ∧ ({ guard := true } : Arb).guard = true := by decide +kernel
/-- A tile whose queue 31 takes the sewn data token, with the token at it. -/
def arriving : State :=
  { netAt 2303 true (dataToken false) with tiles :=
      [(2303, (((({} : Tile).set (T.QCFG_EN 31) 1).set (T.QCFG_VC 31) 2).set (T.QCFG_SRC_PANEL 31) 35))] }
theorem wit_delivery : let k := dataToken false
    arriving.named (fun m => m.arrived && hDest m.tok.hdr = 2303) k.hdr = .tok ⟨2303, .out, true, k, 0, none⟩
    ∧ hDest k.hdr = 2303 ∧ hKind k.hdr ≠ kSpill ∧ ctlToken k.hdr = false ∧ ({ arriving with net := [] }).ownRow 2303 k = false
    ∧ ((arriving.tile 2303).liveRegs (hGen k.hdr)).isSome ∧ (arriving.tile 2303).chanOk (arriving.tile 2303).regs 31 k.hdr = true
    ∧ ((arriving.tile 2303).queue 31).spill = false ∧ (arriving.tile 2303).freeSlots 31 ≠ 0
    ∧ ({} : Tile).chanOk [] 31 k.hdr = false ∧ (({} : Tile).set T.TILE_STATUS_GEN 1).liveRegs 0 = none := by decide +kernel
theorem wit_delivery_spill : let x : Tile := { queues := [(31, { spill := true })] }
    (x.queue 31).spill = true ∧ x.staging.length < 8 ∧ 8 ≤ (List.replicate 8 (31, dataToken false)).length := by decide +kernel
theorem wit_delivery_full : ({ queues := [(31, { toks := List.replicate 16 (dataToken false) })] } : Tile).freeSlots 31 = 0 := by
  decide +kernel
theorem wit_delivery_unit : let k : Token := ⟨mkHdr ⟨0xC34, 0, 0, 0, kCtl, false, 1, 8, 0, 0⟩, leBytes 8 0⟩
    let n : NetTok := ⟨2276, .west, true, k, 0, none⟩
    ({ s0 with net := [n] }).named (fun m => m.arrived && hDest m.tok.hdr = 0xC34) k.hdr = .tok n
    ∧ destReserved 0xC34 = false ∧ s0.unitLive 0xC34 0 = true ∧ s0.unitLive 0xC34 1 = false ∧ hKind k.hdr ≠ kSpill
    ∧ ctlToken k.hdr = false ∧ hDq k.hdr ≠ 28 ∧ (attachments (hDest k.hdr))[n.att]? = some (56, 2276) := by decide +kernel
theorem wit_delivery_control : let k : Token := ⟨mkHdr ⟨0xC34, 0, 15, 0, kCtl, false, 0, 8, 0, 0⟩, leBytes 8 0⟩
    let n : NetTok := ⟨2276, .west, true, k, 0, none⟩
    ({ s0 with net := [n] }).named (fun m => m.arrived && hDest m.tok.hdr = 0xC34) k.hdr = .tok n ∧ ctlToken k.hdr = true := by
  decide +kernel
theorem wit_credit : ([⟨2303, 31, 0⟩] : List Credit).find? (fun e => e.dest = 2303 && e.chan = 31) = some ⟨2303, 31, 0⟩
    ∧ ({} : Tile).gen = 0 ∧ s0.tape.chans = [] ∧ s0.tape.pendChans = [] ∧ s0.seam.done = [] := by decide +kernel
theorem wit_bucket : chEn (({} : Tile).set (T.OCH_EN 31) 1).regs 31 = true := by decide +kernel
theorem wit_guard : (waiting 3).ent = true ∧ (waiting 3).r = 0 ∧ (waiting 3).port = .east ∧ (waiting 3).vc = 3 := by decide +kernel
theorem wit_wait : let s := inTile 2303 fun x => (x.set (T.QCFG_EN 31) 1).waits (some (.queue 31))
    s.unitWaits 2303 (.queue 31) = false ∧ s.waitCounts 2303 .prog (.queue 31) = true
    ∧ s.waitCounts 2303 .prog (.queue 30) = false := by decide +kernel
theorem wit_wait_bobbin : let s := inTile 0 fun x => { x.set (T.BOB_STAT_STATE 1) 4 with bob1 := { run := true } }
    s.unitWaits 0 (.och 0) = false ∧ s.waitCounts 0 (.bob 1) (.och 0) = true := by decide +kernel
theorem wit_unit_wait : let s := { s0 with tape := { s0.tape with chans := [⟨0, 0, 1, 1, 1, 0, 0, 0, 0, [[]], false, false⟩] } }
    s.unitWaits 0xC34 (.och 0) = true := by decide +kernel

/-! ShuttlesPredicatesAndVerdicts -/

/-- A token of a kind for a queue, with a tag. -/
def tok (q kind tag : Nat) (basted : Bool) (pay : List Byte) : Token :=
  ⟨mkHdr ⟨0, q, 0, tag, kind, basted, 1, pay.length, 0, 0⟩, pay⟩

/-- A shuttle of a mode at tile 0: control queue 0, data queue 1, outputs 2 and 3 that can send. -/
def shuttleTile (mode : Nat) (c d : List Token) : Tile :=
  ((((((({ queues := [(0, { toks := c }), (1, { toks := d })]
           ochs := [(2, { credits := 2, bucket := 2 }), (3, { credits := 2, bucket := 2 })] } : Tile).set (T.SHUT_CFG_EN 0) 1).set
    (T.SHUT_CFG_MODE 0) mode).set (T.SHUT_CFG_DQ0 0) 1).set (T.SHUT_CFG_OUT0 0) 2).set (T.SHUT_CFG_OUT1 0) 3).set
    (T.SHUT_CFG_DEPTH 0) 8).set (T.SHUT_CFG_BASTE_WAIT 0) 1

theorem wit_shuttle_fire : let c := tok 0 kCtl 7 false (leBytes 8 1)
    let d := tok 1 kData 7 false [1]
    let x := shuttleTile 1 [c] [d]
    (inTile 0 fun _ => x).shuttles 0 0 = true ∧ x.resending 0 = false ∧ (∀ b ∈ x.shut 0, b.own = false) ∧ x.head (x.ctlq 0) = some c
    ∧ isMarker c = false ∧ sideOf c = 1 ∧ x.head (x.sideQ 0 1) = some d ∧ isMarker d = false ∧ hTag c.hdr = hTag d.hdr
    ∧ hBasted c.hdr = false ∧ hBasted d.hdr = false ∧ x.canSend (x.sideOut 0 1) = true ∧ c.pay ≠ [] ∧ d.pay ≠ []
    ∧ hTag (tok 0 kCtl 6 false []).hdr ≠ hTag d.hdr ∧ sideOf (tok 0 kCtl 7 false []) = 0 ∧ isMarker (tok 1 kData 7 false []) = true
    ∧ hBasted (tok 1 kData 7 true [1]).hdr = true
    ∧ (shuttleTile 3 [c] [d]).get (T.SHUT_CFG_MODE 0) = 3 := by decide +kernel
theorem wit_shuttle_baste : let d := tok 1 kData 7 false [1]
    let x := shuttleTile 1 [] [d]
    (inTile 0 fun _ => x).shuttles 0 0 = true ∧ x.resending 0 = false ∧ (inTile 0 fun _ => x).flag R.FAB_CFG_BASTE_EN = true
    ∧ x.get (T.SHUT_CFG_BASTE_WAIT 0) ≠ 0 ∧ (x.shut 0).length < x.get (T.SHUT_CFG_DEPTH 0) ∧ x.head (x.ctlq 0) = none
    ∧ ¬ (x.get (T.SHUT_CFG_MODE 0) = 3 ∧ x.predicted 0 = 0) ∧ x.canSend (x.sideOut 0 (x.predicted 0)) = true
    ∧ x.head (x.sideQ 0 (x.predicted 0)) = some d ∧ hKind d.hdr = kData := by decide +kernel
theorem wit_shuttle_resolve : let c := tok 0 kCtl 7 false (leBytes 8 1)
    let b : BasteBuf := ⟨7, 1, tok 1 kData 7 false [1], true, (0, 5, 7)⟩
    let x : Tile := { shuttleTile 1 [c] [] with shut0 := [b] }
    (inTile 0 fun _ => x).shuttles 0 0 = true ∧ x.resending 0 = false ∧ (x.shut 0).find? BasteBuf.own = some b ∧ x.head (x.ctlq 0) = some c ∧ hTag c.hdr = b.tag ∧ sideOf c = b.side
    ∧ (x.setShut 0 ((x.shut 0).erase b)).undecided b.dst = false ∧ ({ x with fwd := [(1, 7, b.dst)] } : Tile).undecided b.dst = true
    ∧ (∀ f ∈ x.fwd, f.2.2 ≠ b.dst)
    ∧ sideOf c ≠ 0 ∧ x.get (T.SHUT_CFG_MODE 0) ≠ 3 ∧ ({ shuttleTile 3 [c] [] with shut0 := [b] } : Tile).get (T.SHUT_CFG_MODE 0) = 3 := by
  decide +kernel
theorem wit_shuttle_markers : let e := tok 0 kEnd 0 false []
    let h := tok 0 kHem 0 false []
    (inTile 0 fun _ => shuttleTile 1 [e] [e]).passes? 0 0 kEnd = true
    ∧ (inTile 0 fun _ => shuttleTile 1 [h] [h]).passes? 0 0 kHem = true := by decide +kernel
/-- The predicate unit of tile 49 with a head at queue 1 and an output that can send. -/
def predTile (k : Token) : Tile :=
  ((({ queues := [(1, { toks := [k] })], ochs := [(2, { credits := 1, bucket := 1 })] } : Tile).set T.PRED_CFG_EN 1).set
    T.PRED_CFG_INQ 1).set T.PRED_CFG_OUTA 2
theorem wit_predicate : ∀ k ∈ [tok 1 kData 7 false (leBytes 4 5), tok 1 kEnd 0 false [], tok 1 kHem 0 false []],
    (inTile 49 fun _ => predTile k).predicates 49 = true ∧ (predTile k).head ((predTile k).get T.PRED_CFG_INQ) = some k
    ∧ hBasted k.hdr = false := by decide +kernel
theorem wit_predicate_index : let x := { (predTile (tok 1 kData 7 false (leBytes 4 5))).set T.PRED_CFG_OP 4 with predOpen := [(1, 6)] }
    (inTile 49 fun _ => x).predicates 49 = true ∧ x.get T.PRED_CFG_OP = 4 ∧ x.predOpen ≠ []
    ∧ (x.head (x.get T.PRED_CFG_INQ)).isSome := by decide +kernel
theorem wit_predicate_type : let x := ((predTile controlToken).set T.PRED_CFG_TYPE 2).set T.PRED_CFG_OP 1
    x.get T.PRED_CFG_TYPE = 2 ∧ x.get T.PRED_CFG_OP = 1 ∧ x.get T.PRED_CFG_CONST < 2 ^ 32 ∧ (predTile controlToken).get T.PRED_CFG_OP = 0 := by
  decide +kernel
theorem wit_verdicts : let x : Tile := { entries := [entry 0], queues := [(31, { toks := [dataToken true] })] }
    (x.entries.find? fun e => e.q = 31 && hTag e.tok.hdr = 0 && e.verdict.isNone) = some (entry 0)
    ∧ (({ x with entries := [] } : Tile).queue 31).toks.find? (bastedTag 0) = some (dataToken true) ∧ x.holdsFault 31 0 = false
    ∧ (({} : Tile).queue 31).toks.find? (bastedTag 0) = none ∧ s0.bastedInNet 2303 31 0 = false
    ∧ (netAt 0 true (dataToken true)).bastedInNet 2303 31 0 = true
    ∧ (([(31, dataToken true)] : List (Nat × Token)).find? fun p => p.1 = 31 && bastedTag 0 p.2) = some (31, dataToken true)
    ∧ ([(31, 0, (0, 0, 0))] : List (Nat × Nat × SentTo)).any (fun f => f.1 = 31 && f.2.1 = 0) = true := by decide +kernel

/-! APatternIsLoadedCheckedAndArmed -/

/-- An image of a header alone. -/
def hdrImage (hold : Bool) : List Byte :=
  leBytes 4 0x5441504C ++ [0, 1] ++ leBytes 2 64 ++ leBytes 4 64 ++ leBytes 4 9 ++ leBytes 2 0 ++ leBytes 2 (b2n hold)
    ++ leBytes 4 0 ++ leBytes 2 0 ++ leBytes 34 0 ++ leBytes 4 (if hold then 996164654 else 1151983549)

/-- The module ready to load, with bytes at data address 0. -/
def loadable (img : List Byte) : State :=
  let s := s0.set R.GC_STATE_FABRIC_READY 1
  { s with mem := { s.mem with data := ((List.range img.length).zip img).filter fun p => p.2 ≠ 0 } }

/-- A load command. -/
def loadCmd : Cmd := ⟨1, 0, Op.PATTERN_LOAD, 0, false, false, leBytes 8 0 ++ leBytes 4 64 ++ leBytes 4 0, true, false, false, false, []⟩

/-- A load of generation 1 in a state of the loader. -/
def loading (pl : Nat) (img : List Byte) : State :=
  let s := (loadable img).set R.PL_STATUS_STATE pl
  { s with loader := { live := true, gen := 1, base := 0, len := 64 } }

theorem wit_load_ready : let s := loadable (hdrImage false)
    s.flag R.GC_STATE_FABRIC_READY = true ∧ s.draining = false ∧ s.plState = 0 ∧ s.genState ((s.curGen + 1) % 16) = 0
    ∧ s0.flag R.GC_STATE_FABRIC_READY = false ∧ (loading 2 []).plState ≠ 0 := by decide +kernel
theorem wit_load_cmd : let s := { loadable (hdrImage false) with tape := { s0.tape with cmds := [loadCmd] } }
    s.safe = false ∧ s.cmdFor 1 Op.PATTERN_LOAD = some loadCmd := by decide +kernel
theorem wit_load_image : let u := ((loadable (hdrImage false)).takeCmd loadCmd).readImage 0 64 .ok
    u.2 = .inr (hdrImage false) ∧ u.1.pass1 (hdrImage false) 64 = none ∧ u.1.tilesIn.length < 4096 := by decide +kernel
theorem wit_load_bad_image : let u := ((loadable (leBytes 64 0)).takeCmd loadCmd).readImage 0 64 .ok
    u.2 = .inr (leBytes 64 0) ∧ (u.1.pass1 (leBytes 64 0) 64).isSome := by decide +kernel
theorem wit_load_unread : ∃ u, s0.readImage lpEnd 64 .ok = (u, .inl Code.FLT_ADDR_UNMAPPED) := ⟨_, rfl⟩
theorem wit_load_pass2 : let s := loading 2 (hdrImage true)
    s.safe = false ∧ s.loader.live = true ∧ s.halts = false ∧ s.plState = 2 ∧ (s.readImage 0 64 .ok).2 = .inr (hdrImage true)
    ∧ imgCrcOk (hdrImage true) = true ∧ imgCrcOk (leBytes 64 0) = false := by decide +kernel
theorem wit_load_issue : let s := (loading 3 []).set R.GC_STATE_STATE 1
    s.issueFail = none ∧ (loading 3 []).issueFail = some Code.PAT_NOT_READY ∧ s.plState = 3 ∧ s.loader.gen < 16 := by decide +kernel
theorem wit_load_arm_cmd : let c : Cmd := { loadCmd with opcode := Op.PATTERN_ARM }
    ({ loading 3 [] with tape := { s0.tape with cmds := [c] } }).cmdFor 1 Op.PATTERN_ARM = some c := by decide +kernel
theorem wit_load_units : allUnits.contains 2303 = true ∧ allUnits.contains 0xC27 = true ∧ allUnits.contains 0xC34 = true
    ∧ (loading 4 []).plState = 4 ∧ (loading 4 []).loader.unitArmed.contains 2303 = false := by decide +kernel
theorem wit_load_ack : let s := { loading 4 [] with loader := { (loading 4 []).loader with unitArmed := [2303] } }
    s.loader.unitArmed.contains 2303 = true ∧ s.loader.armed.contains 2303 = false
    ∧ ([2303] : List Nat).length ≠ allUnits.length ∧ (2303 :: allUnits.erase 2303).length = allUnits.length
    ∧ (allUnits.erase 2303).contains 2303 = false := by decide +kernel
theorem wit_load_old : (inTile 2303 fun x => { x with count := 1 }).tilesIn = [2303] ∧ s0.tilesIn = []
    ∧ ({ loading 5 [] with loader := { goSent := true } }).loader.unitGone.contains 2303 = false := by decide +kernel
theorem wit_load_tables : let s := { s0 with seam := { s0.seam with pend := some {} }, loader := { unitGone := (List.range 8).map (0xC20 + ·) } }
    s.seam.pend = some {} ∧ s.loader.unitGone.contains 0xC27 = true ∧ s0.loader.unitGone.contains 0xC27 = false
    ∧ (∀ j, j < 8 → (0xC20 + j) ∈ s.loader.unitGone)
    ∧ ({ s0 with loader := { unitGone := [0xC34] } }).loader.unitGone.contains 0xC34 = true
    ∧ ({ s0 with loader := { unitGone := [0xC34] } }).curGen = 0 := by decide +kernel

/-! GenerationsEndAndRetire -/

theorem wit_hem_send : let s := (inTile 2303 fun x =>
      { x.set (T.OCH_EN 31) 1 with count := 1, halted := true, ochs := [(31, { credits := 1, bucket := 1 })] }).set R.GC_STATE_FABRIC_READY 1
    let x := s.tile 2303
    s.issues = true ∧ chEn x.regs 31 = true ∧ unitOut 2303 x.regs 31 = false ∧ (x.och 31).hem = false ∧ x.programEnded = true
    ∧ x.count ≠ 0 ∧ x.canSend 31 = true := by decide +kernel
/-- A tile with GO for generation 1, its fabric ready. -/
def switching (rf : RegFile) : State :=
  ((inTile 2303 fun x => { x with pend := some { gen := 1, regs := rf, armed := true, go := true } }).set R.GC_STATE_FABRIC_READY 1)
theorem wit_switch : let s := switching []
    s.safe = false ∧ s.canSwitch 2303 = true ∧ (s.tile 2303).pend.any (fun p => p.go) = true ∧ tileCheck 2303 ((s.takeHems 2303).tile 2303).regs [] [] = none
    ∧ stageTo ((s.takeHems 2303).tile 2303).regs [] = [] := by decide +kernel
theorem wit_switch_fails : let rf := (({} : Tile).set (T.OCH_EN 0) 1).regs
    let x := ((switching rf).takeHems 2303).tile 2303
    (tileCheck 2303 x.regs (stageTo x.regs rf) rf).isSome = true ∧ (switching rf).canSwitch 2303 = true := by decide +kernel
theorem wit_current : ({ s0 with loader := { live := true, gen := 15, oldGen := 14 } }).loader.gen < 16 := by decide
/-- GO has come to every unit. -/
def ending (pl : Nat) : State := { s0.set R.PL_STATUS_STATE pl with
  loader := { live := true, goSent := true, gen := 1, unitGone := [0xC34, 0xC27, 0xC00], ackSent := [2303], awaited := [2303] } }
theorem wit_unit_end : ∀ u ∈ [0xC34, 0xC27, 0xC00], selvedge.contains u = true ∧ (ending 5).loader.unitGone.contains u = true
    ∧ (ending 5).loader.ackSent.contains u = false ∧ (ending 5).unitEnded u 0 = true := by decide +kernel
theorem wit_unit_end_waits : let s := { s0 with net := [⟨0, .out, false, ⟨mkHdr ⟨0xC00, 0, 0, 0, kData, false, 1, 8, 0, 0⟩, []⟩, 0, none⟩] }
    s.unitEnded 0xC00 0 = false := by decide +kernel
theorem wit_retire_ack : let s := ending 6
    s.loader.ackSent.contains 2303 = true ∧ s.loader.awaited.contains 2303 = true ∧ s.plState = 6 ∧ s.loader.discarding = false
    ∧ s.loader.live = true ∧ (s.loader.awaited.erase 2303) = [] ∧ s.halts = false ∧ s0.fab.stopped = []
    ∧ (∀ e ∈ s.tiles, e.2.pend = none) ∧ (∃ e ∈ (switching []).tiles, e.2.pend ≠ none) := by decide +kernel
theorem wit_discard : let l : Loader := { live := true, discarding := true, discardTo := [2303, 0xC34, 0xC27], discarded := [0], gen := 1 }
    l.discardTo.contains 2303 = true ∧ l.discardTo.contains 0xC34 = true ∧ l.discardTo.contains 0xC27 = true
    ∧ l.discarded.contains 0 = true ∧ l.discarding = true := by decide
theorem wit_load_deadlines : (loading 4 []).loader.live = true ∧ (loading 4 []).loader.goSent = false ∧ (loading 4 []).plState ≠ 3
    ∧ (ending 5).loader.goSent = true ∧ (ending 5).plState = 5 ∧ (ending 6).plState = 6 := by decide +kernel

/-! MonitorsTripAndProbesDecide -/

/-- Tile 2303 waits on its queue 31; monitors count. -/
def starving : State :=
  (inTile 2303 fun x => (x.set (T.QCFG_EN 31) 1).waits (some (.queue 31))).set R.UNP_CFG_MON_EN 1
theorem wit_trip : starving.flag R.UNP_CFG_MON_EN = true ∧ starving.waitsOn 2303 .prog (.queue 31) = true
    ∧ (starving.tile 2303).tripped.contains (.prog, .queue 31) = false ∧ starving.panelTrips 35 = false
    ∧ s0.waitsOn 0 .prog (.queue 31) = false := by decide +kernel
theorem wit_trip_drain : (starving.set R.UNP_STATUS_DRAIN 2).drain = 2 := by decide +kernel
/-- The controller in a state of a run. -/
def probing (st : Nat) (l : List ProbeAns) : State :=
  { s0.set R.UNP_STATUS_STATE st with unpick := { sent := [35], probed := [2303], owed := l } }
theorem wit_trip_spent : (inTile 2303 fun x => { x with tripped := [(.prog, .och 31)] }).panelTrips 35 = true
    ∧ ({ spent := [35] } : Unpick).spent.contains 35 = true := by decide
theorem wit_report : ∀ k ∈ [0, 1, 2], (probing k []).unpick.sent.contains 35 = true ∧ (probing k []).unpState = k ∧ (probing k []).halts = false := by decide +kernel
theorem wit_probe : (probing 1 []).unpick.probed.contains 2303 = true := by decide
theorem wit_probe_reply : let s := { probing 3 [⟨2303, 0⟩] with unpick := { owed := [⟨2303, 0⟩] } }
    s.unpick.owed.contains ⟨2303, 0⟩ = true ∧ s.unpick.probed = [] ∧ s.unpick.owed.erase ⟨2303, 0⟩ = [] ∧ s.unpState = 3
    ∧ (probing 1 [⟨2303, 0⟩]).unpick.probed ≠ [] := by decide +kernel
theorem wit_decide : bit (2 ^ 32 : Nat) 32 = true ∧ bits (2 ^ 32 + 2 ^ 31) 0 32 ≠ 0 ∧ bit (2 ^ 33 + 2 ^ 32 : Nat) 33 = true
    ∧ bits (2 ^ 32 + 2 ^ 33) 0 32 = 0 ∧ (s0.set R.UNP_CFG_UNPICK_EN 1).flag R.UNP_CFG_UNPICK_EN = true
    ∧ (s0.set R.UNP_CFG_UNPICK_EN 0).flag R.UNP_CFG_UNPICK_EN = false := by decide +kernel
theorem wit_window : (probing 2 []).unpState = 2 ∧ (probing 2 []).safe = false := by decide +kernel
theorem wit_probe_late : (probing 3 []).unpick.probed ++ (probing 3 []).unpick.owed.map ProbeAns.tile = 2303 :: [] := by decide

/-! QueuesSpillAndRefill -/

/-- Tile 2303 with its queue 31 in spill mode or not. -/
def spilling (spill : Bool) (rsv : Nat) (toks : List Token) : State :=
  { (inTile 2303 fun x => { x with queues := [(31, { spill := spill, rsv := rsv, toks := toks })] }).set R.UNP_STATUS_STATE 4 with
    unpick := { spillCmds := [(2303, 31)] } }
theorem wit_spill_command : let s := spilling false 0 [dataToken false]
    s.safe = false ∧ s.unpick.spillCmds.contains (2303, 31) = true ∧ ((s.tile 2303).queue 31).spill = false ∧ s.unpState = 4
    ∧ s.unpick.spillCmds.erase (2303, 31) = [] ∧ s.unpick.again = false ∧ (s.set R.UNP_STATUS_STATE 0).unpState ≠ 4 := by decide +kernel
/-- Queue 31 of tile 2303 in spill mode takes the sewn data token. -/
def spillArriving : State := arriving.onTile 2303 fun x => x.setQueue 31 { spill := true, rsv := 16 }
theorem wit_spill_arrival : let k := dataToken false
    let s := spillArriving
    ((s.tile 2303).queue (hDq k.hdr)).spill = true
    ∧ s.named (fun m => m.arrived && hDest m.tok.hdr = 2303) k.hdr = .tok ⟨2303, .out, true, k, 0, none⟩
    ∧ (s.tile 2303).stuck k = false
    ∧ ({ s.tile 2303 with staging := List.replicate 8 (31, k) } : Tile).stuck k = true
    ∧ hdrOk k.hdr = true ∧ fieldBad k.hdr = false ∧ (s.tile 2303).liveRegs (hGen k.hdr) = some (s.tile 2303).regs
    ∧ (s.tile 2303).chanOk (s.tile 2303).regs (hDq k.hdr) k.hdr = true ∧ (s0.set R.UNP_SPILL_SIZE 0).spillRoom (2303, 31, 0) = false := by decide +kernel
theorem wit_spill_arrival_bad : let h := mkHdr ⟨2303, 31, 0, 0, 7, false, 2, 0, 0, 0⟩
    hdrOk 1#64 = false ∧ hdrOk h = true ∧ fieldBad h = true ∧ hBasted h = false ∧ hBasted 1#64 = false := by decide +kernel
theorem wit_spill_arrival_damaged : let k : Token := ⟨1#64, []⟩
    let s := { inTile 2303 fun x => { x with queues := [(0, { spill := true })] } with net := [⟨0, .out, true, k, 0, none⟩] }
    s.named (fun m => m.arrived && hDest m.tok.hdr = 0) 1#64 = .tok ⟨0, .out, true, k, 0, none⟩ := by decide +kernel
/-- The pair of spill tokens of a token of tile 2303. -/
def spillPair (k : Token) : List Token :=
  [⟨mkHdr ⟨0xC32, 31, 0, 0, kSpill, false, 3, 8, 35, 0⟩, leBytes 8 k.hdr.toNat⟩,
   ⟨mkHdr ⟨0xC32, 31, 0, 0, kSpill, false, 3, 1, 35, 0⟩, k.pay⟩]
theorem wit_spill_record : let k := dataToken false
    let s := { (s0.set R.UNP_SPILL_BASE 767).set R.UNP_SPILL_SIZE 1 with
      mem := { s0.mem with exts := [⟨0, 1000, 2⟩] }, unpick := { arrived := (spillPair k).map fun h => (2303, h) } }
    s.halts = false ∧ firstPair s.unpick.arrived = some (k, []) ∧ hDest k.hdr = 2303 ∧ hDq k.hdr = 31
    ∧ (s.recordAddr ⟨2303, 31, 0, []⟩).isSome = true ∧ ({ s with mem := { s.mem with exts := [] } }).recordAddr ⟨2303, 31, 0, []⟩ = none := by
  decide +kernel
theorem wit_spill_pair : ((0, dataToken false) : Nat × Token).1 = 0 ∧ (∀ c ∈ ([(1, dataToken false)] : List (Nat × Token)), c.1 ≠ 0) := by
  decide +kernel
theorem wit_refill : let c : Chain := ⟨2303, 31, 0, [(0, 0)]⟩
    let s := { spilling true 16 [] with unpick := { chains := [c] } }
    s.chain 2303 31 ((s.tile 2303).get T.TILE_STATUS_GEN) = some c ∧ s.refillable c = true ∧ s.halts = false
    ∧ (∀ d ∈ s.unpick.chains, s.refillable d = true → c.oldest ≤ d.oldest)
    ∧ (s.load 0 128 false .ok).2 = none ∧ (s.load 0 128 false .uncorrectable).2 ≠ none := by decide +kernel
theorem wit_refill_token : let s := inTile 2303 fun x => { x with spillIn := spillPair (dataToken false) }
    (refillPair 31 (s.tile 2303).spillIn).isSome = true := by decide +kernel
theorem wit_spill_exit : (spilling true 16 []).spillOver 2303 31 = true := by decide +kernel

/-! DrainsQuiesceFlushAndResume -/

/-- A drain command of a mode, or another command, taken up by its unit. -/
def unitCmd (op : Nat) (params : List Byte) : Cmd := ⟨7, 3, op, 0, false, false, params, true, false, false, false, []⟩
/-- The module with such a command, and a drain state. -/
def draining (d op : Nat) (params : List Byte) : State :=
  { s0.set R.UNP_STATUS_DRAIN d with tape := { s0.tape with cmds := [unitCmd op params] } }
theorem wit_drain : ∀ d ∈ [0, 1, 2, 3], (draining d Op.DRAIN [0]).drain = d
    ∧ (draining d Op.DRAIN [0]).cmdFor 7 Op.DRAIN = some (unitCmd Op.DRAIN [0]) ∧ (unitCmd Op.DRAIN [0]).p 0 1 = 0
    ∧ (unitCmd Op.DRAIN [1]).p 0 1 = 1 ∧ (draining d Op.DRAIN [1]).cmdFor 7 Op.DRAIN = some (unitCmd Op.DRAIN [1])
    ∧ (draining d Op.RESUME []).cmdFor 7 Op.RESUME = some (unitCmd Op.RESUME []) ∧ (draining d Op.DRAIN [0]).safe = false ∧ (draining d Op.DRAIN [0]).halts = false
    ∧ (draining d Op.DRAIN [0]).stepOpen = false := by decide +kernel
theorem wit_quiescent : let s := { draining 1 Op.DRAIN [0] with unpick := { stopped := true } }
    s.quiescent = true ∧ ({ s with net := [⟨0, .out, false, dataToken false, 0, none⟩] }).quiescent = false := by decide +kernel
theorem wit_flush_step : (inStep.stepOpen = true) ∧ inStep.verdictSent = false := by decide +kernel
theorem wit_resumed : let x : Tile := { base := 2047, count := 1 }
    x.get T.TILE_STATUS_STATE = 0 ∧ 0 < x.count ∧ x.base < 2048 ∧ (({} : Tile).set T.TILE_STATUS_STATE 4).get T.TILE_STATUS_STATE ≠ 0 := by decide +kernel

/-! MemoryReadsWritesAndAtomics -/

/-- A memory whose first granule is poisoned. -/
def badGranule : State := { s0 with mem := { s0.mem with poison := [0] } }
theorem wit_mem : s0.takes 0 8 = true ∧ s0.behind (s0.orderKey 0) = false ∧ s0.inHostBias 0 = false ∧ s0.reach 0 8 = .ok
    ∧ s0.reach (lnEnd - 8) 8 ≠ .ok ∧ s0.takes (lnEnd - 8) 8 = true ∧ badGranule.mem.poison.contains (badGranule.memUnit 0) = true
    ∧ s0.mem.poison.contains (s0.memUnit 0) = false ∧ s0.takes 0 248 = true ∧ s0.wholeGranule 0 248 = true
    ∧ s0.mem.data.wf = true ∧ s0.mem.errs = [] := by decide +kernel
theorem wit_mem_bytes : (∀ i ∈ List.range 8, ∀ j ∈ List.range 8, s0.memKey (244 + i) = s0.memKey (244 + j) → i = j)
    ∧ ∀ i ∈ List.range 8, (s0.memKey (244 + i)).isSome = true := by decide +kernel
theorem wit_mem_behind : ({ s0 with mem := { s0.mem with heldReqs := [{ mc := 0, gran := 0, tag := some 1, req := .atomTicketDeadline 0 0, seed := (0, 0) }] } }).behind (s0.orderKey 0) = true
    ∧ ({ s0 with cxl := { s0.cxl with hostBias := [0] } }).inHostBias 0 = true := by decide +kernel
theorem wit_mem_class_w : let s := { s0 with mem := { s0.mem with exts := [⟨0, 1, 0⟩] } }
    s.granCls (s.memUnit 0) = 0 ∧ writesW 0 = false ∧ s.reach 0 8 = .ok := by decide +kernel
theorem wit_mem_fate : let s := { s0 with fab := { s0.fab with verdicts := [(0xC00, 0, 7, true), (0xC00, 0, 8, false)] } }
    (s.fate 0xC00 (fun q => !(q = 28 || q = 30)) (some 7)).2 = .sewn ∧ (s.fate 0xC00 (fun q => !(q = 28 || q = 30)) (some 8)).2 = .gone
    ∧ (s.fate 0xC00 (fun q => !(q = 28 || q = 30)) (some 9)).2 = .held 9 := by decide +kernel
/-- An atomic of one element at address 0. -/
def oneAtom (op set seq : Nat) : AtomReq := ⟨0, op, 0, set, 1, seq, 0, [0x3F800000], false, (0, 0)⟩
theorem wit_atom : s0.atomRefusal (oneAtom atomF32 0 0) = none ∧ s0.atomRefusal (oneAtom atomF32 16 0) = some Code.MEM_ATOM_RANGE
    ∧ s0.atomRefusal { oneAtom atomF32 0 0 with illegal := true } = some Code.MEM_ATOM_RANGE
    ∧ s0.atomRefusal (oneAtom atomPair 1 5) = none ∧ serialLater 16 5 (s0.ticket 0 1) = true
    ∧ serialLater 16 0xFFFF (s0.ticket 0 1) = false ∧ s0.ticket (s0.atomMc (oneAtom 3 1 0)) 1 = 0
    ∧ (s0.ticketed 0).length < 32 ∧ s0.mem.heldAtoms = [] ∧ s0.mem.atomWait = [] := by decide +kernel
theorem wit_atom_ticket : ({ s0 with mem := { s0.mem with heldAtoms := [oneAtom atomF32 1 5] } }).ticketed 0 = [oneAtom atomF32 1 5] := by
  decide +kernel
theorem wit_atom_full : 32 ≤ (({ s0 with mem := { s0.mem with heldAtoms := List.replicate 32 (oneAtom atomF32 1 5) } }).ticketed 0).length := by
  decide +kernel

/-! ScrubbingRemappingClassesAndMoves -/

theorem wit_scrub : (s0.set (R.MC_CFG_SCRUB_EN 23) 1).flag (R.MC_CFG_SCRUB_EN (95 / 4)) = true
    ∧ (s0.set (R.MC_STATUS_CH_OK 23) 8).chOk 95 = true := by decide +kernel
theorem wit_remap : let r : RowCount := ⟨95, 15, 7, 255⟩
    let s := { (s0.set (R.MC_CFG_REMAP_EN 23) 1).set (R.MC_STATUS_REMAP_FREE 23) 1 with mem := { s0.mem with rows := [r] } }
    s.rowOf? 95 15 7 = some r ∧ s.flag (R.MC_CFG_REMAP_EN (95 / 4)) = true ∧ s.get (R.MC_CFG_CE_TH (95 / 4)) ≤ 255
    ∧ s.get (R.MC_STATUS_REMAP_FREE (95 / 4)) = 1 ∧ (s.set (R.MC_STATUS_REMAP_FREE 23) 0).get (R.MC_STATUS_REMAP_FREE 23) = 0
    ∧ s.th.repairs.length < 4092 := by decide +kernel
/-- A class command of two units at 0, and MOVE commands, taken up. -/
def classCmd (n : Nat) : Cmd := unitCmd Op.CLASS (leBytes 8 0 ++ leBytes 4 n ++ leBytes 1 1)
def moveCmd (n : Nat) : Cmd := unitCmd Op.MOVE (leBytes 8 0 ++ leBytes 8 4096 ++ leBytes 8 n)
/-- The module with a command, and the spill area as reset leaves it. -/
def withOne (c : Cmd) : State := { s0 with tape := { s0.tape with cmds := [c] } }
theorem wit_class : (withOne (classCmd 2)).cmdFor 7 Op.CLASS = some (classCmd 2)
    ∧ ((withOne (classCmd 2)).takeCmd (classCmd 2)).classRefusal 0 2 1 = none
    ∧ (classCmd 2).p 0 8 = 0 ∧ (classCmd 2).p 8 4 = 2 ∧ (classCmd 2).p 12 1 = 1
    ∧ (withOne (classCmd 0)).classRefusal 0 0 1 = some Code.MEM_CLASS_ZERO := by decide +kernel
theorem wit_move : (withOne (moveCmd 8)).cmdFor 7 Op.MOVE = some (moveCmd 8) ∧ (moveCmd 8).p 16 8 = 8 ∧ (moveCmd 0).p 16 8 = 0
    ∧ ((withOne (moveCmd 8)).takeCmd (moveCmd 8)).moveBad 0 4096 8 = false ∧ s0.moveBad 0 4 8 = true ∧ s0.mem.move = none := by decide +kernel
theorem wit_check : worseOf .corrected (kvGet .ok s0.mem.errs 0) = .corrected ∧ worseOf .uncorrectable (kvGet .ok s0.mem.errs 0) = .uncorrectable
    ∧ worseOf .ok (kvGet .ok s0.mem.errs 0) = .ok ∧ s0.placeOf 0 = .channel ∧ s0.granCls 0 = 2
    ∧ ({ s0 with mem := { s0.mem with exts := [⟨0, 1, 0⟩] } }).granCls 0 ≠ 2
    ∧ ({ s0 with mem := { s0.mem with lines := [⟨0, 3, 0, 0, false⟩] } }).placeOf 0 = .lining 3
    ∧ ({ s0 with mem := { s0.mem with remaps := [⟨0, 0, 0, 1⟩] } }).placeOf 0 = .remap := by decide +kernel
theorem wit_scrub_off : (s0.set (R.MC_CFG_SCRUB_EN 23) 0).flag (R.MC_CFG_SCRUB_EN (95 / 4)) = false := by decide +kernel
/-- A MOVE of 8 bytes at its end. -/
def moveJob (a b : Nat) (touched : Bool) : MoveJob := ⟨a, b, 8, 7, 3, List.replicate 8 1, touched⟩
theorem wit_move_done : s0.moveReach 0 8 = 8 ∧ (s0.load 0 8 true .ok).2 = none
    ∧ ((s0.load 0 8 true .ok).1.putBytes 4096 (List.replicate 8 1)).2 = none
    ∧ (((s0.load 0 8 true .ok).1.putBytes 4096 (List.replicate 8 1)).1.store 0 (List.replicate 8 0) true).2 = none := by
  decide +kernel
theorem wit_move_ends : (badGranule.load 0 8 true .ok).2 ≠ none ∧ (badGranule.putBytes 0 (List.replicate 8 1)).2 ≠ none
    ∧ s0.moveReach spadBase 8 = 0 ∧ (moveJob hostBase 0 false).src = hostBase ∧ (moveJob 0 0 true).touched = true
    ∧ s0.hostPhys hostBase + 8 ≤ 2 ^ 64 := by decide +kernel

/-! LiningGroupsChangeMode -/

/-- Group 3 of controller 23 changing mode. -/
def changing (old new : Nat) (drained : Bool) : State :=
  { s0.set (R.MC_STATUS_LN_BUSY 23) 8 with mem := { s0.mem with lnChg := [⟨23, 3, old, new, drained, false⟩] } }
theorem wit_lining : ∀ p ∈ [(2, 0), (1, 0), (1, 2), (2, 1), (0, 1)], ∀ d ∈ [true, false],
    (changing p.1 p.2 d).lnChange 23 3 = some ⟨23, 3, p.1, p.2, d, false⟩ := by decide
/-- A waiting read in group 3 of controller 23. -/
def waitingRead : HeldReq :=
  ⟨23, (lpEnd + 23 * 0x400000 + 3 * 0x100000) / 256, none, .memRead 5 0 8 false ⟨0, .ok⟩, (0, 0), true⟩
theorem wit_lining_held : waitingRead.before 23 3 = true
    ∧ ({ oneAtom 0 1 5 with addr := lpEnd + 23 * 0x400000 + 3 * 0x100000 } : AtomReq).within 23 3 = true := by
  decide +kernel
theorem wit_lining_busy : (changing 0 1 false).lnBusy 23 3 = true ∧ (changing 0 1 false).get (R.MC_STATUS_LN_BUSY 23) < 16 := by decide +kernel

/-! BobbinControlWords -/

/-- Bobbin 1 of tile 2303 at a word. -/
def bobAt (w : Nat) (v : Bob) : State :=
  inTile 2303 fun x => { x with bob1 := { v with run := true }, bobWords := [(0, BitVec.ofNat 64 w)], bobCount := 1 }
theorem wit_bob : ∀ op ∈ [0x01, 0x02, 0x03, 0x04, 0x05, 0x06, 0x08, 0x09, 0x0A, 0x0B, 0x0C, 0x0D, 0x0E, 0x0F, 0x00],
    (bobAt (op * 2 ^ 58) {}).bobRuns 2303 1 op = true := by decide +kernel
theorem wit_bob_loop : let l : BobLoop := ⟨1, 2, 3, 1, -1, 10, 20⟩
    ((bobAt 0 { loops := [l] }).tile 2303).bob 1 = { run := true, loops := [l] } ∧ 1 < l.left
    ∧ ([l] : List BobLoop)[bits (3 * 2 ^ 58) 55 3]? = some l ∧ bits (2 ^ 39 : Nat) 39 16 = 1 := by decide +kernel

/-! BobbinTransfersAndRings -/

theorem wit_bob_transfer : bits (4096 * 2 ^ 32 : Nat) 32 13 = 4096 ∧ ({} : Tile).plainBad 4032 4096 = false
    ∧ ({} : Tile).plainBad 4095 4096 = true := by decide +kernel
theorem wit_bob_ring : let x : Tile := ((({} : Tile).set (T.RING_CFG_SLOTS 0) 4).set (T.RING_CFG_SLOT_G 0) 64).set (T.RING_STAT_TAIL 0) 1
    x.bring 1 = 0 ∧ 0 + ceilDiv 4096 64 ≤ x.get (T.RING_CFG_SLOT_G 0)
    ∧ (ringOcc x.regs 0 + ringDiff 1 (x.get (T.RING_STAT_TAIL 0))) % 0x10000 < x.get (T.RING_CFG_SLOTS 0)
    ∧ ¬ (ringOcc x.regs 0 + ringDiff 4 (x.get (T.RING_STAT_TAIL 0))) % 0x10000 < x.get (T.RING_CFG_SLOTS 0)
    ∧ ringDiff 0 (x.get (T.RING_STAT_HEAD 0)) < ringOcc x.regs 0 ∧ ¬ ringDiff 1 (x.get (T.RING_STAT_HEAD 0)) < ringOcc x.regs 0
    ∧ ringOcc x.regs 0 = 1 ∧ x.bobOwns 0 true = false := by decide +kernel
theorem wit_bob_owns : let x : Tile := (((({} : Tile).set (T.RING_CFG_EN 3) 1).set (T.RING_CFG_PROD 3) 2).set (T.RING_CFG_CONS 3) 1
      |>.set (T.BOB_CFG_RING 0) 3).set (T.BOB_CFG_RING 1) 3 |>.set (T.BOB_CFG_RUSE 0) 1 |>.set (T.BOB_CFG_RUSE 1) 1
    x.bobOwns 1 true = true ∧ x.bobOwns 0 false = true ∧ x.bobOwns 0 true = false ∧ x.bobOwns 1 false = false
    ∧ ({ x with filling := [2] } : Tile).meetsFill 0x10000 64 = true ∧ x.meetsFill 0x10000 64 = false := by decide +kernel
theorem wit_bob_emit : ({ ochs := [(31, { credits := 1, bucket := 1 })] } : Tile).canSend 31 = true
    ∧ ({} : Tile).canSend 31 = false := by decide +kernel
theorem wit_bob_carry : let s := { s0 with loader := { curRegions := [⟨0, 4096, 2, 3⟩] } }
    segAt [⟨0, 0, 512, []⟩] 256 = some (⟨0, 0, 512, []⟩, 256) ∧ segAt [⟨0, 0, 512, []⟩] 512 = none
    ∧ ({} : Bob).freeIdx = some 0 ∧ s.idled = false ∧ s.reqUnit 256 = some (240, 0xC08) ∧ s.reqUnit 0xC006000000 = none ∧ s.permitted 0 0 256 240 = true
    ∧ s.permitted 0 0 4096 240 = false
    ∧ ({ reqs := (List.range 8).map fun i => ⟨i, false, 0, 0, 0, 0, none, [0], 0⟩ } : Bob).freeIdx = none := by decide +kernel

/-! BobbinRequestsAreServedAndAnswered -/

theorem wit_serve : let q : BReq := ⟨0, false, false, 200, 0, 4607, 15, 7⟩
    s0.behind (s0.orderKey q.addr) = false ∧ s0.inHostBias q.addr = false ∧ s0.reach q.addr q.bytes = .ok
    ∧ s0.mem.poison.contains (s0.memUnit q.addr) = false ∧ s0.granCls (s0.memUnit q.addr) ≠ 0 ∧ s0.mem.errs = []
    ∧ ({ s0 with cxl := { s0.cxl with hostBias := [0] } }).inHostBias 200 = true
    ∧ ({ s0 with mem := { s0.mem with heldReqs := [⟨0, s0.orderKey 200, none, .flushDone, (0, 0), true⟩] } }).behind (s0.orderKey 200) = true := by decide +kernel
theorem wit_host_link : ({ s0 with cxl := { s0.cxl with linkUp := true } }).cxl.linkUp = true ∧ s0.cxl.linkUp = false := by decide
/-- Bobbin 1 of tile 2303 with a request of two tokens outstanding. -/
def bobWaits : State := bobAt 0 { reqs := [⟨7, false, 0xC00, 0, 128, 0, none, [0, 1], 0⟩], quar := [(15, [0xC00])] }
theorem wit_response : let x := bobWaits.tile 2303
    (x.bob 1).run = true ∧ x.get (T.BOB_STAT_EPOCH 1) = 0 ∧ ((x.bob 1).reqs.find? fun q => q.ridx = 6) = none
    ∧ ((x.bob 1).reqs.find? fun q => q.ridx = 7) = some ⟨7, false, 0xC00, 0, 128, 0, none, [0, 1], 0⟩
    ∧ ([0, 1] : List Nat).contains 1 = true ∧ ([0, 1] : List Nat).erase 1 ≠ [] ∧ ([1] : List Nat).erase 1 = []
    ∧ ((x.bob 1).quar.any fun p => p.1 = 15) = true ∧ ((x.bob 1).quar.any fun p => p.1 = 14) = false := by decide +kernel

/-! StepsOpenCloseAndMissBounds -/

/-- A `STEP_OPEN` of step 5 with `M` micro-batches of one length, taken up. -/
def openCmd (m : Nat) : Cmd := unitCmd Op.STEP_OPEN (leBytes 8 5 ++ leBytes 2 m ++ leBytes 2 0 ++ leBytes 4 0 ++ leBytes 8 0xFFFFFFFFFFFFFFFF)
theorem wit_step_open : (withOne (openCmd 2)).cmdFor 7 Op.STEP_OPEN = some (openCmd 2) ∧ s0.stepDeferred = false ∧ s0.stepOpen = false
    ∧ (openCmd 2).p 0 8 % 2 ^ 48 = 5 ∧ s0.afterLast 5 = true ∧ s0.gtCount = 0 ∧ (openCmd 2).p 8 2 = 2 ∧ (openCmd 0).p 8 2 = 0
    ∧ (openCmd 2).p 0x10 8 = 0xFFFFFFFFFFFFFFFF ∧ s0.colls = [] ∧ s0.mem.heldAtoms = [] ∧ s0.seam.future = []
    ∧ (s0.set R.UNP_STATUS_DRAIN 1).stepDeferred = true ∧ inStep.stepDeferred = false ∧ inStep.stepOpen = true
    ∧ (s0.set R.PRS_LAST_LAST 5).afterLast 5 = false := by decide +kernel
theorem wit_step_resume : let s := { withOne (openCmd 2) with press := { s0.press with deferred := some (7, 3) } }
    s.press.deferred = some (7, (openCmd 2).epoch) ∧ s.stepDeferred = false ∧ s.cmdFor 7 Op.STEP_OPEN = some (openCmd 2) := by decide +kernel
/-- A group table of one empty record at data address 0, of class S, and one of class W. -/
def oneGroup (cls : Nat) : State :=
  { s0.set R.PRS_CFG_GT_COUNT 1 with mem := { s0.mem with exts := [⟨0, 1, cls⟩] } }
set_option maxRecDepth 100000 in
theorem wit_step_table : (oneGroup 1).gtCount = 1 ∧ (oneGroup 1).rangeClass 1 ((oneGroup 1).grpAddr 0) 256 = true
    ∧ (oneGroup 0).rangeClass 1 ((oneGroup 0).grpAddr 0) 256 = false
    ∧ ((oneGroup 1).engCheck [(0, 256)]).2 = true ∧ ((oneGroup 1).engCheck [(0, 256)]).1.tableBad = none
    ∧ (let s := { oneGroup 1 with mem := { (oneGroup 1).mem with data := [(0, 9)] } }; s.tableBad = some (0, 0))
    ∧ (let s := { oneGroup 1 with mem := { (oneGroup 1).mem with poison := [0] } }
       (s.engCheck [(0, 256)]).2 = false) := by decide +kernel
/-- A step open over a table of one group with two closers, its checksum taken. -/
def closable : State :=
  let s := (oneGroup 1).set R.PRS_STATUS_PHASE 1
  let s := { s with mem := { s.mem with data := [(7, 2), (8, 64)] } }
  { s with press := { s.press with crcs := [(s.grp 0).watch] } }
set_option maxRecDepth 100000 in
theorem wit_close_token : closable.stepOpen = true ∧ bits (0 : Nat) 12 4 = 0 ∧ 0 < closable.gtCount ∧ closable.stepNo = 0
    ∧ closable.grpChanged 0 = false ∧ (closable.grp 0).closers = 2 ∧ (closable.grp 0).closes = true
    ∧ ({ closable with press := { closable.press with closeCnt := [(0, 2)] } }).grpChanged 0 = false
    ∧ ({ closable with press := { closable.press with crcs := [1] } }).grpChanged 0 = true := by decide +kernel
set_option maxRecDepth 100000 in
theorem wit_close_basted : (s0.fate 0xC17 (fun d => d = 30) (some 5)).2 = .held 5
    ∧ (({ s0 with fab := { s0.fab with verdicts := [(0xC17, 30, 5, false)] } } : State).fate 0xC17 (fun d => d = 30) (some 5)).2 = .gone
    ∧ (({ s0 with fab := { s0.fab with verdicts := [(0xC17, 30, 5, true)] } } : State).fate 0xC17 (fun d => d = 30) (some 5)).2 = .sewn := by
  decide +kernel
set_option maxRecDepth 100000 in
theorem wit_close_end : let s := { closable with press := { closable.press with closing := [0] } }
    s.press.closing.contains 0 = true ∧ (s.engCheck (s.closeReads (s.grp 0))).2 = true
    ∧ (let t := { s with mem := { s.mem with poison := [0] } }; (t.engCheck (t.closeReads (t.grp 0))).2 = false) := by decide +kernel
set_option maxRecDepth 100000 in
theorem wit_step_bounds : (List.range closable.gtCount).find? closable.recBad = none
    ∧ (List.range closable.gtCount).find? ({ closable with press := { closable.press with crcs := [1] } } : State).recBad = some 0
    ∧ closable.phase = 1 ∧ closable.allClosed = false ∧ (s0.set R.PRS_STATUS_PHASE 3).phase = 3
    ∧ (s0.set R.PRS_STATUS_PHASE 5).phase = 5 ∧ s0.drain ≠ 2 ∧ s0.flag R.FLT_CFG_STOP_ON_STEP = false := by decide +kernel

/-! NormVerdictSweepAndAudit -/

theorem wit_norm : let s := s0.set R.PRS_STATUS_PHASE 1
    s.allClosed = true ∧ s.allRed = true ∧ s.gtCount = 0 ∧ (s.engCheck s.normReads).2 = true
    ∧ s.normInst s.stepNo = none := by decide +kernel
set_option maxRecDepth 100000 in
theorem wit_norm_changed : let s := { closable with press := { closable.press with crcs := [1] } }
    (List.range s.gtCount).find? s.recBad = some 0 ∧ s.phase = 1 := by decide +kernel
/-- A group of 64 owned elements under SGD of class S: arrays in the first extent, the checksum taken, in the sweep. -/
def sweepable : State :=
  let s := (oneGroup 1).set R.PRS_STATUS_PHASE 4
  let cells : List (Nat × Byte) := [(0, 1), (7, 1), (8, 64), (24, 64), (33, 16), (41, 32), (57, 48), (65, 64), (89, 80)]
  let s := { s with mem := { s.mem with data := cells } }
  { s with press := { s.press with crcs := [(s.grp 0).watch], red := [(0, 1)], k := 0x3F800000 } }
set_option maxRecDepth 100000 in
theorem wit_sweep : (sweepable.grp 0).sweeps = true ∧ (List.range sweepable.gtCount).find? sweepable.recBad = none
    ∧ ((List.range 256).all fun k => (sweepable.memKey (4096 + k)).isSome) = true
    ∧ sweepable.pressStopped = false ∧ sweepable.mem.errs = [] ∧ sweepable.mem.poison = []
    ∧ (sweepable.grp 0).ownLines = [0] ∧ sweepable.nextSweep (sweepable.mcOf 4096) = some (0, 0)
    ∧ (sweepable.engRead ((sweepable.grp 0).sweepReads 0) .ok).2 = true
    ∧ (let s := { sweepable with press := { sweepable.press with crcs := [1] } }
       (List.range s.gtCount).find? s.recBad = some 0) := by decide +kernel
set_option maxRecDepth 100000 in
theorem wit_audit : let s := s0.set R.PRS_STATUS_PHASE 5
    s.phase = 5 ∧ s.press.audited.contains 23 = false ∧ (s.auditLines 23) = [] ∧ s.pressStopped = false ∧ s.gtCount = 0 := by
  decide +kernel

/-! SeamLinksComeUpHoldAndGoDown -/

/-- Port 7 with its link in a state. -/
def linkAt (k : Nat) : State := s0.set (R.SP_STATUS_LINK 7) k
theorem wit_link : ∀ k ∈ [1, 2, 3, 4, 5], (linkAt k).link 7 = k ∧ (linkAt k).safe = false ∧ ((linkAt k).port 7).pause = 0 := by
  decide +kernel
theorem wit_link_safe : let s := { linkAt 5 with flt := { s0.flt with safe := true } }
    s.safe = true ∧ s.link 7 = 5 := by decide +kernel
/-- A message of this version to module 0 with its check word. -/
def sm (ty kid : Nat) (body : List Byte) : SMsg :=
  smSigned ⟨ty, if ty = 1 then 0x10 else 0, 9, 0, 0, 0, 128, kid, 5, 5, 0, 0, 0, body, 0, 0⟩
set_option maxRecDepth 100000 in
theorem wit_negotiate : let m := sm 1 0 (leBytes 2 9 ++ [3, 1] ++ leBytes 4 0 ++ myVminor)
    smCrcOk m = true ∧ (linkAt 2).msgBad 7 m = false ∧ commonMajor (slice m.body 8 16) myVminor = some 1
    ∧ field m.body 4 4 = (linkAt 2).get R.SEAM_GCFG_INSTALL ∧ field m.body 0 2 ≠ (linkAt 2).modId
    ∧ bit (field m.body 3 1) 2 = (linkAt 2).flag (R.SP_CFG_PFC_EN 7)
    ∧ commonMajor (List.replicate 16 0xFF) myVminor = none ∧ (linkAt 3).msgBad 7 m = false ∧ (linkAt 3).msgBad 7 { m with ver := 0x11 } = true
    ∧ smCrcOk { m with mcrc := m.mcrc + 1 } = false := by decide +kernel
set_option maxRecDepth 100000 in
theorem wit_hold : ∀ k ∈ [3, 4], ((linkAt k).receive 7 (sm 3 0 [1, 0, 9, 0])).2 = true := by decide +kernel

/-! SeamFramesAreDeliveredInOrderOnce -/

set_option maxRecDepth 100000 in
theorem wit_receive : let s := linkAt 3
    let m := sm 0x12 7 []
    ((s.bump (R.FRAMES_RX 7) 1).takeLack 7 m).port 7 = {} ∧ smCrcOk m = true ∧ s.msgBad 7 m = false ∧ m.dst = s.modId
    ∧ (s.receive 7 m).2 = true ∧ serialLater 24 1 0 = true ∧ serialLater 24 0xFFFFFF 0 = false
    ∧ smCrcOk { m with mcrc := 0 } = false ∧ s.msgBad 7 (sm 0x13 0 []) = true ∧ knownType 0x13 = false
    ∧ smCrcOk (sm 0x13 0 []) = true ∧ ({ m with dst := 5 } : SMsg).dst ≠ s.modId := by decide +kernel
set_option maxRecDepth 100000 in
theorem wit_ack : ((linkAt 3).receive 7 (sm 2 1 [])).2 = true ∧ (sm 2 0 []).kid ≠ 1 ∧ (linkAt 3).get (R.SP_DL_RTX_MAX 7) ≠ 0 := by
  decide +kernel
theorem wit_lack : let s := (linkAt 3).setPort 7 { replay := [sm 0x12 0 [], sm 0x12 1 []], txSeq := 2, free := 128 }
    ((s.port 7).replay.take (s.port 7).free).length = 2 ∧ (s.port 7).replay ≠ [] ∧ (s.port 7).toSend = [] ∧ diff24 2 (s.port 7).lack = 2 ∧ (s.port 7).rtx < s.get (R.SP_DL_RTX_MAX 7) := by
  decide +kernel
theorem wit_route : routeFor [⟨7, 0, 16383, 7, 0⟩] 5 = some ⟨7, 0, 16383, 7, 0⟩ ∧ (s0.seamTabOf 7).routes = [] := by decide
theorem wit_other : (linkAt 3).macAddr 7 (linkAt 3).modId ≠ [] ∧ ((linkAt 3).port 7).ackDue = none := by decide +kernel
theorem wit_pfc : ((linkAt 3).set (R.SP_CFG_PFC_EN 7) 1).flag (R.SP_CFG_PFC_EN 7) = true := by decide +kernel

/-! CollectiveMessagesReduceDecideAndReturn -/

/-- A live collective instance of a kind for step 5, with groups. -/
def live (kind : Nat) (gs : List RedGroup) : Inst :=
  { rc := ⟨3, kind, 2, 1, 0, 0, 0, 0, 0, 0, 0, 0, 0⟩, routes := [], step := 5, gen := 0, groups := gs }
/-- Port 7 up, with such an instance. -/
def withInst (i : Inst) : State := { linkAt 3 with seam := { s0.seam with insts := [i] } }
theorem wit_collective : live 1 [] ∈ (withInst (live 1 [])).seam.insts ∧ (live 1 []).rc.kind = 1 ∧ (live 2 []).rc.kind = 2
    ∧ (withInst (live 1 [])).inst (live 1 []).rc.id 5 = some (live 1 []) := by decide +kernel
set_option maxRecDepth 100000 in
theorem wit_collective_in : let id := (live 1 []).rc.id
    ∀ m ∈ [sm 0x23 id (List.replicate 32 0), sm 0x28 id (List.replicate 16 0), sm 0x2A id (List.replicate 4 0),
        sm 0x29 id ([0, 0, 1, 0] ++ List.replicate 12 0), sm 0x20 id (List.replicate 32 0)],
      ((withInst (live 1 [])).receive 7 m).2 = true ∧ (withInst (live 1 [])).instFor m = some (live 1 [])
      ∧ s0.instFor m = none ∧ s0.isFuture m = true ∧ s0.gatherFor m true = none := by decide +kernel
set_option maxRecDepth 100000 in
theorem wit_collective_lines : ∀ ty ∈ [0x21, 0x22], ((withInst (live 1 [])).receive 7 (sm ty 3 (List.replicate 256 0))).2 = true := by
  decide +kernel
theorem wit_stale : (s0.set R.PRS_LAST_LAST 6).isFuture (sm 0x28 3 []) = false := by decide +kernel
/-- A group of an instance. -/
def redGroup (t : Bool) : RedGroup := { group := 9, record := [], timer := t, own := .undecided }
set_option maxRecDepth 100000 in
theorem wit_asked : let j : Inst := { live 1 [] with committed := true, step := 4, ranges := [{ group := 0, owner := 5, asked := true }] }
    let s : State := { linkAt 3 with seam := { s0.seam with insts := [j, live 1 []] } }
    let m : SMsg := { sm 0x22 (live 1 []).rc.id [] with src := 5 }
    m.kep = m.kstep % 256 ∧ s.inst m.kid m.kstep = some (live 1 []) ∧ (s.seam.insts.find? fun j => j.awaits m) = some j
    ∧ ((live 1 []).range m.group m.src).checked = 0 := by decide +kernel
theorem wit_timer : ((withInst (live 1 [redGroup true])).seam.insts.find? fun i => (i.rg 9).any RedGroup.timer) = some (live 1 [redGroup true])
    ∧ (live 1 [redGroup true]).rg 9 = some (redGroup true) ∧ (redGroup true).own = .undecided := by decide
theorem wit_ret_deadline : let i : Inst := { live 1 [] with committed := true }
    ((withInst i).seam.insts.find? fun i => i.rc.kind = 1 && i.committed) = some i := by decide
theorem wit_red_deadline : let rg : RedGroup := { redGroup false with record := List.replicate 24 0 ++ leBytes 8 64 }
    let i : Inst := { live 1 [rg] with step := 0 }
    let s : State := { inStep with seam := { s0.seam with insts := [i] } }
    decide (rg.ended < rg.gr.ownLines.length) = true ∧ s.stepOpen = true ∧ s.allClosed = true ∧ s.gtCount = 0
    ∧ (s.seam.insts.find? fun i => i.rc.kind = 1 && i.step = s.stepNo
      && i.groups.any fun rg => decide (rg.ended < rg.gr.ownLines.length)) = some i := by decide +kernel
theorem wit_abandoned : let i : Inst := { live 2 [] with step := 0, sentVerdict := true }
    ({ inStep with seam := { s0.seam with insts := [i] } }).normInst inStep.stepNo = some i := by decide +kernel
theorem wit_verdict_message : let w : Verd := ⟨0, 1, 0, 0x3F800000⟩
    let i : Inst := { live 2 [] with verdicts := [w, { w with who := 9 }], sentVerdict := true }
    (∀ x ∈ [{ w with who := 9 }], (x.v, x.n2, x.k) = (w.v, w.n2, w.k)) ∧ i.rc.p ≤ i.verdicts.length
    ∧ (({ w with v := 3 } : Verd).v, w.n2, w.k) ≠ (w.v, w.n2, w.k) := by decide

/-! StreamsPackCreditAndReinject -/

/-- An outbound stream of slot 2 at port 7, and an inbound one of slot 3 that is in force. -/
def outStream (l : List Token) : OutStream := { rc := ⟨7, 2, 9, 3⟩, gen := 0, packed := l, credits := 14 }
def inStream (l : List Token) : InStream :=
  { rc := ⟨7, 3, 9, 2303, 31, 2, 16, 1, 2, 0, 0⟩, gen := 0, queue := l, credits := 1, bucket := 1, owed := 15, inForce := true }
/-- Port 7 up with both. -/
def streaming (l : List Token) : State := { linkAt 3 with seam := { s0.seam with outs := [outStream l], ins := [inStream l] } }
theorem wit_stream_out : let h := mkHdr ⟨0xC27, 0, 0, 0, kData, false, 1, 1, 0, 2⟩
    let m := mkHdr ⟨0xC27, 0, 0, 0, kHem, false, 1, 0, 0, 0⟩
    hDest h = 0xC20 + 7 ∧ hDq h = 0 ∧ hKind h = kData ∧ hKind m = kHem
    ∧ ((streaming []).seam.outs.find? fun o => o.rc.port = 7 && o.rc.slot = hSlot h && o.gen = hGen h && !o.hem) = some (outStream [])
    ∧ (streaming []).streamsHemmed 7 (hGen m) = true
    ∧ ((streaming []).seam.outs.filter fun o => o.rc.port = 7 && o.gen = hGen m && !o.hem) = [outStream []] := by decide +kernel
theorem wit_stream_fate : ∀ b, ((streaming []).fate 0xC27 (fun d => d = 0) (some 5)).2 = .held 5
    ∧ (({ streaming [] with fab := { s0.fab with verdicts := [(0xC27, 0, 5, b)] } } : State).fate 0xC27 (fun d => d = 0) (some 5)).2
      = (if b then .sewn else .gone) := by decide +kernel
theorem wit_stream_hem_in : (streaming []).chanStopped 0xC27 3 = false ∧ (inStream []).rc.port = 7 ∧ (inStream []).queue = []
    ∧ 0 < (inStream []).credits ∧ 0 < (inStream []).bucket := by decide +kernel
theorem wit_stream_timeout : let s := streaming [dataToken false]
    (s.seam.outs.find? fun o => o.rc.port = 7 && o.rc.slot = 2 && !o.ready.isEmpty) = some (outStream [dataToken false])
    ∧ (s.seam.ins.find? fun i => i.rc.port = 7 && i.rc.slot = 3 && decide (0 < i.owed)) = some (inStream [dataToken false])
    ∧ (s.takeKept 7 3 0).seam.ins.find? (fun i => i.rc.port = 7 && i.rc.slot = 3 && i.inForce) = some (inStream [dataToken false])
    ∧ s.drain ≠ 2 := by decide +kernel
set_option maxRecDepth 100000 in
theorem wit_stream_in : let s := streaming []
    (s.receive 7 (sm 0x10 3 (List.replicate 72 0))).2 = true ∧ (s.receive 7 (sm 0x11 3 [1, 0, 0, 0])).2 = true
    ∧ (s.receive 7 (sm 0x12 3 [])).2 = true ∧ s.inFor 7 3 = some (inStream []) ∧ (inStream []).rc.smod = (sm 0x10 3 []).src
    ∧ s.inFor 7 4 = none ∧ s.quiesceHolds (sm 0x10 3 []) = false
    ∧ (s.set R.UNP_STATUS_DRAIN 1).quiesceHolds (sm 0x10 3 []) = true
    ∧ (s.seam.outs.find? fun o => o.rc.rmod = (sm 0x11 3 []).src && o.rc.rslot = (sm 0x11 3 []).kid) = some (outStream []) := by
  decide +kernel

/-! GathersFetchLinesFromTheirOwner -/

/-- A gather of port 7 with tag 3 from module 9. -/
def gatherOf (asked : Bool) : Gather :=
  { port := 7, daddr := 0, line := 0, nlines := 1, stepq := 5, owner := 9, group := 0, cdest := 0, cdq := 1, tag := 3, gen := 0, asked := asked }
/-- Port 7 up with it in progress. -/
def gathering (asked : Bool) : State := { linkAt 3 with seam := { s0.seam with gathers := [gatherOf asked] } }
set_option maxRecDepth 100000 in
theorem wit_gather_in : ((gathering false).receive 7 (sm 0x31 3 (List.replicate 256 0))).2 = true
    ∧ (gathering false).gatherFor (sm 0x31 3 []) false = some (gatherOf false)
    ∧ (gathering true).gatherFor (sm 0x22 3 []) true = some (gatherOf true)
    ∧ ((gathering true).receive 7 (sm 0x22 3 (List.replicate 256 0))).2 = true
    ∧ ((gathering true).receive 7 (sm 0x23 3 (List.replicate 32 0))).2 = true
    ∧ ((gathering true).seam.gathers.find? fun g => g.tag = (sm 0x23 3 []).kid && g.owner = (sm 0x23 3 []).src && g.group = (sm 0x23 3 []).group)
      = some (gatherOf true) := by decide +kernel
set_option maxRecDepth 100000 in
theorem wit_gather_owner : (linkAt 3).recBad 0 = false ∧ ((linkAt 3).receive 7 (sm 0x24 3 (List.replicate 8 0))).2 = true
    ∧ ((linkAt 3).receive 7 (sm 0x30 3 (List.replicate 32 0))).2 = true ∧ (linkAt 3).sweeping 0 = false
    ∧ sweepable.sweeping 0 = true := by decide +kernel
theorem wit_gather_begin : let b := leBytes 8 0 ++ leBytes 8 (2 ^ 37) ++ leBytes 8 0 ++ leBytes 8 (2303 * 2 ^ 12 + 31 * 2 ^ 24)
    let x := ((({} : Tile).set (T.QCFG_EN 31) 1).set (T.QCFG_CTL 31) 1).set (T.QCFG_VC 31) 1
    let s := { inTile 2303 fun _ => x.set (T.QCFG_SRC_PANEL 31) 0x3F with loader := { curRegions := [⟨0, 4096, 2, 3⟩] } }
    ¬ (16 ≤ (s.seam.gathers.filter fun g => g.port = 7).length) ∧ s.recBad 0 = false ∧ s.gatherQueueOk (parseGather 7 s.curGen b) = true ∧ (parseGather 7 0 b).nlines = 1
    ∧ s.gatherDestOk (parseGather 7 s.curGen b) = false ∧ s0.gatherQueueOk (parseGather 7 0 b) = false
    ∧ ({ oneGroup 1 with loader := s.loader }).gatherDestOk (parseGather 7 0 b) = true := by decide +kernel
set_option maxRecDepth 100000 in
theorem wit_gather_changed : ({ sweepable with press := { sweepable.press with crcs := [1] } } : State).recBad 0 = true := by decide +kernel
theorem wit_gather_fate : (s0.fate 0xC27 (fun d => d = 1) (some 5)).2 = .held 5 := by decide
theorem wit_gather_deadline : ((gathering false).seam.gathers.find? fun g => g.port = 7 && g.tag = 3) = some (gatherOf false)
    ∧ ¬ 16 ≤ ((gathering false).seam.gathers.filter fun g => g.port = 7).length := by decide

/-! HostAccessesReachModuleMemory -/

/-- The link up in CXL mode, one decoder over 256 MiB, memory active. -/
def hdmOn : State := { (s0.set R.GC_STATE_MEM_READY 1).set R.TP_TAPE_SIZE 1 with
  cxl := { s0.cxl with linkUp := true, mode := 1, hdm := [(0, 0, 0x10000000, true)] } }
theorem wit_hdm : hdmOn.hdmOk 0xFFFFFF8 8 = true ∧ hdmOn.memActive = true ∧ hdmOn.ideTakes 1 false = true ∧ hdmOn.mem.errs = [] ∧ hdmOn.ideTakes 0 false = true
    ∧ ({ hdmOn with cxl := { hdmOn.cxl with ideOn := [0, 2] } } : State).ideTakes 0 false = false
    ∧ ({ hdmOn with cxl := { hdmOn.cxl with ideOn := [0, 2] } } : State).ideTakes 1 false = false ∧ hdmOn.hostBehind 0xFFFFFF8 8 = none
    ∧ ({ hdmOn with bar := [] } : State).memActive = false
    ∧ (∀ k < 8, hdmOn.inTail (0xFFFFFF8 + k) = false) ∧ (∀ g ∈ hdmOn.granules 0 8, hdmOn.mem.poison.contains g = false) := by
  decide +kernel
theorem wit_hdm_poison : let s := { hdmOn with mem := { hdmOn.mem with poison := [0] } }
    ∃ g ∈ s.granules 0 8, s.mem.poison.contains g = true := by decide +kernel
theorem wit_hdm_unsound : let s := { hdmOn with mem := { hdmOn.mem with unsound := [0] }, flt := { hdmOn.flt with safe := true } }
    s.safe = true ∧ ∃ g ∈ s.granules 0 8, s.mem.unsound.contains (mcOfGran g) = true := by decide +kernel
theorem wit_hdm_tail : s0.inTail (393088 * 2 ^ 21 - 1) = true := by decide +kernel
theorem wit_hdm_behind : ({ hdmOn with mem := { hdmOn.mem with heldReqs := [⟨0, 0, some 1, .atomTicketDeadline 0 0, (0, 0), true⟩] } }).hostBehind 0 8 = some 0 := by
  decide +kernel
theorem wit_hdm_write : hdmOn.runs 0 248 = [(0, 248)] ∧ hdmOn.reach 0 248 = .ok
    ∧ hdmOn.mem.poison.contains (hdmOn.memUnit 0) = false ∧ overlaps 0 248 hdmOn.tapeArea.1 hdmOn.tapeArea.2 = true
    ∧ overlaps 0x10000 8 hdmOn.tapeArea.1 hdmOn.tapeArea.2 = false := by decide +kernel
theorem wit_tape_window : let s : State := { hdmOn with cxl := { hdmOn.cxl with mode := 2 } }
    s.linkMode = 2 ∧ 0xFFFFFF8 + 8 ≤ 0x10000000 ∧ s.tapeArea.2 ≤ 0xFFFFFF8 := by decide +kernel

/-! TheHostPortSettlesAndAnswers -/

/-- The link up in CXL mode, with requests of a bobbin and of a command to host memory. -/
def hostLinked : State := { s0 with cxl := { s0.cxl with
  perst := false, released := true, linkUp := true, mode := 1, configReady := true
  reqs := [⟨.bob 2303 1 7 0, false, 0, 64⟩, ⟨.cmd 7 3, true, 0, 64⟩]
  biasReqs := [⟨0, .memRead 0 0 8 false ⟨0, .ok⟩, (0, 0)⟩] } }
theorem wit_host_mode : ({ s0 with cxl := { s0.cxl with perst := false, released := true } }).cxl.mode = 0 ∧ hostLinked.cxl.mode ≠ 0
    ∧ hostLinked.linkMode = 1 ∧ (hostLinked.cfgDword 0xFFC) = none ∧ (hostLinked.cfgDword 0x50).isSome = true ∧ hostLinked.ideTakes 0 false = true
    ∧ ({ hostLinked with cxl := { hostLinked.cxl with ideOn := [1] } } : State).ideTakes 0 false = false := by decide
theorem wit_host_dec : s0.decoderOk 0 0 (lpEnd / 0x10000000 * 0x10000000) true = true ∧ s0.decoderOk 1 0 0 true = false := by decide
theorem wit_host_bias : hostLinked.cxl.biasReqs[0]? = some ⟨0, .memRead 0 0 8 false ⟨0, .ok⟩, (0, 0)⟩ ∧ hostLinked.safe = false := by decide
theorem wit_host_reqs : hostLinked.cxl.reqs[0]? = some ⟨.bob 2303 1 7 0, false, 0, 64⟩ ∧ hostLinked.cxl.reqs[1]? = some ⟨.cmd 7 3, true, 0, 64⟩
    ∧ (∀ q ∈ hostLinked.cxl.reqs.eraseIdx 1, q.agent ≠ HostAgent.cmd 7 3) := by decide
theorem wit_host_more : ({ hostLinked with cxl := { hostLinked.cxl with reqs := [⟨.cmd 7 3, true, 0, 64⟩, ⟨.cmd 7 3, true, 64, 64⟩] } }).cxl.reqs[0]?
    = some ⟨.cmd 7 3, true, 0, 64⟩ := by decide

/-! TheTapeTakesPacketsAndWritesReplies -/

/-- The header and the memory of a `NOP` packet with tag 9 and sequence number 0. -/
def nopLine : List Byte :=
  let h := leBytes 4 0x45504154 ++ [0, 1] ++ leBytes 2 1 ++ leBytes 2 0 ++ leBytes 2 9 ++ [3, 0] ++ leBytes 2 0 ++ leBytes 4 0 ++ leBytes 8 0
  h ++ leBytes 4 (crc32 h)
/-- A tape enabled at address 0 that holds it, with its notice on the way. -/
def taking : State :=
  let s := (s0.set R.TP_TAPE_SIZE 1).set R.TP_CFG_EN 1
  let s := s.wrN 0 nopLine
  { s with tape := { s.tape with notices := [(0, 32)] } }
set_option maxRecDepth 100000 in
theorem wit_notice : taking.takesPackets = true ∧ taking.tape.notices.contains (0, 32) = true ∧ s0.takesPackets = false
    ∧ taking.reach (taking.tapeArea.1 + taking.tapePos) 32 = .ok
    ∧ (∀ g ∈ taking.granules (taking.tapeArea.1 + taking.tapePos) 32, taking.mem.poison.contains g = false) ∧ taking.mem.errs = []
    ∧ taking.rdN (taking.tapeArea.1 + taking.tapePos) 32 = nopLine ∧ (parsePkt nopLine).magic = 0x45504154
    ∧ taking.seqDue (parsePkt nopLine).seq = true ∧ (parsePkt nopLine).plen = 0
    ∧ crc32 (nopLine.take 28) = (parsePkt nopLine).crc := by decide +kernel
theorem wit_notice_bad : ({ taking with mem := { taking.mem with exts := [] } }).reach 0 32 ≠ .ok
    ∧ ({ taking with tape := { taking.tape with torn := true } }).takesPackets = true := by decide +kernel
theorem wit_notice_seq : let s := taking.set R.TP_STATUS_NEXT_SEQ 0xFFFFFFFF
    s.seqDue 0 = true ∧ 0 ≠ s.get R.TP_STATUS_NEXT_SEQ ∧ taking.seqDue 0xFFFFFFFF = false := by decide +kernel
/-- A packet header with an opcode, a length and a tag. -/
def pkt (op plen tag : Nat) : Pkt := ⟨0x45504154, 0, 1, op, plen, tag, 3, 3, 0, 0, 0⟩
theorem wit_accept : s0.packetFault (pkt 1 0 9) = none ∧ s0.packetFault (pkt 1 0 0xFFFF) = some Code.TAPE_FIELD
    ∧ kvGet? s0.tape.lastEpoch 9 ≠ some 3 ∧ paramFault 1 [] = none
    ∧ s0.packetFault (pkt Op.BIAS 16 9) = none ∧ paramFault Op.BIAS (List.replicate 16 0) = some Code.TAPE_PARAM_ZERO := by decide
theorem wit_busy : let d : Cmd := ⟨9, 3, 1, 0, false, false, [], false, false, false, false, []⟩
    let s : State := { s0 with tape := { s0.tape with cmds := [d] } }
    (∃ c ∈ s.tape.cmds, c.gone = false ∧ c.tag = 9 ∧ c.epoch = 3) ∧ splitCmd 9 s.tape.cmds = some ([], d)
    ∧ s.mayStart [] d = true
    ∧ kvGet? ({ s0 with tape := { s0.tape with lastEpoch := [(9, 3)] } }).tape.lastEpoch 9 = some 3 := by decide
theorem wit_reply : let s := (s0.set R.TP_CFG_EN 1).set R.TP_RSIZE_RSIZE 1024
    let s := { s with cxl := { s.cxl with linkUp := true }, tape := { s.tape with replies := [⟨0, 9, 3, 1, 0, 0, [], true, true⟩], waiting := true } }
    s.flag R.TP_CFG_EN = true ∧ s.replySpace 0 = true ∧ s.replySpace 1 = false ∧ s.tape.episode = false := by decide +kernel

/-! TheTapeUnitsOwnCommandsAct -/

/-- A tape command of an opcode with parameters, taken up. -/
def tapeCmd (op : Nat) (p : List Byte) : State :=
  let s := { repairing with tape := { s0.tape with cmds := [⟨7, 3, op, 0, false, false, p, true, false, false, false, []⟩] } }
  { s with cxl := { s.cxl with linkUp := true, mode := 1 } }
theorem wit_nop_neg : (tapeCmd Op.NOP []).safe = false ∧ ((tapeCmd Op.NOP []).cmdFor 7 Op.NOP).isSome = true
    ∧ settleVer (oneMajor 1 0) (List.replicate 16 0) = some (1, 0) ∧ settleVer (oneMajor 1 0) (List.replicate 16 255) = none
    ∧ (tapeCmd Op.NEGOTIATE (List.replicate 24 0)).plState = 0 ∧ (s0.set R.PL_STATUS_STATE 1).plState ≠ 0 := by decide +kernel
theorem wit_cancel : let s := tapeCmd Op.CANCEL [9, 0, 3, 0, 0, 0, 0, 0]
    let d : Cmd := ⟨9, 3, Op.PATTERN_LOAD, 0, false, false, [], true, true, false, false, []⟩
    let u := { s with tape := { s.tape with cmds := s.tape.cmds ++ [d] }, loader := { live := true, tag := 9, epoch := 3 } }
    s.tape.find 9 3 = none ∧ u.tape.find 9 3 = some d ∧ u.begun d = true ∧ u.begun { d with started := false } = false
    ∧ u.loader.goSent = false := by decide
theorem wit_bias : let s := tapeCmd Op.BIAS ([0, 0, 0x20, 0, 0, 0, 0, 0] ++ [1, 0, 0, 0] ++ [0, 0, 0, 0])
    let u := { s with mem := { s.mem with heldReqs := [⟨0, 0, some 1, .memWrite 0 0x200000 [] false none ⟨0, .ok⟩, (0, 0), true⟩] } }
    s.pagesBusy [1] = false ∧ u.pagesBusy [1] = true ∧ s.linkMode = 1 ∧ s.cxl.mode ≠ 2 := by decide
theorem wit_dbg : (tapeCmd Op.DBG_READ []).debugOk = false ∨ (tapeCmd Op.DBG_READ []).debugOk = true := by decide
theorem wit_dbg_open : (tapeCmd Op.DBG_WRITE []).debugOk = true ∧ s0.debugOk = false ∧ inSpadWin spadBase 4 = true ∧ allSpadWin spadBase 4 = true
    ∧ allSpadWin (spadEnd - 4) 8 = false ∧ inSpadWin 0 8 = false ∧ (tapeCmd Op.DBG_READ []).inHost 0 8 = false
    ∧ (tapeCmd Op.DBG_READ []).inHost hostBase 8 = true ∧ (tapeCmd Op.DBG_WRITE []).cxl.linkUp = true := by decide +kernel
theorem wit_dbg_fetch : (s0.dbgFetch (s0.dbgRuns 0 8 9) .ok).2 = .inr (List.replicate 8 0)
    ∧ (s0.dbgStore 0 (List.replicate 8 0) (s0.dbgRuns 0 8 9)).2 = none
    ∧ (s0.dbgFetch (s0.dbgRuns (lnEnd - 8) 8 9) .ok).2 = .inl Code.FLT_ADDR_UNMAPPED := by decide +kernel

/-! ThimbleServesTapeCommands -/

/-- A Thimble command of an opcode with parameters, taken up while the firmware serves. -/
def thCmd (op : Nat) (p : List Byte) : State :=
  { tapeCmd op p with rst := { s0.rst with fwRunning := true }, th := { s0.th with log := [(5, List.replicate 32 1)] } }
theorem wit_th_cmd : (thCmd Op.TH_NEGOTIATE []).fwServes = true ∧ s0.fwServes = false
    ∧ ∀ op ∈ [Op.TH_NEGOTIATE, Op.SENSOR_READ, Op.LOG_READ, Op.LOG_CLEAR, Op.IDENTITY, Op.MEASURE], ((thCmd op []).cmdFor 7 op).isSome = true := by
  decide
theorem wit_th_neg : settleVer (oneMajor 1 0) (List.replicate 16 3) = some (1, 0) ∧ settleVer (oneMajor 1 0) (List.replicate 16 255) = none := by
  decide
theorem wit_th_log : (thCmd Op.LOG_READ []).logFrom 5 1 = [(5, List.replicate 32 1)] ∧ (thCmd Op.LOG_READ []).logFrom 6 1 = [] := by decide
theorem wit_th_timeout : let c : Cmd := ⟨7, 3, Op.MEASURE, 0, false, false, [], false, false, false, false, []⟩
    ([c].find? fun c => c.tag = 7 && cmdUnit c.opcode = 5 && !c.started && !c.gone && !c.replied) = some c := by decide

/-! ShutdownRunsInOrder -/

/-- A shutdown that has reached a step of Table 14.9. -/
def shuttingDown (k : Nat) : State := { s0 with rst := { s0.rst with seq := .shutdown true 7 3, shut := k, testing := k = 2 } }
theorem wit_shutdown : (thCmd Op.SHUTDOWN [1, 0, 0, 0, 0, 0, 0, 0]).rst.seq = .none
    ∧ ((thCmd Op.SHUTDOWN [1, 0, 0, 0, 0, 0, 0, 0]).cmdFor 7 Op.SHUTDOWN).map (fun c => c.p 0 1) = some 1
    ∧ ((thCmd Op.SHUTDOWN [0, 0, 0, 0, 0, 0, 0, 0]).cmdFor 7 Op.SHUTDOWN).map (fun c => c.p 0 1) = some 0 := by decide
theorem wit_shut_steps : (shuttingDown 0).phase = 0 ∧ ((shuttingDown 0).set R.PRS_STATUS_PHASE 1).stepOpen = true
    ∧ ((shuttingDown 0).set R.PRS_STATUS_PHASE 1).verdictSent = false ∧ (shuttingDown 1).drain ≠ 3
    ∧ ((shuttingDown 1).set R.UNP_STATUS_DRAIN 3).drain = 3 ∧ (shuttingDown 3).tape.cmds = [] ∧ (shuttingDown 2).rst.testing = true := by
  decide +kernel
theorem wit_shut_sent : let i : Inst := { rc := ⟨3, 2, 2, 1, 0, 0, 0, 0, 0, 0, 0, 0, 0⟩, routes := [], step := 0, gen := 0, sentVerdict := true }
    let s := { (shuttingDown 0).set R.PRS_STATUS_PHASE 2 with seam := { s0.seam with insts := [i] } }
    s.verdictSent = true ∧ s.stepOpen = true := by decide +kernel

/-! ManagementBasicsAreAnswered -/

/-- The firmware serving, with an established session of identifier 4, an alert, and the link up. -/
def served : State := { s0 with
  pins := { s0.pins with vaux := true }, rst := { s0.rst with fwRunning := true }
  th := { s0.th with sessions := [⟨4, true⟩], alert := true, algs := true }, cxl := { s0.cxl with linkUp := true } }
/-- The ROM in recovery. -/
def inRecovery : State := s0.set R.TH_STATUS_BOOT 2
theorem wit_served : served.serves? ⟨true, some 4⟩ false = true ∧ served.serves? ⟨false, none⟩ true = true
    ∧ served.serves? ⟨false, some 5⟩ true = false ∧ inRecovery.serves? ⟨false, none⟩ true = true
    ∧ inRecovery.serves? ⟨false, none⟩ false = false ∧ inRecovery.get R.TH_STATUS_BOOT = 2 ∧ served.get R.TH_STATUS_BOOT ≠ 2 := by
  decide +kernel
theorem wit_pldm : pldmCommands 5 ≠ none ∧ pldmCommands 1 = none ∧ served.pins.vaux = true ∧ served.th.alert = true := by decide

/-! FirmwareUpdatesAreCheckedAndKept -/

/-- An update in a phase. -/
def updating (ph : UpdPhase) (passed : Bool) : State := { served with th := { served.th with
  upd := { phase := ph, size := 4, maxXfer := 64, passed := passed } } }
theorem wit_update : ∀ ph ∈ [UpdPhase.idle, .requested, .receiving, .received, .verified],
    (updating ph false).serves? ⟨false, none⟩ true = true ∧ (updating ph false).th.upd.phase = ph := by decide +kernel
theorem wit_update_data : (updating .receiving false).th.upd.nextLen = 4 ∧ [1, 2, 3, 4].length = 4
    ∧ (updating .receiving true).th.upd.passed = true ∧ ({ updating .receiving false with th := { served.th with
      upd := { size := 2048 } } }).th.upd.size = 2048 := by decide
theorem wit_update_auth : (served.set R.RST_OPT_UPDATE_AUTH 1).get R.RST_OPT_UPDATE_AUTH = 1 := by decide
/-- A header that row 1 of Table 12.3 passes but for its key. -/
def goodHeader : List Byte :=
  leBytes 4 0x424D4854 ++ leBytes 2 1 ++ [0, 0] ++ leBytes 4 8192 ++ List.replicate 1012 0
theorem wit_update_header : s0.imageOk goodHeader = true ∧ s0.slotUsable 0 = true ∧ s0.headerFault [] = some Code.TH_BOOT_IMAGE ∧ field [] 0 4 ≠ 0x424D4854 := by
  decide +kernel

/-! SpdmSessionsAndMeasurements -/

/-- The firmware serving, with a session begun and one established. -/
def twoSess : State := { served with th := { served.th with sessions := [⟨4, true⟩, ⟨5, false⟩] } }
theorem wit_spdm : twoSess.serves? ⟨true, none⟩ false = true ∧ twoSess.th.algs = true ∧ twoSess.fwServes = true ∧ twoSess.th.hasSess 4 = true
    ∧ twoSess.th.hasSess 5 = false ∧ (⟨5, false⟩ : Sess) ∈ twoSess.th.sessions ∧ twoSess.th.sessions.length < 4
    ∧ (∀ x ∈ twoSess.th.sessions, x.id ≠ 6) ∧ (∀ x ∈ twoSess.th.sessions, x.id = 4 → x.est = true)
    ∧ ({ served with th := { served.th with algs := false } }).serves? ⟨false, none⟩ false = true := by decide +kernel
theorem wit_spdm_nonce : (List.replicate 32 (0 : Byte)).length = 32 ∧ ¬ 8 ≤ 7 ∧ 4 ≤ [1, 2, 3, 4].length := by decide

/-! DebugOptionsFusesAndKeysAreGuarded -/

/-- The module with a lock, a nonce given to its session, and a link key. -/
def lockedAt (k : Nat) : State := { served with
  th := { served.th with debugLock := k, nonces := [(4, List.replicate 32 0)] }, cxl := { served.cxl with ideKeys := [(3, List.replicate 32 0)] } }
/-- The default option bytes with their CRC. -/
def goodOptions : List Byte := optDefaults.take 124 ++ leBytes 4 (crc32 (optDefaults.take 124))
set_option maxRecDepth 100000 in
theorem wit_vendor : (∀ k ∈ [0, 1, 2, 3], (lockedAt k).serves? ⟨false, some 4⟩ false = true ∧ (lockedAt k).th.debugLock = k)
    ∧ (lockedAt 1).serves? ⟨false, none⟩ false = true ∧ kvGet? (lockedAt 1).cxl.ideKeys (2 * 1 + 1) ≠ none
    ∧ kvGet? (lockedAt 1).cxl.ideKeys 0 = none ∧ (4, List.replicate 32 0) ∈ (lockedAt 1).th.nonces := by decide +kernel
set_option maxRecDepth 100000 in
theorem wit_options : served.ownerOk none [] = true ∧ served.optImageBad [] = some 0 ∧ served.optImageBad goodOptions = none
    ∧ ({ served with th := { served.th with ownerKey := List.replicate 32 1 } }).ownerOk none [] = false := by decide +kernel

/-! ThimbleBootsSamplesLogsAndRestarts -/

/-- Supply on VAUX, the ROM about to boot. -/
def powered (src : Nat) : State := { s0.set R.RST_STRAPS_BOOT_SRC src with pins := { s0.pins with vaux := true } }
theorem wit_boot : (powered 0).pins.vaux = true ∧ (powered 0).get R.TH_STATUS_BOOT = 0 ∧ (powered 1).bootSrc = 1 ∧ (powered 0).bootSrc ≠ 1
    ∧ (powered 0).th.imgInvalid = false := by decide +kernel
theorem wit_sensor : served.rst.fwRunning = true ∧ served.th.restarting = false ∧ ¬ (served.pins.input50 = false ∧ (136 ≤ 135 ∨ 136 = 138))
    ∧ served.pins.input50 = false ∧ kvGet 0 served.th.bad 138 + 1 ≠ 3 ∧ kvGet 0 [(5, 2)] 5 + 1 = 3
    ∧ (served.thresholds 35)[0]? ≠ none := by decide +kernel
/-- A record of a fault that caused the safe state. -/
def causeRec : FltRec := ⟨Code.MEM_CH_FAIL, 3, 16, 0, 0xC00, 0, 0, false⟩
theorem wit_record : (({ served with flt := { s0.flt with waiting := [causeRec] } }).flt.waiting.find? fun r => r.unit = 0xC00) = some causeRec
    ∧ served.suppressed causeRec = false ∧ bit causeRec.flags 4 = true ∧ served.passes causeRec = true
    ∧ ({ served with th := { served.th with lastCe := [(Code.MEM_CE, 0)] } }).suppressed ⟨Code.MEM_CE, 0, 0, 0, 0xC00, 0, 0, false⟩ = true
    ∧ served.passes ⟨Code.MEM_CE, 0, 0, 0, 0xC00, 0, 0, false⟩ = false := by decide +kernel
theorem wit_watchdog : served.fwServes = true ∧ (∀ x, served.th.lastWdog = some x → x + 1000000000 ≤ served.now)
    ∧ ({ served with th := { served.th with lastWdog := some 0 } }).now < 0 + 1000000000
    ∧ ({ served with th := { served.th with restarting := true } }).th.restarting = true := by
  refine ⟨by decide, ?_, by decide, rfl⟩
  intro x h; cases h

/-! PanelsFollowCapsNeighboursAndTemperature -/

/-- The rails up, panel 7 at a setting of 2,000 MHz, with a state of its own. -/
def panelAt (x : Panel) : State := { (s0.set (R.PNL_CFG_FSET 7) 80).set (R.PNL_STATUS_HOT 7) 1 with
  pow := { s0.pow with railsUp := 7, panels := [(7, x)] } }
theorem wit_panel : 7 ≤ (panelAt {}).pow.railsUp ∧ ((panelAt {}).panel 7).changing = false
    ∧ ¬ ((panelAt {}).fTarget 7 = (panelAt {}).get (R.PNL_STATUS_FDEL 7)) ∧ 625 ≤ (panelAt {}).fTarget 7
    ∧ (panelAt { tcap := 500 }).fTarget 7 < 625 ∧ 1 ∈ nbrs 7 ∧ (panelAt {}).safe = false
    ∧ ((panelAt { tcap := 500 }).set (R.PNL_STATUS_FDEL 7) 2000).get (R.PNL_STATUS_FDEL 7) = 2000 := by decide +kernel
theorem wit_panel_change : let x : Panel := { changing := true, ftgt := 500, vtgt := 750 }
    ((panelAt x).panel 7).changing = true ∧ ((panelAt x).panel 7).acks = [] ∧ 500 < 4096 ∧ 750 < 1024
    ∧ 1 ∈ ((panelAt { x with acks := [1] }).panel 7).acks ∧ ((panelAt x).panel 1).ann = 2500
    ∧ (let s := (panelAt { x with acks := [1], ann := 500 }).setPanel 1 { nbAnn := [(7, 500)] }
      kvGet? (s.panel 1).nbAnn 7 = some (s.panel 7).ann) := by decide +kernel
theorem wit_panel_commit : let s : State := { panelAt {} with barStage := tack [] (R.PNL_CFG_FSET 7).key 0x7F 80 }
    let t : State := { panelAt {} with barStage := tack [] (R.PNL_CFG_FSET 7).key 0x7F 101 }
    s.takesWrite none (0x80000 + 0x400 * 7) = true ∧ s.frozen (0x80000 + 0x400 * 7) = false
    ∧ anyStaged s.barStage (fun o => o = 0x80000 + 0x400 * 7) = true ∧ s.pow.commits = [] ∧ (s.panel 7).changing = false
    ∧ s.panelBad 7 = none ∧ t.panelBad 7 = some (Code.PWR_VF, 0) := by decide +kernel
theorem wit_governor : 0 < (panelAt {}).get R.PWR_CFG_P_LIMIT ∧ 7 ≤ (panelAt {}).pow.railsUp
    ∧ ((panelAt {}).set R.PWR_STATUS_FCAP 400).get R.PWR_STATUS_FCAP = 400 ∧ 2475 ≤ 2500 := by decide +kernel
theorem wit_heat : ((panelAt { temp := 1840 }).panel 7).temp = 1840 ∧ (panelAt {}).get (R.PNL_STATUS_HOT 7) = 1 ∧ s0.get (R.PNL_STATUS_HOT 7) ≠ 1
    ∧ 480 < ((panelAt { temp := 1840 }).panel 7).temp - ((panelAt { temp := 1840 }).panel 1).temp
    ∧ (∃ p < 36, 1840 ≤ ((panelAt { temp := 1840 }).panel p).temp)
    ∧ ((panelAt { droop := true }).panel 7).droop = true := by
  refine ⟨by decide +kernel, by decide +kernel, by decide +kernel, by decide +kernel, ⟨7, by decide, by decide +kernel⟩, by decide +kernel⟩

/-! RailsInputsAndReferencesFail -/

/-- Every supply valid, the power stage starting. -/
def powering : State := { s0.set R.PWR_STATUS_STATE 1 with pins := { s0.pins with vaux := true, input50 := true } }
theorem wit_rails : 7 ≤ (panelAt {}).pow.railsUp ∧ powering.get R.PWR_STATUS_STATE = 1 ∧ powering.pins.input50 = true
    ∧ (∀ p ∈ List.range 36, powering.get (R.PNL_CFG_VSET p) ≤ 127) ∧ powering.pins.vaux = true ∧ powering.pins.sysRst = false ∧ ¬ 43999 ≥ 44000 ∧ 60001 > 60000 := by decide +kernel
theorem wit_refs : powering.get R.RST_STRAPS_CLK_MODE % 2 = 0 ∧ powering.pow.onOsc = false ∧ powering.pow.oscBad = false
    ∧ (s0.set (R.SP_STATUS_LINK 7) 3).link 7 ≠ 0 ∧ (shuttingDown 2).rst.testing = true ∧ s0.rst.testing = false := by decide +kernel

/-! ResetSourcesClearWhatTheyReach -/

/-- The rails up, the CXL link up and its port released. -/
def upAndRunning : State := { s0 with
  pow := { s0.pow with railsUp := 7 }, pins := { s0.pins with vaux := true, input50 := true }
  cxl := { s0.cxl with perst := false, released := true, linkUp := true } }
theorem wit_reset : s0.pins.vaux = false ∧ upAndRunning.pins.vaux = true ∧ s0.pins.input50 = false ∧ s0.pins.sysRst = false
    ∧ ({ s0 with pins := { s0.pins with sysRst := true } }).pins.sysRst = true ∧ upAndRunning.cxl.perst = false ∧ s0.cxl.perst = true
    ∧ upAndRunning.cxl.linkUp = true := by decide
theorem wit_warm : upAndRunning.rst.seq = .none ∧ upAndRunning.pow.railsUp ≠ 0 ∧ upAndRunning.escalates = false
    ∧ upAndRunning.get R.TH_STATUS_BOOT ≠ 2 ∧ (upAndRunning.set R.PWR_STATUS_STATE 5).escalates = true
    ∧ (upAndRunning.set R.TH_STATUS_BOOT 2).get R.TH_STATUS_BOOT = 2 ∧ s0.pow.railsUp = 0 := by decide +kernel
theorem wit_idle : ∀ b ∈ allBlks, upAndRunning.canIdle b = true ∧ b ∈ ({ upAndRunning with
    rst := { s0.rst with seq := .warm true, busy := allBlks } }).rst.busy := by decide +kernel

/-! StartsEndReadyAndSafeEntryStopsAll -/

/-- A start that has trained. -/
def starting : State := { (s0.setAll ((List.range 24).map fun n => (R.MC_STATUS_CH_OK n, 15))).set R.GC_STATE_MEM_READY 1 with
  rst := { s0.rst with seq := .start, fabricOk := true, fwRunning := true } }
set_option maxRecDepth 100000 in
theorem wit_start : starting.rst.seq = .start ∧ starting.rst.trainedOk = false ∧ starting.get R.GC_STATE_MEM_READY = 1
    ∧ (∀ n ∈ List.range 24, starting.get (R.MC_STATUS_CH_OK n) = 15) ∧ s0.get (R.MC_STATUS_CH_OK 23) ≠ 15
    ∧ starting.th.trained ≠ some (starting.get R.RST_STRAPS_CLK_MODE) ∧ starting.th.advanced = false
    ∧ ({ starting with rst := { starting.rst with trainedOk := true, filled := true, repairFail := true } }).rst.filled = true := by
  decide +kernel
/-- A fatal line asserted with a link up, the rails up and vector 0 enabled. -/
def fatalUp : State := { s0.set (R.SP_STATUS_LINK 7) 3 with
  flt := { s0.flt with fatal := true, cause := some causeRec }, pow := { s0.pow with railsUp := 7 }
  cxl := { s0.cxl with msixEnable := true }, tape := { s0.tape with msixMask := List.replicate 8 false } }
theorem wit_safe : fatalUp.flt.fatal = true ∧ fatalUp.flt.safe = false ∧ fatalUp.link 7 = 3 ∧ fatalUp.link 0 ≠ 3
    ∧ fatalUp.get (R.PNL_STATUS_FDEL 35) ≠ 400 ∧ fatalUp.tape.msixMask.getD 0 true = false
    ∧ ({ fatalUp with flt := { fatalUp.flt with safe := true } }).safe = true := by decide +kernel

/-! FusesAreNeverRestored -/

/-- The firmware serving a session, every fuse but one burnt. -/
def burning : State := { served with th := { served.th with keyIndex := 3, rollback := 63, revoked := [0, 1, 2] } }
theorem wit_fuses : burning.th.keyIndex ≤ 3 ∧ (match step { burning with pending := [.fuseBurn ⟨false, some 4⟩ .seal [] none] } with
    | .next t => t.th.sealed | _ => false) = true := by decide +kernel
theorem wit_fuse_options : ({ s0 with th := { s0.th with sealed := true, policyLock := true } }).th.keyIndex ≤ 3 := by decide

/-! DebugAccessFollowsTheLock -/

theorem wit_lock : ∀ k ∈ [0, 1, 2, 3], (lockedAt k).th.debugLock = k := by decide

/-! TheEnvelopeFaultNeedsFullCapAndExcess -/

theorem wit_envelope : (s0.set R.PWR_STATUS_FCAP 400).get R.PWR_STATUS_FCAP = 400 ∧ s0.get R.PWR_STATUS_FCAP ≠ 400
    ∧ (s0.set R.PWR_STATUS_FCAP 400).get R.PWR_CFG_P_LIMIT * 1000 < 781000 := by decide

/-! TheSafeStateEndsOnlyByReset -/

/-- The module in the safe state. -/
def isSafe : State := { upAndRunning with flt := { upAndRunning.flt with safe := true } }
theorem wit_left : isSafe.safe = true ∧ (match exec .sysRstN isSafe with | .next t => t.safe | _ => true) = false := by decide +kernel
theorem wit_entered : fatalUp.safe = false ∧ (match exec .safeStateEntry fatalUp with | .next t => t.safe | _ => false) = true := by
  decide +kernel

/-! MemoriesStayCanonical -/

theorem wit_canonical : let s : State := { s0 with mem := { s0.mem with data := [(0, 1), (5, 2)] }, pending := [.memWrite 0 0 [0, 3] false none ⟨0, .ok⟩] }
    s.mem.data.wf = true ∧ s.host.wf = true ∧ s.tiles = [] ∧ s.th.flash = none
    ∧ (match step s with | .next t => t.mem.data | _ => []) = [(1, 3), (5, 2)] := by decide +kernel

/-! ResetMeetsTheInvariants -/

theorem wit_reset_invariants : s0.pending = [] := by decide

/-! EveryCommandGoesOnAndLeavesTheQueue -/

theorem wit_goes_on : (match exec .vauxLoss { s0 with pending := [.flr] } with | .next t => t.pending | _ => []) = [.flr] := by decide

/-! TileProgramCommandsComplete -/

theorem wit_complete_recv : let s := inTile 2303 fun x => dataQueue (dataToken false) (issuing 0x1C x)
    s.fetches 2303 0x1C = true ∧ (s.tile 2303).outstanding < 96 ∧ qEn (s.tile 2303).regs 31 = true
    ∧ (s.tile 2303).get (T.QCFG_CONS 31) = 0 ∧ (s.tile 2303).head 31 = some (dataToken false)
    ∧ hKind (dataToken false).hdr = kData ∧ hBasted (dataToken false).hdr = false ∧ (dataToken false).pay ≠ []
    ∧ (s.tile 2303).landing (.spad 3840) (hSlot (dataToken false).hdr) (dataToken false).pay.length = .ok (64 * 4095) := by
  decide +kernel
theorem wit_complete_send : let s := inTile 0 fun x => ({ issuing 0x1D x with ochs := [(31, { credits := 1, bucket := 1 })] } : Tile).set (T.OCH_EN 31) 1
    s.fetches 0 0x1D = true ∧ (s.tile 0).outstanding < 96 ∧ chEn (s.tile 0).regs 31 = true ∧ (s.tile 0).canSend 31 = true
    ∧ (s.tile 0).unitBusy .vector = false ∧ (s.tile 0).entries = [] := by decide +kernel
theorem wit_complete_stall : let s := inTile 0 fun x => { ringTile x with
      stall := some ⟨15, true, some (.rpub 15 1)⟩, bob1 := { stalled := true } }
    s.issues = true ∧ s.stallCounts true = true ∧ (s.tile 0).stall = some ⟨15, true, some (.rpub 15 1)⟩
    ∧ (s.retry 0 (.rpub 15 1) = .ok 0 ∨ s.retry 0 (.rpub 15 1) = .vec) ∧ ((s.tile 0).bob 1).stalled = true := by decide +kernel
theorem wit_complete_verdict : ((inTile 0 fun x => { x with entries := [entry 0, entry 1] }).tile 0).entries[1]? = some (entry 1)
    ∧ (entry 1).verdict = none := by decide +kernel

/-! PanelCommandsComplete -/

theorem wit_complete_panel_commit : let s : State := { panelAt {} with barStage := tack [] (R.PNL_CFG_FSET 7).key 0x7F 80 }
    bit (1#32).toNat 0 = true ∧ s.takesWrite none (0x80000 + 0x400 * 7) = true ∧ s.frozen (0x80000 + 0x400 * 7) = false
    ∧ anyStaged s.barStage (fun o => o = 0x80000 + 0x400 * 7) = true ∧ s.pow.commits = [] ∧ (s.panel 7).changing = false := by
  decide +kernel
theorem wit_complete_panel_change : let x : Panel := { changing := true, ftgt := 500, vtgt := 750 }
    ((panelAt x).panel 7).changing = true ∧ ((panelAt x).panel 7).acks = [] ∧ 1 ∈ nbrs 7 ∧ ((panelAt {}).panel 1).ann = 2500
    ∧ ((panelAt {}).panel 7).changing = false
    ∧ (let s := (panelAt { x with acks := [1], ann := 500 }).setPanel 1 { nbAnn := [(7, 500)] }
      (s.panel 7).changing = true ∧ 1 ∈ (s.panel 7).acks ∧ kvGet? (s.panel 1).nbAnn 7 = some (s.panel 7).ann) := by decide +kernel
theorem wit_complete_governor : 7 ≤ (panelAt {}).pow.railsUp
    ∧ (((panelAt {}).setAll [(R.PWR_STATUS_P_1S, 600), (R.PWR_STATUS_P_1MS, 600), (R.PWR_INPUT_VIN, 5400), (R.PWR_INPUT_IIN, 1000)]).get
        R.PWR_CFG_P_LIMIT - 4) * 1000 < 700000
    ∧ 95 * 1000 * (panelAt {}).get R.PWR_CFG_P_PEAK < 100 * 1000000 := by decide +kernel
theorem wit_complete_heat : let s := { panelAt { temp := 1840 } with pow := { (panelAt { temp := 1840 }).pow with tripped := true } }
    s.pow.tripped = true ∧ 1840 ≤ (s.panel 7).temp ∧ (s.get R.PWR_CFG_T_THROTTLE : Int) * 16 ≤ (s.panel 7).temp
    ∧ 480 < (s.panel 7).temp - (s.panel 1).temp ∧ ((panelAt {}).panel 7).droop = false
    ∧ ((panelAt { droop := true }).panel 7).droop = true := by decide +kernel

/-! ManagementMessagesComplete -/

theorem wit_complete_mgmt : served.serves? ⟨false, none⟩ true = true ∧ served.serves? ⟨true, some 4⟩ false = true
    ∧ pldmCommands 2 ≠ none ∧ served.pins.vaux = true ∧ served.th.alert = true ∧ 138 < 139 := by decide +kernel

/-! FirmwareUpdateMessagesComplete -/

theorem wit_complete_update (ph : UpdPhase) : let s : State := { served with th := { served.th with upd := { phase := ph } } }
    s.serves? ⟨false, some 4⟩ true = true ∧ s.rst.fwRunning = true ∧ s.th.upd.phase = ph ∧ s.th.upd.written = s.th.upd.size := by
  cases ph <;> decide +kernel
theorem wit_complete_update_data : let s : State := { served with th := { served.th with
      upd := { phase := .receiving, maxXfer := 64, size := 8192 } } }
    s.serves? ⟨false, none⟩ true = true ∧ s.th.upd.phase = .receiving ∧ List.replicate 64 (0 : Byte) ≠ []
    ∧ (List.replicate 64 (0 : Byte)).length = s.th.upd.nextLen := by decide +kernel

/-! SpdmMessagesComplete -/

theorem wit_complete_spdm : twoSess.serves? ⟨false, none⟩ false = true ∧ twoSess.th.algs = true ∧ twoSess.th.hasSess 4 = true
    ∧ (⟨5, false⟩ : Sess) ∈ twoSess.th.sessions ∧ twoSess.th.sessions.length < 4 ∧ (∀ x ∈ twoSess.th.sessions, x.id ≠ 6)
    ∧ twoSess.fwServes = true ∧ (List.replicate 32 (0 : Byte)).length = 32 := by decide +kernel

end Sys2Proof.Tests
end

section
/-! PROOFS. The family of spec/00_scope.md: the field tables name each register once, the reset state, the accesses that
break R8, and how an access acts on a register by the types of its fields. -/

namespace Sys2Proof.Machine

/-! ### The field tables name each register once -/

/-- Every offset of a description: each entry of each of its blocks. -/
def RDesc.offs (d : RDesc) : List Nat :=
  (List.range d.n).flatMap fun i => (List.range d.n2).map fun j => d.base + i * d.stride + j * d.stride2

/-- The last offset of a description. -/
def RDesc.top (d : RDesc) : Nat := d.base + (d.n - 1) * d.stride + (d.n2 - 1) * d.stride2

/-- Do two descriptions name no common register: either one lies below the other, or, where their blocks interleave,
no offset of the first is one of the second? -/
def RDesc.clearOf (d e : RDesc) : Bool :=
  decide (d.top < e.base) || decide (e.top < d.base) || d.offs.all fun off => (e.find off).isNone

/-- An offset that a description finds is the base moved by whole blocks and entries. -/
theorem RDesc.eq_of_find {d : RDesc} {off i j : Nat} (h : d.find off = some (i, j)) :
    i < d.n ∧ j < d.n2 ∧ off = d.base + i * d.stride + j * d.stride2 := by
  simp only [RDesc.find, Option.ite_none_left_eq_some, Option.ite_none_right_eq_some, Option.some.injEq,
    Prod.mk.injEq] at h
  obtain ⟨hb, ⟨hi, hj, hq⟩, rfl, rfl⟩ := h
  have hle : (if d.n = 1 then 0 else (off - d.base) / d.stride) * d.stride ≤ off - d.base := by
    split
    · simp
    · exact Nat.div_mul_le_self _ _
  exact ⟨hi, hj, by omega⟩

theorem RDesc.mem_offs_of_find {d : RDesc} {off : Nat} (h : (d.find off).isSome = true) : off ∈ d.offs := by
  obtain ⟨⟨i, j⟩, hf⟩ := Option.isSome_iff_exists.1 h
  obtain ⟨hi, hj, rfl⟩ := d.eq_of_find hf
  exact List.mem_flatMap.2 ⟨i, List.mem_range.2 hi, List.mem_map.2 ⟨j, List.mem_range.2 hj, rfl⟩⟩

theorem RDesc.range_of_find {d : RDesc} {off : Nat} (h : (d.find off).isSome = true) : d.base ≤ off ∧ off ≤ d.top := by
  obtain ⟨⟨i, j⟩, hf⟩ := Option.isSome_iff_exists.1 h
  obtain ⟨hi, hj, rfl⟩ := d.eq_of_find hf
  have hI : i * d.stride ≤ (d.n - 1) * d.stride := Nat.mul_le_mul_right _ (by omega)
  have hJ : j * d.stride2 ≤ (d.n2 - 1) * d.stride2 := Nat.mul_le_mul_right _ (by omega)
  unfold RDesc.top
  omega

theorem RDesc.not_find_of_clearOf {d e : RDesc} (h : d.clearOf e = true) (off : Nat) :
    ¬ ((d.find off).isSome = true ∧ (e.find off).isSome = true) := by
  rintro ⟨hd, he⟩
  have hdr := RDesc.range_of_find hd
  have her := RDesc.range_of_find he
  simp only [RDesc.clearOf, Bool.or_eq_true, decide_eq_true_eq, List.all_eq_true, Option.isNone_iff_eq_none] at h
  obtain (h | h) | h := h
  · omega
  · omega
  · simp [h off (RDesc.mem_offs_of_find hd)] at he

/-- No two descriptions of the tables name a common register: offsets are compared only where blocks interleave. -/
theorem regTable_clear : regTable.Pairwise fun d e => d.clearOf e = true := by decide +kernel

theorem regTable_lo_nodup : ∀ d ∈ regTable, (d.flds.map FDesc.lo).Nodup := by decide +kernel

/-- Where no two entries satisfy a test together, a search finds the entry that satisfies it. -/
theorem find?_eq_some_of_exclusive {α : Type} {p : α → Bool} {l : List α} {a : α}
    (hl : l.Pairwise fun b c => ¬ (p b = true ∧ p c = true)) (ha : a ∈ l) (hp : p a = true) : l.find? p = some a := by
  induction l with
  | nil => cases ha
  | cons b t ih =>
    obtain ⟨hb, ht⟩ := List.pairwise_cons.1 hl
    rcases List.mem_cons.1 ha with rfl | ha
    · exact List.find?_cons_of_pos hp
    · rw [List.find?_cons_of_neg fun hpb => hb a ha ⟨hpb, hp⟩]
      exact ih ht ha

theorem regAt_of_find {d : RDesc} {off : Nat} (hd : d ∈ regTable) (h : (d.find off).isSome = true) : regAt off = some d :=
  find?_eq_some_of_exclusive (regTable_clear.imp fun hc => RDesc.not_find_of_clearOf hc off) hd h

theorem mem_regTable_of_regAt {d : RDesc} {off : Nat} (h : regAt off = some d) : d ∈ regTable := List.mem_of_find?_eq_some h

/-- The fields of one register begin at different bits. -/
theorem flds_lo_pairwise {d : RDesc} (hd : d ∈ regTable) : d.flds.Pairwise fun f g => f.lo ≠ g.lo :=
  List.pairwise_map.1 (regTable_lo_nodup d hd)

/-! ### The state after reset (spec/00_scope.md R14) -/

/-- The reset value of a field of the tables is that of its own row. -/
theorem resetOf_of_find {d : RDesc} {off : Nat} {f : FDesc} (hd : d ∈ regTable) (h : (d.find off).isSome = true)
    (hf : f ∈ d.flds) : resetOf ⟨off, f.hi, f.lo⟩ = f.rst := by
  have hfind : (d.flds.find? fun x => x.lo = f.lo) = some f := by
    refine find?_eq_some_of_exclusive ((flds_lo_pairwise hd).imp fun hne hb => ?_) hf (by simp)
    simp only [decide_eq_true_eq] at hb
    exact hne (hb.1.trans hb.2.symm)
  simp [resetOf, regAt_of_find hd h, hfind]

/-! ### Accesses that break R8 (spec/00_scope.md R8, R9) -/

theorem exec_regAccessMisaligned (off size : Nat) (w : Bool) (v : W64) (s : State) :
    exec (.regAccessMisaligned off size w v) s = execRegAccessMisaligned off size w v s := rfl

/-- The three ways in which an access breaks R8. -/
theorem breaksR8_iff (off size : Nat) : breaksR8 off size = true ↔
    (size ≠ 4 ∧ size ≠ 8) ∨ off % size ≠ 0
      ∨ (size = 8 ∧ ((∃ d, regAt off = some d ∧ d.width = 32) ∨ ∃ d, regAt (off + 4) = some d ∧ d.width = 32)) := by
  unfold breaksR8
  cases regAt off <;> cases regAt (off + 4) <;> simp [or_assoc]

/-! ### The register that an offset lies in -/

theorem regCover_of_regAt {o : Nat} {d : RDesc} (h : regAt o = some d) : regCover o = some (o, d) := by
  simp [regCover, h]

theorem regAt_eq_none_of_regCover {o : Nat} (h : regCover o = none) : regAt o = none := by
  cases hr : regAt o with
  | none => rfl
  | some d => rw [regCover_of_regAt hr] at h; cases h

/-- An offset lies in the register at it, or in the register of which it is the upper word. -/
theorem regCover_cases {o b : Nat} {d : RDesc} (h : regCover o = some (b, d)) :
    (b = o ∧ regAt o = some d) ∨ (regAt o = none ∧ o = b + 4 ∧ regAt b = some d) := by
  unfold regCover at h
  split at h
  · rename_i hr
    simp only [Option.some.injEq, Prod.mk.injEq] at h
    obtain ⟨rfl, rfl⟩ := h
    exact .inl ⟨rfl, hr⟩
  · rename_i hr
    split at h
    · rename_i hb
      simp only [Option.ite_none_right_eq_some, Option.ite_none_left_eq_some, Option.some.injEq, Prod.mk.injEq] at h hb
      obtain ⟨-, rfl, rfl⟩ := h
      exact .inr ⟨hr, by omega, hb.2⟩
    · cases h

theorem mem_regTable_of_regCover {o b : Nat} {d : RDesc} (h : regCover o = some (b, d)) : d ∈ regTable := by
  rcases regCover_cases h with ⟨-, hr⟩ | ⟨-, -, hr⟩ <;> exact mem_regTable_of_regAt hr

theorem regAt_upper_eq_none {o : Nat} {d : RDesc} (h : regCover (o + 4) = some (o, d)) : regAt (o + 4) = none := by
  rcases regCover_cases h with ⟨hb, -⟩ | ⟨hr, -, -⟩
  · omega
  · exact hr

/-- No register lies at a data word of the MSI-X table. -/
theorem regCover_msixData : ∀ k < 8, regCover (0x2008 + 16 * k) = none := by decide

/-! ### Tacking a write (spec/05_patterns_and_reconfiguration.md R186) -/

theorem kvGet?_tack_other (st : Stage) {key k : Nat} (m v : Nat) (h : k ≠ key) :
    kvGet? (tack st key m v) k = kvGet? st k := by
  unfold tack
  split
  · rfl
  · exact kvGet?_kvSet_other _ _ h

/-- A write that covers a whole field covers all its bits, with those of the value that lie there. -/
theorem writePart_whole {hi lo wlo wn : Nat} (v : Nat) (h1 : wlo ≤ lo) (h2 : hi < wlo + wn) (h3 : lo ≤ hi) :
    writePart hi lo wlo wn v = (2 ^ (hi + 1 - lo) - 1, bits v (lo - wlo) (hi + 1 - lo)) := by
  have ha : max lo wlo = lo := by omega
  have hb : min hi (wlo + wn - 1) = hi := by omega
  simp [writePart, ha, hb, h3]

/-- Tacking all `w` bits of a field leaves exactly the bits written under its mask, whatever was tacked before. -/
theorem tacked_tack_whole (st : Stage) (f : Fld) (v : Nat) (hw : f.lo ≤ f.hi) (hv : v < 2 ^ f.width) :
    Tacked (tack st f.key (2 ^ f.width - 1) v) f v := by
  have hm : 2 ^ f.width - 1 ≠ 0 := by
    have hpos : f.width ≠ 0 := by unfold Fld.width; omega
    have := Nat.one_lt_two_pow hpos
    omega
  refine ⟨_, _, by rw [tack, if_neg hm, kvGet?_kvSet_same], ?_, ?_⟩
  · refine Nat.eq_of_testBit_eq fun i => ?_
    by_cases hi : i < f.width <;> simp [hi]
  · refine Nat.eq_of_testBit_eq fun i => ?_
    by_cases hi : i < f.width
    · simp [hi]
    · simp [hi, Nat.testBit_lt_two_pow (Nat.lt_of_lt_of_le hv (Nat.pow_le_pow_right (by decide) (Nat.le_of_not_lt hi)))]

theorem tacked_congr {st st' : Stage} {f : Fld} {v : Nat} (h : kvGet? st' f.key = kvGet? st f.key) (ht : Tacked st f v) :
    Tacked st' f v := by
  simpa only [Tacked, h] using ht

/-- The staging of one field of a register by a write: an `ST` field is tacked, any other is passed over. -/
def tackFld (o wlo wn v : Nat) (st : Stage) (f : FDesc) : Stage :=
  if f.ty = .st then
    tack st (Fld.key ⟨o, f.hi, f.lo⟩) (writePart f.hi f.lo wlo wn v).1 (writePart f.hi f.lo wlo wn v).2
  else st

theorem tackReg_eq_foldl (st : Stage) (o : Nat) (d : RDesc) (wlo wn v : Nat) :
    tackReg st o d wlo wn v = d.flds.foldl (tackFld o wlo wn v) st := rfl

theorem kvGet?_tackFld_other (o wlo wn v : Nat) (st : Stage) {f : FDesc} {k : Nat}
    (h : f.ty = .st → k ≠ Fld.key ⟨o, f.hi, f.lo⟩) : kvGet? (tackFld o wlo wn v st f) k = kvGet? st k := by
  unfold tackFld
  split
  · rename_i hf
    exact kvGet?_tack_other _ _ _ (h hf)
  · rfl

theorem kvGet?_tackFlds_other (o wlo wn v : Nat) (l : List FDesc) (st : Stage) {k : Nat}
    (h : ∀ f ∈ l, f.ty = .st → k ≠ Fld.key ⟨o, f.hi, f.lo⟩) :
    kvGet? (l.foldl (tackFld o wlo wn v) st) k = kvGet? st k := by
  induction l generalizing st with
  | nil => rfl
  | cons f l ih =>
    obtain ⟨hf, hl⟩ := List.forall_mem_cons.1 h
    exact (ih _ hl).trans (kvGet?_tackFld_other o wlo wn v st hf)

theorem tackFlds_of_no_st (o wlo wn v : Nat) {l : List FDesc} (st : Stage) (h : ∀ f ∈ l, f.ty ≠ .st) :
    l.foldl (tackFld o wlo wn v) st = st := by
  induction l with
  | nil => rfl
  | cons f l ih =>
    obtain ⟨hf, hl⟩ := List.forall_mem_cons.1 h
    rw [List.foldl_cons, tackFld, if_neg hf, ih hl]

/-- Among fields that begin at different bits, an `ST` field that a write covers holds the bits written: no later field
has its key. -/
theorem tacked_tackFlds {o wlo wn v : Nat} {l : List FDesc} (hl : l.Pairwise fun f g => f.lo ≠ g.lo) (st : Stage)
    {f : FDesc} (hf : f ∈ l) (hst : f.ty = .st) (h1 : wlo ≤ f.lo) (h2 : f.hi < wlo + wn) (h3 : f.lo ≤ f.hi) :
    Tacked (l.foldl (tackFld o wlo wn v) st) ⟨o, f.hi, f.lo⟩ (bits v (f.lo - wlo) (f.hi + 1 - f.lo)) := by
  induction l generalizing st with
  | nil => cases hf
  | cons g l ih =>
    obtain ⟨hg, hl⟩ := List.pairwise_cons.1 hl
    rcases List.mem_cons.1 hf with rfl | hf
    · have hlater : ∀ x ∈ l, x.ty = .st → Fld.key ⟨o, f.hi, f.lo⟩ ≠ Fld.key ⟨o, x.hi, x.lo⟩ := by
        intro x hx _ hk
        have := hg x hx
        simp only [Fld.key] at hk
        omega
      have hnow := tacked_tack_whole st ⟨o, f.hi, f.lo⟩ (bits v (f.lo - wlo) (f.hi + 1 - f.lo)) h3
        (Nat.mod_lt _ (Nat.two_pow_pos _))
      refine tacked_congr (kvGet?_tackFlds_other o wlo wn v l _ hlater) ?_
      rw [tackFld, if_pos hst, writePart_whole v h1 h2 h3]
      exact hnow
    · exact ih hl _ hf

theorem bits_mod_two_pow {v lo w n : Nat} (h : lo + w ≤ n) : bits (v % 2 ^ n) lo w = bits v lo w := by
  refine Nat.eq_of_testBit_eq fun i => ?_
  simp only [bits, Nat.testBit_mod_two_pow, Nat.testBit_div_two_pow]
  by_cases hi : i < w
  · simp [hi, show i + lo < n by omega]
  · simp [hi]

/-! ### Writes -/

theorem exec_regWrite (tile : Option Nat) (off : Nat) (wide : Bool) (v : W64) (s : State) :
    exec (.regWrite tile off wide v) s = execRegWrite tile off wide v s := rfl

/-- An aligned write that its space takes acts on the register that covers it. -/
theorem execRegWrite_of_regCover {tile : Option Nat} {off : Nat} {wide : Bool} {s : State} {b : Nat} {d : RDesc} (v : W64)
    (hal : off % (if wide then 8 else 4) = 0) (htake : s.takesWrite tile off = true)
    (hdbg : tile.isSome = true → s.debugOk = true) (hmsix : tile = none → ¬ (0x2000 ≤ off ∧ off ≤ 0x207F))
    (hc : regCover (regOff tile off) = some (b, d)) (hw : wide = true → d.width = 64) :
    execRegWrite tile off wide v s
      = .next (s.writeReg tile b d (8 * (regOff tile off - b)) (8 * if wide then 8 else 4)
          (if wide then v.toNat else v.toNat % 2 ^ 32)) := by
  have h1 : ¬ (tile.isSome && !s.debugOk) = true := by simpa using hdbg
  have h2 : ¬ (tile.isNone && inRange 0x2000 0x207F off) = true := by simpa [inRange] using hmsix
  have h3 : ¬ (wide && decide (d.width = 32)) = true := by
    simp only [Bool.and_eq_true, decide_eq_true_eq, not_and]
    intro hwide
    rw [hw hwide]
    decide
  simp only [execRegWrite, hal, htake, hc, if_neg h1, if_neg h2, if_neg h3, ne_eq, not_true_eq_false, if_false,
    Bool.not_true, Bool.false_eq_true]

theorem writeReg_bar_of_no_st {s : State} {b : Nat} {d : RDesc} (wlo wn v : Nat) (h : ∀ f ∈ d.flds, f.ty ≠ .st) :
    s.writeReg none b d wlo wn v = s := by
  rw [State.writeReg, if_pos (by simpa using h)]

/-- A write to a register of BAR0 whose stage is not frozen acts on the stage alone. -/
theorem writeReg_bar {s : State} {b : Nat} (d : RDesc) (wlo wn v : Nat) (hfr : s.frozen b = false) :
    s.writeReg none b d wlo wn v = { s with barStage := tackReg s.barStage b d wlo wn v } := by
  by_cases hall : (∀ f ∈ d.flds, f.ty ≠ .st)
  · rw [writeReg_bar_of_no_st _ _ _ hall, tackReg_eq_foldl, tackFlds_of_no_st _ _ _ _ _ hall]
  · rw [State.writeReg, if_neg (by simpa using hall), hfr, if_neg Bool.false_ne_true]

theorem barStage_only (s : State) (st : Stage) : Only [.barStage] s { s with barStage := st } := by
  intro p hp
  cases p
  case barStage => exact absurd (List.mem_singleton_self _) hp
  all_goals rfl

/-- A write to BAR0 tacks the `ST` fields that it covers and nothing else. -/
theorem regWrite_tacks (s : State) (off : Nat) (wide : Bool) (v : W64) (b : Nat) (d : RDesc)
    (hal : off % (if wide then 8 else 4) = 0) (htake : s.takesWrite none off = true)
    (hmsix : ¬ (0x2000 ≤ off ∧ off ≤ 0x207F)) (hc : regCover off = some (b, d)) (hw : wide = true → d.width = 64)
    (hfr : s.frozen b = false) :
    ∃ t, exec (.regWrite none off wide v) s = .next t ∧ Only [.barStage] s t
      ∧ (∀ f ∈ d.flds, f.ty = .st → 8 * (off - b) ≤ f.lo → f.hi < 8 * (off - b) + 8 * (if wide then 8 else 4) →
          f.lo ≤ f.hi →
          Tacked t.barStage ⟨b, f.hi, f.lo⟩ (bits v.toNat (f.lo - 8 * (off - b)) (f.hi + 1 - f.lo)))
      ∧ ∀ k : Nat, (∀ f ∈ d.flds, f.ty = .st → k ≠ Fld.key ⟨b, f.hi, f.lo⟩) →
          kvGet? t.barStage k = kvGet? s.barStage k := by
  have hrun := execRegWrite_of_regCover (tile := none) v hal htake nofun (fun _ => hmsix) hc hw
  rw [writeReg_bar _ _ _ _ hfr] at hrun
  refine ⟨_, (exec_regWrite ..).trans hrun, barStage_only s _, fun f hf hst h1 h2 h3 => ?_,
    fun k hk => kvGet?_tackFlds_other _ _ _ _ _ _ hk⟩
  have hv : bits (if wide then v.toNat else v.toNat % 2 ^ 32) (f.lo - 8 * (off - b)) (f.hi + 1 - f.lo)
      = bits v.toNat (f.lo - 8 * (off - b)) (f.hi + 1 - f.lo) := by
    cases wide with
    | true => rfl
    | false =>
      simp only [Bool.false_eq_true, if_false] at h2
      exact bits_mod_two_pow (by omega)
  rw [← hv]
  exact tacked_tackFlds (flds_lo_pairwise (mem_regTable_of_regCover hc)) s.barStage hf hst h1 h2 h3

/-- A debug write to the space of a tile tacks the `ST` fields that it covers. -/
theorem regWrite_tile_tacks (s : State) (n off : Nat) (wide : Bool) (v : W64) (b : Nat) (d : RDesc)
    (hal : off % (if wide then 8 else 4) = 0) (htake : s.takesWrite (some n) off = true) (hdbg : s.debugOk = true)
    (hc : regCover (tileSpace + off) = some (b, d)) (hw : wide = true → d.width = 64) (hfr : (s.tile n).frozen = false)
    (hcap : b = tileSpace + 0x740 → predCap n = true) (hst : (d.flds.any fun f => f.ty = .st) = true) :
    let w := if wide then v.toNat else v.toNat % 2 ^ 32
    let wn := 8 * if wide then 8 else 4
    exec (.regWrite (some n) off wide v) s
      = .next (s.onTile n fun x => { x with stage := tackReg x.stage b d (8 * (tileSpace + off - b)) wn w }) := by
  intro w wn
  have h1 : ¬ (d.flds.all fun f => f.ty ≠ .st) = true := by simpa using hst
  have h2 : ¬ (b = tileSpace + 0x740 ∧ predCap n = false) := by
    rintro ⟨hb, hp⟩
    exact absurd (hcap hb) (by simp [hp])
  rw [exec_regWrite, execRegWrite_of_regCover (tile := some n) v hal htake (fun _ => hdbg) nofun hc hw]
  simp only [State.writeReg, if_neg h1, if_neg h2, hfr, if_neg Bool.false_ne_true]
  rfl

/-- A write to an offset where no `ST` field lies is ignored (spec/00_scope.md R10, R13). -/
theorem regWrite_ignored (s : State) (off : Nat) (wide : Bool) (v : W64) (hmsix : ¬ (0x2000 ≤ off ∧ off ≤ 0x207F))
    (h : ∀ b d, regCover off = some (b, d) → ∀ f ∈ d.flds, f.ty ≠ .st) : exec (.regWrite none off wide v) s = .next s := by
  have hm : ¬ (inRange 0x2000 0x207F off) = true := by simpa [inRange] using hmsix
  rw [exec_regWrite]
  cases hc : regCover off with
  | none => simp [execRegWrite, regOff, hm, hc, go]
  | some p =>
    obtain ⟨b, d⟩ := p
    have hwr (wlo wn n : Nat) : s.writeReg none b d wlo wn n = s := writeReg_bar_of_no_st wlo wn n (h b d hc)
    simp [execRegWrite, regOff, hm, hc, hwr, go]

/-- A 32-bit write to the data word of an MSI-X vector stores it (log entry 6). -/
theorem regWrite_msixData (s : State) (k : Nat) (v : W64) (hk : k < 8) (htake : s.takesWrite none (0x2008 + 16 * k) = true) :
    exec (.regWrite none (0x2008 + 16 * k) false v) s
      = .next { s with tape := { s.tape with msixData := kvSet s.tape.msixData k (v.toNat % 2 ^ 32) } } := by
  have hal : (0x2008 + 16 * k) % 4 = 0 := by omega
  have hin : inRange 0x2000 0x207F (0x2008 + 16 * k) = true := by simp [inRange]; omega
  have h8 : (0x2008 + 16 * k - 0x2000) % 16 = 8 := by omega
  have hv : (0x2008 + 16 * k - 0x2000) / 16 = k := by omega
  rw [exec_regWrite]
  simp [execRegWrite, hal, htake, hin, State.msixWrite, h8, hv, go]

/-! ### Reads (spec/00_scope.md R10, R11, R13, spec/02_numerics.md R72) -/

theorem exec_lowerWordLatchRead (tile : Option Nat) (off : Nat) (s : State) :
    exec (.lowerWordLatchRead tile off) s = .next (s.hostRead tile off false) := rfl

theorem exec_upperWordRead (tile : Option Nat) (off : Nat) (s : State) :
    exec (.upperWordRead tile off) s = .next (s.hostRead tile off false) := rfl

theorem exec_counterRead (tile : Option Nat) (off : Nat) (wide : Bool) (s : State) :
    exec (.counterRead tile off wide) s = .next (s.hostRead tile off wide) := rfl

/-- A 32-bit read of BAR0 that meets R8 presents the word and leaves the state that the read leaves. -/
theorem hostRead_word {s : State} {off : Nat} (hr : s.readable none off = true) (h8 : breaksR8 off 4 = false) :
    s.hostRead none off false = (s.readWord none off).2.emit (.regRead off (s.readWord none off).1) := by
  simp [State.hostRead, hr, regOff, h8]

/-- A 64-bit read of BAR0 that meets R8 presents both words and leaves the state that the read leaves. -/
theorem hostRead_wide {s : State} {off : Nat} (hr : s.readable none off = true) (h8 : breaksR8 off 8 = false) :
    s.hostRead none off true = (s.readWide none off).2.emit (.regRead off (s.readWide none off).1) := by
  simp [State.hostRead, hr, regOff, h8]

/-- The lower word of a 64-bit register: the upper word is latched, a counter is cleared. -/
theorem readWord_lower (s : State) {off : Nat} {d : RDesc} (ha : regAt off = some d) (hw : d.width = 64) :
    s.readWord none off = (s.showReg none off d % 2 ^ 32,
      let t := { s with barLatch := kvSet s.barLatch off (s.showReg none off d / 2 ^ 32) }
      if d.isRc then t.set ⟨off, 63, 0⟩ 0 else t) := by
  simp [State.readWord, regOff, ha, hw, State.setLatch, State.clearRc]

theorem readWord_narrow (s : State) {off : Nat} {d : RDesc} (ha : regAt off = some d) (hw : d.width = 32) :
    s.readWord none off = (s.showReg none off d, s) := by
  simp [State.readWord, regOff, ha, hw]

/-- An upper word whose latch holds a value: the value is presented and the latch discarded. -/
theorem readWord_upper_latched {s : State} {o v : Nat} {d : RDesc} (hc : regCover (o + 4) = some (o, d))
    (hl : kvGet? s.barLatch o = some v) :
    s.readWord none (o + 4) = (v, { s with barLatch := kvErase s.barLatch o }) := by
  simp [State.readWord, regOff, regAt_upper_eq_none hc, hc, State.latch, State.setLatch, hl]

/-- An upper word with no latched value is read live. -/
theorem readWord_upper_live {s : State} {o : Nat} {d : RDesc} (hc : regCover (o + 4) = some (o, d))
    (hl : kvGet? s.barLatch o = none) : s.readWord none (o + 4) = (s.showReg none o d / 2 ^ 32, s) := by
  simp [State.readWord, regOff, regAt_upper_eq_none hc, hc, State.latch, hl]

theorem readWord_no_register (s : State) {off : Nat} (hc : regCover off = none) :
    s.readWord none off = (s.tape.msixWord off, s) := by
  simp [State.readWord, regOff, regAt_eq_none_of_regCover hc, hc]

/-- Both words of a register: a pending latch is discarded, a counter cleared. -/
theorem readWide_register (s : State) {off : Nat} {d : RDesc} (ha : regAt off = some d) :
    s.readWide none off = (s.showReg none off d,
      let t := { s with barLatch := kvErase s.barLatch off }
      if d.isRc then t.set ⟨off, 63, 0⟩ 0 else t) := by
  simp [State.readWide, regOff, ha, State.setLatch, State.clearRc]

theorem msixWord_elsewhere (t : Tape) {off : Nat} (h : ¬ (0x2000 ≤ off ∧ off ≤ 0x207F)) (h' : off ≠ 0x3000) :
    t.msixWord off = 0 := by
  have hin : inRange 0x2000 0x207F off = false := by simpa [inRange] using h
  simp [Tape.msixWord, h', hin]

theorem msixWord_data (t : Tape) {k : Nat} (hk : k < 8) : t.msixWord (0x2008 + 16 * k) = kvGet 0 t.msixData k := by
  have hin : inRange 0x2000 0x207F (0x2008 + 16 * k) = true := by simp [inRange]; omega
  have h0 : 0x2008 + 16 * k ≠ 0x3000 := by omega
  have h8 : (0x2008 + 16 * k) % 16 = 8 := by omega
  have hv : (0x2008 + 16 * k - 0x2000) / 16 = k := by omega
  simp [Tape.msixWord, hin, h0, h8, hv]

/-- A 32-bit access to a multiple of four meets R8. -/
theorem breaksR8_word {off : Nat} (h : off % 4 = 0) : breaksR8 off 4 = false := by
  simp [breaksR8, h]

/-! ### Bits cleared by writing 1 (spec/00_scope.md R13) -/

theorem exec_w1cClear (tile : Option Nat) (off : Nat) (v set : W32) (s : State) :
    exec (.w1cClear tile off v set) s = execW1cClear tile off v set s := rfl

/-- Setting a field depends on the value's bits within the field only. -/
theorem set_eq_of_mod_eq (s : State) {f : Fld} {v w : Nat} (h : v % 2 ^ f.width = w % 2 ^ f.width) : s.set f v = s.set f w := by
  simp only [State.set, rfSet, h]

theorem w1c_mod_two_pow (old clr u n : Nat) : w1c old clr u % 2 ^ n = w1c (old % 2 ^ n) (clr % 2 ^ n) (u % 2 ^ n) := by
  change (old ^^^ (old &&& clr) ||| u) % 2 ^ n = _
  rw [Nat.or_mod_two_pow, Nat.xor_mod_two_pow, Nat.and_mod_two_pow]
  rfl

/-- The table of one bit: set when the module sets it, else kept unless 1 was written. -/
theorem w1c_table : ∀ old < 2, ∀ clr < 2, ∀ u < 2,
    w1c old clr u = b2n (decide (u = 1) || (decide (old = 1) && !decide (clr = 1))) := by decide

theorem w1c_bit (old v u k : Nat) :
    w1c old (bits v k 1) (bits u k 1) % 2 ^ 1 = b2n (bit u k || (bit old 0 && !bit v k)) % 2 ^ 1 := by
  have hlt (x j : Nat) : bits x j 1 < 2 := Nat.mod_lt _ (by decide)
  have hold : old % 2 ^ 1 = bits old 0 1 := by simp [bits]
  have hbits (x j : Nat) : bits x j 1 % 2 ^ 1 = bits x j 1 := Nat.mod_eq_of_lt (hlt x j)
  calc w1c old (bits v k 1) (bits u k 1) % 2 ^ 1
      = w1c (bits old 0 1) (bits v k 1) (bits u k 1) := by rw [w1c_mod_two_pow, hold, hbits, hbits]
    _ = b2n (bit u k || (bit old 0 && !bit v k)) := w1c_table _ (hlt old 0) _ (hlt v k) _ (hlt u k)
    _ = b2n (bit u k || (bit old 0 && !bit v k)) % 2 ^ 1 := by
      cases bit u k || (bit old 0 && !bit v k) <;> rfl

/-- `W1C_CLEAR` of a register of BAR0 acts on the register at the offset. -/
theorem execW1cClear_bar {s : State} {off : Nat} {d : RDesc} (v set : W32) (ht : s.takesWrite none off = true)
    (ha : regAt off = some d) : execW1cClear none off v set s = .next (s.clearW1c none off d v.toNat set.toNat) := by
  simp [execW1cClear, ht, regOff, ha, go]

/-- A register whose only `W1C` field is one bit that no other state determines. -/
theorem clearW1c_bit {s : State} {off k : Nat} {d : RDesc} (v u : Nat)
    (hf : (d.flds.filter fun f => f.ty = .w1c) = [⟨k, k, .w1c, 0⟩]) (hd : s.derived ⟨off, k, k⟩ = none) :
    s.clearW1c none off d v u = s.set ⟨off, k, k⟩ (b2n (bit u k || (bit (s.get ⟨off, k, k⟩) 0 && !bit v k))) := by
  have hw : Fld.width ⟨off, k, k⟩ = 1 := by simp [Fld.width]
  simp only [State.clearW1c, hf, List.foldl_cons, List.foldl_nil, State.showField, hd, Option.getD_none, hw]
  exact set_eq_of_mod_eq _ (by rw [hw]; exact w1c_bit _ _ _ _)

/-- The `W1C` bit of `SEAM_GSTATUS`. -/
theorem w1cClear_suspect (s : State) (v set : W32) (ht : s.takesWrite none 0x20818 = true) :
    exec (.w1cClear none 0x20818 v set) s
      = .next (s.set R.SEAM_GSTATUS_SUSPECT
          (b2n (bit set.toNat 1 || (bit (s.get R.SEAM_GSTATUS_SUSPECT) 0 && !bit v.toNat 1)))) := by
  have ha : regAt 0x20818 = some ⟨0x20818, 1, 0x0, 1, 0x0, 32, [⟨1, 1, .w1c, 0⟩, ⟨0, 0, .ro, 0⟩]⟩ := by decide
  rw [exec_w1cClear, execW1cClear_bar v set ht ha, clearW1c_bit (k := 1) v.toNat set.toNat (by decide) rfl]
  rfl

/-- The `W1C` bit of `PRS_STATUS`. -/
theorem w1cClear_uwHold (s : State) (v set : W32) (ht : s.takesWrite none 0x30030 = true) :
    exec (.w1cClear none 0x30030 v set) s
      = .next (s.set R.PRS_STATUS_UW_HOLD
          (b2n (bit set.toNat 3 || (bit (s.get R.PRS_STATUS_UW_HOLD) 0 && !bit v.toNat 3)))) := by
  have ha : regAt 0x30030 = some ⟨0x30030, 1, 0x0, 1, 0x0, 32,
      [⟨6, 6, .ro, 0⟩, ⟨5, 4, .ro, 0⟩, ⟨3, 3, .w1c, 0⟩, ⟨2, 0, .ro, 0⟩]⟩ := by decide
  rw [exec_w1cClear, execW1cClear_bar v set ht ha, clearW1c_bit (k := 3) v.toNat set.toNat (by decide) rfl]
  rfl

/-! ### The obligations -/

/-- Settles O2: a register file of the reset state is empty, so that each field reads its own row's Reset value, found
because the tables name each register once and the fields of a register begin at different bits. -/
theorem resetLeavesEveryFieldAtItsResetValue : Obligations.ResetLeavesEveryFieldAtItsResetValue := by
  have hget : ∀ d ∈ regTable, ∀ off : Nat, (d.find off).isSome = true → ∀ f ∈ d.flds,
      rfGet [] ⟨off, f.hi, f.lo⟩ = f.rst := fun _ hd _ h _ hf => resetOf_of_find hd h hf
  exact ⟨hget, fun d hd off h f hf _ => hget d hd off h f hf, rfl, rfl, rfl, rfl, rfl, rfl, rfl, rfl, rfl, rfl⟩

/-- Settles O4: a write tacks the `ST` fields that it covers, since no two fields of a register share a key; a read is one
of the cases of `readWord` and `readWide`; a write to a `W1C` bit is decided bit by bit. -/
theorem registerAccessesActByFieldType : Obligations.RegisterAccessesActByFieldType := by
  refine ⟨regWrite_tacks, regWrite_tile_tacks, regWrite_ignored, regWrite_msixData, ?lower, ?upperLatched, ?upperLive,
    ?narrow, ?noRegister, ?msixData, ?counter, w1cClear_suspect, w1cClear_uwHold⟩
  case lower =>
    intro s off d hr ha hw hrc
    refine ⟨fun h8 => ?_, fun h8 => ?_⟩
    · rw [exec_lowerWordLatchRead, hostRead_word hr h8, readWord_lower s ha hw, hrc]
      rfl
    · rw [exec_counterRead, hostRead_wide hr h8, readWide_register s ha, hrc]
      rfl
  case upperLatched =>
    intro s o d v hr hc _ h8 hl
    rw [exec_upperWordRead, hostRead_word hr h8, readWord_upper_latched hc hl]
  case upperLive =>
    intro s o d hr hc _ h8 hl
    rw [exec_upperWordRead, hostRead_word hr h8, readWord_upper_live hc hl]
  case narrow =>
    intro s off d hr ha hw h8 _
    rw [exec_lowerWordLatchRead, hostRead_word hr h8, readWord_narrow s ha hw]
  case noRegister =>
    intro s off hr hc hmsix hpba h8
    rw [exec_lowerWordLatchRead, hostRead_word hr h8, readWord_no_register s hc, msixWord_elsewhere _ hmsix hpba]
  case msixData =>
    intro s k hk hr
    rw [exec_lowerWordLatchRead, hostRead_word hr (breaksR8_word (by omega)),
      readWord_no_register s (regCover_msixData k hk), msixWord_data _ hk]
  case counter =>
    intro s off d hr ha hw hrc
    refine ⟨fun h8 => ?_, fun h8 => ?_⟩
    · rw [exec_counterRead, hostRead_wide hr h8, readWide_register s ha, hrc]
      rfl
    · rw [exec_counterRead, hostRead_word hr h8, readWord_lower s ha hw, hrc]
      rfl

/-- Settles O3: the check of R8 is met, and both branches of the meaning then record the fault. -/
theorem misalignedAccessesAreDiscarded : Obligations.MisalignedAccessesAreDiscarded := by
  refine ⟨by decide, fun off size v s h => ?_⟩
  have hb : breaksR8 off size = true := (breaksR8_iff off size).2 h
  constructor <;> simp [exec_regAccessMisaligned, execRegAccessMisaligned, hb, go]

/-- Settles O52: the byte memories of the reset state are empty or absent, and an empty memory is canonical. -/
theorem resetMeetsTheInvariants : Obligations.ResetMeetsTheInvariants := by
  have hc : Canonical State.reset :=
    ⟨rfl, rfl, fun _ he => absurd he List.not_mem_nil, fun _ hm => absurd hm (Option.some_ne_none _).symm⟩
  exact ⟨by decide, by decide, hc, rfl, rfl, rfl, rfl⟩

end Sys2Proof.Machine
end

section
/-! PROOFS. Commits of a tile: what is checked, applied, held and refused (spec/03_compute_tile.md R75, R76, R100, R104). -/

namespace Sys2Proof.Machine

/-! ### Folds, read at one place -/

/-- What a fold leaves at one place, where each step that names the place puts one value there and no other step
touches it. -/
theorem foldl_read_of_step {σ β : Type} {read : σ → β} {step : σ → Nat → σ} {v : β} {k : Nat} {p : Prop} [Decidable p]
    (h : ∀ m c, read (step m c) = if c = k ∧ p then v else read m) (l : List Nat) (m : σ) :
    read (l.foldl step m) = if k ∈ l ∧ p then v else read m := by
  induction l generalizing m with
  | nil => simp
  | cons c l ih =>
    rw [List.foldl_cons, ih, h]
    by_cases hc : c = k
    · subst hc
      by_cases hp : p <;> simp [hp]
    · simp [hc, Ne.symm hc]

/-- A table after some keys of a list have been given values. -/
theorem kvGet?_foldl_kvSet {α : Type} (p : Nat → Bool) (g : Nat → α) (l : List Nat) (m : Kv α) (k : Nat) :
    kvGet? (l.foldl (fun m c => if p c then kvSet m c (g c) else m) m) k
      = if k ∈ l ∧ p k = true then some (g k) else kvGet? m k := by
  refine foldl_read_of_step (read := fun m => kvGet? m k) (fun m c => ?_) l m
  by_cases hc : c = k
  · subst hc
    by_cases hp : p c <;> simp [hp]
  · by_cases hp : p c <;> simp [hp, hc, kvGet?_kvSet_other _ _ (Ne.symm hc)]

/-- A byte outside a range filled with zeros is unchanged. -/
theorem memRead_memZero_out (m : Memory) {lo hi a : Nat} (h : ¬ (lo ≤ a ∧ a < hi)) :
    memRead (memZero m lo hi) a = memRead m a := by
  have hget : kvGet? (memZero m lo hi) a = kvGet? m a := by
    induction m with
    | nil => rfl
    | cons e t ih =>
      obtain ⟨j, b⟩ := e
      by_cases hj : j < lo ∨ hi ≤ j
      · rw [memZero, List.filter_cons_of_pos (by simpa using hj)]
        simp only [kvGet?]
        rw [← ih, memZero]
      · rw [memZero, List.filter_cons_of_neg (by simpa using hj), ← memZero, ih, kvGet?, if_neg (by omega)]
  simp [memRead, kvGet, hget]

/-! ### The registers and banks that a commit leaves (spec/03_compute_tile.md R75, R76, R100, R104) -/

theorem kvGet?_eq_none_iff {α : Type} (m : Kv α) (k : Nat) : kvGet? m k = none ↔ k ∉ m.map Prod.fst := by
  induction m with
  | nil => simp [kvGet?]
  | cons e t ih =>
    obtain ⟨j, v⟩ := e
    by_cases h : k = j <;> simp [kvGet?, h, ih]

/-- A staged field that is not tacked keeps its value. -/
theorem staged_of_not_mem (rf : RegFile) {st : Stage} {f : Fld} (h : f.key ∉ st.map Prod.fst) :
    staged rf st f = rfGet rf f := by
  simp [staged, (kvGet?_eq_none_iff st f.key).2 h]

theorem key_div_mod (f : Fld) (h : f.lo < 64) : keyOff f.key = f.off ∧ f.key % 64 = f.lo := by
  unfold keyOff Fld.key
  omega

/-- A stage applied puts in force, field by field, what is staged. -/
theorem rfGet_applyStage (rf : RegFile) (st : Stage) {f : Fld} (h : f.lo < 64) :
    rfGet (applyStage rf st fun _ => true) f = staged rf st f := by
  have hget : kvGet? (applyStage rf st fun _ => true) f.key
      = if f.key ∈ st.map Prod.fst then some (staged rf st ⟨keyOff f.key, 63, f.key % 64⟩) else kvGet? rf f.key := by
    have h := kvGet?_foldl_kvSet (fun _ => true) (fun c => staged rf st ⟨keyOff c, 63, c % 64⟩) (st.map Prod.fst) rf f.key
    rw [List.foldl_map] at h
    simp only [and_true, if_true] at h
    exact h
  obtain ⟨hoff, hlo⟩ := key_div_mod f h
  by_cases hm : f.key ∈ st.map Prod.fst
  · rw [rfGet, hget, if_pos hm, hoff, hlo]
    rfl
  · rw [staged_of_not_mem rf hm, rfGet, hget, if_neg hm]
    rfl

/-- A ring emptied. -/
def emptyRing (rf : RegFile) (r : Nat) : RegFile := rfSet (rfSet rf (T.RING_STAT_HEAD r) 0) (T.RING_STAT_TAIL r) 0

/-- The rings of a register file that satisfy `p` emptied. -/
def emptyRings (p : Nat → Bool) (rf : RegFile) : RegFile :=
  (List.range 16).foldl (fun rf r => if p r then emptyRing rf r else rf) rf

theorem applyCommit_regs (x : Tile) : x.applyCommit.regs
    = emptyRings (fun r => commitChanges x.regs x.stage (0x40 + 0x10 * r)) (applyStage x.regs x.stage fun _ => true) := rfl

theorem ringStat_key_ne {r : Nat} {f : Fld} (hlo : f.lo < 64) (h : f.off ≠ (T.RING_STAT_HEAD r).off) :
    f.key ≠ (T.RING_STAT_HEAD r).key ∧ f.key ≠ (T.RING_STAT_TAIL r).key := by
  simp only [Fld.key, T.RING_STAT_HEAD, T.RING_STAT_TAIL] at h ⊢
  omega

/-- Emptying a ring changes its two positions only. -/
theorem rfGet_emptyRing_other (rf : RegFile) {r : Nat} {f : Fld} (hlo : f.lo < 64) (h : f.off ≠ (T.RING_STAT_HEAD r).off) :
    rfGet (emptyRing rf r) f = rfGet rf f := by
  obtain ⟨hh, ht⟩ := ringStat_key_ne hlo h
  rw [emptyRing, rfGet_rfSet_other _ _ _ _ ht, rfGet_rfSet_other _ _ _ _ hh]

theorem rfGet_emptyRing_same (rf : RegFile) (r : Nat) :
    rfGet (emptyRing rf r) (T.RING_STAT_HEAD r) = 0 ∧ rfGet (emptyRing rf r) (T.RING_STAT_TAIL r) = 0 := by
  refine ⟨?_, by simp [emptyRing]⟩
  rw [emptyRing, rfGet_rfSet_other]
  · simp
  · simp [Fld.key, T.RING_STAT_HEAD, T.RING_STAT_TAIL]

theorem rfGet_emptyRings_other (p : Nat → Bool) (rf : RegFile) {f : Fld} (hlo : f.lo < 64)
    (h : ∀ r, r < 16 → f.off ≠ (T.RING_STAT_HEAD r).off) : rfGet (emptyRings p rf) f = rfGet rf f := by
  refine List.foldlRecOn (motive := fun rf' => rfGet rf' f = rfGet rf f) _ _ rfl fun rf' ih r hr => ?_
  by_cases hp : p r
  · rw [if_pos hp, rfGet_emptyRing_other _ hlo (h r (List.mem_range.1 hr)), ih]
  · rw [if_neg hp, ih]

/-- A ring that satisfies `p` reads both positions zero: no later ring shares its register. -/
theorem rfGet_emptyRings_same {p : Nat → Bool} (rf : RegFile) {r : Nat} (hr : r < 16) (hp : p r = true) {f : Fld}
    (hf : f = T.RING_STAT_HEAD r ∨ f = T.RING_STAT_TAIL r) : rfGet (emptyRings p rf) f = 0 := by
  have hstep (rf : RegFile) (c : Nat) : rfGet (if p c then emptyRing rf c else rf) f
      = if c = r ∧ p r = true then 0 else rfGet rf f := by
    by_cases hc : c = r
    · subst hc
      rcases hf with rfl | rfl <;> simp [hp, rfGet_emptyRing_same]
    · have hoff : f.off ≠ (T.RING_STAT_HEAD c).off := by
        rcases hf with rfl | rfl <;> simp only [T.RING_STAT_HEAD, T.RING_STAT_TAIL] <;> omega
      have hlo : f.lo < 64 := by
        rcases hf with rfl | rfl <;> simp [T.RING_STAT_HEAD, T.RING_STAT_TAIL]
      by_cases hpc : p c <;> simp [hpc, hc, rfGet_emptyRing_other _ hlo hoff]
  have := foldl_read_of_step (read := fun rf => rfGet rf f) hstep (List.range 16) rf
  rwa [if_pos ⟨List.mem_range.2 hr, hp⟩] at this

/-- A byte of a bank that is filled with zeros reads zero. -/
theorem memRead_fillBanks (x : Tile) {bs : List Nat} {b a : Nat} (hb : b ∈ bs) (h1 : b * 0x8000 ≤ a)
    (h2 : a < (b + 1) * 0x8000) : memRead (x.fillBanks bs).spad a = 0 := by
  have hstep (m : Memory) (c : Nat) : memRead (memZero m (c * 0x8000) ((c + 1) * 0x8000)) a
      = if c = b ∧ True then 0 else memRead m a := by
    by_cases hc : c = b
    · subst hc
      simp [memRead_memZero_in m _ _ a ⟨h1, h2⟩]
    · rw [memRead_memZero_out m (by omega)]
      simp [hc]
  have := foldl_read_of_step (read := fun m => memRead m a) hstep bs x.spad
  rwa [if_pos ⟨hb, trivial⟩] at this

theorem mem_bankClassChanges {rf rf' : RegFile} {b : Nat} (hb : b < 8) (h : bankW rf b ≠ bankW rf' b) :
    b ∈ bankClassChanges rf rf' := by
  simpa [bankClassChanges, hb] using h

/-- A bank whose class a commit changes is being filled, with zeros in place. -/
theorem applyCommit_fills (x : Tile) {b : Nat} (hb : b < 8)
    (h : bankW x.regs b ≠ bankW (applyStage x.regs x.stage fun _ => true) b) :
    x.applyCommit.filling.contains b = true
      ∧ ∀ a, b * 0x8000 ≤ a → a < (b + 1) * 0x8000 → memRead x.applyCommit.spad a = 0 := by
  have hm := mem_bankClassChanges hb h
  refine ⟨?_, fun a h1 h2 => memRead_fillBanks x hm h1 h2⟩
  rw [List.contains_iff_mem]
  exact List.mem_dedup.2 (List.mem_append_right _ hm)

/-- A channel as its register starts it: tag 0, its credits and a full bucket. -/
def freshOch (rf : RegFile) (c : Nat) : Och := { credits := rfGet rf (T.OCH_CRED c), bucket := rfGet rf (T.OCH_BURST c) }

/-- A channel whose register a commit changes starts afresh. -/
theorem applyCommit_och (x : Tile) {c : Nat} (hc : c < 32) (h : commitChanges x.regs x.stage (chOff c) = true) :
    x.applyCommit.och c = freshOch (applyStage x.regs x.stage fun _ => true) c := by
  have hget : kvGet? x.applyCommit.ochs c = _ :=
    kvGet?_foldl_kvSet (fun c => commitChanges x.regs x.stage (chOff c))
      (freshOch (applyStage x.regs x.stage fun _ => true)) (List.range 32) x.ochs c
  rw [if_pos ⟨List.mem_range.2 hc, h⟩] at hget
  rw [Tile.och, kvGet, hget]
  rfl

/-! ### The commands of a tile commit -/

theorem exec_tileCommit (k : Nat) (v : W32) (s : State) : exec (.tileCommit k v) s = execTileCommit k v s := rfl
theorem exec_tileCommitApply (k : Nat) (s : State) : exec (.tileCommitApply k) s = execTileCommitApply k s := rfl
theorem exec_tileCommitWait (k : Nat) (s : State) : exec (.tileCommitWait k) s = execTileCommitWait k s := rfl
theorem exec_bankFillDone (k b : Nat) (s : State) : exec (.bankFillDone k b) s = execBankFillDone k b s := rfl

/-- The check of what a tile's stage would put in force. -/
def Tile.stageCheck (x : Tile) (k : Nat) : Fail := tileCheck k x.regs x.stage (applyStage x.regs x.stage fun _ => true)

theorem checkTileCommit_pass {s : State} {k : Nat} (f : Tile → Tile) (h : (s.tile k).stageCheck k = none) :
    s.checkTileCommit k f = s.setTile k (f (s.tile k)) := by
  simp only [State.checkTileCommit]
  rw [Tile.stageCheck] at h
  rw [h]

theorem checkTileCommit_fail {s : State} {k : Nat} (f : Tile → Tile) {e : Nat × Nat}
    (h : (s.tile k).stageCheck k = some e) : s.checkTileCommit k f = s.refuseTileCommit k e.1 e.2 := by
  simp only [State.checkTileCommit]
  rw [Tile.stageCheck] at h
  rw [h]

/-- By debug access the write of 1 reaches the commit of the tile. -/
theorem exec_tileCommit_of_access {s : State} {k : Nat} {v : W32} (hk : k < nTiles) (hv : bit v.toNat 0 = true)
    (hw : s.takesWrite (some k) 0x18 = true) (hd : s.debugOk = true) :
    exec (.tileCommit k v) s = .next (s.commitTile k) := by
  simp [exec_tileCommit, execTileCommit, hk, hv, hw, hd, go]

theorem commitTile_frozen {s : State} {k : Nat} (h : (s.tile k).frozen = true) :
    s.commitTile k = s.raise Code.PAT_TACK_BUSY k 0 0x18 := by
  simp [State.commitTile, h]

/-- A stage that is free and not empty is checked, and applied or held. -/
theorem commitTile_checks {s : State} {k : Nat} (hf : (s.tile k).frozen = false) (hs : (s.tile k).stage ≠ []) :
    s.commitTile k
      = s.checkTileCommit k fun x => if x.mustHold then { x with commitHeld := true } else x.applyCommit := by
  simp [State.commitTile, hf, hs]

theorem exec_tileCommitApply_checks {s : State} {k : Nat} (hh : (s.tile k).commitHeld = true)
    (hm : (s.tile k).mustHold = false) : exec (.tileCommitApply k) s = .next (s.checkTileCommit k Tile.applyCommit) := by
  simp [exec_tileCommitApply, execTileCommitApply, hh, hm, go]

theorem exec_tileCommitWait_refuses {s : State} {k : Nat} (hh : (s.tile k).commitHeld = true) :
    exec (.tileCommitWait k) s = .next (s.refuseTileCommit k Code.TILE_COMMIT_WAIT 0x18) := by
  simp [exec_tileCommitWait, execTileCommitWait, hh, go]

/-- Putting a tile back leaves every other tile and every other part of the state. -/
theorem setTile_onlyTile (s : State) (k : Nat) (x : Tile) : OnlyTile k s (s.setTile k x) :=
  ⟨s.onTile_only k fun _ => x, fun j hj => s.tile_setTile_other k j x hj⟩

/-- Settles O8: a commit by debug access is one check of the stage; applying is read at one field, ring, bank or channel,
which only the stage's own entry or that one ring, bank or channel touches. -/
theorem tileCommitsApplyHoldOrRefuse : Obligations.TileCommitsApplyHoldOrRefuse := by
  refine ⟨?commit, ?heldApplies, fun k s hh => exec_tileCommitWait_refuses hh, ?applied, ?filled⟩
  case commit =>
    intro k v s hk hv hw hd
    dsimp only
    rw [exec_tileCommit_of_access hk hv hw hd]
    refine ⟨fun hf => by rw [commitTile_frozen hf], fun hf hs hc hm => ?_, fun hf hs hc hm => ?_, fun e hf hs hc => ?_⟩
    · rw [commitTile_checks hf hs, checkTileCommit_pass _ hc, hm, if_neg Bool.false_ne_true]
    · rw [commitTile_checks hf hs, checkTileCommit_pass _ hc, hm, if_pos rfl]
    · rw [commitTile_checks hf hs, checkTileCommit_fail _ hc]
      rfl
  case heldApplies =>
    intro k s hh hm
    dsimp only
    rw [exec_tileCommitApply_checks hh hm]
    refine ⟨fun hc => by rw [checkTileCommit_pass _ hc], fun e hc => ?_⟩
    rw [checkTileCommit_fail _ hc]
    rfl
  case applied =>
    intro x
    refine ⟨rfl, rfl, fun f hlo hring => ?_, fun r hr hch => ?_, fun b hb h => applyCommit_fills x hb h,
      fun c hc hch => ?_⟩
    · rw [Tile.get, applyCommit_regs, rfGet_emptyRings_other _ _ hlo hring, rfGet_applyStage _ _ hlo]
    · simp only [Tile.get, applyCommit_regs]
      exact ⟨rfGet_emptyRings_same _ hr hch (.inl rfl), rfGet_emptyRings_same _ hr hch (.inr rfl)⟩
    · simp [applyCommit_och x hc hch, freshOch]
  case filled =>
    intro k b s h
    refine ⟨_, ?_, setTile_onlyTile s k _, State.tile_setTile_same s k _⟩
    simp only [exec_bankFillDone, execBankFillDone, h, if_true]
    rfl

end Sys2Proof.Machine
end

section
/-! PROOFS. Laws of a tile's registers and of its sequencer, and the control instructions (spec/03_compute_tile.md R77 to
R81, R92). -/

namespace Sys2Proof.Machine

/-! ### The registers of a tile -/

@[simp] theorem Tile.get_set_same (x : Tile) (f : Fld) (v : Nat) : (x.set f v).get f = v % 2 ^ f.width :=
  rfGet_rfSet_same _ _ _

theorem Tile.get_set_other (x : Tile) {f g : Fld} (v : Nat) (h : g.key ≠ f.key) : (x.set f v).get g = x.get g :=
  rfGet_rfSet_other _ _ _ _ h

/-- Fields of one register that begin at different bits are set apart. -/
theorem Tile.get_set_bits (x : Tile) (o hi hi' v : Nat) {lo lo' : Nat} (h : lo' ≠ lo) :
    (x.set ⟨o, hi, lo⟩ v).get ⟨o, hi', lo'⟩ = x.get ⟨o, hi', lo'⟩ :=
  x.get_set_other v fun hk => h (Nat.add_left_cancel hk)

theorem Tile.get_bump_other (x : Tile) {f g : Fld} (n : Nat) (h : g.key ≠ f.key) : (x.bump f n).get g = x.get g :=
  rfGet_rfCount_other _ _ _ _ h

@[simp] theorem Tile.bob_set (x : Tile) (f : Fld) (v b : Nat) : (x.set f v).bob b = x.bob b := rfl

@[simp] theorem Tile.bob_setBob_same (x : Tile) (b : Nat) (v : Bob) : (x.setBob b v).bob b = v := by
  by_cases h : b = 0 <;> simp [Tile.bob, Tile.setBob, h]

theorem Tile.setBob_frame (x : Tile) (b : Nat) (v : Bob) :
    (x.setBob b v).regs = x.regs ∧ (x.setBob b v).base = x.base ∧ (x.setBob b v).past = x.past
      ∧ (x.setBob b v).loops = x.loops := by
  by_cases h : b = 0 <;> simp [Tile.setBob, h]

/-! ### The next word (spec/03_compute_tile.md R80, R81) -/

/-- The loops that stay open and the index of the next word, for the word at `r` that would follow: at the word after a
loop's last its body starts again while iterations are left. -/
def loopNext : Nat → List LoopFrame → Nat → List LoopFrame × Nat
  | 0, l, r => (l, r)
  | _ + 1, [], r => ([], r)
  | k + 1, f :: l, r =>
    if r = f.last + 1 then if 1 < f.left then ({ f with left := f.left - 1 } :: l, f.start) else loopNext k l r
    else (f :: l, r)

theorem Tile.goTo_eq (k : Nat) (x : Tile) (r : Nat) :
    x.goTo k r = ({ x with loops := (loopNext k x.loops r).1 } : Tile).setPc (loopNext k x.loops r).2 := by
  induction k generalizing x with
  | zero => rfl
  | succ k ih =>
    rw [Tile.goTo]
    cases hl : x.loops with
    | nil => simp only [loopNext, ← hl]
    | cons f l =>
      simp only [loopNext]
      split
      · split
        · rfl
        · exact ih { x with loops := l }
      · simp only [← hl]

/-- The sequencer goes on: the loops, the index of the next word, and a program that waits on nothing. -/
theorem Tile.advance_eq (x : Tile) :
    x.advance = (({ x with loops := (loopNext 5 x.loops (x.rel + 1)).1 } : Tile).setPc
      (loopNext 5 x.loops (x.rel + 1)).2).running := by
  rw [Tile.advance, Tile.goTo_eq]

@[simp] theorem Tile.get_setPc (x : Tile) (r : Nat) : (x.setPc r).get T.TILE_STATUS_PC = (x.base + r) % 2048 :=
  (Tile.get_set_same _ _ _).trans (Nat.mod_mod _ _)

theorem Tile.get_running_other (x : Tile) {f : Fld} (h : f.key ≠ T.TILE_STATUS_STATE.key) : x.running.get f = x.get f :=
  Tile.get_set_other { x with progWait := none } 1 h

@[simp] theorem Tile.get_running_pc (x : Tile) : x.running.get T.TILE_STATUS_PC = x.get T.TILE_STATUS_PC :=
  x.get_running_other (by decide)

@[simp] theorem Tile.get_running_state (x : Tile) : x.running.get T.TILE_STATUS_STATE = 1 :=
  Tile.get_set_same { x with progWait := none } _ _

theorem Tile.get_advance_pc (x : Tile) :
    x.advance.get T.TILE_STATUS_PC = (x.base + (loopNext 5 x.loops (x.rel + 1)).2) % 2048 := by
  rw [Tile.advance_eq, Tile.get_running_pc, Tile.get_setPc]

@[simp] theorem Tile.get_advance_state (x : Tile) : x.advance.get T.TILE_STATUS_STATE = 1 := Tile.get_running_state _

theorem Tile.advance_loops (x : Tile) : x.advance.loops = (loopNext 5 x.loops (x.rel + 1)).1 := by
  rw [Tile.advance_eq]
  rfl

theorem Tile.advance_past (x : Tile) : x.advance.past = decide (2048 ≤ x.base + (loopNext 5 x.loops (x.rel + 1)).2) := by
  rw [Tile.advance_eq]
  rfl

theorem Tile.advance_frame (x : Tile) :
    x.advance.base = x.base ∧ x.advance.count = x.count ∧ x.advance.imem = x.imem := by
  rw [Tile.advance_eq]
  exact ⟨rfl, rfl, rfl⟩

@[simp] theorem Tile.bob_advance (x : Tile) (b : Nat) : x.advance.bob b = x.bob b := by
  rw [Tile.advance_eq]
  rfl

/-- Going on changes `PC` and the state of the sequencer and no other field. -/
theorem Tile.get_advance_other (x : Tile) {f : Fld} (hpc : f.key ≠ T.TILE_STATUS_PC.key)
    (hst : f.key ≠ T.TILE_STATUS_STATE.key) : x.advance.get f = x.get f := by
  rw [Tile.advance_eq, Tile.get_running_other _ hst]
  exact Tile.get_set_other _ _ hpc

/-- The next `PC` is decided by where the program lies, the open loops and the present `PC`. -/
theorem Tile.advance_pc_congr {x y : Tile} (hb : y.base = x.base) (hp : y.past = x.past) (hl : y.loops = x.loops)
    (hpc : y.get T.TILE_STATUS_PC = x.get T.TILE_STATUS_PC) :
    y.advance.get T.TILE_STATUS_PC = x.advance.get T.TILE_STATUS_PC := by
  rw [Tile.get_advance_pc, Tile.get_advance_pc, Tile.rel, Tile.rel, hb, hp, hl, hpc]

/-- Beyond the program's last word, `HALT` is next. -/
theorem Tile.advance_opcode_end {x : Tile} (hl : x.loops = []) (hc : x.count ≤ x.rel + 1) :
    x.advance.opcode = 0 := by
  obtain ⟨hbase, hcount, -⟩ := x.advance_frame
  have hpast : x.advance.past = decide (2048 ≤ x.base + (x.rel + 1)) := by rw [Tile.advance_past, hl]; rfl
  by_cases hp : 2048 ≤ x.base + (x.rel + 1)
  · simp [Tile.opcode, hpast, hp]
  · have hrel : x.advance.rel = x.rel + 1 := by
      have hpc : x.advance.get T.TILE_STATUS_PC = (x.base + (x.rel + 1)) % 2048 := by rw [Tile.get_advance_pc, hl]; rfl
      rw [Tile.rel, hpast, decide_eq_false hp, if_neg Bool.false_ne_true, hpc, hbase]
      omega
    simp [Tile.opcode, hrel, hcount, hc]

/-! ### A correctable fault, and the fetch of a word (spec/03_compute_tile.md R78, R81) -/

/-- A correctable fault is counted and recorded, and does nothing else (spec/15_faults_and_safe_state.md R464). -/
theorem raise_of_correctable (s : State) {c : Nat} (h : classOf c = .correctable) (n i a : Nat) :
    s.raise c n i a = (s.bump R.CORRECTABLE 1).hold ⟨c, 0, 0, s.unitGen n, n, i, a, false⟩ := by
  simp [State.raise, State.raiseAs, h, State.resolve, FClass.num, FClass.counter, b2n]

theorem raise_of_correctable_only (s : State) {c : Nat} (h : classOf c = .correctable) (n i a : Nat) :
    Only [.bar, .flt] s (s.raise c n i a) := by
  rw [raise_of_correctable s h]
  exact ((s.bump_only _ _).mono (by simp)).trans (State.hold_only _ _)

/-- The state after a corrected instruction word has been recorded. -/
def State.wordCorrected (s : State) (k : Nat) : State :=
  ((s.onTile k fun x => (x.set T.TILE_STATUS_SP_CORR 1).bump T.SP_CORR_CNT 1).bump (R.SP_CORR_CNT (panelOf k)) 1).tileFault
    Code.TILE_SP_CORR k 0

theorem issuing_corrected (s : State) (k : Nat) (f : State → State) :
    s.issuing k .corrected f = (s.wordCorrected k).issuing k .ok f := rfl

theorem issuing_uncorrectable (s : State) (k : Nat) (f : State → State) :
    s.issuing k .uncorrectable f = s.tileStop k Code.TILE_IMEM_UNCORR 0 := rfl

/-- Below the limit a good word does what it says. -/
theorem issuing_ok {s : State} {k : Nat} (h : (s.tile k).outstanding < 96) (f : State → State) : s.issuing k .ok f = f s :=
  if_pos h

/-- At the limit a good word waits. -/
theorem issuing_full {s : State} {k : Nat} (h : 96 ≤ (s.tile k).outstanding) (f : State → State) :
    s.issuing k .ok f = s.setTile k ((s.tile k).waits none) := if_neg (Nat.not_lt.2 h)

/-- A correctable fault of a tile leaves every tile as it is, and the fabric issues as before. -/
theorem tileFault_of_correctable (s : State) {c : Nat} (h : classOf c = .correctable) (k n : Nat) :
    (∀ j, (s.tileFault c k n).tile j = s.tile j) ∧ (s.tileFault c k n).issues = s.issues := by
  have hpart := raise_of_correctable_only s h k n ((s.tile k).get T.TILE_STATUS_PC)
  have htiles : (s.tileFault c k n).tiles = s.tiles := hpart .tiles (by decide)
  have hunpick : (s.tileFault c k n).unpick = s.unpick := hpart .unpick (by decide)
  have hsafe : (s.tileFault c k n).safe = s.safe := State.raiseAs_safe ..
  exact ⟨fun j => by rw [State.tile, htiles, State.tile], by rw [State.issues, State.issues, hunpick, hsafe]⟩

theorem wordCorrected_tile (s : State) (k : Nat) :
    (s.wordCorrected k).tile k = ((s.tile k).set T.TILE_STATUS_SP_CORR 1).bump T.SP_CORR_CNT 1 := by
  rw [State.wordCorrected, (tileFault_of_correctable _ (by decide) _ _).1, State.tile_bump, State.tile_onTile_same]

/-- A corrected word is still the word that the tile fetches. -/
theorem fetches_wordCorrected (s : State) (k op : Nat) : (s.wordCorrected k).fetches k op = s.fetches k op := by
  have hissues : (s.wordCorrected k).issues = s.issues := (tileFault_of_correctable _ (by decide) _ _).2
  have hget {f : Fld} (h1 : f.key ≠ T.TILE_STATUS_SP_CORR.key) (h2 : f.key ≠ T.SP_CORR_CNT.key) :
      ((s.wordCorrected k).tile k).get f = (s.tile k).get f := by
    rw [wordCorrected_tile, Tile.get_bump_other _ _ h2, Tile.get_set_other _ _ h1]
  have hrel : ((s.wordCorrected k).tile k).rel = (s.tile k).rel := by
    rw [Tile.rel, hget (by decide) (by decide), wordCorrected_tile]
    rfl
  have hop : ((s.wordCorrected k).tile k).opcode = (s.tile k).opcode := by
    rw [Tile.opcode, hrel, hget (by decide) (by decide), wordCorrected_tile]
    rfl
  rw [State.fetches, hissues, hop, hget (by decide) (by decide), wordCorrected_tile]
  rfl

theorem halted_wordCorrected (s : State) (k : Nat) : ((s.wordCorrected k).tile k).halted = (s.tile k).halted := by
  rw [wordCorrected_tile]
  rfl

/-- An instruction that issues a fixed effect: an uncorrectable word stops the tile, a corrected one is recorded and
issues. -/
theorem exec_word_errors {i : Ecc → Instr} {k op : Nat} {f : State → State}
    (hi : ∀ e s, s.fetches k op = true → (s.tile k).halted = false → exec (i e) s = .next (s.issuing k e f)) {s : State}
    (hf : s.fetches k op = true) (hh : (s.tile k).halted = false) :
    exec (i .uncorrectable) s = .next (s.tileStop k Code.TILE_IMEM_UNCORR 0)
      ∧ exec (i .corrected) s = exec (i .ok) (s.wordCorrected k) := by
  have hf' : (s.wordCorrected k).fetches k op = true := (fetches_wordCorrected s k op).trans hf
  have hh' : ((s.wordCorrected k).tile k).halted = false := (halted_wordCorrected s k).trans hh
  exact ⟨by rw [hi _ _ hf hh, issuing_uncorrectable], by rw [hi _ _ hf hh, hi _ _ hf' hh', issuing_corrected]⟩

/-- No instruction issues while 96 operations are outstanding. -/
theorem exec_full {i : Instr} {k : Nat} {s : State} {f : State → State} (hi : exec i s = .next (s.issuing k .ok f))
    (h : 96 ≤ (s.tile k).outstanding) : exec i s = .next (s.setTile k ((s.tile k).waits none)) := by
  rw [hi, issuing_full h]

/-- What an instruction does where fewer are outstanding. -/
theorem exec_issued {i : Instr} {k : Nat} {s : State} {f : State → State} (hi : exec i s = .next (s.issuing k .ok f))
    (h : (s.tile k).outstanding < 96) : exec i s = .next (f s) := by
  rw [hi, issuing_ok h]

/-! ### One equation per control instruction -/

section
variable {s : State} {k : Nat}

theorem exec_halt (e : Ecc) (hf : s.fetches k 0x00 = true) (hh : (s.tile k).halted = false) :
    exec (.halt k e) s = .next (s.issuing k e fun s =>
      if (s.tile k).outstanding = 0 && !(s.tile k).bastes then
        s.onTile k fun x => { x.running.set T.TILE_STATUS_STATE 0 with halted := true, loops := [] }
      else s) := by
  change execHalt k e s = _
  simp [execHalt, hf, hh]

theorem exec_nop (e : Ecc) (hf : s.fetches k 0x01 = true) :
    exec (.nop k e) s = .next (s.issuing k e fun s => s.onTile k Tile.advance) := if_pos hf

theorem exec_fence (e : Ecc) (us : List TUnit) (hf : s.fetches k 0x02 = true) :
    exec (.fence k e us) s = .next (s.issuing k e fun s =>
      if us.any (s.tile k).unitBusy then s else s.onTile k Tile.advance) := if_pos hf

/-- The count of a loop as fixed at its issue. -/
def Tile.loopCount (x : Tile) : LoopCount → Nat
  | .imm n => n
  | .dl r st => dlCount (x.dls.getD r 0) st

/-- A loop opened, or its body skipped for a count of zero. -/
def Tile.openLoop (x : Tile) (n last : Nat) : Tile :=
  if n = 0 then (x.goTo 5 (last + 1)).running else { x.advance with loops := ⟨x.rel + 1, last, n⟩ :: x.loops }

theorem exec_loop (e : Ecc) (c : LoopCount) (last : Nat) (hf : s.fetches k 0x04 = true) :
    exec (.loop k e c last) s = .next (s.issuing k e fun s => s.onTile k fun x => x.openLoop (x.loopCount c) last) := by
  refine (if_pos hf).trans ?_
  cases c <;> rfl

theorem exec_jmp (e : Ecc) (r : Nat) (hf : s.fetches k 0x06 = true) :
    exec (.jmp k e r) s = .next (s.issuing k e fun s => s.onTile k fun x => x.branch r) := if_pos hf

theorem exec_brctl (e : PayCheck) (q r : Nat) (hf : s.fetches k 0x05 = true) :
    exec (.brctl k e q r) s = .next (s.issuing k e.word fun s => s.progHead k q true fun s tk =>
      s.queueRead k q tk e.pay fun s =>
        (s.progTake k q tk).onTile k fun x => if bit (payWord tk) 0 then x.branch r else x.advance) := if_pos hf

theorem exec_dlld (e : PayCheck) (d q : Nat) (hf : s.fetches k 0x1E = true) :
    exec (.dlld k e d q) s = .next (s.issuing k e.word fun s => s.progHead k q true fun s tk =>
      s.queueRead k q tk e.pay fun s =>
        (s.progTake k q tk).onTile k fun x => (x.setDl d (payWord tk % 65536)).advance) := if_pos hf

theorem exec_bobgo {b n : Nat} (e : Ecc) (hf : s.fetches k 0x1F = true) (hb : b < 2) (hn : n < 8) :
    ∃ f, exec (.bobgo k e b n) s = .next (s.issuing k e fun s => s.issueSewn k f) := by
  refine ⟨_, if_pos ?_⟩
  simp [hf, hb, hn]

end

/-! ### Consuming a control token (spec/04_fabric_tokens_and_steering.md R122 to R124, spec/03_compute_tile.md R92) -/

/-- A control token at the head of a control queue of the tile program, with an entry free where it is basted, is given to
the instruction. -/
theorem progHead_ctl {s : State} {k q : Nat} {tk : Token} (hq : qEn (s.tile k).regs q = true)
    (hc : (s.tile k).get (T.QCFG_CONS q) = 0) (hctl : (s.tile k).get (T.QCFG_CTL q) ≠ 0) (hh : (s.tile k).head q = some tk)
    (hk : hKind tk.hdr = kCtl) (hb : hBasted tk.hdr = true → (s.tile k).entries.length < 8) (f : State → Token → State) :
    s.progHead k q true f = f s tk := by
  have hfree : ¬ (hBasted tk.hdr && decide (8 ≤ (s.tile k).entries.length)) = true := by
    simpa using hb
  simp [State.progHead, hq, hc, hctl, hh, hk, kCtl, kHem, kEnd, hfree]

theorem queueRead_ok (s : State) (k q : Nat) (tk : Token) (f : State → State) : s.queueRead k q tk .ok f = f s := by
  simp [State.queueRead]

theorem queueRead_uncorrectable (s : State) (k q : Nat) {tk : Token} (h : tk.pay ≠ []) (f : State → State) :
    s.queueRead k q tk .uncorrectable f = s.tileStop k Code.FAB_PAYLOAD_UNCORR q := by
  simp [State.queueRead, h]

/-- Going on leaves the DL registers. -/
theorem Tile.dls_advance (x : Tile) : x.advance.dls = x.dls := by
  simp only [Tile.dls]
  rw [Tile.get_advance_other _ (by decide) (by decide), Tile.get_advance_other _ (by decide) (by decide),
    Tile.get_advance_other _ (by decide) (by decide), Tile.get_advance_other _ (by decide) (by decide)]

/-- A DL register set reads the value's 16 bits. -/
theorem Tile.dls_setDl (x : Tile) (d v : Nat) : (x.setDl d v).dls.getD (min d 3) 0 = v % 65536 := by
  match d with
  | 0 => exact Tile.get_set_same x T.TILE_DL_DL0 v
  | 1 => exact Tile.get_set_same x T.TILE_DL_DL1 v
  | 2 => exact Tile.get_set_same x T.TILE_DL_DL2 v
  | d + 3 =>
    rw [show min (d + 3) 3 = 3 by omega]
    exact Tile.get_set_same x T.TILE_DL_DL3 v

/-! ### Starting a bobbin program (spec/09_bobbin_streams.md R305, R307, Table 9.7) -/

/-- A tile whose bobbin has started the program of an entry: the bobbin, its epoch, its first word and the entry. -/
def Tile.startBob (x : Tile) (b : Nat) (v : Bob) (ep pc n : Nat) : Tile :=
  (((((x.setBob b v).set (T.BOB_STAT_EPOCH b) ep).set (T.BOB_STAT_PC b) pc).set (T.BOB_STAT_PROG b) n).set
    (T.BOB_STAT_STATE b) 1).advance

theorem exec_bobgo_starts {s : State} {k b n : Nat} (hf : s.fetches k 0x1F = true) (hb : b < 2) (hn : n < 8)
    (ho : (s.tile k).outstanding < 96) (he : (s.tile k).entries = []) :
    let x := s.tile k
    let en := bits (x.get T.BOB_ENTRY_ENTRIES) (8 * n) 8
    let ep := (x.get (T.BOB_STAT_EPOCH b) + 1) % 16
    bit en 7 = true → bobEn x.regs b = true → s.unpick.stopped = false → (x.bob b).run = false →
      (∀ p ∈ (x.bob b).quar, p.1 ≠ ep) →
      ∃ v : Bob, v.run = true ∧ v.reqs = [] ∧ v.quar = (x.bob b).quar
        ∧ exec (.bobgo k .ok b n) s = .next (s.setTile k (x.startBob b v ep (x.bobBase + en % 128) n)) := by
  intro x en ep hen hcfg hst hrun hq
  let pos := match bobRing x.regs b with
    | some r => (x.get (T.RING_STAT_TAIL r), x.get (T.RING_STAT_HEAD r))
    | none => (0, 0)
  refine ⟨{ run := true, fill := pos.1, drain := pos.2, quar := (x.bob b).quar }, rfl, rfl, rfl, ?_⟩
  change execBobgo k .ok b n s = _
  rw [execBobgo, if_pos (by simp [hf, hb, hn]), issuing_ok ho, State.issueSewn, if_neg (by simp [Tile.bastes, he])]
  simp only
  have hstart : ¬ (!bit en 7 || !bobEn x.regs b) = true := by simp [hen, hcfg]
  have hfree : ¬ (s.unpick.stopped || (x.bob b).run || (x.bob b).quar.any fun p => decide (p.1 = ep)) = true := by
    simpa [hst, hrun] using fun l hm => hq (ep, l) hm rfl
  rw [if_neg hstart, if_neg hfree]
  rfl

theorem Tile.startBob_bob (x : Tile) (b : Nat) (v : Bob) (ep pc n : Nat) : (x.startBob b v ep pc n).bob b = v := by
  simp [Tile.startBob]

/-- No field of a bobbin's status register is one that lies below it. -/
theorem bobStat_key_ne (b hi lo : Nat) {j : Nat} (h : j < 0x100798 * 64) :
    (⟨0x100798 + 0x20 * b, hi, lo⟩ : Fld).key ≠ j := by
  simp only [Fld.key]
  omega

/-- The status of a bobbin that has started. -/
theorem Tile.startBob_status (x : Tile) (b : Nat) (v : Bob) {ep n : Nat} (pc : Nat) (hep : ep < 16) (hn : n < 8) :
    let y := x.startBob b v ep pc n
    y.get (T.BOB_STAT_EPOCH b) = ep ∧ y.get (T.BOB_STAT_PROG b) = n ∧ y.get (T.BOB_STAT_PC b) = pc % 128
      ∧ y.get (T.BOB_STAT_STATE b) = 1 := by
  have hadv (y : Tile) (hi lo : Nat) :
      y.advance.get ⟨0x100798 + 0x20 * b, hi, lo⟩ = y.get ⟨0x100798 + 0x20 * b, hi, lo⟩ :=
    y.get_advance_other (bobStat_key_ne b hi lo (by decide)) (bobStat_key_ne b hi lo (by decide))
  simp only [Tile.startBob, T.BOB_STAT_EPOCH, T.BOB_STAT_PROG, T.BOB_STAT_PC, T.BOB_STAT_STATE]
  simp [hadv, Tile.get_set_bits, Fld.width, Nat.mod_eq_of_lt hep, Nat.mod_eq_of_lt hn]

/-- The sequencer goes on past the start of a bobbin as past any word. -/
theorem Tile.startBob_pc (x : Tile) (b : Nat) (v : Bob) (ep pc n : Nat) :
    (x.startBob b v ep pc n).get T.TILE_STATUS_PC = x.advance.get T.TILE_STATUS_PC := by
  obtain ⟨hregs, hbase, hpast, hloops⟩ := x.setBob_frame b v
  refine Tile.advance_pc_congr hbase hpast hloops ?_
  have hset (y : Tile) (hi lo v : Nat) :
      (y.set ⟨0x100798 + 0x20 * b, hi, lo⟩ v).get T.TILE_STATUS_PC = y.get T.TILE_STATUS_PC :=
    y.get_set_other v (bobStat_key_ne b hi lo (by decide)).symm
  simp only [T.BOB_STAT_EPOCH, T.BOB_STAT_PROG, T.BOB_STAT_PC, T.BOB_STAT_STATE, hset]
  rw [Tile.get, hregs, Tile.get]

/-- Settles O9: each instruction is the issue of its own effect; the next word is decided by the open loops. -/
theorem sequencerControlInstructions : Obligations.SequencerControlInstructions := by
  refine ⟨?plain, ?again, ?inside, fun x hl hc _ => Tile.advance_opcode_end hl hc, ?branch, ?errors, ?full, ?nop, ?halt,
    ?fence, ?loop, ?loopDl, ?jmp, ?brctl, ?dlld, ?bobgo⟩
  case plain =>
    intro x hl
    rw [Tile.get_advance_pc, hl]
    exact ⟨rfl, x.get_advance_state⟩
  case again =>
    intro x f l hl hr hn
    rw [Tile.get_advance_pc, Tile.advance_loops, hl]
    simp [loopNext, hr, hn]
  case inside =>
    intro x f l hl hr
    rw [Tile.get_advance_pc, Tile.advance_loops, hl]
    simp [loopNext, hr]
  case branch =>
    intro x r
    exact ⟨by simp [Tile.branch], rfl⟩
  case errors =>
    intro k s p hp hf hh
    simp only [List.mem_cons, List.not_mem_nil, or_false] at hp
    rcases hp with rfl | rfl | rfl | rfl | rfl
    · exact exec_word_errors (fun e s hf _ => exec_nop e hf) hf hh
    · exact exec_word_errors (fun e s hf _ => exec_jmp e 0 hf) hf hh
    · exact exec_word_errors (fun e s hf _ => exec_fence e [] hf) hf hh
    · exact exec_word_errors (fun e s hf _ => exec_loop e (.imm 1) 0 hf) hf hh
    · exact exec_word_errors (fun e s hf hh => exec_halt e hf hh) hf hh
  case full =>
    intro k s p hp hf hh ho
    simp only [List.mem_cons, List.not_mem_nil, or_false] at hp
    rcases hp with rfl | rfl | rfl | rfl | rfl | rfl | rfl | rfl
    · exact exec_full (exec_nop .ok hf) ho
    · exact exec_full (exec_jmp .ok 0 hf) ho
    · exact exec_full (exec_fence .ok [] hf) ho
    · exact exec_full (exec_loop .ok (.imm 1) 0 hf) ho
    · exact exec_full (exec_halt .ok hf hh) ho
    · exact exec_full (exec_brctl ⟨.ok, .ok⟩ 0 0 hf) ho
    · exact exec_full (exec_dlld ⟨.ok, .ok⟩ 0 0 hf) ho
    · obtain ⟨f, hi⟩ := exec_bobgo .ok hf (b := 0) (n := 0) (by decide) (by decide)
      exact exec_full hi ho
  case nop => exact fun k s hf ho => exec_issued (exec_nop .ok hf) ho
  case halt =>
    intro k s hf hh ho he
    rw [exec_issued (exec_halt .ok hf hh) (by omega), ho, Tile.bastes, he]
    rfl
  case fence =>
    intro k us s hf ho
    rw [exec_issued (exec_fence .ok us hf) ho]
    refine ⟨fun h => ?_, fun h => ?_⟩
    · rw [if_neg (by simpa using h)]
      rfl
    · rw [if_pos (by simpa using h)]
  case loop =>
    intro k n last s hf ho
    refine ⟨fun hn => ?_, ?_⟩
    · rw [exec_issued (exec_loop .ok (.imm n) last hf) ho]
      simp [State.onTile, Tile.loopCount, Tile.openLoop, hn]
    · rw [exec_issued (exec_loop .ok (.imm 0) last hf) ho]
      rfl
  case loopDl =>
    intro k r st last s hf
    rw [exec_loop _ _ _ hf, exec_loop _ _ _ hf]
    by_cases ho : (s.tile k).outstanding < 96
    · rw [issuing_ok ho, issuing_ok ho]
      rfl
    · rw [issuing_full (Nat.not_lt.1 ho), issuing_full (Nat.not_lt.1 ho)]
  case jmp => exact fun k r s hf ho => exec_issued (exec_jmp .ok r hf) ho
  case brctl =>
    intro k q r tk s hf ho hq hc hctl hh hk hb
    refine ⟨?_, fun hp => ?_⟩
    · rw [exec_issued (exec_brctl ⟨.ok, .ok⟩ q r hf) ho, progHead_ctl hq hc hctl hh hk hb, queueRead_ok]
    · rw [exec_issued (exec_brctl ⟨.ok, .uncorrectable⟩ q r hf) ho, progHead_ctl hq hc hctl hh hk hb,
        queueRead_uncorrectable _ _ _ hp]
  case dlld =>
    intro k q d tk s hf ho hq hc hctl hh hk hb
    refine ⟨?_, fun hp => ?_⟩
    · rw [exec_issued (exec_dlld ⟨.ok, .ok⟩ d q hf) ho, progHead_ctl hq hc hctl hh hk hb, queueRead_ok]
      refine ⟨_, rfl, ?_⟩
      rw [State.tile_onTile_same, Tile.dls_advance, Tile.dls_setDl, Nat.mod_mod]
    · rw [exec_issued (exec_dlld ⟨.ok, .uncorrectable⟩ d q hf) ho, progHead_ctl hq hc hctl hh hk hb,
        queueRead_uncorrectable _ _ _ hp]
  case bobgo =>
    intro k b n s hf hb hn ho he x en ep hen hcfg hst hrun hq
    obtain ⟨v, hvr, hvq, hvu, hrun⟩ := exec_bobgo_starts hf hb hn ho he hen hcfg hst hrun hq
    have hep16 : ep < 16 := Nat.mod_lt _ (by decide)
    obtain ⟨hep, hprog, hpc, hstate⟩ := x.startBob_status b v (x.bobBase + en % 128) hep16 hn
    refine ⟨_, hrun, setTile_onlyTile s k _, ?_⟩
    rw [State.tile_setTile_same, Tile.startBob_bob]
    exact ⟨hvr, hvq, hvu, hep, hprog, hpc, hstate, x.startBob_pc b v ep _ n⟩

end Sys2Proof.Machine
end

section
/-! PROOFS. Issue and completion of the operations of a tile's units (spec/03_compute_tile.md R78, R79, R87, R92 to R99,
R105, R106). -/

namespace Sys2Proof.Machine

/-! ### Issue -/

/-- What an issued operation takes with it, and the tile that it leaves. -/
theorem issue_outst (s : State) (k : Nat) (op : TileOp) :
    ∃ o : OutOp, o.op = op ∧ o.dl = (s.tile k).dls ∧ o.ent = (s.tile k).young
      ∧ s.issue k op = s.setTile k ({ s.tile k with outst := (s.tile k).outst ++ [o], stall := none } : Tile).advance :=
  ⟨s.outOp k op, rfl, rfl, rfl, rfl⟩

/-- With no entry open the basting record holds nothing back. -/
theorem issueSewn_of_no_entry {s : State} {k : Nat} (h : (s.tile k).entries = []) (f : State → State) :
    s.issueSewn k f = f s := by
  simp [State.issueSewn, Tile.bastes, h]

theorem issueIf_fault (s : State) (k : Nat) (op : TileOp) (c : Nat) :
    ∃ sub, s.issueIf k op (.fault c) = s.progFault k c sub := ⟨_, rfl⟩

/-- An operation whose length is not zero is issued, or stalls, as its accesses say. -/
theorem issueOp_of_length {s : State} {k : Nat} {op : TileOp} (h : opEmpty op = false) :
    s.issueOp k op = s.issueIf k op ((s.tile k).accesses op) := by
  unfold State.issueOp
  split
  · rename_i c hc
    rw [hc]
  · rw [h, if_neg Bool.false_ne_true]

/-- An operation of length zero completes at once. -/
theorem issueOp_of_empty {s : State} {k : Nat} {op : TileOp} (h : opEmpty op = true) (ha : (s.tile k).accesses op = .vec) :
    s.issueOp k op = s.setTile k (s.tile k).advance := by
  rw [State.issueOp, ha]
  exact if_pos h

theorem issueOp_fault {s : State} {k : Nat} {op : TileOp} {c : Nat} (ha : (s.tile k).accesses op = .fault c) :
    ∃ sub, s.issueOp k op = s.progFault k c sub := by
  rw [State.issueOp, ha]
  exact issueIf_fault s k op c

/-- An instruction that issues an operation of `n` elements whose accesses may be made, or that has none to make. -/
theorem exec_issueOp {i : Instr} {s : State} {k n : Nat} {op : TileOp} (hi : exec i s = .next (s.issueOp k op))
    (hn : opEmpty op = decide (n = 0)) :
    (∀ adr, n ≠ 0 → (s.tile k).accesses op = .ok adr → exec i s = .next (s.issue k op))
      ∧ (n ≠ 0 → (s.tile k).accesses op = .vec → exec i s = .next (s.issue k op))
      ∧ (n = 0 → (s.tile k).accesses op = .vec → exec i s = .next (s.setTile k (s.tile k).advance)) := by
  refine ⟨fun adr h ha => ?_, fun h ha => ?_, fun h ha => ?_⟩
  · rw [hi, issueOp_of_length (hn.trans (decide_eq_false h)), ha]
    rfl
  · rw [hi, issueOp_of_length (hn.trans (decide_eq_false h)), ha]
    rfl
  · rw [hi, issueOp_of_empty (hn.trans (decide_eq_true h)) ha]

/-- The same instruction where its accesses break a rule or wait for a ring. -/
theorem exec_issueOp_not {i : Instr} {s : State} {k n : Nat} {op : TileOp} (hi : exec i s = .next (s.issueOp k op))
    (hn : opEmpty op = decide (n = 0)) :
    (∀ code, (s.tile k).accesses op = .fault code → ∃ sub, exec i s = .next (s.progFault k code sub))
      ∧ (∀ r, n ≠ 0 → (s.tile k).accesses op = .stall r → exec i s = .next (s.setTile k
          { (s.tile k).set T.TILE_STATUS_STATE 2 with stall := some ⟨r, opStallSide op r, some op⟩ })) := by
  refine ⟨fun code ha => ?_, fun r h ha => ?_⟩
  · obtain ⟨sub, hs⟩ := issueOp_fault ha
    exact ⟨sub, by rw [hi, hs]⟩
  · rw [hi, issueOp_of_length (hn.trans (decide_eq_false h)), ha]
    rfl

/-! ### One equation per instruction that issues an operation -/

section
variable {s : State} {k : Nat} (e : Ecc)

theorem exec_vop (kd : VKind) (a b c : VSrc) (d : VDst) (n : Nat) (hf : s.fetches k 0x10 = true) :
    exec (.vop k e kd a b c d n) s = .next (s.issuing k e fun s => s.issueOp k (.vop kd a b c d n)) := if_pos hf

theorem exec_vcvt {f : Nat} (a : VSrc) (d : VDst) (n : Nat) (hf : s.fetches k 0x11 = true) (hd : fmtCheck true f = none) :
    exec (.vcvt k e a d f n) s = .next (s.issuing k e fun s => s.issueOp k (.vcvt a d f n)) :=
  if_pos (by simp [hf, hd])

theorem exec_vcvt_not_loaded {f : Nat} (a : VSrc) (d : VDst) (n : Nat) (hd : (fmtCheck true f).isSome = true) :
    exec (.vcvt k e a d f n) s = .next s := by
  obtain ⟨c, hc⟩ := Option.isSome_iff_exists.1 hd
  exact if_neg (by simp [hc])

theorem exec_vred (mx : Bool) (a : VSrc) (idx n : Nat) (hf : s.fetches k 0x12 = true) :
    exec (.vred k e mx a idx n) s = .next (s.issuing k e fun s => s.issueOp k (.vred mx a idx n)) := if_pos hf

theorem exec_accrd (m : AccMode) (base n : Nat) (d : VDst) (hf : s.fetches k 0x14 = true) :
    exec (.accrd k e m base n d) s = .next (s.issuing k e fun s => s.issueOp k (.accrd m base n d)) := if_pos hf

theorem exec_accinit (m : AccMode) (base n : Nat) (hf : s.fetches k 0x15 = true) :
    exec (.accinit k e m base n) s
      = .next (s.issuing k e fun s => s.issueSewn k fun s => s.issueOp k (.accinit m base n)) := if_pos hf

theorem exec_accadd (m : AccMode) (a : VSrc) (base n : Nat) (hf : s.fetches k 0x16 = true) :
    exec (.accadd k e m a base n) s
      = .next (s.issuing k e fun s => s.issueSewn k fun s => s.issueOp k (.accadd m a base n)) := if_pos hf

/-- A tensor operation of a descriptor in use. -/
theorem exec_tmma {d : Nat} (a b : Nat) (hf : s.fetches k 0x08 = true) (ho : (s.tile k).outstanding < 96)
    (he : (s.tile k).entries = []) (hd : tdUnused (s.tile k).regs d = false) :
    exec (.tmma k .ok d a b) s = .next (s.issueIf k (.tmma d a b) ((s.tile k).tdAccess d a b)) := by
  change execTmma k .ok d a b s = _
  simp [execTmma, hf, issuing_ok ho, issueSewn_of_no_entry he, hd]

theorem exec_rpub (r n : Nat) (hf : s.fetches k 0x18 = true) :
    exec (.rpub k e r n) s = .next (s.issuing k e fun s => s.issueSewn k fun s =>
      if n = 0 then s.onTile k Tile.advance
      else if (s.tile k).ownsRing r true then s.issue k (.rpub r n)
      else s.tileStop k Code.TILE_RING_ORDER (0x8000 + r)) := if_pos hf

theorem exec_rrel (r n : Nat) (hf : s.fetches k 0x19 = true) :
    exec (.rrel k e r n) s = .next (s.issuing k e fun s => s.issueSewn k fun s =>
      if n = 0 then s.onTile k Tile.advance
      else if (s.tile k).ownsRing r false then s.issue k (.rrel r n)
      else s.tileStop k Code.TILE_RING_ORDER r) := if_pos hf

end

/-- The effect of an instruction that waits for open entries, with none open. -/
theorem exec_issued_sewn {i : Instr} {k : Nat} {s : State} {f : State → State}
    (hi : exec i s = .next (s.issuing k .ok fun s => s.issueSewn k f)) (ho : (s.tile k).outstanding < 96)
    (he : (s.tile k).entries = []) : exec i s = .next (f s) := by
  rw [exec_issued hi ho, issueSewn_of_no_entry he]

/-- The accesses of a tensor operation whose operands fit, and of one whose operands do not. -/
theorem Tile.tdAccess_eq (x : Tile) (d a b : Nat) :
    (x.operandFits (tdOperandA x.regs d) (tdK x.regs d) = true ∧ x.operandFits (tdOperandB x.regs d) (tdK x.regs d) = true →
        x.tdAccess d a b = worst [x.operandAccess (tdOperandA x.regs d) (tdK x.regs d) a,
          x.operandAccess (tdOperandB x.regs d) (tdK x.regs d) b])
      ∧ (¬ (x.operandFits (tdOperandA x.regs d) (tdK x.regs d) = true
          ∧ x.operandFits (tdOperandB x.regs d) (tdK x.regs d) = true) →
        x.tdAccess d a b = .fault Code.TILE_OPERAND_RANGE) := by
  simp only [← Bool.and_eq_true]
  exact ⟨fun h => if_pos h, fun h => if_neg h⟩

/-! ### Completion (spec/03_compute_tile.md R78, R79, R97, R99) -/

/-- The state in which an operation taken out of those outstanding takes effect. -/
def State.takeOp (s : State) (k idx : Nat) : State := s.setTile k { s.tile k with outst := (s.tile k).outst.eraseIdx idx }

section
variable {s : State} {k idx : Nat} {o : OutOp} (hs : s.issues = true) (ho : (s.tile k).outst[idx]? = some o)
  (hm : (s.tile k).mayComplete idx o = true)
include hs ho hm

/-- An operation that may complete is taken out; it stops the tile where what it reads can be read no further. -/
theorem exec_opComplete (err : OpErr) : exec (.opComplete k idx err) s =
    match if err = .accParity && (opAcc (s.tile k).regs o.op).2 = 0 then none
      else (s.tile k).readFault (o.reads (s.tile k).regs) err with
    | some f => .next ((s.takeOp k idx).tileStop k f.1 f.2)
    | none => .next (((s.takeOp k idx).readCorr k (o.reads (s.tile k).regs) err).perform k o) := by
  change execOpComplete k idx err s = _
  simp only [execOpComplete, ho, hs, hm, Bool.not_true, Bool.or_self, Bool.false_eq_true, if_false]
  rfl

theorem exec_opComplete_none : exec (.opComplete k idx .none) s = .next ((s.takeOp k idx).perform k o) :=
  exec_opComplete hs ho hm .none

/-- A parity error of accumulator memory counts where the operation touches entries. -/
theorem exec_opComplete_accParity : exec (.opComplete k idx .accParity) s
    = .next (if (opAcc (s.tile k).regs o.op).2 = 0 then (s.takeOp k idx).perform k o
        else (s.takeOp k idx).tileStop k Code.TILE_ACC_PARITY 0) := by
  rw [exec_opComplete hs ho hm]
  by_cases h : (opAcc (s.tile k).regs o.op).2 = 0 <;> simp [h, Tile.readFault, State.readCorr]

/-- An uncorrectable word counts in a bank of class W that the operation reads. -/
theorem exec_opComplete_spUncorr (b : Nat) : exec (.opComplete k idx (.spUncorr b)) s
    = .next (if readsBank (o.reads (s.tile k).regs) b && bankW (s.tile k).regs b
        then (s.takeOp k idx).tileStop k Code.TILE_SP_UNCORR b else (s.takeOp k idx).perform k o) := by
  rw [exec_opComplete hs ho hm]
  by_cases h : (readsBank (o.reads (s.tile k).regs) b && bankW (s.tile k).regs b) = true <;>
    simp [h, Tile.readFault, State.readCorr]

/-- A parity error counts in a bank of the other class that the operation reads. -/
theorem exec_opComplete_spParity (b : Nat) : exec (.opComplete k idx (.spParity b)) s
    = .next (if readsBank (o.reads (s.tile k).regs) b && !bankW (s.tile k).regs b
        then (s.takeOp k idx).tileStop k Code.TILE_SP_PARITY b else (s.takeOp k idx).perform k o) := by
  rw [exec_opComplete hs ho hm]
  by_cases h : (readsBank (o.reads (s.tile k).regs) b && !bankW (s.tile k).regs b) = true <;>
    simp [h, Tile.readFault, State.readCorr]

/-- A corrected word is recorded where the operation reads a bank of class W, and the operation takes effect. -/
theorem exec_opComplete_spCorr (b : Nat) : exec (.opComplete k idx (.spCorr b)) s
    = .next (State.perform (if readsBank (o.reads (s.tile k).regs) b && bankW (s.tile k).regs b
        then (s.takeOp k idx).spCorrected k b else s.takeOp k idx) k o) := by
  have hregs : ((s.takeOp k idx).tile k).regs = (s.tile k).regs := by rw [State.takeOp, State.tile_setTile_same]
  rw [exec_opComplete hs ho hm]
  simp [Tile.readFault, State.readCorr, hregs]

end

/-! ### What the operations do -/

section
variable {s : State} {k : Nat} {o : OutOp}

theorem perform_rpub {r n : Nat} (ho : o.op = .rpub r n)
    (h : ringOcc (s.tile k).regs r + n ≤ (s.tile k).get (T.RING_CFG_SLOTS r)) :
    s.perform k o = s.setTile k (((s.tile k).set (T.RING_STAT_TAIL r) ((s.tile k).get (T.RING_STAT_TAIL r) + n)).untripOn
      (.ring r false)) := by
  simp only [State.perform, ho]
  exact if_neg (Nat.not_lt.2 h)

theorem perform_rrel {r n : Nat} (ho : o.op = .rrel r n) (h : n ≤ ringOcc (s.tile k).regs r) :
    s.perform k o = s.setTile k (((s.tile k).set (T.RING_STAT_HEAD r) ((s.tile k).get (T.RING_STAT_HEAD r) + n)).untripOn
      (.ring r true)) := by
  simp only [State.perform, ho]
  exact if_neg (Nat.not_lt.2 h)

theorem perform_accinit {m : AccMode} {base n : Nat} (ho : o.op = .accinit m base n) :
    s.perform k o = s.setTile k ((List.range n).foldl (fun x j => x.accInit m (accAt m base j)) (s.tile k)) := by
  simp only [State.perform, ho]

/-- A vector operation under no entry writes its lanes into scratchpad. -/
theorem perform_vop_spad {kd : VKind} {a b c : VSrc} {g n : Nat} (ho : o.op = .vop kd a b c (.spad g) n) (hn : n ≠ 0)
    (he : o.ent = none) :
    let x := s.tile k
    s.perform k o = s.setTile k { x with spad := memWriteN x.spad (64 * g) (wordsBytes ((List.range n).map fun i =>
      vlane kd ((x.vread o a n).getD i 0) ((x.vread o b n).getD i 0) ((x.vread o c n).getD i 0))) } := by
  simp only [State.perform, ho, if_neg hn, Tile.vwrite, Tile.store, Tile.openEnt, he]

theorem perform_vred {mx : Bool} {a : VSrc} {idx n : Nat} (ho : o.op = .vred mx a idx n) (hn : n ≠ 0) :
    s.perform k o = s.setTile k ((s.tile k).putRed o
      (reduceIdx mx (((s.tile k).vread o a n).zipIdx.map fun p => (p.1, BitVec.ofNat 32 (idx + p.2))))) := by
  simp only [State.perform, ho, if_neg hn]

end

/-- The result of a reduction is put into the vector unit, or held by the open entry. -/
theorem Tile.putRed_eq (x : Tile) (o : OutOp) (p : IdxPair) :
    (x.openEnt o = none → x.putRed o p = { x with vred := p })
      ∧ (∀ i, x.openEnt o = some i → x.putRed o p = x.holdAt i (.vred p)) :=
  ⟨fun h => by rw [Tile.putRed, h], fun i h => by rw [Tile.putRed, h]⟩

theorem Tile.accW_setAcc (x : Tile) (a j : Nat) (w : W32) : (x.setAcc a w).accW j = if j = a then w else x.accW j := by
  by_cases h : j = a
  · subst h
    simp [Tile.accW, Tile.setAcc]
  · simp [Tile.accW, Tile.setAcc, h, kvGet_kvSet_other]

@[simp] theorem Tile.accW_setSat (x : Tile) (a j : Nat) (b : Bool) : (x.setSat a b).accW j = x.accW j := rfl

/-- Initialising one entry of a range clears its own word, and leaves the first word of every other: compensated entries
lie two words apart. -/
theorem Tile.accW_accInit (x : Tile) (m : AccMode) (base c j : Nat) :
    (x.accInit m (accAt m base c)).accW (accAt m base j) = if c = j then 0 else x.accW (accAt m base j) := by
  cases m with
  | comp =>
    have hne : base + 2 * j ≠ base + 2 * c + 1 := by omega
    simp [Tile.accInit, accAt, Tile.accW_setAcc, hne, eq_comm]
  | plain => simp [Tile.accInit, accAt, Tile.accW_setAcc, eq_comm]
  | int => simp [Tile.accInit, accAt, Tile.accW_setAcc, eq_comm]

/-- The entries of a range initialised together read zero. -/
theorem accW_perform_accinit {s : State} {k : Nat} {o : OutOp} {m : AccMode} {base n j : Nat}
    (ho : o.op = .accinit m base n) (hj : j < n) : ((s.perform k o).tile k).accW (accAt m base j) = 0 := by
  rw [perform_accinit ho, State.tile_setTile_same]
  have h := foldl_read_of_step (read := fun x : Tile => x.accW (accAt m base j)) (k := j) (v := 0) (p := True)
    (fun x c => by simpa using x.accW_accInit m base c j) (List.range n) (s.tile k)
  rwa [if_pos ⟨List.mem_range.2 hj, trivial⟩] at h

/-- Settles O10: an operation issues as its accesses answer; at its completion an error is met or it is performed. -/
theorem tileOperationsIssueAndComplete : Obligations.TileOperationsIssueAndComplete := by
  refine ⟨fun k op s => issue_outst s k op, ?vector, fun k f n a d s hd => exec_vcvt_not_loaded .ok a d n hd, ?accumulator,
    ?tensor, ?ring, ?complete, fun k r n o s ho h => perform_rpub ho h, fun k r n o s ho h => perform_rrel ho h,
    fun k base n j m o s ho hj => accW_perform_accinit ho hj,
    fun k n g kd a b c o s ho hn he => perform_vop_spad ho hn he, ?vred, ?writeback⟩
  case vector =>
    intro k s ho kd a b c d f idx base n mx acc hfmt p hp hf
    have hboth {i : Instr} {op : TileOp} (hi : exec i s = .next (s.issueOp k op)) (hn : opEmpty op = decide (n = 0)) :=
      And.intro (exec_issueOp hi hn) (exec_issueOp_not hi hn)
    simp only [and_assoc] at hboth
    simp only [List.mem_cons, List.not_mem_nil, or_false] at hp
    rcases hp with rfl | rfl | rfl | rfl
    · exact hboth (exec_issued (exec_vop .ok kd a b c d n hf) ho) rfl
    · exact hboth (exec_issued (exec_vcvt .ok a d n hf hfmt) ho) rfl
    · exact hboth (exec_issued (exec_vred .ok mx a idx n hf) ho) rfl
    · exact hboth (exec_issued (exec_accrd .ok acc base n d hf) ho) rfl
  case accumulator =>
    intro k base n acc a s ho he p hp hf
    simp only [List.mem_cons, List.not_mem_nil, or_false] at hp
    rcases hp with rfl | rfl
    · exact exec_issueOp (exec_issued_sewn (exec_accinit .ok acc base n hf) ho he) rfl
    · exact exec_issueOp (exec_issued_sewn (exec_accadd .ok acc a base n hf) ho he) rfl
  case tensor =>
    intro k d a b s hf ho he hd x fits both
    obtain ⟨hfit, hnot⟩ := x.tdAccess_eq d a b
    rw [exec_tmma a b hf ho he hd]
    refine ⟨fun h ⟨adr, hadr⟩ => ?_, fun h => ?_⟩
    · rw [hfit h, hadr]
      rfl
    · rw [hnot h]
      obtain ⟨sub, hsub⟩ := issueIf_fault s k (.tmma d a b) Code.TILE_OPERAND_RANGE
      exact ⟨sub, by rw [hsub]⟩
  case ring =>
    intro k r n s ho he hn
    refine ⟨fun hf h => ?_, fun hf h => ?_, fun hf h => ?_, fun hf h => ?_, fun hf => ?_, fun hf => ?_⟩
    · rw [exec_issued_sewn (exec_rpub .ok r n hf) ho he, if_neg hn, if_pos h]
    · rw [exec_issued_sewn (exec_rrel .ok r n hf) ho he, if_neg hn, if_pos h]
    · rw [exec_issued_sewn (exec_rpub .ok r n hf) ho he, if_neg hn, h, if_neg Bool.false_ne_true]
    · rw [exec_issued_sewn (exec_rrel .ok r n hf) ho he, if_neg hn, h, if_neg Bool.false_ne_true]
    · exact exec_issued_sewn (exec_rpub .ok r 0 hf) ho he
    · exact exec_issued_sewn (exec_rrel .ok r 0 hf) ho he
  case complete =>
    intro k idx o s hs ho hm
    dsimp only
    have huncorr (b : Nat) := exec_opComplete_spUncorr hs ho hm b
    have hparity (b : Nat) := exec_opComplete_spParity hs ho hm b
    have hcorr (b : Nat) := exec_opComplete_spCorr hs ho hm b
    refine ⟨exec_opComplete_none hs ho hm, fun ha => ?_, fun ha => ?_, fun b hr hw => ?wide, fun b hr hw => ?narrow,
      fun b hr => ?unread⟩
    · rw [exec_opComplete_accParity hs ho hm, if_neg ha, State.takeOp]
    · rw [exec_opComplete_accParity hs ho hm, if_pos ha, State.takeOp]
    case wide => simp [huncorr, hparity, hcorr, State.takeOp, hr, hw]
    case narrow => simp [huncorr, hparity, State.takeOp, hr, hw]
    case unread => simp [huncorr, hparity, State.takeOp, hr]
  case vred =>
    intro k n idx mx a o s ho hn red
    obtain ⟨hnone, hsome⟩ := (s.tile k).putRed_eq o red
    rw [perform_vred ho hn]
    exact ⟨fun h => by rw [hnone h], fun i h => by rw [hsome i h]⟩
  case writeback =>
    intro k b s h
    exact if_pos h

end Sys2Proof.Machine
end

section
/-! PROOFS. Laws of the operations that the agents of a tile share: queues and credits, sending, the basting record
(spec/04_fabric_tokens_and_steering.md R116 to R123, R133 to R135). -/

namespace Sys2Proof.Machine

/-! ### Queues and channels of a tile -/

@[simp] theorem Tile.queue_setQueue_same (x : Tile) (q : Nat) (v : Queue) : (x.setQueue q v).queue q = v := by
  simp [Tile.queue, Tile.setQueue]

@[simp] theorem Tile.och_setOch_same (x : Tile) (c : Nat) (v : Och) : (x.setOch c v).och c = v := by
  simp [Tile.och, Tile.setOch]

/-- The sequencer going on leaves the channels and the basting record. -/
theorem Tile.advance_record (x : Tile) : x.advance.ochs = x.ochs ∧ x.advance.entries = x.entries := by
  rw [Tile.advance_eq]
  exact ⟨rfl, rfl⟩

@[simp] theorem Tile.och_advance (x : Tile) (c : Nat) : x.advance.och c = x.och c := by
  rw [Tile.och, x.advance_record.1, Tile.och]

@[simp] theorem Tile.entries_advance (x : Tile) : x.advance.entries = x.entries := x.advance_record.2

/-! ### The youngest entry -/

theorem mapLast_append {α : Type} (f : α → α) (l : List α) (a : α) : mapLast f (l ++ [a]) = l ++ [f a] := by
  induction l with
  | nil => rfl
  | cons b l ih =>
    cases l with
    | nil => rfl
    | cons c l => exact congrArg (b :: ·) ih

theorem mapLast_nil {α : Type} (f : α → α) : mapLast f [] = [] := rfl

@[simp] theorem Tile.bastes_eq_false {x : Tile} : x.bastes = false ↔ x.entries = [] := by simp [Tile.bastes]

theorem Tile.bastes_of_append {x : Tile} {l : List BEntry} {e : BEntry} (h : x.entries = l ++ [e]) : x.bastes = true := by
  simp [Tile.bastes, h]

theorem Tile.holdLast_of_append {x : Tile} {l : List BEntry} {e : BEntry} (h : x.entries = l ++ [e]) (v : Held) :
    x.holdLast v = { x with entries := l ++ [{ e with held := e.held ++ [v] }] } := by
  rw [Tile.holdLast, h, mapLast_append]

/-! ### Credits and slots (spec/04_fabric_tokens_and_steering.md R119, R123) -/

/-- Credits for the feeder of a queue change the lane only. -/
theorem laneCredits_eq (s : State) (t q g n : Nat) :
    ∃ l : List Credit, l.length ≤ n ∧ s.laneCredits t q g n = { s with lane := s.lane ++ l } := by
  unfold State.laneCredits
  split
  · exact ⟨_, (List.length_replicate ..).le, rfl⟩
  · exact ⟨[], Nat.zero_le n, by rw [List.append_nil]⟩

theorem tile_laneCredits (s : State) (t q g n k : Nat) : (s.laneCredits t q g n).tile k = s.tile k := by
  obtain ⟨l, -, hl⟩ := laneCredits_eq s t q g n
  rw [hl]
  rfl

/-- A slot freed outside spill mode sends the credit that is owed. -/
theorem freeSlot_of_not_spill {s : State} {t q : Nat} (h : ((s.tile t).queue q).spill = false) (g : Nat) (owes : Bool) :
    s.freeSlot t q g owes = if owes then s.laneCredits t q g 1 else s := by
  simp [State.freeSlot, h]

/-- Freeing a slot changes of a tile its queues only. -/
theorem tile_freeSlot (s : State) (t q g : Nat) (owes : Bool) (k : Nat) :
    ∃ qs, (s.freeSlot t q g owes).tile k = { s.tile k with queues := qs } := by
  have hcredit (s : State) : (if owes then s.laneCredits t q g 1 else s).tile k = s.tile k := by
    split
    · exact tile_laneCredits ..
    · rfl
  by_cases h : ((s.tile t).queue q).spill = true
  · rw [State.freeSlot]
    simp only [h, if_true, hcredit]
    by_cases hk : k = t
    · subst hk
      exact ⟨_, State.tile_onTile_same ..⟩
    · exact ⟨_, State.tile_setTile_other _ _ _ _ hk⟩
  · rw [freeSlot_of_not_spill (Bool.eq_false_of_not_eq_true h), hcredit]
    exact ⟨_, rfl⟩

/-- A head consumed outside spill mode: it leaves its queue, a wait of the queue's consumer ends, and at most one credit
goes out. -/
theorem consume_eq {s : State} {k q : Nat} (h : ((s.tile k).queue q).spill = false) :
    ∃ l : List Credit, l.length ≤ 1 ∧ s.consume k q = { s.setTile k
      (((s.tile k).dropHead q).untrip (consAgent ((s.tile k).get (T.QCFG_CONS q)))) with lane := s.lane ++ l } := by
  have hspill : (((s.onTile k fun x => (x.dropHead q).untrip (consAgent (x.get (T.QCFG_CONS q)))).tile k).queue q).spill
      = false := by
    rw [State.tile_onTile_same]
    exact (congrArg Queue.spill (Tile.queue_setQueue_same ..)).trans h
  obtain ⟨l, hlen, hl⟩ := laneCredits_eq
    (s.onTile k fun x => (x.dropHead q).untrip (consAgent (x.get (T.QCFG_CONS q)))) k q (s.tile k).gen 1
  refine ⟨l, hlen, ?_⟩
  rw [State.consume, h, freeSlot_of_not_spill hspill]
  exact hl

/-- The entry that a basted token opens, with the checkpoint (spec/04_fabric_tokens_and_steering.md R133). -/
def Tile.openedBy (x : Tile) (q : Nat) (tk : Token) : BEntry :=
  { id := x.entSeq, chk := x.checkpoint, tok := tk, q := q, owes := !(x.queue q).spill }

theorem progTake_basted {s : State} {k q : Nat} {tk : Token} (h : hBasted tk.hdr = true) :
    s.progTake k q tk = s.setTile k { (s.tile k).dropHead q with
      entries := (s.tile k).entries ++ [(s.tile k).openedBy q tk], entSeq := (s.tile k).entSeq + 1 } := by
  rw [State.progTake, h, if_pos rfl]
  rfl

theorem progTake_of_no_entry {s : State} {k q : Nat} {tk : Token} (h : hBasted tk.hdr = false)
    (he : (s.tile k).entries = []) : s.progTake k q tk = s.consume k q := by
  simp [State.progTake, h, Tile.bastes_eq_false.2 he]

/-- A sewn token taken while an entry is open is kept with the youngest (log entry 10). -/
theorem progTake_of_entry {s : State} {k q : Nat} {tk : Token} {l : List BEntry} {e : BEntry} (h : hBasted tk.hdr = false)
    (he : (s.tile k).entries = l ++ [e]) :
    s.progTake k q tk = s.setTile k { (s.tile k).dropHead q with
      entries := l ++ [{ e with taken := e.taken ++ [(q, tk, !((s.tile k).queue q).spill)] }] } := by
  rw [State.progTake, h, if_neg Bool.false_ne_true, Tile.bastes_of_append he, if_pos rfl, he, mapLast_append]

/-! ### The head of a queue -/

section
variable {s : State} {k q : Nat} {ctl : Bool}

theorem progHead_not_owner (h : qEn (s.tile k).regs q = false ∨ (s.tile k).get (T.QCFG_CONS q) ≠ 0)
    (f : State → Token → State) : s.progHead k q ctl f = s.progFault k Code.FAB_QUEUE_OWNER q := by
  refine if_pos ?_
  rcases h with h | h <;> simp [h]

variable (hq : qEn (s.tile k).regs q = true) (hc : (s.tile k).get (T.QCFG_CONS q) = 0)
include hq hc

theorem progHead_empty (hh : (s.tile k).head q = none) (f : State → Token → State) :
    s.progHead k q false f = s.setTile k ((s.tile k).waits (some (.queue q))) := by
  simp [State.progHead, hq, hc, hh, State.onTile]

variable {tk : Token} (hh : (s.tile k).head q = some tk)
include hh

theorem progHead_hem (hk : hKind tk.hdr = kHem) (f : State → Token → State) :
    s.progHead k q false f = s.progFault k Code.PAT_HEM_EARLY q := by
  simp [State.progHead, hq, hc, hh, hk]

theorem progHead_end (hk : hKind tk.hdr = kEnd) (f : State → Token → State) :
    s.progHead k q false f = (s.progTake k q tk).onTile k Tile.afterEnd := by
  simp [State.progHead, hq, hc, hh, hk, kHem, kEnd]

/-- Any other token, with an entry free where it is basted, is given to the instruction. -/
theorem progHead_token (hhem : hKind tk.hdr ≠ kHem) (hend : hKind tk.hdr ≠ kEnd)
    (hb : hBasted tk.hdr = true → (s.tile k).entries.length < 8) (f : State → Token → State) :
    s.progHead k q false f = f s tk := by
  have hfree : ¬ (hBasted tk.hdr && decide (8 ≤ (s.tile k).entries.length)) = true := by
    simpa using hb
  simp [State.progHead, hq, hc, hh, hhem, hend, hfree]

end

theorem queueRead_corrected (s : State) (k q : Nat) {tk : Token} (h : tk.pay ≠ []) (f : State → State) :
    s.queueRead k q tk .corrected f = f (s.tokFault tk Code.FAB_PAYLOAD_CORR k q false) := by
  simp [State.queueRead, h]

/-! ### Sending (spec/04_fabric_tokens_and_steering.md R119, R120) -/

/-- A channel after a send with a tag of its own, and after one with the channel's next tag. -/
def Och.spend (o : Och) : Och := { o with credits := o.credits - 1, bucket := o.bucket - 1 }
def Och.spendTag (o : Och) : Och := { o.spend with tagc := (o.tagc + 1) % 256 }

/-- A send on a channel changes the channel and puts one token into the mesh. -/
theorem sendAs_eq (s : State) (k c kind tag slot : Nat) (b : Bool) (pay : List Byte) :
    ∃ n : NetTok, s.sendAs k c kind tag slot b pay
      = { s.setTile k ((s.tile k).setOch c ((s.tile k).och c).spend) with net := s.net ++ [n] } := ⟨_, rfl⟩

/-- A data or control token is sent with the channel's next tag, which is counted. -/
theorem sendNew_counted {kind : Nat} (h : kind = kData ∨ kind = kCtl) (s : State) (k c slot : Nat) (b : Bool)
    (pay : List Byte) :
    s.sendNew k c kind slot b pay = (s.sendAs k c kind ((s.tile k).och c).tagc slot b pay).onTile k fun x =>
      x.setOch c { x.och c with tagc := (((s.tile k).och c).tagc + 1) % 256 } := by
  refine if_pos ?_
  rcases h with rfl | rfl <;> rfl

/-- The tile after a counted send. -/
theorem tile_sendNew {kind : Nat} (h : kind = kData ∨ kind = kCtl) (s : State) (k c slot : Nat) (b : Bool)
    (pay : List Byte) :
    (s.sendNew k c kind slot b pay).tile k
      = ((s.tile k).setOch c ((s.tile k).och c).spend).setOch c ((s.tile k).och c).spendTag := by
  obtain ⟨n, hn⟩ := sendAs_eq s k c kind ((s.tile k).och c).tagc slot b pay
  have htile : ({ s.setTile k ((s.tile k).setOch c ((s.tile k).och c).spend) with net := s.net ++ [n] } : State).tile k
      = (s.tile k).setOch c ((s.tile k).och c).spend := State.tile_setTile_same ..
  rw [sendNew_counted h, State.tile_onTile_same, hn, htile, Tile.och_setOch_same]
  rfl

theorem sendAs_only (s : State) (k c kind tag slot : Nat) (b : Bool) (pay : List Byte) :
    Only [.tiles, .net] s (s.sendAs k c kind tag slot b pay) :=
  Only.trans ((s.onTile_only k fun x => x.setOch c (x.och c).spend).mono (by simp))
    ((State.injectAt_only _ k .out _ _).mono (by simp))

/-- A counted send changes the sending tile and the mesh. -/
theorem sendNew_only {kind : Nat} (h : kind = kData ∨ kind = kCtl) (s : State) (k c slot : Nat) (b : Bool)
    (pay : List Byte) : Only [.tiles, .net] s (s.sendNew k c kind slot b pay)
      ∧ ∀ j, j ≠ k → (s.sendNew k c kind slot b pay).tile j = s.tile j := by
  have hsend := sendAs_only s k c kind ((s.tile k).och c).tagc slot b pay
  rw [sendNew_counted h]
  refine ⟨hsend.trans ((State.onTile_only _ _ _).mono (by simp)), fun j hj => ?_⟩
  exact (State.tile_setTile_other _ _ _ _ hj).trans (State.tile_setTile_other _ _ _ _ hj)

end Sys2Proof.Machine
end

section
/-! PROOFS. `RECV`, `SEND`, stalled ring accesses and the verdicts of the basting record
(spec/04_fabric_tokens_and_steering.md R116 to R135, spec/03_compute_tile.md R97, R107, R108). -/

namespace Sys2Proof.Machine

/-! ### `RECV` (spec/04_fabric_tokens_and_steering.md R116, R123, R124) -/

/-- What `RECV` leaves of a token that it may take: a marker writes nothing, and a payload is read and landed, waits for a
ring, or may not land. -/
structure RecvTakes (k q : Nat) (pay : Ecc) (dst : VDst) (s : State) (tk : Token) (u : State) : Prop where
  marker : tk.pay = [] → u = (s.progTake k q tk).onTile k Tile.advance
  fault : ∀ c, tk.pay ≠ [] → (s.tile k).landing dst (hSlot tk.hdr) tk.pay.length = .fault c → u = s.headFault k q c tk
  stall : ∀ r, tk.pay ≠ [] → (s.tile k).landing dst (hSlot tk.hdr) tk.pay.length = .stall r →
    u = s.setTile k { (s.tile k).set T.TILE_STATUS_STATE 2 with stall := some ⟨r, true, none⟩ }
  lands : ∀ l, tk.pay ≠ [] → (s.tile k).landing dst (hSlot tk.hdr) tk.pay.length = l →
    (l = .vec ∨ ∃ adr, l = .ok adr) →
    u = s.queueRead k q tk pay fun s => (s.progTake k q tk).onTile k fun x => (x.land l (hSlot tk.hdr) tk.pay).advance

/-- A `RECV` that issues acts on the head of its queue. -/
theorem exec_recv {s : State} {k : Nat} (pay : Ecc) (q : Nat) (dst : VDst) (hf : s.fetches k 0x1C = true)
    (ho : (s.tile k).outstanding < 96) :
    ∃ f, exec (.recv k .ok pay q dst) s = .next (s.progHead k q false f) ∧ ∀ tk, RecvTakes k q pay dst s tk (f s tk) := by
  refine ⟨_, (if_pos hf).trans (congrArg go (issuing_ok ho _)), fun tk =>
    ⟨fun hp => ?_, fun c hp hl => ?_, fun r hp hl => ?_, fun l hp hl hok => ?_⟩⟩
  · exact if_pos (by simp [hp])
  · simp [hp, hl]
  · simp [hp, hl, State.onTile]
  · rcases hok with rfl | ⟨adr, rfl⟩ <;> simp [hp, hl]

section
variable {s : State} {k q : Nat} {tk : Token} (hf : s.fetches k 0x1C = true) (ho : (s.tile k).outstanding < 96)
  (hq : qEn (s.tile k).regs q = true) (hc : (s.tile k).get (T.QCFG_CONS q) = 0) (hh : (s.tile k).head q = some tk)
  (hhem : hKind tk.hdr ≠ kHem) (hend : hKind tk.hdr ≠ kEnd) (hb : hBasted tk.hdr = true → (s.tile k).entries.length < 8)
include hf ho hq hc hh hhem hend hb

theorem exec_recv_token (pay : Ecc) (dst : VDst) :
    ∃ u, exec (.recv k .ok pay q dst) s = .next u ∧ RecvTakes k q pay dst s tk u := by
  obtain ⟨f, hrun, htakes⟩ := exec_recv pay q dst hf ho
  exact ⟨f s tk, by rw [hrun, progHead_token hq hc hh hhem hend hb], htakes tk⟩

/-- A payload that may land is read out of queue storage, and lands if it can be read. -/
theorem exec_recv_lands (pay : Ecc) {dst : VDst} {l : Landing} (hp : tk.pay ≠ [])
    (hl : (s.tile k).landing dst (hSlot tk.hdr) tk.pay.length = l) (hok : l = .vec ∨ ∃ adr, l = .ok adr) :
    exec (.recv k .ok pay q dst) s = .next (s.queueRead k q tk pay fun s =>
      (s.progTake k q tk).onTile k fun x => (x.land l (hSlot tk.hdr) tk.pay).advance) := by
  obtain ⟨u, hrun, htakes⟩ := exec_recv_token hf ho hq hc hh hhem hend hb pay dst
  rw [hrun, htakes.lands l hp hl hok]

end

/-- A payload lands at once with no entry open. -/
theorem Tile.land_of_no_entry {x : Tile} (h : x.entries = []) (adr slot : Nat) (b : List Byte) :
    x.land (.ok adr) slot b = { x with spad := memWriteN x.spad adr b }
      ∧ x.land .vec slot b = { x with vec := landVec x.vec (64 * slot) b } := by
  simp [Tile.land, Tile.bastes_eq_false.2 h]

/-- The youngest open entry holds the payload. -/
theorem Tile.land_of_entry {x : Tile} {l : List BEntry} {e : BEntry} (h : x.entries = l ++ [e]) (adr slot : Nat)
    (b : List Byte) :
    x.land (.ok adr) slot b = { x with entries := l ++ [{ e with held := e.held ++ [.write adr b] }] }
      ∧ x.land .vec slot b = { x with entries := l ++ [{ e with held := e.held ++ [.vec (64 * slot) b] }] } := by
  simp [Tile.land, Tile.bastes_of_append h, Tile.holdLast_of_append h]

/-- A landing in plain scratchpad lies at the granule plus the slot, within the scratchpad. -/
theorem Tile.landing_spad {x : Tile} {g slot n adr : Nat} (h : x.landing (.spad g) slot n = .ok adr) :
    adr = 64 * (g + slot) ∧ adr + n ≤ 0x40000 := by
  simp only [Tile.landing, ite_eq_iff, reduceCtorEq, and_false, false_or, Landing.ok.injEq] at h
  unfold spadSize at h
  omega

/-! ### `SEND` (spec/04_fabric_tokens_and_steering.md R119, R120, R134) -/

/-- A source that a `SEND` may read now, with the runs of scratchpad bytes in it. -/
inductive SendReads (x : Tile) (len : Nat) : VSrc → List (Nat × Nat) → Prop where
  | vec (h : x.unitBusy .vector = false) : SendReads x len .vec []
  | mem {src : VSrc} {adr : Nat} (h : x.reading src len = .ok adr) : SendReads x len src [(adr, len)]

theorem Tile.ne_vec_of_reading {x : Tile} {src : VSrc} {len adr : Nat} (h : x.reading src len = .ok adr) : src ≠ .vec := by
  rintro rfl
  cases h

/-- The kind of the tokens of a channel. -/
def Tile.sendKind (x : Tile) (c : Nat) : Nat := if x.get (T.OCH_CTL c) = 1 then kCtl else kData

theorem Tile.sendKind_counted (x : Tile) (c : Nat) : x.sendKind c = kData ∨ x.sendKind c = kCtl := by
  unfold Tile.sendKind
  split
  · exact .inr rfl
  · exact .inl rfl

/-- The token of a send as the youngest open entry holds it. -/
def Tile.sentOn (x : Tile) (c : Nat) : Held := .sent c (x.get (T.OCH_DEST c)) (x.get (T.OCH_DQ c)) (x.och c).tagc

/-- A send by the tile program: the token put into the mesh, noted in the youngest entry while one is open, and the
sequencer gone on. -/
def State.progSend (s : State) (k c slot : Nat) (held : Held) (kind : Nat) (b : Bool) (pay : List Byte) : State :=
  (s.sendNew k c kind slot b pay).onTile k fun y => (if b then y.holdLast held else y).advance

section
variable {s : State} {k c slot len : Nat} {src : VSrc} {err : OpErr} (hf : s.fetches k 0x1D = true) (hlen : len ≤ 64)
  (ho : (s.tile k).outstanding < 96)
include hf hlen ho

theorem exec_send_not_enabled (hen : chEn (s.tile k).regs c = false) :
    exec (.send k ⟨.ok, err⟩ c slot src len) s = .next (s.progFault k Code.FAB_CHAN_MISMATCH (0x8000 + c)) := by
  change execSend k ⟨.ok, err⟩ c slot src len s = _
  simp [execSend, hf, hlen, issuing_ok ho, hen]

variable (hen : chEn (s.tile k).regs c = true) {rs : List (Nat × Nat)} (hsrc : SendReads (s.tile k) len src rs)
include hen hsrc

theorem exec_send_waits (hcan : (s.tile k).canSend c = false) :
    exec (.send k ⟨.ok, err⟩ c slot src len) s = .next (s.setTile k ((s.tile k).waits (some (.och c)))) := by
  change execSend k ⟨.ok, err⟩ c slot src len s = _
  cases hsrc with
  | vec h => simp [execSend, hf, hlen, issuing_ok ho, hen, Tile.reading, h, hcan, State.onTile]
  | mem h =>
    have hvec := Tile.ne_vec_of_reading h
    simp [execSend, hf, hlen, issuing_ok ho, hen, h, hvec, hcan, State.onTile]

variable (hcan : (s.tile k).canSend c = true) (hacc : err ≠ .accParity)
include hcan hacc

theorem exec_send_faults {f : Nat × Nat} (hread : (s.tile k).readFault rs err = some f) :
    exec (.send k ⟨.ok, err⟩ c slot src len) s = .next (s.tileStop k f.1 f.2) := by
  change execSend k ⟨.ok, err⟩ c slot src len s = _
  cases hsrc with
  | vec h => simp [execSend, hf, hlen, issuing_ok ho, hen, Tile.reading, h, hcan, hacc, hread]
  | mem h =>
    have hvec := Tile.ne_vec_of_reading h
    simp [execSend, hf, hlen, issuing_ok ho, hen, h, hvec, hcan, hacc, hread]

theorem exec_send_sends (hread : (s.tile k).readFault rs err = none) :
    exec (.send k ⟨.ok, err⟩ c slot src len) s = .next ((s.readCorr k rs err).progSend k c slot ((s.tile k).sentOn c)
      ((s.tile k).sendKind c) (s.tile k).bastes ((s.tile k).sendBytes src len)) := by
  change execSend k ⟨.ok, err⟩ c slot src len s = _
  cases hsrc with
  | vec h =>
    simp [execSend, hf, hlen, issuing_ok ho, hen, Tile.reading, h, hcan, hacc, hread, State.progSend, Tile.sentOn,
      Tile.sendKind]
  | mem h =>
    have hvec := Tile.ne_vec_of_reading h
    simp [execSend, hf, hlen, issuing_ok ho, hen, h, hvec, hcan, hacc, hread, State.progSend, Tile.sentOn, Tile.sendKind]

end

/-- What a send by the tile program changes: the mesh, and of the tile the channel and the youngest entry. -/
theorem progSend_only {kind : Nat} (h : kind = kData ∨ kind = kCtl) (s : State) (k c slot : Nat) (held : Held) (b : Bool)
    (pay : List Byte) : Only [.tiles, .net] s (s.progSend k c slot held kind b pay)
      ∧ ∀ j, j ≠ k → (s.progSend k c slot held kind b pay).tile j = s.tile j := by
  obtain ⟨honly, hother⟩ := sendNew_only h s k c slot b pay
  exact ⟨honly.trans ((State.onTile_only _ _ _).mono (by simp)),
    fun j hj => (State.tile_setTile_other _ _ _ _ hj).trans (hother j hj)⟩

theorem progSend_net {kind : Nat} (h : kind = kData ∨ kind = kCtl) (s : State) (k c slot : Nat) (held : Held) (b : Bool)
    (pay : List Byte) :
    (s.progSend k c slot held kind b pay).net = (s.sendAs k c kind ((s.tile k).och c).tagc slot b pay).net := by
  rw [State.progSend, sendNew_counted h]
  rfl

theorem progSend_och {kind : Nat} (h : kind = kData ∨ kind = kCtl) (s : State) (k c slot : Nat) (held : Held) (b : Bool)
    (pay : List Byte) : ((s.progSend k c slot held kind b pay).tile k).och c = ((s.tile k).och c).spendTag := by
  rw [State.progSend, State.tile_onTile_same, Tile.och_advance, tile_sendNew h]
  cases b <;> exact Tile.och_setOch_same ..

theorem progSend_entries {kind : Nat} (h : kind = kData ∨ kind = kCtl) (s : State) (k c slot : Nat) (held : Held)
    (pay : List Byte) :
    ((s.progSend k c slot held kind (s.tile k).bastes pay).tile k).entries
      = mapLast (fun e => { e with held := e.held ++ [held] }) (s.tile k).entries := by
  rw [State.progSend, State.tile_onTile_same, Tile.entries_advance, tile_sendNew h]
  cases hb : (s.tile k).bastes with
  | false => simp [Tile.bastes_eq_false.1 hb, mapLast_nil, Tile.setOch]
  | true => rfl

/-- A word of a bank corrected is recorded: the mesh stays as it is. -/
theorem spCorrected_net (s : State) (k b : Nat) : (s.spCorrected k b).net = s.net :=
  raise_of_correctable_only _ (by decide) _ _ _ .net (by simp)

/-! ### Stalled ring accesses (spec/03_compute_tile.md R107, R108) -/

section
variable {s : State} {k : Nat} (n : Nat)

theorem exec_resume_op {r : Nat} {prod : Bool} {op : TileOp} (hs : s.issues = true)
    (hst : (s.tile k).stall = some ⟨r, prod, some op⟩) (hr : s.retry k op = .ok 0 ∨ s.retry k op = .vec) :
    exec (.ringAccessResume k .prog n) s
      = .next (((s.stalledCycles k n).onTile k fun x => { x with stall := none }).issue k op) := by
  change execRingAccessResume k .prog n s = _
  rcases hr with hr | hr <;> simp [execRingAccessResume, hs, hst, hr, State.issueIf]

theorem exec_resume_word {r : Nat} {prod : Bool} (hs : s.issues = true) (hst : (s.tile k).stall = some ⟨r, prod, none⟩) :
    exec (.ringAccessResume k .prog n) s
      = .next ((s.stalledCycles k n).onTile k fun x => { x.running with stall := none }) := by
  change execRingAccessResume k .prog n s = _
  simp [execRingAccessResume, hs, hst]

theorem exec_resume_bob {b : Nat} (hs : s.issues = true) (hst : ((s.tile k).bob b).stalled = true) :
    exec (.ringAccessResume k (.bob b) n) s = .next ((s.stalledCycles k n).onTile k fun x =>
      ((x.setBob b { x.bob b with stalled := false }).set (T.BOB_STAT_STATE b) 1).untrip (.bob b)) := by
  change execRingAccessResume k (.bob b) n s = _
  simp [execRingAccessResume, hs, hst]

theorem exec_ringStall_prog {q : RingStall} (hst : (s.tile k).stall = some q) (hc : s.stallCounts q.prod = true) :
    exec (.tileRingStall k ⟨.prog, n⟩) s
      = .next ((s.stalledCycles k n).tileStop k Code.TILE_RING_STALL (q.ring + (if q.prod then 0x8000 else 0))) := by
  change execTileRingStall k ⟨.prog, n⟩ s = _
  simp [execTileRingStall, hst, hc]

theorem exec_ringStall_bob {b : Nat} (hst : ((s.tile k).bob b).stalled = true)
    (hc : s.stallCounts (bobProd (s.tile k).regs b) = true) :
    exec (.tileRingStall k ⟨.bob b, n⟩) s
      = .next (((s.stalledCycles k n).abortStream k b).tileStop k Code.TILE_RING_STALL
          ((s.tile k).get (T.BOB_CFG_RING b) + (if bobProd (s.tile k).regs b then 0x8000 else 0))) := by
  change execTileRingStall k ⟨.bob b, n⟩ s = _
  simp [execTileRingStall, hst, hc]

end

theorem stallCounts_iff (s : State) (prod : Bool) :
    s.stallCounts prod = true ↔ s.issues = true ∧ s.drain ≠ 2 ∧ (prod = true ∨ s.drain = 0) := by
  simp [State.stallCounts, and_assoc]

/-! ### A verdict that reaches a tile (spec/04_fabric_tokens_and_steering.md R131, R135) -/

section
variable {s : State} {k idx : Nat} {e : BEntry} (h : (s.tile k).entries[idx]? = some e)
include h

theorem exec_baste_open (hv : e.verdict = none) :
    exec (.basteSew ⟨k, idx⟩) s = .next (s.verdictAt k e.q (hTag e.tok.hdr) true)
      ∧ exec (.basteSquash k idx) s = .next (s.verdictAt k e.q (hTag e.tok.hdr) false) := by
  change execBasteSew ⟨k, idx⟩ s = _ ∧ execBasteSquash k idx s = _
  simp [execBasteSew, execBasteSquash, h, hv]

theorem exec_baste_decided (hv : e.verdict ≠ none) :
    exec (.basteSew ⟨k, idx⟩) s = .next s ∧ exec (.basteSquash k idx) s = .next s := by
  change execBasteSew ⟨k, idx⟩ s = _ ∧ execBasteSquash k idx s = _
  simp [execBasteSew, execBasteSquash, h, hv]

end

/-- Does an entry await the verdict of a basted token of a queue and tag? -/
def BEntry.awaits (q g : Nat) (e : BEntry) : Bool := e.q = q && hTag e.tok.hdr = g && e.verdict.isNone

/-- The record with an entry's sew verdict noted. -/
def sewIn (id : Nat) (es : List BEntry) : List BEntry :=
  es.map fun f => if f.id = id then { f with verdict := some true } else f

section
variable {s : State} {k q g : Nat} (hf : (s.tile k).holdsFault q g = false) {e : BEntry}
  (he : (s.tile k).entries.find? (BEntry.awaits q g) = some e)
include hf he

theorem verdictAt_sew : s.verdictAt k q g true
    = (s.setTile k { s.tile k with entries := sewIn e.id (s.tile k).entries }).closeSewn k 8 := by
  unfold BEntry.awaits at he
  simp only [State.verdictAt, hf, he, Bool.false_eq_true, if_false, if_true]
  rfl

theorem verdictAt_squash : s.verdictAt k q g false = s.squashEntry k e := by
  unfold BEntry.awaits at he
  simp only [State.verdictAt, hf, he, Bool.false_eq_true, if_false]

end

/-- A verdict with nothing at the tile and nothing in the mesh that it could decide. -/
theorem verdictAt_orphan {s : State} {k q g : Nat} (he : (s.tile k).entries = []) (hq : ((s.tile k).queue q).toks = [])
    (hst : (s.tile k).staging = []) (hfw : (s.tile k).fwd = []) (hh : (s.tile k).hfaults = [])
    (hn : s.bastedInNet k q g = false) (b : Bool) : s.verdictAt k q g b = s.tileStop k Code.FAB_VERDICT_ORPHAN q := by
  simp [State.verdictAt, Tile.holdsFault, he, hq, hst, hfw, hh, hn]

/-- While the oldest entry awaits its verdict no entry closes. -/
theorem closeSewn_of_undecided {s : State} {k : Nat} {e : BEntry} {l : List BEntry} (he : (s.tile k).entries = e :: l)
    (hv : e.verdict = none) (n : Nat) : s.closeSewn k n = s := by
  cases n with
  | zero => rfl
  | succ n => simp [State.closeSewn, he, hv]

theorem closeSewn_of_no_entry {s : State} {k : Nat} (he : (s.tile k).entries = []) (n : Nat) : s.closeSewn k n = s := by
  cases n with
  | zero => rfl
  | succ n => simp [State.closeSewn, he]

theorem closeSewn_of_sewn {s : State} {k : Nat} {e : BEntry} {l : List BEntry} (he : (s.tile k).entries = e :: l)
    (hv : e.verdict = some true) (n : Nat) : s.closeSewn k (n + 1) = (s.closeEntry k e).closeSewn k n := by
  simp [State.closeSewn, he, hv]

/-! ### What keeps the basting record of every tile -/

/-- The basting record of every tile is the same in two states. -/
def SameEntries (s t : State) : Prop := ∀ k, (t.tile k).entries = (s.tile k).entries

namespace SameEntries

theorem refl (s : State) : SameEntries s s := fun _ => rfl

theorem trans {s t u : State} (h : SameEntries s t) (g : SameEntries t u) : SameEntries s u :=
  fun k => (g k).trans (h k)

theorem of_tiles {s t : State} (h : t.tiles = s.tiles) : SameEntries s t :=
  fun k => congrArg (fun m => (kvGet ({} : Tile) m k).entries) h

theorem of_only {L : List Part} {s t : State} (h : Only L s t) (hL : Part.tiles ∉ L) : SameEntries s t :=
  of_tiles (h .tiles hL)

theorem setTile (s : State) (k : Nat) {x : Tile} (h : x.entries = (s.tile k).entries) : SameEntries s (s.setTile k x) := by
  intro j
  by_cases hj : j = k
  · subst hj
    rwa [State.tile_setTile_same]
  · rw [State.tile_setTile_other _ _ _ _ hj]

theorem foldl {α : Type} {f : State → α → State} (h : ∀ s a, SameEntries s (f s a)) (l : List α) (s : State) :
    SameEntries s (l.foldl f s) := by
  induction l generalizing s with
  | nil => exact refl s
  | cons a l ih => exact (h s a).trans (ih _)

end SameEntries

theorem Tile.entries_setBob (x : Tile) (b : Nat) (v : Bob) : (x.setBob b v).entries = x.entries := by
  unfold Tile.setBob
  split <;> rfl

theorem Tile.entries_abortBob (x : Tile) (b : Nat) : (x.abortBob b).entries = x.entries := by
  unfold Tile.abortBob
  split
  · exact x.entries_setBob b _
  · rfl

theorem abortStream_sameEntries (s : State) (k b : Nat) : SameEntries s (s.abortStream k b) := by
  unfold State.abortStream
  have htile : SameEntries s (s.setTile k (((s.tile k).abortBob b).set (T.BOB_STAT_OUTST b)
      (((s.tile k).abortBob b).bob b).reqs.length)) := .setTile s k ((s.tile k).entries_abortBob b)
  exact htile.trans (.of_only (State.injectAll_only _ _ _) (by decide))

/-- A table whose values are changed, read at a key. -/
theorem kvGet?_map {α : Type} (f : α → α) (m : Kv α) (k : Nat) :
    kvGet? (m.map fun e => (e.1, f e.2)) k = (kvGet? m k).map f := by
  induction m with
  | nil => rfl
  | cons e m ih =>
    obtain ⟨j, v⟩ := e
    simp only [List.map_cons, kvGet?, ih]
    split <;> rfl

theorem abortBobs_sameEntries (s : State) : SameEntries s s.abortBobs := by
  have hbobs := SameEntries.foldl (fun s k => (abortStream_sameEntries s k 0).trans (abortStream_sameEntries _ k 1))
    (s.tiles.map Prod.fst) s
  refine hbobs.trans fun k => ?_
  simp only [State.abortBobs, State.tile, kvGet, kvGet?_map fun x : Tile => { x with tripped := [] }]
  cases kvGet? (List.foldl _ s _).tiles k <;> rfl

theorem startFlush_sameEntries (s : State) : SameEntries s s.startFlush := by
  unfold State.startFlush
  split
  · exact .refl s
  · exact abortBobs_sameEntries ((s.set R.UNP_STATUS_DRAIN 2).set R.UNP_STATUS_STATE 0)

theorem stepFatal_sameEntries (s : State) (c : Nat) : SameEntries s (s.stepFatal c) := by
  unfold State.stepFatal
  split
  · split <;> exact .of_tiles rfl
  · exact (SameEntries.of_only (s.abandonStep_only c) (by simp)).trans (startFlush_sameEntries _)

/-- Raising a fault keeps the basting records: a flush that it starts aborts bobbins only. -/
theorem raise_sameEntries (s : State) (c n i a : Nat) : SameEntries s (s.raise c n i a) := by
  unfold State.raise State.raiseAs
  extract_lets r cls boot first flags rec' wasSafe s1 m1 s2 f2 p2 s3
  have h1 : SameEntries s s1 :=
    (SameEntries.of_only (s.bump_only _ _) (by simp)).trans (.of_only (State.hold_only _ _) (by simp))
  have h2 : SameEntries s s2 := by
    refine h1.trans ?_
    simp only [s2]
    split <;> exact .of_tiles rfl
  have h3 : SameEntries s s3 := by
    refine h2.trans ?_
    simp only [s3]
    split
    · exact stepFatal_sameEntries _ _
    · exact .refl _
  split
  · exact h2
  · split
    · exact h2
    · split
      · exact h2
      · split
        · exact h3.trans (startFlush_sameEntries _)
        · exact h3

theorem tileStop_sameEntries (s : State) (k c n : Nat) : SameEntries s (s.tileStop k c n) :=
  (raise_sameEntries s c k n _).trans (.setTile _ k rfl)

theorem tileCnt_sameEntries (s : State) (k : Nat) (c : Cnt) : SameEntries s (s.tileCnt k c) := by
  have hcnt : SameEntries s (s.addCnt (panelOf k) c) := .of_only (s.addCnt_only _ c) (by simp)
  unfold State.tileCnt
  dsimp only
  split
  · exact hcnt
  · exact hcnt.trans (.setTile _ k rfl)

theorem release_sameEntries (s : State) (k : Nat) (h : Held) : SameEntries s (s.release k h) := by
  cases h with
  | write => exact .setTile s k rfl
  | vec => exact .setTile s k rfl
  | vred => exact .setTile s k rfl
  | count c => exact tileCnt_sameEntries s k c
  | fault code sub => exact tileStop_sameEntries s k code sub
  | sent => exact .of_tiles rfl

theorem releaseAll_sameEntries (k : Nat) (l : List Held) (s : State) : SameEntries s (s.releaseAll k l) := by
  induction l generalizing s with
  | nil => exact .refl s
  | cons h l ih => exact (release_sameEntries s k h).trans (ih _)

theorem freeSlot_sameEntries (s : State) (k q g : Nat) (owes : Bool) : SameEntries s (s.freeSlot k q g owes) := by
  intro j
  obtain ⟨qs, hqs⟩ := tile_freeSlot s k q g owes j
  rw [hqs]

/-- Closing an entry takes the oldest one out of the record. -/
theorem closeEntry_entries (s : State) (k : Nat) (e : BEntry) :
    ((s.closeEntry k e).tile k).entries = (s.tile k).entries.drop 1 := by
  let t := s.setTile k { s.tile k with entries := (s.tile k).entries.drop 1 }
  have hfree : SameEntries t (s.closeEntry k e) :=
    ((releaseAll_sameEntries k e.held t).trans
      (.foldl (fun t p => freeSlot_sameEntries t k p.1 (s.tile k).gen p.2.2) e.taken _)).trans
      (freeSlot_sameEntries _ k e.q _ e.owes)
  exact (hfree k).trans (congrArg Tile.entries (State.tile_setTile_same ..))

/-- With nothing held and nothing consumed beside its own token, an entry that closes frees that token's slot. -/
theorem closeEntry_of_bare {s : State} {k : Nat} {e : BEntry} (ht : e.taken = []) (hh : e.held = []) :
    s.closeEntry k e = (s.setTile k { s.tile k with entries := (s.tile k).entries.drop 1 }).freeSlot k e.q (s.tile k).gen
      e.owes := by
  rw [State.closeEntry, ht, hh]
  rfl

/-- A sew verdict of the only entry closes it. -/
theorem verdictAt_sew_only {s : State} {k : Nat} {e : BEntry} (he : (s.tile k).entries = [e]) (hv : e.verdict = none)
    (hf : (s.tile k).holdsFault e.q (hTag e.tok.hdr) = false) :
    s.verdictAt k e.q (hTag e.tok.hdr) true
      = (s.setTile k { s.tile k with entries := [{ e with verdict := some true }] }).closeEntry k
          { e with verdict := some true } := by
  let s' := s.setTile k { s.tile k with entries := [{ e with verdict := some true }] }
  have hs' : (s'.tile k).entries = [{ e with verdict := some true }] := by rw [State.tile_setTile_same]
  have hfind : (s.tile k).entries.find? (BEntry.awaits e.q (hTag e.tok.hdr)) = some e := by
    simp [he, BEntry.awaits, hv]
  have hsew : sewIn e.id (s.tile k).entries = [{ e with verdict := some true }] := by
    simp [he, sewIn]
  rw [verdictAt_sew hf hfind, hsew, closeSewn_of_sewn hs' rfl]
  exact closeSewn_of_no_entry (by rw [closeEntry_entries, hs']; rfl) 7

/-- A sew verdict of a younger entry is noted; the entry waits for the older ones. -/
theorem verdictAt_sew_younger {s : State} {k q g : Nat} {e f : BEntry} {l : List BEntry}
    (he : (s.tile k).entries = e :: l) (hv : e.verdict = none) (hid : e.id ∉ l.map BEntry.id)
    (hf : (s.tile k).holdsFault q g = false) (hne : ¬ (e.q = q ∧ hTag e.tok.hdr = g))
    (hl : l.find? (BEntry.awaits q g) = some f) :
    s.verdictAt k q g true = s.setTile k { s.tile k with entries := e :: sewIn f.id l } := by
  have hfind : (s.tile k).entries.find? (BEntry.awaits q g) = some f := by
    rw [he, List.find?_cons_of_neg, hl]
    simpa [BEntry.awaits] using fun h1 h2 => absurd ⟨h1, h2⟩ hne
  have hother : e.id ≠ f.id := fun h => hid (h ▸ List.mem_map_of_mem (List.mem_of_find?_eq_some hl))
  have hsew : sewIn f.id (s.tile k).entries = e :: sewIn f.id l := by
    simp [he, sewIn, hother]
  rw [verdictAt_sew hf hfind, hsew]
  exact closeSewn_of_undecided (by rw [State.tile_setTile_same]) hv 8

/-! ### A squash verdict (spec/04_fabric_tokens_and_steering.md R135) -/

/-- Where no two entries share an identifier, those before one are those older than it. -/
theorem takeWhile_id_eq_take {l : List BEntry} {idx : Nat} {e : BEntry} (h : l[idx]? = some e)
    (hl : (l.map BEntry.id).Nodup) : (l.takeWhile fun f => f.id ≠ e.id) = l.take idx := by
  induction l generalizing idx with
  | nil => simp
  | cons f l ih =>
    obtain ⟨hf, hl⟩ := List.nodup_cons.1 hl
    cases idx with
    | zero =>
      obtain rfl : f = e := by simpa using h
      simp
    | succ idx =>
      have hmem : e ∈ l := List.mem_of_getElem? h
      have hne : f.id ≠ e.id := fun hid => hf (hid ▸ List.mem_map_of_mem hmem)
      rw [List.takeWhile_cons_of_pos (by simpa using hne), List.take_succ_cons, ih h hl]

/-- Tokens put back change the queues only. -/
theorem restoreToks_eq (x : Tile) (l : List (Nat × Token × Bool)) : ∃ qs, x.restoreToks l = { x with queues := qs } := by
  induction l with
  | nil => exact ⟨_, rfl⟩
  | cons p l ih =>
    obtain ⟨qs, hqs⟩ := ih
    rw [Tile.restoreToks, hqs]
    exact ⟨_, rfl⟩

/-- Steps that each change the channels only change the channels only. -/
theorem foldl_ochs {α : Type} {f : Tile → α → Tile} (h : ∀ y a, ∃ os, f y a = { y with ochs := os }) (l : List α)
    (x : Tile) : ∃ os, l.foldl f x = { x with ochs := os } := by
  induction l generalizing x with
  | nil => exact ⟨_, rfl⟩
  | cons a l ih =>
    obtain ⟨os, hos⟩ := h x a
    rw [List.foldl_cons, hos]
    exact ih _

theorem foldl_tile {α : Type} {f : State → α → State} {k : Nat} (h : ∀ s a, (f s a).tile k = s.tile k) (l : List α)
    (s : State) : (l.foldl f s).tile k = s.tile k := by
  induction l generalizing s with
  | nil => rfl
  | cons a l ih => exact (ih _).trans (h s a)

theorem tile_sendVerdicts (k : Nat) (b : Bool) (l : List (Nat × Nat × Nat)) (s : State) (j : Nat) :
    (s.sendVerdicts k b l).tile j = s.tile j := by
  induction l generalizing s with
  | nil => rfl
  | cons p l ih => exact ih _

/-- The registers that a checkpoint restores. -/
def Tile.restoreRegs (x : Tile) (c : Checkpoint) : Tile :=
  ((((x.set T.TILE_STATUS_PC c.pc).set T.TILE_DL_DL0 (c.dl.getD 0 0)).set T.TILE_DL_DL1 (c.dl.getD 1 0)).set
    T.TILE_DL_DL2 (c.dl.getD 2 0)).set T.TILE_DL_DL3 (c.dl.getD 3 0)

/-- A tile after a squash: the entries older than the one squashed, the loops and registers of its checkpoint, and the
contents of scratchpad and vector unit as they were. -/
structure Squashed (x : Tile) (e : BEntry) (y : Tile) : Prop where
  entries : y.entries = x.entries.takeWhile fun f => f.id ≠ e.id
  loops : y.loops = e.chk.loops
  regs : ∀ f : Fld, f.key ≠ T.TILE_STATUS_STATE.key → y.get f = (x.restoreRegs e.chk).get f
  spad : y.spad = x.spad
  vec : y.vec = x.vec
  vred : y.vred = x.vred

theorem squashEntry_squashed (s : State) (k : Nat) (e : BEntry) : Squashed (s.tile k) e ((s.squashEntry k e).tile k) := by
  unfold State.squashEntry
  extract_lets x es sent ids x1 x2 x3 x4 x5 faultHeld x6 x7 v x8 s1 s2
  have h2 : ∃ qs, x2 = { x1 with queues := qs } := restoreToks_eq _ _
  obtain ⟨qs, h2⟩ := h2
  have h3 : ∃ os, x3 = { x2 with ochs := os } := by
    refine foldl_ochs (fun y c => ?_) _ _
    split
    · split
      · exact ⟨_, rfl⟩
      · exact ⟨_, rfl⟩
    · exact ⟨_, rfl⟩
  obtain ⟨os, h3⟩ := h3
  clear_value x2 x3
  have h5 : Squashed x e x5 := by
    simp only [x5, x4, h3, h2]
    exact ⟨rfl, rfl, fun _ _ => rfl, rfl, rfl, rfl⟩
  clear_value x5
  have h6 : Squashed x e x6 := by
    simp only [x6]
    split
    · exact h5
    · exact { h5 with regs := fun f hf => (x5.get_set_other 1 hf).trans (h5.regs f hf) }
  clear_value x6
  have h8 : Squashed x e x8 := ⟨h6.entries, h6.loops, h6.regs, h6.spad, h6.vec, h6.vred⟩
  clear_value x8
  have hslot : ∃ qs, s1.tile k = { x8 with queues := qs } := by
    obtain ⟨qs, hqs⟩ := tile_freeSlot (s.setTile k x8) k e.q x8.gen e.owes k
    exact ⟨qs, by rw [hqs, State.tile_setTile_same]⟩
  obtain ⟨qs', hslot⟩ := hslot
  have hcredits : s2.tile k = s1.tile k := by
    refine foldl_tile (fun s p => ?_) _ _
    split
    · exact tile_laneCredits ..
    · rfl
  rw [tile_sendVerdicts, hcredits, hslot]
  exact ⟨h8.entries, h8.loops, h8.regs, h8.spad, h8.vec, h8.vred⟩

/-- `PC` and the first DL register after a squash. -/
theorem Squashed.pc_dl0 {x y : Tile} {e : BEntry} (h : Squashed x e y) :
    y.get T.TILE_STATUS_PC = e.chk.pc % 2048 ∧ y.get T.TILE_DL_DL0 = e.chk.dl.getD 0 0 % 65536 := by
  have hother (z : Tile) {f g : Fld} (v : Nat) (hk : g.key ≠ f.key) := z.get_set_other v hk
  rw [h.regs _ (by decide), h.regs _ (by decide), Tile.restoreRegs]
  constructor
  · rw [hother _ _ (by decide), hother _ _ (by decide), hother _ _ (by decide), hother _ _ (by decide), Tile.get_set_same]
    rfl
  · rw [hother _ _ (by decide), hother _ _ (by decide), hother _ _ (by decide), Tile.get_set_same]
    rfl

/-- The squash verdict of an entry before which none awaits one of its queue and tag. -/
theorem verdictAt_squash_at {s : State} {k idx : Nat} {e : BEntry} (h : (s.tile k).entries[idx]? = some e)
    (hv : e.verdict = none) (hf : (s.tile k).holdsFault e.q (hTag e.tok.hdr) = false)
    (hfirst : ∀ j f, j < idx → (s.tile k).entries[j]? = some f → ¬ (f.q = e.q ∧ hTag f.tok.hdr = hTag e.tok.hdr)) :
    s.verdictAt k e.q (hTag e.tok.hdr) false = s.squashEntry k e := by
  obtain ⟨hlt, hget⟩ := List.getElem?_eq_some_iff.1 h
  refine verdictAt_squash hf (List.find?_eq_some_iff_getElem.2
    ⟨by simp [BEntry.awaits, hv], idx, hlt, hget, fun j hj => ?_⟩)
  have := hfirst j _ hj (List.getElem?_eq_getElem (hj.trans hlt))
  simp only [BEntry.awaits, Bool.not_eq_true', Bool.and_eq_false_iff, decide_eq_false_iff_not]
  exact .inl (not_and_or.1 this)

/-! ### The obligations -/

/-- Settles O54: each command reaches the one branch of its meaning that the conditions leave. -/
theorem tileProgramCommandsComplete : Obligations.TileProgramCommandsComplete := by
  refine ⟨?recv, ?send, fun k n b s hs hst => exec_resume_bob n hs hst,
    fun k n r prod op s hs hst hr => exec_resume_op n hs hst (.inl hr),
    fun k n r prod op s hst hc => exec_ringStall_prog (q := ⟨r, prod, op⟩) n hst hc,
    fun k idx e s h hv => exec_baste_open h hv⟩
  case recv =>
    intro k q g adr tk s hf ho hq hc hh hk hb hp hl
    have hmarker : hKind tk.hdr ≠ kHem ∧ hKind tk.hdr ≠ kEnd := by
      rw [hk]
      decide
    rw [exec_recv_lands hf ho hq hc hh hmarker.1 hmarker.2 (by simp [hb]) .ok hp hl (.inr ⟨adr, rfl⟩), queueRead_ok]
  case send =>
    intro k c slot len s hf hlen ho hen hbusy hcan he
    have hclosed := Tile.bastes_eq_false.2 he
    rw [exec_send_sends (err := .none) hf hlen ho hen (.vec hbusy) hcan nofun rfl, hclosed]
    rfl

/-- Settles O11: taking a token, sending, landing and closing are one equation each; a squash is followed through the
tiles that it passes. -/
theorem recvSendAndTheBastingRecord : Obligations.RecvSendAndTheBastingRecord := by
  refine ⟨?takeBasted, fun k q tk s hb he => progTake_of_no_entry hb he, ?consume,
    fun k q tk e l s hb he => progTake_of_entry hb he, fun k c kind tag slot b pay s => rfl, ?recvLands,
    fun x adr slot b he => Tile.land_of_no_entry he adr slot b, fun x adr slot b l e he => Tile.land_of_entry he adr slot b,
    fun x slot g n adr h => Tile.landing_spad h, ?recvElse, ?sends, ?sendErrors, ?sendElse, ?resumeOp, ?resumeWord,
    fun k n b s hs hst => exec_resume_bob n hs hst, fun k n s => rfl, fun k n q s hst hc => exec_ringStall_prog n hst hc,
    fun k n b s hst hc => exec_ringStall_bob n hst hc, stallCounts_iff, fun k idx e s h hv => exec_baste_open h hv,
    fun k idx e s h hv => exec_baste_decided h hv, ?sewOnly, ?sewYounger, fun k e s ht hh => closeEntry_of_bare ht hh,
    fun k adr off code sub a d q g c b p s => ⟨rfl, rfl, rfl, rfl, rfl⟩, ?squash, ?orphan⟩
  case takeBasted =>
    intro k q tk s hb
    dsimp only
    rw [progTake_basted hb]
    exact ⟨setTile_onlyTile .., _, by rw [State.tile_setTile_same], rfl, rfl, rfl, rfl, rfl, rfl, rfl⟩
  case consume =>
    intro k q s hs
    obtain ⟨l, hlen, hl⟩ := consume_eq hs
    rw [hl]
    refine ⟨fun p hp => ?_, fun j hj => State.tile_setTile_other s k j _ hj, ?_, l, rfl, hlen⟩
    · cases p
      case tiles | lane => simp at hp
      all_goals rfl
    · exact (congrArg (Tile.queue · q) (s.tile_setTile_same k _)).trans rfl
  case recvLands =>
    intro k q l dst tk s hf ho hq hc hh hhem hend hb hp hl hok
    have hlands (pay : Ecc) := exec_recv_lands hf ho hq hc hh hhem hend hb pay hp hl hok
    refine ⟨?_, ?_, ?_⟩
    · rw [hlands, queueRead_ok]
    · rw [hlands, queueRead_uncorrectable _ _ _ hp]
    · rw [hlands, queueRead_corrected _ _ _ hp]
  case recvElse =>
    intro k q pay dst s hf ho
    obtain ⟨f, hrun, -⟩ := exec_recv pay q dst hf ho
    rw [hrun]
    refine ⟨fun h => by rw [progHead_not_owner h], fun hq hc hh => by rw [progHead_empty hq hc hh],
      fun tk hq hc hh hk => by rw [progHead_hem hq hc hh hk], fun tk hq hc hh hk => by rw [progHead_end hq hc hh hk],
      fun tk hq hc hh hhem hend hb => ?_⟩
    obtain ⟨u, hrun', htakes⟩ := exec_recv_token hf ho hq hc hh hhem hend hb pay dst
    rw [← hrun, hrun']
    refine ⟨fun hp => by rw [htakes.marker hp], fun c hp hl => ?_, fun r hp hl => by rw [htakes.stall r hp hl]⟩
    rw [htakes.fault c hp hl, State.headFault]
    exact ⟨fun hs => by rw [hs, if_neg Bool.false_ne_true], fun hs => by rw [hs, if_pos rfl]; rfl⟩
  case sends =>
    intro k c slot len src s hf hlen ho hen hsrc hcan x kind s'
    have hreads : ∃ rs, SendReads x len src rs := by
      obtain ⟨rfl, hbusy⟩ | ⟨adr, hadr⟩ := hsrc
      · exact ⟨_, .vec hbusy⟩
      · exact ⟨_, .mem hadr⟩
    obtain ⟨rs, hreads⟩ := hreads
    have hkind := x.sendKind_counted c
    obtain ⟨honly, hother⟩ := progSend_only hkind s k c slot (x.sentOn c) x.bastes (x.sendBytes src len)
    refine ⟨_, exec_send_sends (err := .none) hf hlen ho hen hreads hcan nofun rfl, progSend_net hkind s k c slot _ _ _,
      honly, hother, progSend_och hkind s k c slot _ _ _, fun he => ?_, fun l e he => ?_⟩
    · exact (progSend_entries hkind s k c slot (x.sentOn c) _).trans (by rw [he, mapLast_nil])
    · exact (progSend_entries hkind s k c slot (x.sentOn c) _).trans (by rw [he, mapLast_append]; rfl)
  case sendErrors =>
    intro k c slot len adr b src s hf hlen ho hen hvec hadr hcan hb
    have hreads : SendReads (s.tile k) len src [(adr, len)] := .mem hadr
    refine ⟨fun hw => ⟨?_, ?_⟩, fun hw => ?_⟩
    · exact exec_send_faults (err := .spUncorr b) (f := (Code.TILE_SP_UNCORR, b)) hf hlen ho hen hreads hcan nofun
        (by simp [Tile.readFault, hb, hw])
    · refine ⟨_, exec_send_sends (err := .spCorr b) hf hlen ho hen hreads hcan nofun rfl, ?_⟩
      have hcorr : s.readCorr k [(adr, len)] (.spCorr b) = s.spCorrected k b := by simp [State.readCorr, hb, hw]
      have hkind := (s.tile k).sendKind_counted c
      rw [hcorr, progSend_net hkind]
      refine ⟨(progSend_only hkind ..).1 .flt (by decide), ?_⟩
      obtain ⟨n, hn⟩ := sendAs_eq (s.spCorrected k b) k c ((s.tile k).sendKind c) (((s.spCorrected k b).tile k).och c).tagc
        slot (s.tile k).bastes ((s.tile k).sendBytes src len)
      exact ⟨n, by rw [hn, spCorrected_net]⟩
    · exact exec_send_faults (err := .spParity b) (f := (Code.TILE_SP_PARITY, b)) hf hlen ho hen hreads hcan nofun
        (by simp [Tile.readFault, hb, hw])
  case sendElse =>
    intro k c slot len err src s hf hlen ho
    refine ⟨fun hen => exec_send_not_enabled hf hlen ho hen, fun hen hadr _ hcan => ?_⟩
    obtain ⟨adr, hadr⟩ := hadr
    exact exec_send_waits hf hlen ho hen (.mem hadr) hcan
  case resumeOp =>
    intro k n q op s hs hst hop hr
    obtain ⟨r, prod, op'⟩ := q
    cases hop
    exact exec_resume_op n hs hst hr
  case resumeWord =>
    intro k n q s hs hst hop
    obtain ⟨r, prod, op'⟩ := q
    cases hop
    exact exec_resume_word n hs hst
  case sewOnly =>
    intro k e s he hv hf
    refine ⟨_, (exec_baste_open (by rw [he]; rfl) hv).1, verdictAt_sew_only he hv hf⟩
  case sewYounger =>
    intro k q g e f l s he hv _ hid hf hne hl
    exact verdictAt_sew_younger he hv hid hf hne hl
  case squash =>
    intro k idx e s h hids hv hf hfirst
    have hsq := squashEntry_squashed s k e
    obtain ⟨hpc, hdl0⟩ := hsq.pc_dl0
    refine ⟨_, (exec_baste_open h hv).2, ?_⟩
    rw [verdictAt_squash_at h hv hf hfirst]
    exact ⟨by rw [hsq.entries, takeWhile_id_eq_take h hids], hpc, hsq.loops, hdl0, hsq.spad, hsq.vec, hsq.vred⟩
  case orphan =>
    intro k q g b s hs hk he hq hst hfw hh hn
    change execVerdictToken k q g b s = _
    simp [execVerdictToken, hs, hk, verdictAt_orphan he hq hst hfw hh hn]

end Sys2Proof.Machine
end

section
/-! PROOFS. Tokens on their way: routes, router inputs, arbitration, delivery, credits, buckets, guards and wait deadlines
(spec/04_fabric_tokens_and_steering.md R112 to R121, R140, R141, Table 4.4). -/

namespace Sys2Proof.Machine

/-! ### Routes (spec/04_fabric_tokens_and_steering.md R140, R145) -/

theorem portTo_columns_first (r d : Nat) :
    (portTo r d = .out ↔ tileX r = tileX d ∧ tileY r = tileY d)
      ∧ (tileX r < tileX d → portTo r d = .east) ∧ (tileX d < tileX r → portTo r d = .west)
      ∧ (tileX r = tileX d → tileY r < tileY d → portTo r d = .north)
      ∧ (tileX r = tileX d → tileY d < tileY r → portTo r d = .south) := by
  unfold portTo
  refine ⟨?_, fun h => if_pos h, fun h => ?_, fun hx h => ?_, fun hx h => ?_⟩
  · simp only [ite_eq_iff, reduceCtorEq, and_false, false_or, and_true]
    omega
  · rw [if_neg (by omega), if_pos h]
  · rw [if_neg (by omega), if_neg (by omega), if_pos h]
  · rw [if_neg (by omega), if_neg (by omega), if_neg (by omega), if_pos h]

theorem NetTok.exit_tile {n : NetTok} (h : hDest n.tok.hdr < nTiles) :
    n.exit = hDest n.tok.hdr ∧ n.port = portTo n.r (hDest n.tok.hdr) := by
  have hexit : n.exit = hDest n.tok.hdr := if_pos h
  refine ⟨hexit, ?_⟩
  rw [NetTok.port, if_neg (by simp [h]), hexit]

theorem NetTok.exit_unit {n : NetTok} {a : Nat × Nat} (h : nTiles ≤ hDest n.tok.hdr)
    (ha : (attachments (hDest n.tok.hdr))[n.att]? = some a) :
    n.exit = a.2 ∧ (n.r = a.2 → n.port = attSide (hDest n.tok.hdr)) := by
  have hexit : n.exit = a.2 := by simp [NetTok.exit, Nat.not_lt.2 h, ha]
  exact ⟨hexit, fun hr => if_pos (by simp [hexit, hr, h])⟩

/-- No tile is attached as a selvedge unit. -/
theorem attachments_tile {d : Nat} (h : d < nTiles) : attachments d = [] := by
  unfold nTiles at h
  have hmc : inRange 0xC00 0xC17 d = false := by simp [inRange]; omega
  have hsp : inRange 0xC20 0xC27 d = false := by simp [inRange]; omega
  have hother : d ≠ 0xC30 ∧ d ≠ 0xC34 ∧ d ≠ 0xC31 ∧ d ≠ 0xC32 ∧ d ≠ 0xC33 := by omega
  simp [attachments, hmc, hsp, hother]

theorem destReserved_tile {d : Nat} (h : d < nTiles) : destReserved d = false := by
  have h' : d < 0x900 := h
  simp [destReserved, h']

/-! ### Arbitration (spec/04_fabric_tokens_and_steering.md R141) -/

/-- While both classes contend, the one whose turn it is goes first. -/
theorem Arb.pickVc_class (a : Arb) {l : List NetTok} (hhi : ∃ n ∈ l, n.vc < 2) (hlo : ∃ n ∈ l, n.vc = 2 ∨ n.vc = 3) :
    (a.low = true → a.pickVc l = 2 ∨ a.pickVc l = 3) ∧ (a.low = false → a.pickVc l = 0 ∨ a.pickVc l = 1) := by
  have hhi' : ((l.any fun n => n.vc = 0) || l.any fun n => n.vc = 1) = true := by
    obtain ⟨n, hn, hv⟩ := hhi
    simp only [Bool.or_eq_true, List.any_eq_true, decide_eq_true_eq]
    rcases (by omega : n.vc = 0 ∨ n.vc = 1) with hv | hv
    · exact .inl ⟨n, hn, hv⟩
    · exact .inr ⟨n, hn, hv⟩
  have hlo' : ((l.any fun n => n.vc = 2) || l.any fun n => n.vc = 3) = true := by
    obtain ⟨n, hn, hv⟩ := hlo
    simp only [Bool.or_eq_true, List.any_eq_true, decide_eq_true_eq]
    rcases hv with hv | hv
    · exact .inl ⟨n, hn, hv⟩
    · exact .inr ⟨n, hn, hv⟩
  refine ⟨fun ha => ?_, fun ha => ?_⟩
  · simp only [Arb.pickVc, hhi', hlo', ha, Bool.and_self, Bool.not_true, Bool.and_false, Bool.false_eq_true, if_false]
    split
    · exact .inl rfl
    · exact .inr rfl
  · simp only [Arb.pickVc, hhi', ha, Bool.and_false, Bool.not_false, Bool.and_self, if_true]
    split
    · exact .inl rfl
    · exact .inr rfl

/-- Of the low class alone VC2 goes first, but VC3 once the guard timer has run out, and then its oldest token. -/
theorem Arb.pickVc_low (a : Arb) {l : List NetTok} (hl : ∀ n ∈ l, n.vc = 2 ∨ n.vc = 3) (h2 : ∃ n ∈ l, n.vc = 2)
    (h3 : ∃ n ∈ l, n.vc = 3) :
    (a.guard = false → a.pickVc l = 2)
      ∧ (a.guard = true → a.pickVc l = 3 ∧ a.pick l = (l.filter fun n => n.vc = 3).head?) := by
  have hhas (v : Nat) (hv : v < 2) : (l.any fun n => decide (n.vc = v)) = false := by
    simp only [List.any_eq_false, decide_eq_true_eq]
    exact fun n hn h => by have := hl n hn; omega
  have h2' : (l.any fun n => decide (n.vc = 2)) = true := by simpa using h2
  have h3' : (l.any fun n => decide (n.vc = 3)) = true := by simpa using h3
  have hvc : a.pickVc l = if a.guard then 3 else 2 := by
    simp only [Arb.pickVc, hhas 0 (by decide), hhas 1 (by decide), h2', h3']
    cases a.guard <;> rfl
  refine ⟨fun hg => by simp [hvc, hg], fun hg => ?_⟩
  have hpick : a.pickVc l = 3 := by simp [hvc, hg]
  exact ⟨hpick, by simp [Arb.pick, hpick, hg]⟩

theorem Arb.granted_class (a : Arb) (n : NetTok) :
    (a.granted n).low = decide (n.vc < 2) ∧ (n.vc = 3 → (a.granted n).guard = false) :=
  ⟨rfl, fun h => if_pos h⟩

/-! ### The token that moves -/

/-- With a good check code the token named is one of the mesh with that header, and it may move there. -/
theorem mem_of_named {s : State} {there : NetTok → Bool} {n : NetTok} (h : s.named there n.tok.hdr = .tok n)
    (hok : hdrOk n.tok.hdr = true) : n ∈ s.net ∧ there n = true ∧ s.moves n = true := by
  simp only [State.named, hok, Bool.not_true, Bool.false_and, Bool.false_eq_true, if_false] at h
  split at h
  · rename_i m hm
    injection h with h
    subst h
    have hmoves := List.find?_some hm
    simp only [Bool.and_eq_true] at hmoves
    exact ⟨(List.mem_filter.1 (List.mem_of_find?_eq_some hm)).1, hmoves⟩
  · split at h <;> cases h

theorem depart_net (s : State) (n : NetTok) : (s.depart n).net = s.net.erase n := by
  unfold State.depart
  dsimp only
  split <;> rfl

@[simp] theorem tile_depart (s : State) (n : NetTok) (k : Nat) : (s.depart n).tile k = s.tile k := by
  unfold State.depart
  dsimp only
  split <;> rfl

/-! ### Checks on a token (spec/04_fabric_tokens_and_steering.md R115, Table 4.4) -/

@[simp] theorem payCheck_ok (s : State) (u : Nat) (k : Token) : s.payCheck u k .ok = (s, true) := by
  simp [State.payCheck]

theorem payCheck_uncorrectable (s : State) {u : Nat} {k : Token} (hu : u < nTiles) (hp : k.pay ≠ []) :
    s.payCheck u k .uncorrectable = (s.tileStop u Code.FAB_PAYLOAD_UNCORR 0, false) := by
  simp [State.payCheck, hp, hu]

/-- A check that a sewn token fails at a tile or its router stops the tile; a token dropped for its generation is
counted. -/
theorem tokFault_tile {k : Token} (hb : hBasted k.hdr = false) {t c : Nat} (ht : t < nTiles) (hc : c ≠ Code.FAB_PAYLOAD_CORR)
    (s : State) (sub : Nat) (drop : Bool) :
    s.tokFault k c t sub drop = (if drop then s.bump R.GEN_DROP 1 else s).tileStop t c sub := by
  simp [State.tokFault, State.raiseHeld, hb, Nat.not_le.2 ht, hc]

/-- A check that a sewn token fails at a selvedge unit raises the fault. -/
theorem tokFault_unit {k : Token} (hb : hBasted k.hdr = false) {u : Nat} (hu : nTiles ≤ u) (s : State) (c sub : Nat)
    (drop : Bool) : s.tokFault k c u sub drop = (if drop then s.bump R.GEN_DROP 1 else s).raise c u sub 0 := by
  simp [State.tokFault, State.raiseHeld, hb, hu]

/-! ### Router inputs (spec/04_fabric_tokens_and_steering.md R117, Table 4.4 checks 1 and 2) -/

section
variable (s : State) {n : NetTok} {hdr : W64}

theorem routerIn_ok (hok : hdrOk hdr = true) (hf : fieldBad hdr = false) :
    s.routerIn n hdr .ok = { s with net := s.net ++ [n] } := by
  simp [State.routerIn, hok, hf]

theorem routerIn_badCode (hok : hdrOk hdr = false) (e : Ecc) :
    s.routerIn n hdr e = s.tileStop n.r Code.FAB_HDR_CRC 0 := by
  simp [State.routerIn, hok]

theorem routerIn_badField (hr : n.r < nTiles) (hok : hdrOk hdr = true) (hf : fieldBad hdr = true)
    (hb : hBasted n.tok.hdr = false) : s.routerIn n hdr .ok = s.tileStop n.r Code.FAB_HDR_FIELD 0 := by
  simp [State.routerIn, hok, hf, tokFault_tile hb hr (by decide : Code.FAB_HDR_FIELD ≠ Code.FAB_PAYLOAD_CORR)]

theorem routerIn_badPayload (hr : n.r < nTiles) (hok : hdrOk hdr = true) (hp : n.tok.pay ≠ []) :
    s.routerIn n hdr .uncorrectable = s.tileStop n.r Code.FAB_PAYLOAD_UNCORR 0 := by
  simp [State.routerIn, hok, payCheck_uncorrectable s hr hp]

end

section
variable {s : State} {r : Nat} {hdr : W64} (hr : r < nTiles) (hs : s.safe = false)
include hr hs

theorem exec_routerInput_tok {n : NetTok} (hn : s.named (fun m => !m.arrived && m.next.1 = r) hdr = .tok n)
    (hnext : n.next.1 = r) (pay : List Byte) (e : Ecc) : exec (.tokenRouterInput r hdr pay e) s
      = .next ((s.depart n).routerIn { n with r := r, inp := n.next.2, ent := true } hdr e) := by
  change execTokenRouterInput r hdr pay e s = _
  simp [execTokenRouterInput, Nat.not_le.2 hr, hs, hn, hnext]

theorem exec_routerInput_outside (hn : s.named (fun m => !m.arrived && m.next.1 = r) hdr = .outside) (pay : List Byte)
    (e : Ecc) : exec (.tokenRouterInput r hdr pay e) s
      = .next (s.routerIn ⟨r, .out, true, ⟨hdr, pay⟩, s.attOf r (hDest hdr) none, none⟩ hdr e) := by
  change execTokenRouterInput r hdr pay e s = _
  simp [execTokenRouterInput, Nat.not_le.2 hr, hs, hn]

end

/-! ### Delivery (spec/04_fabric_tokens_and_steering.md Table 4.4 checks 3 to 6) -/

theorem edge_tile (s : State) {n : NetTok} (h : hDest n.tok.hdr < nTiles) : s.edge n = s := by
  simp [State.edge, attachments_tile h]

theorem edge_unit (s : State) {n : NetTok} {a : Nat × Nat} (h : (attachments (hDest n.tok.hdr))[n.att]? = some a) :
    s.edge n = s.bump (R.EDGE_BUSY a.1) (if hLen n.tok.hdr ≤ 28 then 1 else 2) := by
  simp [State.edge, h, edgeCycles]

/-- A token must wait where the queue that would take it is in spill mode and the staging buffer is full. -/
theorem Tile.stuck_eq {x : Tile} {k : Token} {rf : RegFile} (h : x.liveRegs (hGen k.hdr) = some rf) :
    x.stuck k = ((x.queue (hDq k.hdr)).spill && decide (8 ≤ x.staging.length) && x.chanOk rf (hDq k.hdr) k.hdr) := by
  simp only [Tile.stuck, h]

theorem Tile.stuck_of_unknownGen {x : Tile} {k : Token} (h : x.liveRegs (hGen k.hdr) = none) : x.stuck k = false := by
  simp only [Tile.stuck, h, Bool.and_false]

/-- A token that has arrived is delivered, unless it must wait in the router. -/
theorem exec_delivery {s : State} {d : Nat} {n : NetTok} (hs : s.safe = false) (hd : destReserved d = false)
    (hn : s.named (fun m => m.arrived && hDest m.tok.hdr = d) n.tok.hdr = .tok n) (pay : List Byte) (e : Ecc) :
    exec (.tokenDelivery d n.tok.hdr pay e) s
      = .next (if decide (d < nTiles) && !ctlToken n.tok.hdr && !s.ownRow d n.tok && (s.tile d).stuck n.tok then s
          else ((s.depart n).edge n).deliverTok d n.tok n.src e) := by
  change execTokenDelivery d n.tok.hdr pay e s = _
  simp only [execTokenDelivery, hs, hd, hn, Bool.or_self, Bool.false_eq_true, if_false]
  split <;> rfl

theorem keptVerdict_of_sewn {k : Token} (h : hBasted k.hdr = false) (s : State) (t q : Nat) : s.keptVerdict t q k = s := by
  simp [State.keptVerdict, h]

theorem keptUnit_of_sewn {k : Token} (h : hBasted k.hdr = false) (s : State) (u : Nat) : s.keptUnit u k = s := by
  have hnone : s.fab.verdicts.find? (fun _ => false) = none := List.find?_eq_none.2 (by simp)
  simp [State.keptUnit, h, hnone]

/-- A token for a queue of a tile goes through the queue's checks. -/
theorem deliverTok_queue {s : State} {d : Nat} {k : Token} (hd : d < nTiles) (hc : ctlToken k.hdr = false)
    (hk : hKind k.hdr ≠ kSpill) (ho : s.ownRow d k = false) (src : Option (Nat × Nat)) :
    s.deliverTok d k src .ok = s.toQueue d k := by
  simp [State.deliverTok, hc, Nat.not_le.2 hd, hk, ho]

/-- A token for a selvedge unit goes to the unit. -/
theorem deliverTok_unit {s : State} {d : Nat} {k : Token} (hd : nTiles ≤ d) (hc : ctlToken k.hdr = false)
    (src : Option (Nat × Nat)) : s.deliverTok d k src .ok = s.toUnit d k src := by
  simp [State.deliverTok, hc, hd]

theorem deliverTok_ctl {s : State} {d : Nat} {k : Token} (hc : ctlToken k.hdr = true) (src : Option (Nat × Nat)) :
    s.deliverTok d k src .ok = s := by
  simp [State.deliverTok, hc]

section
variable {s : State} {t : Nat} {k : Token}

theorem toQueue_unknownGen (ht : t < nTiles) (hb : hBasted k.hdr = false) (h : (s.tile t).liveRegs (hGen k.hdr) = none) :
    s.toQueue t k = (s.bump R.GEN_DROP 1).tileStop t Code.PAT_GEN_UNKNOWN (hDq k.hdr) := by
  simp [State.toQueue, h, keptVerdict_of_sewn hb,
    tokFault_tile hb ht (by decide : Code.PAT_GEN_UNKNOWN ≠ Code.FAB_PAYLOAD_CORR)]

variable {rf : RegFile} (hlive : (s.tile t).liveRegs (hGen k.hdr) = some rf)
include hlive

theorem toQueue_mismatch (ht : t < nTiles) (hb : hBasted k.hdr = false)
    (h : (s.tile t).chanOk rf (hDq k.hdr) k.hdr = false) :
    s.toQueue t k = s.tileStop t Code.FAB_CHAN_MISMATCH (hDq k.hdr) := by
  simp [State.toQueue, hlive, h, keptVerdict_of_sewn hb,
    tokFault_tile hb ht (by decide : Code.FAB_CHAN_MISMATCH ≠ Code.FAB_PAYLOAD_CORR)]

variable (hok : (s.tile t).chanOk rf (hDq k.hdr) k.hdr = true)
include hok

theorem toQueue_staged (h : ((s.tile t).queue (hDq k.hdr)).spill = true) : s.toQueue t k = s.stageTok t (hDq k.hdr) k := by
  simp [State.toQueue, hlive, hok, h]

variable (hsp : ((s.tile t).queue (hDq k.hdr)).spill = false)
include hsp

theorem toQueue_full (ht : t < nTiles) (hb : hBasted k.hdr = false) (h : (s.tile t).freeSlots (hDq k.hdr) = 0) :
    s.toQueue t k = s.tileStop t Code.FAB_CREDIT (hDq k.hdr) := by
  simp [State.toQueue, hlive, hok, hsp, h, keptVerdict_of_sewn hb,
    tokFault_tile hb ht (by decide : Code.FAB_CREDIT ≠ Code.FAB_PAYLOAD_CORR)]

theorem toQueue_lands (hb : hBasted k.hdr = false) (h : (s.tile t).freeSlots (hDq k.hdr) ≠ 0) :
    s.toQueue t k = s.setTile t ((s.tile t).landTok (hDq k.hdr) k) := by
  simp [State.toQueue, hlive, hok, hsp, h, keptVerdict_of_sewn hb]

end

/-- Noting a tag leaves the tokens of the queue. -/
theorem Tile.toks_noteTag (x : Tile) (q : Nat) (h : W64) : ((x.noteTag q h).queue q).toks = (x.queue q).toks := by
  unfold Tile.noteTag
  split
  · dsimp only
    split <;> simp
  · rfl

/-- A token lands at the end of its queue. -/
theorem Tile.toks_landTok (x : Tile) (q : Nat) (k : Token) :
    ((x.landTok q k).queue q).toks = (x.queue q).toks ++ [k] := by
  rw [← x.toks_noteTag q k.hdr]
  unfold Tile.landTok
  dsimp only
  split
  · exact congrArg Queue.toks (Tile.queue_setQueue_same ..)
  · exact congrArg Queue.toks (Tile.queue_setQueue_same ..)

theorem toUnit_unknownGen {s : State} {u : Nat} {k : Token} (hu : nTiles ≤ u) (hb : hBasted k.hdr = false)
    (h : s.unitLive u (hGen k.hdr) = false) (src : Option (Nat × Nat)) :
    s.toUnit u k src = (s.bump R.GEN_DROP 1).raise Code.PAT_GEN_UNKNOWN u (hDq k.hdr) 0 := by
  simp [State.toUnit, h, keptUnit_of_sewn hb, tokFault_unit hb hu]

/-- A sewn token other than a spill token or an atomic request frees its slot at once. -/
theorem toUnit_taken {s : State} {u : Nat} {k : Token} (hb : hBasted k.hdr = false) (hk : hKind k.hdr ≠ kSpill)
    (hq : hDq k.hdr ≠ 28) (h : s.unitLive u (hGen k.hdr) = true) (src : Option (Nat × Nat)) :
    s.toUnit u k src = s.creditTo src (hGen k.hdr) := by
  simp [State.toUnit, State.atomToken, h, hk, hq, hb]

/-! ### Credits and buckets (spec/04_fabric_tokens_and_steering.md R119) -/

theorem pumpDone_of_idle {s : State} (h : s.seam.done = []) (n : Nat) : s.pumpDone n = s := by
  cases n with
  | zero => rfl
  | succ n => simp [State.pumpDone, h]

/-- With no channel of a selvedge unit nothing is sent. -/
theorem pumpUnits_of_idle {s : State} (hc : s.tape.chans = []) (hp : s.tape.pendChans = []) (hd : s.seam.done = []) :
    s.pumpUnits = s := by
  simp [State.pumpUnits, hc, hp, pumpDone_of_idle hd]

/-- A credit of a tile's own generation is added to its channel. -/
theorem addCredit_tile {s : State} {d c g : Nat} (hd : d < nTiles) (hg : (s.tile d).gen = g) :
    s.addCredit ⟨d, c, g⟩ = s.setTile d (((s.tile d).setOch c
      { (s.tile d).och c with credits := ((s.tile d).och c).credits + 1 }).ochWaitOver c) := by
  simp [State.addCredit, hd, hg, State.onTile]

theorem exec_creditReturn {s : State} {d c : Nat} {r : Credit}
    (h : (s.lane.find? fun e => e.dest = d && e.chan = c) = some r) :
    exec (.creditReturn d c) s = .next (({ s with lane := s.lane.erase r } : State).addCredit r).pumpUnits := by
  change execCreditReturn d c s = _
  simp only [execCreditReturn, h]

theorem exec_bucketRefill_tile {s : State} {d c : Nat} (hs : s.safe = false) (hd : d < nTiles)
    (hen : chEn (s.tile d).regs c = true) :
    exec (.bucketRefill d c) s = .next (s.setTile d (
      if ((s.tile d).och c).bucket < (s.tile d).get (T.OCH_BURST c)
      then ((s.tile d).setOch c { (s.tile d).och c with bucket := ((s.tile d).och c).bucket + 1 }).ochWaitOver c
      else s.tile d)) := by
  change execBucketRefill d c s = _
  simp [execBucketRefill, hs, hd, hen, State.onTile]

/-! ### Guards and wait deadlines (spec/04_fabric_tokens_and_steering.md R121, R141) -/

theorem exec_vc3Guard {s : State} {r : Nat} {p : Port} {n : NetTok} (hs : s.safe = false) (hn : n ∈ s.net)
    (he : n.ent = true) (hr : n.r = r) (hp : n.port = p) (hv : n.vc = 3) :
    exec (.vc3GuardExpiry r p) s = .next { s with fab := { s.fab with
      arb := kvSet s.fab.arb (outKey r p) { s.arbAt r p with guard := true } } } := by
  refine if_pos ?_
  simp only [hs, Bool.not_false, Bool.true_and, List.any_eq_true, Bool.and_eq_true, decide_eq_true_eq]
  exact ⟨n, hn, ⟨⟨he, hr⟩, hp⟩, hv⟩

section
variable {s : State} {k : Nat} {w : Wait} (hu : s.unitWaits k w = false)
include hu

theorem exec_deadline_prog (h : s.waitCounts k .prog w = true) :
    exec (.fabChanDeadline k .prog w) s = .next (s.tileStop k Code.FAB_CHAN_DEADLINE (waitSub w)) := by
  change execFabChanDeadline k .prog w s = _
  unfold execFabChanDeadline
  simp [hu, h]

theorem exec_deadline_bob {b : Nat} (h : s.waitCounts k (.bob b) w = true) :
    exec (.fabChanDeadline k (.bob b) w) s
      = .next ((s.abortStream k b).tileStop k Code.FAB_CHAN_DEADLINE (waitSub w)) := by
  change execFabChanDeadline k (.bob b) w s = _
  unfold execFabChanDeadline
  simp [hu, h]

theorem exec_deadline_none {a : TAgent} (h : s.waitCounts k a w = false) :
    exec (.fabChanDeadline k a w) s = .next s := by
  change execFabChanDeadline k a w s = _
  unfold execFabChanDeadline
  simp [hu, h]

end

theorem exec_deadline_unit {s : State} {u c : Nat} (h : s.unitWaits u (.och c) = true) (a : TAgent) :
    exec (.fabChanDeadline u a (.och c)) s = .next ({ s with fab := { s.fab with stopped := s.fab.stopped ++ [(u, c)] } }.raise
      Code.FAB_CHAN_DEADLINE u (0x8000 + c) 0) := if_pos h

/-! ### The obligation -/

/-- Settles O12: a token that moves is checked at its router or its destination, and each outcome of a check is one
equation of `routerIn`, `toQueue` or `toUnit`. -/
theorem tokensTravelAndAreDelivered : Obligations.TokensTravelAndAreDelivered := by
  refine ⟨portTo_columns_first, fun n h => NetTok.exit_tile h, fun n a h ha => NetTok.exit_unit h ha,
    ?routerTok, ?routerOutside, fun there n s h hok => mem_of_named h hok, fun a l hhi hlo => a.pickVc_class hhi hlo,
    Arb.granted_class, fun a l hl h2 h3 => a.pickVc_low hl h2 h3, ?queue, Tile.toks_landTok, ?unit, fun n a s h => edge_unit s h, ?ctl,
    ?credit, fun d c s hs hd hen => exec_bucketRefill_tile hs hd hen, fun x c => rfl,
    fun r p n s hs hn he hr hp hv => exec_vc3Guard hs hn he hr hp hv,
    fun k w s _ hu => ⟨exec_deadline_prog hu, fun b h => exec_deadline_bob hu h, fun a h => exec_deadline_none hu h⟩,
    fun u c a s h => exec_deadline_unit h a⟩
  case routerTok =>
    intro r hdr pay n s hr hs hn hnext
    have hrun := exec_routerInput_tok hr hs hn hnext pay
    refine ⟨fun hok hf => ?_, fun e hok => ?_, fun hok hf hb => ?_, fun hok hp => ?_⟩
    · rw [hrun, routerIn_ok _ hok hf, depart_net]
    · rw [hrun, routerIn_badCode _ hok]
    · exact (hrun .ok).trans (congrArg go (routerIn_badField _ hr hok hf hb))
    · exact (hrun .uncorrectable).trans (congrArg go (routerIn_badPayload _ hr hok hp))
  case routerOutside =>
    intro r hdr pay s hr hs hn
    have hrun := exec_routerInput_outside hr hs hn pay
    refine ⟨fun hok hf => ?_, fun e hok => ?_, fun hok hf hb => ?_⟩
    · rw [hrun, routerIn_ok _ hok hf]
    · rw [hrun, routerIn_badCode _ hok]
    · exact (hrun .ok).trans (congrArg go (routerIn_badField _ hr hok hf hb))
  case queue =>
    intro d n s hd hs hdest hn hb hk hc s' x q ho
    have hx : s'.tile d = x := tile_depart s n d
    have hrun := exec_delivery hs (destReserved_tile hd) hn n.tok.pay .ok
    have hgo (h : x.stuck n.tok = false) : exec (.tokenDelivery d n.tok.hdr n.tok.pay .ok) s = .next (s'.toQueue d n.tok) := by
      rw [hrun, edge_tile _ (hdest.trans_lt hd), deliverTok_queue hd hc hk ho, if_neg (by simp [x, h])]
    rw [← hx] at hgo ⊢
    refine ⟨fun hnone => ?_, fun rf hlive => ⟨fun hbad => ?_, fun hok hsp hfull => ?_, fun hok hsp hfree => ?_,
      fun hok hsp hroom => ?_, fun hok hsp hfull hown => ?_⟩⟩
    · rw [hgo (Tile.stuck_of_unknownGen hnone), toQueue_unknownGen hd hb hnone]
    · rw [hgo (by simp [Tile.stuck_eq hlive, q, hbad]), toQueue_mismatch hlive hd hb hbad]
    · rw [hgo (by simp [Tile.stuck_eq hlive, q, hsp]), toQueue_full hlive hok hsp hd hb hfull]
    · rw [hgo (by simp [Tile.stuck_eq hlive, q, hsp]), toQueue_lands hlive hok hsp hb hfree]
    · rw [hgo (by simp [Tile.stuck_eq hlive, Nat.not_le.2 hroom]), toQueue_staged hlive hok hsp]
    · have hstuck : (s.tile d).stuck n.tok = true := by
        rw [← tile_depart s n d, Tile.stuck_eq hlive]
        simp [q, hsp, hfull, hok]
      rw [hrun, if_pos (by simp [hd, hc, hown, hstuck])]
  case unit =>
    intro d n s hd hr hs hn hc hb hk s'
    have hrun : exec (.tokenDelivery d n.tok.hdr n.tok.pay .ok) s = .next (s'.toUnit d n.tok n.src) := by
      rw [exec_delivery hs hr hn, if_neg (by simp [Nat.not_lt.2 hd]), deliverTok_unit hd hc]
    exact ⟨fun h => by rw [hrun, toUnit_unknownGen hd hb h], fun h hq => by rw [hrun, toUnit_taken hb hk hq h]⟩
  case ctl =>
    intro d n s hr hs hn hc
    rw [exec_delivery hs hr hn, if_neg (by simp [hc]), deliverTok_ctl hc]
  case credit =>
    intro d c g s hd hf hg hch hpc hdn
    have hadd := addCredit_tile (s := { s with lane := s.lane.erase ⟨d, c, g⟩ }) (c := c) hd hg.symm
    rw [exec_creditReturn hf, hadd]
    exact congrArg go (pumpUnits_of_idle hch hpc hdn)

end Sys2Proof.Machine
end

section
/-! PROOFS. Commits of the blocks of BAR0: what applying and discarding a stage leave, and each commit register as one chain
of checks (spec/05_patterns_and_reconfiguration.md R187; the checks by the chapters of the blocks). -/

namespace Sys2Proof.Machine

/-! ### Applying and discarding the stage of a block (spec/05_patterns_and_reconfiguration.md R187) -/

/-- A stage applied at some registers puts in force what is staged there and leaves every other field. -/
theorem rfGet_applyStage_if (rf : RegFile) (st : Stage) (p : Nat → Bool) {f : Fld} (h : f.lo < 64) :
    rfGet (applyStage rf st p) f = if p f.off then staged rf st f else rfGet rf f := by
  have hget : kvGet? (applyStage rf st p) f.key
      = if f.key ∈ st.map Prod.fst ∧ p (keyOff f.key) = true then some (staged rf st ⟨keyOff f.key, 63, f.key % 64⟩)
        else kvGet? rf f.key := by
    have h := kvGet?_foldl_kvSet (fun c => p (keyOff c)) (fun c => staged rf st ⟨keyOff c, 63, c % 64⟩)
      (st.map Prod.fst) rf f.key
    rw [List.foldl_map] at h
    exact h
  obtain ⟨hoff, hlo⟩ := key_div_mod f h
  rw [hoff, hlo] at hget
  by_cases hp : p f.off = true
  · by_cases hm : f.key ∈ st.map Prod.fst
    · rw [rfGet, hget, if_pos ⟨hm, hp⟩, if_pos hp]
      rfl
    · rw [rfGet, hget, if_neg fun hc => hm hc.1, if_pos hp, staged_of_not_mem rf hm]
      rfl
  · rw [rfGet, hget, if_neg fun hc => hp hc.2, if_neg hp]
    rfl

theorem mem_dropStage {st : Stage} {p : Nat → Bool} {e : Nat × (Nat × Nat)} :
    e ∈ dropStage st p ↔ e ∈ st ∧ p (keyOff e.1) = false := by
  simp [dropStage]

/-! ### A commit as a chain of checks -/

/-- What a commit with something staged leaves, by the first failure of its checks. -/
def State.committed (s : State) (b : Block) (unit : Nat) (post : State → State) : Fail → State
  | some f => (s.dropBlock b).raise f.1 unit 0 f.2
  | none => post (s.applyBlock b)

/-- With bit 0 written, writes taken and something staged, a commit is decided by its checks. -/
theorem commitBlock_eq {s : State} {b : Block} {v : W32} {unit : Nat} (hu : blockUnit b.lo = unit)
    (hv : bit v.toNat 0 = true) (ht : s.takesWrite none b.lo = true) (hs : anyStaged s.barStage b.has = true)
    (check : Fail) (post : State → State) : s.commitBlock b v check post = s.committed b unit post check := by
  subst hu
  cases check <;> simp [State.commitBlock, hv, ht, hs, State.committed, State.refuseCommit]

section
variable {s : State} {b : Block} {unit code off : Nat} {post : State → State} {c : Bool} {p : Prop} [Decidable p]

theorem committed_failIf (hc : c = true ↔ p) : s.committed b unit post (failIf c code off)
    = if p then (s.dropBlock b).raise code unit 0 off else post (s.applyBlock b) := by
  rw [← if_congr hc rfl rfl]
  cases c <;> rfl

theorem committed_cons {l : List Fail} {t : State} (hc : c = true ↔ p) (ht : s.committed b unit post (firstFail l) = t) :
    s.committed b unit post (firstFail (failIf c code off :: l))
      = if p then (s.dropBlock b).raise code unit 0 off else t := by
  rw [← if_congr hc rfl rfl, ← ht]
  cases c <;> rfl

theorem committed_nil : s.committed b unit post (firstFail []) = post (s.applyBlock b) := rfl

end

/-! ### Links taken down (spec/10_seam_ports_and_collectives.md R316, R325) -/

theorem spLink_key_ne {p q : Nat} (h : q ≠ p) : (R.SP_STATUS_LINK q).key ≠ (R.SP_STATUS_LINK p).key := by
  simp only [Fld.key, R.SP_STATUS_LINK]
  omega

/-- A link taken down by a commit changes, of the registers, its own state only, to disabled or to training. -/
theorem get_linkDown_other (s : State) (p : Nat) {f : Fld} (h : f.key ≠ (R.SP_STATUS_LINK p).key) :
    (s.linkDown p true).get f = s.get f := rfGet_rfSet_other _ _ _ _ h

theorem link_linkDown_le (s : State) (p : Nat) : (s.linkDown p true).link p ≤ 1 := by
  have hget : (s.linkDown p true).link p = (if (s.clearPort p).flag (R.SP_CFG_EN p) then 1 else 0) % 2 ^ 3 :=
    rfGet_rfSet_same _ _ _
  rw [hget]
  split <;> decide

/-- A link that runs taken down. -/
def State.dropLink (s : State) (p : Nat) : State := if s.link p = 0 then s else s.linkDown p true

theorem get_dropLink_other (s : State) (p : Nat) {f : Fld} (h : f.key ≠ (R.SP_STATUS_LINK p).key) :
    (s.dropLink p).get f = s.get f := by
  unfold State.dropLink
  split
  · rfl
  · exact get_linkDown_other s p h

theorem link_dropLink_le (s : State) (p : Nat) : (s.dropLink p).link p ≤ 1 := by
  unfold State.dropLink
  split
  · omega
  · exact link_linkDown_le s p

/-- Every link of a list taken down: none of them is past training, and the module keeps its id. -/
theorem dropLinks_modId (l : List Nat) (s : State) : (l.foldl State.dropLink s).modId = s.modId := by
  refine List.foldlRecOn (motive := fun t : State => t.modId = s.modId) l _ rfl fun t ht p _ => ?_
  refine (get_dropLink_other t p ?_).trans ht
  simp only [Fld.key, R.NUM_SR_MODULE_MODULE, R.SP_STATUS_LINK]
  omega

theorem dropLinks_le {l : List Nat} {p : Nat} (hp : p ∈ l) (s : State) : (l.foldl State.dropLink s).link p ≤ 1 := by
  have keeps (l : List Nat) (s : State) (h : s.link p ≤ 1) : (l.foldl State.dropLink s).link p ≤ 1 := by
    refine List.foldlRecOn (motive := fun t : State => t.link p ≤ 1) l _ h fun t ht q _ => ?_
    by_cases hq : p = q
    · exact hq ▸ link_dropLink_le t p
    · exact (get_dropLink_other t q (spLink_key_ne hq)).trans_le ht
  induction l generalizing s with
  | nil => cases hp
  | cons q l ih =>
    rcases List.mem_cons.1 hp with rfl | hp
    · exact keeps l _ (link_dropLink_le s p)
    · exact ih hp _

/-! ### Lining modes changed by a commit (spec/08_memory_system.md R273, Table 8.5) -/

theorem mem_lnChanges {old new g a b : Nat} : (g, a, b) ∈ lnChanges old new ↔
    g < 4 ∧ a = bits old (2 * g) 2 ∧ b = bits new (2 * g) 2 ∧ bits new (2 * g) 2 ≠ bits old (2 * g) 2 := by
  simp only [lnChanges, List.mem_filterMap, List.mem_range, Option.ite_none_left_eq_some, Option.some.injEq,
    Prod.mk.injEq]
  constructor
  · rintro ⟨g, hg, hne, rfl, rfl, rfl⟩
    exact ⟨hg, rfl, rfl, Ne.symm hne⟩
  · rintro ⟨hg, rfl, rfl, hne⟩
    exact ⟨g, hg, Ne.symm hne, rfl, rfl, rfl⟩

theorem lnChanges_eq_nil {old new : Nat} (h : ∀ g, g < 4 → bits new (2 * g) 2 = bits old (2 * g) 2) :
    lnChanges old new = [] :=
  List.eq_nil_iff_forall_not_mem.2 fun ⟨g, _, _⟩ hm =>
    have ⟨hg, _, _, hne⟩ := mem_lnChanges.1 hm
    hne (h g hg)

/-- Where no group whose mode changes is busy, or leaves scratchpad mode while needed, no change is refused. -/
theorem lnChanges_free {s : State} {n old new : Nat} (h : ∀ g, g < 4 → bits new (2 * g) 2 ≠ bits old (2 * g) 2 →
      s.lnBusy n g = false ∧ (bits old (2 * g) 2 = 2 → s.lnNeeded n g = false)) :
    ¬ ((lnChanges old new).any fun x => s.lnBusy n x.1 || (x.2.1 = 2 && s.lnNeeded n x.1)) = true := by
  simp only [List.any_eq_true, not_exists, not_and, Bool.not_eq_true]
  rintro ⟨g, a, b⟩ hm
  obtain ⟨hg, rfl, rfl, hne⟩ := mem_lnChanges.1 hm
  obtain ⟨hbusy, hneed⟩ := h g hg hne
  simpa [hbusy] using hneed

/-- The start of one group's change: its busy bit set, the change noted. -/
def State.lnStartOne (s : State) (n : Nat) (x : Nat × Nat × Nat) : State := s.lnStart n [x]

theorem lnStart_eq_foldl (s : State) (n : Nat) (l : List (Nat × Nat × Nat)) :
    s.lnStart n l = l.foldl (fun s x => s.lnStartOne n x) s := rfl

/-- The start of a change sets one busy bit and touches no other register. -/
theorem bar_lnStartOne (s : State) (n : Nat) (x : Nat × Nat × Nat) : (s.lnStartOne n x).bar
    = rfSet s.bar (R.MC_STATUS_LN_BUSY n) (Nat.lor (s.get (R.MC_STATUS_LN_BUSY n)) (2 ^ x.1)) := by
  simp only [State.lnStartOne, State.lnStart, List.foldl_cons, List.foldl_nil]
  split <;> rfl

theorem lnMode_lnStart (s : State) (n : Nat) (l : List (Nat × Nat × Nat)) :
    (s.lnStart n l).get (R.MC_CFG_LN_MODE n) = s.get (R.MC_CFG_LN_MODE n) := by
  rw [lnStart_eq_foldl]
  refine List.foldlRecOn (motive := fun t : State => t.get (R.MC_CFG_LN_MODE n) = s.get (R.MC_CFG_LN_MODE n)) l _ rfl
    fun t ht x _ => ?_
  refine Eq.trans ?_ ht
  rw [State.get, bar_lnStartOne]
  refine rfGet_rfSet_other _ _ _ _ ?_
  simp only [Fld.key, R.MC_CFG_LN_MODE, R.MC_STATUS_LN_BUSY]
  omega

theorem bit_eq_testBit (v k : Nat) : bit v k = v.testBit k := by
  rw [Nat.testBit_eq_decide_div_mod_eq]
  rfl

theorem lnBusy_lnStartOne (s : State) (n g : Nat) (hg : g < 4) (x : Nat × Nat × Nat) :
    (s.lnStartOne n x).lnBusy n g = (s.lnBusy n g || decide (x.1 = g)) := by
  have hw : (R.MC_STATUS_LN_BUSY n).width = 4 := rfl
  rw [State.lnBusy, State.get, bar_lnStartOne, rfGet_rfSet_same, hw, bit_eq_testBit, State.lnBusy, bit_eq_testBit]
  change Nat.testBit ((s.get (R.MC_STATUS_LN_BUSY n) ||| 2 ^ x.1) % 2 ^ 4) g = _
  rw [Nat.testBit_mod_two_pow, Nat.testBit_or, Nat.testBit_two_pow, decide_eq_true hg, Bool.true_and]

/-- Every group whose change is started is busy. -/
theorem lnBusy_lnStart {n g : Nat} (hg : g < 4) {l : List (Nat × Nat × Nat)} (hl : g ∈ l.map Prod.fst) (s : State) :
    (s.lnStart n l).lnBusy n g = true := by
  have keeps (l : List (Nat × Nat × Nat)) (s : State) (h : s.lnBusy n g = true) : (s.lnStart n l).lnBusy n g = true := by
    rw [lnStart_eq_foldl]
    refine List.foldlRecOn (motive := fun t : State => t.lnBusy n g = true) l _ h fun t ht x _ => ?_
    rw [lnBusy_lnStartOne t n g hg, ht, Bool.true_or]
  induction l generalizing s with
  | nil => cases hl
  | cons x l ih =>
    rcases List.mem_cons.1 hl with hx | hl
    · exact keeps l (s.lnStartOne n x) (by rw [lnBusy_lnStartOne s n g hg]; simp [hx])
    · exact ih hl (s.lnStartOne n x)

/-! ### The commits of the blocks -/

theorem blockUnit_mc : ∀ n < 24, blockUnit (blkMc n).lo = 0xC00 + n := by decide

theorem blockUnit_sp : ∀ n < 8, blockUnit (blkSp n).lo = 0xC20 + n := by decide

/-- The new module id is in force, and no link is past training. -/
theorem numCommit_changed {s : State} {v : W32} (hv : bit v.toNat 0 = true) (ht : s.takesWrite none blkNum.lo = true)
    (hs : anyStaged s.barStage blkNum.has = true) (hstep : s.stepOpen = false)
    (hch : s.changes blkNum R.NUM_SR_MODULE_MODULE = true) :
    exec (.numCommit v) s = .next ((List.range 8).foldl State.dropLink (s.applyBlock blkNum)) := by
  refine congrArg go ((commitBlock_eq rfl hv ht hs _ _).trans ?_)
  rw [committed_failIf (p := False) (by simp [hstep]), if_neg id, hch]
  rfl

/-- A commit of a controller, by its chain of checks. -/
theorem exec_mcCommit {n : Nat} {v : W32} {s : State} (hn : n < 24) (hv : bit v.toNat 0 = true)
    (ht : s.takesWrite none (blkMc n).lo = true) (hs : anyStaged s.barStage (blkMc n).has = true) :
    let rf := s.wouldBe (blkMc n)
    let new := rfGet rf (R.MC_CFG_LN_MODE n)
    let l := lnChanges (s.get (R.MC_CFG_LN_MODE n)) new
    let bad (code : Nat) : State := (s.dropBlock (blkMc n)).raise code (0xC00 + n) 0 0
    exec (.mcCommit n v) s = .next (
      if rfGet rf (R.MC_CFG_ATOM_DL n) = 0 ∨ rfGet rf (R.MC_CFG_SCRUB_INT n) = 0 ∨ rfGet rf (R.MC_CFG_CE_TH n) = 0
        ∨ rfGet rf (R.MC_CFG_PD_DL n) = 0 then bad Code.MEM_CFG_ZERO
      else if ∃ g ∈ List.range 4, bits new (2 * g) 2 = 3 then bad Code.MEM_CFG_ILLEGAL
      else if (l.any fun x => s.lnBusy n x.1 || (x.2.1 = 2 && s.lnNeeded n x.1)) = true then bad Code.MEM_LINING_BUSY
      else (s.applyBlock (blkMc n)).lnStart n l) := by
  have hrun : exec (.mcCommit n v) s = _ := if_neg (Nat.not_le.2 hn)
  exact hrun.trans (congrArg go ((commitBlock_eq (blockUnit_mc n hn) hv ht hs _ _).trans
    (committed_cons (by simp [or_assoc]) (committed_cons (by simp) (committed_cons Iff.rfl committed_nil)))))

/-- Settles O5: applying a stage is read at one field; each commit register is a chain of checks that refuses with the first
failure; what a commit starts (links down, lining groups busy) is read after the whole stage is in force. -/
theorem commitsAreAllOrNothing : Obligations.CommitsAreAllOrNothing := by
  refine ⟨fun s b => ⟨s.applyBlock_only b, s.dropBlock_only b, rfl, fun e => mem_dropStage,
      fun f hf => rfGet_applyStage_if s.bar s.barStage b.has hf⟩,
    fun v s hv ht hs => ?gc, fun v s hv ht hs => ?num, fun v s hv ht hs => ?fab, fun v s hv ht hs => ?pl,
    fun v s hv ht hs => ?unp, fun v s hv ht hs => ?prs, fun n v s hn hv ht hs => ?mc, fun n v s hn hv ht hs => ?sp,
    fun v s hv ht hs => ?seam, fun v s hv ht hs => ?th, fun v s hv ht hs => ?pwr⟩
  case gc => exact congrArg go ((commitBlock_eq rfl hv ht hs _ _).trans (committed_failIf (by simp)))
  case fab => exact congrArg go ((commitBlock_eq rfl hv ht hs _ _).trans (committed_failIf (by simp)))
  case pl => exact congrArg go ((commitBlock_eq rfl hv ht hs _ _).trans (committed_failIf (by simp)))
  case th => exact congrArg go ((commitBlock_eq rfl hv ht hs _ _).trans (committed_failIf (by simp)))
  case num =>
    refine ⟨fun hstep => ?_, fun hstep hch => ?_, fun hstep hch => ?_⟩
    · refine congrArg go ((commitBlock_eq rfl hv ht hs _ _).trans ?_)
      rw [hstep]
      rfl
    · refine congrArg go ((commitBlock_eq rfl hv ht hs _ _).trans ?_)
      rw [hstep, hch]
      rfl
    · exact ⟨_, numCommit_changed hv ht hs hstep hch, dropLinks_modId _ _, fun p hp => dropLinks_le (List.mem_range.2 hp) _⟩
  case unp =>
    exact congrArg go ((commitBlock_eq rfl hv ht hs _ _).trans
      (committed_cons (by simp [or_assoc]) (committed_cons (by simp) (committed_cons (by simp)
        (committed_cons (by simp) committed_nil)))))
  case prs =>
    exact congrArg go ((commitBlock_eq rfl hv ht hs _ _).trans
      (committed_cons (by simp) (committed_cons (by simp [or_assoc]) (committed_cons (by simp)
        (committed_cons (by simp) (committed_cons (by simp) committed_nil))))))
  case mc =>
    intro rf new zero
    have hrun := exec_mcCommit hn hv ht hs
    refine ⟨fun hz => ?_, fun hz hbad => ?_, fun hz hsame => ?_, fun hz hok hfree => ?_⟩
    · rw [hrun, if_pos hz]
    · rw [hrun, if_neg hz, if_pos (by simpa using hbad)]
    · rw [hrun, if_neg hz, if_neg fun ⟨g, hg, h3⟩ => (hsame g (List.mem_range.1 hg)).2 h3,
        lnChanges_eq_nil fun g hg => (hsame g hg).1]
      rfl
    · exact ⟨_, by rw [hrun, if_neg hz, if_neg fun ⟨g, hg, h3⟩ => hok g (List.mem_range.1 hg) h3,
        if_neg (lnChanges_free hfree)], lnMode_lnStart _ n _, fun g hg hne => lnBusy_lnStart hg
          (List.mem_map.2 ⟨(g, _, _), mem_lnChanges.2 ⟨hg, rfl, rfl, hne⟩, rfl⟩) _⟩
  case sp =>
    intro rf bad xoff xon
    have hrun : exec (.spCommit n v) s = _ := if_neg (Nat.not_le.2 hn)
    refine hrun.trans (congrArg go ((commitBlock_eq (blockUnit_sp n hn) hv ht hs _ _).trans
      (committed_cons (by simp [rf, xoff]) (committed_cons (by simp [rf]) (committed_cons (by simp [rf, xoff, xon])
        (committed_cons Iff.rfl (committed_nil.trans (if_congr ?_ rfl rfl))))))))
    simp [and_assoc]
  case seam =>
    exact congrArg go ((commitBlock_eq rfl hv ht hs _ _).trans
      (committed_cons (by simp) (committed_cons Iff.rfl (committed_cons Iff.rfl committed_nil))))
  case pwr =>
    exact congrArg go ((commitBlock_eq rfl hv ht hs _ _).trans
      (committed_cons (by simp [or_assoc]) (committed_cons (by simp [inRange]; omega) committed_nil)))

end Sys2Proof.Machine
end

section
/-! PROOFS. Laws of the registers and tables that the pattern loader keeps: fields read after an update, the states of the
generation values, tiles rewritten as a whole (spec/05_patterns_and_reconfiguration.md R163, Table 5.12, Table 5.13). -/

namespace Sys2Proof.Machine

/-! ### Fields of BAR0 read after an update -/

theorem get_set_same (s : State) (f : Fld) (v : Nat) : (s.set f v).get f = v % 2 ^ f.width := rfGet_rfSet_same _ _ _

theorem get_set_other (s : State) {f g : Fld} (v : Nat) (h : g.key ≠ f.key) : (s.set f v).get g = s.get g :=
  rfGet_rfSet_other _ _ _ _ h

theorem get_bump_other (s : State) {f g : Fld} (n : Nat) (h : g.key ≠ f.key) : (s.bump f n).get g = s.get g :=
  rfGet_rfCount_other _ _ _ _ h

theorem setAll_nil (s : State) : s.setAll [] = s := rfl

theorem setAll_cons (s : State) (p : Fld × Nat) (l : List (Fld × Nat)) : s.setAll (p :: l) = (s.set p.1 p.2).setAll l := rfl

/-- A reply counts, where it counts anything, tags no longer live or commands refused. -/
theorem reply_onlyFields (s : State) (tag ep k c : Nat) (r : List Byte) :
    OnlyFields [R.STALE_TAG, R.CMD_REFUSED] s (s.reply tag ep k c r) := by
  intro f hf
  simp only [List.map_cons, List.map_nil, List.mem_cons, List.not_mem_nil, or_false, not_or] at hf
  obtain ⟨hstale, hrefused⟩ := hf
  unfold State.reply
  split
  · rfl
  · split
    · exact get_bump_other _ _ hstale
    · dsimp only
      split
      · exact get_bump_other _ _ hrefused
      · rfl

/-! ### Bits of a number replaced -/

theorem putBits_eq (v lo n x : Nat) : putBits v lo n x = v % 2 ^ lo + 2 ^ lo * (x % 2 ^ n + 2 ^ n * (v / 2 ^ lo / 2 ^ n)) := by
  have hlow : v = v % 2 ^ lo + 2 ^ lo * (v / 2 ^ lo) := (Nat.mod_add_div _ _).symm
  have hmid : v / 2 ^ lo = bits v lo n + 2 ^ n * (v / 2 ^ lo / 2 ^ n) := (Nat.mod_add_div _ _).symm
  have hv : v = bits v lo n * 2 ^ lo + (v % 2 ^ lo + 2 ^ lo * (2 ^ n * (v / 2 ^ lo / 2 ^ n))) := by
    calc v = v % 2 ^ lo + 2 ^ lo * (bits v lo n + 2 ^ n * (v / 2 ^ lo / 2 ^ n)) := by rw [← hmid]; exact hlow
      _ = _ := by ring
  rw [putBits, show v - bits v lo n * 2 ^ lo = v % 2 ^ lo + 2 ^ lo * (2 ^ n * (v / 2 ^ lo / 2 ^ n)) from
    Nat.sub_eq_of_eq_add' hv]
  ring

theorem putBits_div (v lo n x : Nat) : putBits v lo n x / 2 ^ lo = x % 2 ^ n + 2 ^ n * (v / 2 ^ lo / 2 ^ n) := by
  rw [putBits_eq, Nat.add_mul_div_left _ _ (Nat.two_pow_pos lo), Nat.div_eq_of_lt (Nat.mod_lt _ (Nat.two_pow_pos lo)),
    Nat.zero_add]

theorem bits_putBits_same (v lo n x : Nat) : bits (putBits v lo n x) lo n = x % 2 ^ n := by
  rw [bits, putBits_div, Nat.add_mul_mod_self_left, Nat.mod_mod]

/-- Bits below those replaced, and above them, stay. -/
theorem bits_putBits_other (v lo n x : Nat) {j m : Nat} (h : j + m ≤ lo ∨ lo + n ≤ j) :
    bits (putBits v lo n x) j m = bits v j m := by
  rcases h with h | h
  · have hmod : putBits v lo n x % 2 ^ lo = v % 2 ^ lo := by
      rw [putBits_eq, Nat.add_mul_mod_self_left, Nat.mod_mod]
    rw [← bits_mod_two_pow h, hmod, bits_mod_two_pow h]
  · obtain ⟨d, rfl⟩ := Nat.exists_eq_add_of_le h
    have hdiv (w : Nat) : w / 2 ^ (lo + n + d) = w / 2 ^ lo / 2 ^ n / 2 ^ d := by
      rw [Nat.pow_add, Nat.pow_add, ← Nat.div_div_eq_div_mul, ← Nat.div_div_eq_div_mul]
    rw [bits, bits, hdiv, hdiv, putBits_div, Nat.add_mul_div_left _ _ (Nat.two_pow_pos n),
      Nat.div_eq_of_lt (Nat.mod_lt _ (Nat.two_pow_pos n)), Nat.zero_add]

/-! ### The states of the generation values (spec/05_patterns_and_reconfiguration.md R163, Table 5.12) -/

theorem genState_congr {s t : State} (h : t.get R.PL_GEN_STATE_GS = s.get R.PL_GEN_STATE_GS) (g : Nat) :
    t.genState g = s.genState g := by rw [State.genState, h, State.genState]

/-- A generation value takes the state that it is given, and the others keep theirs. -/
theorem genState_setGen_same (s : State) {g : Nat} (hg : g < 16) (x : Nat) : (s.setGen g x).genState g = x % 4 := by
  rw [State.genState, State.setGen, get_set_same, bits_mod_two_pow (by simp [Fld.width, R.PL_GEN_STATE_GS]; omega),
    bits_putBits_same]
  rfl

theorem genState_setGen_other (s : State) {g h : Nat} (hh : h < 16) (hne : h ≠ g) (x : Nat) :
    (s.setGen g x).genState h = s.genState h := by
  rw [State.genState, State.setGen, get_set_same, bits_mod_two_pow (by simp [Fld.width, R.PL_GEN_STATE_GS]; omega),
    bits_putBits_other _ _ _ _ (by omega), State.genState]

theorem get_setGen_other (s : State) (g x : Nat) {f : Fld} (h : f.key ≠ R.PL_GEN_STATE_GS.key) :
    (s.setGen g x).get f = s.get f := get_set_other _ _ h

/-! ### Parts of the state that the loader changes -/

theorem onLoader_only (s : State) (f : Loader → Loader) : Only [.loader] s (s.onLoader f) := by
  intro p hp
  cases p <;> simp_all [Part.Same, State.onLoader]

theorem tilesLoader_only (s : State) (ts : Kv Tile) (l : Loader) : Only [.tiles, .loader] s { s with tiles := ts, loader := l } := by
  intro p hp
  cases p <;> simp_all [Part.Same]

theorem tape_only (s : State) (t : Tape) : Only [.tape] s { s with tape := t } := by
  intro p hp
  cases p <;> simp_all [Part.Same]

theorem setGen_only (s : State) (g x : Nat) : Only [.bar] s (s.setGen g x) := s.set_only _ _

theorem setPl_only (s : State) (v : Nat) : Only [.bar] s (s.setPl v) := s.set_only _ _

theorem moveTape_only (s : State) : Only [.tape] s s.moveTape := by
  unfold State.moveTape
  split
  · exact tape_only s _
  · exact .refl _ s

/-- The new step channels take the old ones' place at the tape unit's GO, once the new generation is current. -/
theorem moveTape_moves {s : State} (h : s.loader.unitGone.contains 0xC34 = true) (hg : s.curGen = s.loader.gen) :
    s.moveTape = { s with tape := { s.tape with chans := s.tape.pendChans, pendChans := [] } } := by
  refine if_pos ?_
  rw [h, hg, decide_eq_true rfl, Bool.true_and]

theorem moveTape_waits {s : State} (h : s.loader.unitGone.contains 0xC34 = false) : s.moveTape = s := by
  refine if_neg ?_
  rw [h, Bool.false_and]
  exact Bool.false_ne_true

/-! ### Tables rewritten as a whole -/

/-- A table made over a list of keys, read at one of them. -/
theorem kvGet?_map_keys {α : Type} (f : Nat → α) {l : List Nat} {k : Nat} (h : k ∈ l) :
    kvGet? (l.map fun t => (t, f t)) k = some (f k) := by
  induction l with
  | nil => cases h
  | cons a l ih =>
    by_cases ha : k = a
    · simp [kvGet?, ha]
    · simpa [kvGet?, ha] using ih ((List.mem_cons.1 h).resolve_left ha)

/-- Every tile made anew, read at one. -/
theorem tile_of_map_range {s : State} {f : Nat → Tile} (hs : s.tiles = (List.range nTiles).map fun t => (t, f t)) {k : Nat}
    (hk : k < nTiles) : s.tile k = f k := by
  rw [State.tile, kvGet, hs, kvGet?_map_keys f (List.mem_range.2 hk), Option.getD_some]

/-- Words put into a table from a place up. -/
def putWords (m : Kv W64) (b : Nat) (l : List W64) : Kv W64 :=
  ((List.range l.length).zip l).foldl (fun m p => kvSet m (b + p.1) p.2) m

theorem putWords_append (m : Kv W64) (b : Nat) (l : List W64) (w : W64) :
    putWords m b (l ++ [w]) = kvSet (putWords m b l) (b + l.length) w := by
  simp [putWords, List.range_succ, List.zip_append]

theorem kvGet?_putWords (m : Kv W64) (b : Nat) (l : List W64) {j : Nat} (h : j < l.length) :
    kvGet? (putWords m b l) (b + j) = l[j]? := by
  induction l using List.reverseRecOn with
  | nil => cases h
  | append_singleton l w ih =>
    rw [putWords_append]
    by_cases hj : j = l.length
    · simp [hj]
    · have hlt : j < l.length := by
        rw [List.length_append, List.length_singleton] at h
        omega
      rw [kvGet?_kvSet_other _ _ (by omega), ih hlt, List.getElem?_append_left hlt]

end Sys2Proof.Machine
end

section
/-! PROOFS. Loading, checking, arming and starting a pattern (spec/05_patterns_and_reconfiguration.md R156 to R165, R182, R184,
Table 5.9). -/

namespace Sys2Proof.Machine

/-! ### The load command (spec/05_patterns_and_reconfiguration.md R156, R157) -/

/-- A command that its unit has taken up acts, marked as taken. -/
theorem withCmd_of_cmdFor {s : State} {tag op : Nat} {c : Cmd} (hs : s.safe = false) (hc : s.cmdFor tag op = some c)
    (k : State → Cmd → State) : s.withCmd tag op k = k (s.takeCmd c) c := by
  simp [State.withCmd, hs, hc]

/-- What a load command that meets a ready fabric and a free value leaves, by what it reads of the image. -/
def State.loadRead (c : Cmd) : State × (Nat ⊕ List Byte) → State
  | (u, .inl code) => u.refuseLoadAs c code
  | (u, .inr img) =>
    match u.pass1 img (c.p 8 4) with
    | some f => u.refuseLoad c f.1 f.2.1 f.2.2
    | none => u.startPass2 c img

theorem loadRead_fails {c : Cmd} {u : State} {img : List Byte} {f : Nat × Nat × Nat} (h : u.pass1 img (c.p 8 4) = some f) :
    State.loadRead c (u, .inr img) = u.refuseLoad c f.1 f.2.1 f.2.2 := by
  simp only [State.loadRead, h]

theorem loadRead_passes {c : Cmd} {u : State} {img : List Byte} (h : u.pass1 img (c.p 8 4) = none) :
    State.loadRead c (u, .inr img) = u.startPass2 c img := by
  simp only [State.loadRead, h]

section
variable {tag : Nat} {c : Cmd} {s : State} (hs : s.safe = false) (hc : s.cmdFor tag Op.PATTERN_LOAD = some c)
include hs hc

theorem exec_patternLoad_notReady (h : s.flag R.GC_STATE_FABRIC_READY = false ∨ s.draining = true) :
    exec (.patternLoad tag) s = .next ((s.takeCmd c).refuseLoad c Code.PAT_NOT_READY noSec 0) := by
  have hif : (!(s.takeCmd c).flag R.GC_STATE_FABRIC_READY || (s.takeCmd c).draining) = true := by
    change (!s.flag R.GC_STATE_FABRIC_READY || s.draining) = true
    simpa using h
  exact congrArg go ((withCmd_of_cmdFor hs hc _).trans (if_pos hif))

variable (hready : s.flag R.GC_STATE_FABRIC_READY = true) (hdrain : s.draining = false)
include hready hdrain

/-- On a ready fabric the command is refused as busy, or reads the image. -/
theorem exec_patternLoad_ready : exec (.patternLoad tag) s = .next (
    if s.plState ≠ 0 ∨ s.genState ((s.curGen + 1) % 16) ≠ 0 then (s.takeCmd c).refuseLoad c Code.PAT_GEN_BUSY noSec 0
    else State.loadRead c ((s.takeCmd c).readImage (c.p 0 8) (readLen (c.p 8 4)) .ok)) := by
  have hif : ¬ (!(s.takeCmd c).flag R.GC_STATE_FABRIC_READY || (s.takeCmd c).draining) = true := by
    change ¬ (!s.flag R.GC_STATE_FABRIC_READY || s.draining) = true
    simp [hready, hdrain]
  refine congrArg go ((withCmd_of_cmdFor hs hc _).trans ((if_neg hif).trans (if_congr ?_ rfl ?_)))
  · change (s.plState ≠ 0 || s.genState ((s.curGen + 1) % 16) ≠ 0) = true ↔ _
    simp
  · dsimp only
    generalize (s.takeCmd c).readImage _ _ _ = r
    obtain ⟨u, code | img⟩ := r <;> rfl

end

/-- The registers as pass 2 begins: the next value pending, and what `PL_STATUS` and `PL_PATTERN` show of it. -/
def State.pended (u : State) (img : List Byte) : State :=
  ((u.setGen ((u.curGen + 1) % 16) 2).setAll
    [(R.PL_STATUS_PEND_GEN, (u.curGen + 1) % 16), (R.PL_STATUS_PEND_VALID, 1), (R.PL_STATUS_LEFT, u.tilesIn.length),
      (R.PL_PATTERN_PEND_ID, imgId img)]).setPl 2

/-- A tile whose empty stage belongs to the load of a generation. -/
def Tile.pended (x : Tile) (g : Nat) : Tile := { x with stage := [], commitHeld := false, pend := some { gen := g } }

theorem startPass2_eq (u : State) (c : Cmd) (img : List Byte) : u.startPass2 c img = { u.pended img with
    tiles := (List.range nTiles).map fun t => (t, (u.tile t).pended ((u.curGen + 1) % 16))
    loader := (u.startPass2 c img).loader } := rfl

theorem pended_only (u : State) (img : List Byte) : Only [.bar] u (u.pended img) :=
  ((setGen_only u _ 2).trans (State.setAll_only _ _)).trans (setPl_only _ 2)

/-- A load that passes makes the next value pending and leaves the current one. -/
theorem pended_fields (u : State) (img : List Byte) :
    (u.pended img).plState = 2 ∧ (u.pended img).genState ((u.curGen + 1) % 16) = 2 ∧ (u.pended img).curGen = u.curGen
      ∧ (u.pended img).get R.PL_STATUS_LEFT = u.tilesIn.length % 2 ^ 12 := by
  have hgs : (u.pended img).get R.PL_GEN_STATE_GS = (u.setGen ((u.curGen + 1) % 16) 2).get R.PL_GEN_STATE_GS := by
    simp (disch := decide) only [State.pended, State.setPl, setAll_cons, setAll_nil, get_set_other]
  refine ⟨get_set_same _ _ _, ?_, ?_, ?_⟩
  · rw [genState_congr hgs, genState_setGen_same _ (Nat.mod_lt _ (by decide))]
  · simp (disch := decide) only [State.pended, State.curGen, State.setPl, setAll_cons, setAll_nil, get_set_other,
      get_setGen_other]
  · simp (disch := decide) only [State.pended, State.setPl, setAll_cons, setAll_nil, get_set_other, get_set_same]
    rfl

theorem startPass2_fields (u : State) (c : Cmd) (img : List Byte) :
    (u.startPass2 c img).plState = 2 ∧ (u.startPass2 c img).genState ((u.curGen + 1) % 16) = 2
      ∧ (u.startPass2 c img).curGen = u.curGen
      ∧ (u.startPass2 c img).get R.PL_STATUS_LEFT = u.tilesIn.length % 2 ^ 12 := by
  have hbar : (u.startPass2 c img).bar = (u.pended img).bar := by rw [startPass2_eq]
  have hget (f : Fld) : (u.startPass2 c img).get f = (u.pended img).get f := congrArg (fun b => rfGet b f) hbar
  obtain ⟨hpl, hgen, hcur, hleft⟩ := pended_fields u img
  exact ⟨(hget _).trans hpl, (genState_congr (hget _) _).trans hgen, (hget _).trans hcur, (hget _).trans hleft⟩

theorem startPass2_only (u : State) (c : Cmd) (img : List Byte) : Only [.bar, .tiles, .loader] u (u.startPass2 c img) := by
  rw [startPass2_eq]
  exact ((pended_only u img).mono (by simp)).trans ((tilesLoader_only _ _ _).mono (by simp))

theorem tile_startPass2 (u : State) (c : Cmd) (img : List Byte) {k : Nat} (hk : k < nTiles) :
    (u.startPass2 c img).tile k = (u.tile k).pended ((u.curGen + 1) % 16) := by
  refine tile_of_map_range (f := fun t => (u.tile t).pended ((u.curGen + 1) % 16)) ?_ hk
  unfold State.startPass2
  dsimp only
  refine List.map_congr_left fun t _ => ?_
  rfl

/-! ### Pass 2 (spec/05_patterns_and_reconfiguration.md R157, R173) -/

section
variable {s u : State} {e : Ecc} (hs : s.halts = false) (hl : s.loader.live = true) (hd : s.loader.discarding = false)
  (hp : s.plState = 2)
include hs hl hd hp

theorem exec_loadPass2_unread {code : Nat} (h : s.readImage s.loader.base s.loader.len e = (u, .inl code)) :
    exec (.loadPass2 e) s = .next (u.abandonLoad 3 code noSec 0) := by
  change execLoadPass2 e s = _
  simp [execLoadPass2, hs, hl, hd, hp, h]

variable {img : List Byte} (h : s.readImage s.loader.base s.loader.len e = (u, .inr img))
include h

theorem exec_loadPass2_badCrc (hcrc : imgCrcOk img = false) :
    exec (.loadPass2 e) s
      = .next ((u.raiseTied Code.PAT_CRC 0xC31 noSec 0x3C).abandonLoad 3 Code.PAT_CRC noSec 0x3C) := by
  change execLoadPass2 e s = _
  simp [execLoadPass2, hs, hl, hd, hp, h, hcrc]

theorem exec_loadPass2_stages (hcrc : imgCrcOk img = true) :
    exec (.loadPass2 e) s = .next (if s.loader.hold then (u.pass2 img).setPl 3 else (u.pass2 img).issueLoad) := by
  change execLoadPass2 e s = _
  simp only [execLoadPass2, hs, hl, hd, hp, h, hcrc]
  cases s.loader.hold <;> rfl

end

/-- What pass 2 writes at a tile: the words of its programs, and a pending configuration that names them. -/
theorem stageTile_spec (s : State) (img : List Byte) (g k : Nat) : ∃ p bw, s.stageTile img g k = { s.tile k with
      imem := putWords (s.tile k).imem p.base (newWords img k), bobWords := bw, pend := some p }
    ∧ p.gen = g ∧ p.regs = newRegs img k ∧ p.count = (newWords img k).length :=
  ⟨(s.stageTile img g k).pend.getD { gen := g }, (s.stageTile img g k).bobWords, rfl, rfl, rfl, rfl⟩

/-- The tables as pass 2 leaves them but for the credits withheld. -/
def State.pass2Staged (s : State) (img : List Byte) : State :=
  { s with
    tiles := (List.range nTiles).map fun t => (t, s.stageTile img s.loader.gen t)
    tape := { s.tape with pendChans := s.stageChans img s.loader.gen }
    seam := s.stageSeam img s.loader.gen
    loader := (s.pass2 img).loader }

theorem pass2_eq (s : State) (img : List Byte) : s.pass2 img = (s.pass2Staged img).withWithheld := rfl

/-- A tile with the credits noted that its pending queues withhold. -/
def Tile.withheld (x : Tile) (w : TilePend → Kv Nat) : Tile :=
  { x with pend := x.pend.map fun p => { p with withheld := w p } }

theorem tile_pass2 (s : State) (img : List Byte) {k : Nat} (hk : k < nTiles) :
    (s.pass2 img).tile k = (s.stageTile img s.loader.gen k).withheld ((s.pass2Staged img).withholds k) := by
  rw [pass2_eq]
  refine tile_of_map_range (f := fun j => (s.stageTile img s.loader.gen j).withheld ((s.pass2Staged img).withholds j)) ?_ hk
  dsimp only [State.withWithheld, State.pass2Staged]
  rw [List.map_map]
  refine List.map_congr_left fun t _ => ?_
  rfl

/-! ### Abandonment (spec/05_patterns_and_reconfiguration.md R182) -/

theorem discardLoad_only (s : State) : Only [.bar, .loader] s s.discardLoad :=
  ((((setGen_only s _ 3).trans (State.setAll_only _ _)).trans (setPl_only _ 6)).mono (by simp)).trans
    ((onLoader_only _ _).mono (by simp))

/-- DISCARD is to go to what the load has written, its value quarantined. -/
theorem discardLoad_state {s : State} (hg : s.loader.gen < 16) :
    s.discardLoad.genState s.loader.gen = 3 ∧ s.discardLoad.plState = 6 := by
  have hget (f : Fld) : s.discardLoad.get f = ((((s.setGen s.loader.gen 3).set R.PL_STATUS_PEND_VALID 0).set
    R.PL_STATUS_LEFT 0).set R.PL_STATUS_STATE 6).get f := rfl
  have hgs : s.discardLoad.get R.PL_GEN_STATE_GS = (s.setGen s.loader.gen 3).get R.PL_GEN_STATE_GS := by
    rw [hget]
    simp (disch := decide) only [get_set_other]
  refine ⟨?_, ?_⟩
  · rw [genState_congr hgs, genState_setGen_same _ hg]
  · rw [State.plState, hget, get_set_same]
    rfl

/-- The state of an abandoned load before its value is quarantined. -/
def State.aborted (s : State) (kind code sec off : Nat) : State :=
  ((s.plErr code sec off).bump R.REFUSED 1).reply s.loader.tag s.loader.epoch kind code (plResult sec off)

theorem aborted_only (s : State) (kind code sec off : Nat) : Only [.bar, .tape] s (s.aborted kind code sec off) :=
  (((State.setAll_only s _).trans (State.bump_only _ _ _)).mono (by simp)).trans (State.reply_only _ _ _ _ _ _)

theorem abandonLoad_spec {s : State} (kind code sec off : Nat) (hg : s.loader.gen < 16) :
    let u := s.abandonLoad kind code sec off
    u.genState s.loader.gen = 3 ∧ u.plState = 6 ∧ u.loader.discarding = true ∧ u.loader.discardTo = s.loader.written
      ∧ Only [.bar, .tape, .loader] s u := by
  have hl : (s.aborted kind code sec off).loader = s.loader := aborted_only s kind code sec off .loader (by simp)
  obtain ⟨hgen, hpl⟩ := discardLoad_state (s := s.aborted kind code sec off) (by rwa [hl])
  rw [hl] at hgen
  exact ⟨hgen, hpl, rfl, congrArg Loader.written hl,
    ((aborted_only s kind code sec off).mono (by simp)).trans ((discardLoad_only _).mono (by simp))⟩

/-! ### The checks at issue (spec/05_patterns_and_reconfiguration.md R184) -/

theorem issueLoad_passes {s : State} (h : s.issueFail = none) : s.issueLoad = s.setPl 4 := by
  simp only [State.issueLoad, h]

theorem issueLoad_fails {s : State} {code : Nat} (h : s.issueFail = some code) :
    s.issueLoad = (s.raiseTied code 0xC31 noSec 0).abandonLoad 2 code noSec 0 := by
  simp only [State.issueLoad, h]

section
variable {tag : Nat} {c : Cmd} {s : State} (hs : s.safe = false) (hc : s.cmdFor tag Op.PATTERN_ARM = some c)
include hs hc

theorem exec_patternArm_state (h : s.plState ≠ 3) :
    exec (.patternArm tag) s = .next ((s.takeCmd c).refuseTag c Code.TAPE_STATE 0) :=
  congrArg go ((withCmd_of_cmdFor hs hc _).trans (if_pos h))

variable (hp : s.plState = 3)
include hp

theorem exec_patternArm_passes (h : (s.takeCmd c).issueFail = none) :
    exec (.patternArm tag) s = .next (((s.takeCmd c).setPl 4).done c []) := by
  refine congrArg go ((withCmd_of_cmdFor hs hc _).trans ((if_neg (not_not.2 hp)).trans ?_))
  simp only [h, issueLoad_passes h]

theorem exec_patternArm_fails {code : Nat} (h : (s.takeCmd c).issueFail = some code) :
    exec (.patternArm tag) s = .next ((((s.takeCmd c).raiseTied code 0xC31 noSec 0).abandonLoad 2 code noSec 0).reply
      c.tag c.epoch 2 code []) := by
  refine congrArg go ((withCmd_of_cmdFor hs hc _).trans ((if_neg (not_not.2 hp)).trans ?_))
  simp only [h, issueLoad_fails h]

end

/-! ### ARM and GO (spec/05_patterns_and_reconfiguration.md R164, R165, R177) -/

theorem exec_arm {unit : Nat} {s : State} (hs : s.safe = false) (hp : s.plState = 4) (hu : allUnits.contains unit = true)
    (ha : s.loader.unitArmed.contains unit = false) :
    exec (.arm unit) s = .next (
      let t := s.onLoader fun l => { l with unitArmed := unit :: l.unitArmed }
      if unit < nTiles then t.onTile unit fun x => { x with pend := x.pend.map fun p => { p with armed := true } } else t) := by
  have hif : ¬ (s.safe || decide (s.plState ≠ 4) || !allUnits.contains unit || s.loader.unitArmed.contains unit) = true := by
    rw [hs, hp, hu, ha]
    decide
  have hrun : exec (.arm unit) s = _ := if_neg hif
  rw [hrun]
  split <;> rfl

theorem exec_armAck {unit : Nat} {s : State} (hs : s.halts = false) (hp : s.plState = 4)
    (hu : s.loader.unitArmed.contains unit = true) (ha : s.loader.armed.contains unit = false) :
    exec (.armAck unit) s = .next (
      let t := s.onLoader fun l => { l with armed := unit :: l.armed }
      if t.loader.armed.length = allUnits.length then t.sendGo else t) := by
  have hif : ¬ (s.halts || decide (s.plState ≠ 4) || !s.loader.unitArmed.contains unit || s.loader.armed.contains unit)
      = true := by
    rw [hs, hp, hu, ha]
    decide
  have hrun : exec (.armAck unit) s = _ := if_neg hif
  exact hrun.trans (apply_ite go _ _ _).symm

/-- The state of the loader as GO goes out. -/
def State.goes (s : State) : State := (s.setPl 5).onLoader fun l => { l with
  goSent := true, parts := s.tilesIn ++ selvedge.filter s.partOld, awaited := allUnits }

theorem sendGo_eq (s : State) : s.sendGo = if s.tilesIn.isEmpty then s.goes.makeCurrent else s.goes := rfl

theorem goes_plState (s : State) : s.goes.plState = 5 := get_set_same _ _ _

theorem goes_only (s : State) : Only [.bar, .loader] s s.goes :=
  ((setPl_only s 5).mono (by simp)).trans ((onLoader_only _ _).mono (by simp))

theorem selvedge_ge : ∀ k ∈ selvedge, ¬ k < nTiles := by decide

/-- A selvedge unit that takes part in the old generation is one of those that end it. -/
theorem goes_parts_selvedge {s : State} {k : Nat} (hk : k ∈ selvedge) (h : s.unitPart k s.loader.oldGen = true) :
    k ∈ s.goes.loader.parts := by
  refine List.mem_append_right _ (List.mem_filter.2 ⟨hk, ?_⟩)
  rw [State.partOld, if_neg (selvedge_ge k hk), h]

/-- The registers and the loader as the pending generation becomes current. -/
def State.promoted (s : State) : State :=
  ((((((s.setGen s.loader.oldGen 3).setGen s.loader.gen 1).setAll [(R.PL_STATUS_CUR_GEN, s.loader.gen),
    (R.PL_STATUS_PEND_VALID, 0), (R.PL_PATTERN_CUR_ID, s.get R.PL_PATTERN_PEND_ID)]).bump R.LOADS 1).setPl 6).onLoader
    fun l => { l with curRegions := l.regions, curSpillNeed := l.spillNeed })

theorem makeCurrent_eq (s : State) : s.makeCurrent = s.promoted.moveTape.reply s.loader.tag s.loader.epoch 1 0
    (leBytes 1 s.loader.gen ++ leBytes 3 0 ++ leBytes 4 (s.get R.PL_PATTERN_PEND_ID)) := rfl

theorem promoted_only (s : State) : Only [.bar, .loader] s s.promoted :=
  ((((((setGen_only s _ 3).trans (setGen_only _ _ 1)).trans (State.setAll_only _ _)).trans (State.bump_only _ _ _)).trans
    (setPl_only _ 6)).mono (by simp)).trans ((onLoader_only _ _).mono (by simp))

/-- Any register but the two counters of replies reads, once the new generation is current, as the promotion left it. -/
theorem get_makeCurrent (s : State) {f : Fld} (h : f.key ∉ [R.STALE_TAG, R.CMD_REFUSED].map Fld.key) :
    s.makeCurrent.get f = s.promoted.get f := by
  rw [makeCurrent_eq, reply_onlyFields _ _ _ _ _ _ f h]
  exact congrArg (fun b => rfGet b f) (moveTape_only s.promoted .bar (by simp))

theorem get_promoted_curGen (s : State) : s.promoted.curGen = s.loader.gen % 16 := by
  have hget : s.promoted.curGen = (((((((s.setGen s.loader.oldGen 3).setGen s.loader.gen 1).set R.PL_STATUS_CUR_GEN
      s.loader.gen).set R.PL_STATUS_PEND_VALID 0).set R.PL_PATTERN_CUR_ID (s.get R.PL_PATTERN_PEND_ID)).bump
      R.LOADS 1).set R.PL_STATUS_STATE 6).get R.PL_STATUS_CUR_GEN := rfl
  rw [hget]
  simp (disch := decide) only [get_set_other, get_bump_other, get_set_same]
  rfl

theorem makeCurrent_curGen (s : State) : s.makeCurrent.curGen = s.loader.gen % 16 :=
  (get_makeCurrent s (by decide)).trans (get_promoted_curGen s)

/-- GO at a unit that has not had it. -/
def State.gone (s : State) (unit : Nat) : State := s.onLoader fun l => { l with
  unitGone := unit :: l.unitGone, ackSent := if l.parts.contains unit then l.ackSent else unit :: l.ackSent }

theorem exec_go {unit : Nat} {s : State} (hs : s.safe = false) (hgo : s.loader.goSent = true)
    (hu : allUnits.contains unit = true) (hn : s.loader.unitGone.contains unit = false) :
    exec (.go unit) s = .next (
      if unit < nTiles then
        (s.gone unit).onTile unit fun x => { x with pend := x.pend.map fun p => { p with go := true } }
      else if inRange 0xC20 0xC27 unit then ((s.gone unit).enforceIns (unit - 0xC20) s.loader.gen).moveSeam
      else if unit = 0xC34 then (s.gone unit).moveTape
      else s.gone unit) := by
  have hif : ¬ (s.safe || !s.loader.goSent || !allUnits.contains unit || s.loader.unitGone.contains unit) = true := by
    rw [hs, hgo, hu, hn]
    decide
  have hrun : exec (.go unit) s = _ := if_neg hif
  rw [hrun]
  split
  · rfl
  · split
    · rfl
    · split <;> rfl

/-- Once every engine has GO the new table is module-wide. -/
theorem moveSeam_moves {s : State} {tab : SeamTab} (hp : s.seam.pend = some tab)
    (h : ∀ j, j < 8 → (0xC20 + j) ∈ s.loader.unitGone) : s.moveSeam = { s with seam := { s.seam with cur := tab, pend := none } } := by
  have hall : ((List.range 8).all fun p => s.loader.unitGone.contains (0xC20 + p)) = true := by
    simpa using h
  simp only [State.moveSeam, hp]
  exact if_pos hall

/-- Settles O14: the load command and pass 2 are each one chain of checks; the tables that they write are read at one tile;
ARM, its acknowledgements and GO each reach a unit once, since the loader keeps who has had them. -/
theorem aPatternIsLoadedCheckedAndArmed : Obligations.APatternIsLoadedCheckedAndArmed := by
  refine ⟨fun tag c s hs hc => ?load, fun e s hs hl hd hp => ?pass2, fun s img k hk => ?staged,
    fun s => ⟨issueLoad_passes, fun _ => issueLoad_fails⟩, fun s kind code sec off hg => abandonLoad_spec kind code sec off hg,
    fun tag c s hs hc => ⟨exec_patternArm_state hs hc, exec_patternArm_passes hs hc,
      fun _ hp h => exec_patternArm_fails hs hc hp h⟩,
    fun unit s hs hp hu ha => exec_arm hs hp hu ha, fun unit s hs hp hu ha => ?ack, fun s => ?sendGo,
    fun unit s hs hgo hu hn => ?go, fun p tab s hp => ?seam, fun s h hg => ?tape⟩
  case load =>
    intro t g len
    refine ⟨exec_patternLoad_notReady hs hc, fun hr hd h => ?_, fun hr hd hp hg => ?_⟩
    · rw [exec_patternLoad_ready hs hc hr hd, if_pos h]
    · have hrun := exec_patternLoad_ready hs hc hr hd
      rw [if_neg (by simp [hp]; exact hg)] at hrun
      refine ⟨fun u code h => by rw [hrun, h]; rfl, fun u img h => ⟨fun f hf => ?_, fun hpass => ?_⟩⟩
      · rw [hrun, h, loadRead_fails hf]
      · rw [h, loadRead_passes hpass] at hrun
        obtain ⟨hpl, hgen, hcur, hleft⟩ := startPass2_fields u c img
        refine ⟨_, hrun, startPass2_only u c img, hpl, hgen, hcur, rfl, fun hlt => ?_, rfl, rfl, rfl, fun k hk => ?_⟩
        · exact hleft.trans (Nat.mod_eq_of_lt hlt)
        · rw [tile_startPass2 u c img hk]
          exact ⟨rfl, rfl, rfl, rfl⟩
  case pass2 =>
    exact ⟨fun u code h => exec_loadPass2_unread hs hl hd hp h, fun u img h =>
      ⟨exec_loadPass2_badCrc hs hl hd hp h, exec_loadPass2_stages hs hl hd hp h⟩⟩
  case staged =>
    intro y
    have hy : y = _ := tile_pass2 s img hk
    obtain ⟨p, bw, hst, hgen, hregs, hcount⟩ := stageTile_spec s img s.loader.gen k
    rw [hy, hst]
    exact ⟨_, rfl, hgen, hregs, hcount, fun j hj => kvGet?_putWords _ _ _ (hj.trans_eq hcount), rfl, rfl, rfl⟩
  case ack =>
    intro t
    rw [exec_armAck hs hp hu ha]
    exact ⟨fun h => congrArg go (if_neg h), fun h => congrArg go (if_pos h)⟩
  case sendGo =>
    intro u
    refine ⟨fun h => ?_, fun h => ?_⟩
    · have hu : u = s.goes := (sendGo_eq s).trans (if_neg (by simpa using h))
      rw [hu]
      exact ⟨goes_plState s, rfl, rfl, fun k hk => List.mem_append_left _ hk, fun k hk => goes_parts_selvedge hk, goes_only s⟩
    · have hu : u = s.goes.makeCurrent := (sendGo_eq s).trans (if_pos (by simp [h]))
      rw [hu]
      exact makeCurrent_curGen s.goes
  case go =>
    intro l t
    have hrun : exec (.go unit) s = _ := exec_go hs hgo hu hn
    have hin : inRange 0xC20 0xC27 unit = true ↔ 0xC20 ≤ unit ∧ unit ≤ 0xC27 := by simp [inRange]
    refine ⟨fun h => ?_, fun h1 h2 => ?_, fun h => ?_, fun h1 h2 h3 => ?_⟩
    · rw [hrun, if_pos h]
      rfl
    · rw [hrun, if_neg (by unfold nTiles; omega), if_pos (hin.2 ⟨h1, h2⟩)]
      rfl
    · rw [hrun, if_neg (by unfold nTiles; omega), if_neg (by rw [hin]; omega), if_pos h]
      rfl
    · rw [hrun, if_neg (Nat.not_lt.2 h1), if_neg (by rw [hin]; omega), if_neg h3]
      rfl
  case seam =>
    refine ⟨fun h => ?_, fun h => ?_, fun h => ?_⟩
    · rw [State.seamTabOf, hp]
      exact if_pos h
    · rw [State.seamTabOf, hp]
      exact if_neg (by rw [h]; exact Bool.false_ne_true)
    · rw [moveSeam_moves hp h]
      exact ⟨rfl, rfl⟩
  case tape =>
    rw [moveTape_moves h hg]
    exact ⟨rfl, rfl⟩

end Sys2Proof.Machine
end

section
/-! PROOFS. Ending, switching, retiring and discarding generations (spec/05_patterns_and_reconfiguration.md R162 to R182). -/

namespace Sys2Proof.Machine

/-! ### The kind of a header formed (spec/04_fabric_tokens_and_steering.md Table 4.1, R112) -/

theorem crc8_lt (l : List Byte) : crc8 l < 256 := by
  have hstep (x : Nat) : (if bit x 7 then Nat.xor (x * 2 % 256) 0x07 else x * 2 % 256) < 256 := by
    have hx : x * 2 % 256 < 2 ^ 8 := Nat.mod_lt _ (by decide)
    split
    · exact Nat.xor_lt_two_pow hx (by decide)
    · exact hx
  refine List.foldlRecOn (motive := fun c => c < 256) l _ (by decide) fun c _ b _ => ?_
  unfold crc8Byte
  exact hstep _

theorem hKind_mkHdr (f : HdrF) : hKind (mkHdr f) = f.kind % 8 := by
  have hcrc (hi : Nat) : hdrCrc hi < 256 := crc8_lt _
  have hb : b2n f.basted < 2 := by cases f.basted <;> decide
  unfold hKind mkHdr bits
  extract_lets hi
  have h8 := hcrc hi
  generalize hdrCrc hi = c at h8 ⊢
  rw [BitVec.toNat_ofNat]
  omega

/-! ### Hem markers of a tile (spec/05_patterns_and_reconfiguration.md R174) -/

/-- A tile program's channel that may end sends one hem marker, and no other. -/
theorem exec_hemSend {t c : Nat} {s : State} (hs : s.issues = true) (ht : t < nTiles) (hen : chEn (s.tile t).regs c = true)
    (hout : unitOut t (s.tile t).regs c = false) (hhem : ((s.tile t).och c).hem = false)
    (hend : (s.tile t).programEnded = true) (hgo : (s.tile t).count ≠ 0 ∨ (s.tile t).pend.any TilePend.go = true)
    (hcan : (s.tile t).canSend c = true) :
    exec (.hemSend t c) s
      = .next ((s.sendAs t c kHem 0 0 false []).onTile t fun x => x.setOch c { x.och c with hem := true }) := by
  refine if_pos ?_
  have hor : (decide ((s.tile t).count ≠ 0) || (s.tile t).pend.any TilePend.go) = true := by
    simpa using hgo
  rw [hs, decide_eq_true ht, hen, hout, hhem, hend, hor, hcan]
  rfl

theorem sendAs_hem_net (s : State) (t c : Nat) :
    ∃ m : NetTok, (s.sendAs t c kHem 0 0 false []).net = s.net ++ [m] ∧ hKind m.tok.hdr = kHem :=
  ⟨_, rfl, hKind_mkHdr _⟩

/-- A send changes of the tiles the channel that sends. -/
theorem tile_sendAs (s : State) (k c kind tag slot : Nat) (b : Bool) (pay : List Byte) :
    (s.sendAs k c kind tag slot b pay).tile k = (s.tile k).setOch c ((s.tile k).och c).spend := State.tile_setTile_same s k _

theorem tile_sendAs_other (s : State) {j k : Nat} (h : j ≠ k) (c kind tag slot : Nat) (b : Bool) (pay : List Byte) :
    (s.sendAs k c kind tag slot b pay).tile j = s.tile j := s.tile_setTile_other k j _ h

/-! ### The switch of a tile (spec/05_patterns_and_reconfiguration.md R166, R167) -/

theorem lane_only (s : State) (l : List Credit) : Only [.lane] s { s with lane := l } := by
  intro p hp
  cases p <;> simp_all [Part.Same]

theorem laneCredits_only (s : State) (t q g n : Nat) : Only [.lane] s (s.laneCredits t q g n) := by
  obtain ⟨l, -, hl⟩ := laneCredits_eq s t q g n
  rw [hl]
  exact lane_only s _

theorem freeSlot_only (s : State) (t q g : Nat) (owes : Bool) : Only [.tiles, .lane] s (s.freeSlot t q g owes) := by
  have hcredit (s : State) : Only [.tiles, .lane] s (if owes then s.laneCredits t q g 1 else s) := by
    split
    · exact (laneCredits_only _ _ _ _ _).mono (by simp)
    · exact .refl _ s
  unfold State.freeSlot
  dsimp only
  refine Only.trans ?_ (hcredit _)
  split
  · exact (State.onTile_only _ _ _).mono (by simp)
  · exact .refl _ s

theorem consumeHem_only (s : State) (t q : Nat) : Only [.tiles, .lane] s (s.consumeHem t q) :=
  (((State.onTile_only s t _).mono (by simp)).trans ((freeSlot_only _ _ _ _ _).trans
    ((State.onTile_only _ t _).mono (by simp)))).trans ((laneCredits_only _ _ _ _ _).mono (by simp))

/-- The hem markers that a switch consumes change tiles and the credit lane. -/
theorem takeHems_only (s : State) (t : Nat) : Only [.tiles, .lane] s (s.takeHems t) := by
  refine Only.foldl (fun s q => ?_) _ s
  dsimp only
  split
  · exact consumeHem_only s t q
  · exact .refl _ s

theorem tile_of_only {L : List Part} {s u : State} (h : Only L s u) (hL : Part.tiles ∉ L) (k : Nat) : u.tile k = s.tile k := by
  rw [State.tile, State.tile, show u.tiles = s.tiles from h .tiles hL]

/-- Has a FLUSH ended the run of the fabric? -/
def State.flushedFull (s : State) : Bool := s.unpick.flushed && s.drain = 3

theorem flushedFull_takeHems (s : State) (t : Nat) : (s.takeHems t).flushedFull = s.flushedFull := by
  have hu : (s.takeHems t).unpick = s.unpick := takeHems_only s t .unpick (by simp)
  have hb : (s.takeHems t).bar = s.bar := takeHems_only s t .bar (by simp)
  rw [State.flushedFull, State.drain, State.get, hu, hb]
  rfl

/-- A tile after its switch: the new generation's number and start, and what a switch leaves. -/
theorem switched_gets (x : Tile) (p : TilePend) (full : Bool) :
    (x.switched p full).get T.TILE_STATUS_GEN = p.gen % 16
      ∧ (x.switched p full).get T.TILE_STATUS_STATE = if p.count = 0 ∨ full = true then 0 else 1 := by
  refine ⟨?_, ?_⟩
  · unfold Tile.switched
    rw [Tile.get_set_other _ _ (by decide), Tile.get_set_other _ _ (by decide), Tile.get_set_same]
    rfl
  · unfold Tile.switched
    rw [Tile.get_set_same]
    by_cases h : p.count = 0 ∨ full = true <;> simp [h, T.TILE_STATUS_STATE, Fld.width]

theorem switched_frame (x : Tile) (p : TilePend) (full : Bool) :
    (x.switched p full).pend = none ∧ (x.switched p full).count = p.count ∧ (x.switched p full).base = p.base
      ∧ (x.switched p full).loops = [] ∧ (x.switched p full).imem = x.imem ∧ (x.switched p full).acc = x.acc :=
  by simp [Tile.switched, Tile.set, Tile.applyCommit, Tile.fillBanks]

/-- The acknowledgement of a switch, and the notice to the unpick controller from a tile with a queue in spill mode. -/
def State.ackSwitch (s : State) (t : Nat) : State :=
  let u := s.onLoader fun l => { l with ackSent := if l.ackSent.contains t then l.ackSent else t :: l.ackSent }
  if (u.tile t).queues.any fun q => q.2.spill then
    { u with unpick := { u.unpick with notices := u.unpick.notices ++ [t] } }
  else u

/-- A tile of the old generation counted as switched; the last one makes the pending generation current. -/
def State.countSwitch (s : State) : State :=
  let u := s.set R.PL_STATUS_LEFT (s.get R.PL_STATUS_LEFT - 1)
  if u.get R.PL_STATUS_LEFT = 0 && u.plState = 5 then u.makeCurrent else u

theorem unpick_only (s : State) (u : Unpick) : Only [.unpick] s { s with unpick := u } := by
  intro p hp
  cases p <;> simp_all [Part.Same]

theorem ackSwitch_only (s : State) (t : Nat) : Only [.loader, .unpick] s (s.ackSwitch t) := by
  have hl := (onLoader_only s fun l => { l with ackSent := if l.ackSent.contains t then l.ackSent else t :: l.ackSent }).mono
    (L := [.loader, .unpick]) (by simp)
  unfold State.ackSwitch
  dsimp only
  split
  · exact hl.trans ((unpick_only _ _).mono (by simp))
  · exact hl

theorem mem_ackSwitch (s : State) (t : Nat) : t ∈ (s.ackSwitch t).loader.ackSent := by
  have hm : t ∈ if s.loader.ackSent.contains t then s.loader.ackSent else t :: s.loader.ackSent := by
    split
    · exact List.contains_iff_mem.1 ‹_›
    · exact List.mem_cons_self
  unfold State.ackSwitch
  dsimp only
  split <;> exact hm

theorem makeCurrent_only (s : State) : Only [.bar, .loader, .tape] s s.makeCurrent :=
  ((promoted_only s).mono (by simp)).trans (((moveTape_only _).mono (by simp)).trans
    ((State.reply_only _ _ _ _ _ _).mono (by simp)))

/-- What the promotion notes at the loader stays while the step channels move and the reply goes out. -/
theorem makeCurrent_loader (s : State) : s.makeCurrent.loader = s.promoted.loader :=
  ((State.reply_only s.promoted.moveTape _ _ _ _ _ .loader (by simp)).trans (moveTape_only s.promoted .loader (by simp)))

theorem countSwitch_only (s : State) : Only [.bar, .loader, .tape] s s.countSwitch := by
  have hset : Only [.bar, .loader, .tape] s (s.set R.PL_STATUS_LEFT (s.get R.PL_STATUS_LEFT - 1)) :=
    (s.set_only _ _).mono (by simp)
  unfold State.countSwitch
  dsimp only
  split
  · exact hset.trans (makeCurrent_only _)
  · exact hset

theorem countSwitch_ackSent (s : State) : s.countSwitch.loader.ackSent = s.loader.ackSent := by
  unfold State.countSwitch
  dsimp only
  split
  · rw [makeCurrent_loader]
    rfl
  · rfl

/-- The loader at rest: what it keeps of the generation in force. -/
def Loader.rest (l : Loader) : Loader := { curRegions := l.curRegions, curSpillNeed := l.curSpillNeed }

/-- The old generation retired. -/
def State.retired (s : State) : State := ((s.setGen s.loader.oldGen 0).setPl 0).onLoader Loader.rest

theorem retired_only (s : State) : Only [.bar, .loader] s s.retired :=
  (((setGen_only s _ 0).trans (setPl_only _ 0)).mono (by simp)).trans ((onLoader_only _ _).mono (by simp))

/-- May the old generation retire? -/
def State.mayRetire (s : State) : Bool :=
  s.plState = 6 && !s.loader.discarding && !s.loader.late && s.loader.live && s.loader.awaited.isEmpty
    && s.tiles.all fun e => e.2.pend.isNone

theorem endRetire_eq (s : State) : s.endRetire = if s.mayRetire then s.retired else s := rfl

theorem endRetire_only (s : State) : Only [.bar, .loader] s s.endRetire := by
  rw [endRetire_eq]
  split
  · exact retired_only s
  · exact .refl _ s

/-- Retirement leaves the loader as it is, or at rest. -/
theorem endRetire_loader (s : State) : s.endRetire.loader = s.loader ∨ s.endRetire.loader.live = false := by
  rw [endRetire_eq]
  split
  · exact .inr rfl
  · exact .inl rfl

section
variable {s : State} {t : Nat} {p : TilePend}

theorem exec_tileSwitch (hp : (s.tile t).pend = some p) (hs : s.safe = false) (hc : s.canSwitch t = true) :
    exec (.tileSwitch t) s = .next (s.switchTile t p) := by
  change execTileSwitch t s = _
  simp [execTileSwitch, hp, hs, hc]

theorem switchTile_fails {f : Nat × Nat}
    (h : tileCheck t ((s.takeHems t).tile t).regs (stageTo ((s.takeHems t).tile t).regs p.regs) p.regs = some f) :
    s.switchTile t p = ((s.takeHems t).raise Code.PAT_SWITCH_FAIL t 0 (f.1 + f.2 * 2 ^ 16)).onTile t fun x =>
      { x.stopped with stage := [], pend := none } := by
  simp only [State.switchTile, h]

/-- A switch that passes its check puts the new tile in place, acknowledges, and counts a tile of the old generation. -/
theorem switchTile_commits
    (h : tileCheck t ((s.takeHems t).tile t).regs (stageTo ((s.takeHems t).tile t).regs p.regs) p.regs = none) :
    let u := ((s.takeHems t).setTile t (((s.takeHems t).tile t).switched p s.flushedFull)).ackSwitch t
    s.switchTile t p = (if (s.tile t).takesPart t then u.countSwitch else u).endRetire := by
  simp only [State.switchTile, h]
  split <;> rfl

/-- After a switch the other tiles, the mesh and memory are as they were, and the tile has acknowledged. -/
theorem switchTile_after
    (h : tileCheck t ((s.takeHems t).tile t).regs (stageTo ((s.takeHems t).tile t).regs p.regs) p.regs = none) :
    Only [.bar, .loader, .unpick, .tape]
        ((s.takeHems t).setTile t (((s.takeHems t).tile t).switched p s.flushedFull)) (s.switchTile t p)
      ∧ (t ∈ (s.switchTile t p).loader.ackSent ∨ (s.switchTile t p).loader.live = false) := by
  rw [switchTile_commits h]
  generalize (s.takeHems t).setTile t _ = v
  have hack := (ackSwitch_only v t).mono (L := [.bar, .loader, .unpick, .tape]) (by simp)
  have hmem := mem_ackSwitch v t
  have hend (u : State) (ho : Only [.bar, .loader, .unpick, .tape] v u) (hm : t ∈ u.loader.ackSent) :
      Only [.bar, .loader, .unpick, .tape] v u.endRetire
        ∧ (t ∈ u.endRetire.loader.ackSent ∨ u.endRetire.loader.live = false) :=
    ⟨ho.trans ((endRetire_only u).mono (by simp)), (endRetire_loader u).imp_left fun hl => by rwa [hl]⟩
  split
  · exact hend _ (hack.trans ((countSwitch_only _).mono (by simp))) ((countSwitch_ackSent _).symm ▸ hmem)
  · exact hend _ hack hmem

end

/-! ### The pending generation becomes current (spec/05_patterns_and_reconfiguration.md R163, Table 5.9 step 8) -/

theorem get_promoted_states (s : State) :
    s.promoted.get R.PL_GEN_STATE_GS = ((s.setGen s.loader.oldGen 3).setGen s.loader.gen 1).get R.PL_GEN_STATE_GS := by
  have hget : s.promoted.get R.PL_GEN_STATE_GS = (((((((s.setGen s.loader.oldGen 3).setGen s.loader.gen 1).set
      R.PL_STATUS_CUR_GEN s.loader.gen).set R.PL_STATUS_PEND_VALID 0).set R.PL_PATTERN_CUR_ID
      (s.get R.PL_PATTERN_PEND_ID)).bump R.LOADS 1).set R.PL_STATUS_STATE 6).get R.PL_GEN_STATE_GS := rfl
  rw [hget]
  simp (disch := decide) only [get_set_other, get_bump_other]

/-- The new value is current and the old one quarantined. -/
theorem makeCurrent_genState {s : State} (hg : s.loader.gen < 16) (ho : s.loader.oldGen < 16)
    (hne : s.loader.gen ≠ s.loader.oldGen) :
    s.makeCurrent.genState s.loader.gen = 1 ∧ s.makeCurrent.genState s.loader.oldGen = 3 := by
  have hgs (g : Nat) : s.makeCurrent.genState g = ((s.setGen s.loader.oldGen 3).setGen s.loader.gen 1).genState g :=
    genState_congr ((get_makeCurrent s (by decide)).trans (get_promoted_states s)) g
  rw [hgs, hgs]
  exact ⟨genState_setGen_same _ hg 1, (genState_setGen_other _ ho (Ne.symm hne) 1).trans (genState_setGen_same _ ho 3)⟩

theorem makeCurrent_plState (s : State) : s.makeCurrent.plState = 6 := (get_makeCurrent s (by decide)).trans (get_set_same _ _ _)

/-- A reply leaves the step channels. -/
theorem reply_chans (s : State) (tag ep k c : Nat) (r : List Byte) : (s.reply tag ep k c r).tape.chans = s.tape.chans
    ∧ (s.reply tag ep k c r).tape.pendChans = s.tape.pendChans := by
  unfold State.reply
  split
  · exact ⟨rfl, rfl⟩
  · split
    · exact ⟨rfl, rfl⟩
    · dsimp only
      split <;> exact ⟨rfl, rfl⟩

/-- The step channels move with the promotion where the tape unit has GO, and wait for it otherwise. -/
theorem makeCurrent_chans {s : State} (hg : s.loader.gen < 16) :
    (s.loader.unitGone.contains 0xC34 = true →
      s.makeCurrent.tape.chans = s.tape.pendChans ∧ s.makeCurrent.tape.pendChans = [])
    ∧ (s.loader.unitGone.contains 0xC34 = false →
      s.makeCurrent.tape.chans = s.tape.chans ∧ s.makeCurrent.tape.pendChans = s.tape.pendChans) := by
  have ht : s.promoted.tape = s.tape := promoted_only s .tape (by simp)
  have hcur : s.promoted.curGen = s.promoted.loader.gen := (get_promoted_curGen s).trans (Nat.mod_eq_of_lt hg)
  rw [makeCurrent_eq, (reply_chans _ _ _ _ _ _).1, (reply_chans _ _ _ _ _ _).2]
  refine ⟨fun h => ?_, fun h => ?_⟩
  · rw [moveTape_moves (s := s.promoted) h hcur]
    exact ⟨congrArg Tape.pendChans ht, rfl⟩
  · rw [moveTape_waits (s := s.promoted) h]
    exact ⟨congrArg Tape.chans ht, congrArg Tape.pendChans ht⟩

/-! ### Selvedge units end a generation (spec/05_patterns_and_reconfiguration.md R177) -/

/-- What a selvedge unit does on its outputs to end a generation. -/
def State.endsAt (s : State) (unit g : Nat) : State :=
  if unit = 0xC34 then s.hemChans g else if 0xC20 ≤ unit ∧ unit ≤ 0xC27 then s.hemDone (unit - 0xC20) g else s

theorem exec_selvedgeGenEnd {unit : Nat} {s : State} (hs : s.safe = false) (hu : selvedge.contains unit = true)
    (hg : s.loader.unitGone.contains unit = true) (ha : s.loader.ackSent.contains unit = false) :
    exec (.selvedgeGenEnd unit) s = .next (
      let t := s.endsAt unit s.loader.oldGen
      if t.unitEnded unit s.loader.oldGen then t.onLoader fun l => { l with ackSent := unit :: l.ackSent } else t) := by
  have hif : ¬ (s.safe || !selvedge.contains unit || !s.loader.unitGone.contains unit || s.loader.ackSent.contains unit)
      = true := by
    rw [hs, hu, hg, ha]
    decide
  have hrun : exec (.selvedgeGenEnd unit) s = _ := if_neg hif
  have ht : (if unit = 0xC34 then s.hemChans s.loader.oldGen
      else if inRange 0xC20 0xC27 unit then s.hemDone (unit - 0xC20) s.loader.oldGen else s)
        = s.endsAt unit s.loader.oldGen := if_congr Iff.rfl rfl (if_congr (by simp [inRange]) rfl rfl)
  rw [ht] at hrun
  exact hrun.trans (apply_ite go _ _ _).symm

theorem sendUnit_only (s : State) (u : Nat) (k : Token) (src : Option (Nat × Nat)) : Only [.net] s (s.sendUnit u k src) := by
  unfold State.sendUnit
  dsimp only
  split
  · exact State.injectAt_only _ _ _ _ _
  · exact .refl _ s

/-- Does a step channel end a generation: it owes no token and can send its hem marker? -/
def State.chanEnds (s : State) (g : Nat) (c : StepChan) : Bool :=
  c.gen = g && !c.hem && c.owed.isEmpty && !c.owedEnd && decide (0 < c.credits) && decide (0 < c.bucket)
    && !s.chanStopped 0xC34 ((s.tape.chans.findIdx? fun d => d.dest = c.dest && d.dq = c.dq).getD 0)

/-- A step channel after its hem marker. -/
def StepChan.hemmed (c : StepChan) : StepChan := { c with hem := true, credits := c.credits - 1, bucket := c.bucket - 1 }

theorem hemChans_chans (s : State) (g : Nat) :
    (s.hemChans g).tape.chans = s.tape.chans.map fun c => if s.chanEnds g c then c.hemmed else c := by
  have htape : (s.hemChans g).tape = _ :=
    Only.foldl (L := [.net]) (fun s c => sendUnit_only s _ _ _) (s.tape.chans.filter (s.chanEnds g)) _ .tape (by simp)
  rw [htape]
  rfl

/-- With no channel stopped, a step channel of the generation that has not ended yet still owes or cannot send. -/
theorem hemChans_ends {s : State} {g : Nat} (hs : s.fab.stopped = []) {c : StepChan} (hc : c ∈ (s.hemChans g).tape.chans)
    (hg : c.gen = g) : c.hem = true ∨ c.owed ≠ [] ∨ c.owedEnd = true ∨ c.credits = 0 ∨ c.bucket = 0 := by
  rw [hemChans_chans, List.mem_map] at hc
  obtain ⟨d, -, rfl⟩ := hc
  by_cases he : s.chanEnds g d = true
  · rw [if_pos he]
    exact .inl rfl
  · rw [if_neg he] at hg ⊢
    simp only [State.chanEnds, State.chanStopped, hs, hg, List.contains_nil, decide_true, Bool.true_and, Bool.not_false,
      Bool.and_true, Bool.and_eq_true, Bool.not_eq_true', decide_eq_true_eq, List.isEmpty_iff] at he
    by_contra hno
    simp only [not_or, Bool.not_eq_true, not_not] at hno
    obtain ⟨h1, h2, h3, h4, h5⟩ := hno
    exact he ⟨⟨⟨⟨h1, h2⟩, h3⟩, Nat.pos_of_ne_zero h4⟩, Nat.pos_of_ne_zero h5⟩

/-! ### Acknowledgements of retirement and of DISCARD (spec/05_patterns_and_reconfiguration.md R179, R182) -/

theorem exec_retireAck {unit : Nat} {s : State} (hs : s.halts = false) (ha : s.loader.ackSent.contains unit = true)
    (hw : s.loader.awaited.contains unit = true) : exec (.retireAck unit) s
      = .next (s.onLoader fun l => { l with awaited := l.awaited.erase unit }).endRetire := by
  refine if_neg ?_
  rw [hs, ha, hw]
  decide

section
variable {s : State} (hp : s.plState = 6) (hd : s.loader.discarding = false) (hl : s.loader.live = true)
include hp hd hl

theorem mayRetire_iff : s.mayRetire = true ↔
    s.loader.late = false ∧ s.loader.awaited = [] ∧ ∀ e ∈ s.tiles, e.2.pend = none := by
  simp [State.mayRetire, hp, hd, hl, and_assoc]

theorem endRetire_waits (h : s.loader.awaited ≠ [] ∨ s.loader.late = true ∨ ∃ e ∈ s.tiles, e.2.pend ≠ none) :
    s.endRetire = s := by
  refine (endRetire_eq s).trans (if_neg fun hm => ?_)
  obtain ⟨hlate, hno, hpend⟩ := (mayRetire_iff hp hd hl).1 hm
  rcases h with h | h | ⟨e, he, hne⟩
  · exact h hno
  · exact Bool.false_ne_true (hlate.symm.trans h)
  · exact hne (hpend e he)

theorem endRetire_retires (ha : s.loader.awaited = []) (hlate : s.loader.late = false)
    (hpend : ∀ e ∈ s.tiles, e.2.pend = none) : s.endRetire = s.retired :=
  (endRetire_eq s).trans (if_pos ((mayRetire_iff hp hd hl).2 ⟨hlate, ha, hpend⟩))

end

/-- A value given back as free, with the loader idle. -/
theorem freed_state (s : State) {g : Nat} (hg : g < 16) :
    ((s.setGen g 0).setPl 0).genState g = 0 ∧ ((s.setGen g 0).setPl 0).plState = 0 :=
  ⟨(genState_congr (get_set_other _ _ (by decide)) g).trans (genState_setGen_same s hg 0), get_set_same _ _ _⟩

/-- An abandonment that has ended, before the reply to the tape that cancelled it. -/
def State.discardedAll (s : State) : State := ((s.setGen s.loader.gen 0).setPl 0).onLoader Loader.rest

theorem discardedAll_only (s : State) : Only [.bar, .loader] s s.discardedAll :=
  (((setGen_only s _ 0).trans (setPl_only _ 0)).mono (by simp)).trans ((onLoader_only _ _).mono (by simp))

theorem endDiscard_eq (s : State) : s.endDiscard =
    if s.loader.discarding && s.loader.discardTo.isEmpty && s.loader.discarded.isEmpty then
      if s.loader.cancelled then s.discardedAll.reply s.loader.tag s.loader.epoch 4 0 [] else s.discardedAll
    else s := rfl

theorem endDiscard_waits {s : State} (h : s.loader.discardTo ≠ [] ∨ s.loader.discarded ≠ []) : s.endDiscard = s := by
  refine (endDiscard_eq s).trans (if_neg ?_)
  rcases h with h | h <;> simp [h]

/-- The last acknowledgement of DISCARD frees the value; only a cancelled load is answered then. -/
theorem endDiscard_frees {s : State} (hd : s.loader.discarding = true) (h1 : s.loader.discardTo = [])
    (h2 : s.loader.discarded = []) (hg : s.loader.gen < 16) :
    s.endDiscard.genState s.loader.gen = 0 ∧ s.endDiscard.plState = 0 ∧ s.endDiscard.loader.discarding = false
      ∧ (s.loader.cancelled = false → s.endDiscard.tape = s.tape) ∧ Only [.bar, .loader, .tape] s s.endDiscard := by
  obtain ⟨hgen, hpl⟩ := freed_state s hg
  have ho : Only [.bar, .loader, .tape] s s.discardedAll := (discardedAll_only s).mono (by simp)
  have hif : (s.loader.discarding && s.loader.discardTo.isEmpty && s.loader.discarded.isEmpty) = true := by
    simp [hd, h1, h2]
  rw [endDiscard_eq, if_pos hif]
  split
  · rename_i hcan
    have hreply := State.reply_only s.discardedAll s.loader.tag s.loader.epoch 4 0 []
    have hget {f : Fld} := reply_onlyFields s.discardedAll s.loader.tag s.loader.epoch 4 0 [] f
    refine ⟨(genState_congr (hget (by decide)) _).trans hgen, (hget (by decide)).trans hpl,
      congrArg Loader.discarding (hreply .loader (by simp)), fun h => ?_, ho.trans (hreply.mono (by simp))⟩
    exact absurd (h.symm.trans hcan) Bool.false_ne_true
  · exact ⟨hgen, hpl, rfl, fun _ => rfl, ho⟩

theorem exec_discardAck {unit : Nat} {s : State} (hs : s.halts = false) (hd : s.loader.discarding = true)
    (hu : s.loader.discarded.contains unit = true) : exec (.discardAck unit) s
      = .next (s.onLoader fun l => { l with discarded := l.discarded.erase unit }).endDiscard := by
  refine if_neg ?_
  rw [hs, hd, hu]
  decide

/-- DISCARD noted as received by a unit. -/
def State.discardSeen (s : State) (unit : Nat) : State :=
  s.onLoader fun l => { l with discardTo := l.discardTo.erase unit, discarded := unit :: l.discarded }

/-- The tables of an engine without what a load wrote for a generation. -/
def Seam.dropGen (x : Seam) (p g : Nat) : Seam :=
  { x with
    pend := none
    outs := x.outs.filter fun o => !(o.rc.port = p && o.gen = g)
    ins := x.ins.filter fun i => !(i.rc.port = p && i.gen = g)
    done := x.done.filter fun d => !(d.port = p && d.gen = g) }

theorem seam_only (s : State) (x : Seam) : Only [.seam] s { s with seam := x } := by
  intro p hp
  cases p <;> simp_all [Part.Same]

theorem exec_discard {unit : Nat} {s : State} (hs : s.safe = false) (hd : s.loader.discarding = true)
    (hu : s.loader.discardTo.contains unit = true) : exec (.discard unit) s = .next (
      let t := s.discardSeen unit
      if unit < nTiles then t.onTile unit fun x => { x with stage := [], pend := none }
      else if unit = 0xC34 then { t with tape := { t.tape with pendChans := [] } }
      else { t with seam := t.seam.dropGen (unit - 0xC20) s.loader.gen }) := by
  have hif : ¬ (s.safe || !s.loader.discarding || !s.loader.discardTo.contains unit) = true := by
    rw [hs, hd, hu]
    decide
  have hrun : exec (.discard unit) s = _ := if_neg hif
  rw [hrun]
  split
  · rfl
  · split <;> rfl

/-! ### Deadlines (spec/05_patterns_and_reconfiguration.md R162, R179, R182, Table 5.14) -/

section
variable {s : State} (hs : s.halts = false) (hl : s.loader.live = true)
include hs hl

theorem exec_patLoadDeadline_before (hd : s.loader.discarding = false) (hgo : s.loader.goSent = false) (hp : s.plState ≠ 3) :
    exec .patLoadDeadline s = .next
      ((s.raiseAs .contained true Code.PAT_LOAD_DEADLINE 0xC31 noSec 0).abandonLoad 3 Code.PAT_LOAD_DEADLINE noSec 0) := by
  change execPatLoadDeadline s = _
  simp [execPatLoadDeadline, hs, hl, hd, hgo, hp]

theorem exec_patLoadDeadline_after (hd : s.loader.discarding = false) (hgo : s.loader.goSent = true)
    (hp : s.plState = 5 ∨ (s.plState = 6 ∧ ∃ e ∈ s.tiles, e.2.pend ≠ none)) :
    exec .patLoadDeadline s = .next (s.raiseAs .run false Code.PAT_LOAD_DEADLINE 0xC31 noSec 0) := by
  have hrun : (s.plState = 5 || (s.plState = 6 && s.tiles.any fun e => e.2.pend.isSome)) = true := by
    simpa [Option.isSome_iff_ne_none] using hp
  change execPatLoadDeadline s = _
  simp only [execPatLoadDeadline, hs, hl, hd, hgo, hrun]
  rfl

theorem exec_patRetireDeadline (hp : s.plState = 6) :
    exec .patRetireDeadline s = .next (
      if s.loader.discarding then s.raise Code.PAT_RETIRE_DEADLINE 0xC31 noSec 0
      else (s.raise Code.PAT_RETIRE_DEADLINE 0xC31 noSec 0).onLoader fun l => { l with late := true }) := by
  have hif : ¬ (s.halts || decide (s.plState ≠ 6) || !s.loader.live) = true := by
    rw [hs, hp, hl]
    decide
  have hrun : exec .patRetireDeadline s = _ := if_neg hif
  exact hrun.trans (apply_ite go _ _ _).symm

end

/-! ### The obligation -/

/-- Settles O15: each command of the end of a generation is one equation; a switch is read at its own tile, everything after
it touching registers, loader, unpick controller and tape only; retirement and the end of a discard free one value. -/
theorem generationsEndAndRetire : Obligations.GenerationsEndAndRetire := by
  refine ⟨fun t c s => ?hem, fun t p s hp hs hc => ?switch, fun t p s hp hgo hspad => ?spad, fun t p s hp hgo => ?noGo,
    fun s hg ho hne => ?current, fun unit s hs hu hg ha => ?unitEnd, fun s g hs c hc hg => hemChans_ends hs hc hg,
    fun unit s hs ha hw => exec_retireAck hs ha hw, fun s hp hd hl => ⟨endRetire_waits hp hd hl, fun ha hlate hpend ho => ?retired⟩,
    fun unit s hs hd hu => ?discard, fun unit s hs hd hu => exec_discardAck hs hd hu,
    fun s hd => ⟨endDiscard_waits, fun h1 h2 hg => endDiscard_frees hd h1 h2 hg⟩,
    fun s hs hl hd => ⟨exec_patLoadDeadline_before hs hl hd, exec_patLoadDeadline_after hs hl hd⟩,
    fun s hs hp hl => exec_patRetireDeadline hs hl hp⟩
  case hem =>
    intro x hs ht hen hout hhem hend hgo hcan
    obtain ⟨m, hnet, hm⟩ := sendAs_hem_net s t c
    refine ⟨_, m, exec_hemSend hs ht hen hout hhem hend hgo hcan, hnet, hm, ?_, ?_, fun j hj => ?_⟩
    · rw [State.tile_onTile_same, Tile.och_setOch_same]
    · rw [State.tile_onTile_same, tile_sendAs]
      rfl
    · exact (State.tile_setTile_other _ _ _ _ hj).trans (tile_sendAs_other s hj ..)
  case switch =>
    intro s1 x st
    rw [exec_tileSwitch hp hs hc]
    refine ⟨fun f hf => congrArg go (switchTile_fails hf), fun hpass => ?_⟩
    obtain ⟨ho, hack⟩ := switchTile_after hpass
    have htile (j : Nat) : (s.switchTile t p).tile j = (s1.setTile t (x.switched p s.flushedFull)).tile j :=
      tile_of_only ho (by simp) j
    have hown : (s.switchTile t p).tile t = x.switched p s.flushedFull := (htile t).trans (State.tile_setTile_same _ _ _)
    obtain ⟨hgen, hstate⟩ := switched_gets x p s.flushedFull
    have hfull : s.flushedFull = true ↔ s1.unpick.flushed = true ∧ s1.drain = 3 := by
      rw [← flushedFull_takeHems s t]
      simp [State.flushedFull, s1]
    obtain ⟨hpend, hcount, hbase, hloops, himem, hacc⟩ := switched_frame x p s.flushedFull
    refine ⟨_, rfl, ?_⟩
    rw [hown]
    exact ⟨hgen, hstate.trans (if_congr (or_congr_right hfull) rfl rfl), hpend, hcount, hbase, hloops, himem, hacc, hack,
      (ho .net (by simp)).trans (State.setTile_net _ _ _), (ho .mem (by simp)).trans (State.setTile_mem _ _ _),
      fun j hj => (htile j).trans (s1.tile_setTile_other t j _ hj)⟩
  case spad => simp [State.canSwitch, hp, hgo, hspad]
  case noGo => simp [State.canSwitch, hp, hgo]
  case current =>
    intro u
    obtain ⟨hnew, hold⟩ := makeCurrent_genState hg ho hne
    obtain ⟨hmove, hwait⟩ := makeCurrent_chans hg
    exact ⟨hnew, hold, (makeCurrent_curGen s).trans (Nat.mod_eq_of_lt hg), makeCurrent_plState s, hmove, hwait,
      congrArg Loader.curRegions (makeCurrent_loader s), makeCurrent_only s⟩
  case unitEnd =>
    intro g t
    rw [exec_selvedgeGenEnd hs hu hg ha]
    refine ⟨fun h => congrArg go (if_neg ?_), fun h => congrArg go (if_pos h)⟩
    exact fun h' => Bool.false_ne_true (h.symm.trans h')
  case retired =>
    rw [endRetire_retires hp hd hl ha hlate hpend]
    obtain ⟨hgen, hpl⟩ := freed_state s ho
    exact ⟨hgen, hpl, rfl, retired_only s⟩
  case discard =>
    intro l t
    rw [exec_discard hs hd hu]
    refine ⟨fun h => congrArg go (if_pos h), fun h => congrArg go ?_, fun h1 h2 => ?_⟩
    · exact (if_neg (by unfold nTiles; omega)).trans (if_pos h)
    · refine ⟨_, congrArg go ((if_neg (by unfold nTiles; omega)).trans (if_neg (by omega))), seam_only _ _, rfl,
        fun o => ?_, fun i => ?_, fun d => ?_⟩
      all_goals
        refine List.mem_filter.trans (and_congr_right fun _ => ?_)
        simp [l, imp_iff_not_or]

end Sys2Proof.Machine
end

section
/-! PROOFS. Progress monitors, stall reports, rounds of probes and the decision of a run
(spec/06_progress_deadlock_drain.md R194 to R199, Tables 6.1 and 6.2). -/

namespace Sys2Proof.Machine

/-! ### The unpick controller and its state field -/

theorem onUnpick_only (s : State) (f : Unpick → Unpick) : Only [.unpick] s (s.onUnpick f) := unpick_only s _

@[simp] theorem unpick_onUnpick (s : State) (f : Unpick → Unpick) : (s.onUnpick f).unpick = f s.unpick := rfl

@[simp] theorem get_onUnpick (s : State) (f : Unpick → Unpick) (g : Fld) : (s.onUnpick f).get g = s.get g := rfl

@[simp] theorem unpState_onUnpick (s : State) (f : Unpick → Unpick) : (s.onUnpick f).unpState = s.unpState := rfl

@[simp] theorem tile_onUnpick (s : State) (f : Unpick → Unpick) (t : Nat) : (s.onUnpick f).tile t = s.tile t := rfl

theorem unpState_set (s : State) {v : Nat} (h : v < 8) : (s.set R.UNP_STATUS_STATE v).unpState = v :=
  (get_set_same s _ v).trans (Nat.mod_eq_of_lt h)

theorem unpState_bump (s : State) {f : Fld} (n : Nat) (h : R.UNP_STATUS_STATE.key ≠ f.key) :
    (s.bump f n).unpState = s.unpState := get_bump_other s n h

theorem startRound_only (s : State) (st : Nat) : Only [.bar, .unpick] s (s.startRound st) :=
  ((s.set_only _ _).mono (by simp)).trans ((onUnpick_only _ _).mono (by simp))

theorem unpState_startRound (s : State) {st : Nat} (h : st < 8) : (s.startRound st).unpState = st := by
  rw [State.startRound, unpState_onUnpick, unpState_set s h]

theorem startRound_unpick (s : State) (st : Nat) : (s.startRound st).unpick.probed = List.range nTiles
    ∧ (s.startRound st).unpick.owed = [] ∧ (s.startRound st).unpick.answers = [] := by
  simp only [State.startRound, unpick_onUnpick, and_self]

/-! ### Trips (spec/06_progress_deadlock_drain.md R194, R196) -/

section
variable {s : State} {t : Nat} {a : TAgent} {w : WaitOn}

/-- The trip of a wait noted at its tile. -/
def State.noteTrip (s : State) (t : Nat) (a : TAgent) (w : WaitOn) : State :=
  s.onTile t fun x => { x with tripped := x.tripped ++ [(a, w)] }

/-- A panel's report sent, after which the panel may send no further one in this run. -/
def Unpick.report (u : Unpick) (p : Nat) : Unpick :=
  { u with
    sent := if u.sent.contains p then u.sent else u.sent ++ [p]
    spent := if u.spent.contains p then u.spent else u.spent ++ [p] }

theorem mem_addOnce (l : List Nat) (p : Nat) : p ∈ if l.contains p then l else l ++ [p] := by
  split
  · exact List.contains_iff_mem.1 ‹_›
  · simp

theorem Unpick.report_mem (u : Unpick) (p : Nat) : p ∈ (u.report p).sent ∧ p ∈ (u.report p).spent :=
  ⟨mem_addOnce .., mem_addOnce ..⟩

/-- A wait that counts and is not tripped yet trips; the first of its panel reports. -/
theorem exec_monitorTrip (hon : s.flag R.UNP_CFG_MON_EN = true) (hw : s.waitsOn t a w = true)
    (hnew : (s.tile t).tripped.contains (a, w) = false) : exec (.monitorTrip t a w) s = .next (
      if !s.panelTrips (panelOf t) || !s.unpick.spent.contains (panelOf t) then
        (s.noteTrip t a w).onUnpick fun u => u.report (panelOf t)
      else s.noteTrip t a w) := by
  change execMonitorTrip t a w s = _
  simp only [execMonitorTrip, hon, hw, hnew, Bool.not_true, Bool.or_self, Bool.false_eq_true, if_false]
  exact (apply_ite go _ _ _).symm

theorem exec_monitorTrip_none
    (h : s.flag R.UNP_CFG_MON_EN = false ∨ s.waitsOn t a w = false ∨ (s.tile t).tripped.contains (a, w) = true) :
    exec (.monitorTrip t a w) s = .next s := by
  change execMonitorTrip t a w s = _
  refine if_pos ?_
  simpa [or_assoc] using h

end

section
variable {s : State} (t : Nat) (a : TAgent)

/-- A drain stops the inputs: no wait for something to come counts. -/
theorem waitsOn_input_in_drain (h : s.drain ≠ 0) (q r : Nat) :
    s.waitsOn t a (.queue q) = false ∧ s.waitsOn t a (.ring r false) = false := by
  simp [State.waitsOn, State.waitCounts, State.ringWaits, State.stallCounts, h]

/-- A FLUSH discards what is in flight: no wait counts at all. -/
theorem waitsOn_output_in_flush (h : s.drain = 2) (q r : Nat) :
    s.waitsOn t a (.och q) = false ∧ s.waitsOn t a (.ring r true) = false ∧ s.waitsOn t a .req = false := by
  simp [State.waitsOn, State.waitCounts, State.ringWaits, State.stallCounts, State.reqWaits, h]

end

/-! ### Reports and answers (spec/06_progress_deadlock_drain.md R197, R198, Table 6.1) -/

/-- A report that has come to the controller. -/
def State.reported (s : State) (p : Nat) : State :=
  (s.bump R.TRIPS 1).onUnpick fun u => { u with sent := u.sent.erase p }

theorem unpState_reported (s : State) (p : Nat) : (s.reported p).unpState = s.unpState := unpState_bump s 1 (by decide)

theorem reported_only (s : State) (p : Nat) : Only [.bar, .unpick] s (s.reported p) :=
  ((s.bump_only _ _).mono (by simp)).trans ((onUnpick_only _ _).mono (by simp))

theorem exec_stallReport {s : State} {p : Nat} (hs : s.halts = false) (hp : s.unpick.sent.contains p = true) :
    exec (.stallReport p) s = .next (
      if s.unpState = 0 then (s.reported p).startRound 1
      else if s.unpState = 1 then s.reported p
      else (s.reported p).onUnpick fun u => { u with again := true }) := by
  change execStallReport p s = _
  simp only [execStallReport, hs, hp, Bool.not_true, Bool.or_self, Bool.false_eq_true, if_false]
  change (if (s.reported p).unpState = 0 then _ else if (s.reported p).unpState = 1 then _ else _) = _
  rw [unpState_reported, apply_ite Host.Outcome.next, apply_ite Host.Outcome.next]
  rfl

theorem clearMoved_moved (x : Tile) : ∀ e ∈ x.clearMoved.queues, e.2.moved = false := by
  simp only [Tile.clearMoved, List.mem_map]
  rintro _ ⟨e, -, rfl⟩
  rfl

/-- A tile whose probe has come answers it and forgets its deliveries. -/
def State.answered (s : State) (t : Nat) : State :=
  (s.onTile t Tile.clearMoved).onUnpick fun u => { u with
    probed := u.probed.erase t, owed := u.owed ++ [⟨t, s.probeAnswer t⟩] }

theorem exec_probe {s : State} {t : Nat} (hs : s.safe = false) (ht : s.unpick.probed.contains t = true) :
    exec (.probe t) s = .next (s.answered t) := by
  change execProbe t s = _
  simp only [execProbe, hs, ht, Bool.not_true, Bool.or_self, Bool.false_eq_true, if_false]
  rfl

/-- A number put together of single bits has those bits and no other. -/
theorem testBit_sum_bits (p : Nat → Bool) (n : Nat) :
    ((List.range n).map fun q => b2n (p q) * 2 ^ q).sum < 2 ^ n
      ∧ ∀ j, j < n → ((List.range n).map fun q => b2n (p q) * 2 ^ q).sum.testBit j = p j := by
  induction n with
  | zero => simp
  | succ n ih =>
    obtain ⟨hlt, hbit⟩ := ih
    rw [List.range_succ, List.map_append, List.sum_append, List.map_singleton, List.sum_singleton]
    set m := ((List.range n).map fun q => b2n (p q) * 2 ^ q).sum
    have hb : b2n (p n) ≤ 1 := by unfold b2n; split <;> omega
    refine ⟨?_, fun j hj => ?_⟩
    · have : b2n (p n) * 2 ^ n ≤ 1 * 2 ^ n := Nat.mul_le_mul_right _ hb
      rw [pow_succ]
      omega
    · rw [Nat.add_comm, Nat.mul_comm, Nat.testBit_two_pow_mul_add _ hlt]
      split
      · exact hbit j ‹_›
      · obtain rfl : j = n := by omega
        cases p j <;> simp [b2n]

/-- Is a queue of a tile stuck: enabled with `SPILL`, in no spill mode, holding tokens, none delivered since the last
probe (spec/06_progress_deadlock_drain.md Table 6.1)? -/
def Tile.queueStuck (x : Tile) (q : Nat) : Bool :=
  qEn x.regs q && x.get (T.QCFG_SPILL q) = 1 && !(x.queue q).spill && !(x.queue q).toks.isEmpty && !(x.queue q).moved

/-- The bits of a tile's answer (spec/06_progress_deadlock_drain.md Table 6.1). -/
def State.answerBit (s : State) (t j : Nat) : Bool :=
  if j = 32 then !(s.trips t).isEmpty
  else if j = 33 then (s.trips t).any fun v => creditWait v.2
  else if j = 34 then (s.tile t).quiet
  else (s.tile t).queueStuck j

theorem probeAnswer_toNat (s : State) (t : Nat) :
    (s.probeAnswer t).toNat = ((List.range 35).map fun q => b2n (s.answerBit t q) * 2 ^ q).sum := by
  have hlow : (s.tile t).stuckq = ((List.range 32).map fun q => b2n (s.answerBit t q) * 2 ^ q).sum := by
    refine congrArg List.sum (List.map_congr_left fun q hq => ?_)
    have hq := List.mem_range.1 hq
    rw [State.answerBit, if_neg (by omega), if_neg (by omega), if_neg (by omega)]
    rfl
  have hsum : ((List.range 35).map fun q => b2n (s.answerBit t q) * 2 ^ q).sum
      = (s.tile t).stuckq + b2n (s.answerBit t 32) * 2 ^ 32 + b2n (s.answerBit t 33) * 2 ^ 33
        + b2n (s.answerBit t 34) * 2 ^ 34 := by
    rw [hlow, List.range_succ, List.range_succ, List.range_succ]
    simp only [List.map_append, List.sum_append, List.map_singleton, List.sum_singleton]
  have hlt := (testBit_sum_bits (s.answerBit t) 35).1
  rw [hsum] at hlt ⊢
  exact (BitVec.toNat_ofNat _ _).trans (Nat.mod_eq_of_lt (Nat.lt_trans hlt (by norm_num)))

theorem bit_probeAnswer (s : State) (t : Nat) {j : Nat} (h : j < 35) : bit (s.probeAnswer t).toNat j = s.answerBit t j := by
  rw [bit_eq_testBit, probeAnswer_toNat]
  exact (testBit_sum_bits _ 35).2 j h

theorem probeAnswer_lt (s : State) (t : Nat) : (s.probeAnswer t).toNat < 2 ^ 35 := by
  rw [probeAnswer_toNat]
  exact (testBit_sum_bits _ 35).1

/-- An answer collected by the controller. -/
def State.collected (s : State) (t : Nat) (payload : W64) : State :=
  s.onUnpick fun u => { u with owed := u.owed.erase ⟨t, payload⟩, answers := u.answers ++ [⟨t, payload⟩] }

/-- The last answer of round 1 opens the window, that of round 2 decides. -/
theorem exec_probeReply {s : State} {t : Nat} {payload : W64} (hs : s.halts = false)
    (ho : s.unpick.owed.contains ⟨t, payload⟩ = true) :
    let u := s.collected t payload
    exec (.probeReply t payload) s = .next (
      if u.unpick.probed = [] ∧ u.unpick.owed = [] then
        if s.unpState = 1 then u.set R.UNP_STATUS_STATE 2 else if s.unpState = 3 then u.unpDecide else u
      else u) := by
  intro u
  have hlast : (!u.unpick.probed.isEmpty || !u.unpick.owed.isEmpty) = true ↔ ¬(u.unpick.probed = [] ∧ u.unpick.owed = []) := by
    simp [or_iff_not_imp_left]
  change execProbeReply t payload s = _
  simp only [execProbeReply, hs, ho, Bool.not_true, Bool.or_self, Bool.false_eq_true, if_false]
  rw [apply_ite Host.Outcome.next, apply_ite Host.Outcome.next, apply_ite Host.Outcome.next]
  exact (if_congr hlast rfl rfl).trans (ite_not _ _ _)

/-! ### The end of a run and its decision (spec/06_progress_deadlock_drain.md R198, R199) -/

theorem mem_stuckOf (l : List ProbeAns) (t q : Nat) :
    (t, q) ∈ stuckOf l ↔ q < 32 ∧ ∃ a ∈ l, a.tile = t ∧ bit a.payload.toNat q = true := by
  simp only [stuckOf, List.mem_flatMap, List.mem_filterMap, List.mem_range, Option.ite_none_right_eq_some, Option.some.injEq,
    Prod.mk.injEq]
  constructor
  · rintro ⟨a, ha, j, hj, hbit, rfl, rfl⟩
    exact ⟨hj, a, ha, rfl, hbit⟩
  · rintro ⟨hq, a, ha, rfl, hbit⟩
    exact ⟨a, ha, q, hq, hbit, rfl, rfl⟩

/-- The run ended, the monitors re-armed: the panels that still hold a tripped wait report again. -/
def State.runOver (s : State) : State :=
  (s.set R.UNP_STATUS_STATE 0).onUnpick fun u =>
    let still := (List.range 36).filter s.panelTrips
    { u with
      again := false, sent := u.sent ++ still.filter (fun p => !u.sent.contains p), spent := still
      probed := [], owed := [], answers := [] }

theorem endRun_eq (s : State) : s.endRun = if s.unpick.again then s.runOver.startRound 1 else s.runOver := rfl

theorem endRun_of_again {s : State} (h : s.unpick.again = true) : s.endRun = s.runOver.startRound 1 := by
  rw [endRun_eq, if_pos h]

theorem endRun_of_not_again {s : State} (h : s.unpick.again = false) : s.endRun = s.runOver := by
  rw [endRun_eq, h]
  rfl

/-- A round that follows at once leaves the flag and the reports as the end of the run left them. -/
theorem endRun_unpick (s : State) : s.endRun.unpick.again = false ∧ s.endRun.unpick.sent = s.runOver.unpick.sent
    ∧ s.endRun.unpick.spillCmds = s.unpick.spillCmds := by
  rw [endRun_eq]
  split <;> exact ⟨rfl, rfl, rfl⟩

theorem mem_runOver_sent (s : State) (p : Nat) :
    p ∈ s.runOver.unpick.sent ↔ p ∈ s.unpick.sent ∨ (p < 36 ∧ s.panelTrips p = true) := by
  by_cases h : p ∈ s.unpick.sent <;> simp [State.runOver, h]

theorem endRun_only (s : State) : Only [.bar, .unpick] s s.endRun := by
  have hover : Only [.bar, .unpick] s s.runOver :=
    ((s.set_only _ _).mono (by simp)).trans ((onUnpick_only _ _).mono (by simp))
  rw [endRun_eq]
  split
  · exact hover.trans (startRound_only _ 1)
  · exact hover

theorem unpState_endRun (s : State) : s.endRun.unpState = if s.unpick.again then 1 else 0 := by
  rw [endRun_eq, apply_ite State.unpState, unpState_startRound _ (by decide)]
  exact if_congr Iff.rfl rfl (unpState_set s (by decide))

section
variable {s : State}

theorem any_trips {l : List ProbeAns} (h : ∃ a ∈ l, bit a.payload.toNat 32 = true) :
    l.any (fun a => bit a.payload.toNat 32) = true := by
  simpa using h

theorem any_stuck {l : List ProbeAns} {b : Bool} (h : ¬((∃ a ∈ l, bits a.payload.toNat 0 32 ≠ 0) ∧ b = true)) :
    (l.any (fun a => decide (bits a.payload.toNat 0 32 ≠ 0)) && b) = false := by
  rw [← Bool.not_eq_true]
  simpa using h

/-- Without a tripped wait the stall was transient. -/
theorem unpDecide_transient (h : ¬∃ a ∈ s.unpick.answers, bit a.payload.toNat 32 = true) :
    s.unpDecide = (s.bump R.TRANSIENT 1).endRun := by
  have hany : s.unpick.answers.any (fun a => bit a.payload.toNat 32) = false := by simpa using h
  simp [State.unpDecide, hany]

variable (hstall : ∃ a ∈ s.unpick.answers, bit a.payload.toNat 32 = true)
include hstall

/-- With a stuck queue and `UNPICK_EN` it is a deadlock, and spill commands go to the stuck queues. -/
theorem unpDecide_deadlock (hstuck : ∃ a ∈ s.unpick.answers, bits a.payload.toNat 0 32 ≠ 0)
    (hen : s.flag R.UNP_CFG_UNPICK_EN = true) :
    s.unpDecide = ((s.bump R.DEADLOCKS 1).set R.UNP_STATUS_STATE 4).onUnpick fun u => { u with
      spillCmds := stuckOf s.unpick.answers } := by
  have hq : s.unpick.answers.any (fun a => decide (bits a.payload.toNat 0 32 ≠ 0)) = true := by simpa using hstuck
  simp only [State.unpDecide, any_trips hstall, hq, hen, Bool.not_true, Bool.false_eq_true, if_false, Bool.and_self, if_true]

variable (hstuck : ¬((∃ a ∈ s.unpick.answers, bits a.payload.toNat 0 32 ≠ 0) ∧ s.flag R.UNP_CFG_UNPICK_EN = true))
include hstuck

/-- Else a wait on a credit is stuck, and the lowest such tile is told. -/
theorem unpDecide_creditWait {t : Nat} (ht : t < nTiles) (hfull : ∃ a ∈ s.unpick.answers, a.tile = t ∧ bit a.payload.toNat 33 = true)
    (hlow : ∀ j, j < t → ¬∃ a ∈ s.unpick.answers, a.tile = j ∧ bit a.payload.toNat 33 = true) :
    s.unpDecide = s.endRun.raise Code.UNP_STUCK 0xC32 0 t := by
  have hfind : ((List.range nTiles).find? fun t => s.unpick.answers.any fun a => a.tile = t && bit a.payload.toNat 33)
      = some t := by
    rw [List.find?_range_eq_some]
    exact ⟨by simpa using hfull, List.mem_range.2 ht, fun j hj => by simpa using hlow j hj⟩
  rw [State.unpDecide]
  simp only [any_trips hstall, any_stuck hstuck, hfind, Bool.not_true, Bool.false_eq_true, if_false]

/-- Else the fabric is starved. -/
theorem unpDecide_starved
    (hnone : ∀ t, t < nTiles → ¬∃ a ∈ s.unpick.answers, a.tile = t ∧ bit a.payload.toNat 33 = true) :
    s.unpDecide = (s.bump R.STARVED 1).endRun := by
  have hfind : ((List.range nTiles).find? fun t => s.unpick.answers.any fun a => a.tile = t && bit a.payload.toNat 33)
      = none := by
    rw [List.find?_eq_none]
    exact fun t ht => by simpa using hnone t (List.mem_range.1 ht)
  rw [State.unpDecide]
  simp only [any_trips hstall, any_stuck hstuck, hfind, Bool.not_true, Bool.false_eq_true, if_false]

end

theorem exec_confirmWindowEnd {s : State} (hs : s.halts = false) (hst : s.unpState = 2) :
    exec .confirmWindowEnd s = .next (s.startRound 3) := by
  change execConfirmWindowEnd s = _
  simp [execConfirmWindowEnd, hs, hst]

theorem exec_unpProbeDeadline {s : State} {t : Nat} {l : List Nat} (hs : s.halts = false)
    (hst : s.unpState = 1 ∨ s.unpState = 3) (hl : s.unpick.probed ++ s.unpick.owed.map ProbeAns.tile = t :: l) :
    exec .unpProbeDeadline s = .next (s.raise Code.UNP_PROBE_DEADLINE 0xC32 0 t) := by
  change execUnpProbeDeadline s = _
  have hrun : (s.halts || !(s.unpState = 1 || s.unpState = 3)) = false := by simpa [hs, or_iff_not_imp_left] using hst
  simp only [execUnpProbeDeadline, hrun, hl, List.head?_cons, Bool.false_eq_true, if_false]

/-! ### The obligation -/

/-- Settles O16: each command of a run is one equation; the bits of an answer are read off the number that they form, and the
decision is one case for each outcome. -/
theorem monitorsTripAndProbesDecide : Obligations.MonitorsTripAndProbesDecide := by
  refine ⟨fun t a w s hon hw hnew => ?trip, fun t a w s h => exec_monitorTrip_none h, fun t q r a s h => ?drain,
    fun p s hs hp => ?report, fun t s hs ht => ?probe, fun t s => ?answer,
    fun q r => ⟨rfl, rfl, rfl, rfl, rfl⟩, fun t payload s hs ho => ?reply, fun s => ?decision, mem_stuckOf, fun s => ?endRun,
    fun s hs hst => ?window, fun t l s hs hst hl => exec_unpProbeDeadline hs hst hl⟩
  case trip =>
    intro p u
    rw [exec_monitorTrip hon hw hnew]
    refine ⟨fun h1 h2 => congrArg go (if_neg (by rw [h1, h2]; decide)), fun h => ?_⟩
    obtain ⟨hsent, hspent⟩ := u.unpick.report_mem p
    exact ⟨_, congrArg go (if_pos (by simpa using h)), onUnpick_only u _, hsent, hspent⟩
  case drain =>
    obtain ⟨hqueue, hring⟩ := waitsOn_input_in_drain t a h q r
    exact ⟨hqueue, hring, fun h => waitsOn_output_in_flush t a h q r⟩
  case report =>
    intro w
    rw [exec_stallReport hs hp]
    obtain ⟨hprobed, -, hanswers⟩ := startRound_unpick (s.reported p) 1
    refine ⟨fun h => ⟨_, congrArg go (if_pos h), unpState_startRound _ (by decide), hprobed, hanswers,
      (reported_only s p).trans (startRound_only _ 1)⟩, fun h => congrArg go ?_, fun h => congrArg go ?_⟩
    · rw [if_neg (by omega), if_pos h]
      rfl
    · rw [if_neg (by omega), if_neg (by omega)]
      rfl
  case probe =>
    refine ⟨_, exec_probe hs ht, ((State.onTile_only s t _).mono (by simp)).trans ((onUnpick_only _ _).mono (by simp)),
      fun j hj => State.tile_setTile_other _ _ _ _ hj, rfl, rfl, ?_⟩
    rw [State.answered, tile_onUnpick, State.tile_onTile_same]
    exact clearMoved_moved _
  case answer =>
    intro v x
    refine ⟨fun q hq => ?_, ?_, ?_, ?_, probeAnswer_lt s t⟩
    · have hbit : s.answerBit t q = x.queueStuck q := by
        rw [State.answerBit, if_neg (by omega), if_neg (by omega), if_neg (by omega)]
      rw [bit_probeAnswer s t (by omega), hbit]
      simp [Tile.queueStuck, and_assoc]
    · rw [bit_probeAnswer s t (by decide)]
      simp [State.answerBit]
    · rw [bit_probeAnswer s t (by decide)]
      simp [State.answerBit]
    · rw [bit_probeAnswer s t (by decide)]
      simp [State.answerBit, x]
  case reply =>
    intro u last
    rw [exec_probeReply hs ho]
    exact ⟨fun h => congrArg go (if_neg h), fun h h1 => congrArg go ((if_pos h).trans (if_pos h1)),
      fun h h3 => congrArg go ((if_pos h).trans ((if_neg (by omega)).trans (if_pos h3)))⟩
  case decision =>
    intro l stalled stuck full
    refine ⟨unpDecide_transient, fun h hq => ?_, fun t ht h hq hfull hlow => unpDecide_creditWait h hq ht hfull hlow,
      fun h hq hnone => unpDecide_starved h hq hnone⟩
    rw [unpDecide_deadlock h hq.1 hq.2]
    exact ⟨unpState_set _ (by decide), rfl, (((State.bump_only s _ _).trans (State.set_only _ _ _)).mono (by simp)).trans
      ((onUnpick_only _ _).mono (by simp))⟩
  case endRun =>
    obtain ⟨hagain, hsent, -⟩ := endRun_unpick s
    rw [unpState_endRun, hsent]
    exact ⟨fun h => by rw [h]; rfl, fun h => by rw [h]; rfl, hagain, mem_runOver_sent s⟩
  case window =>
    obtain ⟨hprobed, howed, hanswers⟩ := startRound_unpick s 3
    exact ⟨_, exec_confirmWindowEnd hs hst, unpState_startRound s (by decide), hprobed, howed, hanswers, startRound_only s 3⟩

end Sys2Proof.Machine
end

section
/-! PROOFS. Spill mode: entering it, arrivals, records, refill, leaving it (spec/06_progress_deadlock_drain.md R200 to
R206). -/

namespace Sys2Proof.Machine

theorem Tile.queue_setQueue_other (x : Tile) {p q : Nat} (v : Queue) (h : p ≠ q) : (x.setQueue q v).queue p = x.queue p :=
  kvGet_kvSet_other _ _ _ h

/-! ### Entering spill mode (spec/06_progress_deadlock_drain.md R201, R203) -/

theorem foldl_laneCredits {α : Type} (t q : Nat) (g : α → Nat) (l : List α) (s : State) :
    ∃ m : List Credit, l.foldl (fun s k => s.laneCredits t q (g k) 1) s = { s with lane := m } := by
  induction l generalizing s with
  | nil => exact ⟨s.lane, rfl⟩
  | cons k l ih =>
    obtain ⟨m, -, hm⟩ := laneCredits_eq s t q (g k) 1
    rw [List.foldl_cons, hm]
    exact ih _

/-- A queue as it enters spill mode: its tokens as they were, every free slot reserved. -/
def Tile.spillQueue (x : Tile) (q : Nat) : Queue := { x.queue q with spill := true, rsv := x.freeSlots q }

/-- A queue told to spill, without the credits that return. -/
def State.spillStarted (s : State) (t q : Nat) : State :=
  (s.onTile t fun x => x.setQueue q (x.spillQueue q)).bump R.QUEUES_SPILLED 1

/-- The state after a queue has taken its spill command. -/
def State.commanded (s : State) (t q : Nat) : State :=
  (s.enterSpill t q).onUnpick fun u => { u with spillCmds := u.spillCmds.erase (t, q) }

section
variable {s : State} {t q : Nat}

theorem commanded_eq (h : ((s.tile t).queue q).spill = false) : ∃ m : List Credit, s.commanded t q
    = { s.spillStarted t q with lane := m, unpick := { s.unpick with spillCmds := s.unpick.spillCmds.erase (t, q) } } := by
  obtain ⟨m, hm⟩ := foldl_laneCredits t q (fun k : Token => hGen k.hdr) ((s.tile t).queue q).toks (s.spillStarted t q)
  have henter : s.enterSpill t q = { s.spillStarted t q with lane := m } := by
    rw [State.enterSpill, h, if_neg Bool.false_ne_true]
    exact hm
  exact ⟨m, by rw [State.commanded, henter]; rfl⟩

theorem commanded_only (h : ((s.tile t).queue q).spill = false) :
    Only [.bar, .tiles, .lane, .unpick] s (s.commanded t q) := by
  obtain ⟨m, hm⟩ := commanded_eq h
  rw [hm]
  exact (((s.onTile_only t _).mono (by simp)).trans ((State.bump_only _ _ _).mono (by simp))).trans
    (((lane_only _ m).mono (by simp)).trans ((unpick_only _ _).mono (by simp)))

theorem commanded_tile (h : ((s.tile t).queue q).spill = false) :
    (s.commanded t q).tile t = (s.tile t).setQueue q ((s.tile t).spillQueue q)
      ∧ ∀ j, j ≠ t → (s.commanded t q).tile j = s.tile j := by
  obtain ⟨m, hm⟩ := commanded_eq h
  rw [hm]
  exact ⟨State.tile_onTile_same s t fun x => x.setQueue q (x.spillQueue q), fun j hj => State.tile_setTile_other _ _ _ _ hj⟩

theorem commanded_unpick (h : ((s.tile t).queue q).spill = false) :
    (s.commanded t q).unpick = { s.unpick with spillCmds := s.unpick.spillCmds.erase (t, q) } := by
  obtain ⟨m, hm⟩ := commanded_eq h
  rw [hm]

theorem commanded_unpState (h : ((s.tile t).queue q).spill = false) : (s.commanded t q).unpState = s.unpState := by
  obtain ⟨m, hm⟩ := commanded_eq h
  rw [hm]
  exact unpState_bump _ 1 (by decide)

/-- The last of the queues commanded ends the run. -/
theorem exec_spillCommand (hs : s.safe = false) (hc : s.unpick.spillCmds.contains (t, q) = true)
    (h : ((s.tile t).queue q).spill = false) : exec (.spillCommand t q) s = .next (
      if s.unpick.spillCmds.erase (t, q) = [] ∧ s.unpState = 4 then (s.commanded t q).endRun else s.commanded t q) := by
  have hlast : ((s.commanded t q).unpick.spillCmds.isEmpty && (s.commanded t q).unpState = 4) = true
      ↔ s.unpick.spillCmds.erase (t, q) = [] ∧ s.unpState = 4 := by
    rw [commanded_unpick h, commanded_unpState h]
    simp
  change execSpillCommand t q s = _
  simp only [execSpillCommand, hs, hc, Bool.not_true, Bool.or_self, Bool.false_eq_true, if_false]
  rw [apply_ite Host.Outcome.next]
  exact if_congr hlast rfl rfl

end

/-- With no slot reserved before, every slot of a queue in spill mode is now taken or reserved. -/
theorem Tile.freeSlots_spillQueue {x : Tile} {q : Nat} (h : (x.queue q).rsv = 0) :
    (x.setQueue q (x.spillQueue q)).freeSlots q = 0 := by
  have hkept : (x.setQueue q (x.spillQueue q)).keptSlots q = x.keptSlots q := rfl
  rw [Tile.freeSlots, Tile.queue_setQueue_same, hkept]
  simp only [Tile.spillQueue, Tile.freeSlots, h]
  omega

/-! ### Arrivals (spec/06_progress_deadlock_drain.md R202) -/

section
variable {s : State} {t : Nat} {n : NetTok} (hs : s.safe = false)
  (hsp : ((s.tile t).queue (hDq n.tok.hdr)).spill = true)
include hs hsp

theorem exec_spillArrival_stuck (h : (s.tile t).stuck n.tok = true) :
    exec (.spillArrival t n.tok.hdr n.tok.pay) s = .next s := by
  change execSpillArrival t n.tok.hdr n.tok.pay s = _
  refine if_pos ?_
  rw [hs, hsp]
  exact h

variable (hst : (s.tile t).stuck n.tok = false)
  (hn : s.named (fun m => m.arrived && hDest m.tok.hdr = t) n.tok.hdr = .tok n)
include hst hn

/-- A token that comes off the mesh passes the checks of its header, then those of its queue. -/
theorem exec_spillArrival : exec (.spillArrival t n.tok.hdr n.tok.pay) s = .next (
    if hdrOk n.tok.hdr = false then (s.depart n).tileStop t Code.FAB_HDR_CRC (hDq n.tok.hdr)
    else if fieldBad n.tok.hdr = true then (s.depart n).tokFault n.tok Code.FAB_HDR_FIELD t (hDq n.tok.hdr) false
    else (s.depart n).toQueue t n.tok) := by
  have hgo : ¬(s.safe || !((s.tile t).queue (hDq n.tok.hdr)).spill || (s.tile t).stuck ⟨n.tok.hdr, n.tok.pay⟩) = true := by
    rw [hs, hsp, show (s.tile t).stuck ⟨n.tok.hdr, n.tok.pay⟩ = false from hst]
    decide
  change execSpillArrival t n.tok.hdr n.tok.pay s = _
  rw [execSpillArrival, if_neg hgo]
  simp only [hn, Bool.not_eq_true']

variable (ht : t < nTiles)
include ht

theorem exec_spillArrival_badField (hok : hdrOk n.tok.hdr = true) (hf : fieldBad n.tok.hdr = true)
    (hb : hBasted n.tok.hdr = false) : exec (.spillArrival t n.tok.hdr n.tok.pay) s
      = .next ((s.depart n).tileStop t Code.FAB_HDR_FIELD (hDq n.tok.hdr)) := by
  rw [exec_spillArrival hs hsp hst hn, if_neg (by simp [hok]), if_pos hf, tokFault_tile hb ht (by decide)]
  rfl

theorem exec_spillArrival_mismatch {rf : RegFile} (hok : hdrOk n.tok.hdr = true) (hf : fieldBad n.tok.hdr = false)
    (hlive : (s.tile t).liveRegs (hGen n.tok.hdr) = some rf) (hchan : (s.tile t).chanOk rf (hDq n.tok.hdr) n.tok.hdr = false)
    (hb : hBasted n.tok.hdr = false) : exec (.spillArrival t n.tok.hdr n.tok.pay) s
      = .next ((s.depart n).tileStop t Code.FAB_CHAN_MISMATCH (hDq n.tok.hdr)) := by
  rw [exec_spillArrival hs hsp hst hn, if_neg (by simp [hok]), if_neg (by simp [hf])]
  exact congrArg go (toQueue_mismatch (by rwa [tile_depart]) ht hb (by rwa [tile_depart]))

omit ht in
theorem exec_spillArrival_staged {rf : RegFile} (hok : hdrOk n.tok.hdr = true) (hf : fieldBad n.tok.hdr = false)
    (hlive : (s.tile t).liveRegs (hGen n.tok.hdr) = some rf) (hchan : (s.tile t).chanOk rf (hDq n.tok.hdr) n.tok.hdr = true) :
    exec (.spillArrival t n.tok.hdr n.tok.pay) s = .next ((s.depart n).stageTok t (hDq n.tok.hdr) n.tok) := by
  rw [exec_spillArrival hs hsp hst hn, if_neg (by simp [hok]), if_neg (by simp [hf])]
  exact congrArg go (toQueue_staged (by rwa [tile_depart]) (by rwa [tile_depart]) (by rwa [tile_depart]))

end

theorem sendSpill_full {s : State} {t q : Nat} {k : Token} (h : s.spillRoom (t, q, hGen k.hdr) = false) : s.sendSpill t q k
    = (s.onTile t fun x => { x with staging := x.staging ++ [(q, k)] }).raise Code.UNP_SPILL_FULL 0xC32 0 0 := by
  have hroom : s.spillRoom (t, q, (hdrF k.hdr).gen) = false := h
  simp [State.sendSpill, hroom]

/-! ### Records (spec/06_progress_deadlock_drain.md R200, R203) -/

/-- The pair that came first is the first token and the next one of its tile. -/
theorem firstPair_of_next {a b : Nat × Token} {l m : List (Nat × Token)} (hab : a.1 = b.1) (hl : ∀ c ∈ l, c.1 ≠ a.1) :
    firstPair (a :: l ++ b :: m) = some (pairTok a.2 b.2, l ++ m) := by
  have hfind : (l ++ b :: m).find? (fun c => c.1 = a.1) = some b := by
    rw [List.find?_append, List.find?_eq_none.2 (by simpa using hl)]
    simp [hab]
  have hb : b ∉ l := fun h => hl b h hab.symm
  simp [firstPair, hfind, List.erase_append_right _ hb]

theorem leBytes_length (n v : Nat) : (leBytes n v).length = n := by
  induction n generalizing v with
  | zero => rfl
  | succ n ih => rw [leBytes, List.length_cons, ih]

theorem spillBytes_parts (k : Token) : (spillBytes k).take 8 = leBytes 8 k.hdr.toNat
    ∧ ((spillBytes k).drop 64).take k.pay.length = k.pay ∧ (k.pay.length ≤ 64 → (spillBytes k).length = 128) := by
  have hlen := leBytes_length 8 k.hdr.toNat
  have hhead : (leBytes 8 k.hdr.toNat ++ List.replicate 56 0).length = 64 := by
    rw [List.length_append, hlen, List.length_replicate]
  refine ⟨?_, ?_, fun h => ?_⟩
  · rw [spillBytes, List.append_assoc, List.append_assoc, List.take_left' hlen]
  · rw [spillBytes, List.append_assoc, List.drop_left' hhead, List.take_left' rfl]
  · rw [spillBytes, List.append_assoc, List.length_append, hhead, List.length_append, List.length_replicate]
    omega

/-- The chain to which the next record goes: that of its queue and generation, or a new one. -/
def State.chainFor (s : State) (t q g : Nat) : Chain := (s.chain t q g).getD ⟨t, q, g, []⟩

section
variable {s : State} {t q : Nat} {k : Token} {rest : List (Nat × Token)} (hs : s.halts = false)
  (hf : s.unpick.flushed = false) (hpair : firstPair s.unpick.arrived = some (k, rest)) (ht : hDest k.hdr = t)
  (hq : hDq k.hdr = q)
include hs hf hpair ht hq

theorem exec_spillRecord_full (ha : s.recordAddr (s.chainFor t q (hGen k.hdr)) = none) :
    exec (.spillRecord t q) s = .next (s.raise Code.UNP_SPILL_FULL 0xC32 0 0) := by
  have hif : (s.halts || s.unpick.flushed || decide (hDest k.hdr ≠ t) || decide (hDq k.hdr ≠ q)) = false := by
    simp [hs, hf, ht, hq]
  change execSpillRecord t q s = _
  rw [State.chainFor] at ha
  simp only [execSpillRecord, hpair, hif, ha, Bool.false_eq_true, if_false]

theorem exec_spillRecord {a : Nat} (ha : s.recordAddr (s.chainFor t q (hGen k.hdr)) = some a) :
    exec (.spillRecord t q) s = .next (((s.put a (spillBytes k)).bump R.RECORDS_SPILLED 1).onUnpick fun u => { u with
      arrived := rest
      due := u.due.erase (t, q, hGen k.hdr)
      seq := u.seq + 1
      chains := putChain u.chains { s.chainFor t q (hGen k.hdr) with
        recs := (s.chainFor t q (hGen k.hdr)).recs ++ [(a, u.seq)] }
      pages := kvSet u.pages (a / 4096 * 4096) (kvGet 0 u.pages (a / 4096 * 4096) + 1) }) := by
  have hif : (s.halts || s.unpick.flushed || decide (hDest k.hdr ≠ t) || decide (hDq k.hdr ≠ q)) = false := by
    simp [hs, hf, ht, hq]
  change execSpillRecord t q s = _
  rw [State.chainFor] at ha
  simp only [execSpillRecord, hpair, hif, ha, Bool.false_eq_true, if_false]
  rfl

end

/-! ### Refill (spec/06_progress_deadlock_drain.md R203, R206) -/

theorem refillable_iff (s : State) (c : Chain) : s.refillable c = true ↔ ((s.tile c.tile).queue c.queue).spill = true
    ∧ (s.unpick.refills.filter fun r => r.1 = c.tile && r.2.1 = c.queue).length < ((s.tile c.tile).queue c.queue).rsv
    ∧ (s.tile c.tile).get T.TILE_STATUS_GEN = c.gen ∧ s.unpick.notices.contains c.tile = false := by
  rw [show (s.tile c.tile).get T.TILE_STATUS_GEN = (s.tile c.tile).gen from rfl]
  simp [State.refillable, and_assoc]

/-- A record taken from the head of a chain: its page loses one, and is free with the last. -/
def Unpick.taken (u : Unpick) (c : Chain) (rest : List (Nat × Nat)) (pg left : Nat) : Unpick :=
  { u with
    chains := putChain u.chains { c with recs := rest }
    pages := if left = 0 then kvErase u.pages pg else kvSet u.pages pg left }

/-- The token that the bytes of a record spell (spec/06_progress_deadlock_drain.md R200). -/
def recordTok (b : List Byte) : Token :=
  ⟨BitVec.ofNat 64 (field b 0 8), (b.drop 64).take (hLen (BitVec.ofNat 64 (field b 0 8)))⟩

theorem sendRefill_only (s : State) (t q : Nat) (k : Token) : Only [.net] s (s.sendRefill t q k) :=
  (sendUnit_only _ _ _ _).trans (sendUnit_only _ _ _ _)

section
variable {s : State} {t q a n : Nat} {rest : List (Nat × Nat)} {c : Chain}

/-- The oldest record that may be refilled is read; one that passes its check is sent on to its queue. -/
theorem exec_refill (hs : s.halts = false) (hf : s.unpick.flushed = false)
    (hc : s.chain t q ((s.tile t).get T.TILE_STATUS_GEN) = some c) (hrec : c.recs = (a, n) :: rest)
    (href : s.refillable c = true) (hold : ∀ d ∈ s.unpick.chains, s.refillable d = true → c.oldest ≤ d.oldest) (e : Ecc) :
    let r := s.load a 128 false e
    let w := r.1.onUnpick fun u =>
      u.taken c rest (a / 4096 * 4096) (kvGet 1 s.unpick.pages (a / 4096 * 4096) - 1)
    exec (.refill t q e) s = .next (
      if r.2.isSome then w.raise Code.UNP_SPILL_LOST 0xC32 0 t
      else ((w.sendRefill t q (recordTok (r.1.rdN a 128))).bump R.RECORDS_REFILLED 1).onUnpick fun u => { u with
        refills := u.refills ++ [(t, q, recordTok (r.1.rdN a 128))] }) := by
  intro r w
  have hyounger : s.unpick.chains.any (fun d => s.refillable d && decide (d.oldest < c.oldest)) = false := by
    simpa using hold
  have hif : (s.halts || s.unpick.flushed || !s.refillable c
      || s.unpick.chains.any fun d => s.refillable d && decide (d.oldest < c.oldest)) = false := by
    rw [hs, hf, href, hyounger]
    rfl
  have hc' : s.chain t q (s.tile t).gen = some c := hc
  change execRefill t q e s = _
  simp only [execRefill, hc', hrec, hif, Bool.false_eq_true, if_false]
  exact (apply_ite go _ _ _).symm

end

/-- A token rebuilt from its refill pair in a reserved slot of its queue. -/
def Tile.refilled (x : Tile) (q : Nat) (k : Token) (rest : List Token) : Tile :=
  let y := ({ x with spillIn := rest } : Tile).setQueue q
    { x.queue q with toks := (x.queue q).toks ++ [k], rsv := (x.queue q).rsv - 1 }
  if hGen k.hdr = x.gen then y.untripOn (.queue q) else y

theorem Tile.refilled_parts (x : Tile) (q : Nat) (k : Token) (rest : List Token) :
    (x.refilled q k rest).queue q = { x.queue q with toks := (x.queue q).toks ++ [k], rsv := (x.queue q).rsv - 1 }
      ∧ (x.refilled q k rest).spillIn = rest := by
  unfold Tile.refilled
  dsimp only
  split <;> exact ⟨Tile.queue_setQueue_same _ _ _, rfl⟩

theorem exec_refillToken {s : State} {t q : Nat} {k : Token} {rest : List Token} (hs : s.safe = false)
    (hp : refillPair q (s.tile t).spillIn = some (k, rest)) : exec (.refillToken t q) s
      = .next ((s.onTile t fun x => x.refilled q k rest).onUnpick fun u => { u with
          refills := dropFirst (fun r => r.1 = t && r.2.1 = q) u.refills }) := by
  change execRefillToken t q s = _
  simp only [execRefillToken, hp, hs, Bool.false_eq_true, if_false]
  rfl

/-! ### Notices, and leaving spill mode (spec/06_progress_deadlock_drain.md R203, R204) -/

theorem exec_switchNotice {s : State} (t : Nat) (hs : s.safe = false) : exec (.switchNotice t) s
    = .next (s.onUnpick fun u => { u with notices := u.notices.erase t }) := by
  change execSwitchNotice t s = _
  simp [execSwitchNotice, hs]

theorem exec_spillModeExit {s : State} {t q : Nat} (hs : s.safe = false) (ho : s.spillOver t q = true) :
    exec (.spillModeExit t q) s
      = .next (s.onTile t fun x => x.setQueue q { x.queue q with spill := false, rsv := 0 }) := by
  change execSpillModeExit t q s = _
  simp [execSpillModeExit, hs, ho]

/-! ### The obligation -/

/-- Settles O17: each command is one equation, of which the clauses read the queue, the chain or the page that it changes. -/
theorem queuesSpillAndRefill : Obligations.QueuesSpillAndRefill := by
  refine ⟨fun t q s hs hc hsp => ?command, fun t n s ht hs hsp => ?arrival, fun x k rf hsp hlive hchan => ?room,
    fun t q k s h => sendSpill_full h, fun t q k rest s hs hf hpair ht hq => ?record,
    fun a b l m hab hl => firstPair_of_next hab hl, spillBytes_parts,
    fun t q a n rest c e s hs hf hc hrec href hold => ?refill, fun c s => refillable_iff s c,
    fun t q k rest s hs hp => ?refillToken, fun t s hs => exec_switchNotice t hs,
    fun t q s hs ho => exec_spillModeExit hs ho⟩
  case command =>
    intro v left
    obtain ⟨htile, hother⟩ := commanded_tile hsp
    have hqueue : ((s.commanded t q).tile t).queue q = (s.tile t).spillQueue q := by
      rw [htile, Tile.queue_setQueue_same]
    rw [exec_spillCommand hs hc hsp]
    refine ⟨fun h => ⟨_, congrArg go (if_neg fun ⟨h1, h2⟩ => h.elim (· h1) (· h2)), commanded_only hsp, hqueue, hother,
      fun p hp => ?_, commanded_unpick hsp, fun h0 => ?_⟩, fun h1 h2 hagain => ⟨_, congrArg go (if_pos ⟨h1, h2⟩), ?_⟩⟩
    · rw [htile, Tile.queue_setQueue_other _ _ hp]
    · rw [htile, Tile.freeSlots_spillQueue h0]
    · obtain ⟨-, -, hcmds⟩ := endRun_unpick (s.commanded t q)
      have hnot : (s.commanded t q).unpick.again = false := by rw [commanded_unpick hsp]; exact hagain
      refine ⟨(commanded_only hsp).trans ((endRun_only _).mono (by simp)), ?_, ?_, ?_⟩
      · rw [unpState_endRun, hnot]
        rfl
      · rw [hcmds, commanded_unpick hsp]
        exact h1
      · rw [tile_of_only (endRun_only _) (by simp)]
        exact hqueue
  case arrival =>
    intro h s'
    refine ⟨exec_spillArrival_stuck hs hsp, fun hst hn => ⟨fun hbad => ?_, fun hok hf hb =>
      exec_spillArrival_badField hs hsp hst hn ht hok hf hb, fun rf hok hf hlive => ⟨fun hchan =>
      exec_spillArrival_staged hs hsp hst hn hok hf hlive hchan, fun hchan hb =>
      exec_spillArrival_mismatch hs hsp hst hn ht hok hf hlive hchan hb⟩⟩⟩
    rw [exec_spillArrival hs hsp hst hn, if_pos hbad]
  case room =>
    rw [Tile.stuck_eq hlive, hsp, hchan]
    simp
  case record =>
    intro c
    refine ⟨exec_spillRecord_full hs hf hpair ht hq, fun a ha => ?_⟩
    intro w
    exact ⟨_, exec_spillRecord hs hf hpair ht hq ha, onUnpick_only w _, rfl, rfl, rfl, kvGet_kvSet_same _ _ _ _⟩
  case refill =>
    intro r b k left w
    rw [exec_refill hs hf hc hrec href hold e]
    refine ⟨fun h => ⟨_, congrArg go (if_neg (by simp [r, h])), ?_, ?_⟩, fun h => congrArg go (if_pos ?_)⟩
    · rw [unpick_onUnpick, State.bump_unpick, sendRefill_only _ t q _ .unpick (by simp)]
      rfl
    · exact ((sendRefill_only _ t q _).mono (by simp)).trans (((State.bump_only _ _ _).mono (by simp)).trans
        ((onUnpick_only _ _).mono (by simp)))
    · exact Option.isSome_iff_ne_none.2 h
  case refillToken =>
    obtain ⟨hqueue, hspill⟩ := (s.tile t).refilled_parts q k rest
    refine ⟨_, exec_refillToken hs hp, ((s.onTile_only t _).mono (by simp)).trans ((onUnpick_only _ _).mono (by simp)),
      fun j hj => State.tile_setTile_other _ _ _ _ hj, ?_⟩
    rw [tile_onUnpick, State.tile_onTile_same, hqueue]
    exact ⟨rfl, rfl, hspill⟩

end Sys2Proof.Machine
end

section
/-! PROOFS. How a FLUSH starts, and what the memory controllers leave of the fabric when they act on requests that they
held (spec/06_progress_deadlock_drain.md R209, Table 6.4, spec/08_memory_system.md R263 to R277). -/

namespace Sys2Proof.Machine

/-! ### Tiles changed as a whole -/

/-- The state with every tile changed alike. -/
def State.mapTiles (s : State) (f : Tile → Tile) : State := { s with tiles := s.tiles.map fun e => (e.1, f e.2) }

theorem mapTiles_only (s : State) (f : Tile → Tile) : Only [.tiles] s (s.mapTiles f) := by
  intro p hp
  cases p <;> simp_all [Part.Same, State.mapTiles]

/-- A tile that the table lists is changed; another stays as power finds it. -/
theorem tile_mapTiles_cases (s : State) (f : Tile → Tile) (k : Nat) :
    (s.mapTiles f).tile k = f (s.tile k) ∨ ((s.mapTiles f).tile k = {} ∧ s.tile k = {}) := by
  simp only [State.mapTiles, State.tile, kvGet, kvGet?_map f]
  cases kvGet? s.tiles k with
  | none => exact .inr ⟨rfl, rfl⟩
  | some x => exact .inl rfl

theorem tile_mapTiles (s : State) {f : Tile → Tile} (hf : f {} = {}) (k : Nat) : (s.mapTiles f).tile k = f (s.tile k) := by
  rcases tile_mapTiles_cases s f k with h | ⟨h1, h2⟩
  · exact h
  · rw [h1, h2, hf]

theorem mem_of_kvGet? {α : Type} {m : Kv α} {k : Nat} {v : α} (h : kvGet? m k = some v) : (k, v) ∈ m := by
  induction m with
  | nil => cases h
  | cons e m ih =>
    obtain ⟨j, w⟩ := e
    simp only [kvGet?] at h
    split at h
    · cases h
      subst k
      exact List.mem_cons_self
    · exact List.mem_cons_of_mem _ (ih h)

/-! ### Streams aborted (spec/09_bobbin_streams.md R306) -/

/-- A tile with the stream of a bobbin aborted. -/
def Tile.aborted (x : Tile) (b : Nat) : Tile := (x.abortBob b).set (T.BOB_STAT_OUTST b) ((x.abortBob b).bob b).reqs.length

theorem Tile.aborted_run (x : Tile) (b : Nat) : ((x.aborted b).bob b).run = false := by
  rw [Tile.aborted, Tile.bob_set, Tile.abortBob]
  split
  · rename_i h
    rw [Tile.bob_set, Tile.bob_setBob_same, Bob.abort, if_pos h]
  · exact Bool.eq_false_of_not_eq_true ‹_›

theorem Tile.aborted_bob0 (x : Tile) : (x.aborted 1).bob0 = x.bob0 := by
  rw [Tile.aborted, Tile.abortBob]
  split <;> rfl

theorem Tile.aborted_pend (x : Tile) (b : Nat) : (x.aborted b).pend = x.pend := by
  have hset (v : Bob) : (x.setBob b v).pend = x.pend := by
    unfold Tile.setBob
    split <;> rfl
  rw [Tile.aborted, Tile.abortBob]
  split
  · exact hset _
  · rfl

theorem tile_abortStream (s : State) (t b k : Nat) :
    (s.abortStream t b).tile k = if k = t then (s.tile k).aborted b else s.tile k := by
  rw [State.abortStream, tile_of_only (State.injectAll_only _ _ _) (by simp)]
  split
  · subst k
    exact State.tile_setTile_same s t _
  · exact State.tile_setTile_other s t k _ ‹_›

/-- Which bobbins of a tile run. -/
def Tile.runs (x : Tile) : Bool × Bool := (x.bob0.run, x.bob1.run)

theorem runs_abortStreams (s : State) (t k : Nat) : (((s.abortStream t 0).abortStream t 1).tile k).runs
    = if t = k ∧ True then (false, false) else (s.tile k).runs := by
  rw [tile_abortStream, tile_abortStream]
  by_cases h : k = t
  · rw [if_pos h, if_pos h, if_pos ⟨h.symm, trivial⟩, Tile.runs, Tile.aborted_bob0]
    exact Prod.ext (Tile.aborted_run (s.tile k) 0) (Tile.aborted_run _ 1)
  · rw [if_neg h, if_neg h, if_neg fun hk => h hk.1.symm]

/-- No wait of a tile tripped. -/
def Tile.noTrips (x : Tile) : Tile := { x with tripped := [] }

/-- Both streams of every tile that the table lists aborted. -/
def State.streamsAborted (s : State) : State :=
  (s.tiles.map Prod.fst).foldl (fun s t => (s.abortStream t 0).abortStream t 1) s

theorem abortBobs_eq (s : State) : s.abortBobs = s.streamsAborted.mapTiles Tile.noTrips := rfl

/-- No bobbin of any tile runs once all streams are aborted: those of a tile that the table does not list never ran. -/
theorem runs_abortBobs (s : State) (k : Nat) : (s.abortBobs.tile k).runs = (false, false) := by
  have hfold : (s.streamsAborted.tile k).runs = _ := foldl_read_of_step (read := fun s : State => (s.tile k).runs) (k := k)
    (v := (false, false)) (p := True) (fun s t => runs_abortStreams s t k) (s.tiles.map Prod.fst) s
  rw [abortBobs_eq, tile_mapTiles _ rfl]
  refine hfold.trans (ite_eq_left_iff.2 fun hk => ?_)
  rw [and_true, ← kvGet?_eq_none_iff] at hk
  rw [State.tile, kvGet, hk]
  rfl

/-! ### The start of a FLUSH (spec/06_progress_deadlock_drain.md R209, Table 6.4) -/

theorem startFlush_of_flush {s : State} (h : s.drain = 2) : s.startFlush = s := if_pos h

/-- The registers as a FLUSH starts. -/
def State.flushBegun (s : State) : State := (s.set R.UNP_STATUS_DRAIN 2).set R.UNP_STATUS_STATE 0

/-- The unpick controller as a FLUSH starts: its run, if any, is over, the inputs are stopped. -/
def Unpick.flushBegun (u : Unpick) : Unpick :=
  { u with
    stopped := true, flushed := true, again := false, sent := [], spent := [], probed := [], owed := [], answers := []
    spillCmds := [] }

theorem startFlush_eq {s : State} (h : s.drain ≠ 2) : s.startFlush = s.flushBegun.abortBobs.onUnpick Unpick.flushBegun :=
  if_neg h

theorem get_abortBobs (s : State) (f : Fld) : s.abortBobs.get f = s.get f := by
  rw [State.get, show s.abortBobs.bar = s.bar from s.abortBobs_only .bar (by simp)]
  rfl

/-- A FLUSH that starts: its drain state, its inputs, and the requests for a drained reply, which stay. -/
theorem startFlush_starts {s : State} (h : s.drain ≠ 2) : s.startFlush.drain = 2 ∧ s.startFlush.unpick.stopped = true
    ∧ s.startFlush.unpick.flushed = true ∧ s.startFlush.unpick.drainTags = s.unpick.drainTags := by
  have hunpick : s.flushBegun.abortBobs.unpick = s.unpick := State.abortBobs_only _ .unpick (by simp)
  rw [startFlush_eq h, State.drain, get_onUnpick, get_abortBobs, unpick_onUnpick, hunpick]
  exact ⟨(get_set_other _ _ (by decide)).trans (get_set_same s _ 2), rfl, rfl, rfl⟩

theorem startFlush_runs {s : State} (h : s.drain ≠ 2) (k : Nat) : (s.startFlush.tile k).runs = (false, false) := by
  rw [startFlush_eq h, tile_onUnpick, runs_abortBobs]

theorem get_startFlush_other (s : State) {f : Fld} (hd : f.key ≠ R.UNP_STATUS_DRAIN.key) (hs : f.key ≠ R.UNP_STATUS_STATE.key) :
    s.startFlush.get f = s.get f := by
  by_cases h : s.drain = 2
  · rw [startFlush_of_flush h]
  · rw [startFlush_eq h, get_onUnpick, get_abortBobs]
    exact (get_set_other _ _ hs).trans (get_set_other _ _ hd)

/-! ### What acting on memory leaves of the fabric -/

/-- Two states with the same agents of the fabric and the same pending generation at every tile: a request that a memory
controller acts on changes neither, whatever faults it raises. -/
structure SameFabric (s t : State) : Prop where
  fab : t.fab = s.fab
  pend : ∀ k, (t.tile k).pend = (s.tile k).pend

namespace SameFabric

variable {s t u : State}

theorem refl (s : State) : SameFabric s s := ⟨rfl, fun _ => rfl⟩

theorem trans (h : SameFabric s t) (g : SameFabric t u) : SameFabric s u :=
  ⟨g.fab.trans h.fab, fun k => (g.pend k).trans (h.pend k)⟩

/-- The same, the later change first. -/
theorem after (g : SameFabric t u) (h : SameFabric s t) : SameFabric s u := h.trans g

/-- A change beside fabric and tiles. -/
theorem beside (h : SameFabric s t) (hf : u.fab = t.fab) (ht : u.tiles = t.tiles) : SameFabric s u :=
  h.trans ⟨hf, fun k => congrArg (fun m => (kvGet ({} : Tile) m k).pend) ht⟩

theorem still (hf : u.fab = s.fab) (ht : u.tiles = s.tiles) : SameFabric s u := (refl s).beside hf ht

theorem of_only {L : List Part} (g : Only L s u) (hf : Part.fab ∉ L) (ht : Part.tiles ∉ L) : SameFabric s u :=
  still (g .fab hf) (g .tiles ht)

theorem foldl {α : Type} {f : State → α → State} (h : ∀ s a, SameFabric s (f s a)) (l : List α) (s : State) :
    SameFabric s (l.foldl f s) := by
  induction l generalizing s with
  | nil => exact refl s
  | cons a l ih => exact (h s a).trans (ih _)

theorem ite {p : Prop} [Decidable p] (ht : SameFabric s t) (hu : SameFabric s u) : SameFabric s (if p then t else u) := by
  split
  · exact ht
  · exact hu

end SameFabric

theorem startFlush_sameFabric (s : State) : SameFabric s s.startFlush := by
  have hstream (s : State) (t b : Nat) : SameFabric s (s.abortStream t b) := by
    refine ⟨State.abortStream_only s t b .fab (by simp), fun k => ?_⟩
    rw [tile_abortStream]
    split
    · exact Tile.aborted_pend _ b
    · rfl
  have hbobs (s : State) : SameFabric s s.abortBobs := by
    have hfold : SameFabric s s.streamsAborted :=
      .foldl (fun s t => (hstream s t 0).trans (hstream _ t 1)) (s.tiles.map Prod.fst) s
    refine hfold.trans ⟨rfl, fun k => ?_⟩
    rw [abortBobs_eq, tile_mapTiles _ rfl]
    rfl
  by_cases h : s.drain = 2
  · rw [startFlush_of_flush h]
    exact .refl s
  · have hbegun : SameFabric s s.flushBegun.abortBobs := .after (hbobs _) (.still rfl rfl)
    rw [startFlush_eq h]
    exact hbegun.beside rfl rfl

theorem raiseAs_sameFabric (s : State) (c : FClass) (b : Bool) (code n i a : Nat) :
    SameFabric s (s.raiseAs c b code n i a) := by
  have hfatal (s : State) : SameFabric s (s.stepFatal code) := by
    unfold State.stepFatal
    split
    · split
      · exact .refl s
      · exact .still rfl rfl
    · exact .after (startFlush_sameFabric _) (.of_only (s.abandonStep_only code) (by simp) (by simp))
  unfold State.raiseAs
  extract_lets r cls boot first flags rec' wasSafe s1 m1 s2 f2 p2 s3
  have h1 : SameFabric s s1 := .after (.of_only (State.hold_only _ rec') (by simp) (by simp)) (.still rfl rfl)
  have h2 : SameFabric s s2 := .ite (h1.beside rfl rfl) h1
  have h3 : SameFabric s s3 := .ite (h2.trans (hfatal _)) h2
  exact .ite (h2.beside rfl rfl) (.ite h2 (.ite (h2.beside rfl rfl) (.ite (h3.trans (startFlush_sameFabric _)) h3)))

theorem raise_sameFabric (s : State) (c n i a : Nat) : SameFabric s (s.raise c n i a) := raiseAs_sameFabric s _ _ _ _ _ _

/-! ### The check of stored data (spec/08_memory_system.md R266, R271) -/

theorem checkGran_sameFabric (s : State) (g : Nat) (e : Ecc) (r : Reader) : SameFabric s (s.checkGran g e r).1 := by
  unfold State.checkGran
  split
  · exact .after (raise_sameFabric _ _ _ _ _) (.still rfl rfl)
  · split
    · exact .refl s
    · unfold State.memCe
      extract_lets at_ s1 m1 s2
      have h2 : SameFabric s s2 := .ite (.still rfl rfl) (.still rfl rfl)
      exact .ite (.still rfl rfl) (.after (raise_sameFabric _ _ _ _ _) (h2.beside rfl rfl))
    · exact .after (raise_sameFabric _ _ _ _ _) (.still rfl rfl)

theorem lnErr_sameFabric (s : State) (a : Nat) (e : Ecc) (r : Reader) : SameFabric s (s.lnErr a e r).1 := by
  unfold State.lnErr
  dsimp only
  split <;> dsimp only
  · exact .refl s
  · exact .after (raise_sameFabric _ _ _ _ _) (.still rfl rfl)
  · exact .after (raise_sameFabric _ _ _ _ _) (.still rfl rfl)

theorem checkLn_sameFabric (n : Nat) (s : State) (a : Nat) (e : Ecc) (r : Reader) :
    SameFabric s (s.checkLn a e r n).1 := by
  induction n generalizing s a e with
  | zero => exact .refl s
  | succ n ih =>
    unfold State.checkLn
    extract_lets w c
    have h : SameFabric s c.1 := by
      simp only [c]
      split
      · exact .after (lnErr_sameFabric _ _ _ _) (.still rfl rfl)
      · exact lnErr_sameFabric s _ _ _
    split
    · exact h.trans (ih _ _ _)
    · exact h

theorem checkAt_sameFabric (s : State) (a n : Nat) (e : Ecc) (r : Reader) : SameFabric s (s.checkAt a n e r).1 := by
  unfold State.checkAt
  split
  · split
    · exact checkGran_sameFabric s _ _ _
    · exact .refl s
  · exact checkLn_sameFabric _ s _ _ _

/-! ### Reads and writes (spec/08_memory_system.md R263 to R266) -/

theorem touchAt_sameFabric (s : State) (a : Nat) (w x : Bool) : SameFabric s (s.touchAt a w x) :=
  .of_only (s.touchAt_only a w x) (by simp) (by simp)

theorem wrN_sameFabric (s : State) (a : Nat) (b : List Byte) : SameFabric s (s.wrN a b) := .still rfl rfl

theorem loadRun_sameFabric (s : State) (a n : Nat) (x : Bool) (e : Ecc) (r : Reader) :
    SameFabric s (s.loadRun a n x e r).1 :=
  (checkAt_sameFabric s a n e r).trans (touchAt_sameFabric _ _ _ _)

theorem loadRuns_sameFabric (x : Bool) (r : Reader) (l : List (Nat × Nat)) (s : State) (e : Ecc) :
    SameFabric s (s.loadRuns x r l e).1 := by
  induction l generalizing s e with
  | nil => exact .refl s
  | cons g l ih =>
    unfold State.loadRuns
    dsimp only
    split
    · exact (loadRun_sameFabric s _ _ _ _ _).trans (ih _ _)
    · exact loadRun_sameFabric s _ _ _ _ _

theorem storeRun_sameFabric (s : State) (a : Nat) (b : List Byte) (x : Bool) (e : Ecc) (r : Reader) :
    SameFabric s (s.storeRun a b x e r).1 := by
  have hedges : SameFabric s (s.checkEdges a b.length e r).1 := by
    unfold State.checkEdges
    extract_lets hd
    have h1 : SameFabric s hd.1 := by
      simp only [hd]
      split
      · exact .refl s
      · exact checkLn_sameFabric _ s _ _ _
    split
    · exact h1
    · split
      · exact h1
      · exact h1.trans (checkLn_sameFabric _ _ _ _ _)
  unfold State.storeRun
  dsimp only
  split
  · split
    · exact .after (wrN_sameFabric _ _ _) (.after (touchAt_sameFabric _ _ _ _) (.still rfl rfl))
    · have htouch : SameFabric s ((s.checkAt a b.length e r).1.touchAt a true x) :=
        (checkAt_sameFabric s _ _ _ _).trans (touchAt_sameFabric _ _ _ _)
      split
      · exact htouch.trans (wrN_sameFabric _ _ _)
      · exact htouch
  · split
    · exact hedges.beside rfl rfl
    · exact hedges

theorem memFault_sameFabric (s : State) (c a : Nat) : SameFabric s (s.memFault c a) := by
  unfold State.memFault
  exact .ite (raise_sameFabric s _ _ _ _) (raise_sameFabric s _ _ _ _)

theorem reachFault_sameFabric (s : State) (agent sub a n : Nat) : SameFabric s (s.reachFault agent sub a n) := by
  unfold State.reachFault
  split
  · exact memFault_sameFabric s _ _
  · exact raise_sameFabric s _ _ _ _

theorem moveTouch_sameFabric (s : State) (a n : Nat) : SameFabric s (s.moveTouch a n) := by
  unfold State.moveTouch
  split
  · exact .ite (.still rfl rfl) (.refl s)
  · exact .refl s

theorem readMem_sameFabric (s : State) (agent sub a n : Nat) (x : Bool) (e : Ecc) :
    SameFabric s (s.readMem agent sub a n x e).1 := by
  unfold State.readMem
  split
  · exact reachFault_sameFabric s _ _ _ _
  · dsimp only
    split <;> exact (moveTouch_sameFabric s a n).trans (loadRun_sameFabric _ _ _ _ _ _)

theorem writeMem_sameFabric (s : State) (agent sub a : Nat) (b : List Byte) (x : Bool) (e : Ecc) :
    SameFabric s (s.writeMem agent sub a b x e).1 := by
  unfold State.writeMem
  dsimp only
  split
  · exact reachFault_sameFabric s _ _ _ _
  · split
    · exact memFault_sameFabric s _ _
    · exact (moveTouch_sameFabric s a _).trans (storeRun_sameFabric _ _ _ _ _ _)

theorem SameFabric.answer {s t : State} (h : SameFabric s t) (agent a : Nat) (x : MemAns) :
    SameFabric s (t.answer agent a x) := by
  unfold State.answer
  split <;> exact h.beside rfl rfl

/-! ### Bobbin requests and host accesses (spec/09_bobbin_streams.md R300, spec/11_host_interface_and_command_tape.md R354) -/

theorem respond_only (s : State) (unit stream ep ridx status : Nat) (d : List Byte) :
    Only [.net] s (s.respond unit stream ep ridx status d) := by
  unfold State.respond
  dsimp only
  split
  · exact sendUnit_only _ _ _ _
  · exact Only.foldl (fun s _ => sendUnit_only s _ _ _) _ s

theorem serveReq_sameFabric (s : State) (target : Nat) (q : BReq) (d : List Byte) (e : Ecc) :
    SameFabric s (s.serveReq target q d e) := by
  unfold State.serveReq
  extract_lets t b r
  have hr : SameFabric s r.1 := by
    simp only [r]
    split
    · exact writeMem_sameFabric s _ _ _ _ _ _
    · exact readMem_sameFabric s _ _ _ _ _ _
  split <;> exact .after (.of_only (respond_only _ _ _ _ _ _ _) (by simp) (by simp)) hr

theorem hostTail_sameFabric (s : State) (a n : Nat) : SameFabric s (s.hostTail a n) := by
  unfold State.hostTail
  exact .ite (.after (raise_sameFabric _ _ _ _ _) (.still rfl rfl)) (.refl s)

theorem serveHdmRead_sameFabric (s : State) (a n : Nat) (e : Ecc) : SameFabric s (s.serveHdmRead a n e) := by
  have hload (s : State) : SameFabric s (s.hostLoad a n e).1 := by
    unfold State.hostLoad
    dsimp only
    split
    · exact .still rfl rfl
    · exact ((hostTail_sameFabric s a n).trans (moveTouch_sameFabric _ _ _)).trans (loadRuns_sameFabric _ _ _ _ _)
  have hr : SameFabric s ((s.bump R.HDM_RD_BYTES n).hostLoad a n e).1 :=
    .after (hload _) (.still rfl rfl)
  unfold State.serveHdmRead
  dsimp only
  split <;> exact hr.beside rfl rfl

theorem serveHdmWrite_sameFabric (s : State) (a : Nat) (b : List Byte) (p : Bool) :
    SameFabric s (s.serveHdmWrite a b p) := by
  have hwrite (s : State) : SameFabric s (s.hostWrite a b p) := by
    have hruns := (hostTail_sameFabric s a b.length).trans (SameFabric.foldl
      (fun s r => writeMem_sameFabric s hostUnit 0 r.1 ((b.drop (r.1 - a)).take r.2) false .ok) (s.runs a b.length) _)
    unfold State.hostWrite
    exact .ite (hruns.beside rfl rfl) hruns
  have hbytes : SameFabric s ((s.bump R.HDM_WR_BYTES b.length).hostWrite a b p) :=
    .after (hwrite _) (.still rfl rfl)
  unfold State.serveHdmWrite State.notice
  exact .ite (hbytes.beside rfl rfl) hbytes

/-! ### Atomics (spec/08_memory_system.md R275 to R277) -/

theorem atomApply_sameFabric (s : State) (q : AtomReq) (e : Ecc) : SameFabric s (s.atomApply q e) := by
  have hcheck : SameFabric s (((s.moveTouch q.addr (q.cnt * atomElem q.op)).checkAt q.addr (q.cnt * atomElem q.op) e
      (readerOf q.agent)).1.touchAt q.addr true false) :=
    .after (touchAt_sameFabric _ _ _ _) (.after (checkAt_sameFabric _ _ _ _ _) (moveTouch_sameFabric s _ _))
  unfold State.atomApply
  dsimp only
  split
  · split <;> exact hcheck.beside rfl rfl
  · exact hcheck.beside rfl rfl

theorem setTicket_sameFabric (s : State) (mc set v : Nat) : SameFabric s (s.setTicket mc set v) := .still rfl rfl

theorem drainTickets_sameFabric (mc set n : Nat) (s : State) : SameFabric s (s.drainTickets mc set n) := by
  induction n generalizing s with
  | zero => exact .refl s
  | succ n ih =>
    unfold State.drainTickets
    split
    · exact .after (ih _) (.after (setTicket_sameFabric _ _ _ _) (.after (atomApply_sameFabric _ _ _) (.still rfl rfl)))
    · exact .refl s

theorem atomAct_sameFabric (s : State) (q : AtomReq) (e : Ecc) : SameFabric s (s.atomAct q e) := by
  have hticket : SameFabric s ((s.atomApply q e).setTicket (s.atomMc q) q.set (q.seq + 1)) :=
    .after (setTicket_sameFabric _ _ _ _) (atomApply_sameFabric s q e)
  unfold State.atomAct
  extract_lets mc
  split
  · extract_lets s1
    have h1 : SameFabric s s1 := .ite (memFault_sameFabric s _ _) (raise_sameFabric s _ _ _ _)
    exact h1.beside rfl rfl
  · exact .ite (.still rfl rfl) (.ite (atomApply_sameFabric s q e) (.ite (.after (drainTickets_sameFabric _ _ _ _) hticket)
      (.ite (.still rfl rfl) ((memFault_sameFabric s Code.MEM_ATOM_ORDER q.addr).beside rfl rfl))))

theorem pumpAtoms_sameFabric (mc n : Nat) (s : State) : SameFabric s (s.pumpAtoms mc n) := by
  induction n generalizing s with
  | zero => exact .refl s
  | succ n ih =>
    unfold State.pumpAtoms
    split
    · exact .ite (.refl s) (.after (ih _) (.after (atomAct_sameFabric _ _ _) (.still rfl rfl)))
    · exact .refl s

theorem atom_sameFabric (s : State) (q : AtomReq) (e : Ecc) : SameFabric s (s.atom q e) := by
  unfold State.atom
  exact .ite (.still rfl rfl) ((atomAct_sameFabric s q e).trans (pumpAtoms_sameFabric _ _ _))

/-! ### Requests that were held (spec/04_fabric_tokens_and_steering.md R137) -/

theorem serve_sameFabric (s : State) (seed : Nat × Nat) (i : Instr) : SameFabric s (s.serve seed i) := by
  unfold State.serve
  split
  · exact (readMem_sameFabric s _ _ _ _ _ _).answer _ _ _
  · exact (writeMem_sameFabric s _ _ _ _ _ _).answer _ _ _
  · exact atom_sameFabric s _ _
  · exact atom_sameFabric s _ _
  · exact atom_sameFabric s _ _
  · exact atom_sameFabric s _ _
  · exact serveReq_sameFabric s _ _ _ _
  · exact serveHdmRead_sameFabric s _ _ _
  · exact (serveHdmWrite_sameFabric s _ _ _).beside rfl rfl
  · exact .refl s

theorem release1_sameFabric (s : State) (h : HeldReq) : SameFabric s (s.release1 h) := by
  have hopen (n g : Nat) : SameFabric s (s.asOpen n g fun s => s.serve h.seed h.req) := by
    unfold State.asOpen
    extract_lets m b s1
    have hserve : SameFabric s (s1.serve h.seed h.req) := .after (serve_sameFabric _ _ _) (.still rfl rfl)
    exact hserve.beside rfl rfl
  unfold State.release1
  extract_lets i
  split
  · exact .still rfl rfl
  · split
    · exact hopen _ _
    · exact serve_sameFabric s _ _

theorem drainHeld_sameFabric (gran n : Nat) (s : State) : SameFabric s (s.drainHeld gran n) := by
  induction n generalizing s with
  | zero => exact .refl s
  | succ n ih =>
    unfold State.drainHeld
    split
    · exact .ite (.refl s) (.after (ih _) (.after (release1_sameFabric _ _) (.still rfl rfl)))
    · exact .refl s

theorem decideReq_sameFabric (s : State) (h : HeldReq) (sew : Bool) : SameFabric s (s.decideReq h sew) := by
  unfold State.decideReq
  exact .after (drainHeld_sameFabric _ _ _) (.still rfl rfl)

theorem dropBasted_sameFabric (s : State) : SameFabric s s.dropBasted :=
  .foldl (fun s h => decideReq_sameFabric s h false) _ s

end Sys2Proof.Machine
end

section
/-! PROOFS. QUIESCE, FLUSH and RESUME (spec/06_progress_deadlock_drain.md R207 to R212, Tables 6.3 to 6.6). -/

namespace Sys2Proof.Machine

/-! ### Drain commands and their replies (spec/06_progress_deadlock_drain.md Tables 6.3, 6.4) -/

/-- A drain command of its mode acts, marked as taken. -/
theorem withDrain_of_cmdFor {s : State} {tag mode : Nat} {c : Cmd} (hs : s.safe = false)
    (hc : s.cmdFor tag Op.DRAIN = some c) (hp : c.p 0 1 = mode) (k : State → Cmd → State) :
    s.withDrain tag mode k = k (s.takeCmd c) c := by
  simp [State.withDrain, hs, hc, hp]

theorem drain_set (s : State) {v : Nat} (h : v < 8) : (s.set R.UNP_STATUS_DRAIN v).drain = v :=
  (get_set_same s _ v).trans (Nat.mod_eq_of_lt h)

theorem drain_bump (s : State) {f : Fld} (n : Nat) (h : R.UNP_STATUS_DRAIN.key ≠ f.key) : (s.bump f n).drain = s.drain :=
  get_bump_other s n h

theorem drain_reply (s : State) (tag ep k c : Nat) (r : List Byte) : (s.reply tag ep k c r).drain = s.drain :=
  reply_onlyFields s tag ep k c r R.UNP_STATUS_DRAIN (by decide)

/-- The replies to the drain commands that wait. -/
def State.repliesSent (s : State) (l : List (Nat × Nat)) : State := l.foldl (fun s p => s.reply p.1 p.2 1 0 []) s

theorem repliesSent_only (s : State) (l : List (Nat × Nat)) : Only [.bar, .tape] s (s.repliesSent l) :=
  Only.foldl (fun s _ => s.reply_only _ _ _ _ _) l s

theorem drain_repliesSent (l : List (Nat × Nat)) (s : State) : (s.repliesSent l).drain = s.drain := by
  induction l generalizing s with
  | nil => rfl
  | cons p l ih => exact (ih _).trans (drain_reply s _ _ _ _ _)

theorem drainedReplies_eq (s : State) : s.drainedReplies
    = (s.repliesSent s.unpick.drainTags).onUnpick fun u => { u with drainTags := [] } := rfl

theorem drainedReplies_only (s : State) : Only [.bar, .tape, .unpick] s s.drainedReplies := by
  rw [drainedReplies_eq]
  exact ((repliesSent_only s _).mono (by simp)).trans ((onUnpick_only _ _).mono (by simp))

theorem drainedReplies_unpick (s : State) : s.drainedReplies.unpick = { s.unpick with drainTags := [] } := by
  rw [drainedReplies_eq, unpick_onUnpick, show (s.repliesSent s.unpick.drainTags).unpick = s.unpick from
    repliesSent_only s _ .unpick (by simp)]

theorem drain_drainedReplies (s : State) : s.drainedReplies.drain = s.drain := drain_repliesSent _ s

/-! ### QUIESCE (spec/06_progress_deadlock_drain.md R207, R208) -/

theorem exec_drainQuiesce {s : State} {tag : Nat} {c : Cmd} (hs : s.safe = false)
    (hc : s.cmdFor tag Op.DRAIN = some c) (hp : c.p 0 1 = 0) : exec (.drainQuiesce tag) s = .next (
      if s.drain = 3 then (s.takeCmd c).done c []
      else if s.drain = 0 then ((s.takeCmd c).awaitDrained c).set R.UNP_STATUS_DRAIN 1
      else (s.takeCmd c).awaitDrained c) := by
  change execDrainQuiesce tag s = _
  rw [execDrainQuiesce, withDrain_of_cmdFor hs hc hp]
  rfl

theorem exec_quiesceStopInputs {s : State} (hs : s.halts = false) (hd : s.drain = 1) (ho : s.stepOpen = false) :
    exec .quiesceStopInputs s = .next (s.onUnpick fun u => { u with stopped := true }) := by
  change execQuiesceStopInputs s = _
  simp [execQuiesceStopInputs, hs, hd, ho]

/-- A probe round forgets the deliveries of every tile, and ends the drain when the fabric is quiescent. -/
theorem exec_quiesceProbeRound {s : State} (hs : s.halts = false) (hd : s.drain = 1) (hst : s.unpick.stopped = true) :
    exec .quiesceProbeRound s = .next (
      if s.quiescent then
        (((s.mapTiles Tile.clearMoved).set R.UNP_STATUS_DRAIN 3).bump R.QUIESCES 1).drainedReplies
      else s.mapTiles Tile.clearMoved) := by
  have hif : ¬(s.halts || decide (s.drain ≠ 1) || !s.unpick.stopped) = true := by
    rw [hs, hd, hst]
    decide
  have hrun : exec .quiesceProbeRound s = _ := if_neg hif
  exact hrun.trans (apply_ite go _ _ _).symm

theorem exec_unpDrainDeadline {s : State} (hs : s.halts = false) (hd : s.drain = 1) :
    exec .unpDrainDeadline s = .next (s.raise Code.UNP_DRAIN_DEADLINE 0xC32 0 0).startFlush := by
  change execUnpDrainDeadline s = _
  simp [execUnpDrainDeadline, hs, hd]

/-! ### A FLUSH that host software requests (spec/06_progress_deadlock_drain.md R209) -/

/-- Sending on a port changes no register but the counts of frames and bytes, which stand from 0x4A000 on. -/
theorem get_frame_below (s : State) (p : Nat) (m : SMsg) {f : Fld} (hf : f.key < 0x4A000 * 64) :
    (s.frame p m).get f = s.get f := by
  have hframes : f.key ≠ (R.FRAMES_TX p).key := by
    simp only [Fld.key, R.FRAMES_TX] at *
    omega
  have hbytes : f.key ≠ (R.BYTES_TX p).key := by
    simp only [Fld.key, R.BYTES_TX] at *
    omega
  exact (get_bump_other _ _ hbytes).trans (get_bump_other _ _ hframes)

theorem get_portSend_below (s : State) (p : Nat) (m : SMsg) {f : Fld} (hf : f.key < 0x4A000 * 64) :
    (s.portSend p m).get f = s.get f := by
  unfold State.portSend
  split
  · dsimp only
    split
    · exact get_frame_below _ p _ hf
    · rfl
  · rfl

theorem get_sendSucc_below (s : State) (i : Inst) (ty g n li : Nat) (b : List Byte) {f : Fld} (hf : f.key < 0x4A000 * 64) :
    (s.sendSucc i ty g n li b).get f = s.get f := by
  unfold State.sendSucc State.sendBy
  split
  · rfl
  · split
    · exact get_portSend_below _ _ _ hf
    · rfl

/-- An open step abandoned leaves the registers as its `ABANDON` and its reply leave them, with the phase idle. -/
theorem bar_abandonStep {s : State} (c : Nat) (h : s.stepOpen = true) : ∃ t : State, t.drain = s.drain
    ∧ (s.abandonStep c).bar = ((t.set R.PRS_STATUS_PHASE 0).bump R.STEPS_ABANDONED 1).bar := by
  unfold State.abandonStep
  rw [if_pos h]
  extract_lets step code s1 s2 s3
  have hsent : s1.drain = s.drain := by
    simp only [s1]
    split
    · exact get_sendSucc_below _ _ _ _ _ _ _ (by decide)
    · rfl
  have hreplied : s2.drain = s1.drain := by
    simp only [s2]
    split
    · exact drain_reply _ _ _ _ _ _
    · rfl
  exact ⟨s2, hreplied.trans hsent, rfl⟩

theorem drain_abandonStep (s : State) (c : Nat) : (s.abandonStep c).drain = s.drain := by
  by_cases h : s.stepOpen = true
  · obtain ⟨t, hdrain, hbar⟩ := bar_abandonStep c h
    rw [State.drain, State.get, hbar]
    exact ((drain_bump _ 1 (by decide)).trans (get_set_other _ _ (by decide))).trans hdrain
  · rw [State.abandonStep, if_neg h]

theorem phase_abandonStep {s : State} (c : Nat) (h : s.stepOpen = true) : (s.abandonStep c).phase = 0 := by
  obtain ⟨t, -, hbar⟩ := bar_abandonStep c h
  rw [State.phase, State.get, hbar]
  exact (get_bump_other _ 1 (by decide)).trans (get_set_same t _ 0)

/-- What holds of a state, whose drain was not a FLUSH, in which a FLUSH has been requested. -/
structure Flushing (s u : State) : Prop where
  drain : u.drain = 2
  stopped : u.unpick.stopped = true
  flushed : u.unpick.flushed = true
  tags : u.unpick.drainTags = s.unpick.drainTags
  phase : s.stepOpen = true → s.verdictSent = false → u.phase = 0
  runs : ∀ k, (u.tile k).runs = (false, false)

/-- A FLUSH starts from a state that has the drain state and the unpick controller of another. -/
theorem startFlush_flushing {s t : State} (h : s.drain ≠ 2) (hdrain : t.drain = s.drain) (hunpick : t.unpick = s.unpick)
    (hphase : s.stepOpen = true → s.verdictSent = false → t.phase = 0) : Flushing s t.startFlush := by
  have ht : t.drain ≠ 2 := hdrain.trans_ne h
  obtain ⟨hd, hstop, hflush, htags⟩ := startFlush_starts ht
  exact ⟨hd, hstop, hflush, htags.trans (congrArg _ hunpick),
    fun ho hv => (get_startFlush_other t (by decide) (by decide)).trans (hphase ho hv), startFlush_runs ht⟩

theorem stepFatal_of_verdict {s : State} (c : Nat) (h : s.verdictSent = true) :
    (s.stepFatal c).drain = s.drain ∧ (s.stepFatal c).unpick = s.unpick := by
  rw [State.stepFatal, if_pos h]
  split <;> exact ⟨rfl, rfl⟩

/-- A FLUSH requested abandons the open step, or holds the abandonment when this module has sent its verdict. -/
theorem hostFlush_flushing {s : State} (h : s.drain ≠ 2) : Flushing s s.hostFlush := by
  rw [State.hostFlush, if_neg h]
  by_cases ho : s.stepOpen = true
  · rw [if_pos ho]
    by_cases hv : s.verdictSent = true
    · obtain ⟨hdrain, hunpick⟩ := stepFatal_of_verdict 0 hv
      exact startFlush_flushing h hdrain hunpick fun _ hv' => absurd (hv.symm.trans hv') (by decide)
    · rw [State.stepFatal, if_neg hv]
      have hfirst : Flushing s (s.abandonStep 0).startFlush := startFlush_flushing h (drain_abandonStep s 0)
        (s.abandonStep_only 0 .unpick (by simp)) fun _ _ => phase_abandonStep 0 ho
      rw [startFlush_of_flush hfirst.drain]
      exact hfirst
  · rw [if_neg ho]
    exact startFlush_flushing h rfl rfl fun ho' => absurd ho' ho

/-! ### The end of a FLUSH (spec/06_progress_deadlock_drain.md R210, Tables 6.4 and 6.5) -/

/-- The registers of a tile after a FLUSH. -/
def Tile.flushedRegs (x : Tile) : RegFile :=
  let regs := (List.range 16).foldl (fun rf r => rfSet (rfSet rf (T.RING_STAT_HEAD r) 0) (T.RING_STAT_TAIL r) 0) x.regs
  rfSet ([T.TILE_DL_DL0, T.TILE_DL_DL1, T.TILE_DL_DL2, T.TILE_DL_DL3, T.TILE_STATUS_STATE].foldl
    (fun rf f => rfSet rf f 0) regs) T.TILE_STATUS_PC x.base

theorem Tile.flushed_regs (x : Tile) : x.flushed.regs = x.flushedRegs := by
  unfold Tile.flushed Tile.flushedRegs
  with_reducible rfl

/-- What a FLUSH takes out of a tile. -/
theorem Tile.flushed_emptied (x : Tile) : x.flushed.queues = [] ∧ x.flushed.loops = [] ∧ x.flushed.entries = []
    ∧ x.flushed.outst = [] ∧ x.flushed.get T.TILE_STATUS_STATE = 0 := by
  have hstate : x.flushed.get T.TILE_STATUS_STATE = 0 := by
    rw [Tile.get, Tile.flushed_regs, Tile.flushedRegs]
    simp only [List.foldl_cons, List.foldl_nil]
    rw [rfGet_rfSet_other _ _ _ _ (by decide), rfGet_rfSet_same, Nat.zero_mod]
  refine ⟨?_, ?_, ?_, ?_, hstate⟩ <;> (unfold Tile.flushed; with_reducible rfl)

/-- What a FLUSH leaves of a tile. -/
theorem Tile.flushed_kept (x : Tile) : x.flushed.acc = x.acc ∧ x.flushed.spad = x.spad ∧ x.flushed.imem = x.imem
    ∧ x.flushed.pend = x.pend := by
  refine ⟨?_, ?_, ?_, ?_⟩ <;> (unfold Tile.flushed; with_reducible rfl)

/-- No tile has received GO for its pending generation. -/
def State.NoGo (s : State) : Prop := ∀ t p, (s.tile t).pend = some p → p.go = false

theorem noGo_of_tiles {s : State} (h : ∀ e ∈ s.tiles, ∀ p, e.2.pend = some p → p.go = false) : s.NoGo := by
  intro t p hp
  rw [State.tile, kvGet] at hp
  cases hx : kvGet? s.tiles t with
  | none =>
    rw [hx] at hp
    cases hp
  | some x =>
    rw [hx] at hp
    exact h (t, x) (mem_of_kvGet? hx) p hp

/-- Without GO no tile switches at the end of a FLUSH. -/
theorem flushSwitch_of_noGo {s : State} (h : s.NoGo) : s.flushSwitch = s := by
  have hstays (t : Nat) : s.canSwitch t = false := by
    rw [State.canSwitch, Option.any_eq_false]
    intro p hp
    simp [h t p hp]
  refine List.foldl_fixed' (fun e => ?_) s.tiles
  split
  · rw [hstays, if_neg Bool.false_ne_true]
  · rfl

/-- The unpick controller at the end of a FLUSH: no record is kept or on its way. -/
def Unpick.emptied (u : Unpick) : Unpick :=
  { u with chains := [], pages := [], refills := [], arrived := [], due := [], notices := [] }

/-- The state when a FLUSH has discarded what was in flight. -/
def State.flushedOut (s : State) : State :=
  (((s.flushUnits.mapTiles Tile.flushed).onUnpick Unpick.emptied).set R.UNP_STATUS_DRAIN 3).bump R.FLUSHES 1

theorem flushUnits_only (s : State) : Only [.net, .lane, .fab, .tape, .press, .seam] s s.flushUnits := by
  intro p hp
  cases p <;> simp_all [Part.Same, State.flushUnits]

theorem flushedOut_only (s : State) :
    Only [.bar, .tiles, .net, .fab, .lane, .unpick, .press, .seam, .tape] s s.flushedOut :=
  ((flushUnits_only s).mono (by simp)).trans (((mapTiles_only _ _).mono (by simp)).trans
    (((onUnpick_only _ _).mono (by simp)).trans (((State.set_only _ _ _).mono (by simp)).trans
      ((State.bump_only _ _ _).mono (by simp)))))

theorem flushedOut_drain (s : State) : s.flushedOut.drain = 3 :=
  (drain_bump _ 1 (by decide)).trans (drain_set _ (by decide))

/-- A tile of the state flushed: the tile flushed, or one that the table does not list. -/
theorem flushedOut_tile (s : State) (t : Nat) :
    s.flushedOut.tile t = (s.tile t).flushed ∨ (s.flushedOut.tile t = {} ∧ s.tile t = {}) :=
  tile_mapTiles_cases s.flushUnits Tile.flushed t

/-- What a FLUSH leaves of each tile is what it was. -/
theorem flushedOut_kept (s : State) (t : Nat) : (s.flushedOut.tile t).acc = (s.tile t).acc
    ∧ (s.flushedOut.tile t).spad = (s.tile t).spad ∧ (s.flushedOut.tile t).imem = (s.tile t).imem
    ∧ (s.flushedOut.tile t).pend = (s.tile t).pend := by
  rcases flushedOut_tile s t with ht | ⟨ht, hs⟩
  · rw [ht]
    exact (s.tile t).flushed_kept
  · rw [ht, hs]
    exact ⟨rfl, rfl, rfl, rfl⟩

theorem flushedOut_emptied (s : State) (t : Nat) : (s.flushedOut.tile t).queues = [] ∧ (s.flushedOut.tile t).loops = []
    ∧ (s.flushedOut.tile t).entries = [] ∧ (s.flushedOut.tile t).outst = []
    ∧ (s.flushedOut.tile t).get T.TILE_STATUS_STATE = 0 := by
  rcases flushedOut_tile s t with ht | ⟨ht, -⟩
  · rw [ht]
    exact (s.tile t).flushed_emptied
  · rw [ht]
    exact ⟨rfl, rfl, rfl, rfl, by decide⟩

theorem flushedOut_noGo {s : State} (h : s.NoGo) : s.flushedOut.NoGo := fun t p hp =>
  h t p ((flushedOut_kept s t).2.2.2.symm.trans hp)

/-- Without GO a FLUSH ends with everything in flight discarded and the commands that wait answered. -/
theorem exec_flushDone {s : State} (hs : s.halts = false) (hd : s.drain = 2) (h : s.NoGo) :
    exec .flushDone s = .next s.dropBasted.flushedOut.drainedReplies := by
  have hgo : s.dropBasted.NoGo := fun t p hp => h t p (((dropBasted_sameFabric s).pend t).symm.trans hp)
  have hswitch := flushSwitch_of_noGo (flushedOut_noGo hgo)
  have hif : ¬(s.halts || decide (s.drain ≠ 2)) = true := by
    rw [hs, hd]
    decide
  have hrun : exec .flushDone s = go s.dropBasted.flushedOut.flushSwitch.drainedReplies := if_neg hif
  rw [hrun, hswitch]

theorem dropBasted_of_none {s : State} (h : s.mem.heldReqs = []) : s.dropBasted = s := by
  rw [State.dropBasted, h]
  rfl

theorem exec_unpFlushDeadline {s : State} (hs : s.safe = false) (hd : s.drain = 2) :
    exec .unpFlushDeadline s = .next (s.raise Code.UNP_FLUSH_DEADLINE 0xC32 0 0) := by
  change execUnpFlushDeadline s = _
  simp [execUnpFlushDeadline, hs, hd]

/-! ### RESUME (spec/06_progress_deadlock_drain.md R212) -/

/-- The fabric that runs again: the tiles resumed, the inputs started. -/
def State.restarted (s : State) : State :=
  ((s.mapTiles Tile.resumed).set R.UNP_STATUS_DRAIN 0).onUnpick fun u => { u with
    stopped := false, flushed := false, sent := [], spent := [] }

theorem restarted_only (s : State) : Only [.bar, .tiles, .unpick] s s.restarted :=
  ((mapTiles_only s _).mono (by simp)).trans (((State.set_only _ _ _).mono (by simp)).trans
    ((onUnpick_only _ _).mono (by simp)))

theorem exec_resume {s : State} {tag : Nat} {c : Cmd} (hs : s.safe = false) (hc : s.cmdFor tag Op.RESUME = some c) :
    exec (.resume tag) s = .next (
      if s.drain ≠ 3 then (s.takeCmd c).refuseTag c Code.TAPE_STATE 0 else (s.takeCmd c).restarted.done c []) := by
  change execResume tag s = _
  rw [execResume, withCmd_of_cmdFor hs hc]
  rfl

/-- A halted tile with a program starts at its base. -/
theorem Tile.resumed_starts {x : Tile} (hst : x.get T.TILE_STATUS_STATE = 0) (hc : 0 < x.count) : x.resumed
    = (({ x with tripped := [], halted := false, past := false, loops := [] } : Tile).set T.TILE_STATUS_PC x.base).set
        T.TILE_STATUS_STATE 1 := by
  have hif : (decide (x.get T.TILE_STATUS_STATE = 0) && decide (0 < x.count)) = true := by
    rw [hst, decide_eq_true hc]
    decide
  exact if_pos hif

theorem Tile.resumed_stays {x : Tile} (h : x.get T.TILE_STATUS_STATE ≠ 0 ∨ x.count = 0) :
    x.resumed = { x with tripped := [] } := by
  have hif : ¬(decide (x.get T.TILE_STATUS_STATE = 0) && decide (0 < x.count)) = true := by
    rw [Bool.and_eq_true, decide_eq_true_iff, decide_eq_true_iff]
    omega
  exact if_neg hif

/-! ### The obligation -/

/-- Settles O18: each command is one equation. The requests that a FLUSH drops leave the pending generation of every tile,
so that without GO the FLUSH ends with every tile flushed and none switched. -/
theorem drainsQuiesceFlushAndResume : Obligations.DrainsQuiesceFlushAndResume := by
  refine ⟨fun tag c s hs hc hp => ?quiesce, fun s hs hd ho => exec_quiesceStopInputs hs hd ho, fun s hs hd hst => ?round,
    fun s hs hd => exec_unpDrainDeadline hs hd, fun s hd => ?start, fun tag c s hs hc hp => ?flush,
    fun s hs hd hgo => ?flushDone, fun s hs hd => exec_unpFlushDeadline hs hd, fun tag c s hs hc => ?resume,
    fun x hst hc hb => ?starts, fun x h => Tile.resumed_stays h⟩
  case quiesce =>
    intro t w
    rw [exec_drainQuiesce hs hc hp]
    refine ⟨fun h => congrArg go (if_pos h), fun h => congrArg go ?_, fun h => congrArg go ?_⟩
    · rw [if_neg (by omega), if_pos h]
      rfl
    · rw [if_neg (by omega), if_neg (by omega)]
      rfl
  case round =>
    rw [exec_quiesceProbeRound hs hd hst]
    have htile := tile_mapTiles s (f := Tile.clearMoved) rfl
    refine ⟨fun h => ⟨_, congrArg go (if_neg (by simp [h])), mapTiles_only s _, htile⟩,
      fun h => ⟨_, congrArg go (if_pos h), ?_, ?_, ?_, ?_, fun t => ?_⟩⟩
    · exact ((mapTiles_only s _).mono (by simp)).trans (((State.set_only _ _ _).mono (by simp)).trans
        (((State.bump_only _ _ _).mono (by simp)).trans ((drainedReplies_only _).mono (by simp))))
    · rw [drain_drainedReplies, drain_bump _ _ (by decide), drain_set _ (by decide)]
    · rw [drainedReplies_unpick]
    · rw [drainedReplies_unpick]
      exact hst
    · rw [tile_of_only (drainedReplies_only _) (by simp)]
      exact htile t
  case start =>
    obtain ⟨hdrain, hstop, hflush, -⟩ := startFlush_starts hd
    exact ⟨hdrain, hstop, hflush, (State.startFlush_only s).mono (by simp), fun k => Prod.mk.inj (startFlush_runs hd k)⟩
  case flush =>
    intro t w
    have hrun : exec (.drainFlush tag) s = .next w.hostFlush := by
      change execDrainFlush tag s = _
      rw [execDrainFlush, withDrain_of_cmdFor hs hc hp]
      rfl
    rw [hrun]
    refine ⟨fun h => congrArg go (if_pos h), fun h => ?_⟩
    have hw : Flushing w w.hostFlush := hostFlush_flushing h
    refine ⟨_, rfl, hw.drain, hw.stopped, hw.flushed, ?_, hw.phase, fun k => Prod.mk.inj (hw.runs k)⟩
    rw [hw.tags]
    exact List.mem_append_right _ List.mem_cons_self
  case flushDone =>
    have hgo := noGo_of_tiles hgo
    refine ⟨_, exec_flushDone hs hd hgo, ?_⟩
    have hkeep := drainedReplies_only s.dropBasted.flushedOut
    have htile := tile_of_only hkeep (by simp)
    have hunpick := drainedReplies_unpick s.dropBasted.flushedOut
    refine ⟨(drain_drainedReplies _).trans (flushedOut_drain _), hkeep .net (by simp), hkeep .lane (by simp),
      by rw [hunpick]; rfl, by rw [hunpick]; rfl, by rw [hunpick]; rfl, by rw [hunpick]; rfl, by rw [hunpick]; rfl, ?_,
      by rw [hunpick], fun t => htile t ▸ flushedOut_emptied _ t, fun hheld => ?_⟩
    · refine (hkeep .fab (by simp)).trans ?_
      rw [← (dropBasted_sameFabric s).fab]
      rfl
    · rw [dropBasted_of_none hheld] at hkeep htile ⊢
      refine ⟨(flushedOut_only s).trans (hkeep.mono (by simp)), fun t => ?_⟩
      obtain ⟨hacc, hspad, himem, -⟩ := flushedOut_kept s t
      rw [htile t]
      exact ⟨hacc, hspad, himem⟩
  case resume =>
    intro t
    rw [exec_resume hs hc]
    refine ⟨fun h => congrArg go (if_pos h), fun h => ⟨_, congrArg go (if_neg (not_not.2 h)), ?_, ?_, ?_, fun k => ?_, ?_⟩⟩
    · exact (drain_reply _ _ _ _ _ _).trans (drain_set _ (by decide))
    · rw [show State.unpick (State.done _ c []) = _ from State.done_only _ c [] .unpick (by simp)]
      rfl
    · rw [show State.unpick (State.done _ c []) = _ from State.done_only _ c [] .unpick (by simp)]
      rfl
    · rw [tile_of_only (State.done_only _ c []) (by simp)]
      exact tile_mapTiles t (f := Tile.resumed) rfl k
    · exact ((s.takeCmd_only c).mono (by simp)).trans (((restarted_only _).mono (by simp)).trans
        ((State.done_only _ c []).mono (by simp)))
  case starts =>
    rw [Tile.resumed_starts hst hc]
    refine ⟨Tile.get_set_same _ _ _, ?_, rfl, rfl⟩
    rw [Tile.get_set_other _ _ (by decide), Tile.get_set_same]
    exact Nat.mod_eq_of_lt hb

end Sys2Proof.Machine
end

section
/-! PROOFS. What the press units read and write in memory without errors: a read uses everything and changes no data, a
write puts down all its bytes (spec/07_training_step_and_press.md R244 to R246, spec/08_memory_system.md R263 to R266). -/

namespace Sys2Proof.Machine

/-! ### The bytes written under an extent table -/

/-- The key under which an extent table keeps the byte of a fabric address. -/
def keyAt (l : List Extent) (a : Nat) : Option Nat :=
  if a < lpEnd then storOf l a else if a < lnEnd then some a else none

theorem memKey_eq (s : State) (a : Nat) : s.memKey a = keyAt s.mem.exts a := rfl

theorem rdN_congr {s t : State} (hd : t.mem.data = s.mem.data) (hx : t.mem.exts = s.mem.exts) (a n : Nat) :
    t.rdN a n = s.rdN a n := by
  unfold State.rdN
  rw [hd]
  refine List.map_congr_left fun k _ => ?_
  rw [memKey_eq, memKey_eq, hx]

/-- A memory with bytes written at fabric addresses under an extent table. -/
def wrBytes (l : List Extent) (m : Memory) (a : Nat) (b : List Byte) : Memory :=
  MemSys.wrKeys m (((List.range b.length).map fun k => keyAt l (a + k)).zip b)

theorem wrN_data (s : State) (a : Nat) (b : List Byte) : (s.wrN a b).mem.data = wrBytes s.mem.exts s.mem.data a b := rfl

theorem wrKeys_append (m : Memory) (l k : List (Option Nat × Byte)) :
    MemSys.wrKeys m (l ++ k) = MemSys.wrKeys (MemSys.wrKeys m l) k := by
  induction l generalizing m with
  | nil => rfl
  | cons x l ih =>
    obtain ⟨key, b⟩ := x
    cases key with
    | none => exact ih m
    | some key => exact ih _

/-- Bytes written in two parts, the second behind the first. -/
theorem wrBytes_append (l : List Extent) (m : Memory) (a : Nat) (b c : List Byte) :
    wrBytes l m a (b ++ c) = wrBytes l (wrBytes l m a b) (a + b.length) c := by
  rw [wrBytes, List.length_append, List.range_add, List.map_append, List.zip_append (by simp), wrKeys_append, List.map_map]
  simp only [wrBytes, Function.comp_def, Nat.add_assoc]

/-- A memory with the bytes `b` of a range that begins at `base` written run by run. -/
def wrRuns (l : List Extent) (base : Nat) (b : List Byte) (m : Memory) (rs : List (Nat × Nat)) : Memory :=
  rs.foldl (fun m r => wrBytes l m r.1 ((b.drop (r.1 - base)).take r.2)) m

/-- A storage byte lies in an extent, within the data bytes of its granule. -/
theorem extOf_of_storOf {l : List Extent} {a x : Nat} (h : storOf l a = some x) :
    ∃ e, extOf l a = some e ∧ x % 256 < dataPer e.cls := by
  simp only [storOf] at h
  split at h
  · cases h
  · rename_i e he
    split at h
    · cases h
    · cases h
      have hper : 0 < dataPer e.cls ∧ dataPer e.cls ≤ 256 := by
        unfold dataPer
        split <;> decide
      refine ⟨e, he, ?_⟩
      rw [Nat.mul_add_mod_self_right, Nat.mod_eq_of_lt ((Nat.mod_lt _ hper.1).trans_le hper.2)]
      exact Nat.mod_lt _ hper.1

/-- The first run of a range that begins with a byte of data: it is not empty, and the others follow it. -/
theorem runsOf_succ {l : List Extent} {k a n : Nat} (hn : n ≠ 0) (ha : (keyAt l a).isSome = true) :
    ∃ m, 0 < m ∧ m ≤ n ∧ runsOf l (k + 1) a n = (a, m) :: runsOf l k (a + m) (n - m) := by
  have hwithin {c x : Nat} (hx : x < c) : 0 < min n (c - x) ∧ min n (c - x) ≤ n := by omega
  rw [runsOf, if_neg hn]
  unfold keyAt at ha
  by_cases hlp : a < lpEnd
  · rw [if_pos hlp] at ha ⊢
    obtain ⟨x, hx⟩ := Option.isSome_iff_exists.1 ha
    obtain ⟨e, he, hlt⟩ := extOf_of_storOf hx
    obtain ⟨h0, hle⟩ := hwithin hlt
    rw [he, hx]
    exact ⟨_, h0, hle, rfl⟩
  · rw [if_neg hlp] at ha ⊢
    by_cases hln : a < lnEnd
    · rw [if_pos hln]
      obtain ⟨h0, hle⟩ := hwithin (Nat.mod_lt a (show 0x100000 > 0 by decide))
      exact ⟨_, h0, hle, rfl⟩
    · rw [if_neg hln] at ha
      cases ha

/-- A range of data is written by its runs as a whole. -/
theorem wrRuns_runsOf {l : List Extent} {base : Nat} {b : List Byte}
    (hb : ∀ k, k < b.length → (keyAt l (base + k)).isSome = true) {k n o : Nat} (hk : n ≤ k) (ho : o + n = b.length) (m : Memory) :
    wrRuns l base b m (runsOf l k (base + o) n) = wrBytes l m (base + o) (b.drop o) := by
  induction k generalizing n o m with
  | zero =>
    rw [List.drop_of_length_le (by omega)]
    rfl
  | succ k ih =>
    by_cases hn : n = 0
    · rw [runsOf, if_pos hn, List.drop_of_length_le (by omega)]
      rfl
    · obtain ⟨c, h0, hle, hruns⟩ := runsOf_succ (k := k) hn (hb o (by omega))
      have hlen : ((b.drop o).take c).length = c := by
        rw [List.length_take, List.length_drop]
        omega
      have hrest := ih (n := n - c) (o := o + c) (by omega) (by omega) (wrBytes l m (base + o) ((b.drop o).take c))
      have hcut := wrBytes_append l m (base + o) ((b.drop o).take c) ((b.drop o).drop c)
      rw [List.take_append_drop, hlen, List.drop_drop, Nat.add_assoc] at hcut
      rw [hruns, hcut, ← hrest, Nat.add_assoc, wrRuns, List.foldl_cons, Nat.add_sub_cancel_left]
      rfl

/-! ### Memory without errors -/

/-- A state whose memory holds no error and no poisoned granule. -/
structure Sound (s : State) : Prop where
  errs : s.mem.errs = []
  poison : s.mem.poison = []

/-- A state reached from another by using its memory where that is sound: its data are `m`. -/
structure Wrote (s : State) (m : Memory) (t : State) : Prop where
  data : t.mem.data = m
  exts : t.mem.exts = s.mem.exts
  sound : Sound t
  only : Only [.bar, .mem] s t

theorem mem_only (s : State) (m : MemSys) : Only [.mem] s { s with mem := m } := by
  intro p hp
  cases p <;> simp_all [Part.Same]

namespace Wrote

variable {s t u : State} {m n : Memory}

theorem refl (h : Sound s) : Wrote s s.mem.data s := ⟨rfl, rfl, h, .refl _ s⟩

theorem trans (h : Wrote s m t) (g : Wrote t n u) : Wrote s n u :=
  ⟨g.data, g.exts.trans h.exts, g.sound, h.only.trans g.only⟩

/-- A change of the memory system that keeps data and extents, and leaves no error. -/
theorem of_mem {x : MemSys} (hd : x.data = m) (hx : x.exts = s.mem.exts) (he : x.errs = []) (hp : x.poison = []) :
    Wrote s m { s with mem := x } := ⟨hd, hx, ⟨he, hp⟩, (mem_only s x).mono (by simp)⟩

theorem bump (h : Wrote s m t) (f : Fld) (n : Nat) : Wrote s m (t.bump f n) :=
  ⟨h.data, h.exts, ⟨h.sound.errs, h.sound.poison⟩, h.only.trans ((t.bump_only f n).mono (by simp))⟩

theorem addCnt (h : Wrote s m t) (k : Nat) (c : Cnt) : Wrote s m (t.addCnt k c) :=
  (((h.bump _ _).bump _ _).bump _ _).bump _ _

/-- Data reads the same while nothing is written. -/
theorem rdN (h : Wrote s s.mem.data t) (a n : Nat) : t.rdN a n = s.rdN a n := rdN_congr h.data h.exts a n

end Wrote

namespace Sound

variable {s : State}

theorem checkGran (h : Sound s) (g : Nat) (r : Reader) : s.checkGran g .ok r = (s, true) := by
  rw [State.checkGran, h.poison, h.errs]
  rfl

theorem checkLn (h : Sound s) (a n : Nat) (r : Reader) : s.checkLn a .ok r n = (s, true) := by
  induction n generalizing a with
  | zero => rfl
  | succ n ih =>
    rw [State.checkLn, h.errs]
    exact ih _

theorem checkAt (h : Sound s) (a n : Nat) (r : Reader) : s.checkAt a n .ok r = (s, true) := by
  unfold State.checkAt
  split
  · split
    · exact h.checkGran _ r
    · rfl
  · exact h.checkLn _ _ r

theorem checkEdges (h : Sound s) (a n : Nat) (r : Reader) : s.checkEdges a n .ok r = (s, true) := by
  unfold State.checkEdges
  simp only [h.checkLn, ite_self, Bool.not_true, Bool.false_eq_true]

/-- A lookup in the lining cache changes its lines and counts only. -/
theorem touchAt (h : Sound s) (a : Nat) (w x : Bool) : Wrote s s.mem.data (s.touchAt a w x) := by
  have hlines (l : List Line) : Wrote s s.mem.data { s with mem := { s.mem with lines := l } } :=
    .of_mem rfl rfl h.errs h.poison
  unfold State.touchAt
  split
  · unfold State.cacheTouch
    extract_lets mc gs m put
    split
    · split
      · exact (hlines _).bump _ _
      · exact hlines _
    · split
      · exact .refl h
      · split
        · exact (Wrote.refl h).bump _ _
        · exact (hlines _).bump _ _
  · exact .refl h

/-! ### Reads -/

theorem loadRuns (h : Sound s) (x : Bool) (r : Reader) (l : List (Nat × Nat)) :
    Wrote s s.mem.data (s.loadRuns x r l .ok).1 ∧ (s.loadRuns x r l .ok).2 = none := by
  induction l generalizing s with
  | nil => exact ⟨.refl h, rfl⟩
  | cons p l ih =>
    have hrun : s.loadRun p.1 p.2 x .ok r = (s.touchAt p.1 false x, true) := by
      rw [State.loadRun, h.checkAt]
    have htouch := h.touchAt p.1 false x
    obtain ⟨hw, hnone⟩ := ih htouch.sound
    rw [htouch.data] at hw
    rw [State.loadRuns, hrun]
    exact ⟨htouch.trans hw, hnone⟩

/-- What an engine reads it may use, and it changes no data. -/
theorem engCheck (h : Sound s) (l : List (Nat × Nat)) :
    Wrote s s.mem.data (s.engCheck l).1 ∧ (s.engCheck l).2 = true := by
  unfold State.engCheck
  induction l generalizing s with
  | nil => exact ⟨.refl h, rfl⟩
  | cons p l ih =>
    obtain ⟨hload, hnone⟩ := h.loadRuns false .fabric (s.runs p.1 p.2)
    obtain ⟨hw, htrue⟩ := ih hload.sound
    rw [hload.data] at hw
    rw [State.engRead, State.load, hnone]
    exact ⟨hload.trans hw, htrue⟩

/-! ### Writes -/

theorem wrN (h : Sound s) (a : Nat) (b : List Byte) : Wrote s (wrBytes s.mem.exts s.mem.data a b) (s.wrN a b) :=
  .of_mem rfl rfl h.errs h.poison

theorem storeRun (h : Sound s) (a : Nat) (b : List Byte) (x : Bool) (r : Reader) :
    Wrote s (wrBytes s.mem.exts s.mem.data a b) (s.storeRun a b x .ok r).1 := by
  have hput {t : State} (ht : Wrote s s.mem.data t) : Wrote s (wrBytes s.mem.exts s.mem.data a b) (t.wrN a b) := by
    have hw := ht.sound.wrN a b
    rw [ht.data, ht.exts] at hw
    exact ht.trans hw
  have htouch {t : State} (ht : Wrote s s.mem.data t) : Wrote s s.mem.data (t.touchAt a true x) := by
    have hw := ht.sound.touchAt a true x
    rw [ht.data] at hw
    exact ht.trans hw
  unfold State.storeRun
  dsimp only
  split
  · split
    · exact hput (htouch (.of_mem rfl rfl (by rw [h.errs]; rfl) (by rw [h.poison]; rfl)))
    · rw [h.checkAt]
      exact hput (htouch (.refl h))
  · rw [h.checkEdges]
    exact hput (.of_mem rfl rfl (by rw [h.errs]; rfl) h.poison)

theorem storeRuns (h : Sound s) (base : Nat) (b : List Byte) (x : Bool) (r : Reader) (l : List (Nat × Nat)) :
    Wrote s (wrRuns s.mem.exts base b s.mem.data l) (s.storeRuns base b x r l).1 := by
  induction l generalizing s with
  | nil => exact .refl h
  | cons p l ih =>
    have hrun := h.storeRun p.1 ((b.drop (p.1 - base)).take p.2) x r
    have hrest := ih hrun.sound
    rw [hrun.data, hrun.exts] at hrest
    exact hrun.trans hrest

/-- A write puts down its runs. -/
theorem put (h : Sound s) (a : Nat) (b : List Byte) :
    Wrote s (wrRuns s.mem.exts a b s.mem.data (s.runs a b.length)) (s.put a b) := h.storeRuns _ _ _ _ _

/-- A write of data addresses puts down all its bytes. -/
theorem put_all (h : Sound s) {a : Nat} {b : List Byte} (hb : ∀ k, k < b.length → (s.memKey (a + k)).isSome = true) :
    Wrote s (s.wrN a b).mem.data (s.put a b) := by
  have hall := wrRuns_runsOf (l := s.mem.exts) hb (o := 0) le_rfl (Nat.zero_add _) s.mem.data
  have hw := h.put a b
  rw [Nat.add_zero, List.drop_zero] at hall
  rw [State.runs, hall, ← wrN_data] at hw
  exact hw

end Sound

/-- A write into either of two sound states with the same extents and data leaves the same data. -/
theorem Wrote.put_data {s t u : State} {m : Memory} (h : Wrote s m t) (g : Wrote s m u) (a : Nat) (b : List Byte) :
    ∃ n, Wrote s n (t.put a b) ∧ Wrote s n (u.put a b) := by
  have ht := h.trans (h.sound.put a b)
  have hu := g.trans (g.sound.put a b)
  rw [State.runs, h.exts, h.data] at ht
  rw [State.runs, g.exts, g.data] at hu
  exact ⟨_, ht, hu⟩

end Sys2Proof.Machine
end

section
/-! PROOFS. The norm, the verdict, the sweep and the audit of a training step (spec/07_training_step_and_press.md R222, R228,
R235 to R246, Table 7.6). -/

namespace Sys2Proof.Machine

/-! ### Records that have changed (spec/07_training_step_and_press.md R228) -/

section

variable {s : State}

theorem withRecs_of_changed {g : Nat} (h : (List.range s.gtCount).find? s.recBad = some g) (unit : Nat)
    (f : State → State) : s.withRecs unit f = s.recFault unit g := by rw [State.withRecs, h]

theorem withRecs_of_same (h : ∀ g, g < s.gtCount → s.recBad g = false) (unit : Nat) (f : State → State) :
    s.withRecs unit f = f s := by
  have hnone : (List.range s.gtCount).find? s.recBad = none :=
    List.find?_eq_none.2 fun g hg => by rw [h g (List.mem_range.1 hg)]; decide
  rw [State.withRecs, hnone]

/-- Before the verdict a changed record is step-fatal, after it module-fatal. -/
theorem recFault_of_open (h : s.stepOpen = true) (unit g : Nat) :
    s.recFault unit g = s.raiseAs .stepFatal false Code.PRS_RECORD_CHANGED unit g 0 := by rw [State.recFault, if_pos h]

theorem recFault_of_not_open (h : s.stepOpen = false) (unit g : Nat) :
    s.recFault unit g = s.raiseAs .moduleFatal false Code.PRS_RECORD_CHANGED unit g 0 := by
  rw [State.recFault, h, if_neg Bool.false_ne_true]

theorem stepOpen_of_phase {k : Nat} (h : s.phase = k) : s.stepOpen = inRange 1 3 k := by rw [State.stepOpen, h]

end

/-! ### One equation per command -/

section

variable {s : State} {mc : Nat}

theorem exec_partialNorm (hs : s.safe = false) (hp : s.phase = 1 ∨ s.phase = 2) :
    exec .partialNorm s = .next (s.withRecs 0xC66 fun s =>
      if !s.allClosed || !s.allRed then s
      else if (s.engCheck s.normReads).2 then
        ((s.engCheck s.normReads).1.set R.PRS_STATUS_PHASE 3).normStart (s.engCheck s.normReads).1.partialNorm
      else (s.engCheck s.normReads).1) := by
  have hin : inRange 1 2 s.phase = true := by
    rcases hp with h | h <;> rw [h] <;> decide
  have hif : ¬(s.safe || !inRange 1 2 s.phase) = true := by
    rw [hs, hin]
    decide
  exact if_neg hif

theorem exec_sweepLine (hs : s.pressStopped = false) (hp : s.phase = 4) (hm : mc < 24) (g j : Nat) (e : Ecc) :
    exec (.sweepLine mc g j e) s = .next (s.withRecs (0xC00 + mc) fun s => s.sweepNext mc g j e) := by
  have hif : ¬(s.pressStopped || decide (s.phase ≠ 4) || decide (24 ≤ mc)) = true := by
    rw [hs, hp, decide_eq_false (Nat.not_le.2 hm)]
    decide
  exact if_neg hif

theorem exec_audit (hs : s.pressStopped = false) (hp : s.phase = 5) (hm : mc < 24)
    (ha : s.press.audited.contains mc = false) :
    exec (.audit mc) s = .next (s.withRecs (0xC00 + mc) fun s => s.auditUnit mc) := by
  have hif : ¬(s.pressStopped || decide (s.phase ≠ 5) || decide (24 ≤ mc) || s.press.audited.contains mc) = true := by
    rw [hs, hp, decide_eq_false (Nat.not_le.2 hm), ha]
    decide
  exact if_neg hif

end

/-! ### The verdict confirmed (spec/07_training_step_and_press.md R222, R236 to R238) -/

theorem onlyFields_trans {L : List Fld} {s t u : State} (h : OnlyFields L s t) (g : OnlyFields L t u) : OnlyFields L s u :=
  fun f hf => (g f hf).trans (h f hf)

/-- The registers that show a verdict. -/
def State.showVerdict (s : State) (v : Nat) (n2 k : W32) : State :=
  s.setAll [(R.PRS_STATUS_VERDICT, v), (R.PRS_NORM_NORM, (fsqrt n2).toNat), (R.PRS_CLIPK_K, k.toNat)]

theorem showVerdict_only (s : State) (v : Nat) (n2 k : W32) : Only [.bar] s (s.showVerdict v n2 k) := s.setAll_only _

theorem showVerdict_onlyFields (s : State) (v : Nat) (n2 k : W32) :
    OnlyFields [R.PRS_STATUS_VERDICT, R.PRS_NORM_NORM, R.PRS_CLIPK_K] s (s.showVerdict v n2 k) := by
  intro f hf
  simp only [List.map_cons, List.map_nil, List.mem_cons, List.not_mem_nil, or_false, not_or] at hf
  obtain ⟨hverdict, hnorm, hclip⟩ := hf
  rw [State.showVerdict, setAll_cons, setAll_cons, setAll_cons, setAll_nil, get_set_other _ _ hclip, get_set_other _ _ hnorm,
    get_set_other _ _ hverdict]

theorem showVerdict_gets (s : State) {v : Nat} (hv : v < 4) (n2 k : W32) :
    (s.showVerdict v n2 k).get R.PRS_STATUS_VERDICT = v ∧ (s.showVerdict v n2 k).get R.PRS_CLIPK_K = k.toNat := by
  rw [State.showVerdict, setAll_cons, setAll_cons, setAll_cons, setAll_nil]
  have hclip : R.PRS_STATUS_VERDICT.key ≠ R.PRS_CLIPK_K.key := by decide
  have hnorm : R.PRS_STATUS_VERDICT.key ≠ R.PRS_NORM_NORM.key := by decide
  refine ⟨?_, (get_set_same _ _ _).trans (Nat.mod_eq_of_lt k.isLt)⟩
  rw [get_set_other _ _ hclip, get_set_other _ _ hnorm]
  exact (get_set_same _ _ _).trans (Nat.mod_eq_of_lt hv)

/-- The state with the `STEP_OPEN` of the step answered, if its command is known. -/
def State.answerStep (s : State) (result : List Byte) : State :=
  match s.press.cmd with
  | some (tag, ep) => s.reply tag ep 1 0 result
  | none => s

theorem answerStep_only (s : State) (result : List Byte) : Only [.bar, .tape] s (s.answerStep result) := by
  unfold State.answerStep
  split
  · exact s.reply_only _ _ _ _ _
  · exact .refl _ s

theorem answerStep_onlyFields (s : State) (result : List Byte) :
    OnlyFields [R.STALE_TAG, R.CMD_REFUSED] s (s.answerStep result) := by
  unfold State.answerStep
  split
  · exact reply_onlyFields s _ _ _ _ _
  · exact fun _ _ => rfl

/-- A skipped step, before what it holds is forgotten. -/
def State.skipped (s : State) (n2 k : W32) : State :=
  (((s.showVerdict 3 n2 k).set R.PRS_STATUS_PHASE 0).bump R.STEPS_SKIPPED 1).answerStep
    (stepResult s.stepNo 3 (s.press.heldFault.getD 0) n2 k s.press.lateDrop)

theorem confirm_skip (s : State) (n2 k : W32) : s.confirm 3 n2 k = { s.skipped n2 k with
    press := (s.skipped n2 k).press.cleared
    seam := { (s.skipped n2 k).seam with insts := (s.skipped n2 k).seam.insts.filter fun i => !(i.step = s.stepNo) } } := rfl

theorem skipped_only (s : State) (n2 k : W32) : Only [.bar, .tape] s (s.skipped n2 k) :=
  ((showVerdict_only s 3 n2 k).mono (by simp)).trans (((State.set_only _ _ _).mono (by simp)).trans
    (((State.bump_only _ _ _).mono (by simp)).trans (answerStep_only _ _)))

theorem get_skipped (s : State) (n2 k : W32) {f : Fld}
    (h : f.key ∉ [R.PRS_STATUS_PHASE, R.STEPS_SKIPPED, R.STALE_TAG, R.CMD_REFUSED].map Fld.key) :
    (s.skipped n2 k).get f = (s.showVerdict 3 n2 k).get f := by
  simp only [List.map_cons, List.map_nil, List.mem_cons, List.not_mem_nil, or_false, not_or] at h
  obtain ⟨hphase, hcount, hstale, hrefused⟩ := h
  rw [State.skipped, answerStep_onlyFields _ _ f (by simp [hstale, hrefused]), get_bump_other _ _ hcount,
    get_set_other _ _ hphase]

theorem skipped_phase (s : State) (n2 k : W32) : (s.skipped n2 k).phase = 0 := by
  rw [State.phase, State.skipped, answerStep_onlyFields _ _ _ (by decide), get_bump_other _ _ (by decide)]
  exact get_set_same _ _ 0

/-- The reply that a committed step owes, added to those owed. -/
def Press.owes (p : Press) (step v : Nat) (n2 k : W32) : List StepReply :=
  match p.cmd with
  | some (tag, ep) => p.replies ++ [⟨tag, ep, step, v, n2, k, p.heldFault.getD 0, p.lateDrop, false⟩]
  | none => p.replies

/-- What the press units hold once a step has committed. -/
def Press.committed (p : Press) (step v : Nat) (n2 k : W32) : Press :=
  { p with cmd := none, replies := p.owes step v n2 k, n2 := n2, k := k, swept := [], sweptGroups := [], uw := []
           heldFault := none, lateDrop := 0 }

/-- The registers of a committed step. -/
def State.commitRegs (s : State) (v : Nat) (n2 k : W32) : State :=
  let t := ((s.showVerdict v n2 k).setAll [(R.PRS_LAST_LAST, s.stepNo), (R.PRS_STATUS_PHASE, 4)]).bump R.STEPS_COMMITTED 1
  if v = 2 then t.bump R.STEPS_CLIPPED 1 else t

/-- A step committed, with the collectives as given, its sweep not yet looked at. -/
def State.stepCommitted (s : State) (v : Nat) (n2 k : W32) (is : List Inst) : State :=
  { s.commitRegs v n2 k with press := s.press.committed s.stepNo v n2 k, seam := { s.seam with insts := is } }

theorem commitRegs_only (s : State) (v : Nat) (n2 k : W32) : Only [.bar] s (s.commitRegs v n2 k) := by
  have hregs := State.setAll_only (s.showVerdict v n2 k) [(R.PRS_LAST_LAST, s.stepNo), (R.PRS_STATUS_PHASE, 4)]
  have h := ((showVerdict_only s v n2 k).trans hregs).trans (State.bump_only _ R.STEPS_COMMITTED 1)
  unfold State.commitRegs
  dsimp only
  split
  · exact h.trans (State.bump_only _ _ _)
  · exact h

theorem get_commitRegs (s : State) (v : Nat) (n2 k : W32) {f : Fld} (hcommitted : f.key ≠ R.STEPS_COMMITTED.key)
    (hclipped : f.key ≠ R.STEPS_CLIPPED.key) : (s.commitRegs v n2 k).get f
      = (((s.showVerdict v n2 k).set R.PRS_LAST_LAST s.stepNo).set R.PRS_STATUS_PHASE 4).get f := by
  have hbump (t : State) : (if v = 2 then t.bump R.STEPS_CLIPPED 1 else t).get f = t.get f := by
    split
    · exact get_bump_other t 1 hclipped
    · rfl
  rw [State.commitRegs, hbump, get_bump_other _ _ hcommitted]
  rfl

theorem commitRegs_onlyFields (s : State) (v : Nat) (n2 k : W32) : OnlyFields [R.PRS_STATUS_VERDICT, R.PRS_NORM_NORM,
    R.PRS_CLIPK_K, R.PRS_LAST_LAST, R.PRS_STATUS_PHASE, R.STEPS_COMMITTED, R.STEPS_CLIPPED] s (s.commitRegs v n2 k) := by
  intro f hf
  simp only [List.map_cons, List.map_nil, List.mem_cons, List.not_mem_nil, or_false, not_or] at hf
  obtain ⟨hverdict, hnorm, hclip, hlast, hphase, hcommitted, hclipped⟩ := hf
  have hshown := showVerdict_onlyFields s v n2 k f (by simp [hverdict, hnorm, hclip])
  rw [get_commitRegs s v n2 k hcommitted hclipped, get_set_other _ _ hphase, get_set_other _ _ hlast, hshown]

theorem commitRegs_gets {s : State} {v : Nat} (hv : v < 4) (hstep : s.stepNo < 2 ^ 48) (n2 k : W32) :
    (s.commitRegs v n2 k).get R.PRS_LAST_LAST = s.stepNo ∧ (s.commitRegs v n2 k).get R.PRS_STATUS_VERDICT = v
      ∧ (s.commitRegs v n2 k).phase = 4 := by
  refine ⟨?_, ?_, ?_⟩
  · rw [get_commitRegs s v n2 k (by decide) (by decide), get_set_other _ _ (by decide)]
    exact (get_set_same _ _ _).trans (Nat.mod_eq_of_lt hstep)
  · rw [get_commitRegs s v n2 k (by decide) (by decide), get_set_other _ _ (by decide), get_set_other _ _ (by decide)]
    exact (showVerdict_gets s hv n2 k).1
  · exact (get_commitRegs s v n2 k (by decide) (by decide)).trans (get_set_same _ _ 4)

/-- Without a collective of the step its commit starts no return, and the sweep is looked at at once. -/
theorem confirm_commit {s : State} {v : Nat} (hv : v ≠ 3) (hi : ∀ i ∈ s.seam.insts, i.step ≠ s.stepNo) (n2 k : W32) :
    s.confirm v n2 k = ((s.stepCommitted v n2 k s.seam.insts).normRetire s.stepNo).afterSweep := by
  have hmap : s.seam.insts.map (fun i => if i.step = s.stepNo then { i with committed := true } else i) = s.seam.insts :=
    (List.map_congr_left fun i hm => if_neg (hi i hm)).trans (List.map_id _)
  have hids : (s.seam.insts.filter fun i => i.rc.kind = 1 && i.step = s.stepNo) = [] :=
    List.filter_eq_nil_iff.2 fun i hm => by simp [hi i hm]
  have hrun (t : State) (is : List Inst) (ht : t = s.stepCommitted v n2 k is)
      (his : is = s.seam.insts.map fun i => if i.step = s.stepNo then { i with committed := true } else i) :
      s.confirm v n2 k = (((((is.filter fun i => i.rc.kind = 1 && i.step = s.stepNo).map fun i => i.rc.id).foldl
        (fun t id => t.tryReturn id s.stepNo) t)).normRetire s.stepNo).afterSweep := by
    subst ht his
    unfold State.confirm State.stepCommitted State.commitRegs
    by_cases hc : v = 2
    · subst hc
      rfl
    · simp only [if_neg hv, if_neg hc]
      rfl
  rw [hrun _ _ rfl hmap.symm, hids]
  rfl

/-- The audit begun. -/
def State.auditBegun (s : State) : State := { s.set R.PRS_STATUS_PHASE 5 with press := { s.press with audited := [] } }

/-- With the records as they were a sweep goes on, or the audit begins. -/
theorem afterSweep_cases {s : State} (h : ∀ g, g < s.gtCount → s.recBad g = false) :
    s.afterSweep = s ∨ s.afterSweep = s.auditBegun := by
  unfold State.afterSweep
  split
  · exact .inl rfl
  · rw [withRecs_of_same h]
    split
    · exact .inr rfl
    · exact .inl rfl

theorem normRetire_only (s : State) (step : Nat) : Only [.seam] s (s.normRetire step) := by
  unfold State.normRetire
  split
  · exact .refl _ s
  · exact seam_only s _

/-- A record depends on the base of the table, on memory and on the checksums taken. -/
theorem grpChanged_congr {s t : State} (hb : t.get R.PRS_GT_BASE_GT_BASE = s.get R.PRS_GT_BASE_GT_BASE) (hm : t.mem = s.mem)
    (hc : t.press.crcs = s.press.crcs) (g : Nat) : t.grpChanged g = s.grpChanged g := by
  rw [State.grpChanged, State.grpChanged, State.grp, State.grp, State.grpAddr, State.grpAddr, hb, hc,
    rdN_congr (congrArg MemSys.data hm) (congrArg MemSys.exts hm)]

theorem recBad_of_same {s : State} {g : Nat} (h : s.grpChanged g = false) : s.recBad g = false := by
  rw [State.recBad, h, Bool.and_false]

/-! ### The sweep of a line (spec/07_training_step_and_press.md R239, R244, R245) -/

theorem Wrote.putWork {s t : State} {m : Memory} (h : Wrote s m t) (r : GRec) (j : Nat) (x : List Byte × List Byte × Cnt)
    (mc : Nat) : ∃ n, Wrote s n (t.putWork r j x mc) := by
  have h1 := h.trans (h.sound.put (r.workAt j) x.1)
  exact ⟨_, (h1.trans (h1.sound.put (r.workSclAt j) x.2.1)).addCnt _ _⟩

/-- A line of a working copy written into either of two sound states with the same extents and data. -/
theorem Wrote.putWork_data {s t u : State} {m : Memory} (h : Wrote s m t) (g : Wrote s m u) (r : GRec) (j : Nat)
    (x : List Byte × List Byte × Cnt) (mc : Nat) :
    ∃ n, Wrote s n (t.putWork r j x mc) ∧ Wrote s n (u.putWork r j x mc) := by
  obtain ⟨_, h1, g1⟩ := h.put_data g (r.workAt j) x.1
  obtain ⟨_, h2, g2⟩ := h1.put_data g1 (r.workSclAt j) x.2.1
  exact ⟨_, h2.addCnt _ _, g2.addCnt _ _⟩

theorem Wrote.put_if {s t : State} {m : Memory} (h : Wrote s m t) (c : Bool) (a : Nat) (b : List Byte) :
    ∃ n, Wrote s n (if c then t.put a b else t) := by
  split
  · exact ⟨_, h.trans (h.sound.put a b)⟩
  · exact ⟨_, h⟩

/-- The elements of an owned line after their update. -/
def State.newElems (s : State) (g j : Nat) : List Elem :=
  List.zipWith (fun e a => (s.grp g).update ((s.grp g).t + 1) e a) (s.elems (s.grp g) j)
    ((s.gradLine g (s.grp g) j).map fun a => fmul a s.press.k)

theorem newElems_length (s : State) (g j : Nat) : (s.newElems g j).length ≤ 64 := by
  have helems : (s.elems (s.grp g) j).length = 64 := by simp [State.elems, lineElems]
  rw [State.newElems, List.length_zipWith, helems]
  exact Nat.min_le_left _ _

/-- The state with the elements of a line written: its master, its states, its working copy. -/
def State.putElems (s : State) (r : GRec) (j : Nat) (new : List Elem) (mc : Nat) : State :=
  let m1 := s.put (r.ownAt r.master j) (wordsBytes (new.map Elem.w))
  let m2 := if r.usesS1 then m1.put (r.ownAt r.s1 j) (wordsBytes (new.map Elem.s1)) else m1
  (if r.usesS2 then m2.put (r.ownAt r.s2 j) (wordsBytes (new.map Elem.s2)) else m2).putWork r j
    (derive r.wfmt (new.map Elem.w)) mc

theorem putElems_wrote {s : State} (h : Sound s) (r : GRec) (j : Nat) (new : List Elem) (mc : Nat) :
    ∃ n, Wrote s n (s.putElems r j new mc) := by
  obtain ⟨_, h1⟩ := (h.put (r.ownAt r.master j) (wordsBytes (new.map Elem.w))).put_if r.usesS1 (r.ownAt r.s1 j)
    (wordsBytes (new.map Elem.s1))
  obtain ⟨_, h2⟩ := h1.put_if r.usesS2 (r.ownAt r.s2 j) (wordsBytes (new.map Elem.s2))
  exact h2.putWork r j _ mc

/-- A line swept: its new elements written, the line noted, the sums of the update-to-weight ratio continued. -/
def State.lineSwept (s : State) (mc g j : Nat) (old new : List W32) : State :=
  { s with press := { s.press with swept := (g, mc, j) :: s.press.swept, uw := addUw s.press.uw g mc old new } }

theorem sweepLine_eq (s : State) (mc g j : Nat) : s.sweepLine mc g j
    = (s.putElems (s.grp g) j (s.newElems g j) mc).lineSwept mc g j ((s.elems (s.grp g) j).map Elem.w)
      ((s.newElems g j).map Elem.w) := rfl

theorem press_only (s : State) (p : Press) : Only [.press] s { s with press := p } := by
  intro q hq
  cases q <;> simp_all [Part.Same]

theorem lineSwept_only (s : State) (mc g j : Nat) (old new : List W32) : Only [.press] s (s.lineSwept mc g j old new) :=
  press_only s _

/-! ### The audit (spec/07_training_step_and_press.md R246, Table 7.6) -/

/-- Does a line of the working copy agree with its master? -/
def State.AuditAgrees (s : State) (r : GRec) (j : Nat) : Prop :=
  s.rdN (r.workAt j) (lineBytes r.wfmt) = (derive r.wfmt (s.masterLine r j)).1
    ∧ s.rdN (r.workSclAt j) (lineScales r.wfmt) = (derive r.wfmt (s.masterLine r j)).2.1

/-- The audit of a line in sound memory: the line is read, then counted, or derived anew with the fault raised. -/
theorem auditLine_reads {s : State} (h : Sound s) (mc g j : Nat) : ∃ t, Wrote s s.mem.data t
    ∧ (s.AuditAgrees (s.grp g) j →
      s.auditLine mc g j = t.addCnt (36 + mc) (derive (s.grp g).wfmt (s.masterLine (s.grp g) j)).2.2)
    ∧ (¬ s.AuditAgrees (s.grp g) j → s.auditLine mc g j
      = ((t.putWork (s.grp g) j (derive (s.grp g).wfmt (s.masterLine (s.grp g) j)) mc).bump R.AUDIT_MISMATCH 1).raise
        Code.PRS_DRIFT (0xC00 + mc) g 0) := by
  obtain ⟨hread, htrue⟩ := h.engCheck [((s.grp g).ownAt (s.grp g).master j, 256),
    ((s.grp g).workAt j, lineBytes (s.grp g).wfmt), ((s.grp g).workSclAt j, lineScales (s.grp g).wfmt)]
  have hcount := hread.bump R.AUDIT_LINES 1
  refine ⟨_, hcount, ?_⟩
  rw [State.auditLine, htrue]
  simp only [Bool.not_true, Bool.false_eq_true, if_false, hcount.rdN, State.masterLine, State.rdW, hread.rdN]
  exact ⟨fun ha => if_pos ha, fun ha => if_neg ha⟩

/-- The state in which a unit has audited its lines. -/
def State.unitAudited (s : State) (mc : Nat) : State :=
  let t := (s.auditLines mc).foldl (fun s x => if s.pressStopped then s else s.auditLine mc x.1 x.2) s
  { t with press := { t.press with audited := mc :: t.press.audited } }

/-- The replies owed, now that every step's audit has ended. -/
def Press.idled (p : Press) : List StepReply := p.replies.map fun r => { r with idle := true }

/-- The state with every step's audit ended. -/
def State.auditOver (s : State) : State :=
  State.set { s with press := { s.press.cleared with replies := s.press.idled } } R.PRS_STATUS_PHASE 0

theorem auditUnit_eq (s : State) (mc : Nat) : s.auditUnit mc
    = if (s.unitAudited mc).press.audited.length = 24 && (s.unitAudited mc).flt.cause.isNone then
        (s.unitAudited mc).auditOver.tryReplies
      else s.unitAudited mc := rfl

/-- The replies owed that may not yet be sent stay; no other part but registers and tape changes. -/
theorem tryReplies_spec (s : State) : OnlyFields [R.STALE_TAG, R.CMD_REFUSED] s s.tryReplies
    ∧ Only [.bar, .tape, .press] s s.tryReplies
    ∧ s.tryReplies.press = { s.press with
        replies := s.press.replies.filter fun r => !(r.idle && !s.returning r.step) } := by
  have hsent (l : List StepReply) (t : State) : OnlyFields [R.STALE_TAG, R.CMD_REFUSED] t
      (l.foldl (fun s r => s.reply r.tag r.epoch 1 0 (stepResult r.step r.verdict r.late r.n2 r.k r.drop)) t) := by
    induction l generalizing t with
    | nil => exact fun _ _ => rfl
    | cons r l ih => exact onlyFields_trans (reply_onlyFields t _ _ _ _ _) (ih _)
  have honly := Only.foldl (fun s (r : StepReply) => s.reply_only r.tag r.epoch 1 0
    (stepResult r.step r.verdict r.late r.n2 r.k r.drop)) (s.press.replies.filter fun r => r.idle && !s.returning r.step)
    { s with press := { s.press with replies := s.press.replies.filter fun r => !(r.idle && !s.returning r.step) } }
  refine ⟨fun f hf => hsent _ _ f hf, Only.trans (press_only s _ |>.mono (by simp)) (honly.mono (by simp)),
    honly .press (by simp)⟩

end Sys2Proof.Machine
end

section
/-! PROOFS. The obligation on the norm, the verdict, the sweep and the audit (spec/07_training_step_and_press.md R222, R228,
R235 to R246). -/

namespace Sys2Proof.Machine

/-! ### The clauses of the obligation -/

section

variable {s : State} {mc : Nat}

/-- An unfinished step whose records have changed is found out by the norm, the sweep or the audit. -/
theorem changed_record_is_found {g : Nat} (hg : (List.range s.gtCount).find? s.recBad = some g) :
    (s.safe = false → s.phase = 1 ∨ s.phase = 2 →
      exec .partialNorm s = .next (s.raiseAs .stepFatal false Code.PRS_RECORD_CHANGED 0xC66 g 0))
    ∧ ∀ mc, mc < 24 → s.pressStopped = false →
      (∀ h j e, s.phase = 4 → exec (.sweepLine mc h j e) s
        = .next (s.raiseAs .moduleFatal false Code.PRS_RECORD_CHANGED (0xC00 + mc) g 0))
      ∧ (s.phase = 5 → s.press.audited.contains mc = false → exec (.audit mc) s
        = .next (s.raiseAs .moduleFatal false Code.PRS_RECORD_CHANGED (0xC00 + mc) g 0)) := by
  refine ⟨fun hs hp => ?_, fun mc hm hs => ⟨fun h j e hp => ?_, fun hp ha => ?_⟩⟩
  · have hopen : s.stepOpen = true := by
      rcases hp with h | h <;> rw [stepOpen_of_phase h] <;> decide
    rw [exec_partialNorm hs hp, withRecs_of_changed hg, recFault_of_open hopen]
  · rw [exec_sweepLine hs hp hm, withRecs_of_changed hg, recFault_of_not_open ((stepOpen_of_phase hp).trans (by decide))]
  · rw [exec_audit hs hp hm ha, withRecs_of_changed hg, recFault_of_not_open ((stepOpen_of_phase hp).trans (by decide))]

theorem exec_partialNorm_ready (hs : s.safe = false) (hp : s.phase = 1 ∨ s.phase = 2) (hclosed : s.allClosed = true)
    (hred : s.allRed = true) (hr : ∀ g, g < s.gtCount → s.recBad g = false) :
    exec .partialNorm s = .next (if (s.engCheck s.normReads).2 then
        ((s.engCheck s.normReads).1.set R.PRS_STATUS_PHASE 3).normStart (s.engCheck s.normReads).1.partialNorm
      else (s.engCheck s.normReads).1) := by
  rw [exec_partialNorm hs hp, withRecs_of_same hr, hclosed, hred]
  rfl

theorem exec_sweepLine_next (hs : s.pressStopped = false) (hp : s.phase = 4) (hm : mc < 24) {g j : Nat}
    (hn : s.nextSweep mc = some (g, j)) (hr : ∀ h, h < s.gtCount → s.recBad h = false) (e : Ecc) :
    exec (.sweepLine mc g j e) s = .next (
      if (s.engRead ((s.grp g).sweepReads j) e).2 then
        let v := (s.engRead ((s.grp g).sweepReads j) e).1.sweepLine mc g j
        if v.groupLinesSwept g then ((v.endGroup g).groupSwept g).afterSweep else v
      else (s.engRead ((s.grp g).sweepReads j) e).1) := by
  rw [exec_sweepLine hs hp hm, withRecs_of_same hr, State.sweepNext, if_neg (not_not.2 hn)]
  by_cases h : (s.engRead ((s.grp g).sweepReads j) e).2 = true
  · simp only [h, Bool.not_true, Bool.false_eq_true, if_false, if_true]
  · simp only [h, Bool.not_false, Bool.false_eq_true, if_false, if_true]

/-- The branches of the decision, in their order. -/
theorem decideNorm_cases (s : State) (n2 : W32) :
    let clip : W32 := BitVec.ofNat 32 (s.get R.PRS_CLIP_NORM_CLIP_NORM)
    let skips : Prop := isFinite n2 = false ∨ (s.flag R.PRS_CFG_SKIP_EN = true
      ∧ Machine.flt (BitVec.ofNat 32 (s.get R.PRS_SKIP_NORM_SKIP_NORM)) (fsqrt n2) = true)
    let clips : Prop := s.flag R.PRS_CFG_CLIP_EN = true ∧ Machine.flt clip (fsqrt n2) = true
    (skips → s.decideNorm n2 = (3, 0)) ∧ (¬ skips → clips → s.decideNorm n2 = (2, fdiv clip (fsqrt n2)))
    ∧ (¬ skips → ¬ clips → s.decideNorm n2 = (1, 0x3F800000)) := by
  intro clip skips clips
  simp only [skips, clips, State.decideNorm, ← Bool.and_eq_true]
  cases isFinite n2
  case false => simp
  case true =>
    cases s.flag R.PRS_CFG_SKIP_EN && Machine.flt (BitVec.ofNat 32 (s.get R.PRS_SKIP_NORM_SKIP_NORM)) (fsqrt n2)
    case true => simp
    case false =>
      cases s.flag R.PRS_CFG_CLIP_EN && Machine.flt clip (fsqrt n2)
      case true => simp [clip]
      case false => simp [clip, f1]

/-- A skip leaves the step that last committed. -/
theorem confirm_skip_spec (s : State) (n2 k : W32) :
    (s.confirm 3 n2 k).phase = 0 ∧ (s.confirm 3 n2 k).get R.PRS_LAST_LAST = s.get R.PRS_LAST_LAST
      ∧ (s.confirm 3 n2 k).get R.PRS_STATUS_VERDICT = 3 ∧ (s.confirm 3 n2 k).get R.PRS_CLIPK_K = k.toNat
      ∧ (s.confirm 3 n2 k).mem = s.mem ∧ ∀ i ∈ (s.confirm 3 n2 k).seam.insts, i.step ≠ s.stepNo := by
  obtain ⟨hverdict, hclip⟩ := showVerdict_gets s (v := 3) (by decide) n2 k
  rw [confirm_skip]
  refine ⟨skipped_phase s n2 k, ?_, (get_skipped s n2 k (by decide)).trans hverdict,
    (get_skipped s n2 k (by decide)).trans hclip, skipped_only s n2 k .mem (by simp), fun i hi => ?_⟩
  · exact (get_skipped s n2 k (by decide)).trans (showVerdict_onlyFields s 3 n2 k _ (by decide))
  · have hne := (List.mem_filter.1 hi).2
    simpa using hne

/-- What a committed step, before the audit begins or as it begins, leaves. -/
theorem confirm_commit_spec {s : State} {v : Nat} (hv : v = 1 ∨ v = 2) (hstep : s.stepNo < 2 ^ 48)
    (hi : ∀ i ∈ s.seam.insts, i.step ≠ s.stepNo) (hr : ∀ g, g < s.gtCount → s.grpChanged g = false) (n2 k : W32) :
    let u := s.confirm v n2 k
    u.get R.PRS_LAST_LAST = s.stepNo ∧ u.get R.PRS_STATUS_VERDICT = v ∧ (u.phase = 4 ∨ u.phase = 5) ∧ u.press.n2 = n2
      ∧ u.press.k = k ∧ u.press.cmd = none ∧ u.press.swept = [] ∧ u.mem = s.mem := by
  intro u
  obtain ⟨hv3, hv4⟩ : v ≠ 3 ∧ v < 4 := by omega
  have hu : u = ((s.stepCommitted v n2 k s.seam.insts).normRetire s.stepNo).afterSweep := confirm_commit hv3 hi n2 k
  have honly := normRetire_only (s.stepCommitted v n2 k s.seam.insts) s.stepNo
  generalize (s.stepCommitted v n2 k s.seam.insts).normRetire s.stepNo = t at hu honly
  have hpress : t.press = s.press.committed s.stepNo v n2 k := honly .press (by simp)
  have hmem : t.mem = s.mem := (honly .mem (by simp)).trans (commitRegs_only s v n2 k .mem (by simp))
  have hget (f : Fld) : t.get f = (s.commitRegs v n2 k).get f := congrArg (rfGet · f) (honly .bar (by simp))
  obtain ⟨hlast, hverdict, hphase⟩ := commitRegs_gets hv4 hstep n2 k
  rw [← hget] at hlast hverdict
  have hcount : t.gtCount = s.gtCount := (hget _).trans (commitRegs_onlyFields s v n2 k _ (by decide))
  have hbase : t.get R.PRS_GT_BASE_GT_BASE = s.get R.PRS_GT_BASE_GT_BASE :=
    (hget _).trans (commitRegs_onlyFields s v n2 k _ (by decide))
  have hrecs (g : Nat) (hg : g < t.gtCount) : t.recBad g = false := recBad_of_same <|
    (grpChanged_congr hbase hmem (by rw [hpress]; rfl) g).trans (hr g (hcount ▸ hg))
  rcases afterSweep_cases hrecs with h | h
  · rw [hu, h, hpress]
    exact ⟨hlast, hverdict, .inl ((hget _).trans hphase), rfl, rfl, rfl, rfl, hmem⟩
  · have hbegun : u.press = { s.press.committed s.stepNo v n2 k with audited := [] } := by
      rw [hu, h, State.auditBegun, hpress]
    rw [hbegun, hu, h]
    exact ⟨(get_set_other t 5 (by decide)).trans hlast, (get_set_other t 5 (by decide)).trans hverdict,
      .inr (get_set_same t _ 5), rfl, rfl, rfl, rfl, hmem⟩

theorem exec_audit_same (hs : s.pressStopped = false) (hp : s.phase = 5) (hm : mc < 24)
    (ha : s.press.audited.contains mc = false) (hr : ∀ h, h < s.gtCount → s.recBad h = false) :
    exec (.audit mc) s = .next (s.auditUnit mc) := by
  rw [exec_audit hs hp hm ha, withRecs_of_same hr]

/-- The last unit's audit makes the phase idle, and only replies that wait for a return stay owed. -/
theorem auditOver_tryReplies (v : State) : v.auditOver.tryReplies.phase = 0 ∧ v.auditOver.tryReplies.press.audited = []
    ∧ v.auditOver.tryReplies.mem = v.mem ∧ v.auditOver.tryReplies.seam = v.seam
    ∧ ∀ r ∈ v.auditOver.tryReplies.press.replies,
      r.idle = true ∧ v.auditOver.tryReplies.returning r.step = true := by
  obtain ⟨hfields, honly, hpress⟩ := tryReplies_spec v.auditOver
  have hseam : v.auditOver.tryReplies.seam = v.seam := honly .seam (by simp)
  refine ⟨(hfields _ (by decide)).trans (get_set_same _ _ 0), by rw [hpress]; rfl, honly .mem (by simp),
    hseam, fun r hr => ?_⟩
  rw [hpress] at hr
  obtain ⟨hmem, hkept⟩ := List.mem_filter.1 hr
  have hidle : r.idle = true := by
    obtain ⟨q, -, rfl⟩ := List.mem_map.1 hmem
    rfl
  have hreturning : v.auditOver.returning r.step = true := by simpa [hidle] using hkept
  refine ⟨hidle, ?_⟩
  rw [State.returning, hseam]
  exact hreturning

end

/-- Settles O26: each clause is the equation of its command in the case named; memory is used where it holds no error. -/
theorem normVerdictSweepAndAudit : Obligations.NormVerdictSweepAndAudit := by
  unfold Obligations.NormVerdictSweepAndAudit
  refine ⟨fun g s => changed_record_is_found, ?norm, ?alone, fun n2 s => decideNorm_cases s n2,
    fun n2 k s => confirm_skip_spec s n2 k, fun v n2 k s hv hstep hi hr => confirm_commit_spec hv hstep hi hr n2 k,
    ?sweep, ?line, ?put, ?audit, ?unit⟩
  case norm =>
    intro s hs hp hclosed hred hr
    rw [exec_partialNorm_ready hs hp hclosed hred hr]
    exact ⟨fun h => congrArg go (if_neg (Bool.eq_false_iff.1 h)), fun h => congrArg go (if_pos h)⟩
  case alone =>
    intro p s h
    rw [State.normStart, h]
  case sweep =>
    intro mc g j e s hs hp hm hn hr
    rw [exec_sweepLine_next hs hp hm hn hr]
    exact ⟨fun h => congrArg go (if_neg (Bool.eq_false_iff.1 h)), fun h => congrArg go (if_pos h)⟩
  case line =>
    intro mc g j s he hp
    obtain ⟨m, hw⟩ := putElems_wrote ⟨he, hp⟩ (s.grp g) j (s.newElems g j) mc
    dsimp only
    rw [sweepLine_eq]
    exact ⟨congrArg (fun p : Press => (g, mc, j) :: p.swept) (hw.only .press (by simp)),
      (hw.only.mono (by simp)).trans ((lineSwept_only _ _ _ _ _ _).mono (by simp)), newElems_length s g j, _, _,
      rfl, rfl, rfl⟩
  case put =>
    intro a b s he hp hb
    have hw := Sound.put_all ⟨he, hp⟩ hb
    exact ⟨hw.data, hw.sound.errs, hw.sound.poison, hw.only⟩
  case audit =>
    intro mc g j s he hp
    obtain ⟨t, ht, hsame, hdiff⟩ := auditLine_reads ⟨he, hp⟩ mc g j
    refine ⟨fun h => ?_, fun h => ?_⟩
    · rw [hsame h]
      exact ⟨(ht.addCnt _ _).only, (ht.addCnt _ _).data⟩
    · obtain ⟨n, hput, hself⟩ := ht.putWork_data (.refl ⟨he, hp⟩) (s.grp g) j
        (derive (s.grp g).wfmt (s.masterLine (s.grp g) j)) mc
      exact ⟨_, hdiff h, hput.data.trans hself.data.symm, (hput.bump _ _).only⟩
  case unit =>
    intro mc s hs hp hm ha hr
    rw [exec_audit_same hs hp hm ha hr, auditUnit_eq]
    refine ⟨fun h => congrArg go (if_neg ?_), fun hl hc => ⟨_, congrArg go (if_pos ?_), auditOver_tryReplies _⟩⟩
    · rw [Bool.and_eq_true, decide_eq_true_iff, Option.isNone_iff_eq_none]
      exact fun hboth => h.elim (absurd hboth.1) (absurd hboth.2)
    · rw [Bool.and_eq_true, decide_eq_true_iff, Option.isNone_iff_eq_none]
      exact ⟨hl, hc⟩

end Sys2Proof.Machine
end

section
/-! PROOFS. The obligation on opening, closing and bounding a step fails where a bad group table is refused after a read that
changed the state (spec/07_training_step_and_press.md R220, R227, spec/08_memory_system.md R266). -/

namespace Sys2Proof.Machine

/-- The state with no `STEP_OPEN` deferred. -/
def State.undeferred (s : State) : State := { s with press := { s.press with deferred := none } }

/-- The range of the group table. -/
def State.tableRange (s : State) : List (Nat × Nat) := [(s.grpAddr 0, 256 * s.gtCount)]

/-- A `STEP_OPEN` over a bad table is refused in the state before the table was read: what the read counted and raised
is not in it. -/
theorem openStep_of_tableBad {s : State} {c : Cmd} {f : Nat × Nat} (hm : c.p 8 2 ≠ 0) (hopen : s.stepOpen = false)
    (hdefer : s.stepDeferred = false) (horder : s.undeferred.stepInOrder (c.p 0 8 % 2 ^ 48) = true)
    (hcount : 0 < s.undeferred.gtCount)
    (hrange : s.undeferred.rangeClass 1 (s.undeferred.grpAddr 0) (256 * s.undeferred.gtCount) = true)
    (hread : (s.undeferred.engCheck s.undeferred.tableRange).2 = true) (hbad : s.undeferred.tableBad = some f) :
    s.openStep c = s.undeferred.refuseStep c Code.PRS_GROUP f.1 f.2 := by
  have hnotBusy : ¬ s.stepOpen = true := by rw [hopen]; decide
  have hnotDeferred : ¬ s.stepDeferred = true := by rw [hdefer]; decide
  have hinOrder : ¬ (!s.undeferred.stepInOrder (c.p 0 8 % 2 ^ 48)) = true := by rw [horder]; decide
  have hinClass : ¬ (decide (0 < s.undeferred.gtCount)
      && !s.undeferred.rangeClass 1 (s.undeferred.grpAddr 0) (256 * s.undeferred.gtCount)) = true := by rw [hrange]; simp
  refine (if_neg hm).trans ((if_neg hnotBusy).trans ((if_neg hnotDeferred).trans ((if_neg hinOrder).trans
    ((if_neg hinClass).trans ?_))))
  have hreads : (if s.undeferred.gtCount = 0 then [] else s.undeferred.tableRange) = s.undeferred.tableRange :=
    if_neg (Nat.ne_of_gt hcount)
  have hchecks : (if s.undeferred.gtCount = 0 then none else s.undeferred.tableBad) = some f :=
    (if_neg (Nat.ne_of_gt hcount)).trans hbad
  have husable : ¬ (!(s.undeferred.engCheck
      (if s.undeferred.gtCount = 0 then [] else s.undeferred.tableRange)).2) = true := by
    rw [hreads, hread]
    decide
  refine (if_neg husable).trans ?_
  split
  · rename_i g hg
    cases hchecks.symm.trans hg
    rfl
  · rename_i hg
    cases hchecks.symm.trans hg

/-- A `STEP_OPEN` of step 5 with two micro-batches of one length, taken up. -/
def openFive : Cmd :=
  { tag := 7, epoch := 3, opcode := Op.STEP_OPEN, seq := 0, fence := false, notify := false, started := true
    params := leBytes 8 5 ++ leBytes 2 2 ++ leBytes 2 0 ++ leBytes 4 0 ++ leBytes 8 0xFFFFFFFFFFFFFFFF }

/-- A group table of one record whose optimiser is none, in a granule with a corrected error not met before. -/
def badTable : State :=
  { State.reset.set R.PRS_CFG_GT_COUNT 1 with
    mem := { State.reset.mem with exts := [⟨0, 1, 1⟩], data := [(0, 9)], errs := [(0, .corrected)] } }

/-- The state in which the table has been read. -/
def badTableRead : State := (badTable.undeferred.engCheck badTable.undeferred.tableRange).1

theorem openFive_order : openFive.p 8 2 ≠ 0 ∧ openFive.p 0 8 % 2 ^ 48 ≠ stepNone
    ∧ badTable.afterLast (openFive.p 0 8 % 2 ^ 48) = true
    ∧ badTable.undeferred.stepInOrder (openFive.p 0 8 % 2 ^ 48) = true := by decide +kernel

theorem badTable_idle : badTable.stepOpen = false ∧ badTable.stepDeferred = false := by decide +kernel

theorem badTable_fails : 0 < badTable.undeferred.gtCount
    ∧ badTable.undeferred.rangeClass 1 (badTable.undeferred.grpAddr 0) (256 * badTable.undeferred.gtCount) = true
    ∧ (badTable.undeferred.engCheck badTable.undeferred.tableRange).2 = true
    ∧ badTable.undeferred.tableBad = some (0, 0) ∧ badTableRead.tableBad = some (0, 0) := by decide +kernel

/-- The corrected error is counted in the state in which the table has been read, and only there. -/
theorem badTable_counts : (badTable.undeferred.refuseStep openFive Code.PRS_GROUP 0 0).get (R.CE 0) = 0
    ∧ (badTableRead.refuseStep openFive Code.PRS_GROUP 0 0).get (R.CE 0) = 1 := by decide +kernel

/-- Refutes O25: the statement refuses a bad table in the state in which its bytes have been read; the model refuses it in
the state before, so that a corrected error met in the read is not counted. -/
theorem not_stepsOpenCloseAndMissBounds : ¬ Obligations.StepsOpenCloseAndMissBounds := by
  unfold Obligations.StepsOpenCloseAndMissBounds
  rintro ⟨-, hopens, -⟩
  obtain ⟨hm, hnone, hlast, horder⟩ := openFive_order
  obtain ⟨hidle, hdefer⟩ := badTable_idle
  obtain ⟨hcount, hrange, hread, hbad, hbadRead⟩ := badTable_fails
  obtain ⟨-, -, -, hchecked⟩ := (hopens openFive badTable).2 hm
  obtain ⟨-, -, htable⟩ := hchecked hidle hdefer hnone hlast
  obtain ⟨-, hrefused, -⟩ := htable hcount hrange
  have hstated : badTable.openStep openFive = badTableRead.refuseStep openFive Code.PRS_GROUP 0 0 :=
    hrefused (0, 0) hread hbadRead
  have hmodel := openStep_of_tableBad hm hidle hdefer horder hcount hrange hread hbad
  have hcounts := congrArg (fun s : State => s.get (R.CE 0)) (hmodel.symm.trans hstated)
  obtain ⟨hbefore, hafter⟩ := badTable_counts
  exact absurd ((hbefore.symm.trans hcounts).trans hafter) (by decide)

end Sys2Proof.Machine
end

section
/-! PROOFS. Canonical memories: what it says of a tile and of an outcome, and how it passes through the shapes of which
the model's functions are made. A function that leaves the byte memories alone is named after `beside`; the others end in
the memory laws (spec/08_memory_system.md R263, R285). -/

open Sys2Proof Sys2Proof.Machine

/-- A tile whose scratchpad is in canonical form. -/
def CanonicalTile (x : Tile) : Prop := x.spad.wf = true

/-- An outcome that leaves the byte memories in canonical form, if it goes on. -/
def EndsCanonical (r : Res) : Prop := ∀ t, r = .next t → Canonical t

variable {s t : State} {x y : Tile} {α β : Type} {p : Prop} [Decidable p]

/-! ### Tiles -/

theorem CanonicalTile.ite (hx : CanonicalTile x) (hy : CanonicalTile y) : CanonicalTile (if p then x else y) := by
  split
  · exact hx
  · exact hy

/-- A change beside the scratchpad. -/
theorem CanonicalTile.beside (h : CanonicalTile x) (hs : y.spad = x.spad) : CanonicalTile y := by
  unfold CanonicalTile
  rwa [hs]

theorem CanonicalTile.foldl {f : Tile → α → Tile} {l : List α} {x : Tile} (h : CanonicalTile x)
    (hf : ∀ {x : Tile} (a : α), CanonicalTile x → CanonicalTile (f x a)) : CanonicalTile (l.foldl f x) := by
  induction l generalizing x with
  | nil => exact h
  | cons a l ih => exact ih (hf a h)

/-! ### Outcomes -/

theorem EndsCanonical.ite {r q : Res} (hr : EndsCanonical r) (hq : EndsCanonical q) :
    EndsCanonical (if p then r else q) := by
  split
  · exact hr
  · exact hq

theorem Canonical.go (h : Canonical s) : EndsCanonical (go s) := by
  rintro t ⟨⟩
  exact h

theorem EndsCanonical.go (h : Canonical s) : EndsCanonical (go s) := h.go

/-! ### States -/

theorem Canonical.of_eq (h : Canonical s) (hm : t.mem.data = s.mem.data) (hh : t.host = s.host)
    (ht : t.tiles = s.tiles) (hf : t.th.flash = s.th.flash) : Canonical t := by
  unfold Canonical
  rwa [hm, hh, ht, hf]

/-- A change beside the byte memories. -/
theorem Canonical.beside (h : Canonical s)
    (e : (t.mem.data, t.host, t.tiles, t.th.flash) = (s.mem.data, s.host, s.tiles, s.th.flash)) : Canonical t := by
  simp only [Prod.mk.injEq] at e
  obtain ⟨hm, hh, ht, hf⟩ := e
  exact h.of_eq hm hh ht hf

theorem Canonical.of_only {L : List Part} (h : Canonical s) (g : Only L s t)
    (hL : Part.mem ∉ L ∧ Part.host ∉ L ∧ Part.tiles ∉ L ∧ Part.th ∉ L) : Canonical t := by
  obtain ⟨hm, hh, ht, hf⟩ := hL
  exact h.of_eq (congrArg MemSys.data (g .mem hm)) (g .host hh) (g .tiles ht) (congrArg Thimble.flash (g .th hf))

theorem Canonical.ite (hs : Canonical s) (ht : Canonical t) : Canonical (if p then s else t) := by
  split
  · exact hs
  · exact ht

theorem Canonical.iteFst {x y : State × α} (hx : Canonical x.1) (hy : Canonical y.1) :
    Canonical (if p then x else y).1 := by
  split
  · exact hx
  · exact hy

theorem Canonical.of_pair {x : State × α} {a : α} (hx : Canonical x.1) (e : x = (t, a)) : Canonical t := by
  subst e
  exact hx

theorem Canonical.foldl {f : State → α → State} {l : List α} (h : Canonical s)
    (hf : ∀ {s : State} (a : α), Canonical s → Canonical (f s a)) : Canonical (l.foldl f s) := by
  induction l generalizing s with
  | nil => exact h
  | cons a l ih => exact ih (hf a h)

theorem Canonical.foldlFst {f : State × α → β → State × α} {l : List β} {x : State × α} (h : Canonical x.1)
    (hf : ∀ {x : State × α} (b : β), Canonical x.1 → Canonical (f x b).1) : Canonical (l.foldl f x).1 := by
  induction l generalizing x with
  | nil => exact h
  | cons b l ih => exact ih (hf b h)

theorem Canonical.tile (h : Canonical s) {k : Nat} : CanonicalTile (s.tile k) := by
  obtain ⟨-, -, htiles, -⟩ := h
  unfold CanonicalTile State.tile kvGet
  cases hk : kvGet? s.tiles k with
  | none => rfl
  | some x => exact htiles _ (mem_of_kvGet? hk)

theorem Canonical.tiles (h : Canonical s) : ∀ e ∈ s.tiles, CanonicalTile e.2 := by
  obtain ⟨-, -, htiles, -⟩ := h
  exact htiles

theorem Canonical.flash (h : Canonical s) : (s.th.flash.getD []).wf = true := by
  obtain ⟨-, -, -, hflash⟩ := h
  cases hf : s.th.flash with
  | none => rfl
  | some m => exact hflash m hf

/-- Other tiles, all canonical. -/
theorem Canonical.of_tiles (h : Canonical s) (e : (t.mem.data, t.host, t.th.flash) = (s.mem.data, s.host, s.th.flash))
    (ht : ∀ d ∈ t.tiles, CanonicalTile d.2) : Canonical t := by
  simp only [Prod.mk.injEq] at e
  obtain ⟨hm, hh, hf⟩ := e
  obtain ⟨hdata, hhost, -, hflash⟩ := h
  exact ⟨hm ▸ hdata, hh ▸ hhost, ht, hf ▸ hflash⟩

theorem Canonical.setTile (h : Canonical s) {k : Nat} {x : Tile} (hx : CanonicalTile x) : Canonical (s.setTile k x) := by
  refine h.of_tiles rfl fun e he => ?_
  rcases mem_kvSet s.tiles k x e he with rfl | he
  · exact hx
  · exact h.tiles e he

theorem Canonical.onTile (h : Canonical s) {k : Nat} {f : Tile → Tile}
    (hf : ∀ {x : Tile}, CanonicalTile x → CanonicalTile (f x)) : Canonical (s.onTile k f) :=
  h.setTile (hf h.tile)

/-- Every tile changed alike. -/
theorem Canonical.mapTiles (h : Canonical s) {f : Tile → Tile}
    (hf : ∀ {x : Tile}, CanonicalTile x → CanonicalTile (f x)) : Canonical (s.mapTiles f) := by
  refine h.of_tiles rfl fun e he => ?_
  obtain ⟨d, hd, rfl⟩ := List.mem_map.1 he
  exact hf (h.tiles d hd)

theorem Canonical.set (h : Canonical s) {f : Fld} {v : Nat} : Canonical (s.set f v) := h

theorem Canonical.setAll (h : Canonical s) {l : List (Fld × Nat)} : Canonical (s.setAll l) := h

theorem Canonical.bump (h : Canonical s) {f : Fld} {n : Nat} : Canonical (s.bump f n) := h

theorem Canonical.emit (h : Canonical s) {o : Out} : Canonical (s.emit o) := h

/-! ### Writes to a scratchpad -/

theorem CanonicalTile.write (h : CanonicalTile x) {a : Nat} {b : List Byte} :
    CanonicalTile { x with spad := memWriteN x.spad a b } := memWriteN_wf b x.spad a h

theorem CanonicalTile.writeByte (h : CanonicalTile x) {a : Nat} {b : Byte} :
    CanonicalTile { x with spad := memWrite x.spad a b } := memWrite_wf x.spad a b h

theorem CanonicalTile.holdLast (h : CanonicalTile x) {v : Held} : CanonicalTile (x.holdLast v) := h

theorem CanonicalTile.holdAt (h : CanonicalTile x) {n : Nat} {v : Held} : CanonicalTile (x.holdAt n v) := h

theorem CanonicalTile.land (h : CanonicalTile x) {dst : Landing} {slot : Nat} {b : List Byte} :
    CanonicalTile (x.land dst slot b) := by
  unfold Tile.land
  split
  · exact .ite h.holdLast h.write
  · exact .ite h h
  · exact h

theorem CanonicalTile.store (h : CanonicalTile x) {o : OutOp} {a : Nat} {b : List Byte} :
    CanonicalTile (x.store o a b) := by
  unfold Tile.store
  split
  · exact h
  · exact h.write

theorem CanonicalTile.goTo (h : CanonicalTile x) {n r : Nat} : CanonicalTile (x.goTo n r) := by
  induction n generalizing x r with
  | zero => exact h
  | succ n ih =>
    unfold Tile.goTo
    split
    · next l _ => exact .ite (.ite h (ih (x := { x with loops := l }) h)) h
    · exact h

/-- The zero fill of banks at a commit (spec/03_compute_tile.md R100). -/
theorem CanonicalTile.fillBanks (h : CanonicalTile x) {bs : List Nat} : CanonicalTile (x.fillBanks bs) := by
  have hfold (m : Memory) (hm : m.wf = true) :
      (bs.foldl (fun m b => memZero m (b * 0x8000) ((b + 1) * 0x8000)) m).wf = true := by
    induction bs generalizing m with
    | nil => exact hm
    | cons b bs ih => exact ih _ (memZero_wf m _ _ hm)
  exact hfold x.spad h

/-- A switch commits the staged registers and writes the granules that the load withheld. -/
theorem CanonicalTile.switched (h : CanonicalTile x) {q : TilePend} {full : Bool} :
    CanonicalTile (x.switched q full) := by
  have hfold (l : List (Nat × List Byte)) (m : Memory) (hm : m.wf = true) :
      (l.foldl (fun m g => memWriteN m g.1 g.2) m).wf = true := by
    induction l generalizing m with
    | nil => exact hm
    | cons g l ih => exact ih _ (memWriteN_wf _ m _ hm)
  have hcommit : CanonicalTile (({ x with stage := stageTo x.regs q.regs } : Tile).applyCommit) :=
    CanonicalTile.fillBanks (x := { x with stage := stageTo x.regs q.regs }) h
  exact hfold _ _ hcommit

end

section
/-! PROOFS. Canonical memories: flags, messages, raised faults and the checks of stored data
(spec/15_faults_and_safe_state.md R464, spec/08_memory_system.md R266, R271). -/

open Sys2Proof Sys2Proof.Machine

variable {s : State} {x : Tile}

theorem CanonicalTile.set (h : CanonicalTile x) {f : Fld} {v : Nat} : CanonicalTile (x.set f v) := h.beside (by rfl)

theorem CanonicalTile.bump (h : CanonicalTile x) {f : Fld} {n : Nat} : CanonicalTile (x.bump f n) := h.beside (by rfl)

theorem Canonical.freeVal (h : Canonical s) {w : Nat} : Canonical (s.freeVal w).2 := h.beside (by rfl)

theorem Canonical.freeBytes (h : Canonical s) {n : Nat} : Canonical (s.freeBytes n).2 := h.beside (by rfl)

theorem Canonical.injectAt (h : Canonical s) {r : Nat} {inp : Port} {k : Token} {src : Option (Nat × Nat)} :
    Canonical (s.injectAt r inp k src) :=
  h.beside (by rfl)

theorem Canonical.inject (h : Canonical s) {t : Nat} {k : Token} {src : Option (Nat × Nat)} :
    Canonical (s.inject t k src) :=
  h.injectAt

theorem Canonical.injectAll (h : Canonical s) {t : Nat} {l : List Token} : Canonical (s.injectAll t l) :=
  h.foldl fun _ h1 => h1.inject

theorem Canonical.sendUnit (h : Canonical s) {unit : Nat} {k : Token} {src : Option (Nat × Nat)} :
    Canonical (s.sendUnit unit k src) := by
  unfold State.sendUnit
  extract_lets _ _
  split
  · exact h.injectAt
  · exact h

theorem Canonical.depart (h : Canonical s) {n : NetTok} : Canonical (s.depart n) :=
  .ite (h.beside (by rfl)) (h.beside (by rfl))

theorem Canonical.vector (h : Canonical s) {v : Nat} : Canonical (s.vector v) :=
  .ite (.ite (h.beside (by rfl)) h.emit) h

theorem Canonical.reply (h : Canonical s) {tag epoch kind code : Nat} {result : List Byte} :
    Canonical (s.reply tag epoch kind code result) := by
  unfold State.reply
  split
  · exact h
  · split
    · exact h.bump
    · exact .ite (h.beside (by rfl)).bump (h.beside (by rfl))

theorem Canonical.event (h : Canonical s) {rec : List Byte} : Canonical (s.event rec) :=
  .ite h.bump (h.beside (by rfl))

theorem Canonical.addCnt (h : Canonical s) {set : Nat} {c : Cnt} : Canonical (s.addCnt set c) := h.bump.bump.bump.bump

theorem Canonical.setPort (h : Canonical s) {p : Nat} {x : SPort} : Canonical (s.setPort p x) := h.beside (by rfl)

theorem Canonical.frame (h : Canonical s) {p : Nat} {m : SMsg} : Canonical (s.frame p m) := h.emit.bump.bump

theorem Canonical.sendAck (h : Canonical s) {p : Nat} {neg : Bool} : Canonical (s.sendAck p neg) :=
  .ite h.frame h.setPort

theorem Canonical.portSend (h : Canonical s) {p : Nat} {m : SMsg} : Canonical (s.portSend p m) :=
  .ite (.ite h.setPort.frame h.setPort) h

theorem Canonical.pumpPort (h : Canonical s) {p n : Nat} : Canonical (s.pumpPort p n) :=
  h.of_only (State.pumpPort_only n s p) (by decide)

theorem Canonical.resumePort (h : Canonical s) {p : Nat} : Canonical (s.resumePort p) := by
  unfold State.resumePort
  extract_lets _ s1
  have hs1 : Canonical s1 := by
    unfold s1
    split
    · exact h.setPort.sendAck
    · exact h
  exact .ite h hs1.pumpPort

theorem Canonical.sendBy (h : Canonical s) {rs : List RouteRec} {m : SMsg} : Canonical (s.sendBy rs m) := by
  unfold State.sendBy
  split
  · exact h.portSend
  · exact h

theorem Canonical.sendSucc (h : Canonical s) {i : Inst} {ty group n line : Nat} {body : List Byte} :
    Canonical (s.sendSucc i ty group n line body) :=
  .ite h h.sendBy

theorem Canonical.abandonStep (h : Canonical s) {code : Nat} : Canonical (s.abandonStep code) :=
  h.of_only (s.abandonStep_only code) (by decide)

theorem Canonical.fate (h : Canonical s) {u : Nat} {dq : Nat → Bool} {basted : Option Nat} :
    Canonical (s.fate u dq basted).1 := by
  unfold State.fate
  split
  · exact h
  · extract_lets fab s1 fab1
    have hs1 : Canonical s1 := by
      unfold s1
      split
      · exact h.beside (by rfl)
      · exact h
    clear_value s1
    split
    · exact hs1.beside (by rfl)
    · exact hs1

theorem CanonicalTile.setBob (h : CanonicalTile x) {b : Nat} {v : Bob} : CanonicalTile (x.setBob b v) :=
  .ite (h.beside (by rfl)) (h.beside (by rfl))

theorem CanonicalTile.abortBob (h : CanonicalTile x) {b : Nat} : CanonicalTile (x.abortBob b) := .ite h.setBob.set h

theorem Canonical.abortStream (h : Canonical s) {t b : Nat} : Canonical (s.abortStream t b) :=
  .injectAll (h.setTile h.tile.abortBob.set)

theorem Canonical.abortBobs (h : Canonical s) : Canonical s.abortBobs := by
  rw [abortBobs_eq]
  exact .mapTiles (.foldl h fun _ h1 => h1.abortStream.abortStream) id

theorem Canonical.startFlush (h : Canonical s) : Canonical s.startFlush :=
  .ite h (h.set.set.abortBobs.beside (by rfl))

theorem Canonical.hold (h : Canonical s) {r : FltRec} : Canonical (s.hold r) := .ite h.bump (h.beside (by rfl))

theorem Canonical.stepFatal (h : Canonical s) {code : Nat} : Canonical (s.stepFatal code) := by
  unfold State.stepFatal
  split
  · split
    · exact h
    · exact h.beside (by rfl)
  · exact h.abandonStep.startFlush

theorem Canonical.raiseAs (h : Canonical s) {listed : FClass} {tied : Bool} {code unit sub arg : Nat} :
    Canonical (s.raiseAs listed tied code unit sub arg) := by
  unfold State.raiseAs
  extract_lets _ _ _ _ _ _ _ s1 _ s2 _ _ s3
  have hs1 : Canonical s1 := h.bump.hold
  have hs2 : Canonical s2 := .ite (hs1.beside (by rfl)) hs1
  have hs3 : Canonical s3 := .ite hs2.stepFatal hs2
  exact .ite (hs2.beside (by rfl)) (.ite hs2 (.ite (hs2.beside (by rfl)) (.ite hs3.startFlush hs3)))

theorem Canonical.raise (h : Canonical s) {code unit sub arg : Nat} : Canonical (s.raise code unit sub arg) :=
  h.raiseAs

theorem Canonical.raiseTied (h : Canonical s) {code unit sub arg : Nat} : Canonical (s.raiseTied code unit sub arg) :=
  h.raiseAs

theorem Canonical.tieLast (h : Canonical s) {code : Nat} : Canonical (s.tieLast code) := by
  unfold State.tieLast
  extract_lets _ _
  split
  · exact .ite (h.beside (by rfl)) h
  · exact h

theorem Canonical.tileFault (h : Canonical s) {code t sub : Nat} : Canonical (s.tileFault code t sub) := h.raise

theorem Canonical.refuse (h : Canonical s) {c : Cmd} {code unit sub arg : Nat} {result : List Byte} :
    Canonical (s.refuse c code unit sub arg result) :=
  h.raiseTied.reply

theorem Canonical.refuseTag (h : Canonical s) {c : Cmd} {code sub : Nat} : Canonical (s.refuseTag c code sub) :=
  h.refuse

theorem Canonical.setRec (h : Canonical s) {f : Nat → Fld} {b : List Byte} : Canonical (s.setRec f b) := h.setAll

theorem Canonical.deliver (h : Canonical s) {r : FltRec} : Canonical (s.deliver r) := by
  unfold State.deliver
  extract_lets _ _ _ _ s1 s2 s3
  have hs1 : Canonical s1 := .ite h.bump (h.beside (by rfl))
  have hs2 : Canonical s2 := .ite hs1 hs1.setRec
  have hs3 : Canonical s3 := .ite hs2.setRec hs2
  exact .ite hs3.bump.event hs3

theorem Canonical.wrN (h : Canonical s) {a : Nat} {l : List Byte} : Canonical (s.wrN a l) := by
  obtain ⟨hdata, hrest⟩ := h
  exact ⟨s.wrN_wf a l hdata, hrest⟩

theorem Canonical.cacheTouch (h : Canonical s) {gran : Nat} {wr noalloc : Bool} :
    Canonical (s.cacheTouch gran wr noalloc) := by
  unfold State.cacheTouch
  extract_lets _ _ _ _
  split
  · exact .ite (h.beside (by rfl)).bump (h.beside (by rfl))
  · exact .ite h (.bump (.ite h (h.beside (by rfl))))

theorem Canonical.ueFault (h : Canonical s) {g : Nat} {r : Reader} : Canonical (s.ueFault g r) := h.bump.raise

theorem Canonical.dropErr (h : Canonical s) {k : Nat} : Canonical (s.dropErr k) := h.beside (by rfl)

theorem Canonical.memUe (h : Canonical s) {g : Nat} {r : Reader} : Canonical (s.memUe g r) := by
  unfold State.memUe
  extract_lets _ _ _ s1 _ s2 s3
  have hs1 : Canonical s1 := h.dropErr
  have hs2 : Canonical s2 := hs1.beside (by rfl)
  have hs3 : Canonical s3 := hs2.setAll
  exact hs3.bump.raise

theorem Canonical.memCe (h : Canonical s) {g : Nat} : Canonical (s.memCe g) := by
  unfold State.memCe
  extract_lets _ s1 _ s2
  have hs1 : Canonical s1 := h.dropErr
  have hs2 : Canonical s2 := .ite (hs1.beside (by rfl)) hs1
  exact .ite hs1 hs2.bump.raise

theorem Canonical.checkGran (h : Canonical s) {g : Nat} {e : Ecc} {r : Reader} : Canonical (s.checkGran g e r).1 := by
  unfold State.checkGran
  split
  · exact h.ueFault
  · split
    · exact h
    · exact h.memCe
    · exact h.memUe

theorem Canonical.checkRead (h : Canonical s) {l : List Nat} {e : Ecc} {r : Reader} :
    Canonical (s.checkRead l e r).1 := by
  induction l generalizing s e with
  | nil => exact h
  | cons g l ih =>
    unfold State.checkRead
    exact .iteFst (ih h.checkGran) h.checkGran

theorem Canonical.lnErr (h : Canonical s) {a : Nat} {e : Ecc} {r : Reader} : Canonical (s.lnErr a e r).1 := by
  unfold State.lnErr
  extract_lets _ _ v1 w2 s3
  have hv1 : Canonical v1.2 := h.freeVal
  have hw2 : Canonical w2.2 := hv1.freeVal
  have hs3 : Canonical s3 := hw2.setAll
  split
  · exact h
  · exact h.bump.raise
  · exact hs3.bump.raise

theorem Canonical.checkLn (h : Canonical s) {a n : Nat} {e : Ecc} {r : Reader} : Canonical (s.checkLn a e r n).1 := by
  induction n generalizing s a e with
  | zero => exact h
  | succ n ih =>
    unfold State.checkLn
    extract_lets w c
    have hc : Canonical c.1 := .iteFst h.dropErr.lnErr h.lnErr
    exact .iteFst (ih hc) hc

theorem Canonical.checkAt (h : Canonical s) {a n : Nat} {e : Ecc} {r : Reader} : Canonical (s.checkAt a n e r).1 := by
  unfold State.checkAt
  split
  · split
    · exact h.checkGran
    · exact h
  · exact h.checkLn

theorem Canonical.touchAt (h : Canonical s) {a : Nat} {wr noalloc : Bool} : Canonical (s.touchAt a wr noalloc) := by
  unfold State.touchAt
  split
  · exact h.cacheTouch
  · exact h

theorem Canonical.loadRun (h : Canonical s) {a n : Nat} {noalloc : Bool} {e : Ecc} {r : Reader} :
    Canonical (s.loadRun a n noalloc e r).1 :=
  h.checkAt.touchAt

theorem Canonical.checkEdges (h : Canonical s) {a n : Nat} {e : Ecc} {r : Reader} :
    Canonical (s.checkEdges a n e r).1 :=
  .iteFst (.iteFst h h.checkLn) (.iteFst (.iteFst h h.checkLn) (.checkLn (.iteFst h h.checkLn)))

theorem Canonical.storeRun (h : Canonical s) {a : Nat} {b : List Byte} {noalloc : Bool} {e : Ecc} {r : Reader} :
    Canonical (s.storeRun a b noalloc e r).1 :=
  .iteFst (.iteFst (h.beside (by rfl)).touchAt.wrN (.iteFst h.checkAt.touchAt.wrN h.checkAt.touchAt)) (.iteFst
    (h.checkEdges.beside (by rfl)).wrN h.checkEdges)

theorem Canonical.loadRuns (h : Canonical s) {noalloc : Bool} {r : Reader} {l : List (Nat × Nat)} {e : Ecc} :
    Canonical (s.loadRuns noalloc r l e).1 := by
  induction l generalizing s e with
  | nil => exact h
  | cons p l ih =>
    unfold State.loadRuns
    exact .iteFst (ih h.loadRun) h.loadRun

theorem Canonical.load (h : Canonical s) {a n : Nat} {noalloc : Bool} {e : Ecc} :
    Canonical (s.load a n noalloc e).1 :=
  h.loadRuns

theorem Canonical.storeRuns (h : Canonical s) {base : Nat} {b : List Byte} {noalloc : Bool} {r : Reader}
    {l : List (Nat × Nat)} :
    Canonical (s.storeRuns base b noalloc r l).1 := by
  induction l generalizing s with
  | nil => exact h
  | cons p l ih => exact ih h.storeRun

theorem Canonical.store (h : Canonical s) {a : Nat} {b : List Byte} {noalloc : Bool} :
    Canonical (s.store a b noalloc).1 :=
  h.storeRuns

theorem Canonical.put (h : Canonical s) {a : Nat} {b : List Byte} : Canonical (s.put a b) := h.store

end

section
/-! PROOFS. Canonical memories: register accesses, the commit of a tile, the fabric and the start of
commands (spec/00_scope.md R8 to R14, spec/04_fabric_tokens_and_steering.md). -/

open Sys2Proof Sys2Proof.Machine

variable {s : State} {x : Tile}

theorem Canonical.msixWrite (h : Canonical s) {o v : Nat} : Canonical (s.msixWrite o v) :=
  .ite (.ite (h.beside (by rfl)).vector (h.beside (by rfl))) (.ite (h.beside (by rfl)) (h.beside (by rfl)))

theorem Canonical.writeReg (h : Canonical s) {tile : Option Nat} {o : Nat} {d : RDesc} {wlo wn v : Nat} :
    Canonical (s.writeReg tile o d wlo wn v) := by
  unfold State.writeReg
  split
  · exact .ite h (.ite h.raise (h.beside (by rfl)))
  · exact .ite h (.ite h (.ite h.raise (h.onTile fun h1 => h1.beside (by rfl))))

theorem EndsCanonical.regWrite (h : Canonical s) {tile : Option Nat} {off : Nat} {wide : Bool} {v : W64} :
    EndsCanonical (execRegWrite tile off wide v s) := by
  unfold execRegWrite
  extract_lets _ _ _
  split
  · exact h.go
  · split
    · exact h.go
    · split
      · exact h.go
      · split
        · exact .ite h.msixWrite.msixWrite.go h.msixWrite.go
        · split
          · exact h.go
          · exact .ite h.go h.writeReg.go

theorem EndsCanonical.regAccessMisaligned (h : Canonical s) {off size : Nat} {write : Bool} {v : W64} :
    EndsCanonical (execRegAccessMisaligned off size write v s) :=
  .ite (Canonical.go (.raise (.ite h h.emit))) h.go

theorem Canonical.setLatch (h : Canonical s) {tile : Option Nat} {o : Nat} {v : Option Nat} :
    Canonical (s.setLatch tile o v) := by
  unfold State.setLatch
  extract_lets _
  split
  · exact h.beside (by rfl)
  · exact h.onTile fun h1 => h1.beside (by rfl)

theorem Canonical.clearRc (h : Canonical s) {tile : Option Nat} {o : Nat} : Canonical (s.clearRc tile o) := by
  unfold State.clearRc
  split
  · exact h.set
  · exact h.onTile fun h1 => h1.set

theorem Canonical.readWord (h : Canonical s) {tile : Option Nat} {off : Nat} : Canonical (s.readWord tile off).2 := by
  unfold State.readWord
  extract_lets _
  split
  · extract_lets _ s1
    have hs1 : Canonical s1 := h.setLatch
    split
    · exact .ite hs1.clearRc hs1
    · exact h
  · split
    · split
      · exact h.setLatch
      · exact h
    · exact h

theorem Canonical.readWide (h : Canonical s) {tile : Option Nat} {off : Nat} : Canonical (s.readWide tile off).2 := by
  unfold State.readWide
  extract_lets _ s1
  have hs1 : Canonical s1 := h.setLatch
  split
  · exact .ite hs1.clearRc hs1
  · exact h

theorem Canonical.hostRead (h : Canonical s) {tile : Option Nat} {off : Nat} {wide : Bool} :
    Canonical (s.hostRead tile off wide) := by
  unfold State.hostRead
  split
  · exact h.emit
  · split
    · exact .ite h.emit.raise h.readWide.emit
    · exact .ite h.emit.raise h.readWord.emit

theorem EndsCanonical.lowerWordLatchRead (h : Canonical s) {tile : Option Nat} {off : Nat} :
    EndsCanonical (execLowerWordLatchRead tile off s) :=
  h.hostRead.go

theorem EndsCanonical.upperWordRead (h : Canonical s) {tile : Option Nat} {off : Nat} :
    EndsCanonical (execUpperWordRead tile off s) :=
  h.hostRead.go

theorem EndsCanonical.counterRead (h : Canonical s) {tile : Option Nat} {off : Nat} {wide : Bool} :
    EndsCanonical (execCounterRead tile off wide s) :=
  h.hostRead.go

theorem Canonical.clearW1c (h : Canonical s) {tile : Option Nat} {o : Nat} {d : RDesc} {v set : Nat} :
    Canonical (s.clearW1c tile o d v set) := by
  unfold State.clearW1c
  refine .foldl h fun _ h1 => ?_
  extract_lets _ _
  split
  · exact h1.set
  · exact h1.onTile fun h2 => h2.set

theorem EndsCanonical.w1cClear (h : Canonical s) {tile : Option Nat} {off : Nat} {v set : W32} :
    EndsCanonical (execW1cClear tile off v set s) := by
  unfold execW1cClear
  extract_lets _
  split
  · exact h.go
  · split
    · exact h.go
    · split
      · exact h.go
      · exact h.clearW1c.go

theorem CanonicalTile.applyCommit (h : CanonicalTile x) : CanonicalTile x.applyCommit := h.fillBanks.beside (by rfl)

theorem Canonical.refuseTileCommit (h : Canonical s) {t code off : Nat} : Canonical (s.refuseTileCommit t code off) :=
  .raiseAs (h.onTile fun h1 => h1.beside (by rfl))

theorem Canonical.checkTileCommit (h : Canonical s) {t : Nat} {k : Tile → Tile}
    (hk : ∀ {x : Tile}, CanonicalTile x → CanonicalTile (k x)) : Canonical (s.checkTileCommit t k) := by
  unfold State.checkTileCommit
  extract_lets x1
  have hx1 : CanonicalTile x1 := h.tile
  split
  · exact h.refuseTileCommit
  · exact h.setTile (hk hx1)

theorem Canonical.commitTile (h : Canonical s) {t : Nat} : Canonical (s.commitTile t) :=
  .ite h.raise (.ite h (h.checkTileCommit fun h1 => .ite (h1.beside (by rfl)) h1.applyCommit))

theorem EndsCanonical.tileCommit (h : Canonical s) {t : Nat} {v : W32} : EndsCanonical (execTileCommit t v s) :=
  .ite h.go h.commitTile.go

theorem EndsCanonical.tileCommitApply (h : Canonical s) {t : Nat} : EndsCanonical (execTileCommitApply t s) :=
  .ite (Canonical.go (h.checkTileCommit fun h1 => h1.applyCommit)) h.go

theorem EndsCanonical.tileCommitWait (h : Canonical s) {t : Nat} : EndsCanonical (execTileCommitWait t s) :=
  .ite h.refuseTileCommit.go h.go

theorem EndsCanonical.bankFillDone (h : Canonical s) {t bank : Nat} : EndsCanonical (execBankFillDone t bank s) :=
  .ite (Canonical.go (h.onTile fun h1 => h1.beside (by rfl))) h.go

theorem CanonicalTile.setQueue (h : CanonicalTile x) {q : Nat} {v : Queue} : CanonicalTile (x.setQueue q v) :=
  h.beside (by rfl)

theorem CanonicalTile.setOch (h : CanonicalTile x) {c : Nat} {v : Och} : CanonicalTile (x.setOch c v) :=
  h.beside (by rfl)

theorem CanonicalTile.dropHead (h : CanonicalTile x) {q : Nat} : CanonicalTile (x.dropHead q) := h.setQueue

theorem CanonicalTile.untrip (h : CanonicalTile x) {a : TAgent} : CanonicalTile (x.untrip a) := h.beside (by rfl)

theorem CanonicalTile.untripOn (h : CanonicalTile x) {w : WaitOn} : CanonicalTile (x.untripOn w) := h.beside (by rfl)

theorem Canonical.laneCredits (h : Canonical s) {t q gen n : Nat} : Canonical (s.laneCredits t q gen n) := by
  unfold State.laneCredits
  split
  · exact h.beside (by rfl)
  · exact h

theorem Canonical.creditTo (h : Canonical s) {src : Option (Nat × Nat)} {gen : Nat} :
    Canonical (s.creditTo src gen) := by
  unfold State.creditTo
  split
  · exact h.beside (by rfl)
  · exact h

theorem Canonical.freeSlot (h : Canonical s) {t q gen : Nat} {owes : Bool} : Canonical (s.freeSlot t q gen owes) :=
  .ite (.laneCredits (.ite (h.onTile fun h1 => h1.setQueue) h)) (.ite (h.onTile fun h1 => h1.setQueue) h)

theorem Canonical.consume (h : Canonical s) {t q : Nat} : Canonical (s.consume t q) :=
  .freeSlot (h.onTile fun h1 => h1.dropHead.untrip)

theorem Canonical.consumeHem (h : Canonical s) {t q : Nat} : Canonical (s.consumeHem t q) := by
  unfold State.consumeHem
  extract_lets g n s1
  have hs1 : Canonical s1 := h.consume.onTile id
  exact hs1.laneCredits

theorem Canonical.sendAs (h : Canonical s) {t c kind tag slot : Nat} {basted : Bool} {pay : List Byte} :
    Canonical (s.sendAs t c kind tag slot basted pay) :=
  .inject (h.setTile h.tile.setOch)

theorem Canonical.sendNew (h : Canonical s) {t c kind slot : Nat} {basted : Bool} {pay : List Byte} :
    Canonical (s.sendNew t c kind slot basted pay) :=
  .ite (h.sendAs.onTile fun h1 => h1.setOch) h.sendAs

theorem Canonical.sendVerdict (h : Canonical s) {t dest dq tag : Nat} {sew : Bool} :
    Canonical (s.sendVerdict t dest dq tag sew) :=
  h.inject

theorem Canonical.sendVerdicts (h : Canonical s) {t : Nat} {sew : Bool} {l : List (Nat × Nat × Nat)} :
    Canonical (s.sendVerdicts t sew l) := by
  induction l generalizing s with
  | nil => exact h
  | cons p l ih => exact ih h.sendVerdict

theorem CanonicalTile.stopped (h : CanonicalTile x) : CanonicalTile x.stopped := by
  unfold Tile.stopped
  extract_lets s1
  have hs1 : CanonicalTile s1 := h.set
  exact hs1.beside (by rfl)

theorem Canonical.tileStop (h : Canonical s) {t code sub : Nat} : Canonical (s.tileStop t code sub) :=
  h.tileFault.onTile fun h1 => h1.stopped

theorem Canonical.raiseHeld (h : Canonical s) {f : HeldFlt} : Canonical (s.raiseHeld f) :=
  .ite (.raise (.ite h.bump h)) (.ite (.tileFault (.ite h.bump h)) (.tileStop (.ite h.bump h)))

theorem Canonical.tokFault (h : Canonical s) {k : Token} {code unit sub : Nat} {drop : Bool} {arg : optParam Nat 0} :
    Canonical (s.tokFault k code unit sub drop arg) :=
  .ite h.raiseHeld (.ite (h.onTile fun h1 => h1.beside (by rfl)) (h.beside (by rfl)))

theorem Canonical.progFault (h : Canonical s) {t code sub : Nat} : Canonical (s.progFault t code sub) :=
  .ite (h.onTile fun h1 => h1.holdLast.stopped) h.tileStop

theorem Canonical.tileCnt (h : Canonical s) {t : Nat} {c : Cnt} : Canonical (s.tileCnt t c) :=
  .ite h.addCnt (h.addCnt.onTile fun h1 => h1.set)

theorem Canonical.release (h : Canonical s) {t : Nat} {v : Held} : Canonical (s.release t v) := by
  unfold State.release
  split
  · exact h.onTile fun h1 => h1.write
  · exact h.onTile id
  · exact h.onTile id
  · exact h.tileCnt
  · exact h.tileStop
  · exact h.sendVerdict

theorem Canonical.releaseAll (h : Canonical s) {t : Nat} {l : List Held} : Canonical (s.releaseAll t l) := by
  induction l generalizing s with
  | nil => exact h
  | cons v l ih => exact ih h.release

theorem Canonical.closeEntry (h : Canonical s) {t : Nat} {e : BEntry} : Canonical (s.closeEntry t e) :=
  .freeSlot (.foldl (.releaseAll (h.onTile fun h1 => h1.beside (by rfl))) fun _ h1 => h1.freeSlot)

theorem Canonical.closeSewn (h : Canonical s) {t n : Nat} : Canonical (s.closeSewn t n) := by
  induction n generalizing s with
  | zero => exact h
  | succ n ih =>
    unfold State.closeSewn
    split
    · exact .ite (ih h.closeEntry) h
    · exact h

theorem CanonicalTile.restoreToks (h : CanonicalTile x) {l : List (Nat × Token × Bool)} :
    CanonicalTile (x.restoreToks l) := by
  induction l with
  | nil => exact h
  | cons p l ih => exact ih.setQueue

theorem Canonical.squashEntry (h : Canonical s) {t : Nat} {e : BEntry} : Canonical (s.squashEntry t e) := by
  unfold State.squashEntry
  extract_lets x1 _ _ _ x2 x3 x4 x5 x6 _ x7 x8 _ x9 s10 s11
  have hx1 : CanonicalTile x1 := h.tile
  have hx2 : CanonicalTile x2 := hx1.beside (by rfl)
  have hx3 : CanonicalTile x3 := hx2.restoreToks
  have hx4 : CanonicalTile x4 := by
    unfold x4
    refine .foldl hx3 fun _ h1 => ?_
    split
    · exact .ite h1.setOch h1
    · exact h1
  have hx5 : CanonicalTile x5 := hx4.set.set.set
  have hx6 : CanonicalTile x6 := hx5.set.set
  have hx7 : CanonicalTile x7 := .ite hx6 hx6.set
  have hx8 : CanonicalTile x8 := hx7.beside (by rfl)
  have hx9 : CanonicalTile x9 := hx8.setQueue
  have hs10 : Canonical s10 := .freeSlot (h.setTile hx9)
  have hs11 : Canonical s11 := hs10.foldl fun _ h1 => .ite h1.laneCredits h1
  exact hs11.sendVerdicts

theorem Canonical.verdictQueue (h : Canonical s) {t q : Nat} {k : Token} {sew : Bool} :
    Canonical (s.verdictQueue t q k sew) :=
  .ite (h.onTile fun h1 => h1.setQueue) (.freeSlot (h.onTile fun h1 => h1.setQueue))

theorem CanonicalTile.setShut (h : CanonicalTile x) {k : Nat} {l : List BasteBuf} : CanonicalTile (x.setShut k l) :=
  .ite (h.beside (by rfl)) (h.beside (by rfl))

theorem CanonicalTile.dropSent (h : CanonicalTile x) {l : List SentTo} : CanonicalTile (x.dropSent l) :=
  h.beside (by rfl)

theorem Canonical.squashed (h : Canonical s) {t k n : Nat} : Canonical (s.squashed t k n) :=
  .bump (h.onTile fun h1 => h1.bump)

theorem Canonical.forward (h : Canonical s) {t q g : Nat} {sew : Bool} : Canonical (s.forward t q g sew) := by
  unfold State.forward
  extract_lets x1 _ y2 _ _ s3 z4 s5 z6
  have hx1 : CanonicalTile x1 := h.tile
  have hy2 : CanonicalTile y2 := hx1.beside (by rfl)
  have hs3 : CanonicalTile s3 := hy2.dropSent
  have hz4 : CanonicalTile z4 := hs3.beside (by rfl)
  have hs5 : CanonicalTile s5 := hy2.dropSent
  have hz6 : CanonicalTile z6 := hs5.beside (by rfl)
  exact .ite (.sendVerdicts (h.setTile hz4)) (.sendVerdicts (.squashed (.squashed (h.setTile hz6))))

theorem Canonical.heldVerdict (h : Canonical s) {t q g : Nat} {sew : Bool} : Canonical (s.heldVerdict t q g sew) :=
  .ite (.foldl (h.onTile fun h1 => h1.beside (by rfl)) fun _ h1 => h1.raiseHeld) (h.onTile fun h1 => h1.beside (by
    rfl))

theorem Canonical.heldUnit (h : Canonical s) {u q g : Nat} {sew : Bool} : Canonical (s.heldUnit u q g sew) :=
  .ite ((h.beside (by rfl)).foldl fun _ h1 => h1.raiseHeld) (h.beside (by rfl))

theorem Canonical.sendSpill (h : Canonical s) {t q : Nat} {k : Token} : Canonical (s.sendSpill t q k) :=
  .ite (.raise (h.onTile fun h1 => h1.beside (by rfl))) (h.beside (by rfl)).inject.inject.laneCredits

theorem Canonical.verdictStaged (h : Canonical s) {t q : Nat} {k : Token} {sew : Bool} :
    Canonical (s.verdictStaged t q k sew) :=
  .ite (.sendSpill (h.onTile fun h1 => h1.beside (by rfl))) (.laneCredits (.onTile (h.onTile fun h1 => h1.beside (by
    rfl)) fun h1 => h1.setQueue))

theorem Canonical.verdictAt (h : Canonical s) {t q g : Nat} {sew : Bool} : Canonical (s.verdictAt t q g sew) := by
  unfold State.verdictAt
  extract_lets _ s1 x2
  have hs1 : Canonical s1 := .ite h.heldVerdict h
  have hx2 : CanonicalTile x2 := hs1.tile
  split
  · exact .ite (.closeSewn (hs1.onTile fun h3 => h3.beside (by rfl))) hs1.squashEntry
  · split
    · exact hs1.verdictQueue
    · split
      · exact hs1.verdictStaged
      · exact .ite hs1.forward (.ite hs1 (.ite (hs1.onTile fun h3 => h3.beside (by rfl)) hs1.tileStop))

theorem Canonical.takeCmd (h : Canonical s) {c : Cmd} : Canonical (s.takeCmd c) := h.beside (by rfl)

theorem Canonical.withCmd (h : Canonical s) {tag op : Nat} {k : State → Cmd → State}
    (hk : ∀ {s : State} (b : Cmd), Canonical s → Canonical (k s b)) : Canonical (s.withCmd tag op k) := by
  unfold State.withCmd
  split
  · exact h
  · split
    · exact hk _ h.takeCmd
    · exact h

theorem Canonical.done (h : Canonical s) {c : Cmd} {result : List Byte} : Canonical (s.done c result) := h.reply

theorem Canonical.refuseState (h : Canonical s) {c : Cmd} : Canonical (s.refuseState c) := h.refuseTag

theorem Canonical.keepResult (h : Canonical s) {c : Cmd} {result : List Byte} : Canonical (s.keepResult c result) :=
  h.beside (by rfl)

theorem Canonical.refuseCommit (h : Canonical s) {unit : Nat} {f : Nat × Nat} : Canonical (s.refuseCommit unit f) :=
  h.raise

end

section
/-! PROOFS. Canonical memories: reads, writes, atomics, scrubbing, classes, MOVE and the lining
(spec/08_memory_system.md). -/

open Sys2Proof Sys2Proof.Machine

variable {s : State} {x : Tile}

theorem Canonical.memFault (h : Canonical s) {code a : Nat} : Canonical (s.memFault code a) := .ite h.raise h.raise

theorem Canonical.unmapped (h : Canonical s) {agent sub a : Nat} : Canonical (s.unmapped agent sub a) := h.raise

theorem Canonical.reachFault (h : Canonical s) {agent sub a n : Nat} : Canonical (s.reachFault agent sub a n) := by
  unfold State.reachFault
  split
  · exact h.memFault
  · exact h.unmapped

theorem Canonical.moveTouch (h : Canonical s) {a n : Nat} : Canonical (s.moveTouch a n) := by
  unfold State.moveTouch
  split
  · exact .ite (h.beside (by rfl)) h
  · exact h

theorem Canonical.readMem (h : Canonical s) {agent sub a n : Nat} {noalloc : Bool} {e : Ecc} :
    Canonical (s.readMem agent sub a n noalloc e).1 :=
  .iteFst h.reachFault (.iteFst h.moveTouch.loadRun h.moveTouch.loadRun)

theorem Canonical.writeMem (h : Canonical s) {agent sub a : Nat} {b : List Byte} {noalloc : Bool} {e : Ecc} :
    Canonical (s.writeMem agent sub a b noalloc e).1 :=
  .iteFst h.reachFault (.iteFst h.memFault h.moveTouch.storeRun)

theorem Canonical.answer (h : Canonical s) {agent a : Nat} {x : MemAns} : Canonical (s.answer agent a x) := by
  unfold State.answer
  split
  · exact h.emit
  · exact h.emit
  · exact h.emit

theorem Canonical.atomApply (h : Canonical s) {q : AtomReq} {e : Ecc} : Canonical (s.atomApply q e) :=
  .ite (.emit (.ite h.moveTouch.checkAt.touchAt.wrN.bump.bump h.moveTouch.checkAt.touchAt.wrN.bump.addCnt))
    h.moveTouch.checkAt.touchAt.emit

theorem Canonical.setTicket (h : Canonical s) {mc set v : Nat} : Canonical (s.setTicket mc set v) := h.beside (by rfl)

theorem Canonical.drainTickets (h : Canonical s) {mc set n : Nat} : Canonical (s.drainTickets mc set n) := by
  induction n generalizing s with
  | zero => exact h
  | succ n ih =>
    unfold State.drainTickets
    split
    · exact ih (h.beside (by rfl)).atomApply.setTicket
    · exact h

theorem Canonical.atomAct (h : Canonical s) {q : AtomReq} {e : Ecc} : Canonical (s.atomAct q e) := by
  unfold State.atomAct
  extract_lets _ _
  split
  · exact .emit (.ite h.memFault h.raise)
  · exact .ite h.emit (.ite h.atomApply (.ite h.atomApply.setTicket.drainTickets (.ite (h.beside (by rfl))
      h.memFault.emit)))

theorem Canonical.pumpAtoms (h : Canonical s) {mc n : Nat} : Canonical (s.pumpAtoms mc n) := by
  induction n generalizing s with
  | zero => exact h
  | succ n ih =>
    unfold State.pumpAtoms
    split
    · exact .ite h (ih (h.beside (by rfl)).atomAct)
    · exact h

theorem Canonical.atom (h : Canonical s) {q : AtomReq} {e : Ecc} : Canonical (s.atom q e) :=
  .ite (h.beside (by rfl)) h.atomAct.pumpAtoms

theorem Canonical.zeroTicket (h : Canonical s) {mc set : Nat} : Canonical (s.zeroTicket mc set) :=
  h.setTicket.drainTickets.pumpAtoms

theorem Canonical.zeroTickets (h : Canonical s) : Canonical s.zeroTickets :=
  (h.beside (by rfl)).foldl fun _ h1 => .pumpAtoms (h1.foldl fun _ h2 => h2.drainTickets)

theorem Canonical.setReset (h : Canonical s) {agent mc set cnt : Nat} : Canonical (s.setReset agent mc set cnt) :=
  .ite h.raise.emit (.ite h.raise.emit h.zeroTicket.emit)

theorem Canonical.holdReq (h : Canonical s) {a : Nat} {tag : Option Nat} {i : Instr} :
    Canonical (s.holdReq a tag i) :=
  h.beside (by rfl)

theorem Canonical.arrive (h : Canonical s) {a : Nat} {fate : Fate} {i : Instr} {k : State → State}
    (hk : ∀ {s : State}, Canonical s → Canonical (k s)) : Canonical (s.arrive a fate i k) := by
  unfold State.arrive
  split
  · exact h
  · exact h.holdReq
  · exact .ite h.holdReq (.ite (h.beside (by rfl)) (hk h))

theorem Canonical.dry (h : Canonical s) {n slack wait : Nat} : Canonical (s.dry n slack wait) := .ite h.bump h

theorem EndsCanonical.memRead (h : Canonical s) {agent addr len : Nat} {noalloc : Bool} {e : Arrival} :
    EndsCanonical (execMemRead agent addr len noalloc e s) :=
  .ite (Canonical.go (h.dry.arrive fun h1 => h1.readMem.answer)) h.go

theorem EndsCanonical.memWrite (h : Canonical s) {agent addr : Nat} {bytes : List Byte} {noalloc : Bool}
    {basted : Option Nat} {e : Arrival} : EndsCanonical (execMemWrite agent addr bytes noalloc basted e s) :=
  .ite (Canonical.go (h.dry.fate.arrive fun h1 => h1.writeMem.answer)) h.go

theorem Canonical.atomArrive (h : Canonical s) {q : AtomReq} {basted : Option Nat} {wait : Nat} {e : Ecc}
    {i : Instr} : Canonical (s.atomArrive q basted wait e i) :=
  .ite h (h.dry.fate.arrive fun h1 => h1.atom)

theorem EndsCanonical.f32add (h : Canonical s) {agent addr set cnt seq salt : Nat} {addends : List W32}
    {basted : Option Nat} {e : Arrival} : EndsCanonical (execF32add agent addr set cnt seq salt addends basted e s) :=
  h.atomArrive.go

theorem EndsCanonical.pairadd (h : Canonical s) {agent addr set cnt seq salt : Nat} {addends : List W32}
    {basted : Option Nat} {e : Arrival} :
    EndsCanonical (execPairadd agent addr set cnt seq salt addends basted e s) :=
  h.atomArrive.go

theorem EndsCanonical.bf16add (h : Canonical s) {agent addr set cnt seq salt : Nat} {addends : List W32}
    {basted : Option Nat} {e : Arrival} :
    EndsCanonical (execBf16add agent addr set cnt seq salt addends basted e s) :=
  h.atomArrive.go

theorem EndsCanonical.i32add (h : Canonical s) {agent addr set cnt seq salt : Nat} {addends : List W32}
    {basted : Option Nat} {e : Arrival} : EndsCanonical (execI32add agent addr set cnt seq salt addends basted e s) :=
  h.atomArrive.go

theorem EndsCanonical.setReset (h : Canonical s) {agent mc set cnt : Nat} :
    EndsCanonical (execSetReset agent mc set cnt s) :=
  .ite h.go h.setReset.go

theorem EndsCanonical.atomTicketDeadline (h : Canonical s) {mc idx : Nat} :
    EndsCanonical (execAtomTicketDeadline mc idx s) := by
  unfold execAtomTicketDeadline
  split
  · exact h.memFault.go
  · exact h.go

theorem EndsCanonical.scrubRead (h : Canonical s) {chan : Nat} {e : ScrubFind} :
    EndsCanonical (execScrubRead chan e s) :=
  .ite (h.beside (by rfl)).checkRead.bump.go (h.beside (by rfl)).go

theorem Canonical.addRepair (h : Canonical s) {r : RepRec} : Canonical (s.addRepair r) :=
  .ite (h.beside (by rfl)) h.raise

theorem EndsCanonical.rowRemap (h : Canonical s) {chan bank row : Nat} {bad : List Nat} :
    EndsCanonical (execRowRemap chan bank row bad s) := by
  unfold execRowRemap
  extract_lets _ _ _ _
  split
  · exact h.go
  · exact .ite h.go (.ite h.raise.go (h.beside (by rfl)).set.bump.setAll.addRepair.go)

theorem EndsCanonical.channelFail (h : Canonical s) {chan : Nat} : EndsCanonical (execChannelFail chan s) :=
  .ite h.set.raise.go h.go

theorem Canonical.setFilling (h : Canonical s) {b : Bool} : Canonical (s.setFilling b) := h.setAll

theorem zeroExtents_wf (l : List Extent) (m : MemSys) (h : m.data.wf = true) :
    (l.foldl MemSys.zeroExtent m).data.wf = true := by
  induction l generalizing m with
  | nil => exact h
  | cons e l ih => exact ih _ (memZero_wf m.data _ _ h)

theorem EndsCanonical.setClass (h : Canonical s) {tag : Nat} : EndsCanonical (execSetClass tag s) := by
  refine .go (.withCmd h fun {s} c h => ?_)
  extract_lets a size cls base fs mem m job
  split
  · exact h.refuse
  · obtain ⟨hdata, hrest⟩ := h
    have hzeroed : m.data.wf = true := zeroExtents_wf fs _ hdata
    clear_value m
    have hset : Canonical { s with mem := { m with fills := m.fills ++ fs.map job } } := ⟨hzeroed, hrest⟩
    exact hset.setFilling

theorem EndsCanonical.classFillEnd (h : Canonical s) : EndsCanonical (execClassFillEnd s) := by
  unfold execClassFillEnd
  split
  · exact h.go
  · extract_lets _ _ s1
    have hs1 : Canonical s1 := (h.beside (by rfl)).setFilling
    split
    · exact hs1.reply.go
    · exact hs1.go

theorem EndsCanonical.move (h : Canonical s) {tag : Nat} {hostData : List Byte} :
    EndsCanonical (execMove tag hostData s) :=
  .ite h.go (Canonical.go (h.withCmd fun _ h1 => .ite h1.done (.ite h1.refuse (h1.beside (by rfl)))))

theorem Canonical.busWrite (h : Canonical s) {a : Nat} {b : List Byte} : Canonical (s.busWrite a b) := by
  obtain ⟨hdata, hhost, hrest⟩ := h
  have hwritten : Canonical { s with host := memWriteN s.host a b } := ⟨hdata, memWriteN_wf b s.host a hhost, hrest⟩
  exact hwritten.emit

theorem Canonical.busRead (h : Canonical s) {a n : Nat} : Canonical (s.busRead a n) := h.emit

theorem Canonical.putBytes (h : Canonical s) {a : Nat} {b : List Byte} : Canonical (s.putBytes a b).1 :=
  .iteFst h.busWrite h.store

theorem Canonical.moveAbort (h : Canonical s) {j : MoveJob} {code : Nat} : Canonical (s.moveAbort j code) :=
  h.tieLast.reply

theorem Canonical.moveUnmapped (h : Canonical s) {j : MoveJob} {k : Nat} : Canonical (s.moveUnmapped j k) :=
  h.unmapped.moveAbort

theorem Canonical.moveCopy (h : Canonical s) {j : MoveJob} {n : Nat} : Canonical (s.moveCopy j n) := by
  unfold State.moveCopy
  extract_lets c1 _ _ r2 d3 z4
  have hc1 : Canonical c1.1 := .iteFst h h.load
  have hr2 : Canonical r2.2 := by
    unfold r2
    split
    · exact hc1.freeBytes
    · exact hc1
  have hd3 : Canonical d3.1 := hr2.putBytes
  have hz4 : Canonical z4.1 := .iteFst hd3 hd3.store
  split
  · exact hd3.moveAbort
  · exact hd3.moveAbort
  · split
    · exact hd3.moveUnmapped
    · split
      · exact hz4.moveAbort
      · exact hz4.reply

theorem EndsCanonical.moveDone (h : Canonical s) : EndsCanonical (execMoveDone s) := by
  unfold execMoveDone
  split
  · exact h.go
  · exact (h.beside (by rfl)).moveCopy.go

theorem Canonical.setLnChange (h : Canonical s) {n g : Nat} {f : LnChange → LnChange} :
    Canonical (s.setLnChange n g f) :=
  h.beside (by rfl)

theorem Canonical.lnIdle (h : Canonical s) {n g : Nat} : Canonical (s.lnIdle n g) := h.set

theorem Canonical.zeroGroup (h : Canonical s) {n g : Nat} : Canonical (s.zeroGroup n g) := by
  obtain ⟨hdata, hrest⟩ := h
  exact ⟨memZero_wf s.mem.data _ _ hdata, hrest⟩

theorem Canonical.dropLines (h : Canonical s) {n g : Nat} : Canonical (s.dropLines n g) := h.beside (by rfl)

theorem Canonical.lnFinish (h : Canonical s) {n g : Nat} : Canonical (s.lnFinish n g) := by
  unfold State.lnFinish
  extract_lets s1 _
  have hs1 : Canonical s1 := h.dropLines.zeroGroup.lnIdle
  exact hs1.beside (by rfl)

theorem Canonical.lnDrained (h : Canonical s) {n g : Nat} {c : LnChange} : Canonical (s.lnDrained n g c) :=
  .ite h.lnFinish h.setLnChange

theorem Canonical.markAccepted (h : Canonical s) {n g : Nat} : Canonical (s.markAccepted n g) := h.beside (by rfl)

theorem EndsCanonical.liningRequestsDrained (h : Canonical s) {n g : Nat} :
    EndsCanonical (execLiningRequestsDrained n g s) := by
  unfold execLiningRequestsDrained
  split
  · exact .ite h.go h.lnDrained.go
  · exact h.go

theorem EndsCanonical.liningWritebackDone (h : Canonical s) {n g : Nat} :
    EndsCanonical (execLiningWritebackDone n g s) := by
  unfold execLiningWritebackDone
  split
  · exact .ite h.go (.ite h.lnFinish.go h.dropLines.setLnChange.go)
  · exact h.go

theorem EndsCanonical.liningWritebackDeadline (h : Canonical s) {n g : Nat} :
    EndsCanonical (execLiningWritebackDeadline n g s) := by
  unfold execLiningWritebackDeadline
  split
  · exact .ite h.raise.go h.go
  · exact h.go

theorem EndsCanonical.liningPowerUpDone (h : Canonical s) {n g : Nat} :
    EndsCanonical (execLiningPowerUpDone n g s) := by
  unfold execLiningPowerUpDone
  split
  · exact .ite h.lnFinish.go h.go
  · exact h.go

theorem EndsCanonical.liningModeChangeEnd (h : Canonical s) {n g : Nat} :
    EndsCanonical (execLiningModeChangeEnd n g s) := by
  unfold execLiningModeChangeEnd
  split
  · exact .ite h.go h.lnFinish.go
  · exact h.go

theorem Canonical.repairCmd (h : Canonical s) {n op : Nat} {v : W64} : Canonical (s.repairCmd n op v) :=
  .ite (h.beside (by rfl)) h.raise

theorem EndsCanonical.modeRegisterRead (h : Canonical s) {n : Nat} {v : W64} :
    EndsCanonical (execModeRegisterRead n v s) :=
  .ite h.go h.repairCmd.go

theorem EndsCanonical.modeRegisterWrite (h : Canonical s) {n : Nat} {v : W64} :
    EndsCanonical (execModeRegisterWrite n v s) :=
  .ite h.go h.repairCmd.go

theorem EndsCanonical.hardPpr (h : Canonical s) {n : Nat} {v : W64} : EndsCanonical (execHardPpr n v s) :=
  .ite h.go h.repairCmd.go

theorem EndsCanonical.mcRepairDone (h : Canonical s) {n : Nat} {fail : Bool} {rv : Byte} :
    EndsCanonical (execMcRepairDone n fail rv s) := by
  unfold execMcRepairDone
  split
  · exact h.go
  · exact .ite (h.beside (by rfl)).setAll.set.go (h.beside (by rfl)).setAll.go

end

section
/-! PROOFS. Canonical memories: the sequencer and the units of a tile, and its bobbins
(spec/03_compute_tile.md, spec/09_bobbin_streams.md). -/

open Sys2Proof Sys2Proof.Machine

variable {s : State} {x : Tile}

theorem CanonicalTile.setPc (h : CanonicalTile x) {r : Nat} : CanonicalTile (x.setPc r) := (h.beside (by rfl)).set

theorem CanonicalTile.running (h : CanonicalTile x) : CanonicalTile x.running := (h.beside (by rfl)).set.untrip

theorem CanonicalTile.advance (h : CanonicalTile x) : CanonicalTile x.advance := h.goTo.running

theorem CanonicalTile.branch (h : CanonicalTile x) {r : Nat} : CanonicalTile (x.branch r) :=
  (h.beside (by rfl)).setPc.running

theorem CanonicalTile.afterEnd (h : CanonicalTile x) : CanonicalTile x.afterEnd := by
  unfold Tile.afterEnd
  split
  · exact (h.beside (by rfl)).goTo.running
  · exact h.advance

theorem Canonical.fetch (h : Canonical s) {t : Nat} {e : Ecc} {k : State → State}
    (hk : ∀ {s : State}, Canonical s → Canonical (k s)) : Canonical (s.fetch t e k) := by
  unfold State.fetch
  split
  · exact hk h
  · exact hk (.tileFault (.bump (h.onTile fun h1 => h1.set.bump)))
  · exact h.tileStop

theorem CanonicalTile.waits (h : CanonicalTile x) {w : Option Wait} : CanonicalTile (x.waits w) :=
  (h.beside (by rfl)).set

theorem Canonical.room (h : Canonical s) {t : Nat} {k : State → State}
    (hk : ∀ {s : State}, Canonical s → Canonical (k s)) : Canonical (s.room t k) :=
  .ite (hk h) (h.onTile fun h1 => h1.waits)

theorem Canonical.issuing (h : Canonical s) {t : Nat} {e : Ecc} {k : State → State}
    (hk : ∀ {s : State}, Canonical s → Canonical (k s)) : Canonical (s.issuing t e k) :=
  h.fetch fun h1 => h1.room fun h2 => hk h2

theorem CanonicalTile.setDl (h : CanonicalTile x) {r v : Nat} : CanonicalTile (x.setDl r v) := by
  unfold Tile.setDl
  split
  · exact h.set
  · exact h.set
  · exact h.set
  · exact h.set

theorem EndsCanonical.halt (h : Canonical s) {t : Nat} {e : Ecc} : EndsCanonical (execHalt t e s) :=
  .ite (.go (.issuing h fun h1 => .ite (h1.onTile fun h2 => h2.running.beside (by rfl)) h1)) h.go

theorem EndsCanonical.nop (h : Canonical s) {t : Nat} {e : Ecc} : EndsCanonical (execNop t e s) :=
  .ite (Canonical.go (h.issuing fun h1 => h1.onTile fun h2 => h2.advance)) h.go

theorem EndsCanonical.fence (h : Canonical s) {t : Nat} {e : Ecc} {units : List TUnit} :
    EndsCanonical (execFence t e units s) :=
  .ite (Canonical.go (h.issuing fun h1 => .ite h1 (h1.onTile fun h2 => h2.advance))) h.go

theorem EndsCanonical.loop (h : Canonical s) {t : Nat} {e : Ecc} {count : LoopCount} {last : Nat} :
    EndsCanonical (execLoop t e count last s) :=
  .ite (Canonical.go (h.issuing fun h1 => h1.onTile fun h2 => .ite h2.goTo.running (h2.advance.beside (by rfl)))) h.go

theorem EndsCanonical.jmp (h : Canonical s) {t : Nat} {e : Ecc} {target : Nat} :
    EndsCanonical (execJmp t e target s) :=
  .ite (Canonical.go (h.issuing fun h1 => h1.onTile fun h2 => h2.branch)) h.go

theorem Canonical.progTake (h : Canonical s) {t q : Nat} {k : Token} : Canonical (s.progTake t q k) := by
  unfold State.progTake
  extract_lets x1 _ s2
  have hx1 : CanonicalTile x1 := h.tile
  have hs2 : CanonicalTile s2 := hx1.dropHead
  exact .ite (h.setTile (hs2.beside (by rfl))) (.ite (h.setTile (hs2.beside (by rfl))) h.consume)

theorem Canonical.progHead (h : Canonical s) {t q : Nat} {ctl : Bool} {k : State → Token → State}
    (hk : ∀ {s : State} (b : Token), Canonical s → Canonical (k s b)) : Canonical (s.progHead t q ctl k) := by
  unfold State.progHead
  extract_lets x1
  have hx1 : CanonicalTile x1 := h.tile
  split
  · exact h.progFault
  · split
    · exact h.onTile fun h2 => h2.waits
    · exact .ite h.progFault (.ite (h.progTake.onTile fun h2 => h2.afterEnd) (.ite (h.onTile fun h2 => h2.waits) (hk
        _ h)))

theorem Canonical.queueRead (h : Canonical s) {t q : Nat} {tk : Token} {e : Ecc} {k : State → State}
    (hk : ∀ {s : State}, Canonical s → Canonical (k s)) : Canonical (s.queueRead t q tk e k) := by
  unfold State.queueRead
  split
  · exact hk h
  · split
    · exact hk h
    · exact hk h.tokFault
    · exact h.tileStop

theorem EndsCanonical.brctl (h : Canonical s) {t : Nat} {e : PayCheck} {q target : Nat} :
    EndsCanonical (execBrctl t e q target s) :=
  .ite (Canonical.go (h.issuing fun h1 => h1.progHead fun _ h2 => h2.queueRead fun h3 => h3.progTake.onTile fun h4 =>
    .ite h4.branch h4.advance)) h.go

theorem EndsCanonical.dlld (h : Canonical s) {t : Nat} {e : PayCheck} {reg q : Nat} :
    EndsCanonical (execDlld t e reg q s) :=
  .ite (Canonical.go (h.issuing fun h1 => h1.progHead fun _ h2 => h2.queueRead fun h3 => h3.progTake.onTile fun h4 =>
    h4.setDl.advance)) h.go

theorem Canonical.headFault (h : Canonical s) {t q code : Nat} {k : Token} : Canonical (s.headFault t q code k) :=
  .ite (h.onTile fun h1 => h1.waits) h.progFault

theorem EndsCanonical.recv (h : Canonical s) {t : Nat} {e pay : Ecc} {q : Nat} {dst : VDst} :
    EndsCanonical (execRecv t e pay q dst s) := by
  unfold execRecv
  refine .ite (.go (.issuing h fun h => .progHead h fun _ h => ?_)) h.go
  refine .ite (h.progTake.onTile fun h1 => h1.advance) ?_
  split
  · exact h
  · exact h.onTile id
  · exact h.headFault
  · exact h.queueRead fun h1 => h1.progTake.onTile fun h2 => h2.land.advance

theorem Canonical.spCorrected (h : Canonical s) {t bank : Nat} : Canonical (s.spCorrected t bank) :=
  .tileFault (.bump (h.onTile fun h1 => (h1.beside (by rfl)).set.bump))

theorem Canonical.readCorr (h : Canonical s) {t : Nat} {rs : List (Nat × Nat)} {err : OpErr} :
    Canonical (s.readCorr t rs err) := by
  unfold State.readCorr
  split
  · exact .ite h.spCorrected h
  · exact h

theorem EndsCanonical.send (h : Canonical s) {t : Nat} {e : SrcCheck} {c slot : Nat} {src : VSrc} {len : Nat} :
    EndsCanonical (execSend t e c slot src len s) := by
  unfold execSend
  refine .ite (.go (.issuing h fun h => ?_)) h.go
  refine .ite h.progFault ?_
  split
  · exact h.progFault
  · exact h.onTile id
  · exact h
  · refine .ite h (.ite (h.onTile fun h1 => h1.waits) ?_)
    extract_lets rs
    generalize (if e.err = OpErr.accParity then none else Tile.readFault _ rs e.err) = fault
    split
    · exact h.tileStop
    · exact h.readCorr.sendNew.onTile fun h1 => (CanonicalTile.ite h1.holdLast h1).advance

theorem Canonical.issue (h : Canonical s) {t : Nat} {op : TileOp} : Canonical (s.issue t op) :=
  h.onTile fun h1 => (h1.beside (by rfl)).advance

theorem Canonical.issueIf (h : Canonical s) {t : Nat} {op : TileOp} {a : Landing} : Canonical (s.issueIf t op a) := by
  unfold State.issueIf
  split
  · exact h.progFault
  · exact h.onTile id
  · exact h
  · exact h.issue

theorem Canonical.issueOp (h : Canonical s) {t : Nat} {op : TileOp} : Canonical (s.issueOp t op) := by
  unfold State.issueOp
  split
  · exact h.issueIf
  · exact .ite (h.onTile fun h1 => h1.advance) h.issueIf

theorem Canonical.issueSewn (h : Canonical s) {t : Nat} {k : State → State}
    (hk : ∀ {s : State}, Canonical s → Canonical (k s)) : Canonical (s.issueSewn t k) :=
  .ite h (hk h)

theorem EndsCanonical.tmma (h : Canonical s) {t : Nat} {e : Ecc} {d a b : Nat} :
    EndsCanonical (execTmma t e d a b s) :=
  .ite (Canonical.go (h.issuing fun h1 => h1.issueSewn fun h2 => .ite (h2.raiseAs.onTile fun h3 => h3.stopped)
    h2.issueIf)) h.go

theorem EndsCanonical.vop (h : Canonical s) {t : Nat} {e : Ecc} {k : VKind} {a b c : VSrc} {dst : VDst} {n : Nat} :
    EndsCanonical (execVop t e k a b c dst n s) :=
  .ite (Canonical.go (h.issuing fun h1 => h1.issueOp)) h.go

theorem EndsCanonical.vcvt (h : Canonical s) {t : Nat} {e : Ecc} {src : VSrc} {dst : VDst} {fmt n : Nat} :
    EndsCanonical (execVcvt t e src dst fmt n s) :=
  .ite (Canonical.go (h.issuing fun h1 => h1.issueOp)) h.go

theorem EndsCanonical.vred (h : Canonical s) {t : Nat} {e : Ecc} {mx : Bool} {src : VSrc} {idx n : Nat} :
    EndsCanonical (execVred t e mx src idx n s) :=
  .ite (Canonical.go (h.issuing fun h1 => h1.issueOp)) h.go

theorem EndsCanonical.accrd (h : Canonical s) {t : Nat} {e : Ecc} {m : AccMode} {base n : Nat} {dst : VDst} :
    EndsCanonical (execAccrd t e m base n dst s) :=
  .ite (Canonical.go (h.issuing fun h1 => h1.issueOp)) h.go

theorem EndsCanonical.accinit (h : Canonical s) {t : Nat} {e : Ecc} {m : AccMode} {base n : Nat} :
    EndsCanonical (execAccinit t e m base n s) :=
  .ite (Canonical.go (h.issuing fun h1 => h1.issueSewn fun h2 => h2.issueOp)) h.go

theorem EndsCanonical.accadd (h : Canonical s) {t : Nat} {e : Ecc} {m : AccMode} {src : VSrc} {base n : Nat} :
    EndsCanonical (execAccadd t e m src base n s) :=
  .ite (Canonical.go (h.issuing fun h1 => h1.issueSewn fun h2 => h2.issueOp)) h.go

theorem EndsCanonical.rpub (h : Canonical s) {t : Nat} {e : Ecc} {r k : Nat} : EndsCanonical (execRpub t e r k s) :=
  .ite (Canonical.go (h.issuing fun h1 => h1.issueSewn fun h2 => .ite (h2.onTile fun h3 => h3.advance) (.ite h2.issue
    h2.tileStop))) h.go

theorem EndsCanonical.rrel (h : Canonical s) {t : Nat} {e : Ecc} {r k : Nat} : EndsCanonical (execRrel t e r k s) :=
  .ite (Canonical.go (h.issuing fun h1 => h1.issueSewn fun h2 => .ite (h2.onTile fun h3 => h3.advance) (.ite h2.issue
    h2.tileStop))) h.go

theorem EndsCanonical.bobgo (h : Canonical s) {t : Nat} {e : Ecc} {b entry : Nat} :
    EndsCanonical (execBobgo t e b entry s) :=
  .ite (Canonical.go (h.issuing fun h1 => h1.issueSewn fun h2 => .ite (h2.raise.onTile fun h3 => h3.stopped) (.ite
    (h2.onTile fun h3 => h3.waits) (h2.onTile fun h3 => h3.setBob.set.set.set.set.advance)))) h.go

theorem Canonical.stalledCycles (h : Canonical s) {t n : Nat} : Canonical (s.stalledCycles t n) :=
  .bump (h.onTile fun h1 => h1.bump)

theorem EndsCanonical.ringAccessResume (h : Canonical s) {t : Nat} {agent : TAgent} {cycles : Nat} :
    EndsCanonical (execRingAccessResume t agent cycles s) := by
  unfold execRingAccessResume
  split
  · exact h.go
  · split
    · split
      · split
        · exact h.go
        · exact h.go
        · exact Canonical.go (.issueIf (h.stalledCycles.onTile fun h1 => h1.beside (by rfl)))
      · exact Canonical.go (h.stalledCycles.onTile fun h1 => h1.running.beside (by rfl))
      · exact h.go
    · exact .ite (Canonical.go (h.stalledCycles.onTile fun h1 => h1.setBob.set.untrip)) h.go
    · exact h.go

theorem EndsCanonical.tileRingStall (h : Canonical s) {t : Nat} {w : RingWait} :
    EndsCanonical (execTileRingStall t w s) := by
  unfold execTileRingStall
  extract_lets x1
  have hx1 : CanonicalTile x1 := h.tile
  split
  · split
    · exact .ite h.stalledCycles.tileStop.go h.go
    · exact h.go
  · exact .ite h.stalledCycles.abortStream.tileStop.go h.go
  · exact h.go

theorem EndsCanonical.basteSew (h : Canonical s) {b : BasteAt} : EndsCanonical (execBasteSew b s) := by
  unfold execBasteSew
  split
  · exact .ite h.verdictAt.go h.go
  · exact h.go

theorem EndsCanonical.basteSquash (h : Canonical s) {t idx : Nat} : EndsCanonical (execBasteSquash t idx s) := by
  unfold execBasteSquash
  split
  · exact .ite h.verdictAt.go h.go
  · exact h.go

theorem CanonicalTile.vwrite (h : CanonicalTile x) {o : OutOp} {dst : VDst} {b : List Byte} :
    CanonicalTile (x.vwrite o dst b) := by
  unfold Tile.vwrite
  split
  · exact h.store
  · exact h.store
  · split
    · exact h.holdAt
    · exact h.beside (by rfl)

theorem CanonicalTile.putRed (h : CanonicalTile x) {o : OutOp} {p : IdxPair} : CanonicalTile (x.putRed o p) := by
  unfold Tile.putRed
  split
  · exact h.holdAt
  · exact h.beside (by rfl)

theorem Canonical.opCnt (h : Canonical s) {t : Nat} {o : OutOp} {c : Cnt} : Canonical (s.opCnt t o c) := by
  unfold State.opCnt
  split
  · exact h.onTile fun h1 => h1.holdAt
  · exact h.tileCnt

theorem CanonicalTile.setAcc (h : CanonicalTile x) {a : Nat} {w : W32} : CanonicalTile (x.setAcc a w) :=
  h.beside (by rfl)

theorem CanonicalTile.setSat (h : CanonicalTile x) {a : Nat} {b : Bool} : CanonicalTile (x.setSat a b) :=
  h.beside (by rfl)

theorem CanonicalTile.accInit (h : CanonicalTile x) {m : AccMode} {a : Nat} : CanonicalTile (x.accInit m a) := by
  unfold Tile.accInit
  split
  · exact h.setAcc.setAcc
  · exact h.setAcc
  · exact h.setAcc.setSat

theorem CanonicalTile.accAddF (h : CanonicalTile x) {m : AccMode} {a : Nat} {v : W32} :
    CanonicalTile (x.accAddF m a v) := by
  unfold Tile.accAddF
  split
  · exact h.setAcc.setAcc
  · exact h.setAcc

theorem CanonicalTile.accAddI (h : CanonicalTile x) {a : Nat} {v : Int} : CanonicalTile (x.accAddI a v) :=
  .ite h.setAcc.setSat h.setAcc

theorem CanonicalTile.dotGroupsF (h : CanonicalTile x) {m : AccMode} {a lk j k : Nat} {ra rb : List Fv} :
    CanonicalTile (dotGroupsF x m a lk ra rb j k) := by
  induction j generalizing x k with
  | zero => exact h
  | succ j ih =>
    unfold Machine.dotGroupsF
    exact ih (.ite h h.accAddF)

theorem CanonicalTile.dotGroupsI (h : CanonicalTile x) {a lk j k : Nat} {ra rb : List Int} :
    CanonicalTile (dotGroupsI x a lk ra rb j k) := by
  induction j generalizing x k with
  | zero => exact h
  | succ j ih =>
    unfold Machine.dotGroupsI
    exact ih (.ite h h.accAddI)

theorem CanonicalTile.tensor (h : CanonicalTile x) {o : OutOp} {d offA offB : Nat} :
    CanonicalTile (x.tensor o d offA offB) := by
  unfold Tile.tensor
  extract_lets rf a b m n k f mode base y lm ln lk mem
  have hy : CanonicalTile y := .ite (.foldl h fun _ h1 => h1.accInit) h
  clear_value y mode
  cases mode with
  | int => exact .foldl hy fun _ h => .foldl h fun _ h => .foldl h fun _ h => h.dotGroupsI
  | comp => exact .foldl hy fun _ h => .foldl h fun _ h => .foldl h fun _ h => h.dotGroupsF
  | plain => exact .foldl hy fun _ h => .foldl h fun _ h => .foldl h fun _ h => h.dotGroupsF

theorem Canonical.perform (h : Canonical s) {t : Nat} {o : OutOp} : Canonical (s.perform t o) := by
  unfold State.perform
  extract_lets x1
  have hx1 : CanonicalTile x1 := h.tile
  split
  · exact .bump (.bump (h.setTile hx1.tensor.bump.bump))
  · exact .ite h (h.setTile hx1.vwrite)
  · exact .ite h (.opCnt (h.setTile hx1.vwrite))
  · exact .ite h (h.setTile hx1.putRed)
  · exact .ite h (.opCnt (h.setTile hx1.vwrite))
  · exact h.setTile (hx1.foldl fun _ h2 => h2.accInit)
  · extract_lets _
    refine .setTile h ?_
    refine .foldl hx1 fun _ h2 => ?_
    split
    · exact h2.accAddI
    · exact h2.accAddF
  · exact .ite h.tileStop (h.setTile hx1.set.untripOn)
  · exact .ite h.tileStop (h.setTile hx1.set.untripOn)

theorem EndsCanonical.opComplete (h : Canonical s) {t idx : Nat} {err : OpErr} :
    EndsCanonical (execOpComplete t idx err s) := by
  unfold execOpComplete
  extract_lets x1 s2
  have hx1 : CanonicalTile x1 := h.tile
  have hs2 : Canonical s2 := h.setTile (hx1.beside (by rfl))
  split
  · exact h.go
  · split
    · exact h.go
    · extract_lets _
      split
      · exact hs2.tileStop.go
      · exact hs2.readCorr.perform.go

theorem EndsCanonical.spCorrWriteback (h : Canonical s) {t bank : Nat} :
    EndsCanonical (execSpCorrWriteback t bank s) :=
  .ite (Canonical.go (h.onTile fun h1 => h1.beside (by rfl))) h.go

theorem CanonicalTile.setBobState (h : CanonicalTile x) {b v : Nat} : CanonicalTile (x.setBobState b v) :=
  .ite h.set.untrip h.set

theorem CanonicalTile.bgoto (h : CanonicalTile x) {b pc : Nat} : CanonicalTile (x.bgoto b pc) := h.set.setBobState

theorem CanonicalTile.bnext (h : CanonicalTile x) {b : Nat} : CanonicalTile (x.bnext b) := h.setBob.bgoto

theorem CanonicalTile.onBob (h : CanonicalTile x) {b : Nat} {f : Bob → Bob} : CanonicalTile (x.onBob b f) := h.setBob

theorem CanonicalTile.bobOutst (h : CanonicalTile x) {b : Nat} : CanonicalTile (x.bobOutst b) := h.set

theorem Canonical.bobFault (h : Canonical s) {t b code ridx : Nat} : Canonical (s.bobFault t b code ridx) :=
  h.abortStream.raise.onTile fun h1 => h1.stopped

theorem Canonical.bobRingFault (h : Canonical s) {t b sub : Nat} : Canonical (s.bobRingFault t b sub) :=
  h.abortStream.tileStop

theorem EndsCanonical.bobEnd (h : Canonical s) {t b : Nat} : EndsCanonical (execBobEnd t b s) :=
  .ite (.ite (Canonical.go (h.setTile h.tile.setBob.setBobState)) (Canonical.go (h.setTile h.tile.setBobState))) h.go

theorem EndsCanonical.bobLoop (h : Canonical s) {t b : Nat} : EndsCanonical (execBobLoop t b s) :=
  .ite (.ite (Canonical.go (h.setTile h.tile.bgoto)) (Canonical.go (h.setTile h.tile.onBob.bnext))) h.go

theorem EndsCanonical.endl (h : Canonical s) {t b : Nat} : EndsCanonical (execEndl t b s) := by
  unfold execEndl
  split
  · extract_lets x1 _
    have hx1 : CanonicalTile x1 := h.tile
    split
    · exact Canonical.go (h.setTile hx1.bnext)
    · exact .ite (Canonical.go (h.setTile hx1.setBob.bgoto)) (Canonical.go (h.setTile hx1.setBob.bnext))
  · exact h.go

theorem EndsCanonical.skipdl (h : Canonical s) {t b : Nat} : EndsCanonical (execSkipdl t b s) := by
  unfold execSkipdl
  split
  · extract_lets x1 _ _ _ _
    have hx1 : CanonicalTile x1 := h.tile
    split
    · exact .ite (Canonical.go (h.setTile hx1.setBob.bgoto)) (Canonical.go (h.setTile hx1.bnext))
    · exact Canonical.go (h.setTile hx1.bnext)
  · exact h.go

theorem EndsCanonical.seta (h : Canonical s) {t b : Nat} : EndsCanonical (execSeta t b s) :=
  .ite (Canonical.go (h.setTile h.tile.onBob.bnext)) h.go

theorem EndsCanonical.adda (h : Canonical s) {t b : Nat} : EndsCanonical (execAdda t b s) :=
  .ite (Canonical.go (h.setTile h.tile.onBob.bnext)) h.go

theorem EndsCanonical.seti (h : Canonical s) {t b : Nat} : EndsCanonical (execSeti t b s) :=
  .ite (Canonical.go (h.setTile h.tile.onBob.bnext)) h.go

theorem EndsCanonical.wait (h : Canonical s) {t b : Nat} : EndsCanonical (execWait t b s) :=
  .ite (.ite (Canonical.go (h.setTile h.tile.bnext)) (Canonical.go (h.setTile h.tile.setBobState))) h.go

theorem EndsCanonical.emit (h : Canonical s) {t b : Nat} : EndsCanonical (execEmit t b s) := by
  unfold execEmit
  extract_lets x w c s1
  have hs1 : Canonical s1 := by
    unfold s1
    split
    · exact h.sendNew
    · exact h.sendNew
    · exact h.sendNew
  exact .ite (.ite (.go (hs1.onTile fun h1 => h1.bnext)) (.go (h.setTile h.tile.setBobState))) h.go

theorem CanonicalTile.publish (h : CanonicalTile x) {b n : Nat} : CanonicalTile (x.publish b n) := by
  induction n generalizing x with
  | zero => exact h
  | succ n ih =>
    unfold Tile.publish
    exact .ite (ih h.set.untripOn.onBob) h

theorem EndsCanonical.pub (h : Canonical s) {t b : Nat} : EndsCanonical (execPub t b s) :=
  .ite (.ite h.bobRingFault.go (Canonical.go (h.setTile h.tile.onBob.publish.bnext))) h.go

theorem EndsCanonical.rel (h : Canonical s) {t b : Nat} : EndsCanonical (execRel t b s) :=
  .ite (.ite (Canonical.go (h.setTile h.tile.bnext)) (.ite h.bobRingFault.go (Canonical.go (h.setTile
    h.tile.onBob.set.untripOn.bnext)))) h.go

theorem Canonical.issueReq (h : Canonical s) {t b idx : Nat} {f : Xfer} {g : Seg} {o n target : Nat} :
    Canonical (s.issueReq t b idx f g o n target) :=
  .injectAll (h.setTile h.tile.onBob.bump.bobOutst)

theorem Canonical.carry (h : Canonical s) {t b : Nat} {f : Xfer} {n : Nat} : Canonical (s.carry t b f n) := by
  induction n generalizing s with
  | zero => exact h
  | succ n ih =>
    unfold State.carry
    extract_lets x
    split
    · exact h.onTile fun h1 => h1.bnext
    · refine .ite h ?_
      split
      · exact h.onTile fun h1 => h1.bump.setBobState
      · split
        · exact .ite h.unmapped.bobFault h.bobFault
        · exact .ite (ih h.issueReq) h.bobFault

theorem CanonicalTile.bstall (h : CanonicalTile x) {b : Nat} : CanonicalTile (x.bstall b) := h.onBob.setBobState

theorem EndsCanonical.ldr (h : Canonical s) {t b : Nat} : EndsCanonical (execLdr t b s) :=
  .ite (.ite (Canonical.go (h.setTile h.tile.bnext)) (.ite h.bobFault.go (.ite h.bobRingFault.go (.ite (Canonical.go
    (h.setTile h.tile.bstall)) h.carry.go)))) h.go

theorem EndsCanonical.ldp (h : Canonical s) {t b : Nat} : EndsCanonical (execLdp t b s) :=
  .ite (.ite (Canonical.go (h.setTile h.tile.bnext)) (.ite h.bobFault.go h.carry.go)) h.go

theorem Canonical.storeFrom (h : Canonical s) {t b a len w : Nat} {err : OpErr} :
    Canonical (s.storeFrom t b a len w err) := by
  unfold State.storeFrom
  extract_lets x1 s2 s3 _ _ s4 y5
  have hx1 : CanonicalTile x1 := h.tile
  have hs2 : Canonical s2 := h.readCorr
  have hs3 : Canonical s3 := hs2.onTile fun h1 => h1.onBob
  have hs4 : Canonical s4 := hs3.carry
  have hy5 : CanonicalTile y5 := hs4.tile
  split
  · exact h.abortStream.tileStop
  · exact .ite (hs4.addCnt.onTile fun h6 => h6.onBob) hs4

theorem EndsCanonical.str (h : Canonical s) {t b : Nat} {err : OpErr} : EndsCanonical (execStr t b err s) :=
  .ite (.ite (Canonical.go (h.setTile h.tile.bnext)) (.ite h.bobFault.go (.ite h.bobRingFault.go (.ite (Canonical.go
    (h.setTile h.tile.bstall)) (.ite h.go h.storeFrom.go))))) h.go

theorem EndsCanonical.stp (h : Canonical s) {t b : Nat} {err : OpErr} : EndsCanonical (execStp t b err s) :=
  .ite (.ite (Canonical.go (h.setTile h.tile.bnext)) (.ite h.bobFault.go (.ite h.go h.storeFrom.go))) h.go

theorem Canonical.respond (h : Canonical s) {unit stream epoch ridx status : Nat} {data : List Byte} :
    Canonical (s.respond unit stream epoch ridx status data) :=
  .ite h.sendUnit (h.foldl fun _ h1 => h1.sendUnit)

theorem Canonical.serveReq (h : Canonical s) {target : Nat} {q : BReq} {data : List Byte} {e : Ecc} :
    Canonical (s.serveReq target q data e) := by
  unfold State.serveReq
  extract_lets _ _ r1
  have hr1 : Canonical r1.1 := .iteFst h.writeMem h.readMem
  split
  · exact hr1.respond
  · exact hr1.respond

theorem Canonical.hostIssue (h : Canonical s) {q : BReq} {data : List Byte} : Canonical (s.hostIssue q data) :=
  .ite (.ite (h.beside (by rfl)).busWrite (h.beside (by rfl)).busRead) h.raise.respond

theorem EndsCanonical.bobbinRequest (h : Canonical s) {target : Nat} {p0 p1 : W64} {data : List Byte} {wait : Nat}
    {e : Ecc} : EndsCanonical (execBobbinRequest target p0 p1 data wait e s) :=
  .ite h.go (.ite (Canonical.go (h.dry.arrive fun h1 => h1.serveReq)) (.ite h.dry.hostIssue.go h.go))

theorem EndsCanonical.retirementToken (h : Canonical s) {target stream epoch : Nat} :
    EndsCanonical (execRetirementToken target stream epoch s) :=
  .ite (Canonical.go (.respond (.bump (.ite (h.beside (by rfl)) (h.beside (by rfl)))))) h.go

theorem CanonicalTile.reqWaitOver (h : CanonicalTile x) {b : Nat} : CanonicalTile (x.reqWaitOver b) := .ite h.untrip h

theorem CanonicalTile.landResp (h : CanonicalTile x) {b : Nat} {q : BobReq} {num : Nat} {data : List Byte} :
    CanonicalTile (x.landResp b q num data) := by
  unfold Tile.landResp
  extract_lets d y left reqs z w
  have hy : CanonicalTile y := .ite h h.write
  have hz : CanonicalTile z := hy.onBob
  have hw : CanonicalTile w := .ite hz.bump.reqWaitOver hz
  exact hw.publish.bobOutst

theorem CanonicalTile.retire (h : CanonicalTile x) {b epoch : Nat} : CanonicalTile (x.retire b epoch) :=
  .ite h.setBob.setBobState h.setBob

theorem EndsCanonical.bobbinResponse (h : Canonical s) {t b ridx num status epoch : Nat} {data : List Byte} :
    EndsCanonical (execBobbinResponse t b ridx num status epoch data s) := by
  unfold execBobbinResponse
  extract_lets x1 _
  have hx1 : CanonicalTile x1 := h.tile
  split
  · exact h.go
  · split
    · split
      · exact h.bobFault.go
      · exact .ite (.ite h.go (Canonical.go (h.setTile hx1.landResp))) (Canonical.go (.bobFault (h.setTile
          hx1.onBob)))
    · exact .ite (Canonical.go (h.setTile hx1.retire)) h.bump.go

theorem EndsCanonical.bobReqDeadline (h : Canonical s) {t b : Nat} : EndsCanonical (execBobReqDeadline t b s) := by
  unfold execBobReqDeadline
  extract_lets _
  split
  · exact h.bobFault.go
  · exact .ite h.go h.bobFault.go

end

section
/-! PROOFS. Canonical memories: host accesses, requests served and what a reset clears
(spec/11_host_interface_and_command_tape.md, spec/14_reset_bringup_selftest.md). -/

open Sys2Proof Sys2Proof.Machine

variable {s : State} {x : Tile}

theorem Canonical.hostTail (h : Canonical s) {a n : Nat} : Canonical (s.hostTail a n) := .ite h.bump.raise h

theorem Canonical.hostLoad (h : Canonical s) {a n : Nat} {e : Ecc} : Canonical (s.hostLoad a n e).1 :=
  .iteFst h.bump h.hostTail.moveTouch.loadRuns

theorem Canonical.hostWrite (h : Canonical s) {a : Nat} {b : List Byte} {poisoned : Bool} :
    Canonical (s.hostWrite a b poisoned) :=
  .ite (.beside (h.hostTail.foldl fun _ h1 => h1.writeMem) (by rfl)) (h.hostTail.foldl fun _ h1 => h1.writeMem)

theorem Canonical.notice (h : Canonical s) {a n : Nat} : Canonical (s.notice a n) := .ite (h.beside (by rfl)) h

theorem Canonical.serveHdmRead (h : Canonical s) {a n : Nat} {e : Ecc} : Canonical (s.serveHdmRead a n e) := by
  unfold State.serveHdmRead
  extract_lets r1
  have hr1 : Canonical r1.1 := h.bump.hostLoad
  split
  · exact hr1.emit
  · exact hr1.emit

theorem Canonical.serveHdmWrite (h : Canonical s) {a : Nat} {b : List Byte} {poisoned : Bool} :
    Canonical (s.serveHdmWrite a b poisoned) :=
  h.bump.hostWrite.notice

theorem EndsCanonical.hdmRead (h : Canonical s) {acc : HostAccess} {len : Nat} {e : Ecc} :
    EndsCanonical (execHdmRead acc len e s) := by
  unfold execHdmRead
  split
  · exact h.go
  · split
    · exact h.freeBytes.emit.go
    · extract_lets s1
      have hs1 : Canonical s1 := h.dry
      split
      · exact hs1.holdReq.go
      · exact hs1.serveHdmRead.go

theorem EndsCanonical.hdmWrite (h : Canonical s) {acc : HostAccess} {bytes : List Byte} {poisoned : Bool} :
    EndsCanonical (execHdmWrite acc bytes poisoned s) := by
  unfold execHdmWrite
  split
  · exact h.go
  · split
    · exact h.emit.go
    · extract_lets s1
      have hs1 : Canonical s1 := h.dry
      split
      · exact hs1.holdReq.go
      · exact hs1.serveHdmWrite.emit.go

theorem Canonical.windowRead (h : Canonical s) {off n : Nat} : Canonical (s.windowRead off n) := by
  unfold State.windowRead
  extract_lets _ r1
  have hr1 : Canonical r1.1 := h.bump.hostLoad
  split
  · exact hr1.emit
  · exact hr1.emit

theorem EndsCanonical.tapeWindowAccess (h : Canonical s) {write : Bool} {off : HostAt} {len : Nat}
    {bytes : List Byte} : EndsCanonical (execTapeWindowAccess write off len bytes s) :=
  .ite h.go (.ite (.ite h.go h.serveHdmWrite.go) h.windowRead.go)

theorem Canonical.serve (h : Canonical s) {seed : Nat × Nat} {a : Instr} : Canonical (s.serve seed a) := by
  unfold State.serve
  split
  · exact h.readMem.answer
  · exact h.writeMem.answer
  · exact h.atom
  · exact h.atom
  · exact h.atom
  · exact h.atom
  · exact h.serveReq
  · exact h.serveHdmRead
  · exact h.serveHdmWrite.emit
  · exact h

theorem Canonical.refuseHeld (h : Canonical s) {code : Nat} {q : HeldReq} : Canonical (s.refuseHeld code q) := by
  unfold State.refuseHeld
  split
  · exact h.emit
  · exact h.emit
  · exact h.emit
  · exact h.emit
  · exact h.emit
  · exact h.emit
  · exact h.respond
  · exact h

theorem Canonical.asOpen (h : Canonical s) {n g : Nat} {f : State → State}
    (hf : ∀ {s : State}, Canonical s → Canonical (f s)) : Canonical (s.asOpen n g f) :=
  .set (.set (hf h.set.set))

theorem Canonical.release1 (h : Canonical s) {q : HeldReq} : Canonical (s.release1 q) := by
  unfold State.release1
  extract_lets _ _
  split
  · exact h.beside (by rfl)
  · split
    · exact h.asOpen fun h1 => h1.serve
    · exact h.serve

theorem Canonical.drainHeld (h : Canonical s) {gran n : Nat} : Canonical (s.drainHeld gran n) := by
  induction n generalizing s with
  | zero => exact h
  | succ n ih =>
    unfold State.drainHeld
    split
    · exact .ite h (ih (h.beside (by rfl)).release1)
    · exact h

theorem Canonical.decideReq (h : Canonical s) {q : HeldReq} {sew : Bool} : Canonical (s.decideReq q sew) :=
  (h.beside (by rfl)).drainHeld

theorem EndsCanonical.liningPdDeadline (h : Canonical s) {n g : Nat} :
    EndsCanonical (execLiningPdDeadline n g s) := by
  unfold execLiningPdDeadline
  split
  · exact .ite h.go (Canonical.go (.lnDrained (.raise (.foldl ((h.beside (by rfl)).foldl fun _ h1 => h1.refuseHeld)
      fun _ h1 => h1.emit))))
  · exact h.go

theorem Canonical.setBias (h : Canonical s) {c : Cmd} : Canonical (s.setBias c) := h.beside (by rfl)

theorem Canonical.keepRegs (h : Canonical s) {keep : Nat → Bool} : Canonical (s.keepRegs keep) := h.beside (by rfl)

theorem Canonical.resetVset (h : Canonical s) : Canonical s.resetVset := h.foldl fun _ h1 => .ite h1 h1.set

theorem Canonical.stopMove (h : Canonical s) : Canonical s.stopMove := by
  unfold State.stopMove
  split
  · exact h
  · exact .ite (h.beside (by rfl)).freeBytes.putBytes (h.beside (by rfl)).freeBytes.putBytes.freeBytes.put

theorem Canonical.settleMem (h : Canonical s) : Canonical s.settleMem := by
  unfold State.settleMem
  extract_lets _ _ s1 s2 _ _ s3 _
  have hs1 : Canonical s1 := h.beside (by rfl)
  have hs2 : Canonical s2 := hs1.foldl fun _ h1 => .ite h1 h1.release1
  have hs3 : Canonical s3 := (hs2.beside (by rfl)).foldl fun _ h1 => h1.serve
  exact hs3.foldl fun _ h4 => h4.setBias

theorem Canonical.clearFabric (h : Canonical s) : Canonical s.clearFabric := by
  obtain ⟨hdata, hhost, -, hflash⟩ := h
  exact ⟨hdata, hhost, fun e he => absurd he List.not_mem_nil, hflash⟩

theorem Canonical.clearPort' (h : Canonical s) : Canonical s.clearPort' := h.beside (by rfl)

theorem Canonical.clearMem (h : Canonical s) : Canonical s.clearMem := by
  obtain ⟨-, hrest⟩ := h
  exact ⟨rfl, hrest⟩

theorem Canonical.clearWarm (h : Canonical s) {flr : Bool} : Canonical (s.clearWarm flr) := by
  unfold State.clearWarm
  extract_lets _ s1 _ s2 _ s3 _ _ _ s4 s5
  have hs1 : Canonical s1 := h.stopMove.settleMem
  clear_value s1
  have hs2 : Canonical s2 := hs1.clearFabric.keepRegs.resetVset
  clear_value s2
  have hs3 : Canonical s3 := hs2.beside (by rfl)
  clear_value s3
  have hs4 : Canonical s4 := hs3.beside (by rfl)
  clear_value s4
  have hs5 : Canonical s5 := hs4.set
  clear_value s5
  exact .ite hs5 hs5.clearPort'

theorem Canonical.clearCold (h : Canonical s) {aux : Bool} : Canonical (s.clearCold aux) := by
  unfold State.clearCold
  extract_lets _ s1 s2 _ _ s3
  have hs1 : Canonical s1 := h.clearFabric.clearPort'.clearMem
  clear_value s1
  have hs2 : Canonical s2 := hs1.keepRegs.resetVset
  clear_value s2
  have hs3 : Canonical s3 := hs2.beside (by rfl)
  clear_value s3
  exact hs3.set

theorem Canonical.endTest (h : Canonical s) : Canonical s.endTest := .ite h.setAll h

theorem Canonical.removeRails (h : Canonical s) : Canonical s.removeRails := by
  unfold State.removeRails
  extract_lets _ _ s1 s2 s3 s4 _ _
  have hs1 : Canonical s1 := h.endTest.clearFabric.clearPort'.clearMem
  clear_value s1
  have hs2 : Canonical s2 := hs1.beside (by rfl)
  clear_value s2
  have hs3 : Canonical s3 := hs2.setAll
  clear_value s3
  have hs4 : Canonical s4 := hs3.foldl fun _ h1 => h1.setAll
  clear_value s4
  exact hs4.beside (by rfl)

theorem Canonical.lose50 (h : Canonical s) : Canonical s.lose50 := by
  unfold State.lose50
  extract_lets s1 _ _
  have hs1 : Canonical s1 := h.removeRails.set
  clear_value s1
  exact hs1.beside (by rfl)

end

section
/-! PROOFS. Canonical memories: shuttles, tokens and patterns (spec/04_fabric_tokens_and_steering.md,
spec/05_patterns_and_reconfiguration.md). -/

open Sys2Proof Sys2Proof.Machine

variable {s : State} {x : Tile}

theorem CanonicalTile.shutNote (h : CanonicalTile x) {k tag side : Nat} : CanonicalTile (x.shutNote k tag side) :=
  h.set.set

theorem Canonical.passOn (h : Canonical s) {t k c : Nat} {from_ : List (Nat × Token)} {d : Token} :
    Canonical (s.passOn t k c from_ d) :=
  .ite h.sendAs (h.sendAs.onTile fun h1 => h1.setShut.beside (by rfl))

theorem Canonical.shutFault (h : Canonical s) {t k code : Nat} {heads : List Token} :
    Canonical (s.shutFault t k code heads) :=
  .ite h h.tileStop

theorem Canonical.steer (h : Canonical s) {t k : Nat} {c d : Token} {ctl dat : Ecc} :
    Canonical (s.steer t k c d ctl dat) := by
  unfold State.steer
  extract_lets x1 _ _ _ _ _ _ _
  have hx1 : CanonicalTile x1 := h.tile
  exact .ite (h.queueRead fun h2 => .onTile (h2.consume.consume.onTile fun h3 => h3.beside (by rfl)) fun h3 =>
    h3.set) (.ite h (h.queueRead fun h2 => h2.queueRead fun h3 => h3.consume.consume.passOn.onTile fun h4 => h4.set))

theorem EndsCanonical.shuttleFire (h : Canonical s) {t : Nat} {k : ShutRead} :
    EndsCanonical (execShuttleFire t k s) := by
  unfold execShuttleFire
  extract_lets x1
  have hx1 : CanonicalTile x1 := h.tile
  split
  · exact h.go
  · split
    · exact h.go
    · split
      · split
        · exact h.shutFault.go
        · exact h.go
      · split
        · exact h.go
        · exact .ite h.shutFault.go h.steer.go

theorem EndsCanonical.shuttleBaste (h : Canonical s) {t : Nat} {k : ShutRead} :
    EndsCanonical (execShuttleBaste t k s) := by
  unfold execShuttleBaste
  extract_lets x1 _ _ _ _
  have hx1 : CanonicalTile x1 := h.tile
  split
  · exact h.go
  · split
    · exact h.go
    · exact .ite h.go (Canonical.go (h.queueRead fun h2 => .bump (.onTile (h2.consume.sendAs.onTile fun h3 =>
        h3.setShut.beside (by rfl)) fun h3 => h3.bump)))

theorem Canonical.resendNow (h : Canonical s) {t k : Nat} : Canonical (s.resendNow t k) := by
  unfold State.resendNow
  extract_lets x1
  have hx1 : CanonicalTile x1 := h.tile
  split
  · exact .ite (h.sendAs.onTile fun h2 => h2.beside (by rfl)) h
  · exact h

theorem Canonical.resolveSew (h : Canonical s) {t k : Nat} {b : BasteBuf} : Canonical (s.resolveSew t k b) := by
  unfold State.resolveSew
  extract_lets s1 y2
  have hs1 : Canonical s1 := .bump (h.onTile fun h1 => h1.bump)
  have hy2 : CanonicalTile y2 := hs1.tile.setShut
  exact .ite (hs1.setTile hy2.setShut) (.sendVerdict (hs1.setTile hy2))

theorem Canonical.resolveSquash (h : Canonical s) {t k side : Nat} {b : BasteBuf} :
    Canonical (s.resolveSquash t k side b) := by
  unfold State.resolveSquash
  extract_lets s1 x2 x3 _ _ _ _ _ _ x4 x5 x6
  have hs1 : Canonical s1 := h.squashed
  have hx2 : CanonicalTile x2 := hs1.tile
  have hx3 : CanonicalTile x3 := hx2.setShut
  have hx4 : CanonicalTile x4 := hx3.beside (by rfl)
  have hx5 : CanonicalTile x5 := hx4.beside (by rfl)
  have hx6 : CanonicalTile x6 := .ite hx5.setShut hx5
  exact .ite (.sendVerdict (hs1.setTile (hx3.beside (by rfl)))) (.resendNow (.sendVerdict (hs1.setTile hx6)))

theorem EndsCanonical.shuttleResolve (h : Canonical s) {t : Nat} {k : ShutRead} :
    EndsCanonical (execShuttleResolve t k s) := by
  unfold execShuttleResolve
  extract_lets x1 _
  have hx1 : CanonicalTile x1 := h.tile
  split
  · exact h.go
  · split
    · exact h.resendNow.go
    · split
      · exact .ite h.shutFault.go (.ite h.go (Canonical.go (h.queueRead fun h2 => .ite (.resolveSew
          (h2.consume.onTile fun h3 => h3.shutNote)) (.resolveSquash (h2.consume.onTile fun h3 => h3.shutNote)))))
      · exact h.go

theorem EndsCanonical.shuttleEndPass (h : Canonical s) {t k : Nat} : EndsCanonical (execShuttleEndPass t k s) :=
  .ite (Canonical.go (.foldl (h.foldl fun _ h1 => h1.consume) fun _ h1 => h1.sendNew)) h.go

theorem Canonical.sendHem (h : Canonical s) {t c : Nat} : Canonical (s.sendHem t c) :=
  h.sendNew.onTile fun h1 => h1.setOch

theorem EndsCanonical.shuttleHemPass (h : Canonical s) {t k : Nat} : EndsCanonical (execShuttleHemPass t k s) :=
  .ite (Canonical.go (.onTile (.foldl (h.foldl fun _ h1 => h1.consumeHem) fun _ h1 => h1.sendHem) fun h1 => .ite
    (h1.beside (by rfl)) (h1.beside (by rfl)))) h.go

theorem Canonical.predSend (h : Canonical s) {t c q : Nat} {k : Token} {r : Bool} :
    Canonical (s.predSend t c q k r) :=
  .ite (h.sendAs.onTile fun h1 => h1.beside (by rfl)) h.sendAs

theorem CanonicalTile.predCount (h : CanonicalTile x) {q : Nat} {k : Token} : CanonicalTile (x.predCount q k) :=
  h.beside (by rfl)

theorem EndsCanonical.predicateFire (h : Canonical s) {p : PredRead} : EndsCanonical (execPredicateFire p s) := by
  unfold execPredicateFire
  extract_lets _ x1 _ s2
  have hx1 : CanonicalTile x1 := h.tile
  have hs2 : Canonical s2 := h.consume
  split
  · exact h.go
  · split
    · exact h.go
    · exact .ite (Canonical.go (.onTile (hs2.foldl fun _ h3 => h3.sendNew) fun h3 => h3.beside (by rfl))) (.ite h.go
        (Canonical.go (h.queueRead fun h3 => .onTile (h3.consume.foldl fun _ h4 => h4.predSend) fun h4 =>
        h4.predCount)))

theorem EndsCanonical.predicateHemPass (h : Canonical s) {t : Nat} : EndsCanonical (execPredicateHemPass t s) := by
  unfold execPredicateHemPass
  extract_lets x1 _ s2
  have hx1 : CanonicalTile x1 := h.tile
  have hs2 : Canonical s2 := h.consumeHem
  split
  · exact h.go
  · split
    · exact .ite (Canonical.go (.onTile (hs2.foldl fun _ h3 => h3.sendHem) fun h3 => h3.beside (by rfl))) h.go
    · exact h.go

theorem Canonical.payCheck (h : Canonical s) {unit : Nat} {k : Token} {e : Ecc} :
    Canonical (s.payCheck unit k e).1 := by
  unfold State.payCheck
  split
  · exact h
  · split
    · exact h
    · exact h.tokFault
    · exact .iteFst h.tileStop h.raise

theorem Canonical.routerIn (h : Canonical s) {n : NetTok} {hdr : W64} {e : Ecc} : Canonical (s.routerIn n hdr e) :=
  .ite h.tileStop (.ite h.payCheck (.ite h.payCheck.tokFault (h.payCheck.beside (by rfl))))

theorem EndsCanonical.tokenRouterInput (h : Canonical s) {r : Nat} {hdr : W64} {pay : List Byte} {e : Ecc} :
    EndsCanonical (execTokenRouterInput r hdr pay e s) := by
  unfold execTokenRouterInput
  split
  · exact h.go
  · split
    · exact h.depart.routerIn.go
    · exact h.routerIn.go
    · exact h.go

theorem CanonicalTile.noteTag (h : CanonicalTile x) {q : Nat} {q1 : W64} : CanonicalTile (x.noteTag q q1) :=
  .ite (.ite h.setQueue h.setQueue) h

theorem Canonical.keptVerdict (h : Canonical s) {t q : Nat} {k : Token} : Canonical (s.keptVerdict t q k) := by
  unfold State.keptVerdict
  split
  · split
    · exact .verdictAt (h.onTile fun h1 => h1.beside (by rfl))
    · exact h
  · exact h

theorem CanonicalTile.landTok (h : CanonicalTile x) {q : Nat} {k : Token} : CanonicalTile (x.landTok q k) :=
  .ite h.noteTag.setQueue.untripOn h.noteTag.setQueue

theorem Canonical.stageTok (h : Canonical s) {t q : Nat} {k : Token} : Canonical (s.stageTok t q k) :=
  .ite (.keptVerdict (.onTile (h.onTile fun h1 => h1.noteTag) fun h1 => h1.beside (by rfl))) (.sendSpill (h.onTile
    fun h1 => h1.noteTag))

theorem Canonical.toQueue (h : Canonical s) {t : Nat} {k : Token} : Canonical (s.toQueue t k) := by
  unfold State.toQueue
  extract_lets x1 _
  have hx1 : CanonicalTile x1 := h.tile
  split
  · exact h.tokFault.keptVerdict
  · exact .ite h.tokFault.keptVerdict (.ite h.stageTok (.ite h.tokFault.keptVerdict (.keptVerdict (h.setTile
      hx1.landTok))))

theorem Canonical.keptUnit (h : Canonical s) {u : Nat} {k : Token} : Canonical (s.keptUnit u k) := by
  unfold State.keptUnit
  split
  · exact (h.beside (by rfl)).heldUnit
  · exact h

theorem Canonical.atomToken (h : Canonical s) {u : Nat} {k : Token} {src : Option (Nat × Nat)} :
    Canonical (s.atomToken u k src) :=
  .ite (.ite h.tokFault.keptUnit h.tokFault.emit) (.ite (h.beside (by rfl)) h)

theorem Canonical.toUnit (h : Canonical s) {u : Nat} {k : Token} {src : Option (Nat × Nat)} :
    Canonical (s.toUnit u k src) :=
  .ite h.tokFault.keptUnit (.ite (h.beside (by rfl)) h.atomToken.creditTo)

theorem Canonical.deliverTok (h : Canonical s) {dest : Nat} {k : Token} {src : Option (Nat × Nat)} {e : Ecc} :
    Canonical (s.deliverTok dest k src e) :=
  .ite h.payCheck (.ite h.payCheck.toUnit (.ite (h.payCheck.onTile fun h1 => h1.beside (by rfl)) (.ite (.ite
    h.payCheck.tokFault h.payCheck) h.payCheck.toQueue)))

theorem Canonical.edge (h : Canonical s) {n : NetTok} : Canonical (s.edge n) := by
  unfold State.edge
  split
  · exact h.bump
  · exact h

theorem EndsCanonical.tokenDelivery (h : Canonical s) {dest : Nat} {hdr : W64} {pay : List Byte} {e : Ecc} :
    EndsCanonical (execTokenDelivery dest hdr pay e s) := by
  unfold execTokenDelivery
  split
  · exact h.go
  · split
    · exact .ite h.go h.depart.edge.deliverTok.go
    · exact .ite h.go h.deliverTok.go
    · exact h.go

theorem CanonicalTile.ochWaitOver (h : CanonicalTile x) {c : Nat} : CanonicalTile (x.ochWaitOver c) :=
  .ite h.untripOn h

theorem Canonical.addCredit (h : Canonical s) {c : Credit} : Canonical (s.addCredit c) :=
  .ite (h.onTile fun h1 => .ite h1.setOch.ochWaitOver (.ite h1.setOch h1)) (.ite (h.beside (by rfl)) (.ite (h.beside
    (by rfl)) (h.beside (by rfl))))

theorem Canonical.pumpStep (h : Canonical s) {pend : Bool} {k n : Nat} : Canonical (s.pumpStep pend k n) := by
  induction n generalizing s with
  | zero => exact h
  | succ n ih =>
    unfold State.pumpStep
    extract_lets l
    split
    · exact ih (h.beside (by rfl)).sendUnit
    · exact h

theorem Canonical.pumpDone (h : Canonical s) {n : Nat} : Canonical (s.pumpDone n) := by
  induction n generalizing s with
  | zero => exact h
  | succ n ih =>
    unfold State.pumpDone
    split
    · split
      · exact ih (h.beside (by rfl)).sendUnit
      · exact h
    · exact h

theorem Canonical.pumpUnits (h : Canonical s) : Canonical s.pumpUnits :=
  .pumpDone (.foldl (h.foldl fun _ h1 => h1.pumpStep) fun _ h1 => h1.pumpStep)

theorem EndsCanonical.creditReturn (h : Canonical s) {dest chan : Nat} :
    EndsCanonical (execCreditReturn dest chan s) := by
  unfold execCreditReturn
  split
  · exact (h.beside (by rfl)).addCredit.pumpUnits.go
  · exact h.go

theorem EndsCanonical.bucketRefill (h : Canonical s) {t c : Nat} : EndsCanonical (execBucketRefill t c s) :=
  .ite h.go (.ite (Canonical.go (h.onTile fun h1 => .ite h1.setOch.ochWaitOver h1)) (.ite (h.beside (by
    rfl)).pumpUnits.go (.ite (h.beside (by rfl)).go (h.beside (by rfl)).pumpUnits.go)))

theorem EndsCanonical.vc3GuardExpiry (h : Canonical s) {r : Nat} {p : Port} :
    EndsCanonical (execVc3GuardExpiry r p s) :=
  .ite (h.beside (by rfl)).go h.go

theorem EndsCanonical.fabChanDeadline (h : Canonical s) {t : Nat} {agent : TAgent} {w : Wait} :
    EndsCanonical (execFabChanDeadline t agent w s) := by
  unfold execFabChanDeadline
  split
  · extract_lets _ s1
    have hs1 : Canonical s1 := by
      unfold s1
      split
      · exact h.beside (by rfl)
      · exact h
    exact hs1.raise.go
  · split
    · extract_lets s1
      have hs1 : Canonical s1 := by
        unfold s1
        split
        · exact h.abortStream
        · exact h
      exact hs1.tileStop.go
    · exact h.go

theorem Canonical.setGen (h : Canonical s) {g x : Nat} : Canonical (s.setGen g x) := h.set

theorem Canonical.setPl (h : Canonical s) {v : Nat} : Canonical (s.setPl v) := h.set

theorem Canonical.onLoader (h : Canonical s) {f : Loader → Loader} : Canonical (s.onLoader f) := h.beside (by rfl)

theorem Canonical.plErr (h : Canonical s) {code sec off : Nat} : Canonical (s.plErr code sec off) := h.setAll

theorem Canonical.refuseLoad (h : Canonical s) {c : Cmd} {code sec off : Nat} :
    Canonical (s.refuseLoad c code sec off) :=
  h.plErr.bump.refuse

theorem Canonical.refuseLoadAs (h : Canonical s) {c : Cmd} {code : Nat} : Canonical (s.refuseLoadAs c code) :=
  h.plErr.bump.reply

theorem Canonical.discardLoad (h : Canonical s) : Canonical s.discardLoad := h.setGen.setAll.setPl.onLoader

theorem Canonical.abandonLoad (h : Canonical s) {kind code sec off : Nat} :
    Canonical (s.abandonLoad kind code sec off) :=
  h.plErr.bump.reply.discardLoad

theorem Canonical.cancelLoad (h : Canonical s) : Canonical s.cancelLoad := h.bump.discardLoad.onLoader

theorem Canonical.endDiscard (h : Canonical s) : Canonical s.endDiscard :=
  .ite (.ite h.setGen.setPl.onLoader.reply h.setGen.setPl.onLoader) h

theorem Canonical.readImage (h : Canonical s) {a n : Nat} {e : Ecc} : Canonical (s.readImage a n e).1 := by
  unfold State.readImage
  refine .iteFst h.raiseTied ?_
  split
  · next heq => exact h.load.of_pair heq
  · next heq => exact (h.load.of_pair heq).tieLast

theorem Canonical.startPass2 (h : Canonical s) {c : Cmd} {img : List Byte} : Canonical (s.startPass2 c img) := by
  unfold State.startPass2
  extract_lets g s1 s2
  have hs2 : Canonical s2 := h.setGen.setAll.setPl
  refine hs2.of_tiles rfl ?_
  dsimp only
  exact List.forall_mem_map.2 fun t _ => hs2.tile

theorem EndsCanonical.patternLoad (h : Canonical s) {tag : Nat} : EndsCanonical (execPatternLoad tag s) := by
  refine .go (.withCmd h fun _ h => .ite h.refuseLoad (.ite h.refuseLoad ?_))
  extract_lets a len
  split
  · next heq => exact (h.readImage.of_pair heq).refuseLoadAs
  · next heq =>
    have hread := h.readImage.of_pair heq
    split
    · exact hread.refuseLoad
    · exact hread.startPass2

theorem Canonical.withWithheld (h : Canonical s) : Canonical s.withWithheld := by
  refine h.of_tiles rfl fun e he => ?_
  obtain ⟨d, hd, rfl⟩ := List.mem_map.1 he
  exact h.tiles d hd

theorem CanonicalTile.stageTile (h : Canonical s) {img : List Byte} {gen t : Nat} :
    CanonicalTile (s.stageTile img gen t) :=
  h.tile.beside (by rfl)

theorem Canonical.pass2 (h : Canonical s) {img : List Byte} : Canonical (s.pass2 img) := by
  unfold State.pass2
  extract_lets g units
  refine .withWithheld (h.of_tiles rfl ?_)
  dsimp only
  exact List.forall_mem_map.2 fun t _ => .stageTile h

theorem Canonical.issueLoad (h : Canonical s) : Canonical s.issueLoad := by
  unfold State.issueLoad
  split
  · exact h.raiseTied.abandonLoad
  · exact h.setPl

theorem EndsCanonical.loadPass2 (h : Canonical s) {e : Ecc} : EndsCanonical (execLoadPass2 e s) := by
  unfold execLoadPass2
  extract_lets l
  refine .ite h.go ?_
  split
  · next heq => exact (h.readImage.of_pair heq).abandonLoad.go
  · next heq =>
    have hread := h.readImage.of_pair heq
    exact .ite hread.raiseTied.abandonLoad.go (.ite hread.pass2.setPl.go hread.pass2.issueLoad.go)

theorem EndsCanonical.patternArm (h : Canonical s) {tag : Nat} : EndsCanonical (execPatternArm tag s) := by
  unfold execPatternArm
  refine Canonical.go ?_
  refine .withCmd h fun _ h1 => ?_
  split
  · exact h1.refuseState
  · split
    · exact h1.issueLoad.reply
    · exact h1.issueLoad.done

theorem EndsCanonical.arm (h : Canonical s) {unit : Nat} : EndsCanonical (execArm unit s) :=
  .ite h.go (.ite (Canonical.go (h.onLoader.onTile fun h1 => h1.beside (by rfl))) h.onLoader.go)

theorem Canonical.moveTape (h : Canonical s) : Canonical s.moveTape := .ite (h.beside (by rfl)) h

theorem Canonical.moveSeam (h : Canonical s) : Canonical s.moveSeam := by
  unfold State.moveSeam
  split
  · exact .ite (h.beside (by rfl)) h
  · exact h

theorem Canonical.makeCurrent (h : Canonical s) : Canonical s.makeCurrent :=
  h.setGen.setGen.setAll.bump.setPl.onLoader.moveTape.reply

theorem Canonical.endRetire (h : Canonical s) : Canonical s.endRetire := .ite h.setGen.setPl.onLoader h

theorem Canonical.sendGo (h : Canonical s) : Canonical s.sendGo := .ite h.setPl.onLoader.makeCurrent h.setPl.onLoader

theorem EndsCanonical.armAck (h : Canonical s) {unit : Nat} : EndsCanonical (execArmAck unit s) :=
  .ite h.go (.ite h.onLoader.sendGo.go h.onLoader.go)

theorem Canonical.sendVia (h : Canonical s) {p : Nat} {rs : List RouteRec} {m : SMsg} :
    Canonical (s.sendVia p rs m) := by
  unfold State.sendVia
  split
  · exact h.portSend
  · exact h.raise

theorem Canonical.sendMsg (h : Canonical s) {p : Nat} {m : SMsg} : Canonical (s.sendMsg p m) := h.sendVia

theorem Canonical.grant (h : Canonical s) {p smod slot n : Nat} : Canonical (s.grant p smod slot n) := h.sendMsg

theorem Canonical.enforceIns (h : Canonical s) {p gen : Nat} : Canonical (s.enforceIns p gen) :=
  (h.beside (by rfl)).foldl fun _ h1 => h1.grant

theorem EndsCanonical.goAtUnit (h : Canonical s) {unit : Nat} : EndsCanonical (execGo unit s) := by
  unfold execGo
  extract_lets l s1
  have hs1 : Canonical s1 := h.onLoader
  exact .ite h.go (.ite (.go (hs1.onTile fun h1 => h1.beside (by rfl))) (.ite hs1.enforceIns.moveSeam.go
    (.ite hs1.moveTape.go hs1.go)))

theorem EndsCanonical.hemSend (h : Canonical s) {t c : Nat} : EndsCanonical (execHemSend t c s) :=
  .ite (Canonical.go (h.sendNew.onTile fun h1 => h1.setOch)) h.go

theorem Canonical.takeHems (h : Canonical s) {t : Nat} : Canonical (s.takeHems t) :=
  h.foldl fun _ h1 => .ite h1.consumeHem h1

theorem Canonical.switchTile (h : Canonical s) {t : Nat} {p : TilePend} : Canonical (s.switchTile t p) := by
  unfold State.switchTile
  extract_lets _ _ s1 x2 s3 s4 _ s5 s6
  have hs1 : Canonical s1 := h.takeHems
  clear_value s1
  have hx2 : CanonicalTile x2 := hs1.tile
  clear_value x2
  have hs3 : Canonical s3 := hs1.setTile hx2.switched
  clear_value s3
  have hs4 : Canonical s4 := hs3.onLoader
  clear_value s4
  have hs5 : Canonical s5 := .ite (hs4.beside (by rfl)) hs4
  clear_value s5
  have hs6 : Canonical s6 := hs5.set
  clear_value s6
  split
  · refine .onTile hs1.raise (fun h7 => h7.stopped.beside (by rfl))
  · exact .ite (.endRetire (.ite hs6.makeCurrent hs6)) hs5.endRetire

theorem EndsCanonical.tileSwitch (h : Canonical s) {t : Nat} : EndsCanonical (execTileSwitch t s) := by
  unfold execTileSwitch
  split
  · exact .ite h.switchTile.go h.go
  · exact h.go

theorem Canonical.hemChans (h : Canonical s) {gen : Nat} : Canonical (s.hemChans gen) :=
  (h.beside (by rfl)).foldl fun _ h1 => h1.sendUnit

theorem Canonical.hemDone (h : Canonical s) {port gen : Nat} : Canonical (s.hemDone port gen) :=
  (h.beside (by rfl)).foldl fun _ h1 => h1.sendUnit

theorem EndsCanonical.selvedgeGenEnd (h : Canonical s) {unit : Nat} : EndsCanonical (execSelvedgeGenEnd unit s) :=
  .ite h.go (.ite (Canonical.go (.onLoader (.ite h.hemChans (.ite h.hemDone h)))) (Canonical.go (.ite h.hemChans
    (.ite h.hemDone h))))

theorem EndsCanonical.retireAck (h : Canonical s) {unit : Nat} : EndsCanonical (execRetireAck unit s) :=
  .ite h.go h.onLoader.endRetire.go

theorem EndsCanonical.discard (h : Canonical s) {unit : Nat} : EndsCanonical (execDiscard unit s) := by
  unfold execDiscard
  extract_lets _ s1 _ _ _
  have hs1 : Canonical s1 := h.onLoader
  exact .ite h.go (.ite (Canonical.go (hs1.onTile fun h2 => h2.beside (by rfl))) (.ite (hs1.beside (by rfl)).go
    (hs1.beside (by rfl)).go))

theorem EndsCanonical.discardAck (h : Canonical s) {unit : Nat} : EndsCanonical (execDiscardAck unit s) :=
  .ite h.go h.onLoader.endDiscard.go

theorem EndsCanonical.patLoadDeadline (h : Canonical s) : EndsCanonical (execPatLoadDeadline s) :=
  .ite h.go (.ite (.ite h.go h.raiseAs.abandonLoad.go) (.ite h.raiseAs.go h.go))

theorem EndsCanonical.patRetireDeadline (h : Canonical s) : EndsCanonical (execPatRetireDeadline s) :=
  .ite h.go (.ite h.raise.go h.raise.onLoader.go)

end

section
/-! PROOFS. Canonical memories: the press and the ring of the seam (spec/07_training_step_and_press.md,
spec/10_seam_ports_and_collectives.md). -/

open Sys2Proof Sys2Proof.Machine

variable {s : State} {x : Tile}

theorem Canonical.engRead (h : Canonical s) {l : List (Nat × Nat)} {e : Ecc} : Canonical (s.engRead l e).1 := by
  induction l generalizing s e with
  | nil => exact h
  | cons p l ih =>
    unfold State.engRead
    exact .iteFst (ih h.load) h.load

theorem Canonical.engCheck (h : Canonical s) {l : List (Nat × Nat)} : Canonical (s.engCheck l).1 := h.engRead

theorem Canonical.recFault (h : Canonical s) {unit g : Nat} : Canonical (s.recFault unit g) := h.raiseAs

theorem Canonical.withRecs (h : Canonical s) {unit : Nat} {f : State → State}
    (hf : ∀ {s : State}, Canonical s → Canonical (f s)) : Canonical (s.withRecs unit f) := by
  unfold State.withRecs
  split
  · exact h.recFault
  · exact hf h

theorem Canonical.withRec (h : Canonical s) {unit g : Nat} {f : State → State}
    (hf : ∀ {s : State}, Canonical s → Canonical (f s)) : Canonical (s.withRec unit g f) :=
  .ite h.recFault (hf h)

theorem Canonical.putClosed (h : Canonical s) {r : GRec} {line : Nat} {c : ClosedLine} :
    Canonical (s.putClosed r line c) :=
  h.put.put.put.addCnt

theorem Canonical.closeLines (h : Canonical s) {r : GRec} {l : List Nat} : Canonical (s.closeLines r l).1 := by
  induction l generalizing s with
  | nil => exact h
  | cons j l ih => exact ih h.putClosed

theorem Canonical.closeGroup (h : Canonical s) {g : Nat} : Canonical (s.closeGroup g) := h.closeLines.put.put

theorem Canonical.putWork (h : Canonical s) {r : GRec} {line : Nat} {x : List Byte × List Byte × Cnt} {mc : Nat} :
    Canonical (s.putWork r line x mc) :=
  h.put.put.addCnt

theorem Canonical.sweepLine (h : Canonical s) {mc g line : Nat} : Canonical (s.sweepLine mc g line) := by
  unfold State.sweepLine
  extract_lets _ _ _ _ _ s1 s2 s3 s4 _
  have hs1 : Canonical s1 := h.put
  have hs2 : Canonical s2 := .ite hs1.put hs1
  have hs3 : Canonical s3 := .ite hs2.put hs2
  have hs4 : Canonical s4 := hs3.putWork
  exact hs4.beside (by rfl)

theorem Canonical.endGroup (h : Canonical s) {g : Nat} : Canonical (s.endGroup g) := by
  unfold State.endGroup
  extract_lets _ _ _ s1 s2 s3 s4 s5 _
  have hs1 : Canonical s1 := h.put
  have hs2 : Canonical s2 := hs1.put.bump
  have hs3 : Canonical s3 := hs2.raise
  have hs4 : Canonical s4 := .ite (.ite hs3.set hs3) hs1
  have hs5 : Canonical s5 := hs4.put.put
  exact hs5.beside (by rfl)

theorem Canonical.auditLine (h : Canonical s) {mc g line : Nat} : Canonical (s.auditLine mc g line) := by
  unfold State.auditLine
  exact .ite h.engCheck (.ite h.engCheck.bump.addCnt h.engCheck.bump.putWork.bump.raise)

theorem Canonical.lateDrop (h : Canonical s) {step : Nat} : Canonical (s.lateDrop step) := by
  unfold State.lateDrop
  extract_lets s1 _
  have hs1 : Canonical s1 := h.bump
  exact .ite (hs1.beside (by rfl)) (hs1.beside (by rfl))

theorem Canonical.redDone (h : Canonical s) {g n : Nat} : Canonical (s.redDone g n) :=
  h.withRec fun h1 => .ite h1.raise (h1.beside (by rfl))

theorem Canonical.afterSweep (h : Canonical s) : Canonical s.afterSweep :=
  .ite h (.withRecs h fun h1 => .ite (.beside (s := _) h1 (by rfl)) h1)

theorem Canonical.tryReplies (h : Canonical s) : Canonical s.tryReplies :=
  (h.beside (by rfl)).foldl fun _ h1 => h1.reply

theorem Canonical.onInst (h : Canonical s) {id step : Nat} {f : Inst → Inst} : Canonical (s.onInst id step f) :=
  h.beside (by rfl)

theorem Canonical.onRedGroup (h : Canonical s) {id step g : Nat} {f : RedGroup → RedGroup} :
    Canonical (s.onRedGroup id step g f) :=
  h.onInst

theorem Canonical.endLine (h : Canonical s) {i : Inst} {rg : RedGroup} {line n : Nat} {p : List W32} :
    Canonical (s.endLine i rg line n p) :=
  .ite (.ite h.put h.put.onRedGroup.raise) (.ite h.put.onRedGroup.redDone h.put.onRedGroup)

theorem Canonical.chainLines (h : Canonical s) {id step g n : Nat} {l : List (Nat × List W32)} :
    Canonical (s.chainLines id step g n l).1 := by
  induction l generalizing s with
  | nil => exact h
  | cons p l ih =>
    unfold State.chainLines
    split
    · extract_lets r c q x
      have hc : Canonical c.1 := .iteFst h.engCheck h
      exact .iteFst (ih hc) (.iteFst (ih hc.endLine) (ih hc))
    · exact h

theorem Canonical.chain1 (h : Canonical s) {id step g nin : Nat} {lines : List (Nat × List W32)} :
    Canonical (s.chain1 id step g nin lines) := by
  unfold State.chain1
  split
  · exact h.chainLines.foldl fun _ h1 => .ite h1.sendSucc h1
  · exact h

theorem Canonical.chainParts (h : Canonical s) {id step g n : Nat} : Canonical (s.chainParts id step g n) := by
  induction n generalizing s with
  | zero => exact h
  | succ n ih =>
    unfold State.chainParts
    split
    · split
      · exact ih h.onRedGroup.chain1
      · exact h
    · exact h

theorem Canonical.advance (h : Canonical s) {id step g : Nat} : Canonical (s.advance id step g) := by
  unfold State.advance
  split
  · split
    · exact h
    · exact .ite h (.chainParts (.ite (.chain1 (.ite h.onRedGroup h.onRedGroup.chain1)) (.ite h.onRedGroup
        h.onRedGroup.chain1)))
  · exact h

theorem Canonical.excludeOwn (h : Canonical s) {id step : Nat} {gs : List Nat} :
    Canonical (s.excludeOwn id step gs) := by
  unfold State.excludeOwn
  refine .foldl h fun _ h1 => ?_
  split
  · exact .ite h1.onRedGroup.lateDrop.advance h1
  · exact h1

theorem Canonical.setSuspect (h : Canonical s) : Canonical s.setSuspect := h.set.foldl fun _ h1 => h1.excludeOwn

theorem Canonical.groupClosed (h : Canonical s) {g : Nat} : Canonical (s.groupClosed g) := by
  unfold State.groupClosed
  split
  · exact h.raise
  · split
    · exact h
    · exact .ite (.ite h h.lateDrop) h.onRedGroup.advance

theorem Canonical.rxPartial (h : Canonical s) {i : Inst} {m : SMsg} : Canonical (s.rxPartial i m) := by
  unfold State.rxPartial
  split
  · exact h
  · exact .ite h.lateDrop h.onRedGroup.advance

theorem Canonical.rxOwner (h : Canonical s) {i : Inst} {m : SMsg} : Canonical (s.rxOwner i m) := by
  unfold State.rxOwner
  extract_lets _ s1
  have hs1 : Canonical s1 := h.onInst
  split
  · exact h.raise
  · exact hs1.foldl fun _ h2 => h2.advance

theorem Canonical.ringPass (h : Canonical s) {i : Inst} {m : SMsg} {orig : Nat} : Canonical (s.ringPass i m orig) :=
  .ite h h.sendBy

theorem Canonical.oweDone (h : Canonical s) {port dest dq gen : Nat} {b : List Byte} :
    Canonical (s.oweDone port dest dq gen b) :=
  (h.beside (by rfl)).pumpUnits

theorem Canonical.normRetire (h : Canonical s) {step : Nat} : Canonical (s.normRetire step) :=
  .ite h (h.beside (by rfl))

theorem Canonical.retireReturn (h : Canonical s) {i : Inst} : Canonical (s.retireReturn i) :=
  (h.beside (by rfl)).normRetire.tryReplies

theorem Canonical.tryReturn (h : Canonical s) {id step : Nat} : Canonical (s.tryReturn id step) := by
  unfold State.tryReturn
  split
  · exact .ite h.setAll.oweDone.retireReturn h
  · exact h

theorem Canonical.confirm (h : Canonical s) {v : Nat} {n2 k : W32} : Canonical (s.confirm v n2 k) := by
  unfold State.confirm
  extract_lets _ s1 _ s2 s3 _ s4 s5 s6 _ _ _ _ s7 _
  have hs1 : Canonical s1 := h.setAll
  have hs2 : Canonical s2 := hs1.set.bump
  have hs3 : Canonical s3 := by
    unfold s3
    split
    · exact hs2.reply
    · exact hs2
  have hs4 : Canonical s4 := hs1.setAll
  have hs5 : Canonical s5 := hs4.bump
  have hs6 : Canonical s6 := .ite hs5.bump hs5
  have hs7 : Canonical s7 := hs6.beside (by rfl)
  exact .ite (hs3.beside (by rfl)) (.afterSweep (.normRetire (hs7.foldl fun _ h8 => h8.tryReturn)))

theorem Canonical.verdCheck (h : Canonical s) {id step : Nat} : Canonical (s.verdCheck id step) := by
  unfold State.verdCheck
  split
  · split
    · exact h
    · exact .ite (.ite h h.onInst.raise) (.ite h.confirm h)
  · exact h

theorem Canonical.normCheck (h : Canonical s) {id step : Nat} : Canonical (s.normCheck id step) := by
  unfold State.normCheck
  split
  · exact .ite h h.onInst.sendSucc.verdCheck
  · exact h

theorem Canonical.normStart (h : Canonical s) {part : W32} : Canonical (s.normStart part) := by
  unfold State.normStart
  split
  · exact h.confirm
  · exact h.onInst.sendSucc.normCheck

theorem Canonical.rxNorm (h : Canonical s) {i : Inst} {m : SMsg} : Canonical (s.rxNorm i m) :=
  .ite h.ringPass.raise h.ringPass.onInst.normCheck

theorem Canonical.rxVerdict (h : Canonical s) {i : Inst} {m : SMsg} : Canonical (s.rxVerdict i m) :=
  h.ringPass.onInst.verdCheck

theorem Canonical.rxAbandon (h : Canonical s) {i : Inst} {m : SMsg} : Canonical (s.rxAbandon i m) :=
  .ite h.ringPass h.ringPass.onInst.raise

theorem Canonical.groupSwept (h : Canonical s) {g : Nat} : Canonical (s.groupSwept g) := by
  unfold State.groupSwept
  split
  · exact h
  · split
    · exact h
    · exact .tryReturn (.ite (.iteFst h.onInst h.onInst.engCheck) (.sendSucc (.foldl (.iteFst h.onInst
        h.onInst.engCheck) fun _ h1 => h1.sendSucc)))

theorem Canonical.applyLines (h : Canonical s) {r : GRec} {line : Nat} {l : List (List Byte)} :
    Canonical (s.applyLines r line l).1 := by
  induction l generalizing s line with
  | nil => exact h
  | cons b l ih => exact ih h.putWork

theorem Canonical.rxReturn (h : Canonical s) {i : Inst} {m : SMsg} : Canonical (s.rxReturn i m) := by
  unfold State.rxReturn
  extract_lets _ s1
  have hs1 : Canonical s1 := .ite h h.ringPass
  split
  · exact hs1
  · exact hs1.applyLines.onInst

theorem Canonical.rxDigest (h : Canonical s) {i : Inst} {m : SMsg} : Canonical (s.rxDigest i m) := by
  unfold State.rxDigest
  extract_lets _ s1 _ _ _ _ s2 s3 s4
  have hs1 : Canonical s1 := .ite h h.ringPass
  have hs2 : Canonical s2 := hs1.bump.onInst
  have hs3 : Canonical s3 := hs2.raise
  have hs4 : Canonical s4 := hs1.onInst.setSuspect.raise
  exact .ite hs1 (.ite hs1.onInst.tryReturn (.ite hs3.sendVia hs4.tryReturn))

theorem Canonical.deliverTo (h : Canonical s) {i : Inst} {m : SMsg} : Canonical (s.deliverTo i m) :=
  .ite (.ite h.rxOwner (.ite h.rxPartial (.ite h.rxReturn (.ite h.rxDigest h)))) (.ite h.rxNorm (.ite h.rxVerdict
    (.ite h.rxAbandon h)))

theorem Canonical.setSlots (h : Canonical s) {p n : Nat} : Canonical (s.setSlots p n) :=
  .ite h.setPort.emit (.ite h.setPort.emit h.setPort)

theorem Canonical.collMsg (h : Canonical s) {p : Nat} {m : SMsg} : Canonical (s.collMsg p m) := by
  unfold State.collMsg
  split
  · exact h.deliverTo
  · split
    · extract_lets s1 _
      have hs1 : Canonical s1 := h.bump
      exact .ite (hs1.beside (by rfl)) (hs1.beside (by rfl)).setSlots
    · exact h.bump

theorem Canonical.recoll (h : Canonical s) {f : Option Nat × SMsg} : Canonical (s.recoll f) := by
  unfold State.recoll
  extract_lets seam s1
  have hs1 : Canonical s1 := by
    unfold s1
    split
    · exact h.setSlots
    · exact h
  refine .ite (h.beside (by rfl)) ?_
  split
  · exact hs1.deliverTo
  · exact hs1.bump

theorem Canonical.openReduce (h : Canonical s) {i : Inst} : Canonical (s.openReduce i) := by
  unfold State.openReduce
  extract_lets s1
  have hs1 : Canonical s1 := by
    refine .ite ?_ (.ite h h.sendSucc)
    split
    · exact h.raise
    · exact h
  exact .ite hs1.excludeOwn hs1

theorem Canonical.openInsts (h : Canonical s) {step : Nat} : Canonical (s.openInsts step) := by
  unfold State.openInsts
  extract_lets _ _ s1 s2 _ _
  have hs1 : Canonical s1 := h.beside (by rfl)
  have hs2 : Canonical s2 := hs1.foldl fun _ h1 => .ite h1.openReduce h1
  exact (hs2.beside (by rfl)).foldl fun _ h3 => h3.recoll

theorem EndsCanonical.contribTimeout (h : Canonical s) {group : Nat} :
    EndsCanonical (execContribTimeout group s) := by
  unfold execContribTimeout
  split
  · exact h.go
  · split
    · exact h.go
    · exact .ite h.go h.onRedGroup.advance.go

theorem EndsCanonical.seamRedDeadline (h : Canonical s) : EndsCanonical (execSeamRedDeadline s) := by
  unfold execSeamRedDeadline
  split
  · exact h.go
  · refine Canonical.go ?_
    refine .withRecs h fun h1 => ?_
    extract_lets _ _
    split
    · exact h1.raise
    · exact h1

theorem EndsCanonical.seamRetDeadline (h : Canonical s) : EndsCanonical (execSeamRetDeadline s) := by
  unfold execSeamRetDeadline
  split
  · exact .ite h.go h.raise.setSuspect.retireReturn.go
  · exact h.go

theorem Canonical.setLink (h : Canonical s) {p v : Nat} : Canonical (s.setLink p v) := h.set

theorem Canonical.clearPort (h : Canonical s) {p : Nat} : Canonical (s.clearPort p) := (h.beside (by rfl)).setPort

theorem Canonical.linkDown (h : Canonical s) {p : Nat} {quiet : Bool} : Canonical (s.linkDown p quiet) :=
  .ite h.clearPort.setLink.raise h.clearPort.setLink

theorem EndsCanonical.linkTrained (h : Canonical s) {p : Nat} : EndsCanonical (execLinkTrained p s) :=
  .ite h.go h.clearPort.setLink.go

theorem EndsCanonical.seamLinkTrain (h : Canonical s) {p : Nat} : EndsCanonical (execSeamLinkTrain p s) :=
  .ite h.go h.raise.go

theorem Canonical.checkUp (h : Canonical s) {p : Nat} : Canonical (s.checkUp p) := .ite h.setLink h

theorem EndsCanonical.negotiateTick (h : Canonical s) {p : Nat} : EndsCanonical (execNegotiateTick p s) :=
  .ite h.go (Canonical.go (.checkUp (.setPort (.ite h.frame h.freeVal.freeVal.frame))))

theorem Canonical.rxNegotiate (h : Canonical s) {p : Nat} {m : SMsg} : Canonical (s.rxNegotiate p m) := by
  unfold State.rxNegotiate
  extract_lets _ _ _ _
  split
  · exact .ite h h.setPort.raise
  · exact .ite (.ite h h.setPort.raise) h.setAll.setPort.checkUp

theorem EndsCanonical.seamNegFail (h : Canonical s) {p : Nat} : EndsCanonical (execSeamNegFail p s) :=
  .ite h.go h.raise.linkDown.go

theorem Canonical.takeLack (h : Canonical s) {p : Nat} {m : SMsg} : Canonical (s.takeLack p m) := h.setPort.pumpPort

theorem Canonical.takeSeq (h : Canonical s) {p : Nat} {m : SMsg} : Canonical (s.takeSeq p m).1 :=
  .iteFst h.setPort (.iteFst (.ite h h.setPort.sendAck) h.sendAck)

theorem Canonical.relay (h : Canonical s) {p : Nat} {m : SMsg} : Canonical (s.relay p m) := h.sendMsg

theorem Canonical.checkMsg (h : Canonical s) {p : Nat} {m : SMsg} : Canonical (s.checkMsg p m).1 :=
  .iteFst h.bump.raise (.iteFst h.raise (.iteFst h.relay h))

theorem Canonical.receive (h : Canonical s) {p : Nat} {m : SMsg} : Canonical (s.receive p m).1 :=
  .iteFst h (.iteFst (.iteFst h.bump.takeLack.takeSeq.checkMsg h.bump.takeLack.takeSeq) h.bump.takeLack.checkMsg)

theorem Canonical.onMsg (h : Canonical s) {p : Nat} {m : SMsg} {ty : Nat} {k : State → State}
    (hk : ∀ {s : State}, Canonical s → Canonical (k s)) : Canonical (s.onMsg p m ty k) :=
  .ite h (.ite (hk h.receive) h.receive)

theorem EndsCanonical.seamNegotiate (h : Canonical s) {p : Nat} {m : SMsg} :
    EndsCanonical (execSeamNegotiate p m s) :=
  .ite h.go (.ite h.bump.checkMsg.go (Canonical.go (.rxNegotiate (.ite h.bump.checkMsg.clearPort.setLink
    h.bump.checkMsg))))

theorem EndsCanonical.ack (h : Canonical s) {p : Nat} {m : SMsg} : EndsCanonical (execAck p m s) :=
  .ite h.go (Canonical.go (h.onMsg id))

theorem Canonical.resend (h : Canonical s) {p : Nat} : Canonical (s.resend p) :=
  .ite h (h.setPort.bump.foldl fun _ h1 => h1.frame)

theorem Canonical.retransmit (h : Canonical s) {p : Nat} : Canonical (s.retransmit p) := .ite h.linkDown h.resend

theorem EndsCanonical.nak (h : Canonical s) {p : Nat} {m : SMsg} : EndsCanonical (execNak p m s) :=
  .ite h.go (Canonical.go (h.onMsg fun h1 => .ite h1 h1.retransmit))

theorem EndsCanonical.hold (h : Canonical s) {p : Nat} {m : SMsg} : EndsCanonical (execHold p m s) :=
  Canonical.go (h.onMsg fun h1 => h1.setLink.set.raise)

theorem EndsCanonical.otherFrame (h : Canonical s) {f : AlienFrame} : EndsCanonical (execOtherFrame f s) :=
  .ite h.go h.bump.go

theorem EndsCanonical.fcsErrorFrame (h : Canonical s) {p : Nat} : EndsCanonical (execFcsErrorFrame p s) :=
  .ite h.go h.bump.go

theorem EndsCanonical.ackInterval (h : Canonical s) {p : Nat} : EndsCanonical (execAckInterval p s) :=
  .ite h.go h.sendAck.go

theorem EndsCanonical.rtxTimeout (h : Canonical s) {p : Nat} : EndsCanonical (execRtxTimeout p s) :=
  .ite h.go h.retransmit.go

theorem EndsCanonical.pfcFrame (h : Canonical s) {p prio quanta : Nat} :
    EndsCanonical (execPfcFrame p prio quanta s) :=
  .ite h.go h.bump.setPort.resumePort.go

theorem EndsCanonical.peerSilence (h : Canonical s) {p : Nat} : EndsCanonical (execPeerSilence p s) :=
  .ite h.go h.linkDown.go

theorem EndsCanonical.pcsLoss (h : Canonical s) {p : Nat} : EndsCanonical (execPcsLoss p s) := .ite h.go h.linkDown.go

theorem Canonical.sendHold (h : Canonical s) {p : Nat} : Canonical (s.sendHold p) := .ite h h.frame

theorem EndsCanonical.holdTick (h : Canonical s) {p : Nat} : EndsCanonical (execHoldTick p s) :=
  .ite h.go h.sendHold.go

theorem EndsCanonical.messageRelay (h : Canonical s) {p : Nat} {m : SMsg} : EndsCanonical (execMessageRelay p m s) :=
  .ite h.go h.receive.go

theorem EndsCanonical.reservedTypeMessage (h : Canonical s) {p : Nat} {m : SMsg} :
    EndsCanonical (execReservedTypeMessage p m s) :=
  .ite h.go h.receive.go

theorem EndsCanonical.owner (h : Canonical s) {p : Nat} {m : SMsg} : EndsCanonical (execOwner p m s) :=
  Canonical.go (h.onMsg fun h1 => h1.collMsg)

theorem EndsCanonical.partialMsg (h : Canonical s) {p : Nat} {m : SMsg} : EndsCanonical (execPartialMsg p m s) :=
  Canonical.go (h.onMsg fun h1 => h1.collMsg)

theorem EndsCanonical.normPart (h : Canonical s) {p : Nat} {m : SMsg} : EndsCanonical (execNormPart p m s) :=
  Canonical.go (h.onMsg fun h1 => h1.collMsg)

theorem EndsCanonical.verdict (h : Canonical s) {p : Nat} {m : SMsg} : EndsCanonical (execVerdict p m s) :=
  Canonical.go (h.onMsg fun h1 => h1.collMsg)

theorem EndsCanonical.abandon (h : Canonical s) {p : Nat} {m : SMsg} : EndsCanonical (execAbandon p m s) :=
  Canonical.go (h.onMsg fun h1 => h1.collMsg)

end

section
/-! PROOFS. Canonical memories: panels, start-up and the host port (spec/13_panels_clocks_power.md,
spec/14_reset_bringup_selftest.md, spec/11_host_interface_and_command_tape.md). -/

open Sys2Proof Sys2Proof.Machine

variable {s : State} {x : Tile}

theorem Canonical.setPanel (h : Canonical s) {p : Nat} {x : Panel} : Canonical (s.setPanel p x) := h.beside (by rfl)

theorem Canonical.onPanel (h : Canonical s) {p : Nat} {f : Panel → Panel} : Canonical (s.onPanel p f) := h.setPanel

theorem Canonical.limits (h : Canonical s) {p : Nat} : Canonical (s.limits p) := h.setAll

theorem Canonical.adjust (h : Canonical s) {p : Nat} : Canonical (s.adjust p) :=
  .ite h.limits (.ite h.limits.setPanel h.limits.setPanel)

theorem Canonical.adjustAll (h : Canonical s) : Canonical s.adjustAll := h.foldl fun _ h1 => h1.adjust

theorem Canonical.dropPanelStage (h : Canonical s) {p : Nat} : Canonical (s.dropPanelStage p) := h.beside (by rfl)

theorem Canonical.applyPanel (h : Canonical s) {p : Nat} : Canonical (s.applyPanel p) := by
  unfold State.applyPanel
  split
  · exact h.dropPanelStage.raise
  · exact (h.beside (by rfl)).dropPanelStage.adjust

theorem Canonical.drainCommits (h : Canonical s) {n : Nat} : Canonical (s.drainCommits n) := by
  induction n generalizing s with
  | zero => exact h
  | succ n ih =>
    unfold State.drainCommits
    split
    · exact .ite h (ih (h.beside (by rfl)).applyPanel)
    · exact h

theorem EndsCanonical.panelChangeEnd (h : Canonical s) {p : Nat} : EndsCanonical (execPanelChangeEnd p s) :=
  .ite h.setPanel.setAll.adjust.drainCommits.go h.go

theorem EndsCanonical.neighbourAnnounce (h : Canonical s) {p from_ f : Nat} :
    EndsCanonical (execNeighbourAnnounce p from_ f s) :=
  .ite (Canonical.go (.adjust (.ite h.onPanel.setPanel h.onPanel))) h.go

theorem EndsCanonical.neighbourCapAck (h : Canonical s) {p q : Nat} : EndsCanonical (execNeighbourCapAck p q s) :=
  .ite h.setPanel.go h.go

theorem EndsCanonical.pwrChangeDeadline (h : Canonical s) {p : Nat} : EndsCanonical (execPwrChangeDeadline p s) :=
  .ite h.raise.go h.go

theorem Canonical.stretchState (h : Canonical s) : Canonical s.stretchState := .ite h.set h

theorem Canonical.setFcap (h : Canonical s) {f : Nat} : Canonical (s.setFcap f) := .ite h h.set.stretchState.adjustAll

theorem EndsCanonical.governorSlowLoop (h : Canonical s) {p100 p1ms p1s vin iin : Nat} :
    EndsCanonical (execGovernorSlowLoop p100 p1ms p1s vin iin s) :=
  .ite h.go (.ite h.setAll.setFcap.go (.ite h.setAll.setFcap.go h.setAll.go))

theorem EndsCanonical.governorFastLoop (h : Canonical s) {p1ms : Nat} : EndsCanonical (execGovernorFastLoop p1ms s) :=
  .ite h.go (h.beside (by rfl)).setFcap.go

theorem EndsCanonical.envelopeTimeout (h : Canonical s) {p100 : Nat} : EndsCanonical (execEnvelopeTimeout p100 s) :=
  .ite h.raise.go h.go

theorem Canonical.trip (h : Canonical s) {unit sensor : Nat} {v : Int} : Canonical (s.trip unit sensor v) := h.raise

theorem Canonical.panelSample (h : Canonical s) {p : Nat} {v : Int} : Canonical (s.panelSample p v) := by
  unfold State.panelSample
  extract_lets _ _ s1 s2 _
  have hs1 : Canonical s1 := h.onPanel.set
  have hs2 : Canonical s2 := .ite hs1.set.raise (.ite hs1.set hs1)
  exact .ite (hs2.beside (by rfl)).trip hs2

theorem EndsCanonical.thermalSample (h : Canonical s) {src : TSens} {temp : Int} :
    EndsCanonical (execThermalSample src temp s) := by
  unfold execThermalSample
  split
  · exact h.go
  · split
    · exact .ite h.panelSample.go h.go
    · exact .ite (.ite (h.beside (by rfl)).trip.go (h.beside (by rfl)).go) h.go
    · exact .ite (h.beside (by rfl)).trip.removeRails.go (h.beside (by rfl)).go

theorem EndsCanonical.thermalCapStep (h : Canonical s) {p : Nat} : EndsCanonical (execThermalCapStep p s) :=
  .ite h.go (.ite h.setPanel.adjust.go (.ite h.setPanel.adjust.go h.go))

theorem EndsCanonical.tripPersistTimeout (h : Canonical s) : EndsCanonical (execTripPersistTimeout s) :=
  .ite (h.beside (by rfl)).set.go (h.beside (by rfl)).go

theorem EndsCanonical.nbTempDeadline (h : Canonical s) {p q : Nat} : EndsCanonical (execNbTempDeadline p q s) :=
  .ite h.raise.go h.go

theorem EndsCanonical.droop (h : Canonical s) {p : Nat} : EndsCanonical (execDroop p s) := .ite h.go h.onPanel.bump.go

theorem EndsCanonical.droopEnd (h : Canonical s) {p : Nat} : EndsCanonical (execDroopEnd p s) :=
  .ite h.onPanel.go h.go

theorem Canonical.railFault (h : Canonical s) {r : Rail} : Canonical (s.railFault r) := by
  unfold State.railFault
  extract_lets v1 s2 s3 _
  have hv1 : Canonical v1.2 := h.freeVal
  have hs2 : Canonical s2.2 := hv1.freeVal
  have hs3 : Canonical s3 := hs2
  split
  · exact hv1.raise
  · exact .raise (.ite (hs2.beside (by rfl)) hs2)

theorem EndsCanonical.railOutOfTolerance (h : Canonical s) {r : Rail} : EndsCanonical (execRailOutOfTolerance r s) :=
  .ite h.railFault.go h.go

theorem EndsCanonical.inputOutOfRange (h : Canonical s) {mv : Nat} : EndsCanonical (execInputOutOfRange mv s) :=
  .ite h.raise.go h.go

theorem EndsCanonical.inputCollapse (h : Canonical s) {mv : Nat} : EndsCanonical (execInputCollapse mv s) :=
  .ite h.raise.lose50.go h.go

theorem Canonical.clockFault (h : Canonical s) : Canonical s.clockFault := h.freeVal.freeVal.raise

theorem EndsCanonical.refClockLoss (h : Canonical s) : EndsCanonical (execRefClockLoss s) :=
  .ite (h.beside (by rfl)).clockFault.go h.go

theorem EndsCanonical.oscillatorFail (h : Canonical s) : EndsCanonical (execOscillatorFail s) :=
  .ite h.go (Canonical.go (.clockFault ((h.beside (by rfl)).foldl fun _ h1 => .ite h1 h1.linkDown)))

theorem Canonical.panelsUp (h : Canonical s) : Canonical s.panelsUp := h.foldl fun _ h1 => h1.setAll.onPanel

theorem EndsCanonical.powerUpDeadline (h : Canonical s) {r : Rail} : EndsCanonical (execPowerUpDeadline r s) :=
  .ite h.railFault.go h.go

theorem Canonical.rstFault (h : Canonical s) {code arg : Nat} : Canonical (s.rstFault code arg) := h.raise

theorem Canonical.applyOptions (h : Canonical s) {o : List Byte} {default_ : Bool} :
    Canonical (s.applyOptions o default_) :=
  h.setAll.beside (by rfl)

theorem Canonical.loadOptions (h : Canonical s) : Canonical s.loadOptions := by
  unfold State.loadOptions
  extract_lets _ _
  split
  · exact h.applyOptions.rstFault
  · exact h.applyOptions.foldl fun _ h1 => h1.rstFault

theorem Canonical.sampleStraps (h : Canonical s) : Canonical s.sampleStraps := .ite h.setAll.rstFault h.setAll

theorem Canonical.countReset (h : Canonical s) {k : Nat} : Canonical (s.countReset k) := h.set

theorem Canonical.noteReset (h : Canonical s) {kind cause : Nat} : Canonical (s.noteReset kind cause) := h.setAll

theorem Canonical.repairSram (h : Canonical s) {l : List RepRec} {used : List (Nat × Nat × Nat)} :
    Canonical (s.repairSram l used) := by
  induction l generalizing s used with
  | nil => exact h
  | cons r l ih =>
    unfold State.repairSram
    extract_lets free ok s1 q
    have hs1 : Canonical s1 := .ite h.freeVal h
    exact .ite (ih (hs1.beside (by rfl))) (ih h)

theorem Canonical.applySram (h : Canonical s) : Canonical s.applySram := (h.beside (by rfl)).repairSram

theorem Canonical.repairRows (h : Canonical s) {l : List RepRec} {used : List Nat} :
    Canonical (s.repairRows l used) := by
  induction l generalizing s used with
  | nil => exact h
  | cons r l ih =>
    unfold State.repairRows
    extract_lets x free hard s1 th left q mem s2
    have hs1 : Canonical s1 := h.freeVal
    have hs2 : Canonical s2 := .ite hs1 (hs1.beside (by rfl))
    exact .ite (.ite (ih (hs1.beside (by rfl))) (ih hs2)) (ih h)

theorem Canonical.releaseOrders (h : Canonical s) : Canonical s.releaseOrders := by
  unfold State.releaseOrders
  split
  · exact h
  · extract_lets _ _ s1 s2 _
    have hs1 : Canonical s1 := h.beside (by rfl)
    have hs2 : Canonical s2 := hs1.applySram
    exact .ite (hs2.beside (by rfl)).set hs1

theorem Canonical.beginStart (h : Canonical s) : Canonical s.beginStart := .ite (h.beside (by rfl)).set h

theorem Canonical.clearSeq (h : Canonical s) : Canonical s.clearSeq := h.beside (by rfl)

theorem Canonical.coldReset (h : Canonical s) : Canonical s.coldReset :=
  .beginStart (.ite h.clearCold.clearSeq.set.set h.clearCold.clearSeq.set)

theorem Canonical.coldSource (h : Canonical s) {cause : Nat} : Canonical (s.coldSource cause) :=
  h.endTest.countReset.noteReset.coldReset

theorem Canonical.auxSource (h : Canonical s) {cause : Nat} : Canonical (s.auxSource cause) := by
  unfold State.auxSource
  extract_lets s1 cxl pow s2
  have hs1 : Canonical s1 := h.endTest.countReset.noteReset.clearCold
  have hs2 : Canonical s2 := by
    clear_value s1
    exact hs1.beside (by rfl)
  exact hs2.clearSeq.loadOptions.sampleStraps.beginStart

theorem Canonical.warmSource (h : Canonical s) {cause : Nat} {flr : Bool} : Canonical (s.warmSource cause flr) := by
  unfold State.warmSource
  extract_lets s1 s2 _ s3 _
  have hs1 : Canonical s1 := h.countReset
  have hs2 : Canonical s2 := hs1.noteReset.clearWarm.set
  have hs3 : Canonical s3 := hs1.noteReset
  exact .ite hs1 (.ite hs1.rstFault.countReset.noteReset.coldReset (.ite (.ite hs2 (hs2.beside (by rfl))) (hs3.beside
    (by rfl)).set))

theorem Canonical.warmAssert (h : Canonical s) {flr : Bool} : Canonical (s.warmAssert flr) := by
  unfold State.warmAssert
  extract_lets s1 _ s2 s3 s4 _
  have hs1 : Canonical s1 := h.clearWarm
  clear_value s1
  have hs2 : Canonical s2 := .ite hs1 (hs1.beside (by rfl))
  clear_value s2
  have hs3 : Canonical s3 := .ite hs2.set.stretchState hs2
  clear_value s3
  have hs4 : Canonical s4 := hs3.applySram.adjustAll
  clear_value s4
  exact (hs4.beside (by rfl)).set

theorem Canonical.idleBlk (h : Canonical s) {b : Blk} : Canonical (s.idleBlk b) := by
  unfold State.idleBlk
  split
  · exact .ite (.ite (h.beside (by rfl)).warmAssert (h.beside (by rfl))) h
  · exact h

theorem EndsCanonical.linkModeSettle (h : Canonical s) {cxl : Bool} {speed width : Nat} :
    EndsCanonical (execLinkModeSettle cxl speed width s) :=
  .ite h.go (h.beside (by rfl)).go

theorem EndsCanonical.cxlLinkUp (h : Canonical s) : EndsCanonical (execCxlLinkUp s) :=
  .ite h.go (h.beside (by rfl)).go

theorem Canonical.msixControl (h : Canonical s) {v : Nat} : Canonical (s.msixControl v) :=
  (h.beside (by rfl)).foldl fun _ h1 => .ite (h1.beside (by rfl)).vector h1

theorem Canonical.cfgReady (h : Canonical s) : Canonical s.cfgReady.2 := by
  unfold State.cfgReady
  split
  · exact h.beside (by rfl)
  · extract_lets v1 s2 _
    have hv1 : Canonical v1.2 := h.freeVal
    have hs2 : Canonical s2 := hv1
    exact hv1.beside (by rfl)

theorem Canonical.cfgWrite (h : Canonical s) {off v : Nat} : Canonical (s.cfgWrite off v) :=
  .ite h (h.beside (by rfl))

theorem Canonical.cfgRead (h : Canonical s) {off : Nat} : Canonical (s.cfgRead off) := by
  unfold State.cfgRead
  split
  · exact h.emit
  · exact h.freeVal.emit

theorem EndsCanonical.configAccess (h : Canonical s) {write : Bool} {off : HostAt} {v : W32} :
    EndsCanonical (execConfigAccess write off v s) :=
  .ite h.go (.ite h.cfgReady.emit.go (.ite (Canonical.go (.emit (.ite h.cfgReady.msixControl h.cfgReady.cfgWrite)))
    h.cfgReady.cfgRead.go))

theorem EndsCanonical.hdmDecoderCommit (h : Canonical s) {d base size : Nat} {ways1 : Bool} :
    EndsCanonical (execHdmDecoderCommit d base size ways1 s) :=
  .ite h.go (h.beside (by rfl)).go

theorem EndsCanonical.hostSnoop (h : Canonical s) {acc : HostAt} : EndsCanonical (execHostSnoop acc s) :=
  .ite h.emit.go h.go

theorem EndsCanonical.hostBiasAnswer (h : Canonical s) {idx : Nat} : EndsCanonical (execHostBiasAnswer idx s) := by
  unfold execHostBiasAnswer
  split
  · exact h.go
  · exact .ite h.go (h.beside (by rfl)).serve.go

theorem Canonical.hostToBob (h : Canonical s) {t b ridx epoch status : Nat} {data : List Byte} :
    Canonical (s.hostToBob t b ridx epoch status data) :=
  h.respond

theorem Canonical.abortCmd (h : Canonical s) {tag epoch code : Nat} : Canonical (s.abortCmd tag epoch code) :=
  h.raiseTied.reply

theorem Canonical.dropReqs (h : Canonical s) {a : HostAgent} : Canonical (s.dropReqs a) := h.beside (by rfl)

theorem Canonical.hostFail (h : Canonical s) {r : HostReq} {code status : Nat} :
    Canonical (s.hostFail r code status) := by
  unfold State.hostFail
  split
  · exact h.raise.hostToBob
  · exact h.dropReqs.abortCmd

theorem EndsCanonical.hostResponse (h : Canonical s) {idx : Nat} {ans : HostAns} :
    EndsCanonical (execHostResponse idx ans s) := by
  unfold execHostResponse
  split
  · exact h.go
  · split
    · exact h.go
    · extract_lets _ s1
      have hs1 : Canonical s1 := h.beside (by rfl)
      split
      · exact hs1.hostFail.go
      · exact hs1.hostFail.go
      · split
        · exact hs1.hostToBob.go
        · exact .ite hs1.reply.go hs1.go

theorem EndsCanonical.hostCompletionTimeout (h : Canonical s) {idx : Nat} :
    EndsCanonical (execHostCompletionTimeout idx s) := by
  unfold execHostCompletionTimeout
  split
  · exact h.go
  · exact (h.beside (by rfl)).hostFail.go

theorem Canonical.cmdToHost (h : Canonical s) {c : Cmd} {a : Nat} {b result : List Byte} :
    Canonical (s.cmdToHost c a b result) := by
  unfold State.cmdToHost
  split
  · exact h.abortCmd
  · extract_lets s1 _ _
    have hs1 : Canonical s1 := h.keepResult
    exact (hs1.beside (by rfl)).busWrite

end

section
/-! PROOFS. Canonical memories: training steps, the unpick controller and the tape unit
(spec/07_training_step_and_press.md, spec/06_progress_deadlock_drain.md, spec/11_host_interface_and_command_tape.md). -/

open Sys2Proof Sys2Proof.Machine

variable {s : State} {x : Tile}

theorem Canonical.refuseStep (h : Canonical s) {c : Cmd} {code sub arg : Nat} :
    Canonical (s.refuseStep c code sub arg) :=
  h.takeCmd.refuse

theorem Canonical.deferStep (h : Canonical s) {c : Cmd} : Canonical (s.deferStep c) := h.beside (by rfl)

theorem Canonical.oweSteps (h : Canonical s) {lens : List Nat} : Canonical (s.oweSteps lens) :=
  .pumpUnits (.ite (h.beside (by rfl)) (h.beside (by rfl)))

theorem Canonical.stepTokens (h : Canonical s) {m ldef ltab : Nat} : Canonical (s.stepTokens m ldef ltab) := by
  unfold State.stepTokens
  refine .ite h (.ite h.oweSteps ?_)
  split
  · next heq => exact (h.load.of_pair heq).oweSteps
  · next heq => exact (h.load.of_pair heq).stepFatal

theorem Canonical.beginStep (h : Canonical s) {c : Cmd} {step : Nat} : Canonical (s.beginStep c step) :=
  (h.setAll.bump.zeroTickets.beside (by rfl)).openInsts.stepTokens

theorem Canonical.openStep (h : Canonical s) {c : Cmd} : Canonical (s.openStep c) := by
  unfold State.openStep
  extract_lets _ _ s1 s2 r3
  have hs1 : Canonical s1 := h.beside (by rfl)
  have hs2 : Canonical s2 := hs1
  have hr3 : Canonical r3.1 := hs1.engCheck
  split
  · exact hs1.takeCmd.done
  · split
    · exact hs1.refuseStep
    · split
      · exact h.deferStep
      · split
        · exact hs1.refuseStep
        · split
          · exact hs1.refuseStep
          · split
            · exact hr3.tieLast.takeCmd.reply
            · split
              · exact hs1.refuseStep
              · exact hr3.takeCmd.beginStep

theorem EndsCanonical.stepOpen (h : Canonical s) {tag : Nat} : EndsCanonical (execStepOpen tag s) := by
  unfold execStepOpen
  split
  · exact .ite h.go h.openStep.go
  · exact h.go

theorem EndsCanonical.stepOpenResume (h : Canonical s) : EndsCanonical (execStepOpenResume s) := by
  unfold execStepOpenResume
  split
  · exact h.go
  · split
    · exact .ite h.go h.openStep.go
    · exact (h.beside (by rfl)).go

theorem Canonical.closeTok (h : Canonical s) {mc len : Nat} {payload : W64} : Canonical (s.closeTok mc len payload) :=
  .ite h.raiseAs (.ite h.recFault (.ite h.raise (.beside (.ite h.set h) (by rfl))))

theorem EndsCanonical.closeToken (h : Canonical s) {mc tag len : Nat} {payload : W64} {basted : Bool} :
    EndsCanonical (execCloseToken mc tag len payload basted s) := by
  unfold execCloseToken
  refine .ite h.go ?_
  split
  · next heq => exact (h.fate.of_pair heq).closeTok.go
  · next heq => exact (h.fate.of_pair heq).go
  · next heq => exact ((h.fate.of_pair heq).beside (by rfl)).go

theorem EndsCanonical.closeEnd (h : Canonical s) {group : Nat} : EndsCanonical (execCloseEnd group s) := by
  unfold execCloseEnd
  split
  · exact h.go
  · split
    · exact h.recFault.go
    · extract_lets _ c1 s2 _ s3
      have hc1 : Canonical c1.1 := h.engCheck
      have hs2 : Canonical s2 := hc1.closeGroup
      have hs3 : Canonical s3 := hs2.beside (by rfl)
      exact .ite hc1.go (.ite hs3.groupClosed.go hs3.go)

theorem EndsCanonical.partialNorm (h : Canonical s) : EndsCanonical (execPartialNorm s) :=
  .ite h.go (Canonical.go (h.withRecs fun h1 => .ite h1 (.ite h1.engCheck.set.normStart h1.engCheck)))

theorem Canonical.sweepNext (h : Canonical s) {mc group line : Nat} {e : Ecc} :
    Canonical (s.sweepNext mc group line e) :=
  .ite h (.ite h.engRead (.ite h.engRead.sweepLine.endGroup.groupSwept.afterSweep h.engRead.sweepLine))

theorem EndsCanonical.sweepLine (h : Canonical s) {mc group line : Nat} {e : Ecc} :
    EndsCanonical (execSweepLine mc group line e s) :=
  .ite h.go (Canonical.go (h.withRecs fun h1 => h1.sweepNext))

theorem Canonical.auditUnit (h : Canonical s) {mc : Nat} : Canonical (s.auditUnit mc) := by
  unfold State.auditUnit
  extract_lets s1 press s2 reps press2 s3
  have hs1 : Canonical s1 := h.foldl fun _ h1 => .ite h1 h1.auditLine
  have hs2 : Canonical s2 := hs1.beside (by rfl)
  have hs3 : Canonical s3 := hs2.beside (by rfl)
  exact .ite hs3.set.tryReplies hs2

theorem EndsCanonical.audit (h : Canonical s) {mc : Nat} : EndsCanonical (execAudit mc s) :=
  .ite h.go (Canonical.go (h.withRecs fun h1 => h1.auditUnit))

theorem EndsCanonical.prsCloseDeadline (h : Canonical s) : EndsCanonical (execPrsCloseDeadline s) :=
  .ite h.go (Canonical.go (h.withRecs fun h1 => .ite h1 h1.raise))

theorem EndsCanonical.prsNormDeadline (h : Canonical s) : EndsCanonical (execPrsNormDeadline s) :=
  .ite h.go (h.beside (by rfl)).raise.go

theorem EndsCanonical.prsSweepDeadline (h : Canonical s) : EndsCanonical (execPrsSweepDeadline s) :=
  .ite h.go h.raise.go

theorem Canonical.onUnpick (h : Canonical s) {f : Unpick → Unpick} : Canonical (s.onUnpick f) := h.beside (by rfl)

theorem EndsCanonical.monitorTrip (h : Canonical s) {t : Nat} {agent : TAgent} {w : WaitOn} :
    EndsCanonical (execMonitorTrip t agent w s) :=
  .ite h.go (.ite (Canonical.go (.onUnpick (h.onTile fun h1 => h1.beside (by rfl)))) (Canonical.go (h.onTile fun h1
    => h1.beside (by rfl))))

theorem Canonical.startRound (h : Canonical s) {st : Nat} : Canonical (s.startRound st) := h.set.onUnpick

theorem Canonical.endRun (h : Canonical s) : Canonical s.endRun := .ite h.set.onUnpick.startRound h.set.onUnpick

theorem EndsCanonical.stallReport (h : Canonical s) {panel : Nat} : EndsCanonical (execStallReport panel s) :=
  .ite h.go (.ite h.bump.onUnpick.startRound.go (.ite h.bump.onUnpick.go h.bump.onUnpick.onUnpick.go))

theorem CanonicalTile.clearMoved (h : CanonicalTile x) : CanonicalTile x.clearMoved := h.beside (by rfl)

theorem EndsCanonical.probe (h : Canonical s) {t : Nat} : EndsCanonical (execProbe t s) :=
  .ite h.go (Canonical.go (.onUnpick (h.onTile fun h1 => h1.clearMoved)))

theorem Canonical.unpDecide (h : Canonical s) : Canonical s.unpDecide := by
  unfold State.unpDecide
  extract_lets _
  split
  · exact h.bump.endRun
  · split
    · exact h.bump.set.onUnpick
    · split
      · exact h.endRun.raise
      · exact h.bump.endRun

theorem EndsCanonical.probeReply (h : Canonical s) {t : Nat} {payload : W64} :
    EndsCanonical (execProbeReply t payload s) :=
  .ite h.go (.ite h.onUnpick.go (.ite h.onUnpick.set.go (.ite h.onUnpick.unpDecide.go h.onUnpick.go)))

theorem EndsCanonical.confirmWindowEnd (h : Canonical s) : EndsCanonical (execConfirmWindowEnd s) :=
  .ite h.startRound.go h.go

theorem EndsCanonical.unpProbeDeadline (h : Canonical s) : EndsCanonical (execUnpProbeDeadline s) := by
  unfold execUnpProbeDeadline
  extract_lets _
  split
  · exact h.go
  · split
    · exact h.raise.go
    · exact h.go

theorem Canonical.enterSpill (h : Canonical s) {t q : Nat} : Canonical (s.enterSpill t q) :=
  .ite h (.foldl (.bump (h.onTile fun h1 => h1.setQueue)) fun _ h1 => h1.laneCredits)

theorem EndsCanonical.spillCommand (h : Canonical s) {t q : Nat} : EndsCanonical (execSpillCommand t q s) :=
  .ite h.go (.ite h.enterSpill.onUnpick.endRun.go h.enterSpill.onUnpick.go)

theorem EndsCanonical.spillArrival (h : Canonical s) {t : Nat} {hdr : W64} {pay : List Byte} :
    EndsCanonical (execSpillArrival t hdr pay s) := by
  unfold execSpillArrival
  split
  · exact h.go
  · extract_lets _
    split
    · exact Canonical.go (.ite h.depart.tileStop (.ite h.depart.tokFault h.depart.toQueue))
    · exact Canonical.go (.ite h.tileStop (.ite h.tokFault h.toQueue))
    · exact h.go

theorem EndsCanonical.spillRecord (h : Canonical s) {t q : Nat} : EndsCanonical (execSpillRecord t q s) := by
  unfold execSpillRecord
  split
  · exact h.go
  · split
    · exact h.go
    · extract_lets _
      split
      · exact h.raise.go
      · exact h.put.bump.onUnpick.go

theorem Canonical.sendRefill (h : Canonical s) {t q : Nat} {k : Token} : Canonical (s.sendRefill t q k) :=
  h.sendUnit.sendUnit

theorem EndsCanonical.refill (h : Canonical s) {t q : Nat} {e : Ecc} : EndsCanonical (execRefill t q e s) := by
  unfold execRefill
  split
  · split
    · exact .ite h.go (.ite h.load.onUnpick.raise.go h.load.onUnpick.sendRefill.bump.onUnpick.go)
    · exact h.go
  · exact h.go

theorem EndsCanonical.refillToken (h : Canonical s) {t q : Nat} : EndsCanonical (execRefillToken t q s) := by
  unfold execRefillToken
  split
  · exact h.go
  · exact .ite h.go (Canonical.go (.onUnpick (h.onTile fun h1 => .ite (h1.beside (by rfl)).setQueue.untripOn
      (h1.beside (by rfl)).setQueue)))

theorem EndsCanonical.switchNotice (h : Canonical s) {t : Nat} : EndsCanonical (execSwitchNotice t s) :=
  .ite h.go h.onUnpick.go

theorem EndsCanonical.spillModeExit (h : Canonical s) {t q : Nat} : EndsCanonical (execSpillModeExit t q s) :=
  .ite h.go (Canonical.go (h.onTile fun h1 => h1.setQueue))

theorem Canonical.drainedReplies (h : Canonical s) : Canonical s.drainedReplies :=
  .onUnpick (h.foldl fun _ h1 => h1.reply)

theorem Canonical.withDrain (h : Canonical s) {tag mode : Nat} {k : State → Cmd → State}
    (hk : ∀ {s : State} (b : Cmd), Canonical s → Canonical (k s b)) : Canonical (s.withDrain tag mode k) := by
  unfold State.withDrain
  split
  · exact .ite h (hk _ h.takeCmd)
  · exact h

theorem Canonical.awaitDrained (h : Canonical s) {c : Cmd} : Canonical (s.awaitDrained c) := h.onUnpick

theorem EndsCanonical.drainQuiesce (h : Canonical s) {tag : Nat} : EndsCanonical (execDrainQuiesce tag s) :=
  Canonical.go (h.withDrain fun _ h1 => .ite h1.done (.ite h1.awaitDrained.set h1.awaitDrained))

theorem Canonical.hostFlush (h : Canonical s) : Canonical s.hostFlush := .ite h (.startFlush (.ite h.stepFatal h))

theorem EndsCanonical.drainFlush (h : Canonical s) {tag : Nat} : EndsCanonical (execDrainFlush tag s) :=
  Canonical.go (h.withDrain fun _ h1 => h1.awaitDrained.hostFlush)

theorem EndsCanonical.quiesceStopInputs (h : Canonical s) : EndsCanonical (execQuiesceStopInputs s) :=
  .ite h.onUnpick.go h.go

theorem EndsCanonical.quiesceProbeRound (h : Canonical s) : EndsCanonical (execQuiesceProbeRound s) := by
  unfold execQuiesceProbeRound
  extract_lets q s1
  have hs1 : Canonical s1 := h.mapTiles fun h1 => h1.clearMoved
  exact .ite h.go (.ite hs1.set.bump.drainedReplies.go hs1.go)

theorem EndsCanonical.unpDrainDeadline (h : Canonical s) : EndsCanonical (execUnpDrainDeadline s) :=
  .ite h.go h.raise.startFlush.go

theorem CanonicalTile.flushed (h : CanonicalTile x) : CanonicalTile x.flushed := by
  unfold Tile.flushed
  exact h.beside (by rfl)

theorem Canonical.flushUnits (h : Canonical s) : Canonical s.flushUnits := h.beside (by rfl)

theorem Canonical.dropBasted (h : Canonical s) : Canonical s.dropBasted := h.foldl fun _ h1 => h1.decideReq

theorem Canonical.flushSwitch (h : Canonical s) : Canonical s.flushSwitch := by
  refine .foldl h fun _ h => ?_
  split
  · exact .ite h.switchTile h
  · exact h

theorem EndsCanonical.flushDone (h : Canonical s) : EndsCanonical (execFlushDone s) := by
  have hflushed : Canonical (s.dropBasted.flushUnits.mapTiles Tile.flushed) := h.dropBasted.flushUnits.mapTiles fun
    h1 => h1.flushed
  exact .ite h.go hflushed.onUnpick.set.bump.flushSwitch.drainedReplies.go

theorem EndsCanonical.unpFlushDeadline (h : Canonical s) : EndsCanonical (execUnpFlushDeadline s) :=
  .ite h.go h.raise.go

theorem CanonicalTile.resumed (h : CanonicalTile x) : CanonicalTile x.resumed :=
  .ite (h.beside (by rfl)).set.set (h.beside (by rfl))

theorem EndsCanonical.resume (h : Canonical s) {tag : Nat} : EndsCanonical (execResume tag s) := by
  refine .go (.withCmd h fun _ h => ?_)
  have hresumed := h.mapTiles (f := Tile.resumed) fun h1 => h1.resumed
  exact .ite h.refuseState hresumed.set.onUnpick.done

theorem Canonical.stopTape (h : Canonical s) : Canonical s.stopTape := (h.beside (by rfl)).set.vector

theorem Canonical.tapeRead (h : Canonical s) {off n : Nat} {e : Ecc} : Canonical (s.tapeRead off n e).1 :=
  .iteFst h.reachFault h.load

theorem Canonical.refusePacket (h : Canonical s) {q : Pkt} {code : Nat} : Canonical (s.refusePacket q code) := by
  unfold State.refusePacket
  extract_lets _ s1 _ _
  have hs1 : Canonical s1 := h.raiseTied.bump
  exact hs1.beside (by rfl)

theorem Canonical.acceptPacket (h : Canonical s) {q : Pkt} {p : List Byte} : Canonical (s.acceptPacket q p) := by
  unfold State.acceptPacket
  split
  · exact h.refusePacket
  · split
    · exact h.refusePacket
    · split
      · exact h.bump
      · split
        · exact h.refusePacket
        · exact h.beside (by rfl)

theorem Canonical.tornPacket (h : Canonical s) : Canonical s.tornPacket := (h.beside (by rfl)).bump

theorem Canonical.takePacket (h : Canonical s) {q : Pkt} {p : List Byte} : Canonical (s.takePacket q p) :=
  (h.beside (by rfl)).bump.acceptPacket.setAll

theorem Canonical.examine (h : Canonical s) {off n : Nat} {e : Ecc} : Canonical (s.examine off n e) := by
  unfold State.examine
  extract_lets pos
  split
  · next heq =>
    have hread := h.tapeRead.of_pair heq
    exact .ite hread.stopTape hread
  · next heq =>
    have hread := h.tapeRead.of_pair heq
    refine .ite hread (.ite hread (.ite hread.raise.stopTape (.ite hread.tornPacket ?_)))
    split
    · next heq => exact (Canonical.iteFst hread hread.tapeRead).of_pair heq |>.stopTape
    · next heq =>
      have hpay := (Canonical.iteFst hread hread.tapeRead).of_pair heq
      exact .ite hpay.takePacket hpay.tornPacket

theorem Canonical.resumeTape (h : Canonical s) : Canonical s.resumeTape := .ite (h.beside (by rfl)).examine h

theorem EndsCanonical.tapeNotice (h : Canonical s) {off len : Nat} {e : Ecc} :
    EndsCanonical (execTapeNotice off len e s) :=
  .ite (.ite (h.beside (by rfl)).examine.go (h.beside (by rfl)).go) h.go

theorem EndsCanonical.tornTimeout (h : Canonical s) : EndsCanonical (execTornTimeout s) :=
  .ite h.raise.stopTape.go h.go

theorem EndsCanonical.commandStart (h : Canonical s) {tag : Nat} : EndsCanonical (execCommandStart tag s) := by
  unfold execCommandStart
  split
  · exact h.go
  · split
    · exact h.go
    · exact .ite (h.beside (by rfl)).go h.go

theorem Canonical.writeReply (h : Canonical s) {r : Reply} {rest : List Reply} : Canonical (s.writeReply r rest) :=
  .ite (.vector (.ite (h.beside (by rfl)).busWrite.set.bump.vector (h.beside (by rfl)).busWrite.set.bump)) (.ite
    (h.beside (by rfl)).busWrite.set.bump.vector (h.beside (by rfl)).busWrite.set.bump)

theorem Canonical.noteWait (h : Canonical s) {hostRseq : Nat} : Canonical (s.noteWait hostRseq) := h.beside (by rfl)

theorem EndsCanonical.replyWrite (h : Canonical s) {hostRseq : W32} : EndsCanonical (execReplyWrite hostRseq s) := by
  unfold execReplyWrite
  split
  · exact h.go
  · split
    · exact h.go
    · exact .ite h.writeReply.noteWait.resumeTape.go h.noteWait.go

theorem EndsCanonical.replySpacePoll (h : Canonical s) {hostRseq : W32} :
    EndsCanonical (execReplySpacePoll hostRseq s) :=
  .ite h.busRead.noteWait.go h.go

theorem EndsCanonical.tapeReplyDeadline (h : Canonical s) : EndsCanonical (execTapeReplyDeadline s) :=
  .ite (h.raise.beside (by rfl)).vector.go h.go

theorem EndsCanonical.tapeNop (h : Canonical s) {tag : Nat} : EndsCanonical (execTapeNop tag s) :=
  Canonical.go (h.withCmd fun _ h1 => h1.done)

theorem EndsCanonical.negotiate (h : Canonical s) {tag : Nat} : EndsCanonical (execNegotiate tag s) := by
  unfold execNegotiate
  refine Canonical.go ?_
  refine .withCmd h fun _ h1 => ?_
  extract_lets _
  split
  · exact h1.refuseState
  · split
    · exact h1.refuseTag
    · exact .done (.ite h1.setAll (.ite h1.setAll h1.setAll))

theorem Canonical.undefer (h : Canonical s) {c : Cmd} : Canonical (s.undefer c) := .ite (h.beside (by rfl)) h

theorem Canonical.cancelCmd (h : Canonical s) {d : Cmd} : Canonical (s.cancelCmd d).1 :=
  .iteFst h.undefer.reply (.iteFst h.cancelLoad h)

theorem EndsCanonical.cancel (h : Canonical s) {tag : Nat} : EndsCanonical (execCancel tag s) := by
  unfold execCancel
  refine Canonical.go ?_
  refine .withCmd h fun _ h1 => ?_
  split
  · exact h1.done
  · exact h1.cancelCmd.done

theorem EndsCanonical.bias (h : Canonical s) {tag : Nat} : EndsCanonical (execBias tag s) := by
  unfold execBias
  split
  · exact h.go
  · exact .ite h.go (Canonical.go (h.withCmd fun _ h1 => .ite h1.refuseState h1.setBias.done))

theorem Canonical.dbgFetch (h : Canonical s) {l : List (Nat × Nat)} {e : Ecc} : Canonical (s.dbgFetch l e).1 := by
  refine .foldlFst h fun _ h1 => ?_
  split
  · exact h1
  · split
    · next heq => exact h1.readMem.of_pair heq
    · next heq => exact (h1.readMem.of_pair heq).tieLast

theorem Canonical.dbgStore (h : Canonical s) {a : Nat} {b : List Byte} {l : List (Nat × Nat)} :
    Canonical (s.dbgStore a b l).1 := by
  refine .foldlFst h fun _ h1 => ?_
  split
  · exact h1
  · split
    · next heq => exact h1.writeMem.of_pair heq
    · next heq => exact (h1.writeMem.of_pair heq).tieLast

theorem Canonical.spadWinWrite (h : Canonical s) {a : Nat} {l : List Byte} : Canonical (s.spadWinWrite a l) := by
  induction l generalizing s a with
  | nil => exact h
  | cons b l ih =>
    unfold State.spadWinWrite
    extract_lets o
    exact ih (h.onTile fun h1 => h1.writeByte)

theorem Canonical.cfgWords (h : Canonical s) {t off n : Nat} : Canonical (s.cfgWords t off n).1 := by
  induction n generalizing s off with
  | zero => exact h
  | succ n ih => exact ih h.readWord

theorem Canonical.cfgPut (h : Canonical s) {t off v : Nat} : Canonical (s.cfgPut t off v) := by
  unfold State.cfgPut
  split
  · exact .ite h.commitTile h
  · split
    · exact .ite h.clearW1c h.writeReg
    · exact h

theorem Canonical.cfgPuts (h : Canonical s) {t off : Nat} {l : List W32} : Canonical (s.cfgPuts t off l) := by
  induction l generalizing s off with
  | nil => exact h
  | cons w l ih => exact ih h.cfgPut

theorem Canonical.abortDbg (h : Canonical s) {c : Cmd} {code : Nat} : Canonical (s.abortDbg c code) := h.reply

theorem EndsCanonical.dbgRead (h : Canonical s) {tag : Nat} {e : Ecc} : EndsCanonical (execDbgRead tag e s) := by
  refine .go (.withCmd h fun _ h => ?_)
  refine .ite h.done (.ite h.cfgWords.cmdToHost (.ite h.refuseTag (.ite h.cmdToHost (.ite h.freeBytes.cmdToHost ?_))))
  split
  · next heq => exact (h.dbgFetch.of_pair heq).abortDbg
  · next heq => exact (h.dbgFetch.of_pair heq).cmdToHost

theorem EndsCanonical.dbgWrite (h : Canonical s) {tag : Nat} {data : List Byte} :
    EndsCanonical (execDbgWrite tag data s) := by
  refine .go (.withCmd h fun _ h => ?_)
  refine .ite h.done (.ite h.refuseTag (.ite h.abortCmd (.ite h.cfgPuts.done (.ite h.spadWinWrite.done (.ite
    h.cmdToHost ?_)))))
  split
  · next heq => exact (h.dbgStore.of_pair heq).abortDbg
  · next heq => exact (h.dbgStore.of_pair heq).done

end

section
/-! PROOFS. Canonical memories: Thimble, the passage of time, commits of blocks and management
messages (spec/12_thimble_management_security.md). -/

open Sys2Proof Sys2Proof.Machine

variable {s : State} {x : Tile}

theorem Canonical.runImage (h : Canonical s) : Canonical s.runImage := by
  unfold State.runImage
  extract_lets _ _ _ s1 _ _
  have hs1 : Canonical s1 := h.setAll
  exact hs1.beside (by rfl)

theorem Canonical.recover (h : Canonical s) : Canonical s.recover := by
  unfold State.recover
  extract_lets s1 _
  have hs1 : Canonical s1 := h.setAll
  exact (hs1.beside (by rfl)).releaseOrders

theorem EndsCanonical.romBoot (h : Canonical s) : EndsCanonical (execRomBoot s) := by
  unfold execRomBoot
  generalize s.imageFault = fault
  refine .ite h.go (.ite h.recover.go ?_)
  split
  · exact h.raise.recover.go
  · exact h.runImage.releaseOrders.go

theorem EndsCanonical.bootDeadline (h : Canonical s) : EndsCanonical (execBootDeadline s) :=
  .ite h.go h.raise.recover.go

theorem Canonical.thEvent (h : Canonical s) {k : Nat} : Canonical (s.thEvent k) := .ite h.vector h

theorem Canonical.sendMgmt (h : Canonical s) {vdm : Bool} {b : List Byte} : Canonical (s.sendMgmt vdm b) :=
  .ite h.emit (h.emit.beside (by rfl))

theorem Canonical.withTh (h : Canonical s) {tag op : Nat} {k : State → Cmd → State}
    (hk : ∀ {s : State} (b : Cmd), Canonical s → Canonical (k s b)) : Canonical (s.withTh tag op k) :=
  .ite (h.withCmd fun _ h1 => hk _ h1) h

theorem EndsCanonical.thNegotiate (h : Canonical s) {tag : Nat} : EndsCanonical (execThNegotiate tag s) := by
  unfold execThNegotiate
  refine Canonical.go ?_
  refine .withTh h fun _ h1 => ?_
  split
  · exact h1.refuseTag
  · exact h1.setAll.done

theorem EndsCanonical.sensorRead (h : Canonical s) {tag : Nat} : EndsCanonical (execSensorRead tag s) :=
  Canonical.go (h.withTh fun _ h1 => h1.done)

theorem EndsCanonical.logRead (h : Canonical s) {tag : Nat} : EndsCanonical (execLogRead tag s) := by
  refine .go (.withTh h fun _ h => ?_)
  extract_lets start l
  clear_value l
  cases l with
  | nil => exact h.freeBytes.done
  | cons e l => exact h.cmdToHost

theorem EndsCanonical.logClear (h : Canonical s) {tag : Nat} : EndsCanonical (execLogClear tag s) :=
  Canonical.go (h.withTh fun _ h1 => (h1.beside (by rfl)).done)

theorem EndsCanonical.identity (h : Canonical s) {tag : Nat} : EndsCanonical (execIdentity tag s) :=
  Canonical.go (h.withTh fun _ h1 => h1.done)

theorem EndsCanonical.measure (h : Canonical s) {tag : Nat} : EndsCanonical (execMeasure tag s) :=
  Canonical.go (h.withTh fun _ h1 => h1.cmdToHost)

theorem EndsCanonical.thCommandTimeout (h : Canonical s) {tag : Nat} :
    EndsCanonical (execThCommandTimeout tag s) := by
  unfold execThCommandTimeout
  split
  · exact .ite h.reply.go h.go
  · exact h.go

theorem Canonical.shutReply (h : Canonical s) {tag epoch : Nat} : Canonical (s.shutReply tag epoch) :=
  (h.beside (by rfl)).reply

theorem Canonical.linksOff (h : Canonical s) : Canonical s.linksOff :=
  h.foldl fun _ h1 => .ite h1 h1.clearPort.setLink

theorem Canonical.advanceShutdown (h : Canonical s) : Canonical s.advanceShutdown := by
  unfold State.advanceShutdown
  split
  · split
    · split
      · exact h.abandonStep
      · split
        · extract_lets s1 _
          have hs1 : Canonical s1 := h.startFlush
          clear_value s1
          exact hs1.beside (by rfl)
        · exact h
    · split
      · split
        · exact h
        · extract_lets s1 _ s2
          have hs1 : Canonical s1 := h.linksOff
          clear_value s1
          have hs2 : Canonical s2 := hs1.beside (by rfl)
          clear_value s2
          exact .ite hs2.set hs1.shutReply
      · exact .ite h.removeRails h
  · exact h

theorem Canonical.shutdown (h : Canonical s) {tag : Nat} {test : Bool} : Canonical (s.shutdown tag test) := by
  unfold State.shutdown
  split
  · exact h
  · exact .ite h (h.withTh fun _ h1 => (h1.beside (by rfl)).advanceShutdown)

theorem EndsCanonical.shutdownWithTest (h : Canonical s) {tag : Nat} : EndsCanonical (execShutdownWithTest tag s) :=
  h.shutdown.go

theorem EndsCanonical.shutdownWithoutTest (h : Canonical s) {tag : Nat} :
    EndsCanonical (execShutdownWithoutTest tag s) :=
  h.shutdown.go

theorem Canonical.addFound (h : Canonical s) {r : RepRec} : Canonical (s.addFound r) :=
  .ite h.addRepair.rstFault h.addRepair

theorem EndsCanonical.finishingTestDone (h : Canonical s) {found : List RepRec} {analog : Nat} :
    EndsCanonical (execFinishingTestDone found analog s) := by
  unfold execFinishingTestDone
  split
  · exact .ite h.go (Canonical.go (.shutReply (.setAll (.foldl (h.foldl fun _ h1 => h1.addFound) fun _ h1 => .ite
      h1.rstFault h1))))
  · exact h.go

theorem EndsCanonical.rstFtDeadline (h : Canonical s) : EndsCanonical (execRstFtDeadline s) := by
  unfold execRstFtDeadline
  split
  · exact .ite h.go h.rstFault.setAll.shutReply.go
  · exact h.go

theorem Canonical.crossing (h : Canonical s) {k level : Nat} {v : Int} : Canonical (s.crossing k level v) := by
  unfold State.crossing
  extract_lets _ _ _ _ _ s1 s2
  have hs1 : Canonical s1 := h.beside (by rfl)
  have hs2 : Canonical s2 := by
    unfold s2
    split
    · exact .ite hs1 hs1.sendMgmt
    · exact hs1
  exact .ite h hs2.thEvent

theorem Canonical.ageSensor (h : Canonical s) {k : Nat} : Canonical (s.ageSensor k) := h.set

theorem Canonical.sampleSensor (h : Canonical s) {k : Nat} {r : Option Int} : Canonical (s.sampleSensor k r) := by
  unfold State.sampleSensor
  refine .ite h.ageSensor.set ?_
  split
  · exact .foldl (h.setAll.beside (by rfl)) fun _ h1 => h1.crossing
  · extract_lets n aged th s1
    have hs1 : Canonical s1 := h.beside (by rfl)
    exact .ite hs1.set.raise hs1

theorem Canonical.clampStep (h : Canonical s) {p : Nat} : Canonical (s.clampStep p) := by
  unfold State.clampStep
  extract_lets _ s11
  have hs11 : Canonical s11 := h.setPanel.adjust
  split
  · exact h
  · exact .ite (.ite hs11.bump.raise hs11) (.ite h.setPanel.adjust h)

theorem EndsCanonical.sensorSample (h : Canonical s) {readings : List (Option Int)} :
    EndsCanonical (execSensorSample readings s) :=
  .ite h.go (.ite (Canonical.go (h.foldl fun _ h1 => h1.ageSensor)) (Canonical.go (.foldl (h.foldl fun _ h1 =>
    h1.sampleSensor) fun _ h1 => h1.clampStep)))

theorem EndsCanonical.logWrite (h : Canonical s) : EndsCanonical (execLogWrite s) := by
  unfold execLogWrite
  split
  · exact h.go
  · split
    · exact h.go
    · exact .ite (h.beside (by rfl)).bump.bump.thEvent.go (h.beside (by rfl)).bump.go

theorem EndsCanonical.faultRecord (h : Canonical s) {unit : Nat} : EndsCanonical (execFaultRecord unit s) := by
  unfold execFaultRecord
  split
  · exact h.go
  · split
    · exact h.go
    · exact (h.beside (by rfl)).deliver.go

theorem Canonical.endUpdate (h : Canonical s) : Canonical s.endUpdate := .ite h (h.beside (by rfl)).set.thEvent

theorem EndsCanonical.watchdogExpiry (h : Canonical s) : EndsCanonical (execWatchdogExpiry s) :=
  .ite h.go (.ite (h.raise.endUpdate.thEvent.beside (by rfl)).set.raise.go (h.raise.endUpdate.thEvent.beside (by
    rfl)).set.go)

theorem EndsCanonical.thimbleRestartDone (h : Canonical s) : EndsCanonical (execThimbleRestartDone s) :=
  .ite (h.beside (by rfl)).set.go h.go

theorem Canonical.cycleCounters (h : Canonical s) : Canonical s.cycleCounters := by
  unfold State.cycleCounters
  extract_lets _ s1 s2 s3
  have hs1 : Canonical s1 := .ite h.bump h
  have hs2 : Canonical s2 := .ite hs1.bump hs1
  have hs3 : Canonical s3 := .ite hs2.bump hs2
  exact .ite hs3.bump hs3

theorem Canonical.runPauses (h : Canonical s) : Canonical s.runPauses :=
  h.foldl fun _ h1 => .ite h1 h1.setPort.resumePort

theorem Canonical.tick (h : Canonical s) : Canonical s.tick := by
  unfold State.tick
  exact .ite (h.beside (by rfl)).runPauses.advanceShutdown.cycleCounters (h.beside (by rfl)).runPauses.advanceShutdown

theorem Canonical.dropBlock (h : Canonical s) {b : Block} : Canonical (s.dropBlock b) := h.beside (by rfl)

theorem Canonical.applyBlock (h : Canonical s) {b : Block} : Canonical (s.applyBlock b) :=
  (h.beside (by rfl)).dropBlock

theorem Canonical.commitBlock (h : Canonical s) {b : Block} {v : W32} {check : Fail} {post : State → State}
    (hpost : ∀ {s : State}, Canonical s → Canonical (post s)) : Canonical (s.commitBlock b v check post) := by
  unfold State.commitBlock
  split
  · exact h
  · split
    · exact h.dropBlock.refuseCommit
    · exact hpost h.applyBlock

theorem EndsCanonical.gcCommit (h : Canonical s) {v : W32} : EndsCanonical (execGcCommit v s) :=
  Canonical.go (h.commitBlock id)

theorem EndsCanonical.numCommit (h : Canonical s) {v : W32} : EndsCanonical (execNumCommit v s) :=
  Canonical.go (h.commitBlock fun h1 => .ite (h1.foldl fun _ h2 => .ite h2 h2.linkDown) h1)

theorem EndsCanonical.fabCommit (h : Canonical s) {v : W32} : EndsCanonical (execFabCommit v s) :=
  Canonical.go (h.commitBlock id)

theorem EndsCanonical.plCommit (h : Canonical s) {v : W32} : EndsCanonical (execPlCommit v s) :=
  Canonical.go (h.commitBlock id)

theorem EndsCanonical.unpCommit (h : Canonical s) {v : W32} : EndsCanonical (execUnpCommit v s) :=
  Canonical.go (h.commitBlock id)

theorem EndsCanonical.prsCommit (h : Canonical s) {v : W32} : EndsCanonical (execPrsCommit v s) :=
  Canonical.go (h.commitBlock id)

theorem Canonical.lnStart (h : Canonical s) {n : Nat} {l : List (Nat × Nat × Nat)} : Canonical (s.lnStart n l) :=
  h.foldl fun _ h1 => .beside (.ite h1.set.markAccepted h1.set) (by rfl)

theorem EndsCanonical.mcCommit (h : Canonical s) {n : Nat} {v : W32} : EndsCanonical (execMcCommit n v s) :=
  .ite h.go (Canonical.go (h.commitBlock fun h1 => h1.lnStart))

theorem EndsCanonical.spCommit (h : Canonical s) {n : Nat} {v : W32} : EndsCanonical (execSpCommit n v s) :=
  .ite h.go (Canonical.go (h.commitBlock fun h1 => .ite h1.linkDown h1))

theorem EndsCanonical.seamGcommit (h : Canonical s) {v : W32} : EndsCanonical (execSeamGcommit v s) :=
  Canonical.go (h.commitBlock id)

theorem Canonical.tapeRestart (h : Canonical s) {en moved : Bool} : Canonical (s.tapeRestart en moved) :=
  .resumeTape (.ite (.setAll (.beside (.ite h.setAll h) (by rfl))) (.ite h.setAll h))

theorem Canonical.tapeCommit (h : Canonical s) {abandon : Bool} : Canonical (s.tapeCommit abandon) := by
  unfold State.tapeCommit
  extract_lets _ _
  split
  · exact h.dropBlock.refuseCommit
  · exact h.applyBlock.tapeRestart

theorem EndsCanonical.tpCommit (h : Canonical s) {v : W32} : EndsCanonical (execTpCommit v s) :=
  .ite h.go h.tapeCommit.go

theorem Canonical.abandonTags (h : Canonical s) : Canonical s.abandonTags :=
  .beside (h.foldl fun _ h1 => .ite h1 h1.undefer) (by rfl)

theorem EndsCanonical.tpAbandon (h : Canonical s) {v : W32} : EndsCanonical (execTpAbandon v s) := by
  unfold execTpAbandon
  split
  · exact h.go
  · split
    · split
      · exact h.dropBlock.refuseCommit.go
      · exact h.abandonTags.tapeCommit.go
    · exact h.abandonTags.resumeTape.go

theorem EndsCanonical.thCommit (h : Canonical s) {v : W32} : EndsCanonical (execThCommit v s) :=
  Canonical.go (h.commitBlock id)

theorem EndsCanonical.pnlCommit (h : Canonical s) {p : Nat} {v : W32} : EndsCanonical (execPnlCommit p v s) :=
  .ite h.go (.ite h.raise.go (.ite h.go (.ite (h.beside (by rfl)).go h.applyPanel.go)))

theorem EndsCanonical.pwrCommit (h : Canonical s) {v : W32} : EndsCanonical (execPwrCommit v s) :=
  Canonical.go (h.commitBlock id)

theorem EndsCanonical.onMgmt (h : Canonical s) {v : MVia} {rec : Bool} {k : State → State}
    (hk : ∀ {s : State}, Canonical s → Canonical (k s)) : EndsCanonical (s.onMgmt v rec k) :=
  Canonical.go (.ite (hk h) h)

theorem Canonical.msgAnswer (h : Canonical s) {b : List Byte} : Canonical (s.msgAnswer b) := h.emit

theorem Canonical.refuseMgmt (h : Canonical s) : Canonical s.refuseMgmt := h.emit

theorem Canonical.msgAnswerIf (h : Canonical s) {c : Bool} {b : List Byte} : Canonical (s.msgAnswerIf c b) :=
  .ite h.msgAnswer h.refuseMgmt

theorem EndsCanonical.getTid (h : Canonical s) {v : MVia} : EndsCanonical (execGetTid v s) :=
  .onMgmt h fun h1 => h1.freeBytes.msgAnswer

theorem EndsCanonical.getPldmVersion (h : Canonical s) {v : MVia} : EndsCanonical (execGetPldmVersion v s) :=
  .onMgmt h fun h1 => h1.msgAnswer

theorem EndsCanonical.getPldmTypes (h : Canonical s) {v : MVia} : EndsCanonical (execGetPldmTypes v s) :=
  .onMgmt h fun h1 => h1.msgAnswer

theorem EndsCanonical.getPldmCommands (h : Canonical s) {v : MVia} {ty : Nat} :
    EndsCanonical (execGetPldmCommands v ty s) := by
  unfold execGetPldmCommands
  refine .onMgmt h fun h1 => ?_
  split
  · exact h1.msgAnswer
  · exact h1.refuseMgmt

theorem EndsCanonical.getPdrRepositoryInfo (h : Canonical s) {v : MVia} :
    EndsCanonical (execGetPdrRepositoryInfo v s) :=
  .onMgmt h fun h1 => h1.msgAnswer

theorem EndsCanonical.getPdr (h : Canonical s) {v : MVia} {record : Nat} : EndsCanonical (execGetPdr v record s) :=
  .onMgmt h fun h1 => h1.msgAnswerIf

theorem EndsCanonical.getSensorReading (h : Canonical s) {v : MVia} {id : Nat} :
    EndsCanonical (execGetSensorReading v id s) :=
  .onMgmt h fun h1 => h1.msgAnswerIf

theorem EndsCanonical.setNumericSensorEnable (h : Canonical s) {v : MVia} {id op : Nat} :
    EndsCanonical (execSetNumericSensorEnable v id op s) :=
  .onMgmt h fun h1 => .ite (h1.beside (by rfl)).msgAnswer h1.refuseMgmt

theorem EndsCanonical.setEventReceiver (h : Canonical s) {v : MVia} {enable : Bool} {eid : Nat} :
    EndsCanonical (execSetEventReceiver v enable eid s) :=
  .onMgmt h fun h1 => (h1.beside (by rfl)).msgAnswer

theorem Canonical.onUpd (h : Canonical s) {f : Update → Update} : Canonical (s.onUpd f) := h.beside (by rfl)

theorem EndsCanonical.queryDeviceIdentifiers (h : Canonical s) {v : MVia} :
    EndsCanonical (execQueryDeviceIdentifiers v s) :=
  .onMgmt h fun h1 => h1.msgAnswer

theorem EndsCanonical.getFirmwareParameters (h : Canonical s) {v : MVia} :
    EndsCanonical (execGetFirmwareParameters v s) := by
  unfold execGetFirmwareParameters
  refine .onMgmt h fun h1 => ?_
  extract_lets r2
  have hr2 : Canonical r2.2 := by
    unfold r2
    split
    · exact h1
    · exact h1.freeBytes
  exact hr2.msgAnswer

theorem EndsCanonical.requestUpdate (h : Canonical s) {v : MVia} {maxXfer : Nat} :
    EndsCanonical (execRequestUpdate v maxXfer s) :=
  .onMgmt h fun h1 => .ite h1.refuseMgmt h1.onUpd.set.msgAnswer

theorem EndsCanonical.passComponentTable (h : Canonical s) {v : MVia} {cls id : Nat} :
    EndsCanonical (execPassComponentTable v cls id s) :=
  .onMgmt h fun h1 => h1.msgAnswerIf

theorem Canonical.askData (h : Canonical s) : Canonical s.askData := .ite h h.sendMgmt

theorem EndsCanonical.updateComponent (h : Canonical s) {v : MVia} {cls id size : Nat} :
    EndsCanonical (execUpdateComponent v cls id size s) :=
  .onMgmt h fun h1 => .ite h1.onUpd.msgAnswer.askData h1.refuseMgmt

theorem Canonical.eraseImage (h : Canonical s) : Canonical s.eraseImage := by
  obtain ⟨hdata, hhost, htiles, -⟩ := h
  refine ⟨hdata, hhost, htiles, fun m hm => ?_⟩
  cases hm
  rfl

theorem Canonical.writeImage (h : Canonical s) {b : List Byte} : Canonical (s.writeImage b) := by
  have hold : (s.th.flash.getD []).wf = true := h.flash
  obtain ⟨hdata, hhost, htiles, -⟩ := h
  refine ⟨hdata, hhost, htiles, fun m hm => ?_⟩
  cases hm
  exact memWriteN_wf b _ _ hold

theorem Canonical.recoverData (h : Canonical s) {b : List Byte} : Canonical (s.recoverData b) :=
  .onUpd (.writeImage (.ite h.eraseImage h))

theorem Canonical.updateData (h : Canonical s) {b : List Byte} : Canonical (s.updateData b) := by
  unfold State.updateData
  extract_lets _ s1 _ _ s2
  have hs1 : Canonical s1 := h.onUpd
  have hs2 : Canonical s2 := (hs1.beside (by rfl)).eraseImage.writeImage
  exact .ite hs1.writeImage (.ite hs1.onUpd (.ite hs1.onUpd.raise.sendMgmt hs2.onUpd))

theorem EndsCanonical.firmwareData (h : Canonical s) {v : MVia} {off : Nat} {data : List Byte} :
    EndsCanonical (execFirmwareData v off data s) :=
  .onMgmt h fun h1 => .ite h1 (.ite (.askData (.ite h1.updateData h1.recoverData)) (.ite h1.updateData
    h1.recoverData))

theorem EndsCanonical.transferComplete (h : Canonical s) {v : MVia} : EndsCanonical (execTransferComplete v s) :=
  .onMgmt h fun h1 => .ite h1.onUpd.msgAnswer h1.refuseMgmt

theorem EndsCanonical.verifyComplete (h : Canonical s) {v : MVia} : EndsCanonical (execVerifyComplete v s) := by
  refine .onMgmt h fun {s} h => ?_
  generalize s.imageFault = fault
  refine .ite h.refuseMgmt ?_
  split
  · exact h.onUpd.raise.refuseMgmt
  · exact (h.beside (by rfl)).onUpd.set.bump.thEvent.msgAnswer

theorem EndsCanonical.applyComplete (h : Canonical s) {v : MVia} : EndsCanonical (execApplyComplete v s) :=
  .onMgmt h fun h1 => h1.msgAnswerIf

theorem EndsCanonical.activateFirmware (h : Canonical s) {v : MVia} {selfContained : Bool} :
    EndsCanonical (execActivateFirmware v selfContained s) :=
  .onMgmt h fun h1 => .ite h1.endUpdate.msgAnswer h1.refuseMgmt

theorem EndsCanonical.getStatus (h : Canonical s) {v : MVia} : EndsCanonical (execGetStatus v s) :=
  .onMgmt h fun h1 => h1.msgAnswer

theorem EndsCanonical.cancelUpdateComponent (h : Canonical s) {v : MVia} :
    EndsCanonical (execCancelUpdateComponent v s) :=
  .onMgmt h fun h1 => .ite h1.refuseMgmt h1.onUpd.msgAnswer

theorem EndsCanonical.cancelUpdate (h : Canonical s) {v : MVia} : EndsCanonical (execCancelUpdate v s) :=
  .onMgmt h fun h1 => .ite h1.refuseMgmt h1.endUpdate.msgAnswer

theorem EndsCanonical.getVersion (h : Canonical s) {v : MVia} : EndsCanonical (execGetVersion v s) :=
  .onMgmt h fun h1 => (h1.beside (by rfl)).msgAnswer

theorem EndsCanonical.getCapabilities (h : Canonical s) {v : MVia} : EndsCanonical (execGetCapabilities v s) :=
  .onMgmt h fun h1 => h1.msgAnswer

theorem EndsCanonical.negotiateAlgorithms (h : Canonical s) {v : MVia} {common : Bool} :
    EndsCanonical (execNegotiateAlgorithms v common s) :=
  .onMgmt h fun h1 => .ite (h1.beside (by rfl)).msgAnswer h1.refuseMgmt

theorem EndsCanonical.onSpdm (h : Canonical s) {v : MVia} {k : State → State}
    (hk : ∀ {s : State}, Canonical s → Canonical (k s)) : EndsCanonical (s.onSpdm v k) :=
  .onMgmt h fun h1 => .ite (hk h1) h1.refuseMgmt

theorem EndsCanonical.getDigests (h : Canonical s) {v : MVia} : EndsCanonical (execGetDigests v s) :=
  .onSpdm h fun h1 => h1.msgAnswer

theorem EndsCanonical.getCertificate (h : Canonical s) {v : MVia} {slot off len : Nat} :
    EndsCanonical (execGetCertificate v slot off len s) :=
  .onSpdm h fun h1 => h1.msgAnswerIf

theorem Canonical.msgSigned (h : Canonical s) {b : List Byte} : Canonical (s.msgSigned b) := h.freeBytes.msgAnswer

theorem EndsCanonical.challenge (h : Canonical s) {v : MVia} {slot : Nat} {nonce : List Byte} :
    EndsCanonical (execChallenge v slot nonce s) :=
  .onSpdm h fun h1 => .ite h1.msgSigned h1.refuseMgmt

theorem EndsCanonical.getMeasurements (h : Canonical s) {v : MVia} {index : Nat} {nonce : List Byte} :
    EndsCanonical (execGetMeasurements v index nonce s) :=
  .onSpdm h fun h1 => .ite h1.refuseMgmt (.ite h1.msgSigned (.ite h1.msgSigned (.ite h1.msgSigned h1.refuseMgmt)))

theorem Canonical.authFail (h : Canonical s) : Canonical s.authFail := h.bump.raise.refuseMgmt

theorem Canonical.dropSess (h : Canonical s) {id : Nat} : Canonical (s.dropSess id) := h.beside (by rfl)

theorem EndsCanonical.keyExchange (h : Canonical s) {v : MVia} {sess : Nat} {auth : Bool} :
    EndsCanonical (execKeyExchange v sess auth s) :=
  .onSpdm h fun h1 => .ite h1.authFail (.ite h1.refuseMgmt (h1.beside (by rfl)).msgSigned)

theorem EndsCanonical.finish (h : Canonical s) {v : MVia} {sess : Nat} {auth : Bool} :
    EndsCanonical (execFinish v sess auth s) :=
  .onSpdm h fun h1 => .ite (.ite (h1.beside (by rfl)).bump.msgAnswer h1.dropSess.authFail) h1.refuseMgmt

theorem EndsCanonical.inSess (h : Canonical s) {v : MVia} {sess : Nat} {auth : Bool} {k : State → State}
    (hk : ∀ {s : State}, Canonical s → Canonical (k s)) : EndsCanonical (s.inSess v sess auth k) :=
  .onMgmt h fun h1 => .ite h1.refuseMgmt (.ite (hk h1) h1.authFail)

theorem EndsCanonical.heartbeat (h : Canonical s) {v : MVia} {sess : Nat} {auth : Bool} :
    EndsCanonical (execHeartbeat v sess auth s) :=
  .inSess h fun h1 => h1.msgAnswer

theorem EndsCanonical.keyUpdate (h : Canonical s) {v : MVia} {sess : Nat} {auth : Bool} :
    EndsCanonical (execKeyUpdate v sess auth s) :=
  .inSess h fun h1 => h1.msgAnswer

theorem EndsCanonical.endSession (h : Canonical s) {v : MVia} {sess : Nat} {auth : Bool} :
    EndsCanonical (execEndSession v sess auth s) :=
  .inSess h fun h1 => h1.dropSess.msgAnswer

theorem EndsCanonical.heartbeatTimeout (h : Canonical s) {sess : Nat} : EndsCanonical (execHeartbeatTimeout sess s) :=
  .ite h.dropSess.go h.go

theorem EndsCanonical.onVendor (h : Canonical s) {v : MVia} {k : State → Nat → State}
    (hk : ∀ {s : State} (b : Nat), Canonical s → Canonical (k s b)) : EndsCanonical (s.onVendor v k) := by
  unfold State.onVendor
  refine .onMgmt h fun h1 => ?_
  split
  · exact hk _ h1
  · exact h1.refuseMgmt

theorem EndsCanonical.debugNonce (h : Canonical s) {v : MVia} : EndsCanonical (execDebugNonce v s) :=
  .onVendor h fun _ h1 => (h1.freeBytes.beside (by rfl)).msgAnswer

theorem Canonical.setUnlock (h : Canonical s) {b : Bool} : Canonical (s.setUnlock b) :=
  .ite (h.beside (by rfl)) (h.beside (by rfl)).thEvent

theorem EndsCanonical.debugUnlock (h : Canonical s) {v : MVia} {nonce : List Byte} {sig : RsaSig} :
    EndsCanonical (execDebugUnlock v nonce sig s) :=
  .onVendor h fun _ h1 => .ite (h1.beside (by rfl)).raise.refuseMgmt (.ite (h1.beside (by
    rfl)).raise.setUnlock.msgAnswer (h1.beside (by rfl)).msgAnswer)

theorem EndsCanonical.debugLock (h : Canonical s) {v : MVia} : EndsCanonical (execDebugLock v s) :=
  .onVendor h fun _ h1 => h1.setUnlock.msgAnswer

theorem Canonical.refuseOption (h : Canonical s) {off : Nat} : Canonical (s.refuseOption off) := h.raise.refuseMgmt

theorem EndsCanonical.optionWrite (h : Canonical s) {v : MVia} {image : List Byte} {sig : Option RsaSig} :
    EndsCanonical (execOptionWrite v image sig s) := by
  unfold execOptionWrite
  refine .onVendor h fun _ h1 => ?_
  split
  · exact h1.refuseOption
  · split
    · exact h1.refuseOption
    · exact (h1.beside (by rfl)).msgAnswer

theorem EndsCanonical.fuseBurn (h : Canonical s) {v : MVia} {fuse : FuseName} {body : List Byte}
    {sig : Option RsaSig} : EndsCanonical (execFuseBurn v fuse body sig s) := by
  refine .onVendor h fun _ h => .ite h.refuseOption (.msgAnswer ?_)
  exact h.of_eq rfl rfl rfl (by cases fuse <;> rfl)

theorem EndsCanonical.ideKmQuery (h : Canonical s) {v : MVia} {stream : Nat} :
    EndsCanonical (execIdeKmQuery v stream s) :=
  .onVendor h fun _ h1 => h1.msgAnswerIf

theorem EndsCanonical.ideKmKeyProg (h : Canonical s) {v : MVia} {stream keySet : Nat} {key : List Byte} :
    EndsCanonical (execIdeKmKeyProg v stream keySet key s) :=
  .onVendor h fun _ h1 => .ite (h1.beside (by rfl)).msgAnswer h1.refuseMgmt

theorem EndsCanonical.ideKmKSetGo (h : Canonical s) {v : MVia} {stream keySet : Nat} :
    EndsCanonical (execIdeKmKSetGo v stream keySet s) :=
  .onVendor h fun _ h1 => .ite (h1.beside (by rfl)).msgAnswer h1.refuseMgmt

theorem EndsCanonical.ideKmKSetStop (h : Canonical s) {v : MVia} {stream keySet : Nat} :
    EndsCanonical (execIdeKmKSetStop v stream keySet s) :=
  .onVendor h fun _ h1 => .ite (h1.beside (by rfl)).msgAnswer h1.refuseMgmt

theorem EndsCanonical.setEndpointId (h : Canonical s) {v : MVia} {eid : Nat} :
    EndsCanonical (execSetEndpointId v eid s) :=
  .onMgmt h fun h1 => .ite (h1.beside (by rfl)).msgAnswer h1.refuseMgmt

theorem EndsCanonical.getEndpointId (h : Canonical s) {v : MVia} : EndsCanonical (execGetEndpointId v s) :=
  .onMgmt h fun h1 => h1.msgAnswer

theorem EndsCanonical.getMctpVersionSupport (h : Canonical s) {v : MVia} :
    EndsCanonical (execGetMctpVersionSupport v s) :=
  .onMgmt h fun h1 => h1.msgAnswer

theorem EndsCanonical.getMessageTypeSupport (h : Canonical s) {v : MVia} :
    EndsCanonical (execGetMessageTypeSupport v s) :=
  .onMgmt h fun h1 => h1.msgAnswer

theorem EndsCanonical.smbusAlertResponse (h : Canonical s) : EndsCanonical (execSmbusAlertResponse s) :=
  .ite (h.beside (by rfl)).go h.go

end

section
/-! PROOFS. Canonical memories: resets, the safe state, streams of the seam and verdicts
(spec/14_reset_bringup_selftest.md, spec/15_faults_and_safe_state.md, spec/10_seam_ports_and_collectives.md). -/

open Sys2Proof Sys2Proof.Machine

variable {s : State} {x : Tile}

theorem EndsCanonical.vauxValid (h : Canonical s) {bootSrc clkMode : Nat} :
    EndsCanonical (execVauxValid bootSrc clkMode s) :=
  .ite h.go (h.beside (by rfl)).auxSource.go

theorem Canonical.loseBackup (h : Canonical s) : Canonical s.loseBackup := h.beside (by rfl)

theorem EndsCanonical.vauxLoss (h : Canonical s) : EndsCanonical (execVauxLoss s) := by
  have hlost : Canonical (((s.removeRails.clearCold true).clearSeq).loseBackup) :=
    h.removeRails.clearCold.clearSeq.loseBackup
  unfold execVauxLoss
  generalize ((s.removeRails.clearCold true).clearSeq).loseBackup = t at hlost
  exact .ite h.go (hlost.beside (by rfl)).go

theorem EndsCanonical.auxRstN (h : Canonical s) : EndsCanonical (execAuxRstN s) := .ite h.auxSource.go h.go

theorem EndsCanonical.input50vValid (h : Canonical s) : EndsCanonical (execInput50vValid s) :=
  .ite h.go (.ite (h.beside (by rfl)).coldSource.go (h.beside (by rfl)).go)

theorem EndsCanonical.sysRstN (h : Canonical s) : EndsCanonical (execSysRstN s) :=
  .ite (h.beside (by rfl)).coldSource.go h.go

theorem EndsCanonical.sysRstNRelease (h : Canonical s) : EndsCanonical (execSysRstNRelease s) :=
  .ite (h.beside (by rfl)).beginStart.go h.go

theorem EndsCanonical.perstAssert (h : Canonical s) : EndsCanonical (execPerstAssert s) :=
  .ite h.go (.ite (h.beside (by rfl)).coldSource.go (h.beside (by rfl)).go)

theorem EndsCanonical.perstDeassert (h : Canonical s) : EndsCanonical (execPerstDeassert s) :=
  .ite (h.beside (by rfl)).go h.go

theorem EndsCanonical.hotReset (h : Canonical s) : EndsCanonical (execHotReset s) :=
  .ite (h.beside (by rfl)).warmSource.go h.go

theorem EndsCanonical.flr (h : Canonical s) : EndsCanonical (execFlr s) := .ite h.warmSource.go h.go

theorem EndsCanonical.blockIdle (h : Canonical s) {b : Blk} : EndsCanonical (execBlockIdle b s) :=
  .ite h.idleBlk.go h.go

theorem EndsCanonical.idleTimeout (h : Canonical s) {b : Blk} : EndsCanonical (execIdleTimeout b s) :=
  .ite h.rstFault.idleBlk.go h.go

theorem EndsCanonical.railsInRegulation (h : Canonical s) : EndsCanonical (execRailsInRegulation s) :=
  .ite (Canonical.go (.releaseOrders ((h.beside (by rfl)).set.stretchState.panelsUp.foldl fun _ h1 => h1.limits)))
    h.go

theorem EndsCanonical.channelTrained (h : Canonical s) {refused : List Nat} :
    EndsCanonical (execChannelTrained refused s) :=
  .ite h.go (Canonical.go (.setFilling (.repairRows (.beside (h.setAll.foldl fun _ h1 => h1.rstFault) (by rfl)))))

theorem EndsCanonical.zeroFillDone (h : Canonical s) : EndsCanonical (execZeroFillDone s) :=
  .ite (.ite (h.beside (by rfl)).setFilling.set.go (h.beside (by rfl)).setFilling.go) h.go

theorem flash_revoke (l : List Nat) (t : Thimble) : (l.foldl Thimble.revoke t).flash = t.flash := by
  induction l generalizing t with
  | nil => rfl
  | cons k l ih =>
    refine (ih _).trans ?_
    unfold Thimble.revoke
    split <;> rfl

theorem Canonical.advanceFuses (h : Canonical s) : Canonical s.advanceFuses := by
  unfold State.advanceFuses
  extract_lets th s1 svn key due v s2 t
  have hs1 : Canonical s1 := h.beside (by rfl)
  have hs2 : Canonical s2 := hs1.freeVal
  have hburnt : Canonical { s2 with th := { t with rollback := max t.rollback svn } } :=
    hs2.of_eq rfl rfl rfl (flash_revoke _ s2.th)
  exact .ite h (.ite hs1 (.ite hs2.raise hburnt))

theorem Canonical.becomeReady (h : Canonical s) : Canonical s.becomeReady :=
  .ite (h.beside (by rfl)).rstFault (h.beside (by rfl)).set.advanceFuses

theorem EndsCanonical.startReady (h : Canonical s) : EndsCanonical (execStartReady s) := by
  unfold execStartReady
  split
  · exact .ite h.becomeReady.go h.go
  · exact .ite h.becomeReady.go h.go
  · exact h.go

theorem EndsCanonical.rstReadyDeadline (h : Canonical s) : EndsCanonical (execRstReadyDeadline s) := by
  unfold execRstReadyDeadline
  split
  · exact (h.beside (by rfl)).rstFault.go
  · exact (h.beside (by rfl)).rstFault.go
  · exact h.go

theorem Canonical.stopPress (h : Canonical s) : Canonical s.stopPress :=
  .ite (h.beside (by rfl)).set.bump (.ite (h.beside (by rfl)).setAll (.ite (h.beside (by rfl)).set (h.beside (by
    rfl))))

theorem Canonical.holdPorts (h : Canonical s) : Canonical s.holdPorts :=
  h.foldl fun _ h1 => .ite h1.setLink.sendHold h1

theorem Canonical.causeEvent (h : Canonical s) : Canonical s.causeEvent := by
  unfold State.causeEvent
  split
  · exact h
  · exact .ite (h.beside (by rfl)).deliver h

theorem Canonical.enterSafe (h : Canonical s) : Canonical s.enterSafe :=
  .adjustAll (.vector (.causeEvent (.holdPorts (.stopPress (.ite (h.endTest.abortBobs.beside (by rfl)).set.set
    (h.endTest.abortBobs.beside (by rfl)).set)))))

theorem EndsCanonical.safeStateEntry (h : Canonical s) : EndsCanonical (execSafeStateEntry s) :=
  .ite h.go h.enterSafe.go

theorem EndsCanonical.fltSafeDeadline (h : Canonical s) : EndsCanonical (execFltSafeDeadline s) :=
  .ite h.go (Canonical.go (.set (.beside (.raise (.ite h h.enterSafe)) (by rfl))))

theorem Canonical.onOut (h : Canonical s) {o o' : OutStream} : Canonical (s.onOut o o') := h.beside (by rfl)

theorem Canonical.sendStream (h : Canonical s) {o : OutStream} {n : Nat} : Canonical (s.sendStream o n).1 :=
  h.onOut.sendMsg

theorem Canonical.pumpOut (h : Canonical s) {all : Bool} {n : Nat} {o : OutStream} :
    Canonical (s.pumpOut all n o).1 := by
  induction n generalizing s o with
  | zero => exact h
  | succ n ih =>
    unfold State.pumpOut
    exact .iteFst (ih h.sendStream) h

theorem Canonical.endOut (h : Canonical s) {o : OutStream} : Canonical (s.endOut o) :=
  .ite (h.beside (by rfl)).sendMsg h

theorem Canonical.runOut (h : Canonical s) {o : OutStream} : Canonical (s.runOut o) := h.pumpOut.endOut

theorem Canonical.packTok (h : Canonical s) {p : Nat} {k : Token} : Canonical (s.packTok p k) := by
  unfold State.packTok
  split
  · exact h.onOut.runOut
  · exact h

theorem EndsCanonical.streamTokenOut (h : Canonical s) {p : Nat} {hdr : W64} {pay : List Byte} :
    EndsCanonical (execStreamTokenOut p hdr pay s) := by
  unfold execStreamTokenOut
  refine .ite h.go (.ite (.ite h.go (.go (.foldl h fun _ h1 => h1.onOut.runOut))) (.ite ?_ h.go))
  split
  · next heq => exact (h.fate.of_pair heq).packTok.go
  · next heq => exact (h.fate.of_pair heq).go
  · next heq => exact (h.fate.of_pair heq).packTok.go

theorem EndsCanonical.streamPackTimeout (h : Canonical s) {p slot : Nat} :
    EndsCanonical (execStreamPackTimeout p slot s) := by
  unfold execStreamPackTimeout
  split
  · exact .ite h.go h.pumpOut.endOut.go
  · exact h.go

theorem EndsCanonical.streamCredit (h : Canonical s) {p : Nat} {m : SMsg} :
    EndsCanonical (execStreamCredit p m s) := by
  unfold execStreamCredit
  refine Canonical.go ?_
  refine .onMsg h fun h1 => ?_
  split
  · exact h1.onOut.runOut
  · exact h1

theorem Canonical.onIn (h : Canonical s) {i i' : InStream} : Canonical (s.onIn i i') := h.beside (by rfl)

theorem Canonical.takeStream (h : Canonical s) {p : Nat} {m : SMsg} : Canonical (s.takeStream p m) := by
  unfold State.takeStream
  extract_lets _ s1
  have hs1 : Canonical s1 := h.beside (by rfl)
  split
  · exact hs1
  · split
    · exact .ite h.raise h.onIn
    · exact .ite hs1 h.raise

theorem EndsCanonical.stream (h : Canonical s) {p : Nat} {m : SMsg} : EndsCanonical (execStream p m s) :=
  Canonical.go (h.onMsg fun h1 => .ite (h1.beside (by rfl)) h1.takeStream)

theorem Canonical.hemIn (h : Canonical s) {i : InStream} : Canonical (s.hemIn i) :=
  .ite (.sendUnit (.beside (.ite h h.grant) (by rfl))) h

theorem EndsCanonical.streamHem (h : Canonical s) {p : Nat} {m : SMsg} : EndsCanonical (execStreamHem p m s) := by
  unfold execStreamHem
  refine Canonical.go ?_
  refine .onMsg h fun h1 => ?_
  split
  · split
    · exact h1.raise
    · extract_lets _ s2 _ s3
      have hs2 : Canonical s2 := h1.onIn
      have hs3 : Canonical s3 := .ite (hs2.beside (by rfl)) hs2
      exact hs3.enforceIns.hemIn
  · exact h1.raise

theorem Canonical.takeKept (h : Canonical s) {p slot n : Nat} : Canonical (s.takeKept p slot n) := by
  induction n generalizing s with
  | zero => exact h
  | succ n ih =>
    unfold State.takeKept
    split
    · exact .ite h (ih (h.beside (by rfl)).takeStream)
    · exact h

theorem EndsCanonical.streamReinject (h : Canonical s) {p slot : Nat} :
    EndsCanonical (execStreamReinject p slot s) := by
  unfold execStreamReinject
  split
  · exact h.go
  · extract_lets s1
    have hs1 : Canonical s1 := h.takeKept
    split
    · exact hs1.go
    · split
      · exact hs1.hemIn.go
      · exact .ite hs1.go (Canonical.go (.ite hs1.onIn.sendUnit.grant hs1.onIn.sendUnit))

theorem EndsCanonical.creditGrantTimeout (h : Canonical s) {p slot : Nat} :
    EndsCanonical (execCreditGrantTimeout p slot s) := by
  unfold execCreditGrantTimeout
  split
  · exact .ite h.go h.onIn.grant.go
  · exact h.go

theorem Canonical.gatherChan (h : Canonical s) {g : Gather} : Canonical (s.gatherChan g) := .ite h (h.beside (by rfl))

theorem Canonical.gatherEnd (h : Canonical s) {g : Gather} {failed : Bool} : Canonical (s.gatherEnd g failed) :=
  h.gatherChan.bump.oweDone

theorem Canonical.beginGather (h : Canonical s) {p gen : Nat} {b : List Byte} : Canonical (s.beginGather p gen b) :=
  .ite h.raise (.ite h.gatherEnd (h.withRec fun h1 => .ite h1.gatherEnd.raise (h1.gatherChan.beside (by
    rfl)).sendMsg))

theorem Canonical.startGather (h : Canonical s) {p gen : Nat} {b : List Byte} : Canonical (s.startGather p gen b) :=
  .ite (h.beside (by rfl)) h.beginGather

theorem Canonical.dropGather (h : Canonical s) {g : Gather} : Canonical (s.dropGather g) := by
  unfold State.dropGather
  extract_lets _ s1 _
  have hs1 : Canonical s1 := h.beside (by rfl)
  split
  · exact (hs1.beside (by rfl)).beginGather
  · exact hs1

theorem EndsCanonical.gatherRequest (h : Canonical s) {p : Nat} {hdr : GatherHdr} {payload : List Byte}
    {basted : Bool} :
    EndsCanonical (execGatherRequest p hdr payload basted s) := by
  unfold execGatherRequest
  refine .ite h.go ?_
  split
  · next heq => exact (h.fate.of_pair heq).startGather.go
  · next heq => exact (h.fate.of_pair heq).go
  · next heq => exact ((h.fate.of_pair heq).beside (by rfl)).go

theorem EndsCanonical.seamGatherDeadline (h : Canonical s) {p tag : Nat} :
    EndsCanonical (execSeamGatherDeadline p tag s) := by
  unfold execSeamGatherDeadline
  split
  · exact .ite h.go h.dropGather.raise.go
  · exact h.go

theorem Canonical.gatherLines (h : Canonical s) {g : Gather} {d : FmtD} {line : Nat} {l : List (List Byte)} :
    Canonical (s.gatherLines g d line l).1 := by
  induction l generalizing s line with
  | nil => exact h
  | cons b l ih =>
    unfold State.gatherLines
    exact .iteFst (ih h) (ih h.put.put.addCnt)

theorem Canonical.rxGather (h : Canonical s) {g : Gather} {m : SMsg} : Canonical (s.rxGather g m) :=
  h.withRec fun h1 => h1.gatherLines.beside (by rfl)

theorem Canonical.rxGatherDigest (h : Canonical s) {g : Gather} {m : SMsg} : Canonical (s.rxGatherDigest g m) :=
  .ite h.gatherEnd.dropGather.raise (.ite h.gatherEnd.dropGather (.ite (h.beside (by rfl)).bump.raise.sendMsg
    h.gatherEnd.dropGather.raise))

theorem EndsCanonical.gatherResp (h : Canonical s) {p : Nat} {m : SMsg} : EndsCanonical (execGatherResp p m s) := by
  unfold execGatherResp
  refine Canonical.go ?_
  refine .onMsg h fun h1 => ?_
  split
  · exact h1.rxGather
  · exact h1

theorem EndsCanonical.returnMsg (h : Canonical s) {p : Nat} {m : SMsg} : EndsCanonical (execReturnMsg p m s) := by
  unfold execReturnMsg
  refine Canonical.go ?_
  refine .onMsg h fun h1 => ?_
  split
  · exact h1.rxGather
  · exact h1.collMsg

theorem EndsCanonical.digest (h : Canonical s) {p : Nat} {m : SMsg} : EndsCanonical (execDigest p m s) := by
  unfold execDigest
  refine Canonical.go ?_
  refine .onMsg h fun h1 => ?_
  split
  · exact h1.rxGatherDigest
  · exact h1.collMsg

theorem Canonical.answerLines (h : Canonical s) {p : Nat} {m : SMsg} {ty step first count : Nat} {served : Bool} :
    Canonical (s.answerLines p m ty step first count served) :=
  .ite (.sendMsg (.foldl (.iteFst h.engCheck h) fun _ h1 => h1.sendMsg)) (.sendMsg (.iteFst h.engCheck h))

theorem Canonical.answerReq (h : Canonical s) {p : Nat} {m : SMsg} : Canonical (s.answerReq p m) :=
  .ite h.answerLines h.answerLines

theorem Canonical.ownerReq (h : Canonical s) {p : Nat} {m : SMsg} : Canonical (s.ownerReq p m) :=
  h.withRec fun h1 => .ite (h1.beside (by rfl)) h1.answerReq

theorem EndsCanonical.rereq (h : Canonical s) {p : Nat} {m : SMsg} : EndsCanonical (execRereq p m s) :=
  Canonical.go (h.onMsg fun h1 => h1.ownerReq)

theorem EndsCanonical.gatherReq (h : Canonical s) {p : Nat} {m : SMsg} : EndsCanonical (execGatherReq p m s) :=
  Canonical.go (h.onMsg fun h1 => h1.ownerReq)

theorem EndsCanonical.ownerDeferredAnswer (h : Canonical s) {group : Nat} :
    EndsCanonical (execOwnerDeferredAnswer group s) :=
  .ite h.go (Canonical.go (h.withRec fun h1 => .ite h1 ((h1.beside (by rfl)).foldl fun _ h2 => h2.answerReq)))

theorem Canonical.decideClose (h : Canonical s) {q : HeldClose} {sew : Bool} : Canonical (s.decideClose q sew) :=
  .ite (h.beside (by rfl)).closeTok (h.beside (by rfl))

theorem Canonical.decideOut (h : Canonical s) {o : OutStream} {k : Token} {sew : Bool} :
    Canonical (s.decideOut o k sew) :=
  h.onOut.runOut

theorem Canonical.decideGather (h : Canonical s) {q : HeldGather} {sew : Bool} : Canonical (s.decideGather q sew) :=
  .ite (h.beside (by rfl)).startGather (h.beside (by rfl))

theorem Canonical.unitOrphan (h : Canonical s) {u q g : Nat} {sew held : Bool} :
    Canonical (s.unitOrphan u q g sew held) :=
  .ite h (.ite (h.beside (by rfl)) h.raise)

theorem Canonical.of_map {α : Type} {t : State} {o : Option α} {f : α → State} (hf : ∀ a, Canonical (f a))
    (e : o.map f = some t) : Canonical t := by
  obtain ⟨a, -, rfl⟩ := Option.map_eq_some_iff.1 e
  exact hf a

theorem Canonical.decideAt (h : Canonical s) {u q g : Nat} {sew : Bool} {t : State}
    (e : s.decideAt u q g sew = some t) :
    Canonical t := by
  unfold State.decideAt at e
  split at e
  · split at e
    · exact .of_map (fun _ => h.decideClose) e
    · exact .of_map (fun _ => h.decideReq) e
  · split at e
    · split at e
      · exact .of_map (fun _ => h.decideOut) e
      · split at e
        · exact .of_map (fun _ => h.decideGather) e
        · exact nomatch e
    · exact nomatch e

theorem Canonical.verdictUnit (h : Canonical s) {u q g : Nat} {sew : Bool} : Canonical (s.verdictUnit u q g sew) := by
  unfold State.verdictUnit
  extract_lets held s1
  have hs1 : Canonical s1 := h.heldUnit
  clear_value s1
  cases hd : s1.decideAt u q g sew with
  | none => exact hs1.unitOrphan
  | some t => exact hs1.decideAt hd

theorem EndsCanonical.verdictToken (h : Canonical s) {t q tag : Nat} {sew : Bool} :
    EndsCanonical (execVerdictToken t q tag sew s) :=
  .ite h.go (.ite h.verdictAt.go h.verdictUnit.go)

end

section
/-! PROOFS. Canonical memories: every command and every step (spec/08_memory_system.md R263,
R285). -/

open Sys2Proof Sys2Proof.Machine

variable {s : State} {x : Tile}

/-- A command that goes on leaves canonical memories canonical. -/
theorem exec_endsCanonical (h : Canonical s) : ∀ i : Instr, EndsCanonical (exec i s)
  | .regWrite .. => .regWrite h
  | .regAccessMisaligned _ _ _ v => .regAccessMisaligned (v := v) h
  | .lowerWordLatchRead .. => .lowerWordLatchRead h
  | .upperWordRead .. => .upperWordRead h
  | .counterRead .. => .counterRead h
  | .w1cClear .. => .w1cClear h
  | .gcCommit .. => .gcCommit h
  | .numCommit .. => .numCommit h
  | .tileCommit .. => .tileCommit h
  | .tileCommitApply .. => .tileCommitApply h
  | .tileCommitWait .. => .tileCommitWait h
  | .bankFillDone .. => .bankFillDone h
  | .fabCommit .. => .fabCommit h
  | .plCommit .. => .plCommit h
  | .unpCommit .. => .unpCommit h
  | .prsCommit .. => .prsCommit h
  | .mcCommit .. => .mcCommit h
  | .modeRegisterRead .. => .modeRegisterRead h
  | .modeRegisterWrite .. => .modeRegisterWrite h
  | .hardPpr .. => .hardPpr h
  | .mcRepairDone .. => .mcRepairDone h
  | .spCommit .. => .spCommit h
  | .seamGcommit .. => .seamGcommit h
  | .tpCommit .. => .tpCommit h
  | .tpAbandon .. => .tpAbandon h
  | .thCommit .. => .thCommit h
  | .pnlCommit .. => .pnlCommit h
  | .pwrCommit .. => .pwrCommit h
  | .halt .. => .halt h
  | .nop .. => .nop h
  | .fence .. => .fence h
  | .loop .. => .loop h
  | .brctl .. => .brctl h
  | .jmp .. => .jmp h
  | .tmma .. => .tmma h
  | .vop .. => .vop h
  | .vcvt .. => .vcvt h
  | .vred .. => .vred h
  | .accrd .. => .accrd h
  | .accinit .. => .accinit h
  | .accadd .. => .accadd h
  | .rpub .. => .rpub h
  | .rrel .. => .rrel h
  | .recv .. => .recv h
  | .send .. => .send h
  | .dlld .. => .dlld h
  | .bobgo .. => .bobgo h
  | .opComplete .. => .opComplete h
  | .spCorrWriteback .. => .spCorrWriteback h
  | .ringAccessResume .. => .ringAccessResume h
  | .tileRingStall .. => .tileRingStall h
  | .basteSew .. => .basteSew h
  | .basteSquash .. => .basteSquash h
  | .tokenRouterInput .. => .tokenRouterInput h
  | .tokenDelivery .. => .tokenDelivery h
  | .creditReturn .. => .creditReturn h
  | .bucketRefill .. => .bucketRefill h
  | .vc3GuardExpiry .. => .vc3GuardExpiry h
  | .fabChanDeadline .. => .fabChanDeadline h
  | .shuttleFire .. => .shuttleFire h
  | .shuttleBaste .. => .shuttleBaste h
  | .shuttleResolve .. => .shuttleResolve h
  | .shuttleEndPass .. => .shuttleEndPass h
  | .shuttleHemPass .. => .shuttleHemPass h
  | .verdictToken .. => .verdictToken h
  | .predicateFire .. => .predicateFire h
  | .predicateHemPass .. => .predicateHemPass h
  | .patternLoad .. => .patternLoad h
  | .loadPass2 .. => .loadPass2 h
  | .patternArm .. => .patternArm h
  | .arm .. => .arm h
  | .armAck .. => .armAck h
  | .go .. => .goAtUnit h
  | .hemSend .. => .hemSend h
  | .tileSwitch .. => .tileSwitch h
  | .selvedgeGenEnd .. => .selvedgeGenEnd h
  | .retireAck .. => .retireAck h
  | .discard .. => .discard h
  | .discardAck .. => .discardAck h
  | .patLoadDeadline => .patLoadDeadline h
  | .patRetireDeadline => .patRetireDeadline h
  | .monitorTrip .. => .monitorTrip h
  | .stallReport .. => .stallReport h
  | .probe .. => .probe h
  | .probeReply .. => .probeReply h
  | .confirmWindowEnd => .confirmWindowEnd h
  | .unpProbeDeadline => .unpProbeDeadline h
  | .spillCommand .. => .spillCommand h
  | .spillArrival .. => .spillArrival h
  | .spillRecord .. => .spillRecord h
  | .refill .. => .refill h
  | .refillToken .. => .refillToken h
  | .switchNotice .. => .switchNotice h
  | .spillModeExit .. => .spillModeExit h
  | .drainQuiesce .. => .drainQuiesce h
  | .drainFlush .. => .drainFlush h
  | .quiesceStopInputs => .quiesceStopInputs h
  | .quiesceProbeRound => .quiesceProbeRound h
  | .unpDrainDeadline => .unpDrainDeadline h
  | .flushDone => .flushDone h
  | .unpFlushDeadline => .unpFlushDeadline h
  | .resume .. => .resume h
  | .memRead .. => .memRead h
  | .memWrite .. => .memWrite h
  | .f32add .. => .f32add h
  | .pairadd .. => .pairadd h
  | .bf16add .. => .bf16add h
  | .i32add .. => .i32add h
  | .setReset .. => .setReset h
  | .atomTicketDeadline .. => .atomTicketDeadline h
  | .scrubRead .. => .scrubRead h
  | .rowRemap .. => .rowRemap h
  | .channelFail .. => .channelFail h
  | .setClass .. => .setClass h
  | .classFillEnd => .classFillEnd h
  | .move .. => .move h
  | .moveDone => .moveDone h
  | .liningRequestsDrained .. => .liningRequestsDrained h
  | .liningPdDeadline .. => .liningPdDeadline h
  | .liningWritebackDone .. => .liningWritebackDone h
  | .liningWritebackDeadline .. => .liningWritebackDeadline h
  | .liningPowerUpDone .. => .liningPowerUpDone h
  | .bobEnd .. => .bobEnd h
  | .bobLoop .. => .bobLoop h
  | .endl .. => .endl h
  | .skipdl .. => .skipdl h
  | .seta .. => .seta h
  | .adda .. => .adda h
  | .seti .. => .seti h
  | .ldr .. => .ldr h
  | .ldp .. => .ldp h
  | .str .. => .str h
  | .stp .. => .stp h
  | .pub .. => .pub h
  | .rel .. => .rel h
  | .emit .. => .emit h
  | .wait .. => .wait h
  | .bobbinRequest .. => .bobbinRequest h
  | .bobbinResponse .. => .bobbinResponse h
  | .retirementToken .. => .retirementToken h
  | .bobReqDeadline .. => .bobReqDeadline h
  | .stepOpen .. => .stepOpen h
  | .stepOpenResume => .stepOpenResume h
  | .closeToken .. => .closeToken h
  | .closeEnd .. => .closeEnd h
  | .partialNorm => .partialNorm h
  | .sweepLine .. => .sweepLine h
  | .audit .. => .audit h
  | .prsCloseDeadline => .prsCloseDeadline h
  | .prsNormDeadline => .prsNormDeadline h
  | .prsSweepDeadline => .prsSweepDeadline h
  | .linkTrained .. => .linkTrained h
  | .seamLinkTrain .. => .seamLinkTrain h
  | .negotiateTick .. => .negotiateTick h
  | .seamNegotiate .. => .seamNegotiate h
  | .seamNegFail .. => .seamNegFail h
  | .ack .. => .ack h
  | .nak .. => .nak h
  | .hold .. => .hold h
  | .stream .. => .stream h
  | .streamCredit .. => .streamCredit h
  | .streamHem .. => .streamHem h
  | .owner .. => .owner h
  | .partialMsg .. => .partialMsg h
  | .returnMsg .. => .returnMsg h
  | .digest .. => .digest h
  | .rereq .. => .rereq h
  | .normPart .. => .normPart h
  | .verdict .. => .verdict h
  | .abandon .. => .abandon h
  | .gatherReq .. => .gatherReq h
  | .gatherResp .. => .gatherResp h
  | .messageRelay .. => .messageRelay h
  | .otherFrame .. => .otherFrame h
  | .fcsErrorFrame .. => .fcsErrorFrame h
  | .ackInterval .. => .ackInterval h
  | .rtxTimeout .. => .rtxTimeout h
  | .pfcFrame .. => .pfcFrame h
  | .peerSilence .. => .peerSilence h
  | .pcsLoss .. => .pcsLoss h
  | .streamTokenOut .. => .streamTokenOut h
  | .streamPackTimeout .. => .streamPackTimeout h
  | .streamReinject .. => .streamReinject h
  | .creditGrantTimeout .. => .creditGrantTimeout h
  | .contribTimeout .. => .contribTimeout h
  | .seamRedDeadline => .seamRedDeadline h
  | .seamRetDeadline => .seamRetDeadline h
  | .gatherRequest .. => .gatherRequest h
  | .seamGatherDeadline .. => .seamGatherDeadline h
  | .ownerDeferredAnswer .. => .ownerDeferredAnswer h
  | .holdTick .. => .holdTick h
  | .reservedTypeMessage .. => .reservedTypeMessage h
  | .linkModeSettle .. => .linkModeSettle h
  | .configAccess .. => .configAccess h
  | .hdmDecoderCommit .. => .hdmDecoderCommit h
  | .hdmRead .. => .hdmRead h
  | .hdmWrite .. => .hdmWrite h
  | .tapeWindowAccess .. => .tapeWindowAccess h
  | .hostSnoop .. => .hostSnoop h
  | .hostBiasAnswer .. => .hostBiasAnswer h
  | .hostResponse .. => .hostResponse h
  | .hostCompletionTimeout .. => .hostCompletionTimeout h
  | .tapeNotice .. => .tapeNotice h
  | .tornTimeout => .tornTimeout h
  | .commandStart .. => .commandStart h
  | .replyWrite .. => .replyWrite h
  | .replySpacePoll .. => .replySpacePoll h
  | .tapeReplyDeadline => .tapeReplyDeadline h
  | .tapeNop .. => .tapeNop h
  | .negotiate .. => .negotiate h
  | .cancel .. => .cancel h
  | .bias .. => .bias h
  | .dbgRead .. => .dbgRead h
  | .dbgWrite .. => .dbgWrite h
  | .thNegotiate .. => .thNegotiate h
  | .sensorRead .. => .sensorRead h
  | .logRead .. => .logRead h
  | .logClear .. => .logClear h
  | .identity .. => .identity h
  | .measure .. => .measure h
  | .shutdownWithTest .. => .shutdownWithTest h
  | .shutdownWithoutTest .. => .shutdownWithoutTest h
  | .thCommandTimeout .. => .thCommandTimeout h
  | .finishingTestDone .. => .finishingTestDone h
  | .rstFtDeadline => .rstFtDeadline h
  | .romBoot => .romBoot h
  | .bootDeadline => .bootDeadline h
  | .getTid .. => .getTid h
  | .getPldmVersion .. => .getPldmVersion h
  | .getPldmTypes .. => .getPldmTypes h
  | .getPldmCommands .. => .getPldmCommands h
  | .getPdrRepositoryInfo .. => .getPdrRepositoryInfo h
  | .getPdr .. => .getPdr h
  | .getSensorReading .. => .getSensorReading h
  | .setNumericSensorEnable .. => .setNumericSensorEnable h
  | .setEventReceiver .. => .setEventReceiver h
  | .queryDeviceIdentifiers .. => .queryDeviceIdentifiers h
  | .getFirmwareParameters .. => .getFirmwareParameters h
  | .requestUpdate .. => .requestUpdate h
  | .passComponentTable .. => .passComponentTable h
  | .updateComponent .. => .updateComponent h
  | .firmwareData .. => .firmwareData h
  | .transferComplete .. => .transferComplete h
  | .verifyComplete .. => .verifyComplete h
  | .applyComplete .. => .applyComplete h
  | .activateFirmware .. => .activateFirmware h
  | .getStatus .. => .getStatus h
  | .cancelUpdateComponent .. => .cancelUpdateComponent h
  | .cancelUpdate .. => .cancelUpdate h
  | .getVersion .. => .getVersion h
  | .getCapabilities .. => .getCapabilities h
  | .negotiateAlgorithms .. => .negotiateAlgorithms h
  | .getDigests .. => .getDigests h
  | .getCertificate .. => .getCertificate h
  | .challenge .. => .challenge h
  | .getMeasurements .. => .getMeasurements h
  | .keyExchange .. => .keyExchange h
  | .finish .. => .finish h
  | .heartbeat .. => .heartbeat h
  | .keyUpdate .. => .keyUpdate h
  | .endSession .. => .endSession h
  | .debugNonce .. => .debugNonce h
  | .debugUnlock .. => .debugUnlock h
  | .debugLock .. => .debugLock h
  | .optionWrite .. => .optionWrite h
  | .fuseBurn .. => .fuseBurn h
  | .ideKmQuery .. => .ideKmQuery h
  | .ideKmKeyProg .. => .ideKmKeyProg h
  | .ideKmKSetGo .. => .ideKmKSetGo h
  | .ideKmKSetStop .. => .ideKmKSetStop h
  | .setEndpointId .. => .setEndpointId h
  | .getEndpointId .. => .getEndpointId h
  | .getMctpVersionSupport .. => .getMctpVersionSupport h
  | .getMessageTypeSupport .. => .getMessageTypeSupport h
  | .smbusAlertResponse => .smbusAlertResponse h
  | .sensorSample .. => .sensorSample h
  | .logWrite => .logWrite h
  | .faultRecord .. => .faultRecord h
  | .watchdogExpiry => .watchdogExpiry h
  | .neighbourAnnounce .. => .neighbourAnnounce h
  | .governorSlowLoop .. => .governorSlowLoop h
  | .governorFastLoop .. => .governorFastLoop h
  | .envelopeTimeout .. => .envelopeTimeout h
  | .thermalSample .. => .thermalSample h
  | .thermalCapStep .. => .thermalCapStep h
  | .tripPersistTimeout => .tripPersistTimeout h
  | .nbTempDeadline .. => .nbTempDeadline h
  | .droop .. => .droop h
  | .droopEnd .. => .droopEnd h
  | .railOutOfTolerance .. => .railOutOfTolerance h
  | .inputOutOfRange .. => .inputOutOfRange h
  | .inputCollapse .. => .inputCollapse h
  | .refClockLoss => .refClockLoss h
  | .oscillatorFail => .oscillatorFail h
  | .vauxValid .. => .vauxValid h
  | .vauxLoss => .vauxLoss h
  | .auxRstN => .auxRstN h
  | .input50vValid => .input50vValid h
  | .sysRstN => .sysRstN h
  | .sysRstNRelease => .sysRstNRelease h
  | .perstAssert => .perstAssert h
  | .perstDeassert => .perstDeassert h
  | .hotReset => .hotReset h
  | .flr => .flr h
  | .blockIdle .. => .blockIdle h
  | .idleTimeout .. => .idleTimeout h
  | .channelTrained .. => .channelTrained h
  | .zeroFillDone => .zeroFillDone h
  | .startReady => .startReady h
  | .rstReadyDeadline => .rstReadyDeadline h
  | .safeStateEntry => .safeStateEntry h
  | .fltSafeDeadline => .fltSafeDeadline h
  | .pwrChangeDeadline .. => .pwrChangeDeadline h
  | .panelChangeEnd .. => .panelChangeEnd h
  | .neighbourCapAck .. => .neighbourCapAck h
  | .cxlLinkUp => .cxlLinkUp h
  | .liningModeChangeEnd .. => .liningModeChangeEnd h
  | .thimbleRestartDone => .thimbleRestartDone h
  | .railsInRegulation => .railsInRegulation h
  | .powerUpDeadline .. => .powerUpDeadline h
  | .heartbeatTimeout .. => .heartbeatTimeout h

/-- The next state of a step: what the first command of the queue leaves, or the tick of an empty queue. -/
theorem step_endsCanonical (h : Canonical s) : EndsCanonical (step s) := by
  unfold step
  split
  · exact exec_endsCanonical (h.beside (by rfl)) _
  · exact .go h.tick

end

/-- Settles O51: each function that a step calls keeps the byte memories canonical, so each command does. -/
theorem memoriesStayCanonical : Obligations.MemoriesStayCanonical := fun _ t h => step_endsCanonical h t

section
/-! PROOFS. Memory accesses at a controller: what the checks, the lining cache and a MOVE in progress leave of the memory
system, and reads and writes of sound and of poisoned data (spec/08_memory_system.md R263 to R266, R272, R279). -/

namespace Sys2Proof.Machine

/-! ### What the parts of an access leave of the memory system -/

/-- Raising a fault notes what it makes unsound, and leaves the rest of the memory system. -/
theorem raiseAs_mem (s : State) (k : FClass) (b : Bool) (c n i a : Nat) :
    ∃ l, (s.raiseAs k b c n i a).mem = { s.mem with unsound := l } := by
  unfold State.raiseAs
  extract_lets r cls boot first flags rec' wasSafe s1 m1 s2 f2 p2 s3
  have h1 : s1.mem = s.mem :=
    (((s.bump_only _ _).mono (by simp)).trans (State.hold_only _ _) : Only [.bar, .flt] s s1) .mem (by simp)
  have h2 : ∃ l, s2.mem = { s.mem with unsound := l } := by
    rw [← h1]
    simp only [s2]
    split
    · exact ⟨_, rfl⟩
    · exact ⟨_, rfl⟩
  have h3 : s3.mem = s2.mem := by
    simp only [s3]
    split
    · exact State.stepFatal_only _ _ .mem (by simp)
    · rfl
  split
  · exact h2
  · split
    · exact h2
    · split
      · exact h2
      · rw [← h3] at h2
        split
        · rw [State.startFlush_only s3 .mem (by simp)]
          exact h2
        · exact h2

/-- What neither a check of data nor a lookup in the lining cache changes: the data, the extents, and the atomics that
wait. -/
structure Kept (s t : State) : Prop where
  data : t.mem.data = s.mem.data
  exts : t.mem.exts = s.mem.exts
  next : t.mem.next = s.mem.next
  heldAtoms : t.mem.heldAtoms = s.mem.heldAtoms
  atomWait : t.mem.atomWait = s.mem.atomWait

namespace Kept

variable {s t u : State}

theorem refl (s : State) : Kept s s := ⟨rfl, rfl, rfl, rfl, rfl⟩

theorem trans (h : Kept s t) (g : Kept t u) : Kept s u :=
  ⟨g.data.trans h.data, g.exts.trans h.exts, g.next.trans h.next, g.heldAtoms.trans h.heldAtoms,
    g.atomWait.trans h.atomWait⟩

/-- A change of other fields of the memory system. -/
theorem of_mem {m : MemSys} (h : t.mem = m) (e : (m.data, m.exts, m.next, m.heldAtoms, m.atomWait)
    = (s.mem.data, s.mem.exts, s.mem.next, s.mem.heldAtoms, s.mem.atomWait)) : Kept s t := by
  subst h
  simp only [Prod.mk.injEq] at e
  obtain ⟨hd, hx, hn, ha, hw⟩ := e
  exact ⟨hd, hx, hn, ha, hw⟩

theorem raiseAs (s : State) (k : FClass) (b : Bool) (c n i a : Nat) : Kept s (s.raiseAs k b c n i a) := by
  obtain ⟨l, h⟩ := raiseAs_mem s k b c n i a
  exact .of_mem h (by rfl)

theorem raise (h : Kept s t) (c n i a : Nat) : Kept s (t.raise c n i a) := h.trans (.raiseAs _ _ _ _ _ _ _)

theorem bump (h : Kept s t) (f : Fld) (n : Nat) : Kept s (t.bump f n) := h.trans (.of_mem rfl (by rfl))

theorem setAll (h : Kept s t) (l : List (Fld × Nat)) : Kept s (t.setAll l) := h.trans (.of_mem rfl (by rfl))

theorem emit (h : Kept s t) (o : Out) : Kept s (t.emit o) := h.trans (.of_mem rfl (by rfl))

theorem memFault (s : State) (c a : Nat) : Kept s (s.memFault c a) := by
  unfold State.memFault
  split
  · exact (refl s).raise _ _ _ _
  · exact (refl s).raise _ _ _ _

theorem memUe (s : State) (g : Nat) (r : Reader) : Kept s (s.memUe g r) :=
  ((((refl s).trans (.of_mem rfl (by rfl))).setAll _).bump _ _).raise _ _ _ _

theorem memCe (s : State) (g : Nat) : Kept s (s.memCe g) := by
  unfold State.memCe
  extract_lets at_ s1 m1 s2
  have h1 : Kept s s1 := .of_mem rfl (by rfl)
  split
  · exact h1
  · have h2 : Kept s s2 := by
      simp only [s2]
      split
      · exact h1.trans (.of_mem rfl (by rfl))
      · exact h1
    exact (h2.bump _ _).raise _ _ _ _

theorem checkGran (s : State) (g : Nat) (e : Ecc) (r : Reader) : Kept s (s.checkGran g e r).1 := by
  unfold State.checkGran
  split
  · exact ((refl s).bump _ _).raise _ _ _ _
  · split
    · exact refl s
    · exact memCe s g
    · exact memUe s g r

theorem lnErr (s : State) (a : Nat) (e : Ecc) (r : Reader) : Kept s (s.lnErr a e r).1 := by
  unfold State.lnErr
  cases e with
  | ok => exact refl s
  | corrected =>
    dsimp only
    exact ((refl s).bump _ _).raise _ _ _ _
  | uncorrectable =>
    dsimp only
    have hfree : Kept s ((s.freeVal 32).2.freeVal 2).2 := .of_mem rfl (by rfl)
    exact ((hfree.setAll _).bump _ _).raise _ _ _ _

theorem checkLn (s : State) (a n : Nat) (e : Ecc) (r : Reader) : Kept s (s.checkLn a e r n).1 := by
  induction n generalizing s a e with
  | zero => exact refl s
  | succ n ih =>
    unfold State.checkLn
    extract_lets w c
    have hc : Kept s c.1 := by
      simp only [c]
      split
      · exact Kept.trans (.of_mem rfl (by rfl)) (lnErr _ _ _ _)
      · exact lnErr s _ _ _
    split
    · exact hc.trans (ih _ _ _)
    · exact hc

theorem checkAt (s : State) (a n : Nat) (e : Ecc) (r : Reader) : Kept s (s.checkAt a n e r).1 := by
  unfold State.checkAt
  split
  · split
    · exact checkGran s _ _ _
    · exact refl s
  · exact checkLn s _ _ _ _

end Kept

/-- A lookup in the lining cache changes lines only. -/
theorem touchAt_mem (s : State) (a : Nat) (w x : Bool) : ∃ l, (s.touchAt a w x).mem = { s.mem with lines := l } := by
  unfold State.touchAt
  split
  · unfold State.cacheTouch
    extract_lets mc gs m put
    split
    · split
      · exact ⟨_, rfl⟩
      · exact ⟨_, rfl⟩
    · split
      · exact ⟨_, rfl⟩
      · split
        · exact ⟨_, rfl⟩
        · exact ⟨_, rfl⟩
  · exact ⟨_, rfl⟩

theorem Kept.touchAt (s : State) (a : Nat) (w x : Bool) : Kept s (s.touchAt a w x) := by
  obtain ⟨l, h⟩ := touchAt_mem s a w x
  exact .of_mem h (by rfl)

/-- An access that meets a range of a MOVE in progress notes it there. -/
theorem moveTouch_eq (s : State) (a n : Nat) : ∃ j, s.moveTouch a n = { s with mem := { s.mem with move := j } } := by
  unfold State.moveTouch
  split
  · split
    · exact ⟨_, rfl⟩
    · exact ⟨_, rfl⟩
  · exact ⟨_, rfl⟩

theorem moveTouch_only (s : State) (a n : Nat) : Only [.mem] s (s.moveTouch a n) := by
  obtain ⟨j, h⟩ := moveTouch_eq s a n
  rw [h]
  exact mem_only s _

theorem Kept.moveTouch (s : State) (a n : Nat) : Kept s (s.moveTouch a n) := by
  obtain ⟨j, h⟩ := moveTouch_eq s a n
  rw [h]
  exact .of_mem rfl (by rfl)

/-- The same bytes written over equal data under equal extents. -/
theorem wrN_data_congr {s t : State} (h : Kept s t) (a : Nat) (b : List Byte) :
    (t.wrN a b).mem.data = (s.wrN a b).mem.data := by
  rw [wrN_data, wrN_data, h.data, h.exts]

/-! ### Data without error -/

/-- No error waits, and the granule of an address is not poisoned. -/
structure Clean (s : State) (a : Nat) : Prop where
  errs : s.mem.errs = []
  poison : lpEnd ≤ a ∨ s.mem.poison.contains (s.memUnit a) = false

namespace Clean

variable {s : State} {a : Nat}

theorem moveTouch (h : Clean s a) (b n : Nat) : Clean (s.moveTouch b n) a := by
  obtain ⟨j, hj⟩ := moveTouch_eq s b n
  rw [hj]
  exact ⟨h.errs, h.poison⟩

theorem checkLn (he : s.mem.errs = []) (a n : Nat) (r : Reader) : s.checkLn a .ok r n = (s, true) := by
  induction n generalizing a with
  | zero => rfl
  | succ n ih =>
    rw [State.checkLn, he]
    exact ih _

theorem checkAt (h : Clean s a) (n : Nat) (r : Reader) : s.checkAt a n .ok r = (s, true) := by
  unfold State.checkAt
  split
  · next hlp =>
    split
    · next k hk =>
      have hp := h.poison.resolve_left (Nat.not_le.2 hlp)
      rw [State.memUnit, if_pos hlp, hk] at hp
      have hclean : ¬ s.mem.poison.contains (k / 256) = true := ne_true_of_eq_false hp
      rw [State.checkGran, if_neg hclean, h.errs]
      rfl
    · rfl
  · exact checkLn h.errs _ _ r

theorem checkEdges (he : s.mem.errs = []) (a n : Nat) (r : Reader) : s.checkEdges a n .ok r = (s, true) := by
  unfold State.checkEdges
  simp only [checkLn he, ite_self, Bool.not_true, Bool.false_eq_true]

/-- A read of sound data may be used. -/
theorem loadRun (h : Clean s a) (n : Nat) (x : Bool) (r : Reader) :
    s.loadRun a n x .ok r = (s.touchAt a false x, true) := by
  rw [State.loadRun, h.checkAt]

end Clean

end Sys2Proof.Machine
end

section
/-! PROOFS. Reads and writes at a memory controller (spec/08_memory_system.md R263 to R266,
spec/04_fabric_tokens_and_steering.md R137, spec/11_host_interface_and_command_tape.md R355). -/

namespace Sys2Proof.Machine

variable {s : State} {agent a n wait : Nat} {x : Bool} {e : Ecc} {b : List Byte} {i : Instr} {k : State → State}

/-! ### Requests that arrive -/

theorem arrive_behind (h : s.behind (s.orderKey a) = true) : s.arrive a .sewn i k = s.holdReq a none i := if_pos h

theorem arrive_biased (h : s.behind (s.orderKey a) = false) (hb : s.inHostBias a = true) :
    s.arrive a .sewn i k = { s with cxl := { s.cxl with biasReqs := s.cxl.biasReqs ++ [⟨a, i, s.seed⟩] } } :=
  (if_neg (ne_true_of_eq_false h)).trans (if_pos hb)

theorem arrive_plain (h : s.behind (s.orderKey a) = false) (hb : s.inHostBias a = false) : s.arrive a .sewn i k = k s :=
  (if_neg (ne_true_of_eq_false h)).trans (if_neg (ne_true_of_eq_false hb))

theorem dry_in_time {n slack : Nat} (h : wait ≤ 16 * slack) : s.dry n slack wait = s := if_neg (Nat.not_lt.2 h)

theorem dry_late {n slack : Nat} (h : 16 * slack < wait) : s.dry n slack wait = s.bump (R.DRY_LATE n) 1 := if_pos h

/-- The verdict kept for a basted request, if it has come. -/
theorem fate_some (s : State) (u g : Nat) (dq : Nat → Bool) :
    (s.fab.verdicts.find? (fun v => v.1 = u && dq v.2.1 && v.2.2.1 = g) = none → (s.fate u dq (some g)).2 = .held g)
    ∧ ∀ v, s.fab.verdicts.find? (fun v => v.1 = u && dq v.2.1 && v.2.2.1 = g) = some v →
      (s.fate u dq (some g)).2 = (if v.2.2.2 then .sewn else .gone)
      ∧ (s.fate u dq (some g)).1.fab.verdicts = s.fab.verdicts.erase v := by
  unfold State.fate
  dsimp only
  refine ⟨fun h => ?_, fun v h => ?_⟩
  · cases s.fab.came.find? fun c => c.1 = u && dq c.2.1 && c.2.2 = g with
    | none =>
      dsimp only
      rw [h]
    | some c =>
      dsimp only
      rw [h]
  · cases s.fab.came.find? fun c => c.1 = u && dq c.2.1 && c.2.2 = g with
    | none =>
      dsimp only
      rw [h]
      exact ⟨rfl, rfl⟩
    | some c =>
      dsimp only
      rw [h]
      exact ⟨rfl, rfl⟩

theorem fate_only (s : State) (u : Nat) (dq : Nat → Bool) (t : Option Nat) : Only [.fab] s (s.fate u dq t).1 := by
  have hfab (s : State) (f : Fab) : Only [.fab] s { s with fab := f } := by
    intro p hp
    cases p <;> simp_all [Part.Same]
  unfold State.fate
  split
  · exact .refl _ s
  · extract_lets fab s1 fab1
    have h1 : Only [.fab] s s1 := by
      simp only [s1]
      split
      · exact hfab s _
      · exact .refl _ s
    split
    · exact h1.trans (hfab s1 _)
    · exact h1

/-! ### What a range reaches -/

/-- The first byte of a range that reaches its data does. -/
theorem reachAt_of_reach (h : s.reach a n = .ok) (hn : 0 < n) : s.reachAt a = .ok := by
  unfold State.reach at h
  split at h
  · next k hk =>
    have hbad := List.find?_some hk
    exact absurd h (of_decide_eq_true hbad)
  · next hall =>
    have h0 := List.find?_eq_none.1 hall 0 (List.mem_range.2 hn)
    simpa using h0

theorem storOf_of_reachAt (h : s.reachAt a = .ok) (ha : a < lpEnd) : ∃ j, storOf s.mem.exts a = some j := by
  rw [State.reachAt, if_pos ha] at h
  split at h
  · next hsome => exact Option.isSome_iff_exists.1 hsome
  · cases h

theorem takes_pos (h : s.takes a n = true) : 0 < n := by
  simp only [State.takes, Bool.and_eq_true, decide_eq_true_eq] at h
  obtain ⟨⟨hn, -⟩, -⟩ := h
  exact hn

/-! ### Reads -/

theorem readMem_refused (h : s.reach a n ≠ .ok) (sub : Nat) :
    s.readMem agent sub a n x e = (s.reachFault agent sub a n, .refused (s.reachCode a n)) := if_pos h

/-- Sound data are answered. -/
theorem readMem_clean (h : s.reach a n = .ok) (hc : Clean s a) (sub : Nat) :
    s.readMem agent sub a n x .ok = ((s.moveTouch a n).touchAt a false x, .data (s.rdN a n)) := by
  rw [State.readMem, if_neg (not_not_intro h), (hc.moveTouch a n).loadRun]
  rfl

/-- A poisoned granule is refused. -/
theorem readMem_poisoned (h : s.reach a n = .ok) (hn : 0 < n) (ha : a < lpEnd)
    (hp : s.mem.poison.contains (s.memUnit a) = true) (sub : Nat) :
    ∃ u, s.readMem agent sub a n x e = (u, .refused (s.ueCodeAt a (readerOf agent))) ∧ Kept s u := by
  obtain ⟨j, hj⟩ := storOf_of_reachAt (reachAt_of_reach h hn) ha
  rw [State.memUnit, if_pos ha, hj] at hp
  obtain ⟨m, hm⟩ := moveTouch_eq s a n
  have hcheck : (s.moveTouch a n).checkAt a n e (readerOf agent)
      = ((s.moveTouch a n).ueFault (j / 256) (readerOf agent), false) := by
    have hp' : (s.moveTouch a n).mem.poison.contains (j / 256) = true := by
      rw [hm]
      exact hp
    rw [State.checkAt, if_pos ha, show storOf (s.moveTouch a n).mem.exts a = some j by rw [hm]; exact hj]
    exact if_pos hp'
  refine ⟨((s.moveTouch a n).ueFault (j / 256) (readerOf agent)).touchAt a false x, ?_, ?_⟩
  · rw [State.readMem, if_neg (not_not_intro h), State.loadRun, hcheck]
    rfl
  · exact (Kept.moveTouch s a n).trans ((((Kept.refl _).bump _ _).raise _ _ _ _).trans (Kept.touchAt _ a false x))

/-- An answer with data. -/
theorem answer_rdN (t : State) (hn : 0 < n) :
    t.answer agent a (.data (s.rdN a n)) = t.emit (.memData agent a (s.rdN a n)) := by
  cases hl : s.rdN a n with
  | nil =>
    have hlen : (s.rdN a n).length = n := by simp [State.rdN]
    rw [hl] at hlen
    exact absurd hlen.symm hn.ne'
  | cons b l => rfl

theorem exec_memRead_eq (h : s.takes a n = true) : exec (.memRead agent a n x ⟨wait, e⟩) s
    = .next ((s.dry (s.mcOf a) 0xFFFF wait).arrive a .sewn (.memRead agent a n x ⟨wait, e⟩) fun d =>
        (d.readMem agent 0 a n x e).1.answer agent a (d.readMem agent 0 a n x e).2) := if_pos h

/-- A read of sound data answers the bytes and changes counts and lines only. -/
theorem readMem_answer_clean (h : s.reach a n = .ok) (hn : 0 < n) (hc : Clean s a) :
    ∃ u, (s.readMem agent 0 a n x .ok).1.answer agent a (s.readMem agent 0 a n x .ok).2 = u
      ∧ Only [.bar, .mem, .out] s u ∧ u.out = s.out ++ [.memData agent a (s.rdN a n)]
      ∧ u.mem.data = s.mem.data ∧ u.mem.exts = s.mem.exts ∧ u.mem.poison = s.mem.poison := by
  have hkept := (Kept.moveTouch s a n).trans (Kept.touchAt _ a false x)
  have honly : Only [.bar, .mem] s ((s.moveTouch a n).touchAt a false x) :=
    ((moveTouch_only s a n).mono (by simp)).trans (State.touchAt_only _ _ _ _)
  have hpoison : ((s.moveTouch a n).touchAt a false x).mem.poison = s.mem.poison := by
    obtain ⟨j, hj⟩ := moveTouch_eq s a n
    obtain ⟨l, hl⟩ := touchAt_mem (s.moveTouch a n) a false x
    rw [hl, hj]
  rw [readMem_clean h hc, answer_rdN _ hn]
  refine ⟨_, rfl, (honly.mono (by simp)).trans ((State.emit_only _ _).mono (by simp)), ?_, hkept.data, hkept.exts,
    hpoison⟩
  rw [State.emit_out, show _ = s.out from honly .out (by simp)]

/-! ### Writes -/

/-- The parts of a state that hold what a write of one run has put down. -/
structure Stored (s : State) (a : Nat) (b : List Byte) (t : State) : Prop where
  data : t.mem.data = (s.wrN a b).mem.data
  exts : t.mem.exts = s.mem.exts
  only : Only [.bar, .mem] s t

theorem Stored.wrN {t : State} (h : Kept s t) (ho : Only [.bar, .mem] s t) (a : Nat) (b : List Byte) :
    Stored s a b (t.wrN a b) :=
  ⟨wrN_data_congr h a b, h.exts, ho.trans ((State.wrN_only t a b).mono (by simp))⟩

/-- A granule written whole is put down, and loses its poison flag. -/
theorem storeRun_whole (ha : a < lpEnd) (hw : s.wholeGranule a b.length = true) (r : Reader) :
    ∃ t, s.storeRun a b x e r = (t, true) ∧ Stored s a b t ∧ t.mem.poison = s.mem.poison.erase (s.memUnit a) := by
  have hunit : s.memUnit a = ((storOf s.mem.exts a).map (· / 256)).getD 0 := if_pos ha
  have hrun : s.storeRun a b x e r = ((State.touchAt { s with mem := { s.mem with
      poison := s.mem.poison.erase (s.memUnit a), errs := kvErase s.mem.errs (s.memUnit a) } } a true x).wrN a b,
      true) := by
    rw [State.storeRun, if_pos ha, if_pos hw, hunit]
  obtain ⟨l, hl⟩ := touchAt_mem { s with mem := { s.mem with
      poison := s.mem.poison.erase (s.memUnit a), errs := kvErase s.mem.errs (s.memUnit a) } } a true x
  refine ⟨_, hrun, .wrN (.of_mem hl (by rfl)) ?_ a b, ?_⟩
  · exact ((mem_only s _).mono (by simp)).trans (State.touchAt_only _ _ _ _)
  · exact congrArg MemSys.poison hl

/-- A write of sound data is put down. -/
theorem storeRun_clean (hc : Clean s a) (r : Reader) : ∃ t, s.storeRun a b x .ok r = (t, true) ∧ Stored s a b t := by
  by_cases ha : a < lpEnd
  · by_cases hw : s.wholeGranule a b.length = true
    · obtain ⟨t, ht, hs, -⟩ := storeRun_whole (x := x) (e := .ok) ha hw r
      exact ⟨t, ht, hs⟩
    · refine ⟨(s.touchAt a true x).wrN a b, ?_, .wrN (Kept.touchAt s a true x) (s.touchAt_only a true x) a b⟩
      rw [State.storeRun, if_pos ha, if_neg hw, hc.checkAt]
      rfl
  · have hrun : s.storeRun a b x .ok r = (State.wrN { s with mem := { s.mem with errs := s.mem.errs.filter fun y =>
        !((List.range (wordsIn a b.length)).map fun k => lnErrKey (a + 8 * k)).contains y.1 } } a b, true) := by
      rw [State.storeRun, if_neg ha, Clean.checkEdges hc.errs]
      rfl
    exact ⟨_, hrun, .wrN (.of_mem rfl (by rfl)) ((mem_only s _).mono (by simp)) a b⟩

theorem writeMem_refused (h : s.reach a b.length ≠ .ok) (sub : Nat) :
    s.writeMem agent sub a b x e = (s.reachFault agent sub a b.length, .refused (s.reachCode a b.length)) := if_pos h

/-- Class W is kept from agents that may not write it (spec/08_memory_system.md R265). -/
def State.keepsOut (s : State) (agent a : Nat) : Prop :=
  a < lpEnd ∧ s.granCls (s.memUnit a) = 0 ∧ writesW agent = false

theorem keepsOut_iff :
    (decide (a < lpEnd) && s.granCls (s.memUnit a) = 0 && !writesW agent) = true ↔ s.keepsOut agent a := by
  simp [State.keepsOut, and_assoc]

theorem writeMem_keptOut (h : s.reach a b.length = .ok) (hk : s.keepsOut agent a) (sub : Nat) :
    s.writeMem agent sub a b x e = (s.memFault Code.MEM_W_WRITE a, .refused Code.MEM_W_WRITE) := by
  rw [State.writeMem, if_neg (not_not_intro h), if_pos (keepsOut_iff.2 hk)]

/-- A write that its run takes is done. -/
theorem writeMem_stored {t : State} (h : s.reach a b.length = .ok) (hk : ¬ s.keepsOut agent a) (sub : Nat)
    (ht : (s.moveTouch a b.length).storeRun a b x e (readerOf agent) = (t, true)) :
    s.writeMem agent sub a b x e = (t, .data []) := by
  rw [State.writeMem, if_neg (not_not_intro h), if_neg (mt keepsOut_iff.1 hk), ht]
  rfl

/-- What is stored after a MOVE's range has been touched is stored as before. -/
theorem Stored.of_moveTouch {t : State} {m : Nat} (h : Stored (s.moveTouch a m) a b t) : Stored s a b t :=
  ⟨h.data.trans (wrN_data_congr (Kept.moveTouch s a m) a b), h.exts.trans (Kept.moveTouch s a m).exts,
    ((moveTouch_only s a m).mono (by simp)).trans h.only⟩

theorem exec_memWrite_eq {tag : Option Nat} (h : s.takes a b.length = true) :
    let f := (s.dry (s.mcOf a) 0xFFFF wait).fate (0xC00 + s.mcOf a) (fun q => !(q = 28 || q = 30)) tag
    exec (.memWrite agent a b x tag ⟨wait, e⟩) s = .next (f.1.arrive a f.2 (.memWrite agent a b x none ⟨wait, e⟩) fun d =>
      (d.writeMem agent 0 a b x e).1.answer agent a (d.writeMem agent 0 a b x e).2) := if_pos h

end Sys2Proof.Machine
end

section
/-! PROOFS. Near-memory atomics and their tickets (spec/08_memory_system.md R274 to R277, Table 8.4). -/

namespace Sys2Proof.Machine

variable {s : State} {q : AtomReq} {e : Ecc} {k : Nat}

/-! ### An atomic that arrives -/

/-- An atomic that arrives is held for its verdict, discarded, held behind an earlier request, or acted on. -/
theorem atomArrive_cases (hs : s.safe = false) (q : AtomReq) (tag : Option Nat) (wait : Nat) (e : Ecc) (i : Instr) :
    let f := (s.dry (s.atomMc q) 0xFFFF wait).fate (0xC00 + s.atomMc q) (fun d => d = 28) tag
    (∀ g, f.2 = .held g → s.atomArrive q tag wait e i = f.1.holdReq q.addr (some g) i)
    ∧ (f.2 = .gone → s.atomArrive q tag wait e i = f.1)
    ∧ (f.2 = .sewn → f.1.behind (f.1.orderKey q.addr) = true → s.atomArrive q tag wait e i = f.1.holdReq q.addr none i)
    ∧ (f.2 = .sewn → f.1.behind (f.1.orderKey q.addr) = false → f.1.inHostBias q.addr = false →
      s.atomArrive q tag wait e i = f.1.atom q e) := by
  intro f
  have harrive : s.atomArrive q tag wait e i = f.1.arrive q.addr f.2 i fun t => t.atom q e :=
    if_neg (ne_true_of_eq_false hs)
  rw [harrive]
  refine ⟨fun g hf => ?_, fun hf => ?_, fun hf hb => ?_, fun hf hb hh => ?_⟩
  · rw [hf]
    rfl
  · rw [hf]
    rfl
  · rw [hf]
    exact arrive_behind hb
  · rw [hf]
    exact arrive_plain hb hh

/-! ### The elements -/

/-- A single word as bytes. -/
theorem wordsBytes_one (w : W32) : wordsBytes [w] = leBytes 4 w.toNat := List.append_nil _

theorem wordsBytes_two (v w : W32) : wordsBytes [v, w] = leBytes 4 v.toNat ++ leBytes 4 w.toNat := by
  simp [wordsBytes]

/-- Saturation clamps to the two bounds. -/
theorem satAdd32_fst (a b : Int) : (satAdd32 a b).1 = max (-2 ^ 31) (min (2 ^ 31 - 1) (a + b)) := by
  unfold satAdd32
  dsimp only
  split
  · dsimp only
    omega
  · split
    · dsimp only
      omega
    · dsimp only
      omega

/-- The number that an element of a request finds at an offset. -/
def State.atomOld (s : State) (q : AtomReq) (k o n : Nat) : Nat := leNat (s.rdN (q.addr + k * atomElem q.op + o) n)

theorem atomOne_f32 (h : q.op = atomF32) :
    (s.atomOne q k).1 = leBytes 4 (fadd (BitVec.ofNat 32 (s.atomOld q k 0 4)) (q.addends.getD k 0)).toNat := by
  unfold State.atomOne
  dsimp only
  rw [if_pos h]
  exact wordsBytes_one _

theorem atomOne_i32 (h : q.op = atomI32) : (s.atomOne q k).1 = leBytes 4 (BitVec.ofInt 32 (max (-2 ^ 31)
    (min (2 ^ 31 - 1) ((BitVec.ofNat 32 (s.atomOld q k 0 4)).toInt + (q.addends.getD k 0).toInt)))).toNat := by
  unfold State.atomOne
  dsimp only
  rw [if_neg (by rw [h]; decide), if_neg (by rw [h]; decide), if_neg (by rw [h]; decide), satAdd32_fst]
  exact wordsBytes_one _

theorem atomOne_pair (h : q.op = atomPair) :
    let p := cadd ⟨BitVec.ofNat 32 (s.atomOld q k 0 4), BitVec.ofNat 32 (s.atomOld q k 4 4)⟩ (q.addends.getD k 0)
    (s.atomOne q k).1 = leBytes 4 p.s.toNat ++ leBytes 4 p.c.toNat := by
  intro p
  unfold State.atomOne
  dsimp only
  rw [if_neg (by rw [h]; decide), if_pos h]
  exact wordsBytes_two _ _

theorem atomOne_bf16 (h : q.op = atomBf16) : (s.atomOne q k).1 = leBytes 2 (convPlain 1
    (Rnd.sr (srDraw (srKey q.seed.1 q.seed.2 q.seq q.salt) (q.addr / 2 + k)))
    (f32v (fadd (BitVec.ofNat 32 (s.atomOld q k 0 2 * 65536)) (q.addends.getD k 0)))).1 := by
  unfold State.atomOne
  dsimp only
  rw [if_neg (by rw [h]; decide), if_neg (by rw [h]; decide), if_pos h]
  rfl

/-! ### The application of an atomic -/

/-- The elements of a request read the data only. -/
theorem atomOne_congr {t : State} (h : Kept s t) (q : AtomReq) : t.atomOne q = s.atomOne q := by
  have hrd (a n : Nat) : t.rdNat a n = s.rdNat a n := congrArg leNat (rdN_congr h.data h.exts a n)
  funext k
  simp only [State.atomOne, hrd]

/-- An atomic leaves the atomics that wait. -/
theorem atomApply_heldAtoms (s : State) (q : AtomReq) (e : Ecc) : (s.atomApply q e).mem.heldAtoms = s.mem.heldAtoms := by
  have hkept : Kept s (((s.moveTouch q.addr (q.cnt * atomElem q.op)).checkAt q.addr (q.cnt * atomElem q.op) e
      (readerOf q.agent)).1.touchAt q.addr true false) :=
    ((Kept.moveTouch s _ _).trans (Kept.checkAt _ _ _ _ _)).trans (Kept.touchAt _ _ _ _)
  unfold State.atomApply
  dsimp only
  split
  · split
    · exact hkept.heldAtoms
    · exact hkept.heldAtoms
  · exact hkept.heldAtoms

/-- The state after the elements of a request have been written. -/
def State.atomPut (s : State) (q : AtomReq) : State :=
  ((s.moveTouch q.addr (q.cnt * atomElem q.op)).touchAt q.addr true false).wrN q.addr
    ((List.range q.cnt).flatMap fun k => (s.atomOne q k).1)

theorem atomPut_kept (s : State) (q : AtomReq) :
    Kept s ((s.moveTouch q.addr (q.cnt * atomElem q.op)).touchAt q.addr true false) :=
  (Kept.moveTouch s _ _).trans (Kept.touchAt _ _ _ _)

theorem atomPut_only (s : State) (q : AtomReq) : Only [.bar, .mem] s (s.atomPut q) :=
  (((moveTouch_only s _ _).mono (by simp)).trans (State.touchAt_only _ _ _ _)).trans
    ((State.wrN_only _ _ _).mono (by simp))

/-- An atomic on sound data writes its elements, counts, and answers. -/
theorem atomApply_clean (hc : Clean s q.addr) : ∃ t, s.atomApply q .ok = t.emit (.memDone q.agent q.addr)
    ∧ Only [.bar] (s.atomPut q) t := by
  have hels : ((List.range q.cnt).map ((s.moveTouch q.addr (q.cnt * atomElem q.op)).atomOne q)).flatMap Prod.fst
      = (List.range q.cnt).flatMap fun k => (s.atomOne q k).1 := by
    rw [atomOne_congr (Kept.moveTouch s _ _), List.flatMap_map]
  unfold State.atomApply
  dsimp only
  rw [(hc.moveTouch _ _).checkAt, if_pos rfl, hels]
  refine ⟨_, rfl, ?_⟩
  split
  · exact (State.bump_only _ _ _).trans (State.bump_only _ _ _)
  · exact (State.bump_only _ _ _).trans (State.addCnt_only _ _ _)

/-! ### What an atomic does -/

theorem serialLater_self (n a : Nat) : serialLater n a a = false := by
  have hmul : a + 2 ^ n - a % 2 ^ n = 2 ^ n * (a / 2 ^ n + 1) := by
    have hdiv := Nat.div_add_mod a (2 ^ n)
    rw [Nat.mul_succ]
    omega
  simp [serialLater, hmul]

theorem drainTickets_nil (h : s.mem.heldAtoms = []) (mc set n : Nat) : s.drainTickets mc set n = s := by
  cases n with
  | zero => rfl
  | succ n =>
    rw [State.drainTickets, State.ticketed, h]
    rfl

theorem pumpAtoms_nil (h : s.mem.atomWait = []) (mc n : Nat) : s.pumpAtoms mc n = s := by
  cases n with
  | zero => rfl
  | succ n =>
    rw [State.pumpAtoms, h]
    rfl

/-- With nothing before it in the attachment, a request that the ticket buffer takes is acted on. -/
theorem atom_eq_act (hw : s.mem.atomWait = []) (hf : s.atomFull q = false) : s.atom q e = s.atomAct q e := by
  rw [State.atom, hw, hf]
  rfl

theorem atom_full (hw : s.mem.atomWait = []) (hf : s.atomFull q = true) :
    s.atom q e = { s with mem := { s.mem with atomWait := [(q, e)] } } := by
  rw [State.atom, hw, hf]
  rfl

theorem atomFull_iff : s.atomFull q = true ↔ s.atomRefusal q = none ∧ q.cnt ≠ 0 ∧ q.set ≠ 0
    ∧ serialLater 16 q.seq (s.ticket (s.atomMc q) q.set) = true ∧ 32 ≤ (s.ticketed (s.atomMc q)).length := by
  simp [State.atomFull, and_assoc]

theorem atom_refused {c : Nat} (hw : s.mem.atomWait = []) (hr : s.atomRefusal q = some c) :
    (s.atom q e).out.getLast? = some (.memRefused q.agent q.addr c) ∧ (s.atom q e).mem.data = s.mem.data := by
  have hfull : s.atomFull q = false := Bool.eq_false_iff.2 fun h => by
    obtain ⟨hnone, -⟩ := atomFull_iff.1 h
    rw [hr] at hnone
    cases hnone
  have hkept : ∃ t, s.atom q e = t.emit (.memRefused q.agent q.addr c) ∧ Kept s t := by
    rw [atom_eq_act hw hfull, State.atomAct, hr]
    dsimp only
    split
    · exact ⟨_, rfl, .memFault s c q.addr⟩
    · exact ⟨_, rfl, (Kept.refl s).raise _ _ _ _⟩
  obtain ⟨t, ht, hk⟩ := hkept
  rw [ht]
  exact ⟨List.getLast?_concat .., hk.data⟩

section
variable (hw : s.mem.atomWait = []) (hr : s.atomRefusal q = none)
include hw hr

theorem atom_empty (hc : q.cnt = 0) : s.atom q e = s.emit (.memDone q.agent q.addr) := by
  have hfull : s.atomFull q = false := Bool.eq_false_iff.2 fun h => (atomFull_iff.1 h).2.1 hc
  rw [atom_eq_act hw hfull, State.atomAct, hr]
  exact if_pos hc

/-- Set 0 carries no order. -/
theorem atom_unordered (hc : q.cnt ≠ 0) (h0 : q.set = 0) : s.atom q e = s.atomApply q e := by
  have hfull : s.atomFull q = false := Bool.eq_false_iff.2 fun h => (atomFull_iff.1 h).2.2.1 h0
  rw [atom_eq_act hw hfull, State.atomAct, hr]
  exact (if_neg hc).trans (if_pos h0)

/-- A request whose ticket has come is applied, and the ticket advances. -/
theorem atom_turn (hc : q.cnt ≠ 0) (h0 : q.set ≠ 0) (ht : q.seq = s.ticket (s.atomMc q) q.set)
    (hh : s.mem.heldAtoms = []) :
    s.atom q e = (s.atomApply q e).setTicket (s.atomMc q) q.set (q.seq + 1) := by
  have hfull : s.atomFull q = false := Bool.eq_false_iff.2 fun h => by
    obtain ⟨-, -, -, hlater, -⟩ := atomFull_iff.1 h
    rw [ht, serialLater_self] at hlater
    cases hlater
  rw [atom_eq_act hw hfull, State.atomAct, hr]
  refine (if_neg hc).trans ((if_neg h0).trans ((if_pos ht).trans (drainTickets_nil ?_ _ _ _)))
  exact (atomApply_heldAtoms s q e).trans hh

/-- A request that is early is kept for its ticket while the buffer has room. -/
theorem atom_early (hc : q.cnt ≠ 0) (h0 : q.set ≠ 0) (ht : q.seq ≠ s.ticket (s.atomMc q) q.set)
    (hl : serialLater 16 q.seq (s.ticket (s.atomMc q) q.set) = true) (hn : (s.ticketed (s.atomMc q)).length < 32) :
    s.atom q e = { s with mem := { s.mem with
      heldAtoms := s.mem.heldAtoms ++ [q], errs := addErr s.mem.errs (s.errKey q.addr) e } } := by
  have hfull : s.atomFull q = false := Bool.eq_false_iff.2 fun h => by
    obtain ⟨-, -, -, -, hroom⟩ := atomFull_iff.1 h
    exact absurd hn (Nat.not_lt.2 hroom)
  rw [atom_eq_act hw hfull, State.atomAct, hr]
  exact (if_neg hc).trans ((if_neg h0).trans ((if_neg ht).trans (if_pos hl)))

/-- A request that is late is refused. -/
theorem atom_late (hc : q.cnt ≠ 0) (h0 : q.set ≠ 0) (ht : q.seq ≠ s.ticket (s.atomMc q) q.set)
    (hl : serialLater 16 q.seq (s.ticket (s.atomMc q) q.set) = false) : s.atom q e
      = (s.memFault Code.MEM_ATOM_ORDER q.addr).emit (.memRefused q.agent q.addr Code.MEM_ATOM_ORDER) := by
  have hfull : s.atomFull q = false := Bool.eq_false_iff.2 fun h => by
    obtain ⟨-, -, -, hlater, -⟩ := atomFull_iff.1 h
    rw [hl] at hlater
    cases hlater
  rw [atom_eq_act hw hfull, State.atomAct, hr]
  exact (if_neg hc).trans ((if_neg h0).trans ((if_neg ht).trans (if_neg (ne_true_of_eq_false hl))))

end

end Sys2Proof.Machine
end

section
/-! PROOFS. The obligation on reads, writes, atomics and tickets (spec/08_memory_system.md R263 to R266, R274 to R277). -/

namespace Sys2Proof.Machine

variable {s : State} {agent a n wait : Nat} {x : Bool} {e : Ecc} {b : List Byte}

/-! ### Bytes written -/

theorem wrKeys_other (m : Memory) (l : List (Option Nat × Byte)) (k : Nat) (h : ∀ p ∈ l, p.1 ≠ some k) :
    memRead (MemSys.wrKeys m l) k = memRead m k := by
  induction l generalizing m with
  | nil => rfl
  | cons p l ih =>
    obtain ⟨j, c⟩ := p
    have hrest (m : Memory) := ih m fun d hd => h d (List.mem_cons_of_mem _ hd)
    cases j with
    | none => exact hrest m
    | some j =>
      have hj : k ≠ j := fun hkj => h _ List.mem_cons_self (congrArg some hkj.symm)
      exact (hrest _).trans (memRead_memWrite_other m c hj)

/-- Under keys that are all different each byte written is read back. -/
theorem wrKeys_same (m : Memory) (l : List (Option Nat × Byte)) (hn : (l.map Prod.fst).Nodup) {k : Nat} {c : Byte}
    (h : (some k, c) ∈ l) : memRead (MemSys.wrKeys m l) k = c := by
  induction l generalizing m with
  | nil => cases h
  | cons p l ih =>
    obtain ⟨hp, htail⟩ := List.nodup_cons.1 hn
    rcases List.mem_cons.1 h with rfl | hl
    · refine (wrKeys_other _ l k fun d hd hk => hp (List.mem_map.2 ⟨d, hd, hk⟩)).trans ?_
      exact memRead_memWrite_same m k c
    · obtain ⟨j, d⟩ := p
      cases j with
      | none => exact ih m htail hl
      | some j => exact ih _ htail hl

/-- The keys and bytes of a write. -/
theorem wrN_keys (s : State) (a : Nat) (b : List Byte) : (s.wrN a b).mem.data
    = MemSys.wrKeys s.mem.data (((List.range b.length).map fun k => s.memKey (a + k)).zip b) := rfl

theorem wrN_other (s : State) (a : Nat) (b : List Byte) (k : Nat)
    (h : ∀ i, i < b.length → s.memKey (a + i) ≠ some k) : memRead (s.wrN a b).mem.data k = memRead s.mem.data k := by
  rw [wrN_keys]
  refine wrKeys_other _ _ k fun p hp => ?_
  obtain ⟨i, hi, hk⟩ := List.mem_map.1 (List.of_mem_zip hp).1
  exact hk ▸ h i (List.mem_range.1 hi)

/-- Bytes written at different data addresses are read back. -/
theorem rdN_wrN (s : State) (a : Nat) (b : List Byte)
    (hinj : ∀ i j, i < b.length → j < b.length → s.memKey (a + i) = s.memKey (a + j) → i = j)
    (hdata : ∀ i, i < b.length → (s.memKey (a + i)).isSome = true) : (s.wrN a b).rdN a b.length = b := by
  refine List.ext_getElem (by simp [State.rdN]) fun i hi hb => ?_
  obtain ⟨k, hk⟩ := Option.isSome_iff_exists.1 (hdata i hb)
  have hnodup : ((((List.range b.length).map fun k => s.memKey (a + k)).zip b).map Prod.fst).Nodup := by
    rw [List.map_fst_zip (by simp)]
    refine List.Nodup.map_on (fun i hi j hj => ?_) List.nodup_range
    exact hinj i j (List.mem_range.1 hi) (List.mem_range.1 hj)
  have hmem : (some k, b[i]) ∈ ((List.range b.length).map fun k => s.memKey (a + k)).zip b := by
    refine List.mem_iff_getElem.2 ⟨i, by simpa using hb, ?_⟩
    simp [hk]
  have hread := wrKeys_same s.mem.data _ hnodup hmem
  have hkey : (s.wrN a b).memKey (a + i) = some k := hk
  simp only [State.rdN, List.getElem_map, List.getElem_range, hkey]
  exact hread

/-! ### Tickets -/

theorem ticket_setTicket (s : State) (mc set v : Nat) : (s.setTicket mc set v).ticket mc set = v % 65536 :=
  kvGet_kvSet_same _ _ _ _

theorem setReset_eq {mc set : Nat} (h0 : 0 < set) (h15 : set ≤ 15) (hh : s.mem.heldAtoms = [])
    (hw : s.mem.atomWait = []) :
    s.setReset agent mc set 0 = (s.setTicket mc set 0).emit (.memDone agent 0) := by
  have hzero : s.zeroTicket mc set = s.setTicket mc set 0 := by
    rw [State.zeroTicket, drainTickets_nil (s := s.setTicket mc set 0) hh, hw]
    rfl
  have hok : ¬ ((decide ((0 : Nat) ≠ 0) || decide (15 < set)) = true) := by
    simpa using h15
  rw [State.setReset, if_neg hok, if_neg h0.ne', hzero]

theorem setTicket_only (s : State) (mc set v : Nat) : Only [.mem] s (s.setTicket mc set v) := mem_only s _

theorem zeroTickets_nil (h : s.mem.heldAtoms = []) : s.zeroTickets = { s with mem := { s.mem with next := [] } } := by
  rw [State.zeroTickets, h]
  rfl

/-! ### Writes that are done -/

/-- A write that is stored answers that it is done. -/
theorem writeMem_answer {t : State} (h : s.reach a b.length = .ok) (hk : ¬ s.keepsOut agent a)
    (ht : (s.moveTouch a b.length).storeRun a b x e (readerOf agent) = (t, true)) :
    (s.writeMem agent 0 a b x e).1.answer agent a (s.writeMem agent 0 a b x e).2 = t.emit (.memDone agent a) := by
  rw [writeMem_stored h hk 0 ht]
  rfl

theorem writeMem_answer_clean (h : s.reach a b.length = .ok) (hk : ¬ s.keepsOut agent a) (hc : Clean s a) :
    ∃ u, (s.writeMem agent 0 a b x .ok).1.answer agent a (s.writeMem agent 0 a b x .ok).2 = u
      ∧ Only [.bar, .mem, .out] s u ∧ u.out = s.out ++ [.memDone agent a]
      ∧ u.mem.data = (s.wrN a b).mem.data ∧ u.mem.exts = s.mem.exts := by
  obtain ⟨t, ht, hs⟩ := storeRun_clean (b := b) (x := x) (hc.moveTouch a b.length) (readerOf agent)
  obtain ⟨hdata, hexts, honly⟩ := hs.of_moveTouch
  refine ⟨_, writeMem_answer h hk ht, (honly.mono (by simp)).trans ((State.emit_only _ _).mono (by simp)), ?_, hdata,
    hexts⟩
  rw [State.emit_out, show t.out = s.out from honly .out (by simp)]

theorem writeMem_answer_whole (h : s.reach a b.length = .ok) (hk : ¬ s.keepsOut agent a) (ha : a < lpEnd)
    (hw : s.wholeGranule a b.length = true) :
    ∃ u, (s.writeMem agent 0 a b x e).1.answer agent a (s.writeMem agent 0 a b x e).2 = u
      ∧ u.mem.data = (s.wrN a b).mem.data ∧ u.mem.poison = s.mem.poison.erase (s.memUnit a) := by
  obtain ⟨j, hj⟩ := moveTouch_eq s a b.length
  have hw' : (s.moveTouch a b.length).wholeGranule a b.length = true := by
    rw [hj]
    exact hw
  obtain ⟨t, ht, hs, hp⟩ := storeRun_whole (x := x) (e := e) ha hw' (readerOf agent)
  refine ⟨_, writeMem_answer h hk ht, hs.of_moveTouch.data, ?_⟩
  rw [hj] at hp
  exact hp

/-! ### The obligation -/

/-- Settles O19: each clause is the equation of its command in the case named. -/
theorem memoryReadsWritesAndAtomics : Obligations.MemoryReadsWritesAndAtomics := by
  unfold Obligations.MemoryReadsWritesAndAtomics
  refine ⟨fun s a l => ⟨wrN_other s a l, rdN_wrN s a l, s.wrN_wf a l⟩, ?read,
    fun n slack wait s => ⟨dry_in_time, dry_late⟩, ?fate, ?write, ?arrive, ?payload, ?act, ?apply,
    fun q k s => ⟨atomOne_f32, atomOne_i32, atomOne_pair, atomOne_bf16⟩, ?reset, ?deadline, ?opened⟩
  case read =>
    intro agent addr len wait na e s ht d run
    have hlen := takes_pos ht
    have hrun : run = _ := exec_memRead_eq ht
    refine ⟨fun hb => hrun.trans (congrArg _ (arrive_behind hb)),
      fun hb hh => hrun.trans (congrArg _ (arrive_biased hb hh)), fun hb hh => ?_⟩
    rw [hrun, arrive_plain hb hh]
    refine ⟨fun hr => ?_, fun hr he herr hp => ?_, fun hr ha hp => ?_⟩
    · rw [readMem_refused hr]
      rfl
    · subst he
      obtain ⟨u, hu, hspec⟩ := readMem_answer_clean (agent := agent) (x := na) hr hlen ⟨herr, hp⟩
      exact ⟨u, congrArg _ hu, hspec⟩
    · obtain ⟨u, hu, hkept⟩ := readMem_poisoned (agent := agent) (x := na) (e := e) hr hlen ha hp 0
      rw [hu]
      exact ⟨_, rfl, hkept.data, List.getLast?_concat ..⟩
  case fate =>
    intro u g dq s
    obtain ⟨hnone, hsome⟩ := fate_some s u g dq
    exact ⟨rfl, hnone, hsome, fate_only s u dq⟩
  case write =>
    intro agent addr wait bytes na tag e s ht run len f t plain keptOut
    have hrun : run = _ := exec_memWrite_eq ht
    have hplain (h : plain) : run = .next ((t.writeMem agent 0 addr bytes na e).1.answer agent addr
        (t.writeMem agent 0 addr bytes na e).2) := by
      obtain ⟨hf, hb, hh⟩ := h
      rw [hrun]
      exact (congrArg _ (congrArg (fun v => t.arrive addr v _ _) hf)).trans (congrArg _ (arrive_plain hb hh))
    refine ⟨fun g hf => ?_, fun hf => ?_, fun hp hr => ?_, fun hp hr hk => ?_, fun hp hr hk he herr hc => ?_,
      fun hp hr hk ha hw => ?_⟩
    · rw [hrun]
      exact congrArg _ (congrArg (fun v => t.arrive addr v _ _) hf)
    · rw [hrun]
      exact congrArg _ (congrArg (fun v => t.arrive addr v _ _) hf)
    · rw [hplain hp, writeMem_refused hr]
      rfl
    · rw [hplain hp, writeMem_keptOut hr hk]
      rfl
    · subst he
      obtain ⟨u, hu, hspec⟩ := writeMem_answer_clean (x := na) hr hk ⟨herr, hc⟩
      exact ⟨u, (hplain hp).trans (congrArg _ hu), hspec⟩
    · obtain ⟨u, hu, hspec⟩ := writeMem_answer_whole (x := na) (e := e) hr hk ha hw
      exact ⟨u, (hplain hp).trans (congrArg _ hu), hspec⟩
  case arrive =>
    intro agent addr set cnt seq salt wait adds tag e s hs p hp q f
    have hexec : exec p.2.1 s = .next (s.atomArrive q tag wait e p.2.2) := by
      simp only [List.mem_cons, List.not_mem_nil, or_false] at hp
      rcases hp with rfl | rfl | rfl | rfl
      · rfl
      · rfl
      · rfl
      · rfl
    obtain ⟨hheld, hgone, hbehind, hact⟩ := atomArrive_cases hs q tag wait e p.2.2
    rw [hexec]
    exact ⟨fun g hf => congrArg _ (hheld g hf), fun hf => congrArg _ (hgone hf), fun hf hb => congrArg _ (hbehind hf hb),
      fun hf hb hh => congrArg _ (hact hf hb hh)⟩
  case payload =>
    intro agent pay seed p0 p1 q
    refine ⟨rfl, rfl, rfl, rfl, rfl, rfl, rfl, ?_⟩
    simp [q, atomOf, p0, p1, or_assoc]
  case act =>
    intro q e s hw mc done
    refine ⟨fun c hr => ⟨_, rfl, atom_refused hw hr⟩, fun hr => ⟨atom_empty hw hr, atom_unordered hw hr, atom_turn hw hr,
      fun hc h0 ht hl => ⟨atom_early hw hr hc h0 ht hl, fun hn => atom_full hw ?_⟩, atom_late hw hr⟩⟩
    exact atomFull_iff.2 ⟨hr, hc, h0, hl, hn⟩
  case apply =>
    intro q s herr hp u
    obtain ⟨t, ht, honly⟩ := atomApply_clean ⟨herr, hp⟩
    have hmem : u.mem = (s.atomPut q).mem := by
      simp only [u, ht]
      exact honly .mem (by simp)
    have hkept := atomPut_kept s q
    refine ⟨?_, ?_, ?_, ?_, ?_⟩
    · rw [hmem]
      exact wrN_data_congr hkept _ _
    · simp only [u, ht, State.emit_out]
      exact congrArg (· ++ _) ((honly .out (by simp)).trans (atomPut_only s q .out (by simp)))
    · simp only [u, ht]
      exact (((atomPut_only s q).mono (by simp)).trans (honly.mono (by simp))).trans
        ((State.emit_only _ _).mono (by simp))
    · rw [hmem]
      exact hkept.next
    · rw [hmem]
      exact hkept.heldAtoms
  case reset =>
    intro agent mc set cnt s hs
    have hexec : exec (.setReset agent mc set cnt) s = .next (s.setReset agent mc set cnt) :=
      if_neg (ne_true_of_eq_false hs)
    rw [hexec]
    refine ⟨fun h => ?_, fun hc h0 => ?_, fun hc h0 h15 hh hw => ?_⟩
    · exact congrArg _ (if_pos (by simpa using h))
    · subst hc h0
      rfl
    · subst hc
      rw [setReset_eq h0 h15 hh hw]
      exact ⟨_, rfl, ticket_setTicket s mc set 0, rfl,
        ((setTicket_only s mc set 0).mono (by simp)).trans ((State.emit_only _ _).mono (by simp)), rfl⟩
  case deadline =>
    intro mc idx q s h
    show execAtomTicketDeadline mc idx s = _
    rw [execAtomTicketDeadline, h]
  case opened =>
    intro mc set s h
    rw [zeroTickets_nil h]
    exact ⟨rfl, mem_only s _⟩

end Sys2Proof.Machine
end

section
/-! PROOFS. Lining groups that change mode (spec/08_memory_system.md R273, R280, Table 8.5). -/

namespace Sys2Proof.Machine

variable {s : State} {n g : Nat} {c : LnChange}

/-! ### The changes of mode -/

theorem lnChange_key (h : s.lnChange n g = some c) : (c.mc = n && c.group = g) = true :=
  List.find?_some (p := fun c : LnChange => c.mc = n && c.group = g) h

/-- A change replaced by one of the same group is found in its place. -/
theorem lnChange_setLnChange (f : LnChange → LnChange) (hf : ∀ c, (f c).mc = c.mc ∧ (f c).group = c.group)
    (h : s.lnChange n g = some c) : (s.setLnChange n g f).lnChange n g = some (f c) := by
  have hkey : (fun d : LnChange => decide (d.mc = n) && decide (d.group = g)) ∘
      (fun d : LnChange => if (d.mc = n && d.group = g) = true then f d else d)
        = fun d => decide (d.mc = n) && decide (d.group = g) := by
    funext d
    obtain ⟨hmc, hgroup⟩ := hf d
    dsimp only [Function.comp]
    split
    · rw [hmc, hgroup]
    · rfl
  rw [State.lnChange, State.setLnChange, List.find?_map, hkey]
  have hfound : s.mem.lnChg.find? (fun d => decide (d.mc = n) && decide (d.group = g)) = some c := h
  rw [hfound]
  exact congrArg some (if_pos (lnChange_key h))

theorem setLnChange_only (s : State) (n g : Nat) (f : LnChange → LnChange) : Only [.mem] s (s.setLnChange n g f) :=
  mem_only s _

/-! ### The end of a change -/

theorem lnFinish_bar (s : State) (n g : Nat) : (s.lnFinish n g).bar = (s.lnIdle n g).bar := rfl

theorem lnFinish_only (s : State) (n g : Nat) : Only [.bar, .mem] s (s.lnFinish n g) := by
  have hidle : Only [.bar, .mem] s (((s.dropLines n g).zeroGroup n g).lnIdle n g) :=
    ((mem_only s _).mono (by simp)).trans
      (((mem_only _ _).mono (by simp)).trans ((State.set_only _ _ _).mono (by simp)))
  exact hidle.trans ((mem_only _ _).mono (by simp))

/-- One bit of four taken away. -/
theorem bit_cleared : ∀ v < 16, ∀ g < 4, ∀ h < 4,
    bit (if bit v g then v - 2 ^ g else v) h = (decide (h ≠ g) && bit v h) := by decide

/-- The busy bit of the group is cleared, the others stay. -/
theorem lnBusy_lnFinish {h : Nat} (hg : g < 4) (hh : h < 4) (hv : s.get (R.MC_STATUS_LN_BUSY n) < 16) :
    (s.lnFinish n g).lnBusy n h = (decide (h ≠ g) && s.lnBusy n h) := by
  have hbits := bit_cleared _ hv g hg h hh
  have hle : (if bit (s.get (R.MC_STATUS_LN_BUSY n)) g then s.get (R.MC_STATUS_LN_BUSY n) - 2 ^ g
      else s.get (R.MC_STATUS_LN_BUSY n)) < 2 ^ 4 := by
    split
    · exact (Nat.sub_le _ _).trans_lt hv
    · exact hv
  have hget : (s.lnFinish n g).get (R.MC_STATUS_LN_BUSY n) = (if bit (s.get (R.MC_STATUS_LN_BUSY n)) g
      then s.get (R.MC_STATUS_LN_BUSY n) - 2 ^ g else s.get (R.MC_STATUS_LN_BUSY n)) := by
    rw [State.get, lnFinish_bar, ← State.get, State.lnIdle, get_set_same]
    exact Nat.mod_eq_of_lt hle
  rw [State.lnBusy, hget, hbits]
  rfl

/-- No mode is changed by the end of a change. -/
theorem lnMode_lnFinish (m h : Nat) : (s.lnFinish n g).lnMode m h = s.lnMode m h := by
  have hkey : (R.MC_CFG_LN_MODE m).key ≠ (R.MC_STATUS_LN_BUSY n).key := by
    simp only [Fld.key, R.MC_CFG_LN_MODE, R.MC_STATUS_LN_BUSY]
    omega
  rw [State.lnMode, State.get, lnFinish_bar, ← State.get, State.lnIdle, get_set_other _ _ hkey]
  rfl

theorem lnChange_lnFinish_same : (s.lnFinish n g).lnChange n g = none := by
  refine List.find?_eq_none.2 fun d hd => ?_
  obtain ⟨-, hother⟩ := List.mem_filter.1 hd
  simpa [imp_iff_not_or] using hother

theorem lnChange_lnFinish_other {h : Nat} (hne : h ≠ g) : (s.lnFinish n g).lnChange n h = s.lnChange n h := by
  refine (List.find?_filter ..).trans (congrArg (fun p => s.mem.lnChg.find? p) (funext fun d => ?_))
  by_cases hd : d.group = h
  · simp [hd, hne]
  · simp [hd]

/-- The window of the group is zero, and none of its lines stays. -/
theorem lnFinish_mem (s : State) (n g : Nat) :
    (s.lnFinish n g).mem.data = memZero s.mem.data (lnBase n g) (lnBase n g + 0x100000)
      ∧ (s.lnFinish n g).mem.lines = s.mem.lines.filter fun x => !(x.mc = n && x.group = g) := ⟨rfl, rfl⟩

theorem mem_otherLines {l : List Line} {x : Line} :
    x ∈ l.filter (fun x => !(x.mc = n && x.group = g)) ↔ x ∈ l ∧ ¬ (x.mc = n ∧ x.group = g) := by
  simp [List.mem_filter, imp_iff_not_or]

/-! ### Requests refused when the bound is missed (spec/08_memory_system.md R280) -/

/-- A refusal goes out, or a response to a bobbin leaves. -/
theorem refuseHeld_only (s : State) (code : Nat) (h : HeldReq) : Only [.out, .net] s (s.refuseHeld code h) := by
  unfold State.refuseHeld
  split
  case h_7 => exact (respond_only _ _ _ _ _ _ _).mono (by simp)
  case h_8 => exact .refl _ s
  all_goals exact (s.emit_only _).mono (by simp)

/-- What has gone out stays out. -/
theorem refuseHeld_out (s : State) (code : Nat) (h : HeldReq) : s.out ⊆ (s.refuseHeld code h).out := by
  unfold State.refuseHeld
  split
  case h_7 =>
    rw [show _ = s.out from respond_only _ _ _ _ _ _ _ .out (by simp)]
    exact List.Subset.refl _
  case h_8 => exact List.Subset.refl _
  all_goals exact List.subset_append_left _ _

theorem subset_out_foldl {α : Type} {f : State → α → State} (hf : ∀ s a, s.out ⊆ (f s a).out) (l : List α) (s : State) :
    s.out ⊆ (l.foldl f s).out := by
  induction l generalizing s with
  | nil => exact List.Subset.refl _
  | cons a l ih => exact List.Subset.trans (hf s a) (ih _)

/-- What one element of a list puts out is out after the fold. -/
theorem mem_out_foldl {α : Type} {f : State → α → State} (hf : ∀ s a, s.out ⊆ (f s a).out) {o : Out} {a : α}
    (ha : ∀ s, o ∈ (f s a).out) {l : List α} (hl : a ∈ l) (s : State) : o ∈ (l.foldl f s).out := by
  induction l generalizing s with
  | nil => cases hl
  | cons b l ih =>
    rcases List.mem_cons.1 hl with rfl | hl
    · exact subset_out_foldl hf l _ (ha s)
    · exact ih hl _

/-- A ticketed request refused because its group closes. -/
def State.refuseAtom (s : State) (q : AtomReq) : State := s.emit (.memRefused q.agent q.addr Code.MEM_PD_DEADLINE)

/-- The state after every request that a closing group still holds has been refused. -/
def State.refuseLeft (s : State) (n g : Nat) : State :=
  (s.mem.heldAtoms.filter fun q => q.within n g).foldl State.refuseAtom
    ((s.mem.heldReqs.filter fun h => h.before n g).foldl (fun s h => s.refuseHeld Code.MEM_PD_DEADLINE h)
      { s with mem := { s.mem with
        heldReqs := s.mem.heldReqs.filter fun h => !h.before n g
        heldAtoms := s.mem.heldAtoms.filter fun q => !q.within n g } })

theorem exec_liningPdDeadline (h : s.lnChange n g = some c) (hd : c.drained = false) (h0 : c.new = 0) :
    exec (.liningPdDeadline n g) s
      = .next (((s.refuseLeft n g).raise Code.MEM_PD_DEADLINE (0xC00 + n) (0x100 + g) 0).lnDrained n g c) := by
  show execLiningPdDeadline n g s = _
  have hgo : ¬ ((c.drained || decide (c.new ≠ 0)) = true) := by simp [hd, h0]
  rw [execLiningPdDeadline, h]
  exact if_neg hgo

/-- Refusing what is left takes those requests away and changes no other memory. -/
theorem refuseLeft_only (s : State) (n g : Nat) : Only [.out, .net] { s with mem := { s.mem with
    heldReqs := s.mem.heldReqs.filter fun h => !h.before n g
    heldAtoms := s.mem.heldAtoms.filter fun q => !q.within n g } } (s.refuseLeft n g) :=
  (Only.foldl (fun s h => refuseHeld_only s _ h) _ _).trans
    (Only.foldl (fun s _ => (s.emit_only _).mono (by simp)) _ _)

theorem refuseAtom_out (s : State) (q : AtomReq) : s.out ⊆ (s.refuseAtom q).out := List.subset_append_left _ _

/-- Each ticketed request left is refused. -/
theorem refuseLeft_atom {q : AtomReq} (hq : q ∈ s.mem.heldAtoms) (hw : q.within n g = true) :
    Out.memRefused q.agent q.addr Code.MEM_PD_DEADLINE ∈ (s.refuseLeft n g).out :=
  mem_out_foldl refuseAtom_out (fun s => List.mem_append_right s.out (List.mem_singleton_self _))
    (List.mem_filter.2 ⟨hq, hw⟩) _

/-- Each read left is refused to its agent. -/
theorem refuseLeft_read {h : HeldReq} {agent a len : Nat} {na : Bool} {e : Arrival} (hh : h ∈ s.mem.heldReqs)
    (hb : h.before n g = true) (hr : h.req = .memRead agent a len na e) :
    Out.memRefused agent a Code.MEM_PD_DEADLINE ∈ (s.refuseLeft n g).out := by
  refine subset_out_foldl refuseAtom_out _ _ (mem_out_foldl (refuseHeld_out · _ ·) (fun s => ?_)
    (List.mem_filter.2 ⟨hh, hb⟩) _)
  rw [State.refuseHeld, hr]
  exact List.mem_append_right s.out (List.mem_singleton_self _)

/-! ### The commands -/

/-- Step 2 ends: nothing accepted before is left. -/
theorem exec_liningRequestsDrained (h : s.lnChange n g = some c) (hd : c.drained = false)
    (hreq : ∀ h ∈ s.mem.heldReqs, h.before n g = false) (hatom : ∀ q ∈ s.mem.heldAtoms, q.within n g = false) :
    exec (.liningRequestsDrained n g) s = .next (s.lnDrained n g c) := by
  show execLiningRequestsDrained n g s = _
  have hleft : (s.mem.heldReqs.any (fun h => h.before n g) || s.mem.heldAtoms.any fun q => q.within n g) = false := by
    simpa using And.intro hreq hatom
  rw [execLiningRequestsDrained, h]
  dsimp only
  rw [hleft, hd]
  rfl

/-- Step 2 goes on while a request is left. -/
theorem exec_liningRequestsDrained_left
    (h : (∃ h ∈ s.mem.heldReqs, h.before n g = true) ∨ ∃ q ∈ s.mem.heldAtoms, q.within n g = true) :
    exec (.liningRequestsDrained n g) s = .next s := by
  show execLiningRequestsDrained n g s = _
  have hleft : (s.mem.heldReqs.any (fun h => h.before n g) || s.mem.heldAtoms.any fun q => q.within n g) = true := by
    simpa using h
  unfold execLiningRequestsDrained
  split
  · dsimp only
    rw [hleft, Bool.or_true]
    rfl
  · rfl

theorem lnDrained_finish (h0 : c.new = 0) (h2 : c.old = 2) : s.lnDrained n g c = s.lnFinish n g :=
  if_pos (by simp [h0, h2])

theorem lnDrained_on (h : c.new ≠ 0 ∨ c.old ≠ 2) :
    s.lnDrained n g c = s.setLnChange n g fun c => { c with drained := true } :=
  if_neg (by simpa [imp_iff_not_or] using h)

theorem before_iff (h : HeldReq) (n g : Nat) : h.before n g = true ↔ h.accepted = true ∧ h.mc = n
    ∧ lnBase n g / 256 ≤ h.gran ∧ h.gran ≤ (lnBase n g + 0xFFFFF) / 256 := by
  simp [HeldReq.before, HeldReq.within, inRange]

/-- Settles O21: each command by the state of its change, and the end of a change by the fields that it leaves. -/
theorem liningGroupsChangeMode : Obligations.LiningGroupsChangeMode := by
  unfold Obligations.LiningGroupsChangeMode
  refine ⟨?finish, ?drained, fun n g s => exec_liningRequestsDrained_left, before_iff, ?bound, ?written, ?late, ?power,
    ?passage⟩
  case finish =>
    intro n g s hn hg u a hv
    have hbusy {h : Nat} (hh : h < 4) := lnBusy_lnFinish (s := s) (n := n) hg hh hv
    refine ⟨lnFinish_only s n g, ?_, lnChange_lnFinish_same, fun h hh hne => ⟨?_, lnChange_lnFinish_other hne⟩,
      fun x hlo hhi => memRead_memZero_in _ _ _ x ⟨hlo, hhi⟩, fun x hx => (mem_otherLines.1 hx).2,
      fun x hx hx' => mem_otherLines.2 ⟨hx, hx'⟩, fun m h => lnMode_lnFinish m h⟩
    · simpa using hbusy hg
    · simpa [hne] using hbusy hh
  case drained =>
    intro n g c s h hd hreq hatom
    rw [exec_liningRequestsDrained h hd hreq hatom]
    refine ⟨fun h0 h2 => congrArg _ (lnDrained_finish h0 h2), fun hon => ?_⟩
    exact ⟨_, congrArg _ (lnDrained_on hon), setLnChange_only s n g _,
      lnChange_setLnChange _ (fun _ => ⟨rfl, rfl⟩) h, rfl, rfl⟩
  case bound =>
    intro n g c s h hd h0
    have honly := refuseLeft_only s n g
    have hmem := honly .mem (by simp)
    refine ⟨s.refuseLeft n g, exec_liningPdDeadline h hd h0,
      ((mem_only s _).mono (by simp)).trans (honly.mono (by simp)),
      fun h => ?_, fun q => ?_, fun q => refuseLeft_atom, fun h agent a len na wait e => refuseLeft_read⟩
    · rw [show (s.refuseLeft n g).mem = _ from hmem]
      simp [List.mem_filter]
    · rw [show (s.refuseLeft n g).mem = _ from hmem]
      simp [List.mem_filter]
  case written =>
    intro n g c s h h1 hd
    have hexec : exec (.liningWritebackDone n g) s = (if c.new = 0 then go (s.lnFinish n g)
        else go ((s.dropLines n g).setLnChange n g fun c => { c with written := true })) := by
      show execLiningWritebackDone n g s = _
      rw [execLiningWritebackDone, h]
      exact if_neg (by simp [h1, hd])
    rw [hexec]
    refine ⟨fun h0 => if_pos h0, fun h0 => ⟨_, if_neg h0, (mem_only s _).trans (setLnChange_only _ n g _), ?_, rfl,
      fun x => mem_otherLines⟩⟩
    exact lnChange_setLnChange (s := s.dropLines n g) _ (fun _ => ⟨rfl, rfl⟩) h
  case late =>
    intro n g c s h h1 hw
    show execLiningWritebackDeadline n g s = _
    rw [execLiningWritebackDeadline, h]
    exact if_pos (by simp [h1, hw])
  case power =>
    intro n g c s h h0
    show execLiningPowerUpDone n g s = _
    rw [execLiningPowerUpDone, h]
    exact if_pos h0
  case passage =>
    intro n g c s h hold hnew
    show execLiningModeChangeEnd n g s = _
    rw [execLiningModeChangeEnd, h]
    exact if_neg (by simp [hold, hnew])

end Sys2Proof.Machine
end

section
/-! PROOFS. Scrubbing, rows and channels (spec/08_memory_system.md R261, R266 to R268, R271, Table 8.9). -/

namespace Sys2Proof.Machine

variable {s : State} {g ch : Nat} {e : Ecc} {r : Reader}

/-! ### The granule at a position of a channel (spec/08_memory_system.md R261) -/

/-- The hash of a channel granule. -/
def chanHash (c : Nat) : Nat := (c ^^^ c / 2 ^ 5 ^^^ c / 2 ^ 10) % 2 ^ 5

/-- The lower part of the number of a granule within its third. -/
theorem granAt_eq (ch c : Nat) : granAt ch c = 3 * (c * 32 + (ch % 32 ^^^ chanHash c)) + ch / 32 := by
  have hand : Nat.land (Nat.xor (Nat.xor c (c / 2 ^ 5)) (c / 2 ^ 10)) 0x1F = chanHash c :=
    Nat.and_two_pow_sub_one_eq_mod _ 5
  rw [granAt, hand]
  rfl

theorem chanHash_xor_lt (ch c : Nat) : ch % 32 ^^^ chanHash c < 32 :=
  Nat.xor_lt_two_pow (n := 5) (Nat.mod_lt _ (by decide)) (Nat.mod_lt _ (by decide))

/-- The position of a granule in its channel names it. -/
theorem granAt_inverse {c : Nat} (hch : ch < 96) : chanOf (granAt ch c) = ch ∧ chanGran (granAt ch c) = c := by
  have hlo := chanHash_xor_lt ch c
  have hdiv : granAt ch c / 3 = c * 32 + (ch % 32 ^^^ chanHash c) := by
    rw [granAt_eq]
    omega
  have hmod : granAt ch c % 3 = ch / 32 := by
    rw [granAt_eq]
    omega
  have hgran : granAt ch c / 3 / 32 = c := by
    rw [hdiv]
    omega
  have hlow : granAt ch c / 3 % 2 ^ 5 = ch % 32 ^^^ chanHash c := by
    rw [hdiv]
    omega
  have hq (k : Nat) : granAt ch c / 3 / 2 ^ (5 + k) = c / 2 ^ k := by
    rw [Nat.pow_add, ← Nat.div_div_eq_div_mul, show (2 : Nat) ^ 5 = 32 from rfl, hgran]
  have hhash : (granAt ch c / 3 ^^^ granAt ch c / 3 / 2 ^ 5 ^^^ granAt ch c / 3 / 2 ^ 10 ^^^ granAt ch c / 3 / 2 ^ 15)
      % 2 ^ 5 = ch % 32 := by
    have h5 : granAt ch c / 3 / 2 ^ 5 = c := hgran
    rw [h5, show granAt ch c / 3 / 2 ^ 10 = c / 2 ^ 5 from hq 5, show granAt ch c / 3 / 2 ^ 15 = c / 2 ^ 10 from hq 10,
      Nat.xor_assoc, Nat.xor_assoc, ← Nat.xor_assoc c, Nat.xor_mod_two_pow, hlow]
    exact (Nat.xor_assoc _ _ _).trans ((congrArg _ (Nat.xor_self _)).trans (Nat.xor_zero _))
  refine ⟨?_, hgran⟩
  have hand : chanOf (granAt ch c) = 32 * (granAt ch c % 3) + (granAt ch c / 3 ^^^ granAt ch c / 3 / 2 ^ 5
      ^^^ granAt ch c / 3 / 2 ^ 10 ^^^ granAt ch c / 3 / 2 ^ 15) % 2 ^ 5 :=
    congrArg (32 * (granAt ch c % 3) + ·) (Nat.and_two_pow_sub_one_eq_mod _ 5)
  rw [hand, hhash, hmod]
  exact Nat.div_add_mod ch 32

/-! ### The check of one granule -/

theorem checkRead_one (s : State) (g : Nat) (e : Ecc) (r : Reader) : s.checkRead [g] e r = s.checkGran g e r := by
  rw [State.checkRead]
  split
  · next h => exact Prod.ext rfl h.symm
  · rfl

theorem checkGran_poisoned (h : s.mem.poison.contains g = true) : s.checkGran g e r = (s.ueFault g r, false) := if_pos h

theorem checkGran_found (h : s.mem.poison.contains g = false) : s.checkGran g e r
    = match worseOf e (kvGet .ok s.mem.errs g) with
      | .ok => (s, true)
      | .corrected => (s.memCe g, true)
      | .uncorrectable => (s.memUe g r, false) := if_neg (ne_true_of_eq_false h)

/-- An uncorrectable error poisons its granule. -/
theorem mem_poison_memUe (s : State) (g : Nat) (r : Reader) : g ∈ (s.memUe g r).mem.poison := by
  obtain ⟨l, hl⟩ := raiseAs_mem (State.bump (State.setAll { s.dropErr g with mem := { (s.dropErr g).mem with
      poison := if s.mem.poison.contains g then s.mem.poison else g :: s.mem.poison } }
    [(R.MC_LAST_UE_GRANULE (mcOfGran g), g), (R.MC_LAST_UE_CLASS (mcOfGran g), match s.placeOf g with
        | .lining _ => 3
        | _ => s.granCls g),
      (R.MC_LAST_UE_CHAN (mcOfGran g), chanOf g % 4), (R.MC_LAST_UE_SCRUB (mcOfGran g), b2n (decide (r = .scrub)))])
    (R.UE (mcOfGran g)) 1) (classOf (ueCode (s.granCls g) r)) false (ueCode (s.granCls g) r) (0xC00 + mcOfGran g)
    (placeSub g (s.placeOf g)) g
  have hpoison : (s.memUe g r).mem.poison = if s.mem.poison.contains g then s.mem.poison else g :: s.mem.poison :=
    congrArg MemSys.poison hl
  rw [hpoison]
  split
  · next h => exact List.contains_iff_mem.1 h
  · exact List.mem_cons_self

theorem worseOf_cases (e : Ecc) : worseOf e .ok = e ∧ worseOf .ok e = e ∧ worseOf .uncorrectable e = .uncorrectable
    ∧ worseOf e .uncorrectable = .uncorrectable ∧ worseOf .corrected .corrected = .corrected := by
  cases e with
  | ok => exact ⟨rfl, rfl, rfl, rfl, rfl⟩
  | corrected => exact ⟨rfl, rfl, rfl, rfl, rfl⟩
  | uncorrectable => exact ⟨rfl, rfl, rfl, rfl, rfl⟩

/-! ### Corrected errors -/

/-- A CRC corrects nothing. -/
theorem memCe_crc (hp : s.placeOf g = .channel) (hc : s.granCls g = 2) : s.memCe g = s.dropErr g := by
  have hif : (decide (s.placeOf g = .channel) && decide ((s.dropErr g).granCls g = 2)) = true := by
    rw [decide_eq_true hp, Bool.true_and]
    exact decide_eq_true hc
  exact if_pos hif

/-- A corrected error counted and raised. -/
def State.tellCe (s : State) (g : Nat) (p : Place) : State :=
  (s.bump (R.CE (mcOfGran g)) 1).raise Code.MEM_CE (0xC00 + mcOfGran g) (placeSub g p) g

theorem memCe_channel (hp : s.placeOf g = .channel) (hc : s.granCls g ≠ 2) : s.memCe g
    = State.tellCe { s.dropErr g with mem := { (s.dropErr g).mem with
        rows := countRow s.mem.rows (chanOf g) (bankOf g) (rowOf g) } } g (s.placeOf g) := by
  have hif : ¬ (decide (s.placeOf g = .channel) && decide ((s.dropErr g).granCls g = 2)) = true := by
    rw [Bool.and_eq_true, decide_eq_true_eq, decide_eq_true_eq]
    exact fun h => hc h.2
  have hrow : (if s.placeOf g = .channel then { s.dropErr g with mem := { (s.dropErr g).mem with
        rows := countRow s.mem.rows (chanOf g) (bankOf g) (rowOf g) } } else s.dropErr g)
      = { s.dropErr g with mem := { (s.dropErr g).mem with
        rows := countRow s.mem.rows (chanOf g) (bankOf g) (rowOf g) } } := if_pos hp
  exact (if_neg hif).trans (congrArg (fun t => State.tellCe t g (s.placeOf g)) hrow)

theorem memCe_elsewhere (hp : s.placeOf g ≠ .channel) : s.memCe g = (s.dropErr g).tellCe g (s.placeOf g) := by
  have hif : ¬ (decide (s.placeOf g = .channel) && decide ((s.dropErr g).granCls g = 2)) = true := by
    rw [Bool.and_eq_true, decide_eq_true_eq, decide_eq_true_eq]
    exact fun h => hp h.1
  have hrow : (if s.placeOf g = .channel then { s.dropErr g with mem := { (s.dropErr g).mem with
        rows := countRow s.mem.rows (chanOf g) (bankOf g) (rowOf g) } } else s.dropErr g) = s.dropErr g := if_neg hp
  exact (if_neg hif).trans (congrArg (fun t => State.tellCe t g (s.placeOf g)) hrow)

/-! ### The place of a granule -/

theorem placeOf_line {x : Line} (h : s.mem.lines.find? (fun x => x.granule = g) = some x) :
    s.placeOf g = .lining x.group := by
  rw [State.placeOf, h]

theorem placeOf_noLine (h : ∀ x ∈ s.mem.lines, x.granule ≠ g) : s.placeOf g
    = if s.mem.remaps.any fun r => r.chan = chanOf g && r.bank = bankOf g && r.row = rowOf g then .remap else .channel := by
  have hnone : s.mem.lines.find? (fun x => x.granule = g) = none :=
    List.find?_eq_none.2 fun x hx => by simpa using h x hx
  rw [State.placeOf, hnone]

theorem placeOf_remap (h : ∀ x ∈ s.mem.lines, x.granule ≠ g)
    (hr : ∃ r ∈ s.mem.remaps, r.chan = chanOf g ∧ r.bank = bankOf g ∧ r.row = rowOf g) : s.placeOf g = .remap := by
  rw [placeOf_noLine h]
  exact if_pos (by simpa [and_assoc] using hr)

theorem placeOf_channel (h : ∀ x ∈ s.mem.lines, x.granule ≠ g)
    (hr : ∀ r ∈ s.mem.remaps, ¬ (r.chan = chanOf g ∧ r.bank = bankOf g ∧ r.row = rowOf g)) : s.placeOf g = .channel := by
  rw [placeOf_noLine h]
  exact if_neg (by simpa [and_assoc] using hr)

/-! ### Rows and channels -/

/-- The state in which a row has been taken into the remap store. -/
def State.rowTaken (s : State) (ch bank row : Nat) (bad : List Nat) (r : RowCount) : State :=
  { s with mem := { s.mem with
    rows := s.mem.rows.erase r
    remaps := s.mem.remaps ++ [r]
    poison := ((bad.filter fun g => chanOf g = ch && bankOf g = bank && rowOf g = row) ++ s.mem.poison).dedup
    errs := s.mem.errs.filter fun x => !(decide (x.1 < 2 ^ 40) && chanOf x.1 = ch && bankOf x.1 = bank
      && rowOf x.1 = row && x.2 = Ecc.corrected) } }

/-- A remap counted and shown. -/
def State.showRemap (s : State) (ch bank row left : Nat) : State :=
  ((s.set (R.MC_STATUS_REMAP_FREE (ch / 4)) (left - 1)).bump (R.REMAPS (ch / 4)) 1).setAll
    [(R.MC_LAST_REMAP_CHAN (ch / 4), ch % 4), (R.MC_LAST_REMAP_BANK (ch / 4), bank), (R.MC_LAST_REMAP_ROW (ch / 4), row)]

theorem showRemap_only (s : State) (ch bank row left : Nat) : Only [.bar] s (s.showRemap ch bank row left) :=
  ((s.set_only _ _).trans (State.bump_only _ _ _)).trans (State.setAll_only _ _)

theorem get_showRemap (s : State) (ch bank row : Nat) {left : Nat} (h : left < 256) :
    (s.showRemap ch bank row left).get (R.MC_STATUS_REMAP_FREE (ch / 4)) = left - 1 := by
  have hbump : (R.MC_STATUS_REMAP_FREE (ch / 4)).key ≠ (R.REMAPS (ch / 4)).key := by
    simp only [Fld.key, R.MC_STATUS_REMAP_FREE, R.REMAPS]
    omega
  have hchan : (R.MC_STATUS_REMAP_FREE (ch / 4)).key ≠ (R.MC_LAST_REMAP_CHAN (ch / 4)).key := by
    simp only [Fld.key, R.MC_STATUS_REMAP_FREE, R.MC_LAST_REMAP_CHAN]
    omega
  have hbank : (R.MC_STATUS_REMAP_FREE (ch / 4)).key ≠ (R.MC_LAST_REMAP_BANK (ch / 4)).key := by
    simp only [Fld.key, R.MC_STATUS_REMAP_FREE, R.MC_LAST_REMAP_BANK]
    omega
  have hrow : (R.MC_STATUS_REMAP_FREE (ch / 4)).key ≠ (R.MC_LAST_REMAP_ROW (ch / 4)).key := by
    simp only [Fld.key, R.MC_STATUS_REMAP_FREE, R.MC_LAST_REMAP_ROW]
    omega
  rw [State.showRemap, setAll_cons, setAll_cons, setAll_cons, setAll_nil, get_set_other _ _ hrow, get_set_other _ _ hbank,
    get_set_other _ _ hchan, get_bump_other _ _ hbump, get_set_same]
  exact Nat.mod_eq_of_lt ((Nat.sub_le _ _).trans_lt h)

/-- The state in which a row has been remapped and its remap shown. -/
def State.rowRemapped (s : State) (ch bank row : Nat) (bad : List Nat) (r : RowCount) : State :=
  (s.rowTaken ch bank row bad r).showRemap ch bank row (s.get (R.MC_STATUS_REMAP_FREE (ch / 4)))

section
variable (s : State) (ch bank row : Nat) (bad : List Nat) (r : RowCount)

theorem rowRemapped_only : Only [.bar, .mem] s (s.rowRemapped ch bank row bad r) :=
  ((mem_only s _).mono (by simp)).trans ((showRemap_only _ ch bank row _).mono (by simp))

theorem rowRemapped_mem : (s.rowRemapped ch bank row bad r).mem = (s.rowTaken ch bank row bad r).mem :=
  showRemap_only _ ch bank row _ .mem (by simp)

theorem rowRemapped_th : (s.rowRemapped ch bank row bad r).th = s.th :=
  rowRemapped_only s ch bank row bad r .th (by simp)

end

section
variable {bank row : Nat} {bad : List Nat} {x : RowCount} (h : s.rowOf? ch bank row = some x)
  (hen : s.flag (R.MC_CFG_REMAP_EN (ch / 4)) = true) (hth : s.get (R.MC_CFG_CE_TH (ch / 4)) ≤ x.count)
include h hen hth

theorem exec_rowRemap_eq : exec (.rowRemap ch bank row bad) s
    = if s.get (R.MC_STATUS_REMAP_FREE (ch / 4)) = 0 then go (s.raise Code.MEM_REMAP_FULL (0xC00 + ch / 4) ch 0)
      else go ((s.rowRemapped ch bank row bad x).addRepair
        ⟨1, 0, ch / 4, ch % 4 * 2 ^ 30 + bank * 2 ^ 26 + row * 2 ^ 8, 0, 1⟩) := by
  show execRowRemap ch bank row bad s = _
  have hon : ¬ (!s.flag (R.MC_CFG_REMAP_EN (ch / 4)) || decide (x.count < s.get (R.MC_CFG_CE_TH (ch / 4)))) = true := by
    simpa [hen] using hth
  rw [execRowRemap, h]
  exact if_neg hon

end

/-- A repair recorded where there is room. -/
theorem addRepair_recorded (h : s.th.repairs.length < 4092) (y : RepRec) :
    ∃ x, s.addRepair y = { s with th := x } ∧ x.repairs.length = s.th.repairs.length + 1 :=
  ⟨_, if_pos h, List.length_append⟩

theorem th_only (s : State) (x : Thimble) : Only [.th] s { s with th := x } := by
  intro p hp
  cases p <;> simp_all [Part.Same]

/-- A channel taken out of service. -/
theorem chOk_cleared (h : s.chOk ch = true) :
    (s.set (R.MC_STATUS_CH_OK (ch / 4)) (s.get (R.MC_STATUS_CH_OK (ch / 4)) - 2 ^ (ch % 4))).chOk ch = false := by
  have hset : s.get (R.MC_STATUS_CH_OK (ch / 4)) / 2 ^ (ch % 4) % 2 = 1 := of_decide_eq_true h
  have hdiv := Nat.sub_mul_div (s.get (R.MC_STATUS_CH_OK (ch / 4))) (2 ^ (ch % 4)) 1
  have hwidth : (R.MC_STATUS_CH_OK (ch / 4)).width = 4 := rfl
  have hlow : ch % 4 + 1 ≤ 4 := Nat.succ_le_of_lt (Nat.mod_lt _ (by decide))
  rw [Nat.mul_one] at hdiv
  rw [State.chOk, get_set_same, hwidth, bit, bits_mod_two_pow hlow, bits, hdiv]
  refine decide_eq_false ?_
  omega

end Sys2Proof.Machine
end

section
/-! PROOFS. Class commands and MOVE (spec/08_memory_system.md R259, R260, R278, R279). -/

namespace Sys2Proof.Machine

variable {s : State}

/-! ### Extents -/

/-- An extent's part below a range ends at the range. -/
theorem end_of_below {e d : Extent} {base : Nat} (h : e.below base = some d) : d.base + d.size ≤ base := by
  unfold Extent.below at h
  split at h
  · cases h
    dsimp only
    omega
  · cases h

/-- An extent's part above a range begins where the range ends. -/
theorem base_of_above {e d : Extent} {hi : Nat} (h : e.above hi = some d) : hi ≤ d.base := by
  unfold Extent.above at h
  split at h
  · cases h
    exact Nat.le_max_right _ _
  · cases h

/-- The range of a class command is one extent, which no other meets. -/
theorem mem_reclass (l : List Extent) (base size cls : Nat) : ⟨base, size, cls⟩ ∈ reclass l base size cls
    ∧ ∀ e ∈ reclass l base size cls, e = ⟨base, size, cls⟩ ∨ e.base + e.size ≤ base ∨ base + size ≤ e.base := by
  refine ⟨by simp [reclass], fun e he => ?_⟩
  rcases List.mem_append.1 he with he | he
  · rcases List.mem_append.1 he with he | he
    · obtain ⟨d, -, hd⟩ := List.mem_filterMap.1 he
      exact .inr (.inl (end_of_below hd))
    · exact .inl (List.mem_singleton.1 he)
  · obtain ⟨d, -, hd⟩ := List.mem_filterMap.1 he
    exact .inr (.inr (base_of_above hd))

/-! ### Extents filled with zeros -/

/-- The zero fill of extents leaves the extents and the jobs of fill. -/
theorem zeroExtents_kept (l : List Extent) (m : MemSys) :
    (l.foldl MemSys.zeroExtent m).exts = m.exts ∧ (l.foldl MemSys.zeroExtent m).fills = m.fills := by
  induction l generalizing m with
  | nil => exact ⟨rfl, rfl⟩
  | cons e l ih => exact ih _

/-- A byte that reads zero goes on doing so. -/
theorem zeroExtents_zero (l : List Extent) (m : MemSys) (x : Nat) (h : memRead m.data x = 0) :
    memRead (l.foldl MemSys.zeroExtent m).data x = 0 := by
  induction l generalizing m with
  | nil => exact h
  | cons e l ih =>
    refine ih _ ?_
    by_cases hx : e.base * mib2 ≤ x ∧ x < (e.base + e.size) * mib2
    · exact memRead_memZero_in _ _ _ x hx
    · exact (memRead_memZero_out _ hx).trans h

/-- No granule becomes poisoned. -/
theorem zeroExtents_poison (l : List Extent) (m : MemSys) : (l.foldl MemSys.zeroExtent m).poison ⊆ m.poison := by
  induction l generalizing m with
  | nil => exact List.Subset.refl _
  | cons e l ih => exact fun g hg => List.mem_of_mem_filter (ih _ hg)

/-! ### Fields set together -/

/-- A field that a list sets, always to one value, holds it. -/
theorem get_setAll_mem {f : Fld} {v : Nat} {l : List (Fld × Nat)} (hl : ∀ p ∈ l, p.1.key = f.key → p = (f, v))
    (s : State) (h : (f, v) ∈ l ∨ s.get f = v % 2 ^ f.width) : (s.setAll l).get f = v % 2 ^ f.width := by
  induction l generalizing s with
  | nil => exact h.resolve_left List.not_mem_nil
  | cons p l ih =>
    have hrest : ∀ q ∈ l, q.1.key = f.key → q = (f, v) := fun q hq => hl q (List.mem_cons_of_mem _ hq)
    rw [setAll_cons]
    by_cases hp : p.1.key = f.key
    · rw [hl p List.mem_cons_self hp]
      exact ih hrest _ (.inr (get_set_same s f v))
    · have hne : (f, v) ≠ p := fun he => hp (congrArg (·.1.key) he.symm)
      exact ih hrest _ (h.imp (fun hm => (List.mem_cons.1 hm).resolve_left hne)
        (get_set_other s _ (Ne.symm hp)).trans)

theorem get_setFilling {n : Nat} (hn : n < 24) (s : State) (b : Bool) :
    (s.setFilling b).get (R.MC_STATUS_FILLING n) = b2n b := by
  have hall : ∀ p ∈ (List.range 24).map fun n => (R.MC_STATUS_FILLING n, b2n b),
      p.1.key = (R.MC_STATUS_FILLING n).key → p = (R.MC_STATUS_FILLING n, b2n b) := by
    intro p hp hkey
    obtain ⟨m, -, rfl⟩ := List.mem_map.1 hp
    have hm : m = n := by
      simp only [Fld.key, R.MC_STATUS_FILLING] at hkey
      omega
    rw [hm]
  refine (get_setAll_mem hall s (.inl (List.mem_map.2 ⟨n, List.mem_range.2 hn, rfl⟩))).trans ?_
  cases b with
  | true => rfl
  | false => rfl

theorem setFilling_only (s : State) (b : Bool) : Only [.bar] s (s.setFilling b) := s.setAll_only _

/-! ### The class command -/

theorem classRefusal_none {a size cls : Nat} (h : s.classRefusal a size cls = none) : size ≠ 0 ∧ a % mib2 = 0 := by
  unfold State.classRefusal at h
  dsimp only at h
  split at h
  · cases h
  · next hsize =>
    split at h
    · cases h
    · next harg =>
      simp only [Bool.or_eq_true, decide_eq_true_eq, not_or] at harg
      obtain ⟨⟨halign, -⟩, -⟩ := harg
      exact ⟨hsize, not_not.1 halign⟩

/-- The memory system after a class command: the range is one extent, the extents formed are zero and wait for their
fill. -/
def State.reclassed (s : State) (tag epoch a size cls : Nat) : MemSys :=
  let fs := formed s.mem.exts (a / mib2) size cls
  let m := fs.foldl MemSys.zeroExtent { s.mem with exts := reclass s.mem.exts (a / mib2) size cls }
  { m with fills := m.fills ++ fs.map fun e => ⟨some (tag, epoch), e.base, e.size⟩ }

/-- The extent of the range is the first formed. -/
theorem formed_eq (l : List Extent) (base size cls : Nat) : ∃ fs, formed l base size cls = ⟨base, size, cls⟩ :: fs :=
  ⟨_, rfl⟩

theorem reclassed_exts (s : State) (tag epoch a size cls : Nat) :
    (s.reclassed tag epoch a size cls).exts = reclass s.mem.exts (a / mib2) size cls := (zeroExtents_kept _ _).1

section
variable {tag epoch a size cls : Nat}

theorem reclassed_zero (ha : a % mib2 = 0) {x : Nat} (hlo : a ≤ x) (hhi : x < a + size * mib2) :
    memRead (s.reclassed tag epoch a size cls).data x = 0 := by
  obtain ⟨fs, hfs⟩ := formed_eq s.mem.exts (a / mib2) size cls
  have hbase : a / mib2 * mib2 = a := Nat.div_mul_cancel (Nat.dvd_of_mod_eq_zero ha)
  have hin : a / mib2 * mib2 ≤ x ∧ x < (a / mib2 + size) * mib2 := by
    rw [Nat.add_mul, hbase]
    exact ⟨hlo, hhi⟩
  show memRead ((formed s.mem.exts (a / mib2) size cls).foldl MemSys.zeroExtent _).data x = 0
  rw [hfs, List.foldl_cons]
  exact zeroExtents_zero fs _ x (memRead_memZero_in _ _ _ x hin)

theorem reclassed_poison (ha : a % mib2 = 0) {g : Nat} (hg : g ∈ (s.reclassed tag epoch a size cls).poison) :
    g * 256 < a ∨ a + size * mib2 ≤ g * 256 := by
  obtain ⟨fs, hfs⟩ := formed_eq s.mem.exts (a / mib2) size cls
  have hg' : g ∈ ((formed s.mem.exts (a / mib2) size cls).foldl MemSys.zeroExtent
      { s.mem with exts := reclass s.mem.exts (a / mib2) size cls }).poison := hg
  rw [hfs, List.foldl_cons] at hg'
  obtain ⟨-, hout⟩ := List.mem_filter.1 (zeroExtents_poison fs _ hg')
  rw [Bool.not_eq_true', inRange, Bool.and_eq_false_iff, decide_eq_false_iff_not, decide_eq_false_iff_not] at hout
  simp only [mib2] at hout ha ⊢
  omega

theorem reclassed_fill : ⟨some (tag, epoch), a / mib2, size⟩ ∈ (s.reclassed tag epoch a size cls).fills := by
  obtain ⟨fs, hfs⟩ := formed_eq s.mem.exts (a / mib2) size cls
  refine List.mem_append_right _ (List.mem_map.2 ⟨⟨a / mib2, size, cls⟩, ?_, rfl⟩)
  rw [hfs]
  exact List.mem_cons_self

end

section
variable {tag : Nat} {c : Cmd} (hs : s.safe = false) (hc : s.cmdFor tag Op.CLASS = some c)
include hs hc

/-- A class command that fails a check is refused. -/
theorem exec_setClass_refused {code : Nat} (h : (s.takeCmd c).classRefusal (c.p 0 8) (c.p 8 4) (c.p 12 1) = some code) :
    exec (.setClass tag) s = .next ((s.takeCmd c).refuse c code 0xC34 Op.CLASS (tagArg c.tag c.epoch) []) := by
  show execSetClass tag s = _
  rw [execSetClass, withCmd_of_cmdFor hs hc]
  dsimp only
  rw [h]

theorem exec_setClass_accepted (h : (s.takeCmd c).classRefusal (c.p 0 8) (c.p 8 4) (c.p 12 1) = none) :
    exec (.setClass tag) s = .next (State.setFilling { s.takeCmd c with
      mem := (s.takeCmd c).reclassed c.tag c.epoch (c.p 0 8) (c.p 8 4) (c.p 12 1) } true) := by
  show execSetClass tag s = _
  rw [execSetClass, withCmd_of_cmdFor hs hc]
  dsimp only
  rw [h]
  rfl

end

/-! ### The end of a fill -/

/-- The state in which the jobs of one command, first of all, are filled. -/
def State.fillEnded (s : State) (f : FillJob) (l : List FillJob) : State :=
  State.setFilling { s with mem := { s.mem with fills := l.filter fun g => g.cmd ≠ f.cmd } }
    (!(l.filter fun g => g.cmd ≠ f.cmd).isEmpty)

theorem exec_classFillEnd_eq {f : FillJob} {l : List FillJob} (h : s.mem.fills = f :: l) : exec .classFillEnd s
    = go (match f.cmd with
      | some (tag, ep) => (s.fillEnded f l).reply tag ep 1 0 []
      | none => s.fillEnded f l) := by
  have hrest : (f :: l).filter (fun g => g.cmd ≠ f.cmd) = l.filter fun g => g.cmd ≠ f.cmd :=
    List.filter_cons_of_neg (by simp)
  show execClassFillEnd s = _
  unfold execClassFillEnd
  rw [h]
  dsimp only
  rw [hrest]
  cases hcmd : f.cmd with
  | none => simp only [State.fillEnded, hcmd]
  | some p => simp only [State.fillEnded, hcmd]

/-! ### MOVE -/

theorem exec_move_eq {tag : Nat} {hostData : List Byte} {c : Cmd} (hs : s.safe = false) (hm : s.mem.move = none)
    (hc : s.cmdFor tag Op.MOVE = some c) : exec (.move tag hostData) s = .next (
      if c.p 16 8 = 0 then (s.takeCmd c).done c []
      else if (s.takeCmd c).moveBad (c.p 0 8) (c.p 8 8) (c.p 16 8) then
        (s.takeCmd c).refuse c Code.MEM_MOVE 0xC34 Op.MOVE (tagArg c.tag c.epoch) []
      else { s.takeCmd c with mem := { (s.takeCmd c).mem with
        move := some ⟨c.p 0 8, c.p 8 8, c.p 16 8, c.tag, c.epoch, padTo (c.p 16 8) hostData, false⟩ } }) := by
  have hidle : ¬ s.mem.move.isSome = true := by simp [hm]
  show execMove tag hostData s = _
  rw [execMove, if_neg hidle, withCmd_of_cmdFor hs hc]

/-- What a MOVE reads: nothing of the module where the source is host memory. -/
def State.moveRead (s : State) (j : MoveJob) (n : Nat) : State × Option (Nat × Nat) :=
  if hostBase ≤ j.src then (s, none) else s.load j.src n true .ok

/-- The bytes that a MOVE copies: those read, or free values where an agent has touched a range. -/
def State.moveBytes (s : State) (j : MoveJob) (n : Nat) : List Byte × State :=
  if j.touched then (s.moveRead j n).1.freeBytes j.len
  else (if hostBase ≤ j.src then j.host else s.rdN j.src j.len, (s.moveRead j n).1)

/-- The first bytes of a MOVE stored at its destination. -/
def State.movePut (s : State) (j : MoveJob) (n m : Nat) : State × Option (Nat × Nat) :=
  (s.moveBytes j n).2.putBytes j.dst ((s.moveBytes j n).1.take m)

/-- The end of a MOVE whose bytes have been stored, with what the store answered. -/
def moveEnd (d : State × Option (Nat × Nat)) (j : MoveJob) (n : Nat) : State :=
  match d.2 with
  | some f => d.1.moveAbort j f.2
  | none =>
    if n < j.len then d.1.moveUnmapped j n
    else
      let z := if hostBase ≤ j.src then (d.1, none) else d.1.store j.src (List.replicate j.len 0) true
      match z.2 with
      | some f => z.1.moveAbort j f.2
      | none => z.1.reply j.tag j.epoch 1 0 []

section
variable {j : MoveJob} {n : Nat}

/-- Bytes of the source that cannot be read end the copy there. -/
theorem moveCopy_unread {f : Nat × Nat} (hc : (s.moveRead j n).2 = some f) :
    s.moveCopy j n = (s.movePut j n (f.1 - j.src)).1.moveAbort j f.2 := by
  have hread : (if hostBase ≤ j.src then (s, none) else s.load j.src n true .ok) = s.moveRead j n := rfl
  unfold State.moveCopy
  dsimp only
  rw [hread, hc]
  rfl

/-- Where all bytes are read, the destination and the reach of the tape unit decide. -/
theorem moveCopy_read (hc : (s.moveRead j n).2 = none) : s.moveCopy j n = moveEnd (s.movePut j n n) j n := by
  have hread : (if hostBase ≤ j.src then (s, none) else s.load j.src n true .ok) = s.moveRead j n := rfl
  unfold State.moveCopy
  dsimp only
  rw [hread, hc]
  generalize hput : State.putBytes _ j.dst _ = d
  have hd : s.movePut j n n = d := hput
  rw [hd]
  obtain ⟨u, o⟩ := d
  cases o with
  | none => rfl
  | some f => rfl

end

section
variable {d : State × Option (Nat × Nat)} {j : MoveJob} {n : Nat}

/-- A destination that may not be written ends the MOVE. -/
theorem moveEnd_refused {f : Nat × Nat} (h : d.2 = some f) : moveEnd d j n = d.1.moveAbort j f.2 := by
  rw [moveEnd, h]

/-- A range that the tape unit does not reach ends the MOVE. -/
theorem moveEnd_short (h : d.2 = none) (hn : n < j.len) : moveEnd d j n = d.1.moveUnmapped j n := by
  rw [moveEnd, h]
  exact if_pos hn

/-- A source of the host stays as it is. -/
theorem moveEnd_host (h : d.2 = none) (hn : n = j.len) (hs : hostBase ≤ j.src) :
    moveEnd d j n = d.1.reply j.tag j.epoch 1 0 [] := by
  rw [moveEnd, h]
  dsimp only
  rw [if_neg (Nat.not_lt.2 hn.ge), if_pos hs]

/-- A source that the module holds becomes zero. -/
theorem moveEnd_module (h : d.2 = none) (hn : n = j.len) (hs : j.src < hostBase) :
    moveEnd d j n = match (d.1.store j.src (List.replicate j.len 0) true).2 with
      | some f => (d.1.store j.src (List.replicate j.len 0) true).1.moveAbort j f.2
      | none => (d.1.store j.src (List.replicate j.len 0) true).1.reply j.tag j.epoch 1 0 [] := by
  rw [moveEnd, h]
  dsimp only
  rw [if_neg (Nat.not_lt.2 hn.ge), if_neg (Nat.not_le.2 hs)]

end

end Sys2Proof.Machine
end

section
/-! PROOFS. The obligation on scrubbing, rows, classes and MOVE (spec/08_memory_system.md R259 to R268, R278, R279). -/

namespace Sys2Proof.Machine

variable {s : State}

/-! ### Commands in the cases of the obligation -/

theorem exec_moveDone_eq {j : MoveJob} (h : s.mem.move = some j) : exec .moveDone s
    = .next (State.moveCopy { s with mem := { s.mem with move := none } } j
      (min (s.moveReach j.src j.len) (s.moveReach j.dst j.len))) := by
  show execMoveDone s = _
  rw [execMoveDone, h]
  rfl

theorem exec_channelFail_ok {ch : Nat} (hch : ch < 96) (h : s.chOk ch = true) : exec (.channelFail ch) s
    = .next ((s.set (R.MC_STATUS_CH_OK (ch / 4)) (s.get (R.MC_STATUS_CH_OK (ch / 4)) - 2 ^ (ch % 4))).raise Code.MEM_CH_FAIL
      (0xC00 + ch / 4) ch 0) := if_pos (by simp [hch, h])

section
variable {ch : Nat} {u : State}

/-- A scrub read of a channel in service that is to be scrubbed. -/
theorem scrubs_of (hch : ch < 96) (hen : u.flag (R.MC_CFG_SCRUB_EN (ch / 4)) = true) (hok : u.chOk ch = true) :
    (decide (ch < 96) && u.flag (R.MC_CFG_SCRUB_EN (ch / 4)) && u.chOk ch) = true := by simp [hch, hen, hok]

theorem scrubs_not (h : u.flag (R.MC_CFG_SCRUB_EN (ch / 4)) = false ∨ u.chOk ch = false) :
    ¬ (decide (ch < 96) && u.flag (R.MC_CFG_SCRUB_EN (ch / 4)) && u.chOk ch) = true := by
  rw [Bool.and_eq_true, Bool.and_eq_true]
  rintro ⟨⟨-, hen⟩, hok⟩
  rcases h with h | h
  · exact absurd hen (ne_true_of_eq_false h)
  · exact absurd hok (ne_true_of_eq_false h)

end

/-- The granules of a remapped row that are bad are poisoned, and those poisoned before stay so. -/
theorem mem_poison_rowTaken {ch bank row g : Nat} {bad : List Nat} {r : RowCount} :
    g ∈ (s.rowTaken ch bank row bad r).mem.poison
      ↔ (g ∈ bad ∧ chanOf g = ch ∧ bankOf g = bank ∧ rowOf g = row) ∨ g ∈ s.mem.poison := by
  simp [State.rowTaken, and_assoc]

/-! ### How far the tape unit reaches -/

theorem moveReach_module {a n : Nat} (h : a < lnEnd) : s.moveReach a n = n := if_pos h

theorem moveReach_none {a n : Nat} (hlo : lnEnd ≤ a) (hhi : a < hostBase) : s.moveReach a n = 0 := by
  rw [State.moveReach, if_neg (Nat.not_lt.2 hlo), if_pos hhi]

theorem moveReach_host {a n : Nat} (ha : hostBase ≤ a) (h : s.hostPhys a + n ≤ 2 ^ 64) : s.moveReach a n = n := by
  have hln : lnEnd ≤ hostBase := by decide
  rw [State.moveReach, if_neg (Nat.not_lt.2 (hln.trans ha)), if_neg (Nat.not_lt.2 ha)]
  exact Nat.min_eq_left (Nat.le_sub_of_add_le' h)

/-! ### The obligation -/

/-- Settles O20: each clause is the equation of its command, or of the operation it names, in the case named. -/
theorem scrubbingRemappingClassesAndMoves : Obligations.ScrubbingRemappingClassesAndMoves := by
  unfold Obligations.ScrubbingRemappingClassesAndMoves
  refine ⟨fun ch c hch _ => granAt_inverse hch, ?check, worseOf_cases, ?corrected, ?place, ?scrub, ?row, ?channel, ?setClass,
    fun l base size cls _ => mem_reclass l base size cls, ?fillEnd, ?move, ?moveDone,
    fun a n s => ⟨moveReach_module, moveReach_none, moveReach_host⟩, ?put⟩
  case check =>
    intro g e r s
    dsimp only
    rw [checkRead_one]
    refine ⟨checkGran_poisoned, fun hp => ?_⟩
    have hgran : s.checkGran g e r = _ := checkGran_found hp
    refine ⟨fun hf => ?_, fun hf => ?_, fun hf => ⟨?_, mem_poison_memUe s g r⟩⟩
    · rw [hgran, hf]
    · rw [hgran, hf]
    · rw [hgran, hf]
  case corrected =>
    intro g s d told
    exact ⟨memCe_crc, memCe_channel, memCe_elsewhere⟩
  case place =>
    intro g s
    refine ⟨fun x hx => ?_, fun hx => ⟨placeOf_remap hx, placeOf_channel hx⟩⟩
    rw [placeOf_line hx]
    exact ⟨rfl, rfl⟩
  case scrub =>
    intro ch e l s s1 c t
    exact ⟨fun hch hen hok => if_pos (scrubs_of (u := s1) hch hen hok), fun h => if_neg (scrubs_not (u := s1) h)⟩
  case row =>
    intro ch bank row bad r s hrow hch hen hth left
    rw [exec_rowRemap_eq hrow hen hth]
    refine ⟨fun h0 => if_pos h0, fun h0 h256 hroom => ?_⟩
    have hmem := rowRemapped_mem s ch bank row bad r
    have hth := rowRemapped_th s ch bank row bad r
    obtain ⟨x, hx, hlen⟩ := addRepair_recorded (s := s.rowRemapped ch bank row bad r) (hth ▸ hroom)
      ⟨1, 0, ch / 4, ch % 4 * 2 ^ 30 + bank * 2 ^ 26 + row * 2 ^ 8, 0, 1⟩
    refine ⟨{ s.rowRemapped ch bank row bad r with th := x }, (if_neg h0.ne').trans (congrArg go hx), ?_,
      get_showRemap _ ch bank row h256, congrArg MemSys.remaps hmem, congrArg MemSys.rows hmem,
      hlen.trans (congrArg (·.repairs.length + 1) hth), (congrArg MemSys.data hmem :), fun g hg hc hb hr => ?_,
      fun g hg => ?_, fun g hc hb hr hl h1 h2 h3 => ?_⟩
    · exact ((rowRemapped_only s ch bank row bad r).mono (by simp)).trans ((th_only _ x).mono (by simp))
    · exact mem_poison_rowTaken.2 (.inl ⟨hg, hc, hb, hr⟩)
    · exact mem_poison_rowTaken.2 (.inr hg)
    · refine placeOf_remap hl ⟨r, List.mem_append_right _ List.mem_cons_self, ?_⟩
      exact ⟨h1.trans hc.symm, h2.trans hb.symm, h3.trans hr.symm⟩
  case channel =>
    intro ch s hch hok t
    exact ⟨exec_channelFail_ok hch hok, chOk_cleared hok⟩
  case setClass =>
    intro tag c s hs hc t a size cls
    refine ⟨fun code => exec_setClass_refused hs hc, fun hnone => ?_⟩
    obtain ⟨hsize, ha⟩ := classRefusal_none hnone
    refine ⟨_, exec_setClass_accepted hs hc hnone, ?_, reclassed_exts t .., ha, Nat.pos_of_ne_zero hsize,
      fun x => reclassed_zero ha, fun g => reclassed_poison ha, reclassed_fill, fun n hn => get_setFilling hn _ true⟩
    exact (((s.takeCmd_only c).mono (by simp)).trans ((mem_only t _).mono (by simp))).trans
      ((setFilling_only _ true).mono (by simp))
  case fillEnd =>
    intro f l s h rest t
    rw [exec_classFillEnd_eq h]
    refine ⟨fun hf => ?_, fun tag ep hf => ?_⟩
    · rw [hf]
      rfl
    · rw [hf]
      rfl
  case move =>
    intro tag hostData c s hs hm hc t a b n
    rw [exec_move_eq hs hm hc]
    refine ⟨fun h => congrArg _ (if_pos h), fun h hbad => congrArg _ ?_, fun h hok => congrArg _ ?_⟩
    · exact (if_neg h).trans (if_pos hbad)
    · exact (if_neg h).trans (if_neg (ne_true_of_eq_false hok))
  case moveDone =>
    intro j s h t n c src r d z
    rw [exec_moveDone_eq h]
    have hread (hc : c.2 = none) : t.moveCopy j n = moveEnd d j n := by
      have hput : t.movePut j n n = d := rfl
      rw [← hput]
      exact moveCopy_read hc
    refine ⟨fun hc hd hn hs => congrArg _ ?_, fun hc hd hn hs => ⟨fun hz => congrArg _ ?_, fun f hz => congrArg _ ?_⟩,
      fun f hc => congrArg _ (moveCopy_unread hc), fun f hc hd => congrArg _ ?_, fun hc hd hn => congrArg _ ?_⟩
    · exact (hread hc).trans (moveEnd_host hd hn hs)
    · exact ((hread hc).trans (moveEnd_module hd hn hs)).trans (by rw [show (d.1.store _ _ _).2 = none from hz])
    · exact ((hread hc).trans (moveEnd_module hd hn hs)).trans (by rw [show (d.1.store _ _ _).2 = some f from hz])
    · exact (hread hc).trans (moveEnd_refused hd)
    · exact (hread hc).trans (moveEnd_short hd hn)
  case put =>
    intro a b s ha
    have hput : s.putBytes a b = (s.busWrite (s.hostPhys a) b, none) := if_pos ha
    rw [hput]
    exact ⟨rfl, rfl⟩

end Sys2Proof.Machine
end

section
/-! PROOFS. Laws of a tile's bobbins, and the control words of a bobbin (spec/09_bobbin_streams.md R288 to R291,
Table 9.3). -/

namespace Sys2Proof.Machine

/-! ### A bobbin put back -/

variable {b : Nat}

@[simp] theorem Tile.get_setBob (x : Tile) (b : Nat) (v : Bob) (f : Fld) : (x.setBob b v).get f = x.get f :=
  congrArg (rfGet · f) (x.setBob_frame b v).1

@[simp] theorem Tile.bpc_setBob (x : Tile) (b : Nat) (v : Bob) (c : Nat) : (x.setBob b v).bpc c = x.bpc c := x.get_setBob b v _

@[simp] theorem Tile.spad_setBob (x : Tile) (b : Nat) (v : Bob) : (x.setBob b v).spad = x.spad := by
  unfold Tile.setBob
  split <;> rfl

theorem Tile.bob_setBob_other (x : Tile) (hb : b < 2) (v : Bob) : (x.setBob b v).bob (1 - b) = x.bob (1 - b) := by
  rcases (by omega : b = 0 ∨ b = 1) with rfl | rfl <;> rfl

/-! ### The status of a bobbin (spec/09_bobbin_streams.md Table 9.10) -/

@[simp] theorem Tile.bob_setBobState (x : Tile) (b v c : Nat) : (x.setBobState b v).bob c = x.bob c := by
  unfold Tile.setBobState
  split <;> rfl

@[simp] theorem Tile.spad_setBobState (x : Tile) (b v : Nat) : (x.setBobState b v).spad = x.spad := by
  unfold Tile.setBobState
  split <;> rfl

/-- Of the registers, setting the state sets the state. -/
theorem Tile.regs_setBobState (x : Tile) (b v : Nat) : (x.setBobState b v).regs = (x.set (T.BOB_STAT_STATE b) v).regs := by
  unfold Tile.setBobState
  split <;> rfl

@[simp] theorem Tile.get_setBobState_same (x : Tile) (b v : Nat) : (x.setBobState b v).get (T.BOB_STAT_STATE b) = v % 8 := by
  rw [Tile.get, Tile.regs_setBobState]
  exact Tile.get_set_same x _ v

theorem Tile.get_setBobState_other (x : Tile) (b v : Nat) {f : Fld} (h : f.key ≠ (T.BOB_STAT_STATE b).key) :
    (x.setBobState b v).get f = x.get f := by
  rw [Tile.get, Tile.regs_setBobState]
  exact x.get_set_other v h

/-- The program counter and the state lie in one register, at bits apart. -/
@[simp] theorem Tile.bpc_setBobState (x : Tile) (b v : Nat) : (x.setBobState b v).bpc b = x.bpc b :=
  x.get_setBobState_other b v fun hk => absurd (Nat.add_left_cancel hk) (by simp [T.BOB_STAT_PC, T.BOB_STAT_STATE])

/-! ### Going on at a word -/

@[simp] theorem Tile.bob_bgoto (x : Tile) (b pc c : Nat) : (x.bgoto b pc).bob c = x.bob c := Tile.bob_setBobState _ _ _ _

@[simp] theorem Tile.spad_bgoto (x : Tile) (b pc : Nat) : (x.bgoto b pc).spad = x.spad := Tile.spad_setBobState _ _ _

@[simp] theorem Tile.bpc_bgoto (x : Tile) (b pc : Nat) : (x.bgoto b pc).bpc b = pc % 128 :=
  (Tile.bpc_setBobState _ _ _).trans (Tile.get_set_same _ _ _)

@[simp] theorem Tile.state_bgoto (x : Tile) (b pc : Nat) : (x.bgoto b pc).get (T.BOB_STAT_STATE b) = 1 :=
  Tile.get_setBobState_same _ _ _

theorem Tile.get_bgoto_other (x : Tile) (b pc : Nat) {f : Fld} (hs : f.key ≠ (T.BOB_STAT_STATE b).key)
    (hp : f.key ≠ (T.BOB_STAT_PC b).key) : (x.bgoto b pc).get f = x.get f :=
  (Tile.get_setBobState_other _ _ _ hs).trans (x.get_set_other _ hp)

/-- Going on with the next word, the bobbin keeps all but its transfer in progress. -/
@[simp] theorem Tile.bob_bnext (x : Tile) (b : Nat) : (x.bnext b).bob b = { x.bob b with prog := 0, seed := none } :=
  (Tile.bob_bgoto _ _ _ _).trans (Tile.bob_setBob_same _ _ _)

@[simp] theorem Tile.bpc_bnext (x : Tile) (b : Nat) : (x.bnext b).bpc b = (x.bpc b + 1) % 128 := Tile.bpc_bgoto _ _ _

@[simp] theorem Tile.spad_bnext (x : Tile) (b : Nat) : (x.bnext b).spad = x.spad :=
  (Tile.spad_bgoto _ _ _).trans (Tile.spad_setBob _ _ _)

theorem Tile.get_bnext_other (x : Tile) (b : Nat) {f : Fld} (hs : f.key ≠ (T.BOB_STAT_STATE b).key)
    (hp : f.key ≠ (T.BOB_STAT_PC b).key) : (x.bnext b).get f = x.get f :=
  (Tile.get_bgoto_other _ _ _ hs hp).trans (x.get_setBob _ _ _)

/-! ### What an executed word leaves -/

/-- A state in which bobbin `b` of tile `t` goes on at a word: no other tile has changed, nor has the tile's scratchpad or
its other bobbin. -/
def State.BobGoesOn (s : State) (t b pc : Nat) (u : State) : Prop :=
  OnlyTile t s u ∧ (u.tile t).bpc b = pc % 128 ∧ (u.tile t).get (T.BOB_STAT_STATE b) = 1
    ∧ (u.tile t).spad = (s.tile t).spad ∧ (u.tile t).bob (1 - b) = (s.tile t).bob (1 - b)

variable {t : Nat} {s : State}

theorem bobGoesOn_bgoto {y : Tile} (hs : y.spad = (s.tile t).spad) (ho : y.bob (1 - b) = (s.tile t).bob (1 - b)) (pc : Nat) :
    s.BobGoesOn t b pc (s.setTile t (y.bgoto b pc)) := by
  refine ⟨setTile_onlyTile s t _, ?_⟩
  rw [State.tile_setTile_same]
  exact ⟨y.bpc_bgoto b pc, y.state_bgoto b pc, (y.spad_bgoto b pc).trans hs, (y.bob_bgoto b pc _).trans ho⟩

/-- With the bobbin changed as well. -/
theorem bobGoesOn_setBob (hb : b < 2) (v : Bob) (pc : Nat) :
    s.BobGoesOn t b pc (s.setTile t (((s.tile t).setBob b v).bgoto b pc)) :=
  bobGoesOn_bgoto (Tile.spad_setBob _ _ _) (Tile.bob_setBob_other _ hb v) pc

theorem bobGoesOn_bnext (hb : b < 2) : s.BobGoesOn t b ((s.tile t).bpc b + 1) (s.setTile t ((s.tile t).bnext b)) :=
  bobGoesOn_setBob hb _ _

/-- The next word, with the bobbin changed before. -/
theorem bobGoesOn_setBob_bnext (hb : b < 2) (v : Bob) :
    s.BobGoesOn t b ((s.tile t).bpc b + 1) (s.setTile t (((s.tile t).setBob b v).bnext b)) := by
  rw [← Tile.bpc_setBob (s.tile t) b v b]
  exact bobGoesOn_bgoto ((Tile.spad_setBob _ _ _).trans (Tile.spad_setBob _ _ _))
    ((Tile.bob_setBob_other _ hb _).trans (Tile.bob_setBob_other _ hb v)) _

/-- The bobbin after the next word. -/
theorem tile_setBob_bnext (s : State) (t b : Nat) (v : Bob) :
    ((s.setTile t (((s.tile t).setBob b v).bnext b)).tile t).bob b = { v with prog := 0, seed := none } := by
  rw [State.tile_setTile_same, Tile.bob_bnext, Tile.bob_setBob_same]

theorem tile_setBob_bgoto (s : State) (t b : Nat) (v : Bob) (pc : Nat) :
    ((s.setTile t (((s.tile t).setBob b v).bgoto b pc)).tile t).bob b = v := by
  rw [State.tile_setTile_same, Tile.bob_bgoto, Tile.bob_setBob_same]

theorem lt_two_of_bobRuns {op : Nat} (h : s.bobRuns t b op = true) : b < 2 := by
  simp only [State.bobRuns, Bool.and_eq_true, decide_eq_true_eq] at h
  obtain ⟨⟨⟨⟨⟨-, hb⟩, -⟩, -⟩, -⟩, -⟩ := h
  exact hb

/-! ### One equation per control word -/

theorem exec_bobEnd_ends (h : s.bobRuns t b 0x00 = true) (hr : ((s.tile t).bob b).reqs = [])
    (hp : ((s.tile t).bob b).pubs = 0) : exec (.bobEnd t b) s = .next (s.setTile t
      (((s.tile t).setBob b { (s.tile t).bob b with run := false, loops := [], prog := 0 }).setBobState b 0)) :=
  (if_pos h).trans (if_pos (by simp [hr, hp]))

theorem exec_bobEnd_waits (h : s.bobRuns t b 0x00 = true)
    (hw : ((s.tile t).bob b).reqs ≠ [] ∨ ((s.tile t).bob b).pubs ≠ 0) :
    exec (.bobEnd t b) s = .next (s.setTile t ((s.tile t).setBobState b 5)) :=
  (if_pos h).trans (if_neg (by simpa [imp_iff_not_or] using hw))

/-- The iterations of a `LOOP` word. -/
def Tile.bobLoopCount (x : Tile) (w : Nat) : Nat :=
  if bit w 57 then dlCount (x.dls.getD (bits w 55 2) 0) (bits w 39 16) else bits w 39 16

theorem exec_bobLoop_skips (h : s.bobRuns t b 0x01 = true)
    (h0 : (s.tile t).bobLoopCount ((s.tile t).bword ((s.tile t).bpc b)) = 0) : exec (.bobLoop t b) s
    = .next (s.setTile t ((s.tile t).bgoto b ((s.tile t).afterEndl 128 ((s.tile t).bpc b + 1) 1))) :=
  (if_pos h).trans (if_pos h0)

theorem exec_bobLoop_opens (h : s.bobRuns t b 0x01 = true)
    (h0 : (s.tile t).bobLoopCount ((s.tile t).bword ((s.tile t).bpc b)) ≠ 0) :
    let v := (s.tile t).bob b
    let w := (s.tile t).bword ((s.tile t).bpc b)
    exec (.bobLoop t b) s = .next (s.setTile t (((s.tile t).setBob b { v with loops := ⟨(s.tile t).bpc b + 1,
      (s.tile t).bobLoopCount w, 0, signed (bits w 19 20) 20, signed (bits w 0 19) 19, v.a0, v.a1⟩ :: v.loops }).bnext b)) :=
  (if_pos h).trans (if_neg h0)

section
variable {l : BobLoop}

theorem exec_endl_again {ls : List BobLoop} (h : s.bobRuns t b 0x02 = true) (hl : ((s.tile t).bob b).loops = l :: ls)
    (hn : 1 < l.left) :
    exec (.endl t b) s = .next (s.setTile t (((s.tile t).setBob b { (s.tile t).bob b with
      a0 := addrAdd ((s.tile t).bob b).a0 (l.s0 * 16), a1 := addrAdd ((s.tile t).bob b).a1 (l.s1 * 16)
      loops := { l with left := l.left - 1, index := l.index + 1 } :: ls }).bgoto b l.start)) := by
  refine (if_pos h).trans ?_
  dsimp only
  rw [hl]
  exact if_pos hn

theorem exec_endl_ends {ls : List BobLoop} (h : s.bobRuns t b 0x02 = true) (hl : ((s.tile t).bob b).loops = l :: ls)
    (hn : l.left ≤ 1) :
    exec (.endl t b) s = .next (s.setTile t (((s.tile t).setBob b
      { (s.tile t).bob b with a0 := l.a0, a1 := l.a1, loops := ls }).bnext b)) := by
  refine (if_pos h).trans ?_
  dsimp only
  rw [hl]
  exact if_neg (Nat.not_lt.2 hn)

/-- `SKIPDL` on a loop that is open: it is left once its index times the unit reaches the length. -/
theorem exec_skipdl_open (h : s.bobRuns t b 0x03 = true)
    (hl : ((s.tile t).bob b).loops[bits ((s.tile t).bword ((s.tile t).bpc b)) 55 3]? = some l) :
    let w := (s.tile t).bword ((s.tile t).bpc b)
    exec (.skipdl t b) s = .next (if (s.tile t).dls.getD (bits w 53 2) 0 ≤ l.index * bits w 37 16 then
      s.setTile t (((s.tile t).setBob b { (s.tile t).bob b with
        a0 := l.a0, a1 := l.a1, loops := ((s.tile t).bob b).loops.drop (bits w 55 3 + 1) }).bgoto b
          ((s.tile t).afterEndl 128 ((s.tile t).bpc b + 1) (bits w 55 3 + 1)))
      else s.setTile t ((s.tile t).bnext b)) := by
  intro w
  refine (if_pos h).trans ?_
  dsimp only
  rw [hl]
  exact (apply_ite _ _ _ _).symm

end

theorem exec_wait_over (h : s.bobRuns t b 0x0F = true) (hr : ((s.tile t).bob b).reqs = []) :
    exec (.wait t b) s = .next (s.setTile t ((s.tile t).bnext b)) :=
  (if_pos h).trans (if_pos (List.isEmpty_iff.2 hr))

theorem exec_wait_waits (h : s.bobRuns t b 0x0F = true) (hr : ((s.tile t).bob b).reqs ≠ []) :
    exec (.wait t b) s = .next (s.setTile t ((s.tile t).setBobState b 3)) :=
  (if_pos h).trans (if_neg (mt List.isEmpty_iff.1 hr))

/-! ### The obligation -/

/-- Settles O22: each word is one equation, and what a word leaves is read off the tile that is put back. -/
theorem bobbinControlWords : Obligations.BobbinControlWords := by
  intro t b s x v w at_ after
  refine ⟨fun h => ⟨fun hr hp => ?ends, fun hw => ?waits⟩, fun h => ⟨fun h0 => ?opens, fun h0 => ?skips⟩,
    fun l ls h hl => ⟨fun hn => ?again, fun hn => ?leaves⟩, fun l h hl => ⟨fun hn => ?skipped, fun hn => ?stays⟩,
    fun h => ?seta, fun h => ?adda, fun h => ?seti, fun h => ⟨fun hr => ?completed, fun hr => ?outstanding⟩⟩
  case ends =>
    refine ⟨_, exec_bobEnd_ends h hr hp, setTile_onlyTile _ _ _, ?_⟩
    simp [after]
  case waits =>
    refine ⟨_, exec_bobEnd_waits h hw, setTile_onlyTile _ _ _, ?_⟩
    simp [after, v, x]
  case opens =>
    refine ⟨_, exec_bobLoop_opens h h0, bobGoesOn_setBob_bnext (lt_two_of_bobRuns h) _, ?_⟩
    simp [after, tile_setBob_bnext, Tile.bobLoopCount, v, x, w]
  case skips =>
    refine ⟨_, exec_bobLoop_skips h h0, bobGoesOn_bgoto rfl rfl _, ?_⟩
    simp [after, v, x]
  case again =>
    refine ⟨_, exec_endl_again h hl hn, bobGoesOn_setBob (lt_two_of_bobRuns h) _ _, ?_⟩
    simp [after, tile_setBob_bgoto, v, x]
  case leaves =>
    refine ⟨_, exec_endl_ends h hl hn, bobGoesOn_setBob_bnext (lt_two_of_bobRuns h) _, ?_⟩
    simp [after, tile_setBob_bnext, v, x]
  case skipped =>
    refine ⟨_, (exec_skipdl_open h hl).trans (congrArg _ (if_pos hn)),
      bobGoesOn_setBob (lt_two_of_bobRuns h) _ _, ?_⟩
    simp [after, tile_setBob_bgoto, v, x, w]
  case stays =>
    refine ⟨_, (exec_skipdl_open h hl).trans (congrArg _ (if_neg (Nat.not_le.2 hn))),
      bobGoesOn_bnext (lt_two_of_bobRuns h), ?_⟩
    simp [after, v, x]
  case seta => exact ⟨_, if_pos h, bobGoesOn_setBob_bnext (lt_two_of_bobRuns h) _, tile_setBob_bnext s t b _⟩
  case adda => exact ⟨_, if_pos h, bobGoesOn_setBob_bnext (lt_two_of_bobRuns h) _, tile_setBob_bnext s t b _⟩
  case seti => exact ⟨_, if_pos h, bobGoesOn_setBob_bnext (lt_two_of_bobRuns h) _, tile_setBob_bnext s t b _⟩
  case completed =>
    refine ⟨_, exec_wait_over h hr, bobGoesOn_bnext (lt_two_of_bobRuns h), ?_⟩
    simp [after, v, x]
  case outstanding =>
    refine ⟨_, exec_wait_waits h hr, setTile_onlyTile _ _ _, ?_⟩
    simp [after, v, x]

end Sys2Proof.Machine
end

section
/-! PROOFS. Transfers of a bobbin and their requests, its ring positions and its tokens (spec/09_bobbin_streams.md R292 to
R302). -/

namespace Sys2Proof.Machine

variable {t b : Nat} {s : State}

/-! ### A transfer carried on (spec/09_bobbin_streams.md R296 to R299) -/

section
variable {f : Xfer} {k : Nat}

theorem carry_ended (h : segAt f.segs ((s.tile t).bob b).prog = none) :
    s.carry t b f (k + 1) = s.setTile t ((s.tile t).bnext b) := by
  simp only [State.carry, h]
  rfl

variable {g : Seg} {o : Nat} (hg : segAt f.segs ((s.tile t).bob b).prog = some (g, o))
include hg

theorem carry_idled (hi : s.idled = true) : s.carry t b f (k + 1) = s := by
  simp [State.carry, hg, hi]

variable (hi : s.idled = false)
include hi

theorem carry_full (hf : ((s.tile t).bob b).freeIdx = none) :
    s.carry t b f (k + 1) = s.setTile t (((s.tile t).bump (T.BOB_FULL b) 1).setBobState b 3) := by
  simp only [State.carry, hg, hi, hf, Bool.false_eq_true, if_false]
  rfl

variable {i : Nat} (hf : ((s.tile t).bob b).freeIdx = some i)
include hf

/-- At an address in no unit. -/
theorem carry_nowhere (hu : s.reqUnit (g.addr + o) = none) :
    s.carry t b f (k + 1) = if s.permitted (s.tile t).gen (b2n f.wr) (g.addr + o) 1 then
      (s.unmapped t b (g.addr + o)).bobFault t b Code.BOB_ABORTED i else s.bobFault t b Code.BOB_REGION i := by
  simp only [State.carry, hg, hi, hf, hu, Bool.false_eq_true, if_false]

/-- In a unit. -/
theorem carry_unit {m target : Nat} (hu : s.reqUnit (g.addr + o) = some (m, target)) :
    s.carry t b f (k + 1) = if s.permitted (s.tile t).gen (b2n f.wr) (g.addr + o) (min (min m (g.len - o)) 256) then
      (s.issueReq t b i f g o (min (min m (g.len - o)) 256) target).carry t b f k
      else s.bobFault t b Code.BOB_REGION i := by
  simp only [State.carry, hg, hi, hf, hu, Bool.false_eq_true, if_false]

end

/-! ### Requests put into the mesh (spec/09_bobbin_streams.md R296, Table 9.5) -/

theorem hDest_mkHdr (f : HdrF) : hDest (mkHdr f) = f.dest % 4096 := by
  have hcrc (hi : Nat) : hdrCrc hi < 256 := crc8_lt _
  have hb : b2n f.basted < 2 := by cases f.basted <;> decide
  unfold hDest mkHdr bits
  extract_lets hi
  have h8 := hcrc hi
  generalize hdrCrc hi = c at h8 ⊢
  rw [BitVec.toNat_ofNat]
  omega

/-- Tokens that an agent of a tile sends join the mesh there, in order. -/
theorem injectAll_net (s : State) (t : Nat) (toks : List Token) :
    ∃ l, (s.injectAll t toks).net = s.net ++ l ∧ l.map NetTok.tok = toks ∧ ∀ m ∈ l, m.r = t := by
  induction toks generalizing s with
  | nil => exact ⟨[], (List.append_nil _).symm, rfl, by simp⟩
  | cons k toks ih =>
    obtain ⟨l, hnet, htok, hr⟩ := ih (s.inject t k none)
    refine ⟨⟨t, .out, false, k, s.attOf t (hDest k.hdr) none, none⟩ :: l, ?_, ?_, ?_⟩
    · exact hnet.trans (List.append_assoc _ [_] l)
    · rw [List.map_cons, htok]
    · simpa using hr

theorem length_reqToks (x : Tile) (t b target p0 p1 : Nat) (data : List Byte) :
    (x.reqToks t b target p0 p1 data).length = 1 + ceilDiv data.length 64 := by
  simp [Tile.reqToks, Nat.add_comm]

theorem hDest_of_mem_reqToks {x : Tile} {target p0 p1 : Nat} {data : List Byte} {k : Token}
    (h : k ∈ x.reqToks t b target p0 p1 data) : hDest k.hdr = target % 4096 := by
  rcases List.mem_cons.1 h with rfl | h
  · exact hDest_mkHdr _
  · obtain ⟨j, -, rfl⟩ := List.mem_map.1 h
    exact hDest_mkHdr _

@[simp] theorem Tile.bob_onBob_same (x : Tile) (b : Nat) (f : Bob → Bob) : (x.onBob b f).bob b = f (x.bob b) :=
  Tile.bob_setBob_same _ _ _

/-- The tile of a bobbin that has issued a request. -/
theorem tile_issueReq (s : State) (t b i : Nat) (f : Xfer) (g : Seg) (o n target : Nat) :
    (((s.issueReq t b i f g o n target).tile t).bob b).reqs = ((s.tile t).bob b).reqs ++ [⟨i, f.wr, target, g.addr + o, n,
        g.spad + o, f.pos, if f.wr then [0] else List.range (ceilDiv n 64),
        if target = 0xC30 then s.hostPhys (g.addr + o) else 0⟩]
      ∧ (((s.issueReq t b i f g o n target).tile t).bob b).prog = ((s.tile t).bob b).prog + n
      ∧ ∀ j, j ≠ t → (s.issueReq t b i f g o n target).tile j = s.tile j := by
  simp only [State.issueReq, tile_of_only (State.injectAll_only _ _ _) (by simp : Part.tiles ∉ [Part.net]),
    State.tile_setTile_same, Tile.bobOutst, Tile.bob_set]
  have hbump (y : Tile) : (y.bump (T.BOB_REQ b) 1).bob b = y.bob b := rfl
  rw [hbump, Tile.bob_onBob_same]
  exact ⟨rfl, rfl, fun j hj => State.tile_setTile_other _ _ _ _ hj⟩

theorem issueReq_only (s : State) (t b i : Nat) (f : Xfer) (g : Seg) (o n target : Nat) :
    Only [.tiles, .net] s (s.issueReq t b i f g o n target) :=
  ((s.onTile_only t fun _ => _).mono (by simp)).trans ((State.injectAll_only _ _ _).mono (by simp))

/-- The tokens of a request: one, and for a store its data. -/
theorem net_issueReq (s : State) (t b i : Nat) (f : Xfer) (g : Seg) (o n target : Nat) :
    ∃ l, (s.issueReq t b i f g o n target).net = s.net ++ l
      ∧ l.length = 1 + (if f.wr then ceilDiv ((g.data.drop o).take n).length 64 else 0)
      ∧ ∀ m ∈ l, m.r = t ∧ hDest m.tok.hdr = target % 4096 := by
  unfold State.issueReq
  extract_lets x a data p0 p1 toks left r y
  obtain ⟨l, hnet, htok, hr⟩ := injectAll_net (s.setTile t ((y.bump (T.BOB_REQ b) 1).bobOutst b)) t toks
  refine ⟨l, hnet, ?_, fun m hm => ⟨hr m hm, hDest_of_mem_reqToks (htok ▸ List.mem_map_of_mem hm)⟩⟩
  rw [← List.length_map (f := NetTok.tok), htok, length_reqToks]
  cases f.wr
  · simp [ceilDiv]
  · rfl

/-! ### A store from scratchpad bytes (spec/09_bobbin_streams.md R294, R302, spec/03_compute_tile.md R99) -/

/-- A range reads the bank in which it begins. -/
theorem readsBank_first {a n k : Nat} (h : a / 0x8000 = k) (hn : 0 < n) : readsBank [(a, n)] k = true := by
  simp [readsBank, overlaps]
  omega

theorem storeFrom_faults {a n w : Nat} {e : OpErr} {c k : Nat} (he : e ≠ .accParity)
    (h : (s.tile t).readFault [(a, n)] e = some (c, k)) :
    s.storeFrom t b a n w e = (s.abortStream t b).tileStop t c k := by
  simp only [State.storeFrom, if_neg he, h]

/-- The parts of a store that does not convert: its bytes, from the address register. -/
theorem storeSegs_plain {a n w : Nat} (h : bit w 30 = false) (s : State) :
    s.storeSegs t b a n w
      = ([⟨((s.tile t).bob b).getA (bit w 57), a, n, memReadN (s.tile t).spad a n⟩], {}, 0) := by
  simp [State.storeSegs, h]

theorem Bob.getA_seed (v : Bob) (p : Option (Nat × Nat)) (ar : Bool) : ({ v with seed := p } : Bob).getA ar = v.getA ar := by
  cases ar <;> rfl

theorem storeFrom_plain {a n w : Nat} (h : bit w 30 = false) : s.storeFrom t b a n w .none
    = (s.onTile t fun y => y.onBob b fun v => { v with seed := some (v.seed.getD s.seed) }).carry t b
        ⟨true, [⟨((s.tile t).bob b).getA (bit w 57), a, n, memReadN (s.tile t).spad a n⟩], none, bit w 31⟩ 64 := by
  simp only [State.storeFrom, Tile.readFault, State.readCorr, storeSegs_plain h, h, Bool.and_false, Bool.false_eq_true,
    if_false, reduceCtorEq, State.tile_onTile_same, Tile.bob_onBob_same, Bob.getA_seed]
  rw [Tile.onBob, Tile.spad_setBob]

/-! ### Slots published (spec/09_bobbin_streams.md R293) -/

/-- One slot published. -/
def Tile.publish1 (x : Tile) (b : Nat) : Tile :=
  ((x.set (T.RING_STAT_TAIL (x.bring b)) (x.get (T.RING_STAT_TAIL (x.bring b)) + 1)).untripOn (.ring (x.bring b) false)).onBob b
    fun v => { v with pubs := v.pubs - 1 }

theorem Tile.publish_succ (x : Tile) (b k : Nat) :
    x.publish b (k + 1) = x ∨ 0 < (x.bob b).pubs ∧ x.publish b (k + 1) = (x.publish1 b).publish b k := by
  rw [Tile.publish]
  split
  · next h =>
    rw [Bool.and_eq_true, decide_eq_true_eq] at h
    obtain ⟨hpubs, -⟩ := h
    exact .inr ⟨hpubs, rfl⟩
  · exact .inl rfl

theorem Tile.bob_publish1 (x : Tile) (b : Nat) : (x.publish1 b).bob b = { x.bob b with pubs := (x.bob b).pubs - 1 } :=
  Tile.bob_onBob_same _ _ _

/-- Of its bobbin and the scratchpad, publishing changes the number of slots that wait. -/
theorem Tile.publish_frame (x : Tile) (b k : Nat) : (x.publish b k).spad = x.spad
    ∧ ∃ n, n ≤ (x.bob b).pubs ∧ (x.publish b k).bob b = { x.bob b with pubs := n } := by
  induction k generalizing x with
  | zero => exact ⟨rfl, _, le_rfl, rfl⟩
  | succ k ih =>
    rcases x.publish_succ b k with h | ⟨-, h⟩
    · rw [h]
      exact ⟨rfl, _, le_rfl, rfl⟩
    · obtain ⟨hspad, n, hn, hbob⟩ := ih (x.publish1 b)
      rw [Tile.bob_publish1] at hn hbob
      rw [h]
      exact ⟨hspad.trans (Tile.spad_setBob _ _ _), n, hn.trans (Nat.sub_le _ _), hbob⟩

theorem Tile.get_publish1_other (x : Tile) (b : Nat) {f : Fld} (h : f.key ≠ (T.RING_STAT_TAIL (x.bring b)).key) :
    (x.publish1 b).get f = x.get f :=
  (Tile.get_setBob _ _ _ _).trans (x.get_set_other _ h)

theorem Tile.tail_publish1 (x : Tile) (b : Nat) :
    (x.publish1 b).get (T.RING_STAT_TAIL (x.bring b)) = (x.get (T.RING_STAT_TAIL (x.bring b)) + 1) % 0x10000 :=
  (Tile.get_setBob _ _ _ _).trans (x.get_set_same _ _)

/-- The registers of a bobbin lie above those of the rings. -/
theorem bobKey_ne_ringKey {r hi lo hi' lo' o b : Nat} (hr : r < 8) (ho : 0x100780 ≤ o) (hlo : lo < 64) :
    (⟨o + 0x20 * b, hi', lo'⟩ : Fld).key ≠ (⟨0x100048 + 0x10 * r, hi, lo⟩ : Fld).key := by
  simp only [Fld.key]
  omega

theorem Tile.bring_publish1 {x : Tile} (hr : x.bring b < 8) : (x.publish1 b).bring b = x.bring b :=
  x.get_publish1_other b (bobKey_ne_ringKey hr (by decide) (by decide))

/-- Slots leave the wait as the tail passes them. -/
theorem Tile.tail_publish {x : Tile} (k : Nat) (hr : x.bring b < 8) :
    ((x.publish b k).get (T.RING_STAT_TAIL (x.bring b)) + ((x.publish b k).bob b).pubs) % 0x10000
      = (x.get (T.RING_STAT_TAIL (x.bring b)) + (x.bob b).pubs) % 0x10000 := by
  induction k generalizing x with
  | zero => rfl
  | succ k ih =>
    rcases x.publish_succ b k with h | ⟨hpos, h⟩
    · rw [h]
    · have hrest := ih (x := x.publish1 b) ((Tile.bring_publish1 hr).symm ▸ hr)
      rw [Tile.bring_publish1 hr, Tile.bob_publish1, Tile.tail_publish1] at hrest
      rw [h, hrest]
      dsimp only
      omega

end Sys2Proof.Machine
end

section
/-! PROOFS. The obligation on the transfers of a bobbin, its ring positions and its tokens (spec/09_bobbin_streams.md R292 to
R302). -/

namespace Sys2Proof.Machine

variable {t b : Nat} {s : State}

/-! ### `PUB` and `REL` (spec/09_bobbin_streams.md R293, R294) -/

/-- The slots that a `PUB` or a `REL` names. -/
def Tile.bobSlots (x : Tile) (b : Nat) : Nat := bits (x.bword (x.bpc b)) 0 16

/-- Would a `PUB` fill slots past the ring's end? -/
def Tile.pubPast (x : Tile) (b : Nat) : Prop :=
  x.bobSlots b ≠ 0 ∧ x.get (T.RING_CFG_SLOTS (x.bring b))
    < ((x.bob b).fill + 0x10000 - x.get (T.RING_STAT_HEAD (x.bring b))) % 0x10000 + x.bobSlots b

theorem exec_pub_fault (h : s.bobRuns t b 0x0C = true)
    (hf : (s.tile t).pubPast b ∨ ((s.tile t).bobSlots b ≠ 0 ∧ (s.tile t).bobOwns b true = false)) :
    exec (.pub t b) s = .next (s.bobRingFault t b (0x8000 + (s.tile t).bring b)) := by
  refine (if_pos h).trans (if_pos ?_)
  rcases hf with ⟨hk, hp⟩ | ⟨hk, ho⟩
  · rw [Bool.and_eq_true, Bool.or_eq_true]
    exact ⟨decide_eq_true hk, .inr (decide_eq_true hp)⟩
  · rw [Bool.and_eq_true, Bool.or_eq_true, ho]
    exact ⟨decide_eq_true hk, .inl rfl⟩

/-- The tile with the fill position of a bobbin advanced. -/
def Tile.filled (x : Tile) (b : Nat) : Tile :=
  x.onBob b fun v => { v with fill := (v.fill + x.bobSlots b) % 0x10000, pubs := v.pubs + x.bobSlots b }

theorem exec_pub_advances (h : s.bobRuns t b 0x0C = true) (hp : ¬ (s.tile t).pubPast b)
    (ho : (s.tile t).bobSlots b = 0 ∨ (s.tile t).bobOwns b true = true) : exec (.pub t b) s
      = .next (s.setTile t ((((s.tile t).filled b).publish b ((s.tile t).bobSlots b)).bnext b)) := by
  refine (if_pos h).trans (if_neg ?_)
  rw [Bool.and_eq_true, Bool.or_eq_true]
  rintro ⟨hk, hf⟩
  have hk := of_decide_eq_true hk
  rcases hf with hf | hf
  · rw [ho.resolve_left hk] at hf
    exact Bool.false_ne_true hf
  · exact hp ⟨hk, of_decide_eq_true hf⟩

/-- What a `PUB` leaves of its tile: the fill position advanced, and the tail moved by the slots that wait no more. -/
theorem Tile.pub_leaves {x : Tile} (hr : x.bring b < 8) :
    let k := x.bobSlots b
    let y := ((x.filled b).publish b k).bnext b
    (y.bob b).fill = ((x.bob b).fill + k) % 0x10000 ∧ (y.bob b).pubs ≤ (x.bob b).pubs + k ∧ y.spad = x.spad
      ∧ (y.get (T.RING_STAT_TAIL (x.bring b)) + (y.bob b).pubs) % 0x10000
        = (x.get (T.RING_STAT_TAIL (x.bring b)) + (x.bob b).pubs + k) % 0x10000 := by
  intro k y
  have hbring : (x.filled b).bring b = x.bring b := x.get_setBob _ _ _
  obtain ⟨hspad, n, hn, hbob⟩ := (x.filled b).publish_frame b k
  have htail := Tile.tail_publish (x := x.filled b) (b := b) k (hbring.symm ▸ hr)
  have hfilled : (x.filled b).bob b = _ := x.bob_onBob_same b _
  have hget : y.get (T.RING_STAT_TAIL (x.bring b)) = ((x.filled b).publish b k).get (T.RING_STAT_TAIL (x.bring b)) :=
    Tile.get_bnext_other _ b (bobKey_ne_ringKey hr (by decide) (by decide)).symm
      (bobKey_ne_ringKey hr (by decide) (by decide)).symm
  rw [hbring, hbob, hfilled, show (x.filled b).get _ = x.get _ from x.get_setBob _ _ _] at htail
  rw [hfilled] at hn hbob
  rw [hget, Tile.bob_bnext, Tile.spad_bnext, hbob]
  exact ⟨rfl, hn, hspad.trans (x.spad_setBob _ _), htail.trans (by rw [← Nat.add_assoc])⟩

theorem exec_rel_none (h : s.bobRuns t b 0x0D = true) (hk : (s.tile t).bobSlots b = 0) :
    exec (.rel t b) s = .next (s.setTile t ((s.tile t).bnext b)) := (if_pos h).trans (if_pos hk)

theorem exec_rel_fault (h : s.bobRuns t b 0x0D = true)
    (hf : ringOcc (s.tile t).regs ((s.tile t).bring b) < (s.tile t).bobSlots b
      ∨ ((s.tile t).bobSlots b ≠ 0 ∧ (s.tile t).bobOwns b false = false)) :
    exec (.rel t b) s = .next (s.bobRingFault t b ((s.tile t).bring b)) := by
  refine (if_pos h).trans ?_
  rcases hf with hk | ⟨hk, ho⟩
  · refine (if_neg (Nat.ne_zero_of_lt hk)).trans (if_pos ?_)
    rw [Bool.or_eq_true]
    exact .inr (decide_eq_true hk)
  · refine (if_neg hk).trans (if_pos ?_)
    rw [ho]
    rfl

/-- The tile with slots released by a bobbin. -/
def Tile.drained (x : Tile) (b : Nat) : Tile :=
  ((x.onBob b fun v => { v with drain := (v.drain + x.bobSlots b) % 0x10000 }).set (T.RING_STAT_HEAD (x.bring b))
    (x.get (T.RING_STAT_HEAD (x.bring b)) + x.bobSlots b)).untripOn (.ring (x.bring b) true)

theorem exec_rel_advances (h : s.bobRuns t b 0x0D = true) (hk : (s.tile t).bobSlots b ≠ 0)
    (ho : (s.tile t).bobOwns b false = true) (hn : (s.tile t).bobSlots b ≤ ringOcc (s.tile t).regs ((s.tile t).bring b)) :
    exec (.rel t b) s = .next (s.setTile t (((s.tile t).drained b).bnext b)) := by
  refine (if_pos h).trans ((if_neg hk).trans (if_neg ?_))
  rw [ho, Bool.not_true, Bool.false_or, decide_eq_true_eq]
  exact Nat.not_lt.2 hn

theorem Tile.rel_leaves {x : Tile} (hr : x.bring b < 8) :
    let y := (x.drained b).bnext b
    (y.bob b).drain = ((x.bob b).drain + x.bobSlots b) % 0x10000
      ∧ y.get (T.RING_STAT_HEAD (x.bring b)) = (x.get (T.RING_STAT_HEAD (x.bring b)) + x.bobSlots b) % 0x10000
      ∧ y.bpc b = (x.bpc b + 1) % 128 := by
  have hbob : (x.drained b).bob b = _ := x.bob_onBob_same b _
  have hpc : (x.drained b).bpc b = x.bpc b :=
    (Tile.get_set_other _ _ (bobKey_ne_ringKey hr (by decide) (by decide))).trans (x.get_setBob _ _ _)
  have hhead : ((x.drained b).bnext b).get (T.RING_STAT_HEAD (x.bring b)) = (x.drained b).get (T.RING_STAT_HEAD (x.bring b)) :=
    Tile.get_bnext_other _ b (bobKey_ne_ringKey hr (by decide) (by decide)).symm
      (bobKey_ne_ringKey hr (by decide) (by decide)).symm
  dsimp only
  rw [Tile.bob_bnext, Tile.bpc_bnext, hbob, hpc, hhead]
  exact ⟨rfl, Tile.get_set_same _ _ _, rfl⟩

/-! ### `EMIT` (spec/09_bobbin_streams.md R298) -/

/-- The kind and the payload of the token that an `EMIT` word sends. -/
def Tile.emits (x : Tile) (b w : Nat) : Nat × List Byte :=
  if bits w 51 2 = 0 then (kEnd, [])
  else if bits w 51 2 = 1 then (kCtl, leBytes 8 (bits w 0 32))
  else (kCtl, leBytes 8 ((((x.bob b).loops[bits w 48 3]?).map BobLoop.index).getD 0 % 2 ^ 32))

theorem exec_emit_waits (h : s.bobRuns t b 0x0E = true)
    (hc : (s.tile t).canSend (bits ((s.tile t).bword ((s.tile t).bpc b)) 53 5) = false) :
    exec (.emit t b) s = .next (s.setTile t ((s.tile t).setBobState b 4)) :=
  (if_pos h).trans (if_neg (ne_true_of_eq_false hc))

theorem exec_emit_sends (h : s.bobRuns t b 0x0E = true)
    (hc : (s.tile t).canSend (bits ((s.tile t).bword ((s.tile t).bpc b)) 53 5) = true) :
    let w := (s.tile t).bword ((s.tile t).bpc b)
    let e := (s.tile t).emits b w
    exec (.emit t b) s = .next ((s.sendNew t (bits w 53 5) e.1 0 false e.2).onTile t fun x => x.bnext b) := by
  intro w e
  refine (if_pos h).trans ((if_pos hc).trans (congrArg (fun u : State => Host.Outcome.next (u.onTile t fun x => x.bnext b)) ?_))
  simp only [e, Tile.emits]
  split
  · next h0 => rw [if_pos h0]
  · next h1 => rw [if_neg (by rw [h1]; decide), if_pos h1]
  · next h0 h1 => rw [if_neg h0, if_neg h1]

/-- A token of a channel joins the mesh with its kind and payload; of the tile, its channel changes. -/
theorem sendNew_net (s : State) (t c kind slot : Nat) (basted : Bool) (pay : List Byte) :
    (∃ m : NetTok, (s.sendNew t c kind slot basted pay).net = s.net ++ [m] ∧ hKind m.tok.hdr = kind % 8 ∧ m.tok.pay = pay)
      ∧ ((s.sendNew t c kind slot basted pay).tile t).regs = (s.tile t).regs
      ∧ ∀ j, j ≠ t → (s.sendNew t c kind slot basted pay).tile j = s.tile j := by
  have hsend (tag : Nat) : (∃ m : NetTok, (s.sendAs t c kind tag slot basted pay).net = s.net ++ [m]
        ∧ hKind m.tok.hdr = kind % 8 ∧ m.tok.pay = pay)
      ∧ ((s.sendAs t c kind tag slot basted pay).tile t).regs = (s.tile t).regs
      ∧ ∀ j, j ≠ t → (s.sendAs t c kind tag slot basted pay).tile j = s.tile j :=
    ⟨⟨_, rfl, hKind_mkHdr _, rfl⟩, (congrArg Tile.regs (State.tile_setTile_same s t ((s.tile t).setOch c _))).trans rfl,
      fun j hj => State.tile_setTile_other s t j _ hj⟩
  unfold State.sendNew
  dsimp only
  split
  · obtain ⟨hnet, hregs, hother⟩ := hsend ((s.tile t).och c).tagc
    refine ⟨hnet, ?_, fun j hj => (State.tile_setTile_other _ _ _ _ hj).trans (hother j hj)⟩
    rw [State.tile_onTile_same]
    exact hregs
  · exact hsend 0

/-- What an `EMIT` that sends leaves. -/
theorem emit_leaves (s : State) (t b c : Nat) (e : Nat × List Byte) :
    ∃ m : NetTok, ((s.sendNew t c e.1 0 false e.2).onTile t fun x => x.bnext b).net = s.net ++ [m]
      ∧ hKind m.tok.hdr = e.1 % 8 ∧ m.tok.pay = e.2
      ∧ (((s.sendNew t c e.1 0 false e.2).onTile t fun x => x.bnext b).tile t).bpc b = ((s.tile t).bpc b + 1) % 128
      ∧ ∀ j, j ≠ t → ((s.sendNew t c e.1 0 false e.2).onTile t fun x => x.bnext b).tile j = s.tile j := by
  obtain ⟨⟨m, hnet, hkind, hpay⟩, hregs, hother⟩ := sendNew_net s t c e.1 0 false e.2
  refine ⟨m, hnet, hkind, hpay, ?_, fun j hj => (State.tile_setTile_other _ _ _ _ hj).trans (hother j hj)⟩
  rw [State.tile_onTile_same, Tile.bpc_bnext, Tile.bpc, Tile.get, hregs]
  rfl

/-! ### The obligation -/

/-- Settles O23: each instruction is the first of its conditions that holds; a transfer is carried on one request at a
time, and a request is read off the tile put back and the tokens put into the mesh. -/
theorem bobbinTransfersAndRings : Obligations.BobbinTransfersAndRings := by
  refine ⟨fun t b s => ⟨?ldr, ?ldp, ?str, ?stp, ?stores, ?pub, ?rel, ?emit⟩, ?carried, ?issued⟩
  case ldr =>
    refine fun h => ⟨fun h0 => (if_pos h).trans (if_pos h0), fun h0 hs => ?_, fun h0 hs ho => ?_, fun h0 hs ho hr => ?_,
      fun h0 hs ho hr => ?_⟩
    · exact (if_pos h).trans ((if_neg h0).trans (if_pos (Nat.not_le.1 hs)))
    · exact (if_pos h).trans ((if_neg h0).trans ((if_neg (Nat.not_lt.2 hs)).trans (if_pos (by rw [ho]; rfl))))
    · exact (if_pos h).trans ((if_neg h0).trans ((if_neg (Nat.not_lt.2 hs)).trans ((if_neg (by rw [ho]; decide)).trans
        (if_pos (by rw [decide_eq_false hr]; rfl)))))
    · exact (if_pos h).trans ((if_neg h0).trans ((if_neg (Nat.not_lt.2 hs)).trans ((if_neg (by rw [ho]; decide)).trans
        (if_neg (by rw [decide_eq_true hr]; decide)))))
  case ldp =>
    refine fun h => ⟨fun h0 => (if_pos h).trans (if_pos h0), fun h0 hbad => ?_, fun h0 hok => ?_⟩
    · exact (if_pos h).trans ((if_neg h0).trans (if_pos hbad))
    · exact (if_pos h).trans ((if_neg h0).trans (if_neg (ne_true_of_eq_false hok)))
  case str =>
    refine fun e h => ⟨fun h0 => (if_pos h).trans (if_pos h0), fun h0 hs => ?_, fun h0 hs ho => ?_,
      fun h0 hs ho hr => ?_, fun h0 hs ho hr hm => ?_, fun h0 hs ho hr hm => ?_⟩
    · exact (if_pos h).trans ((if_neg h0).trans (if_pos (Nat.not_le.1 hs)))
    · exact (if_pos h).trans ((if_neg h0).trans ((if_neg (Nat.not_lt.2 hs)).trans (if_pos (by rw [ho]; rfl))))
    · exact (if_pos h).trans ((if_neg h0).trans ((if_neg (Nat.not_lt.2 hs)).trans ((if_neg (by rw [ho]; decide)).trans
        (if_pos (by rw [decide_eq_false hr]; rfl)))))
    · exact (if_pos h).trans ((if_neg h0).trans ((if_neg (Nat.not_lt.2 hs)).trans ((if_neg (by rw [ho]; decide)).trans
        ((if_neg (by rw [decide_eq_true hr]; decide)).trans (if_pos hm)))))
    · exact (if_pos h).trans ((if_neg h0).trans ((if_neg (Nat.not_lt.2 hs)).trans ((if_neg (by rw [ho]; decide)).trans
        ((if_neg (by rw [decide_eq_true hr]; decide)).trans (if_neg (ne_true_of_eq_false hm))))))
  case stp =>
    refine fun e h => ⟨fun h0 => (if_pos h).trans (if_pos h0), fun h0 hbad => ?_, fun h0 hok hm => ?_, fun h0 hok hm => ?_⟩
    · exact (if_pos h).trans ((if_neg h0).trans (if_pos hbad))
    · exact (if_pos h).trans ((if_neg h0).trans ((if_neg (ne_true_of_eq_false hok)).trans (if_pos hm)))
    · exact (if_pos h).trans ((if_neg h0).trans ((if_neg (ne_true_of_eq_false hok)).trans (if_neg (ne_true_of_eq_false hm))))
  case stores =>
    refine fun a n wd k hk hn => ⟨fun hw => storeFrom_faults (by simp) ?_, fun hw => storeFrom_faults (by simp) ?_,
      storeFrom_plain⟩
    · exact if_pos (by rw [readsBank_first hk hn, hw]; rfl)
    · exact if_pos (by rw [readsBank_first hk hn, hw]; rfl)
  case pub =>
    refine fun h hr => ⟨exec_pub_fault h, fun hp ho => ?_⟩
    refine ⟨_, exec_pub_advances h hp ho, setTile_onlyTile _ _ _, ?_⟩
    rw [State.tile_setTile_same]
    exact Tile.pub_leaves hr
  case rel =>
    refine fun h hr => ⟨exec_rel_fault h, exec_rel_none h, fun hk ho hn => ?_⟩
    refine ⟨_, exec_rel_advances h hk ho hn, setTile_onlyTile _ _ _, ?_⟩
    rw [State.tile_setTile_same]
    exact Tile.rel_leaves hr
  case emit =>
    refine fun h => ⟨exec_emit_waits h, fun hc => ?_⟩
    obtain ⟨m, hnet, hkind, hpay, hpc, hother⟩ := emit_leaves s t b _
      ((s.tile t).emits b ((s.tile t).bword ((s.tile t).bpc b)))
    refine ⟨_, m, exec_emit_sends h hc, hnet, hkind.trans ?_, fun h0 => hpay.trans ?_, fun h1 => hpay.trans ?_,
      fun h2 => hpay.trans ?_, hpc, hother⟩
    · unfold Tile.emits
      split
      · rfl
      · split <;> rfl
    · rw [Tile.emits, if_pos h0]
    · rw [Tile.emits, if_neg (by rw [h1]; decide), if_pos h1]
    · rw [Tile.emits, if_neg (by rw [h2]; decide), if_neg (by rw [h2]; decide)]
  case carried =>
    refine fun t b k f s => ⟨carry_ended, fun g o hg => ⟨carry_idled hg, carry_full hg, fun i hi hf hu => ?_,
      fun i m target hi hf hu => ?_⟩⟩
    · rw [carry_nowhere hg hi hf hu]
      exact ⟨fun hp => if_neg (ne_true_of_eq_false hp), fun hp => if_pos hp⟩
    · rw [carry_unit hg hi hf hu]
      exact ⟨fun hp => if_neg (ne_true_of_eq_false hp), fun hp => if_pos hp⟩
  case issued =>
    intro t b i o n target f g s _ u v
    obtain ⟨l, hnet, hlen, hl⟩ := net_issueReq s t b i f g o n target
    obtain ⟨hreqs, hprog, hother⟩ := tile_issueReq s t b i f g o n target
    exact ⟨l, hnet, hlen, hl, hreqs, hprog, hother, issueReq_only _ _ _ _ _ _ _ _ _⟩

end Sys2Proof.Machine
end

section
/-! PROOFS. What a target answers, requests at the memory controllers and at the host port, and the responses that reach a
bobbin (spec/09_bobbin_streams.md R299 to R306, spec/11_host_interface_and_command_tape.md R357). -/

namespace Sys2Proof.Machine

variable {s : State}

/-! ### Tokens of a selvedge unit (spec/04_fabric_tokens_and_steering.md R145, Table 4.15) -/

theorem nearIdx_lt {unit : Nat} (h : attachments unit ≠ []) (d : Nat) : nearIdx unit d < (attachments unit).length := by
  unfold nearIdx
  split
  · next a b l hl =>
    rw [hl, List.length_cons, List.length_cons]
    split <;> omega
  · exact List.length_pos_of_ne_nil h

/-- The targets of a bobbin's requests: the memory controllers and the host port. -/
def IsTarget (target : Nat) : Prop := (0xC00 ≤ target ∧ target ≤ 0xC17) ∨ target = 0xC30

theorem attachments_ne_nil {target : Nat} (h : IsTarget target) : attachments target ≠ [] := by
  have hmc : ∀ n < 24, attachments (0xC00 + n) ≠ [] := by decide
  rcases h with ⟨hlo, hhi⟩ | rfl
  · have h := hmc (target - 0xC00) (by omega)
    rwa [Nat.add_sub_cancel' hlo] at h
  · decide

/-- Tokens that a target sends join the mesh in order. -/
theorem sendUnits_net {target : Nat} (h : IsTarget target) (s : State) (ks : List Token) :
    ∃ l, (ks.foldl (fun s k => s.sendUnit target k none) s).net = s.net ++ l ∧ l.map NetTok.tok = ks := by
  have hone (s : State) (k : Token) : ∃ m : NetTok, (s.sendUnit target k none).net = s.net ++ [m] ∧ m.tok = k := by
    simp only [State.sendUnit, List.getElem?_eq_getElem (nearIdx_lt (attachments_ne_nil h) _)]
    exact ⟨_, rfl, rfl⟩
  induction ks generalizing s with
  | nil => exact ⟨[], (List.append_nil _).symm, rfl⟩
  | cons k ks ih =>
    obtain ⟨m, hm, hk⟩ := hone s k
    obtain ⟨l, hl, hks⟩ := ih (s.sendUnit target k none)
    refine ⟨m :: l, ?_, by rw [List.map_cons, hk, hks]⟩
    rw [List.foldl_cons, hl, hm, List.append_assoc]
    rfl

/-- The chunks of `c` bytes of a list, in order, are its first bytes. -/
theorem flatMap_chunks (data : List Byte) (c n : Nat) :
    (List.range n).flatMap (fun k => (data.drop (c * k)).take c) = data.take (c * n) := by
  induction n with
  | zero => simp
  | succ n ih =>
    rw [List.range_succ, List.flatMap_append, ih, List.flatMap_singleton, Nat.mul_succ, List.take_add]

/-- A response without data is one token. -/
theorem respond_bare_net {target : Nat} (h : IsTarget target) (s : State) (stream ep ridx status : Nat) :
    (s.respond target stream ep ridx status []).net.length = s.net.length + 1 := by
  obtain ⟨l, hl, hk⟩ := sendUnits_net h s [⟨_, _⟩]
  have hlen : l.length = 1 := by rw [← List.length_map (f := NetTok.tok), hk]; rfl
  rw [← hlen, ← List.length_append, ← hl]
  rfl

/-- A response with data holds them 64 bytes a token. -/
theorem respond_data_net {target : Nat} (h : IsTarget target) (s : State) (stream ep ridx status : Nat) {data : List Byte}
    (hd : data ≠ []) : ∃ l, (s.respond target stream ep ridx status data).net = s.net ++ l
      ∧ l.length = ceilDiv data.length 64 ∧ l.flatMap (fun m => m.tok.pay) = data := by
  have hpay (l : List NetTok) : l.flatMap (fun m => m.tok.pay) = (l.map NetTok.tok).flatMap Token.pay :=
    (List.flatMap_map _ _ l).symm
  unfold State.respond
  extract_lets t b x tok
  obtain ⟨l, hl, hk⟩ := sendUnits_net h s
    ((List.range (ceilDiv data.length 64)).map fun k => tok k ((data.drop (64 * k)).take 64))
  rw [List.foldl_map] at hl
  refine ⟨l, ?_, ?_, ?_⟩
  · rw [if_neg (mt List.isEmpty_iff.1 hd)]
    exact hl
  · rw [← List.length_map (f := NetTok.tok), hk, List.length_map, List.length_range]
  · rw [hpay, hk, List.flatMap_map]
    refine (flatMap_chunks data 64 _).trans (List.take_of_length_le ?_)
    unfold ceilDiv
    omega

/-! ### Requests at a memory controller (spec/09_bobbin_streams.md R304, R305) -/

/-- What counting a request served late leaves. -/
theorem dry_only (s : State) (n slack wait : Nat) : Only [.bar] s (s.dry n slack wait) := by
  unfold State.dry
  split
  · exact s.bump_only _ _
  · exact .refl _ s

theorem get_dry_other (s : State) {n : Nat} (slack wait : Nat) {f : Fld} (h : f.key ≠ (R.DRY_LATE n).key) :
    (s.dry n slack wait).get f = s.get f := by
  unfold State.dry
  split
  · exact get_bump_other _ _ h
  · rfl

/-- A field below the counters of late requests. -/
theorem key_ne_dryLate {f : Fld} (h : f.key < 0x49000 * 64) (n : Nat) : f.key ≠ (R.DRY_LATE n).key := by
  simp only [R.DRY_LATE, Fld.key] at h ⊢
  omega

theorem behind_dry (s : State) (n slack wait a : Nat) :
    (s.dry n slack wait).behind ((s.dry n slack wait).orderKey a) = s.behind (s.orderKey a) := by
  unfold State.dry
  split <;> rfl

theorem inHostBias_dry (s : State) (n slack wait a : Nat) : (s.dry n slack wait).inHostBias a = s.inHostBias a := by
  simp only [State.inHostBias, show (s.dry n slack wait).cxl = s.cxl from dry_only _ _ _ _ .cxl (by simp)]

theorem seed_dry (s : State) (n slack wait : Nat) : (s.dry n slack wait).seed = s.seed :=
  Prod.ext (get_dry_other s slack wait (key_ne_dryLate (by decide) n))
    (get_dry_other s slack wait (key_ne_dryLate (by decide) n))

theorem exec_bobbinRequest_mc {target wait : Nat} {p0 p1 : W64} {data : List Byte} {e : Ecc} (hs : s.safe = false)
    (hlo : 0xC00 ≤ target) (hhi : target ≤ 0xC17) :
    exec (.bobbinRequest target p0 p1 data wait e) s
      = .next ((s.dry (target - 0xC00) (breq p0 p1).slack wait).arrive (breq p0 p1).addr .sewn
        (.bobbinRequest target p0 p1 data wait e) fun s => s.serveReq target (breq p0 p1) data e) :=
  (if_neg (ne_true_of_eq_false hs)).trans (if_pos (by simp [inRange, hlo, hhi]))

section
variable {target : Nat} {q : BReq} {data : List Byte}

/-- A load of sound data is answered with its bytes; counts and lines change beside. -/
theorem serveReq_load (ht : IsTarget target) (hn : 0 < q.bytes) (hr : s.reach q.addr q.bytes = .ok) (hc : Clean s q.addr)
    (hw : q.wr = false) :
    let u := s.serveReq target q data .ok
    u.mem.data = s.mem.data ∧ u.net.length = s.net.length + ceilDiv q.bytes 64
      ∧ (u.net.drop s.net.length).flatMap (fun m => m.tok.pay) = s.rdN q.addr q.bytes ∧ u.tiles = s.tiles := by
  intro u
  have hlen : (s.rdN q.addr q.bytes).length = q.bytes := by simp [State.rdN]
  have hne : s.rdN q.addr q.bytes ≠ [] := List.ne_nil_of_length_pos (hlen.symm ▸ hn)
  have honly : Only [.bar, .mem] s ((s.moveTouch q.addr q.bytes).touchAt q.addr false q.noalloc) :=
    ((moveTouch_only s _ _).mono (by simp)).trans (State.touchAt_only _ _ _ _)
  have hu : u = ((s.moveTouch q.addr q.bytes).touchAt q.addr false q.noalloc).respond target q.stream q.epoch q.ridx 0
      (s.rdN q.addr q.bytes) := by
    simp only [u, State.serveReq, hw, Bool.false_eq_true, if_false, readMem_clean hr hc]
  obtain ⟨l, hnet, hl, hpay⟩ := respond_data_net ht ((s.moveTouch q.addr q.bytes).touchAt q.addr false q.noalloc)
    q.stream q.epoch q.ridx 0 hne
  have hrest := respond_only ((s.moveTouch q.addr q.bytes).touchAt q.addr false q.noalloc) target q.stream q.epoch q.ridx 0
    (s.rdN q.addr q.bytes)
  have hnet0 : ((s.moveTouch q.addr q.bytes).touchAt q.addr false q.noalloc).net = s.net := honly .net (by simp)
  rw [hu, hnet, hnet0, List.length_append, hl, hlen, List.drop_left, hpay]
  refine ⟨?_, rfl, rfl, (hrest .tiles (by simp)).trans (honly .tiles (by simp))⟩
  exact (congrArg MemSys.data (hrest .mem (by simp))).trans ((Kept.moveTouch s _ _).trans (Kept.touchAt _ _ _ _)).data

theorem length_padTo (n : Nat) (l : List Byte) : (padTo n l).length = n := by
  simp only [padTo, List.length_append, List.length_take, List.length_replicate]
  omega

/-- A store that is done is answered with one token. -/
theorem serveReq_store (ht : IsTarget target) (hr : s.reach q.addr q.bytes = .ok) (hc : Clean s q.addr)
    (hw : q.wr = true) (hcls : lpEnd ≤ q.addr ∨ s.granCls (s.memUnit q.addr) ≠ 0) :
    let u := s.serveReq target q data .ok
    u.mem.data = (s.wrN q.addr (padTo q.bytes data)).mem.data ∧ u.net.length = s.net.length + 1 ∧ u.tiles = s.tiles := by
  intro u
  have hlen := length_padTo q.bytes data
  have hkeep : ¬ s.keepsOut (q.stream / 2) q.addr := by
    rintro ⟨hlp, hzero, -⟩
    exact hcls.elim (Nat.not_le.2 hlp) (· hzero)
  obtain ⟨t, htrun, hst⟩ := storeRun_clean (b := padTo q.bytes data) (x := q.noalloc)
    (hc.moveTouch q.addr (padTo q.bytes data).length) (readerOf (q.stream / 2))
  obtain ⟨hdata, -, honly⟩ := hst.of_moveTouch
  have hu : u = t.respond target q.stream q.epoch q.ridx 0 [] := by
    simp only [u, State.serveReq, hw, if_true, writeMem_stored (hlen.symm ▸ hr) hkeep (q.stream % 2) htrun]
  have hrest := respond_only t target q.stream q.epoch q.ridx 0 []
  rw [hu, respond_bare_net ht, show t.net = s.net from honly .net (by simp)]
  exact ⟨(congrArg MemSys.data (hrest .mem (by simp))).trans hdata, rfl,
    (hrest .tiles (by simp)).trans (honly .tiles (by simp))⟩

end

/-! ### Requests at the host port (spec/11_host_interface_and_command_tape.md R357) -/

theorem exec_bobbinRequest_host {wait : Nat} {p0 p1 : W64} {data : List Byte} {e : Ecc} (hs : s.safe = false) :
    exec (.bobbinRequest 0xC30 p0 p1 data wait e) s
      = .next ((s.dry 24 (breq p0 p1).slack wait).hostIssue (breq p0 p1) data) :=
  (if_neg (ne_true_of_eq_false hs)).trans ((if_neg (by decide)).trans (if_pos rfl))

theorem reqPhys_dry (s : State) (n slack wait : Nat) (q : BReq) : (s.dry n slack wait).reqPhys q = s.reqPhys q := by
  have htile (t : Nat) : (s.dry n slack wait).tile t = s.tile t := tile_of_only (dry_only _ _ _ _) (by simp) t
  have hphys (a : Nat) : (s.dry n slack wait).hostPhys a = s.hostPhys a := by
    rw [State.hostPhys, get_dry_other s slack wait (key_ne_dryLate (by decide) n), State.hostPhys]
  simp only [State.reqPhys, htile, hphys]

/-- A request to the host range made while the link is up. -/
theorem hostIssue_linked (h : s.cxl.linkUp = true) (q : BReq) (data : List Byte) :
    let a := s.reqPhys q
    let u := s.hostIssue q data
    Only [.cxl, .host, .out] s u
      ∧ u.cxl.reqs = s.cxl.reqs ++ [⟨.bob (q.stream / 2) (q.stream % 2) q.ridx q.epoch, q.wr, a, q.bytes⟩]
      ∧ u.out = s.out ++ [if q.wr then
          .busWrite a (padTo q.bytes data) (busLines s.cxl.mode true a (padTo q.bytes data).length)
          else .busRead a q.bytes (busLines s.cxl.mode false a q.bytes)]
      ∧ u.host = (if q.wr then memWriteN s.host a (padTo q.bytes data) else s.host) := by
  dsimp only
  rw [State.hostIssue, if_pos h]
  cases q.wr with
  | false => exact ⟨fun p hp => by cases p <;> simp_all [Part.Same, State.busRead], rfl, rfl, rfl⟩
  | true => exact ⟨fun p hp => by cases p <;> simp_all [Part.Same, State.busWrite], rfl, rfl, rfl⟩

theorem hostIssue_down (h : s.cxl.linkUp = false) (q : BReq) (data : List Byte) : s.hostIssue q data
    = (s.raise Code.HOST_UNREACH 0xC30 0 0).respond 0xC30 q.stream q.epoch q.ridx 1 [] :=
  if_neg (ne_true_of_eq_false h)

/-- The host physical address of a request that is still outstanding is the one formed at its issue. -/
theorem reqPhys_outstanding {q : BReq} {r : BobReq} (h : (((s.tile (q.stream / 2)).bob (q.stream % 2)).reqs.find? fun r =>
      r.ridx = q.ridx && r.addr % 2 ^ 48 = q.addr && (s.tile (q.stream / 2)).get (T.BOB_STAT_EPOCH (q.stream % 2)) = q.epoch)
    = some r) : s.reqPhys q = r.phys := by
  simp only [State.reqPhys, h]

/-! ### Responses at a bobbin (spec/09_bobbin_streams.md R299, R300, R305, R306) -/

section
variable {t b ridx num status epoch : Nat} {data : List Byte} (ht : t < nTiles) (hb : b < 2)
include ht hb

section
variable (hl : ((s.tile t).bob b).run = true ∧ (s.tile t).get (T.BOB_STAT_EPOCH b) = epoch)
include hl

theorem exec_response_orphan (hf : (((s.tile t).bob b).reqs.find? fun q => q.ridx = ridx) = none) :
    exec (.bobbinResponse t b ridx num status epoch data) s = .next (s.bobFault t b Code.BOB_RESP_ORPHAN ridx) := by
  change execBobbinResponse t b ridx num status epoch data s = _
  simp [execBobbinResponse, ht, hb, hl, hf, go]

variable {q : BobReq} (hf : (((s.tile t).bob b).reqs.find? fun q => q.ridx = ridx) = some q)
include hf

theorem exec_response_refused (hst : status ≠ 0) : exec (.bobbinResponse t b ridx num status epoch data) s
    = .next ((s.setTile t ((s.tile t).onBob b fun v => { v with reqs := v.reqs.erase q })).bobFault t b
      Code.BOB_ABORTED ridx) := by
  change execBobbinResponse t b ridx num status epoch data s = _
  simp [execBobbinResponse, ht, hb, hl, hf, hst, go]

theorem exec_response_done (hst : status = 0) : exec (.bobbinResponse t b ridx num status epoch data) s
    = .next (if !q.left.contains num || (!q.wr && (s.tile t).meetsFill (q.spad + 64 * num) data.length) then s
      else s.setTile t ((s.tile t).landResp b q num data)) := by
  change execBobbinResponse t b ridx num status epoch data s = _
  simp only [execBobbinResponse, ht, hb, hl, hf, hst, decide_true, Bool.and_self, Bool.not_true, Bool.false_eq_true, if_false,
    if_true]
  exact (apply_ite _ _ _ _).symm

end

/-- A response to a stream that does not live acknowledges a retirement, or is stale. -/
theorem exec_response_dead (hl : ¬ (((s.tile t).bob b).run = true ∧ (s.tile t).get (T.BOB_STAT_EPOCH b) = epoch)) :
    exec (.bobbinResponse t b ridx num status epoch data) s
    = .next (if status = 3 ∧ (((s.tile t).bob b).quar.any fun p => p.1 = epoch) = true then
      s.setTile t ((s.tile t).retire b epoch) else s.bump R.STALE_STREAM 1) := by
  have hlive : ¬ (((s.tile t).bob b).run && (s.tile t).get (T.BOB_STAT_EPOCH b) = epoch) = true := by
    rw [Bool.and_eq_true, decide_eq_true_eq]
    exact hl
  change execBobbinResponse t b ridx num status epoch data s = _
  rw [execBobbinResponse, if_neg (by simp [ht, hb]), if_neg hlive]
  simp only [Bool.and_eq_true, decide_eq_true_eq]
  exact (apply_ite _ _ _ _).symm

end

@[simp] theorem Tile.bob_reqWaitOver (x : Tile) (b c : Nat) : (x.reqWaitOver b).bob c = x.bob c := by
  unfold Tile.reqWaitOver
  dsimp only
  split <;> rfl

@[simp] theorem Tile.spad_reqWaitOver (x : Tile) (b : Nat) : (x.reqWaitOver b).spad = x.spad := by
  unfold Tile.reqWaitOver
  dsimp only
  split <;> rfl

/-- The requests of a bobbin once a token of one has landed: it is one token nearer its completion, or has completed. -/
def Bob.landed (v : Bob) (q : BobReq) (num : Nat) : List BobReq :=
  if (q.left.erase num).isEmpty then v.reqs.erase q
  else v.reqs.map fun r => if r = q then { q with left := q.left.erase num } else r

/-- What a token that lands leaves: its bytes in place, and its request. -/
theorem Tile.landResp_leaves (x : Tile) (b : Nat) (q : BobReq) (num : Nat) (data : List Byte) :
    (x.landResp b q num data).spad
        = (if q.wr then x.spad else memWriteN x.spad (q.spad + 64 * num) (data.take (q.bytes - 64 * num)))
      ∧ ((x.landResp b q num data).bob b).reqs = (x.bob b).landed q num := by
  unfold Tile.landResp
  extract_lets d x1 left reqs x2 x3
  obtain ⟨hspad1, hbob1⟩ : x1.spad = (if q.wr then x.spad else memWriteN x.spad (q.spad + 64 * num) d)
      ∧ x1.bob b = x.bob b := by
    simp only [x1]
    split <;> exact ⟨rfl, rfl⟩
  obtain ⟨hspad3, hbob3⟩ : x3.spad = x2.spad ∧ x3.bob b = x2.bob b := by
    simp only [x3]
    split
    · exact ⟨(Tile.spad_reqWaitOver _ _).trans rfl, (Tile.bob_reqWaitOver _ _ _).trans rfl⟩
    · exact ⟨rfl, rfl⟩
  obtain ⟨hspad, n, -, hbob⟩ := x3.publish_frame b (x3.bob b).pubs
  refine ⟨?_, ?_⟩
  · exact (hspad.trans hspad3).trans ((x1.spad_setBob _ _).trans hspad1)
  · have hreqs : (x2.bob b).reqs = reqs := congrArg Bob.reqs (x1.bob_onBob_same b _)
    rw [Tile.bobOutst, Tile.bob_set, hbob, hbob3]
    exact hreqs.trans (by simp only [reqs, hbob1]; rfl)

/-! ### Retirement (spec/09_bobbin_streams.md R306) -/

theorem memCxl_only (s : State) (m : MemSys) (c : Cxl) : Only [.mem, .cxl] s { s with mem := m, cxl := c } := by
  intro p hp
  cases p <;> simp_all [Part.Same]

/-- A controller without the waiting requests of a stream. -/
def State.forgetAt (s : State) (mc stream epoch : Nat) : State :=
  { s with
    mem := { s.mem with heldReqs := s.mem.heldReqs.filter fun h => !(h.mc = mc && ofStream stream epoch h.req) }
    cxl := { s.cxl with biasReqs := s.cxl.biasReqs.filter fun h => !(s.mcOf h.addr = mc && ofStream stream epoch h.req) } }

theorem exec_retirementToken_mc {target stream epoch : Nat} (hlo : 0xC00 ≤ target) (hhi : target ≤ 0xC17) :
    exec (.retirementToken target stream epoch) s
      = .next (((s.forgetAt (target - 0xC00) stream epoch).bump (R.RETIRED (target - 0xC00)) 1).respond target stream epoch
        0 3 []) := by
  have hhost : target ≠ 0xC30 := by omega
  change execRetirementToken target stream epoch s = _
  rw [execRetirementToken, if_pos (by simp [inRange, hlo, hhi])]
  simp only [if_neg hhost]
  rfl

/-- Is a request to host memory one of a stream? -/
def agentOfStream (stream epoch : Nat) : HostAgent → Bool
  | .bob t b _ ep => t * 2 + b = stream && ep = epoch
  | _ => false

/-- The host port without the requests of a stream. -/
def State.forgetHost (s : State) (stream epoch : Nat) : State :=
  { s with cxl := { s.cxl with reqs := s.cxl.reqs.filter fun r => !agentOfStream stream epoch r.agent } }

theorem exec_retirementToken_host (s : State) (stream epoch : Nat) : exec (.retirementToken 0xC30 stream epoch) s
    = .next (((s.forgetHost stream epoch).bump (R.RETIRED 24) 1).respond 0xC30 stream epoch 0 3 []) := by
  have hmine : (fun r : HostReq => !agentOfStream stream epoch r.agent) = fun r => !(match r.agent with
      | .bob t b _ ep => t * 2 + b = stream && ep = epoch
      | _ => false) := by
    funext r
    cases r.agent <;> rfl
  change execRetirementToken 0xC30 stream epoch s = _
  rw [execRetirementToken, if_pos (by simp), State.forgetHost, hmine]
  rfl

end Sys2Proof.Machine
end

section
/-! PROOFS. The obligation on the requests of bobbins at their targets and on the responses (spec/09_bobbin_streams.md R299 to
R306, spec/11_host_interface_and_command_tape.md R357). -/

namespace Sys2Proof.Machine

variable {s : State}

/-! ### The clauses of the obligation -/

/-- A request that meets a page in host bias is kept back while the host is asked. -/
theorem exec_bobbinRequest_biased {target wait : Nat} {p0 p1 : W64} {data : List Byte} {e : Ecc} (hs : s.safe = false)
    (hlo : 0xC00 ≤ target) (hhi : target ≤ 0xC17) (h : s.behind (s.orderKey (breq p0 p1).addr) = false)
    (hb : s.inHostBias (breq p0 p1).addr = true) :
    let t := s.dry (target - 0xC00) (breq p0 p1).slack wait
    exec (.bobbinRequest target p0 p1 data wait e) s = .next { t with cxl := { s.cxl with biasReqs := s.cxl.biasReqs
      ++ [⟨(breq p0 p1).addr, .bobbinRequest target p0 p1 data wait e, s.seed⟩] } } := by
  intro t
  have hcxl : t.cxl = s.cxl := dry_only _ _ _ _ .cxl (by simp)
  have hseed : t.seed = s.seed := seed_dry _ _ _ _
  rw [exec_bobbinRequest_mc hs hlo hhi,
    arrive_biased ((behind_dry _ _ _ _ _).trans h) ((inHostBias_dry _ _ _ _ _).trans hb), hcxl, hseed]

/-- A controller that receives a retirement token forgets the stream's requests and answers with one token. -/
theorem retirement_at_mc {target : Nat} (hlo : 0xC00 ≤ target) (hhi : target ≤ 0xC17) (stream epoch : Nat) (s : State) :
    ∃ u, exec (.retirementToken target stream epoch) s = .next u ∧ u.net.length = s.net.length + 1
      ∧ (∀ h, h ∈ u.mem.heldReqs
        ↔ h ∈ s.mem.heldReqs ∧ ¬ (h.mc = target - 0xC00 ∧ ofStream stream epoch h.req = true))
      ∧ (∀ h, h ∈ u.cxl.biasReqs
        ↔ h ∈ s.cxl.biasReqs ∧ ¬ (s.mcOf h.addr = target - 0xC00 ∧ ofStream stream epoch h.req = true))
      ∧ u.mem.data = s.mem.data ∧ u.tiles = s.tiles ∧ Only [.bar, .mem, .cxl, .net] s u := by
  let v := (s.forgetAt (target - 0xC00) stream epoch).bump (R.RETIRED (target - 0xC00)) 1
  have hrest := respond_only v target stream epoch 0 3 []
  have honly : Only [.bar, .mem, .cxl] s v :=
    ((memCxl_only s _ _).mono (by simp)).trans ((State.bump_only _ _ _).mono (by simp))
  refine ⟨_, exec_retirementToken_mc hlo hhi, respond_bare_net (.inl ⟨hlo, hhi⟩) v _ _ _ _, fun h => ?_, fun h => ?_, ?_,
    (hrest .tiles (by simp)).trans (honly .tiles (by simp)), (honly.mono (by simp)).trans (hrest.mono (by simp))⟩
  · rw [show State.mem _ = v.mem from hrest .mem (by simp)]
    simp [v, State.forgetAt, List.mem_filter, imp_iff_not_or]
  · rw [show State.cxl _ = v.cxl from hrest .cxl (by simp)]
    simp [v, State.forgetAt, List.mem_filter, imp_iff_not_or]
  · exact (congrArg MemSys.data (hrest .mem (by simp))).trans rfl

/-- So does the host port. -/
theorem retirement_at_host (stream epoch : Nat) (s : State) :
    ∃ u, exec (.retirementToken 0xC30 stream epoch) s = .next u ∧ u.net.length = s.net.length + 1
      ∧ (∀ r ∈ u.cxl.reqs, ∀ t b i ep, r.agent = .bob t b i ep → ¬ (t * 2 + b = stream ∧ ep = epoch))
      ∧ Only [.bar, .cxl, .net] s u := by
  let v := (s.forgetHost stream epoch).bump (R.RETIRED 24) 1
  have hrest := respond_only v 0xC30 stream epoch 0 3 []
  have honly : Only [.bar, .cxl] s v := by
    refine Only.trans (t := s.forgetHost stream epoch) (fun p hp => ?_) ((State.bump_only _ _ _).mono (by simp))
    cases p <;> simp_all [Part.Same, State.forgetHost]
  refine ⟨_, exec_retirementToken_host s stream epoch, respond_bare_net (.inr rfl) v _ _ _ _, fun r hr t b i ep ha => ?_,
    (honly.mono (by simp)).trans (hrest.mono (by simp))⟩
  rw [show State.cxl _ = v.cxl from hrest .cxl (by simp)] at hr
  have hother := (List.mem_filter.1 hr).2
  rw [ha] at hother
  simpa [agentOfStream, imp_iff_not_or] using hother

/-! ### The obligation -/

/-- Settles O24: a request at a controller arrives like any other access and is performed by its read or write; a response
is decided by whether its stream lives and its index is in use. -/
theorem bobbinRequestsAreServedAndAnswered : Obligations.BobbinRequestsAreServedAndAnswered := by
  refine ⟨?arrives, ?served, ?host, fun q r s => reqPhys_outstanding, ?responses,
    fun target stream epoch s hlo hhi => retirement_at_mc hlo hhi stream epoch s, retirement_at_host, ?deadline⟩
  case arrives =>
    intro target p0 p1 data wait e s hs hlo hhi q i t
    have hexec : exec i s = _ := exec_bobbinRequest_mc hs hlo hhi
    refine ⟨fun hb => hexec.trans (congrArg _ (arrive_behind ((behind_dry _ _ _ _ _).trans hb))),
      exec_bobbinRequest_biased hs hlo hhi, fun hb hp => hexec.trans (congrArg _ ?_)⟩
    exact arrive_plain ((behind_dry _ _ _ _ _).trans hb) ((inHostBias_dry _ _ _ _ _).trans hp)
  case served =>
    intro target q data s hlo hhi hn hr he hp
    exact ⟨serveReq_load (.inl ⟨hlo, hhi⟩) hn hr ⟨he, hp⟩, serveReq_store (.inl ⟨hlo, hhi⟩) hr ⟨he, hp⟩⟩
  case host =>
    intro p0 p1 data wait e s hs q t a
    have hdry : Only [.bar] s t := dry_only s 24 q.slack wait
    have hcxl : t.cxl = s.cxl := hdry .cxl (by simp)
    have hout : t.out = s.out := hdry .out (by simp)
    have hhost : t.host = s.host := hdry .host (by simp)
    have hphys : t.reqPhys q = a := reqPhys_dry _ _ _ _ _
    refine ⟨fun hup => ?_, fun hdown => (exec_bobbinRequest_host hs).trans (congrArg _ (hostIssue_down (hcxl ▸ hdown) q data))⟩
    obtain ⟨honly, hreqs, hsent, hwritten⟩ := hostIssue_linked (hcxl ▸ hup) q data
    rw [hphys, hcxl] at hreqs
    rw [hphys, hcxl, hout] at hsent
    rw [hphys, hhost] at hwritten
    exact ⟨_, exec_bobbinRequest_host hs, (hdry.mono (by simp)).trans (honly.mono (by simp)), hreqs, hsent, hwritten⟩
  case responses =>
    intro t b ridx num status epoch data s ht hb x v run live
    refine ⟨fun hl => exec_response_orphan ht hb hl, fun q hl hf => exec_response_refused ht hb hl hf,
      fun q hl hf h0 hw hm => ?_, fun q hl hf h0 hnum hw => ?_, fun hl h3 hq => ?_, fun hl hn => ?_⟩
    · refine (exec_response_done ht hb hl hf h0).trans (congrArg _ (if_pos ?_))
      rw [hw, hm]
      exact Bool.or_true _
    · have hok : ¬ (!q.left.contains num || (!q.wr && x.meetsFill (q.spad + 64 * num) data.length)) = true := by
        rw [hnum]
        rcases hw with hw | hw <;> simp [hw]
      refine ⟨_, (exec_response_done ht hb hl hf h0).trans (congrArg _ (if_neg hok)), setTile_onlyTile _ _ _, ?_⟩
      rw [State.tile_setTile_same]
      obtain ⟨hspad, hreqs⟩ := x.landResp_leaves b q num data
      refine ⟨hspad, fun hlast => hreqs.trans ?_, fun hmore => hreqs.trans ?_⟩
      · exact if_pos (List.isEmpty_iff.2 hlast)
      · exact if_neg (mt List.isEmpty_iff.1 hmore)
    · exact (exec_response_dead ht hb hl).trans (congrArg _ (if_pos ⟨h3, hq⟩))
    · refine (exec_response_dead ht hb hl).trans (congrArg _ (if_neg ?_))
      rintro ⟨h3, hq⟩
      exact hn.elim (· h3) fun hnone => Bool.false_ne_true (hnone.symm.trans hq)
  case deadline =>
    intro t b s v
    refine ⟨fun q l hv => ?_, fun hv hq => ?_⟩
    · change execBobReqDeadline t b s = _
      simp [execBobReqDeadline, show ((s.tile t).bob b).reqs = q :: l from hv, go]
    · change execBobReqDeadline t b s = _
      simp [execBobReqDeadline, show ((s.tile t).bob b).reqs = [] from hv, show ((s.tile t).bob b).quar ≠ [] from hq, go]

end Sys2Proof.Machine
end

section
/-! PROOFS. Laws of a seam port: its state and its link field after an update, the frames that it puts on the wire, and the
check word of a message (spec/10_seam_ports_and_collectives.md R315 to R325). -/

namespace Sys2Proof.Machine

variable {s : State} {p q : Nat} {m : SMsg}

/-! ### The check word of a message (spec/10_seam_ports_and_collectives.md R318, R323) -/

theorem crc32c_lt (l : List Byte) : crc32c l < 2 ^ 32 := by
  have hstep {x : Nat} (hx : x < 2 ^ 32) : (if bit x 0 then Nat.xor (x / 2) 0x82F63B78 else x / 2) < 2 ^ 32 := by
    have hhalf : x / 2 < 2 ^ 32 := (Nat.div_le_self x 2).trans_lt hx
    split
    · exact Nat.xor_lt_two_pow hhalf (by decide)
    · exact hhalf
  refine Nat.xor_lt_two_pow (List.foldlRecOn (motive := fun c => c < 2 ^ 32) l _ (by decide) fun c hc b _ => ?_) (by decide)
  have hbyte : Nat.xor c b.toNat < 2 ^ 32 := Nat.xor_lt_two_pow hc (b.isLt.trans (by decide))
  unfold crcRefl
  exact hstep (hstep (hstep (hstep (hstep (hstep (hstep (hstep hbyte)))))))

@[simp] theorem smCrcOk_smSigned (m : SMsg) : smCrcOk (smSigned m) = true := by
  refine decide_eq_true ?_
  change (BitVec.ofNat 32 (crc32c (smCovered m))).toNat = crc32c (smCovered m)
  rw [BitVec.toNat_ofNat, Nat.mod_eq_of_lt (crc32c_lt _)]

/-! ### Frames (spec/10_seam_ports_and_collectives.md R315, R321) -/

/-- A message as a frame carries it: with the port's `LACK` and `FREE`. -/
def State.stamped (s : State) (p : Nat) (m : SMsg) : SMsg :=
  { m with lack := (s.port p).rxSeq, free := 128 - (s.port p).slots }

/-- The check word covers neither of the two. -/
@[simp] theorem smCrcOk_stamped (s : State) (p : Nat) (m : SMsg) : smCrcOk (s.stamped p m) = smCrcOk m := rfl

theorem frame_out (s : State) (p : Nat) (m : SMsg) :
    (s.frame p m).out = s.out ++ [.seam p (s.stamped p m) (s.wire p (s.stamped p m))] := rfl

/-! ### The state of a port and its link field -/

/-- A field that a list does not set keeps its value. -/
theorem get_setAll_other {f : Fld} {l : List (Fld × Nat)} (s : State) (h : ∀ x ∈ l, f.key ≠ x.1.key) :
    (s.setAll l).get f = s.get f := by
  induction l generalizing s with
  | nil => rfl
  | cons x l ih =>
    obtain ⟨hx, hl⟩ := List.forall_mem_cons.1 h
    rw [setAll_cons, ih _ hl, get_set_other _ _ hx]

theorem port_setPort_other (s : State) (x : SPort) (h : q ≠ p) : (s.setPort p x).port q = s.port q :=
  kvGet_kvSet_other _ _ _ h

@[simp] theorem link_setPort (s : State) (p q : Nat) (x : SPort) : (s.setPort p x).link q = s.link q := rfl

theorem link_setLink (s : State) (p v : Nat) : (s.setLink p v).link p = v % 8 := get_set_same _ _ _

theorem link_setLink_other (s : State) (v : Nat) (h : q ≠ p) : (s.setLink p v).link q = s.link q :=
  get_set_other _ _ (spLink_key_ne h)

theorem link_frame (hp : p < 8) (s : State) (q : Nat) (m : SMsg) : (s.frame q m).link p = s.link p :=
  get_frame_below _ _ _ (by simp only [Fld.key, R.SP_STATUS_LINK]; omega)

theorem clearPort_only (s : State) (p : Nat) : Only [.seam] s (s.clearPort p) :=
  (seam_only s _).trans (State.setPort_only _ _ _)

theorem port_clearPort (s : State) (p : Nat) : (s.clearPort p).port p = { pause := (s.port p).pause } :=
  State.port_setPort_same _ _ _

theorem port_clearPort_other (s : State) (h : q ≠ p) : (s.clearPort p).port q = s.port q := port_setPort_other _ _ h

theorem mem_future_clearPort (s : State) (p : Nat) (f : Option Nat × SMsg) :
    f ∈ (s.clearPort p).seam.future ↔ f ∈ s.seam.future ∧ f.1 ≠ some p := by
  change f ∈ s.seam.future.filter (fun f => f.1 ≠ some p) ↔ _
  rw [List.mem_filter, decide_eq_true_eq]

/-! ### Links up (spec/10_seam_ports_and_collectives.md R320) -/

theorem link_checkUp (s : State) (p : Nat) : (s.checkUp p).link p
    = if (s.port p).sentSeen = true ∧ (s.port p).peerSeen = true ∧ s.link p = 2 then 3 else s.link p := by
  unfold State.checkUp
  simp only [Bool.and_eq_true, decide_eq_true_eq, and_assoc]
  split
  · exact link_setLink _ _ _
  · rfl

@[simp] theorem port_checkUp (s : State) (p q : Nat) : (s.checkUp p).port q = s.port q := by
  unfold State.checkUp
  split <;> rfl

theorem checkUp_only (s : State) (p : Nat) : Only [.bar] s (s.checkUp p) := by
  unfold State.checkUp
  split
  · exact s.set_only _ _
  · exact .refl _ s

theorem get_checkUp_other (s : State) {f : Fld} (h : f.key ≠ (R.SP_STATUS_LINK p).key) : (s.checkUp p).get f = s.get f := by
  unfold State.checkUp
  split
  · exact get_set_other _ _ h
  · rfl

/-! ### Links down (spec/10_seam_ports_and_collectives.md R325) -/

/-- A link that starts again from step 1, or stays disabled. -/
def State.startsAgain (s : State) (p : Nat) : State := (s.clearPort p).setLink p (if s.flag (R.SP_CFG_EN p) then 1 else 0)

theorem startsAgain_only (s : State) (p : Nat) : Only [.bar, .seam] s (s.startsAgain p) :=
  ((clearPort_only s p).mono (by simp)).trans ((State.set_only _ _ _).mono (by simp))

theorem link_startsAgain (s : State) (p : Nat) :
    (s.startsAgain p).link p = if s.flag (R.SP_CFG_EN p) then 1 else 0 := by
  rw [State.startsAgain, link_setLink]
  split <;> rfl

theorem linkDown_raises {quiet : Bool} (hq : quiet = false) (hl : s.link p = 3 ∨ s.link p = 4) : s.linkDown p quiet
    = (s.startsAgain p).raise Code.SEAM_LINK_DOWN (0xC20 + p) 0 (s.get (R.SP_STATUS_PEER p)) := by
  have hpeer : (s.startsAgain p).get (R.SP_STATUS_PEER p) = s.get (R.SP_STATUS_PEER p) :=
    get_set_other _ _ (by simp [Fld.key, R.SP_STATUS_PEER, R.SP_STATUS_LINK])
  rw [← hpeer]
  exact if_pos (by simpa [hq] using hl)

theorem linkDown_silent {quiet : Bool} (h : quiet = true ∨ (s.link p ≠ 3 ∧ s.link p ≠ 4)) :
    s.linkDown p quiet = s.startsAgain p := by
  refine if_neg ?_
  rcases h with rfl | ⟨h3, h4⟩
  · simp
  · simp [h3, h4]

/-! ### The check of what arrives (spec/10_seam_ports_and_collectives.md R317, R323, R328) -/

theorem checkMsg_badCrc (h : smCrcOk m = false) : s.checkMsg p m
    = ((s.bump (R.E2E_ERR p) 1).raise Code.SEAM_E2E_CRC (0xC20 + p) m.ty (seamArg m.src 0), false) :=
  if_pos (by rw [h]; rfl)

theorem checkMsg_malformed (h : smCrcOk m = true) (hm : s.msgBad p m = true) :
    s.checkMsg p m = (s.raise Code.SEAM_MSG_FIELD (0xC20 + p) m.ty (seamArg m.src 0), false) :=
  (if_neg (by rw [h]; decide)).trans (if_pos hm)

theorem checkMsg_relays (h : smCrcOk m = true) (hm : s.msgBad p m = false) (hty : 0x10 ≤ m.ty) (hd : m.dst ≠ s.modId) :
    s.checkMsg p m = (s.sendMsg p m, false) :=
  (if_neg (by rw [h]; decide)).trans ((if_neg (ne_true_of_eq_false hm)).trans (if_pos (by simp [sequenced, hty, hd])))

theorem checkMsg_accepts (h : smCrcOk m = true) (hm : s.msgBad p m = false) (hd : m.ty < 0x10 ∨ m.dst = s.modId) :
    s.checkMsg p m = (s, true) := by
  have hhere : ¬ (sequenced m.ty && m.dst ≠ s.modId) = true := by
    rcases hd with hty | hd
    · simp [sequenced, hty]
    · simp [hd]
  exact (if_neg (by rw [h]; decide)).trans ((if_neg (ne_true_of_eq_false hm)).trans (if_neg hhere))

theorem onMsg_taken {ty : Nat} {t : State} (hty : m.ty = ty) (h : s.receive p m = (t, true)) (k : State → State) :
    s.onMsg p m ty k = k t := by
  rw [State.onMsg, if_neg (not_not.2 hty), h]
  rfl

end Sys2Proof.Machine
end

section
/-! PROOFS. The obligation on seam links: training, negotiation, holding and going down
(spec/10_seam_ports_and_collectives.md R314 to R325, R347). -/

namespace Sys2Proof.Machine

variable {s : State} {p : Nat} {m : SMsg}

/-! ### Negotiation (spec/10_seam_ports_and_collectives.md R319, R320, Table 10.6) -/

/-- The `NEGOTIATE` of a tick goes to the peer once it is known; before that its receiver is free. -/
theorem exec_negotiateTick (hs : s.safe = false) (hp : p < 8) (hl : s.link p = 2) (hpause : (s.port p).pause = 0) :
    ∃ (n : Nat) (m : SMsg), exec (.negotiateTick p) s = .next (((State.frame { s with free := n } p m).setPort p
        { s.port p with sentSeen := (s.port p).sentSeen || (s.port p).seen }).checkUp p)
      ∧ m.ty = 1 ∧ m.src = s.modId ∧ m.body = s.negBody p ∧ smCrcOk m = true
      ∧ ((s.port p).seen = true → m.dst = s.get (R.SP_STATUS_PEER p) ∧ m.rport = s.get (R.SP_STATUS_PEER_PORT p)) := by
  have hexec : exec (.negotiateTick p) s = _ := if_neg (by simp [hs, hp, hl, hpause])
  cases hseen : (s.port p).seen with
  | true =>
    refine ⟨s.free, s.linkMsg p 1 0 (s.negBody p), hexec.trans ?_, rfl, rfl, rfl, smCrcOk_smSigned _, fun _ => ⟨rfl, rfl⟩⟩
    rw [hseen]
    rfl
  | false =>
    refine ⟨s.free + 2, smSigned { s.linkMsg p 1 0 (s.negBody p) with
      dst := (s.freeVal 14).1.toNat, rport := ((s.freeVal 14).2.freeVal 3).1.toNat }, hexec.trans ?_, rfl, rfl, rfl,
      smCrcOk_smSigned _, nofun⟩
    rw [hseen]
    rfl

/-- Does a `NEGOTIATE` agree with the port that receives it: the same installation, another module, the same use of PFC? -/
def State.agreesWith (s : State) (p : Nat) (m : SMsg) : Prop :=
  field m.body 4 4 = s.get R.SEAM_GCFG_INSTALL ∧ field m.body 0 2 ≠ s.modId
    ∧ bit (field m.body 3 1) 2 = s.flag (R.SP_CFG_PFC_EN p)

/-- The fields of the link that a `NEGOTIATE` settles, and their values. -/
def State.settledFields (s : State) (p : Nat) (m : SMsg) (k : Nat) : List (Fld × Nat) :=
  [(R.SP_STATUS_PEER p, field m.body 0 2), (R.SP_STATUS_PEER_PORT p, field m.body 2 1), (R.SP_STATUS_VMAJ p, k),
    (R.SP_STATUS_VMIN p, min ((slice m.body 8 16).getD k 0).toNat (myVminor.getD k 0).toNat),
    (R.SP_STATUS_PAY4K p, b2n (bit (field m.body 3 1) 1 && s.flag (R.SP_CFG_PAYLOAD p)))]

/-- They are fields of the port's status register, above `LINK`. -/
theorem mem_settledFields {k : Nat} : ∀ x ∈ s.settledFields p m k,
    x.1.off = 0x20018 + 0x1000 * p ∧ 30 ≤ x.1.lo ∧ x.1.lo < 64 := by
  simp [State.settledFields, R.SP_STATUS_PEER, R.SP_STATUS_PEER_PORT, R.SP_STATUS_VMAJ, R.SP_STATUS_VMIN, R.SP_STATUS_PAY4K]

/-- The link with those fields settled. -/
def State.settled (s : State) (p : Nat) (m : SMsg) (k : Nat) : State := s.setAll (s.settledFields p m k)

theorem get_settled_peer (s : State) (p : Nat) (m : SMsg) (k : Nat) :
    (s.settled p m k).get (R.SP_STATUS_PEER p) = field m.body 0 2 % 2 ^ 14 :=
  get_setAll_mem (f := R.SP_STATUS_PEER p) (by simp [State.settledFields, Fld.key, R.SP_STATUS_PEER, R.SP_STATUS_PEER_PORT,
    R.SP_STATUS_VMAJ, R.SP_STATUS_VMIN, R.SP_STATUS_PAY4K]) s (.inl (by simp [State.settledFields]))

theorem get_settled_vmaj (s : State) (p : Nat) (m : SMsg) (k : Nat) :
    (s.settled p m k).get (R.SP_STATUS_VMAJ p) = k % 16 :=
  get_setAll_mem (f := R.SP_STATUS_VMAJ p) (by simp [State.settledFields, Fld.key, R.SP_STATUS_PEER, R.SP_STATUS_PEER_PORT,
    R.SP_STATUS_VMAJ, R.SP_STATUS_VMIN, R.SP_STATUS_PAY4K]) s (.inl (by simp [State.settledFields]))

theorem link_settled (s : State) (p : Nat) (m : SMsg) (k : Nat) : (s.settled p m k).link p = s.link p := by
  refine get_setAll_other s fun x hx => ?_
  obtain ⟨hoff, hlo, -⟩ := mem_settledFields x hx
  simp only [Fld.key, hoff, R.SP_STATUS_LINK]
  omega

theorem modId_settled (s : State) (p : Nat) (m : SMsg) (k : Nat) : (s.settled p m k).modId = s.modId := by
  refine get_setAll_other s fun x hx => ?_
  obtain ⟨hoff, hlo, hhi⟩ := mem_settledFields x hx
  simp only [Fld.key, hoff, R.NUM_SR_MODULE_MODULE]
  omega

/-- The port after a `NEGOTIATE` with which it agrees. -/
def State.heard (s : State) (p : Nat) (m : SMsg) : SPort :=
  { s.port p with seen := true, peerSeen := (s.port p).peerSeen || bit (field m.body 3 1) 0, id := s.modId }

theorem rxNegotiate_settles {k : Nat} (hk : commonMajor (slice m.body 8 16) myVminor = some k)
    (ha : s.agreesWith p m) : s.rxNegotiate p m = ((s.settled p m k).setPort p (s.heard p m)).checkUp p := by
  obtain ⟨hinstall, hpeer, hpfc⟩ := ha
  have hid : s.heard p m = { s.port p with
    seen := true, peerSeen := (s.port p).peerSeen || bit (field m.body 3 1) 0, id := (s.settled p m k).modId } := by
      rw [modId_settled]
      rfl
  rw [hid]
  simp only [State.rxNegotiate, hk]
  exact if_neg (by simp [hinstall, hpeer, hpfc])

/-- A `NEGOTIATE` that settles nothing is refused, once for each training. -/
theorem rxNegotiate_refuses (h : commonMajor (slice m.body 8 16) myVminor = none ∨ ¬ s.agreesWith p m) :
    s.rxNegotiate p m = if (s.port p).refused then s else
      (s.setPort p { s.port p with refused := true }).raise Code.SEAM_NEG_FAIL (0xC20 + p) 1 (seamArg (field m.body 0 2) 0) := by
  cases hk : commonMajor (slice m.body 8 16) myVminor with
  | none =>
    simp only [State.rxNegotiate, hk]
    rfl
  | some k =>
    have hdiffers := h.resolve_left (by rw [hk]; exact Option.some_ne_none k)
    simp only [State.rxNegotiate, hk]
    refine if_pos ?_
    simpa [State.agreesWith, imp_iff_not_or, or_assoc] using hdiffers

theorem rxNegotiate_settled {k : Nat} (hk : commonMajor (slice m.body 8 16) myVminor = some k)
    (ha : s.agreesWith p m) :
    let u := s.rxNegotiate p m
    u.get (R.SP_STATUS_PEER p) = field m.body 0 2 % 2 ^ 14 ∧ u.get (R.SP_STATUS_VMAJ p) = k % 16 ∧ (u.port p).seen = true
      ∧ (u.port p).id = s.modId ∧ Only [.bar, .seam] s u
      ∧ u.link p = (if s.link p = 2 ∧ (s.port p).sentSeen = true
          ∧ ((s.port p).peerSeen = true ∨ bit (field m.body 3 1) 0 = true) then 3 else s.link p) := by
  intro u
  have hu : u = ((s.settled p m k).setPort p (s.heard p m)).checkUp p := rxNegotiate_settles hk ha
  have hport : u.port p = s.heard p m := by rw [hu, port_checkUp, State.port_setPort_same]
  refine ⟨?peer, ?vmaj, by rw [hport]; rfl, by rw [hport]; rfl, ?only, ?link⟩
  case peer =>
    rw [hu, get_checkUp_other _ (by simp [Fld.key, R.SP_STATUS_PEER, R.SP_STATUS_LINK])]
    exact get_settled_peer s p m k
  case vmaj =>
    rw [hu, get_checkUp_other _ (by simp [Fld.key, R.SP_STATUS_VMAJ, R.SP_STATUS_LINK])]
    exact get_settled_vmaj s p m k
  case only =>
    rw [hu]
    exact (((s.setAll_only _).mono (by simp)).trans ((State.setPort_only _ _ _).mono (by simp))).trans
      ((checkUp_only _ _).mono (by simp))
  case link =>
    rw [hu, link_checkUp, State.port_setPort_same, link_setPort, link_settled]
    refine if_congr ?_ rfl rfl
    rw [State.heard, Bool.or_eq_true]
    tauto

/-- A `NEGOTIATE` at a port whose link is negotiating, up, or held by its peer is counted, and checked as any message is. -/
theorem exec_seamNegotiate (hs : s.safe = false) (hp : p < 8) (hty : m.ty = 1) (hl : 2 ≤ s.link p ∧ s.link p ≤ 4) :
    exec (.seamNegotiate p m) s = .next (
      let c := (s.bump (R.FRAMES_RX p) 1).checkMsg p m
      if !c.2 || s.link p = 3 then c.1
      else (if s.link p = 4 then (c.1.clearPort p).setLink p 2 else c.1).rxNegotiate p m) := by
  have hexec : exec (.seamNegotiate p m) s = _ := if_neg (by simp [hs, hp, hty, inRange, hl])
  exact hexec.trans (apply_ite go _ _ _).symm

/-! ### The obligation -/

/-- Settles O27: every command of the link is its meaning under the guard of its port; a settled negotiation is read off the
fields that it sets and the two `SEEN` flags. -/
theorem seamLinksComeUpHoldAndGoDown : Obligations.SeamLinksComeUpHoldAndGoDown := by
  refine ⟨?again, ?training, ?tick, ?negotiates, ?checks, ?settles, ?bound, ?held, ?holds, ?silence, ?loss⟩
  case again =>
    exact fun p quiet s hp => ⟨link_startsAgain s p, port_clearPort s p, mem_future_clearPort s p, startsAgain_only s p,
      fun q hq hne => ⟨link_setLink_other _ _ hne, port_clearPort_other s hne⟩, linkDown_raises, linkDown_silent⟩
  case training =>
    exact fun p s hs hp hl => ⟨if_neg (by simp [hs, hp, hl]), if_neg (by simp [hs, hp, hl])⟩
  case tick =>
    intro p s hs hp hl hpause
    obtain ⟨n, m, hexec, hty, hsrc, hbody, hcrc, hpeer⟩ := exec_negotiateTick hs hp hl hpause
    refine ⟨_, s.stamped p m, hexec, checkUp_only _ _ .out (by simp), hty, hsrc, hbody, (smCrcOk_stamped s p m).trans hcrc, hpeer,
      ?_, ?_⟩
    · rw [port_checkUp, State.port_setPort_same]
    · rw [link_checkUp, State.port_setPort_same, link_setPort, link_frame hp]
      have hlink : State.link { s with free := n } p = 2 := hl
      simp only [hlink, Bool.or_eq_true, and_true, ite_and]
  case negotiates =>
    intro p m s hs hp hty hl t hcrc hform
    rw [exec_seamNegotiate hs hp hty (by omega), checkMsg_accepts hcrc hform (.inl (by omega))]
    exact congrArg _ (if_neg (by simp; omega))
  case checks =>
    intro p m s hs hp hty hlo hhi t
    rw [exec_seamNegotiate hs hp hty ⟨hlo, hhi⟩]
    refine ⟨fun hcrc => ?_, fun hcrc hform => ?_, fun hcrc hform hl => ?_⟩
    · rw [checkMsg_badCrc hcrc, hty]
      rfl
    · rw [checkMsg_malformed hcrc hform, hty]
      rfl
    · rw [checkMsg_accepts hcrc hform (.inl (by omega))]
      exact congrArg _ (if_pos (by simp [hl]))
  case settles =>
    intro p m s hp peer fl common agrees
    refine ⟨fun k hk ha => rxNegotiate_settled hk ha, fun h href => ?_, fun h href => ?_⟩
    · exact (rxNegotiate_refuses h).trans (if_pos href)
    · exact (rxNegotiate_refuses h).trans (if_neg (ne_true_of_eq_false href))
  case bound => exact fun p s hs hp hl => if_neg (by simp [hs, hp, hl])
  case held => exact fun p m t s hty h => congrArg _ (onMsg_taken hty h _)
  case holds =>
    intro p s hs hp hl hpause
    have hexec : exec (.holdTick p) s = .next (s.sendHold p) := if_neg (by simp [hs, hp, hl])
    have hsend : s.sendHold p = _ := if_neg (not_not.2 hpause)
    exact ⟨_, _, hexec.trans (congrArg _ hsend), frame_out s p _, rfl, rfl, rfl, smCrcOk_smSigned _, s.frame_only p _⟩
  case silence => exact fun p s hs hp hl => if_neg (by simp [hs, hp, hl])
  case loss => exact fun p s hs hp hlo hhi => if_neg (by simp [hs, hp, inRange, hlo, hhi])

end Sys2Proof.Machine
end

section
/-! PROOFS. The obligation on reliable delivery on a seam link (spec/10_seam_ports_and_collectives.md R316 to R324, R328). -/

namespace Sys2Proof.Machine

variable {s : State} {p : Nat} {m : SMsg}

/-! ### Acknowledgements that arrive (spec/10_seam_ports_and_collectives.md R322) -/

/-- A port after a frame's `LACK` and `FREE`. -/
def SPort.acknowledged (x : SPort) (m : SMsg) : SPort :=
  if diff24 m.lack x.lack ≠ 0 && decide (diff24 m.lack x.lack ≤ x.replay.length) then
    { x with lack := m.lack % 2 ^ 24, replay := x.replay.drop (diff24 m.lack x.lack), rtx := 0, free := m.free }
  else { x with free := m.free }

theorem SPort.acknowledged_frame (x : SPort) (m : SMsg) : (x.acknowledged m).free = m.free
    ∧ (x.acknowledged m).rxSeq = x.rxSeq ∧ (x.acknowledged m).txSeq = x.txSeq := by
  unfold SPort.acknowledged
  split <;> exact ⟨rfl, rfl, rfl⟩

theorem SPort.acknowledged_releases {x : SPort} (h0 : 0 < diff24 m.lack x.lack)
    (h : diff24 m.lack x.lack ≤ x.replay.length) : x.acknowledged m
      = { x with lack := m.lack % 2 ^ 24, replay := x.replay.drop (diff24 m.lack x.lack), rtx := 0, free := m.free } :=
  if_pos (by simp [h, h0.ne'])

theorem SPort.acknowledged_keeps {x : SPort} (h : diff24 m.lack x.lack = 0 ∨ x.replay.length < diff24 m.lack x.lack) :
    x.acknowledged m = { x with free := m.free } :=
  if_neg (by simp; omega)

/-- With nothing waiting for the window, a frame's `LACK` and `FREE` change the port and send nothing. -/
theorem takeLack_idle (h : (s.port p).toSend = []) : s.takeLack p m = s.setPort p ((s.port p).acknowledged m) := by
  unfold State.takeLack SPort.acknowledged
  dsimp only
  split
  · rw [h]
    rfl
  · rw [h]
    rfl

/-! ### Frames received (spec/10_seam_ports_and_collectives.md R316, R321) -/

section

variable (hs : s.safe = false) (hp : p < 8) (hl : s.link p = 3 ∨ s.link p = 4)
include hs hp hl

theorem receive_linked : s.receive p m = (
    let t := (s.bump (R.FRAMES_RX p) 1).takeLack p m
    if sequenced m.ty then
      if (t.takeSeq p m).2 then (t.takeSeq p m).1.checkMsg p m else ((t.takeSeq p m).1, false)
    else t.checkMsg p m) :=
  if_neg (by simp [hs, hp, inRange]; omega)

theorem receive_unsequenced (hty : m.ty < 0x10) :
    s.receive p m = ((s.bump (R.FRAMES_RX p) 1).takeLack p m).checkMsg p m :=
  (receive_linked hs hp hl).trans (if_neg (by simpa [sequenced] using hty))

theorem receive_taken {t : State} (hty : 0x10 ≤ m.ty)
    (h : ((s.bump (R.FRAMES_RX p) 1).takeLack p m).takeSeq p m = (t, true)) : s.receive p m = t.checkMsg p m := by
  refine (receive_linked hs hp hl).trans ((if_pos (decide_eq_true hty)).trans ?_)
  rw [h]
  rfl

theorem receive_not_taken {t : State} (hty : 0x10 ≤ m.ty)
    (h : ((s.bump (R.FRAMES_RX p) 1).takeLack p m).takeSeq p m = (t, false)) : s.receive p m = (t, false) := by
  refine (receive_linked hs hp hl).trans ((if_pos (decide_eq_true hty)).trans ?_)
  rw [h]
  rfl

end

theorem takeSeq_expected (h : m.lseq % 2 ^ 24 = (s.port p).rxSeq) : s.takeSeq p m
    = (s.setPort p { s.port p with rxSeq := ((s.port p).rxSeq + 1) % 2 ^ 24, naked := false }, true) := if_pos h

/-- A frame beyond the expected one is acknowledged negatively, once until an expected one comes. -/
theorem takeSeq_later (h : m.lseq % 2 ^ 24 ≠ (s.port p).rxSeq)
    (hlater : serialLater 24 (m.lseq % 2 ^ 24) (s.port p).rxSeq = true) : s.takeSeq p m
      = (if (s.port p).naked then s else (s.setPort p { s.port p with naked := true }).sendAck p true, false) :=
  (if_neg h).trans (if_pos hlater)

theorem takeSeq_earlier (h : m.lseq % 2 ^ 24 ≠ (s.port p).rxSeq)
    (hlater : serialLater 24 (m.lseq % 2 ^ 24) (s.port p).rxSeq = false) : s.takeSeq p m = (s.sendAck p false, false) :=
  (if_neg h).trans (if_neg (ne_true_of_eq_false hlater))

theorem msgBad_of_unknownType (h : knownType m.ty = false) (s : State) (p : Nat) : s.msgBad p m = true := by
  rw [State.msgBad, h]
  rfl

/-! ### Acknowledgements and frames sent again (spec/10_seam_ports_and_collectives.md R321, R322, R324) -/

theorem sendAck_unpaused (h : (s.port p).pause = 0) (neg : Bool) :
    s.sendAck p neg = s.frame p (s.linkMsg p 2 (b2n neg) []) := if_pos h

/-- A message of a type received is acted on by nothing more where its action is the identity. -/
theorem onMsg_id {ty : Nat} (hty : m.ty = ty) : s.onMsg p m ty id = (s.receive p m).1 := by
  rw [State.onMsg, if_neg (not_not.2 hty)]
  exact ite_self _

theorem frames_only (s : State) (p : Nat) (l : List SMsg) : Only [.bar, .out] s (l.foldl (fun s m => s.frame p m) s) :=
  Only.foldl (fun s m => s.frame_only p m) l s

theorem length_out_frames (s : State) (p : Nat) (l : List SMsg) :
    (l.foldl (fun s m => s.frame p m) s).out.length = s.out.length + l.length := by
  induction l generalizing s with
  | nil => rfl
  | cons m l ih =>
    rw [List.foldl_cons, ih, frame_out, List.length_append, List.length_singleton, List.length_cons]
    omega

/-- A retransmission counts itself, sends what `FREE` allows of the replay store, and keeps the store. -/
theorem resend_spec (hpause : (s.port p).pause = 0) (hsome : (s.port p).replay.take (s.port p).free ≠ []) :
    Only [.bar, .seam, .out] s (s.resend p)
      ∧ (s.resend p).port p = { s.port p with rtx := (s.port p).rtx + 1 }
      ∧ (s.resend p).out.length = s.out.length + ((s.port p).replay.take (s.port p).free).length := by
  let t := (s.setPort p { s.port p with rtx := (s.port p).rtx + 1 }).bump (R.RETRANSMITS p)
    ((s.port p).replay.take (s.port p).free).length
  have hresend : s.resend p = ((s.port p).replay.take (s.port p).free).foldl (fun s m => s.frame p m) t :=
    if_neg (by simp [hpause, List.isEmpty_iff, hsome])
  have hframes := frames_only t p ((s.port p).replay.take (s.port p).free)
  have ht : Only [.bar, .seam] s t :=
    ((s.setPort_only _ _).mono (by simp)).trans ((State.bump_only _ _ _).mono (by simp))
  have hport : (s.resend p).port p = t.port p := by
    rw [hresend, State.port, show State.seam _ = t.seam from hframes .seam (by simp), State.port]
  refine ⟨?_, hport.trans (State.port_setPort_same _ _ _), ?_⟩
  · rw [hresend]
    exact (ht.mono (by simp)).trans (hframes.mono (by simp))
  · rw [hresend, length_out_frames]
    rfl

theorem resend_waits (h : (s.port p).pause ≠ 0 ∨ (s.port p).free = 0) : s.resend p = s := by
  refine if_pos ?_
  rcases h with h | h
  · simp [h]
  · simp [h]

theorem retransmit_again (h : (s.port p).rtx < s.get (R.SP_DL_RTX_MAX p)) : s.retransmit p = s.resend p :=
  if_neg (Nat.not_le.2 h)

/-! ### Relaying, filtering and pausing (spec/10_seam_ports_and_collectives.md R316, R324, R328) -/

theorem sendMsg_unrouted (h : routeFor (s.seamTabOf p).routes m.dst = none) :
    s.sendMsg p m = s.raise Code.SEAM_ROUTE (0xC20 + p) m.ty m.src := by
  rw [State.sendMsg, State.sendVia, h]

theorem sendMsg_routed {r : RouteRec} (h : routeFor (s.seamTabOf p).routes m.dst = some r) :
    s.sendMsg p m = s.portSend r.lport (smSigned { m with rport := r.rport }) := by
  rw [State.sendMsg, State.sendVia, h]

theorem resumePort_idle (hsend : (s.port p).toSend = []) (hack : (s.port p).ackDue = none) : s.resumePort p = s := by
  unfold State.resumePort
  dsimp only
  split
  · rfl
  · rw [hack, hsend]
    rfl

/-! ### The obligation -/

/-- Settles O28: a frame received goes through the sequence check and then the check of its form; what is sent again is the
replay store, as far as `FREE` goes. -/
theorem seamFramesAreDeliveredInOrderOnce : Obligations.SeamFramesAreDeliveredInOrderOnce := by
  refine ⟨?lack, ?received, ?checked, ?acks, ?again, ?timeout, ?interval, ?relayed, ?routed, ?ackWaits, ?notTaken, ?pfc⟩
  case lack =>
    intro p m s hidle x adv y
    have hy : y = x.acknowledged m := by
      change (s.takeLack p m).port p = _
      rw [takeLack_idle hidle, State.port_setPort_same]
    obtain ⟨hfree, hrx, htx⟩ := x.acknowledged_frame m
    refine ⟨?_, hy ▸ hfree, hy ▸ hrx, hy ▸ htx, fun h0 hle => ?_, fun h => ?_⟩
    · rw [takeLack_idle hidle]
      exact s.setPort_only _ _
    · rw [hy, SPort.acknowledged_releases h0 hle]
      exact ⟨rfl, rfl, rfl⟩
    · rw [hy, SPort.acknowledged_keeps h]
      exact ⟨rfl, rfl⟩
  case received =>
    exact fun p m s hs hp hl => ⟨receive_unsequenced hs hp hl,
      fun hty hq => receive_taken hs hp hl hty (takeSeq_expected hq),
      fun hty hq hlater => receive_not_taken hs hp hl hty (takeSeq_later hq hlater),
      fun hty hq hlater => receive_not_taken hs hp hl hty (takeSeq_earlier hq hlater)⟩
  case checked =>
    exact fun p m s => ⟨checkMsg_badCrc, checkMsg_malformed, checkMsg_relays, checkMsg_accepts,
      fun h => msgBad_of_unknownType h s p⟩
  case acks =>
    intro p m s hty
    refine ⟨fun hk => ?_, fun t hk h => ?_⟩
    · have hexec : exec (.ack p m) s = .next (s.onMsg p m 2 id) := if_neg hk
      rw [hexec, onMsg_id hty]
    · have hexec : exec (.nak p m) s = .next (s.onMsg p m 2 _) := if_neg (not_not.2 hk)
      rw [hexec, onMsg_taken hty h]
  case again =>
    intro p s x
    refine ⟨fun hmax => if_pos hmax, fun hlt hpause hsome => ?_, fun hlt hwait => ?_⟩
    · obtain ⟨honly, hport, hout⟩ := resend_spec hpause hsome
      exact ⟨_, retransmit_again hlt, honly, by rw [hport], by rw [hport], hout⟩
    · rw [retransmit_again hlt, resend_waits hwait]
  case timeout => exact fun p s hs hp hl hr => if_neg (by simp [hs, hp, hl, hr])
  case interval =>
    intro p s hs hp hl hpause
    have hexec : exec (.ackInterval p) s = .next (s.sendAck p false) := if_neg (by simp [hs, hp, hpause, inRange]; omega)
    rw [sendAck_unpaused hpause] at hexec
    exact ⟨_, _, hexec, frame_out s p _, rfl, rfl, rfl, rfl, rfl, smCrcOk_smSigned _⟩
  case relayed =>
    exact fun p m s => ⟨fun hd hty => if_neg (by simp [hd, sequenced, hty]), fun h => if_neg (ne_true_of_eq_false h)⟩
  case routed => exact fun p m s => ⟨sendMsg_unrouted, fun r => sendMsg_routed⟩
  case ackWaits =>
    intro p neg s x
    exact ⟨fun hpause => if_neg hpause, fun hpause => ⟨_, _, sendAck_unpaused hpause neg, s.frame_only p _, frame_out s p _,
      rfl, rfl, rfl⟩⟩
  case notTaken =>
    intro p s hs hp hlo hhi
    refine ⟨fun da etype h => if_neg ?_, if_neg (by simp [hs, hp, inRange, hlo, hhi])⟩
    have hother : s.accepts p da etype = false := by simpa [State.accepts, imp_iff_not_or] using h
    simp [hs, hp, inRange, hlo, hhi, hother]
  case pfc =>
    intro p quanta s hs hp hlo hhi hen hidle hack
    have hexec : exec (.pfcFrame p (s.get (R.SP_CFG_PRIO p)) quanta) s = .next
        (((s.bump (R.PAUSE_RX p) quanta).setPort p { s.port p with pause := 128 * quanta }).resumePort p) :=
      if_neg (by simp [hs, hp, inRange, hlo, hhi, hen])
    rw [hexec, resumePort_idle]
    · rw [State.port_setPort_same]
      exact hidle
    · rw [State.port_setPort_same]
      exact hack

end Sys2Proof.Machine
end

section
/-! PROOFS. Tokens out and in at a seam port: what becomes of a token by its fate, outbound streams, and the tokens and hem
markers that an inbound stream sends (spec/10_seam_ports_and_collectives.md R329 to R331). -/

namespace Sys2Proof.Machine

variable {s : State} {p : Nat} {m : SMsg}

/-! ### Headers formed (spec/04_fabric_tokens_and_steering.md Table 4.1) -/

/-- A header formed is its fields, each in its place, above the check code. -/
theorem toNat_mkHdr (f : HdrF) : ∃ c < 256, (mkHdr f).toNat = f.dest % 4096 * 2 ^ 52 + f.dq % 32 * 2 ^ 47
    + f.gen % 16 * 2 ^ 43 + f.tag % 256 * 2 ^ 35 + f.kind % 8 * 2 ^ 32 + b2n f.basted * 2 ^ 31 + f.vc % 4 * 2 ^ 29
    + f.len % 128 * 2 ^ 22 + f.srcp % 64 * 2 ^ 16 + f.slot % 256 * 2 ^ 8 + c := by
  have hb : b2n f.basted < 2 := by cases f.basted <;> decide
  refine ⟨hdrCrc _, crc8_lt _, (BitVec.toNat_ofNat _ _).trans (Nat.mod_eq_of_lt ?_)⟩
  have hc : hdrCrc (f.dest % 4096 * 2 ^ 52 + f.dq % 32 * 2 ^ 47 + f.gen % 16 * 2 ^ 43 + f.tag % 256 * 2 ^ 35
    + f.kind % 8 * 2 ^ 32 + b2n f.basted * 2 ^ 31 + f.vc % 4 * 2 ^ 29 + f.len % 128 * 2 ^ 22 + f.srcp % 64 * 2 ^ 16
    + f.slot % 256 * 2 ^ 8) < 256 := crc8_lt _
  omega

theorem hGen_mkHdr (f : HdrF) : hGen (mkHdr f) = f.gen % 16 := by
  have hb : b2n f.basted < 2 := by cases f.basted <;> decide
  obtain ⟨c, hc, h⟩ := toNat_mkHdr f
  rw [hGen, bits, h]
  omega

theorem hBasted_mkHdr (f : HdrF) : hBasted (mkHdr f) = f.basted := by
  have hb : b2n f.basted < 2 := by cases f.basted <;> decide
  obtain ⟨c, hc, h⟩ := toNat_mkHdr f
  have hbit : bits (mkHdr f).toNat 31 1 = b2n f.basted := by
    rw [bits, h]
    omega
  rw [hBasted, bit, hbit]
  cases f.basted <;> rfl

/-! ### Tokens that a port sends (spec/04_fabric_tokens_and_steering.md R145) -/

theorem sendUnit_net {unit : Nat} (h : attachments unit ≠ []) (s : State) (k : Token) (src : Option (Nat × Nat)) :
    ∃ m : NetTok, (s.sendUnit unit k src).net = s.net ++ [m] ∧ m.tok = k := by
  simp only [State.sendUnit, List.getElem?_eq_getElem (nearIdx_lt h _)]
  exact ⟨_, rfl, rfl⟩

theorem attachments_seam : ∀ p < 8, attachments (0xC20 + p) ≠ [] := by decide

/-! ### Outbound streams (spec/10_seam_ports_and_collectives.md R329) -/

/-- The `OUT` record of a token: that of its slot and generation that has not ended. -/
def State.outOf (s : State) (p : Nat) (k : Token) : Option OutStream :=
  s.seam.outs.find? fun o => o.rc.port = p && o.rc.slot = hSlot k.hdr && o.gen = hGen k.hdr && !o.hem

theorem packTok_joins {k : Token} {o : OutStream} (h : s.outOf p k = some o) : s.packTok p k
    = (s.onOut o { o with packed := o.packed ++ [k] }).runOut { o with packed := o.packed ++ [k] } := by
  unfold State.packTok
  rw [show List.find? _ s.seam.outs = some o from h]

theorem packTok_unknown {k : Token} (h : s.outOf p k = none) : s.packTok p k = s := by
  unfold State.packTok
  rw [show List.find? _ s.seam.outs = none from h]

/-- What becomes of a token for an `OUT` record, by its fate. -/
def State.packFate (s : State) (p : Nat) (k : Token) : Fate → State
  | .sewn => s.packTok p k.sewn
  | .gone => s
  | .held _ => s.packTok p k

section

variable {hdr : W64} (pay : List Byte) (hs : s.safe = false) (hp : p < 8) (hd : hDest hdr = 0xC20 + p) (hq : hDq hdr = 0)
include hs hp hd hq

theorem streamOut_open : ¬ (s.safe || decide (8 ≤ p) || hDest hdr ≠ seamUnit p || hDq hdr ≠ 0) = true := by
  simp [hs, hp, hd, hq, seamUnit]

theorem exec_streamTokenOut_token (hk : hKind hdr = kData ∨ hKind hdr = kCtl ∨ hKind hdr = kEnd) {t : State} {x : Fate}
    (h : s.fate (seamUnit p) (fun d => d = 0) (if hBasted hdr then some (hTag hdr) else none) = (t, x)) :
    exec (.streamTokenOut p hdr pay) s = .next (t.packFate p ⟨hdr, pay⟩ x) := by
  have hhem : ¬ hKind hdr = kHem := by rcases hk with h | h | h <;> rw [h] <;> decide
  have hkind : (hKind hdr = kData || hKind hdr = kCtl || hKind hdr = kEnd) = true := by simpa [or_assoc] using hk
  change execStreamTokenOut p hdr pay s = _
  rw [execStreamTokenOut, if_neg (streamOut_open hs hp hd hq), if_neg hhem, if_pos hkind, h]
  cases x <;> rfl

theorem exec_streamTokenOut_hem (hk : hKind hdr = kHem) : exec (.streamTokenOut p hdr pay) s = .next (
    if !s.streamsHemmed p (hGen hdr) then s
    else (s.seam.outs.filter fun o => o.rc.port = p && o.gen = hGen hdr && !o.hem).foldl
      (fun s o => (s.onOut o { o with hem := true }).runOut { o with hem := true }) s) := by
  change execStreamTokenOut p hdr pay s = _
  rw [execStreamTokenOut, if_neg (streamOut_open hs hp hd hq), if_pos hk]
  exact (apply_ite go _ _ _).symm

end

/-- A stream sends a full message, or a partial one where all is to go. -/
theorem pumpOut_sends {all : Bool} {o : OutStream} {n : Nat}
    (hn : n = min (s.streamMax o.rc.port o.rc.rmod) (min o.ready.length o.credits))
    (h : n = s.streamMax o.rc.port o.rc.rmod ∨ (all = true ∧ 0 < n)) (k : Nat) : s.pumpOut all (k + 1) o
      = (s.sendStream o n).1.pumpOut all k { o with packed := o.packed.drop n, credits := o.credits - n } := by
  subst hn
  exact if_pos (by simpa using h)

theorem pumpOut_waits {all : Bool} {o : OutStream} {n : Nat}
    (hn : n = min (s.streamMax o.rc.port o.rc.rmod) (min o.ready.length o.credits))
    (hfull : n ≠ s.streamMax o.rc.port o.rc.rmod) (h : all = false ∨ n = 0) (k : Nat) :
    s.pumpOut all (k + 1) o = (s, o) := by
  subst hn
  refine if_neg ?_
  rcases h with rfl | h
  · simpa using hfull
  · simp [h, h ▸ hfull]

theorem endOut_ends {o : OutStream} (hh : o.hem = true) (hp : o.packed = []) : s.endOut o
    = { s with seam := { s.seam with outs := s.seam.outs.filter fun x => x ≠ o } }.sendMsg o.rc.port
      (s.msg 0x12 o.rc.rmod o.rc.rslot s.stepNo 0 0 0 []) :=
  if_pos (by simp [hh, hp])

theorem endOut_stands {o : OutStream} (h : o.hem = false ∨ o.packed ≠ []) : s.endOut o = s := by
  refine if_neg ?_
  rcases h with h | h
  · simp [h]
  · simp [h]

theorem exec_streamPackTimeout {slot : Nat} {o : OutStream} (hs : s.safe = false)
    (h : (s.seam.outs.find? fun o => o.rc.port = p && o.rc.slot = slot && !o.ready.isEmpty) = some o) :
    exec (.streamPackTimeout p slot) s
      = .next ((s.pumpOut true (o.packed.length + 1) o).1.endOut (s.pumpOut true (o.packed.length + 1) o).2) := by
  change execStreamPackTimeout p slot s = _
  rw [execStreamPackTimeout, h]
  exact if_neg (ne_true_of_eq_false hs)

theorem exec_streamCredit {o : OutStream} {t : State} (hty : m.ty = 0x11) (hr : s.receive p m = (t, true))
    (h : (t.seam.outs.find? fun o => o.rc.rmod = m.src && o.rc.rslot = m.kid) = some o) :
    exec (.streamCredit p m) s = .next ((t.onOut o { o with credits := o.credits + field m.body 0 4 }).runOut
      { o with credits := o.credits + field m.body 0 4 }) := by
  change execStreamCredit p m s = _
  rw [execStreamCredit, onMsg_taken hty hr, h]

/-! ### Inbound streams (spec/10_seam_ports_and_collectives.md R331) -/

theorem takeStream_held (h : s.quiesceHolds m = true) :
    s.takeStream p m = { s with seam := { s.seam with streams := s.seam.streams ++ [(p, m)] } } := if_pos h

theorem takeStream_mapped {i : InStream} (h : s.quiesceHolds m = false) (hi : s.inFor p m.kid = some i) :
    s.takeStream p m = if i.rc.smod ≠ m.src then s.raise Code.SEAM_STREAM_ORPHAN (0xC20 + p) 0x10 (seamArg m.src 0)
      else s.onIn i { i with queue := i.queue ++ bodyTokens m.body } := by
  rw [State.takeStream, if_neg (ne_true_of_eq_false h), hi]
  rfl

theorem takeStream_unmapped (h : s.quiesceHolds m = false) (hi : s.inFor p m.kid = none) :
    s.takeStream p m = if s.seam.hemSlots.contains (p, m.kid) then
        { s with seam := { s.seam with streams := s.seam.streams ++ [(p, m)] } }
      else s.raise Code.SEAM_STREAM_ORPHAN (0xC20 + p) 0x10 (seamArg m.src 0) := by
  rw [State.takeStream, if_neg (ne_true_of_eq_false h), hi]
  rfl

section

variable {t : State} (hr : s.receive p m = (t, true))
include hr

/-- A message waits behind those of its slot that are kept. -/
theorem exec_stream_behind (hty : m.ty = 0x10) (h : ∃ x ∈ t.seam.streams, x.1 = p ∧ x.2.kid = m.kid) :
    exec (.stream p m) s = .next { t with seam := { t.seam with streams := t.seam.streams ++ [(p, m)] } } := by
  change execStream p m s = _
  rw [execStream, onMsg_taken hty hr, if_pos (by simpa using h)]

theorem exec_stream_first (hty : m.ty = 0x10) (h : ¬ ∃ x ∈ t.seam.streams, x.1 = p ∧ x.2.kid = m.kid) :
    exec (.stream p m) s = .next (t.takeStream p m) := by
  change execStream p m s = _
  rw [execStream, onMsg_taken hty hr, if_neg (by simpa using h)]

theorem exec_streamHem_unmapped (hty : m.ty = 0x12) (hi : t.inFor p m.kid = none) :
    exec (.streamHem p m) s = .next (t.raise Code.SEAM_STREAM_ORPHAN (0xC20 + p) 0x12 (seamArg m.src 0)) := by
  change execStreamHem p m s = _
  rw [execStreamHem, onMsg_taken hty hr, hi]
  rfl

theorem exec_streamHem_orphan {i : InStream} (hty : m.ty = 0x12) (hi : t.inFor p m.kid = some i) (h : i.rc.smod ≠ m.src) :
    exec (.streamHem p m) s = .next (t.raise Code.SEAM_STREAM_ORPHAN (0xC20 + p) 0x12 (seamArg m.src 0)) := by
  change execStreamHem p m s = _
  rw [execStreamHem, onMsg_taken hty hr, hi]
  exact congrArg go (if_pos h)

theorem exec_streamHem_ends {i : InStream} (hty : m.ty = 0x12) (hi : t.inFor p m.kid = some i) (h : i.rc.smod = m.src) :
    exec (.streamHem p m) s = .next (
      let a := t.onIn i { i with hem := true }
      let b : State :=
        if (a.inFor p m.kid).isNone then { a with seam := { a.seam with hemSlots := (p, m.kid) :: a.seam.hemSlots } } else a
      (b.enforceIns p (b.unitGenNow (0xC20 + p))).hemIn { i with hem := true }) := by
  change execStreamHem p m s = _
  rw [execStreamHem, onMsg_taken hty hr, hi]
  exact congrArg go (if_neg (not_not.2 h))

end

/-- May a record that has ended send its hem marker: its tokens are re-injected, and its channel has a credit and a bucket
token and is not stopped? -/
def State.hemsIn (s : State) (i : InStream) : Prop :=
  i.hem = true ∧ i.queue = [] ∧ 0 < i.credits ∧ 0 < i.bucket ∧ s.chanStopped (0xC20 + i.rc.port) i.rc.slot = false

theorem hemIn_waits {i : InStream} (h : ¬ s.hemsIn i) : s.hemIn i = s :=
  if_neg (by simpa [State.hemsIn, seamUnit, and_assoc] using h)

/-- The state after a record has granted what it owes. -/
def State.paid (s : State) (i : InStream) : State := if i.owed = 0 then s else s.grant i.rc.port i.rc.smod i.rc.slot i.owed

/-- The hem marker of an inbound record. -/
def InStream.hemTok (i : InStream) : Token := ⟨mkHdr ⟨i.rc.dest, i.rc.dq, i.gen, 0, kHem, false, i.rc.vc, 0, 0x3F, 0⟩, []⟩

theorem hemIn_ends {i : InStream} (h : s.hemsIn i) : s.hemIn i
    = State.sendUnit { s.paid i with seam := { (s.paid i).seam with ins := (s.paid i).seam.ins.filter fun x => x ≠ i } }
      (0xC20 + i.rc.port) i.hemTok (some (0xC20 + i.rc.port, i.rc.slot)) :=
  if_pos (by simpa [State.hemsIn, seamUnit, and_assoc] using h)

/-- The hem marker of a record goes into the mesh, and the record is gone. -/
theorem hemIn_spec {i : InStream} (h : s.hemsIn i) (hp : i.rc.port < 8) :
    ∃ m, (s.hemIn i).net = (s.paid i).net ++ [m] ∧ hKind m.tok.hdr = kHem ∧ hDest m.tok.hdr = i.rc.dest % 4096
      ∧ hGen m.tok.hdr = i.gen % 16 ∧ (∀ x, x ∈ (s.hemIn i).seam.ins ↔ x ∈ (s.paid i).seam.ins ∧ x ≠ i)
      ∧ Only [.net, .seam] (s.paid i) (s.hemIn i) := by
  rw [hemIn_ends h]
  let t : State := { s.paid i with seam := { (s.paid i).seam with ins := (s.paid i).seam.ins.filter fun x => x ≠ i } }
  have ht : Only [.seam] (s.paid i) t := seam_only _ _
  have hsend := sendUnit_only t (0xC20 + i.rc.port) i.hemTok (some (0xC20 + i.rc.port, i.rc.slot))
  obtain ⟨m, hnet, htok⟩ := sendUnit_net (attachments_seam _ hp) t i.hemTok (some (0xC20 + i.rc.port, i.rc.slot))
  refine ⟨m, hnet, ?_, ?_, ?_, fun x => ?_, (ht.mono (by simp)).trans (hsend.mono (by simp))⟩
  · rw [htok]
    exact hKind_mkHdr _
  · rw [htok]
    exact hDest_mkHdr _
  · rw [htok]
    exact hGen_mkHdr _
  · rw [show State.seam _ = t.seam from hsend .seam (by simp)]
    simp [t, List.mem_filter]

theorem reinject_eq (i : InStream) (k : Token) : ∃ f : HdrF, i.reinject k = ⟨mkHdr f, k.pay⟩ ∧ f.basted = false
    ∧ f.dest = i.rc.dest ∧ f.gen = i.gen ∧ f.kind = hKind k.hdr := ⟨_, rfl, rfl, rfl, rfl, rfl⟩

/-- A token re-injected is sewn, and goes to the record's destination in its generation with its kind and payload. -/
theorem reinject_spec (i : InStream) (k : Token) : hBasted (i.reinject k).hdr = false ∧ (i.reinject k).pay = k.pay
    ∧ hDest (i.reinject k).hdr = i.rc.dest % 4096 ∧ hGen (i.reinject k).hdr = i.gen % 16
    ∧ hKind (i.reinject k).hdr = hKind k.hdr := by
  have hlt : hKind k.hdr < 8 := Nat.mod_lt _ (by decide)
  obtain ⟨f, hf, hbasted, hdest, hgen, hkind⟩ := reinject_eq i k
  rw [hf]
  simp only [hBasted_mkHdr, hDest_mkHdr, hGen_mkHdr, hKind_mkHdr, hbasted, hdest, hgen, hkind, Nat.mod_eq_of_lt hlt,
    and_self]

section

variable {slot : Nat} {i : InStream} {t : State} (hs : s.safe = false) (hd : s.drain ≠ 2)
  (ht : s.takeKept p slot s.seam.streams.length = t)
  (hi : (t.seam.ins.find? fun i => i.rc.port = p && i.rc.slot = slot && i.inForce) = some i)
include hs hd ht hi

theorem exec_streamReinject_empty (h : i.queue = []) : exec (.streamReinject p slot) s = .next (t.hemIn i) := by
  change execStreamReinject p slot s = _
  rw [execStreamReinject, if_neg (by simp [hs, hd]), ht]
  dsimp only
  rw [hi]
  dsimp only
  rw [h]

theorem exec_streamReinject_token {k : Token} {l : List Token} (h : i.queue = k :: l) :
    exec (.streamReinject p slot) s = .next (
      if i.credits = 0 || i.bucket = 0 || t.chanStopped (seamUnit p) slot then t
      else
        let i' : InStream := { i with
          queue := l, credits := i.credits - 1, bucket := i.bucket - 1
          tagc := if hKind k.hdr = kData || hKind k.hdr = kCtl then (i.tagc + 1) % 256 else i.tagc
          owed := if 16 ≤ i.owed + 1 then 0 else i.owed + 1 }
        let u := (t.onIn i i').sendUnit (0xC20 + p) (i.reinject k) (some (0xC20 + p, slot))
        if 16 ≤ i.owed + 1 then u.grant p i.rc.smod slot (i.owed + 1) else u) := by
  change execStreamReinject p slot s = _
  rw [execStreamReinject, if_neg (by simp [hs, hd]), ht]
  dsimp only
  rw [hi]
  dsimp only
  rw [h]
  dsimp only
  simp only [decide_eq_true_eq]
  exact (apply_ite go _ _ _).symm

end

theorem exec_creditGrantTimeout {slot : Nat} {i : InStream} (hs : s.safe = false)
    (h : (s.seam.ins.find? fun i => i.rc.port = p && i.rc.slot = slot && decide (0 < i.owed)) = some i) :
    exec (.creditGrantTimeout p slot) s = .next ((s.onIn i { i with owed := 0 }).grant p i.rc.smod slot i.owed) := by
  change execCreditGrantTimeout p slot s = _
  rw [execCreditGrantTimeout, h]
  exact if_neg (ne_true_of_eq_false hs)

end Sys2Proof.Machine
end

section
/-! PROOFS. The obligation on pipeline streams (spec/10_seam_ports_and_collectives.md R329 to R331). -/

namespace Sys2Proof.Machine

/-- Settles O30: a stream sends by one rule on its sewn tokens and its credits; an inbound record acts by what its slot holds
and by the credits of its channel. -/
theorem streamsPackCreditAndReinject : Obligations.StreamsPackCreditAndReinject := by
  refine ⟨?tokens, fun p k s => ⟨fun o => packTok_joins, packTok_unknown⟩, ?hems, ?pumps, fun o n s => rfl,
    fun o s => ⟨endOut_ends, endOut_stands, rfl⟩, fun p slot o s => exec_streamPackTimeout,
    fun p m o t s => exec_streamCredit, ?arrives, ?ends, ?hemIn, ?reinjects, reinject_spec,
    fun p slot i s => exec_creditGrantTimeout⟩
  case tokens =>
    intro p hdr pay s hs hp hd hq hk f
    have hexec : exec (.streamTokenOut p hdr pay) s = .next (f.1.packFate p ⟨hdr, pay⟩ f.2) :=
      exec_streamTokenOut_token pay hs hp hd hq hk rfl
    refine ⟨fun hb => ?_, fate_only _ _ _ _, fun h => ?_, fun h => ?_, fun g h => ?_⟩
    · change s.fate _ _ (if hBasted hdr then some (hTag hdr) else none) = _
      rw [if_neg (ne_true_of_eq_false hb)]
      rfl
    · rw [hexec, h]
      rfl
    · rw [hexec, h]
      rfl
    · rw [hexec, h]
      rfl
  case hems =>
    intro p hdr pay s hs hp hd hq hk
    rw [exec_streamTokenOut_hem pay hs hp hd hq hk]
    refine ⟨fun h => congrArg _ (if_pos (by rw [h]; rfl)), fun o h hone => congrArg _ ?_⟩
    rw [if_neg (by rw [h]; decide), hone]
    rfl
  case pumps => exact fun all k o s => ⟨fun h => pumpOut_sends rfl h k, fun hfull h => pumpOut_waits rfl hfull h k⟩
  case arrives =>
    intro p m t s hty hr keep behind
    refine ⟨exec_stream_behind hr hty, fun hb hq => ?_, fun i hb hq hi => ⟨fun hm => ?_, fun hm => ?_⟩, fun hb hq hi => ?_⟩
    · rw [exec_stream_first hr hty hb, takeStream_held hq]
    · rw [exec_stream_first hr hty hb, takeStream_mapped hq hi, if_neg (not_not.2 hm)]
    · rw [exec_stream_first hr hty hb, takeStream_mapped hq hi, if_pos hm]
    · rw [exec_stream_first hr hty hb, takeStream_unmapped hq hi]
  case ends =>
    exact fun p m t s hty hr => ⟨exec_streamHem_unmapped hr hty, fun i hi =>
      ⟨exec_streamHem_orphan hr hty hi, exec_streamHem_ends hr hty hi⟩⟩
  case hemIn => exact fun i s => ⟨hemIn_waits, fun h hp => hemIn_spec h hp⟩
  case reinjects =>
    intro p slot i s hs hd hp t hi
    refine ⟨exec_streamReinject_empty hs hd rfl hi, fun k l h hno => ?_, fun k l h hc hb hopen => ⟨?_, ?_⟩⟩
    · rw [exec_streamReinject_token (t := t) hs hd rfl hi h]
      exact congrArg _ (if_pos (by simpa [or_assoc, seamUnit] using hno))
    · rw [exec_streamReinject_token (t := t) hs hd rfl hi h]
      exact congrArg _ (if_neg (by simp [hc.ne', hb.ne', seamUnit, hopen]))
    · exact sendUnit_net (attachments_seam p hp) _ _ _

end Sys2Proof.Machine
end

section
/-! PROOFS. The obligation on just-in-time gathering, at the requester and at the owner
(spec/10_seam_ports_and_collectives.md R339 to R341). -/

namespace Sys2Proof.Machine

variable {s : State} {p : Nat} {m : SMsg} {g : Gather}

/-! ### Requests (spec/10_seam_ports_and_collectives.md R341) -/

/-- What becomes of a gather request, by its fate. -/
def State.gatherFate (s : State) (p gen : Nat) (b : List Byte) : Fate → State
  | .sewn => s.startGather p gen b
  | .gone => s
  | .held tag => { s with seam := { s.seam with gatherHeld := s.seam.gatherHeld ++ [⟨p, tag, gen, b⟩] } }

theorem exec_gatherRequest (hs : s.safe = false) (hp : p < 8) (hdr : GatherHdr) (b : List Byte) {basted : Bool} {t : State}
    {x : Fate} (h : s.fate (seamUnit p) (fun d => d = 1) (if basted then some hdr.tag else none) = (t, x)) :
    exec (.gatherRequest p hdr b basted) s = .next (t.gatherFate p hdr.gen b x) := by
  change execGatherRequest p hdr b basted s = _
  rw [execGatherRequest, if_neg (by simp [hs, hp]), h]
  cases x <;> rfl

theorem withRec_of_changed {unit n : Nat} (h : s.recBad n = true) (f : State → State) :
    s.withRec unit n f = s.recFault unit n := if_pos h

theorem withRec_of_same {unit n : Nat} (h : s.recBad n = false) (f : State → State) : s.withRec unit n f = f s :=
  if_neg (ne_true_of_eq_false h)

theorem gatherChan_only (s : State) (g : Gather) : Only [.seam] s (s.gatherChan g) := by
  unfold State.gatherChan
  split
  · exact .refl _ s
  · exact seam_only s _

section

variable {gen : Nat} {b : List Byte} (hg : parseGather p gen b = g)
include hg

theorem beginGather_badQueue (hq : s.gatherQueueOk g = false) : s.beginGather p gen b
    = s.raise Code.SEAM_GATHER_REFUSED (0xC20 + p) 0 (seamArg g.owner g.group) := by
  subst hg
  exact if_pos (by rw [hq]; rfl)

section

variable (hq : s.gatherQueueOk g = true)
include hq

theorem beginGather_empty (hn : g.nlines = 0) : s.beginGather p gen b = s.gatherEnd g false := by
  subst hg
  exact (if_neg (by rw [hq]; decide)).trans (if_pos hn)

theorem beginGather_changed (hn : g.nlines ≠ 0) (hr : s.recBad g.group = true) :
    s.beginGather p gen b = s.recFault (0xC20 + p) g.group := by
  subst hg
  exact (if_neg (by rw [hq]; decide)).trans ((if_neg hn).trans (withRec_of_changed hr _))

theorem beginGather_badDest (hn : g.nlines ≠ 0) (hr : s.recBad g.group = false) (hd : s.gatherDestOk g = false) :
    s.beginGather p gen b
      = (s.gatherEnd g true).raise Code.SEAM_GATHER_REFUSED (0xC20 + p) 0 (seamArg g.owner g.group) := by
  subst hg
  exact (if_neg (by rw [hq]; decide)).trans ((if_neg hn).trans ((withRec_of_same hr _).trans (if_pos (by rw [hd]; rfl))))

/-- A gather that is sent to its owner is in progress, and its completion channel is there. -/
theorem beginGather_asks (hn : g.nlines ≠ 0) (hr : s.recBad g.group = false) (hd : s.gatherDestOk g = true) :
    ∃ t, Only [.seam] s t ∧ t.seam.gathers = s.seam.gathers ++ [g] ∧ t.seam.done = (s.gatherChan g).seam.done
      ∧ s.beginGather p gen b = t.sendMsg p (t.msg 0x30 g.owner g.tag g.stepq g.group 0 g.line (padTo 32 b)) := by
  refine ⟨{ s.gatherChan g with seam := { (s.gatherChan g).seam with gathers := s.seam.gathers ++ [g] } },
    (gatherChan_only s g).trans (seam_only _ _), rfl, rfl, ?_⟩
  subst hg
  exact (if_neg (by rw [hq]; decide)).trans ((if_neg hn).trans ((withRec_of_same hr _).trans (if_neg (by rw [hd]; decide))))

end

end

/-! ### Lines and digests that arrive (spec/10_seam_ports_and_collectives.md R341) -/

section

variable {t : State} (hr : s.receive p m = (t, true))
include hr

theorem exec_gatherResp (hty : m.ty = 0x31) (h : t.gatherFor m false = some g) :
    exec (.gatherResp p m) s = .next (t.rxGather g m) := by
  change execGatherResp p m s = _
  rw [execGatherResp, onMsg_taken hty hr, h]

theorem exec_returnMsg_gather (hty : m.ty = 0x22) (h : t.gatherFor m true = some g) :
    exec (.returnMsg p m) s = .next (t.rxGather g m) := by
  change execReturnMsg p m s = _
  rw [execReturnMsg, onMsg_taken hty hr, h]

theorem exec_digest_gather (hty : m.ty = 0x23)
    (h : (t.seam.gathers.find? fun g => g.tag = m.kid && g.owner = m.src && g.group = m.group) = some g) :
    exec (.digest p m) s = .next (t.rxGatherDigest g m) := by
  change execDigest p m s = _
  rw [execDigest, onMsg_taken hty hr, h]

end

theorem gatherLines_skips {d : FmtD} {line : Nat} (h : line < g.line ∨ g.line + g.nlines ≤ line) (b : List Byte)
    (l : List (List Byte)) : s.gatherLines g d line (b :: l) = s.gatherLines g d (line + 1) l := if_pos h

theorem gatherLines_derives {d : FmtD} {line : Nat} (hlo : g.line ≤ line) (hhi : line < g.line + g.nlines) (b : List Byte)
    (l : List (List Byte)) :
    let x := derive d (bytesWords b)
    let t := ((s.put (g.daddr + (line - g.line) * lineBytes d) x.1).put (g.sclAt d + (line - g.line) * lineScales d)
      x.2.1).addCnt (60 + g.port) x.2.2
    (s.gatherLines g d line (b :: l)).1 = (t.gatherLines g d (line + 1) l).1 := by
  have hin : ¬ (line < g.line ∨ g.line + g.nlines ≤ line) := by omega
  rw [State.gatherLines, if_neg hin]

/-- What a digest must say of the lines that have come: their digest and their number. -/
def Gather.agrees (g : Gather) (m : SMsg) : Prop :=
  digestOf g.masters g.elems g.scales = (field m.body 0 8, field m.body 8 8) ∧ field m.body 16 8 = g.nlines

theorem rxGatherDigest_refused (h : field m.body 24 8 = 1) : s.rxGatherDigest g m
    = ((s.gatherEnd g true).dropGather g).raise Code.SEAM_GATHER_REFUSED (0xC20 + g.port) 0x23 (seamArg g.owner g.group) :=
  if_pos h

theorem rxGatherDigest_complete (h : field m.body 24 8 ≠ 1) (ha : g.agrees m) :
    s.rxGatherDigest g m = (s.gatherEnd g false).dropGather g := by
  obtain ⟨hdigest, hcount⟩ := ha
  exact (if_neg h).trans (if_pos (by simp [hdigest, hcount]))

section

variable (h : field m.body 24 8 ≠ 1) (ha : ¬ g.agrees m)
include h ha

theorem rxGatherDigest_suspect (hg : g.asked = true) : s.rxGatherDigest g m
    = ((s.gatherEnd g true).dropGather g).raise Code.SEAM_SUSPECT (0xC20 + g.port) 0x23 (seamArg g.owner g.group) :=
  (if_neg h).trans ((if_neg (by simpa [Gather.agrees] using ha)).trans (if_neg (by rw [hg]; decide)))

/-- A first mismatch is recorded, which leaves the gathers, and the lines are asked for again. -/
theorem rxGatherDigest_asks (hg : g.asked = false) : ∃ t : State,
    s.rxGatherDigest g m = t.sendMsg g.port (t.msg 0x24 g.owner g.tag g.stepq g.group 0 g.line (leBytes 8 g.nlines))
    ∧ t.seam.gathers = s.seam.gathers.map fun y =>
      if y = g then { g with masters := [], elems := [], scales := [], asked := true } else y := by
  let v : State := State.bump { s with seam := { s.seam with gathers := s.seam.gathers.map fun y =>
    if y = g then { g with masters := [], elems := [], scales := [], asked := true } else y } } R.DIGEST_MISMATCH 1
  have hseam : (v.raise Code.SEAM_DIGEST (0xC20 + g.port) 0x23 (seamArg g.owner g.group)).seam = v.seam :=
    raise_of_correctable_only v (by decide) _ _ _ .seam (by simp)
  exact ⟨_, (if_neg h).trans ((if_neg (by simpa [Gather.agrees] using ha)).trans (if_pos (by rw [hg]; rfl))),
    congrArg Seam.gathers hseam⟩

end

theorem exec_seamGatherDeadline {tag : Nat} (hs : s.safe = false)
    (h : (s.seam.gathers.find? fun g => g.port = p && g.tag = tag) = some g) : exec (.seamGatherDeadline p tag) s
      = .next ((s.dropGather g).raise Code.SEAM_GATHER_DEADLINE (0xC20 + p) 0 (seamArg g.owner g.group)) := by
  change execSeamGatherDeadline p tag s = _
  rw [execSeamGatherDeadline, h]
  exact if_neg (ne_true_of_eq_false hs)

/-! ### The owner (spec/10_seam_ports_and_collectives.md R340, R341) -/

theorem exec_rereq {t : State} (hr : s.receive p m = (t, true)) (hty : m.ty = 0x24) :
    exec (.rereq p m) s = .next (t.ownerReq p m) := congrArg _ (onMsg_taken hty hr _)

theorem exec_gatherReq {t : State} (hr : s.receive p m = (t, true)) (hty : m.ty = 0x30) :
    exec (.gatherReq p m) s = .next (t.ownerReq p m) := congrArg _ (onMsg_taken hty hr _)

theorem ownerReq_changed (h : s.recBad (reqGroup m) = true) : s.ownerReq p m = s.recFault (0xC20 + p) (reqGroup m) :=
  withRec_of_changed h _

theorem ownerReq_waits (h : s.recBad (reqGroup m) = false) (hw : s.sweeping (reqGroup m) = true) :
    s.ownerReq p m = { s with seam := { s.seam with deferred := s.seam.deferred ++ [(p, m)] } } :=
  (withRec_of_same h _).trans (if_pos hw)

theorem ownerReq_answers (h : s.recBad (reqGroup m) = false) (hw : s.sweeping (reqGroup m) = false) :
    s.ownerReq p m = s.answerReq p m :=
  (withRec_of_same h _).trans (if_neg (ne_true_of_eq_false hw))

theorem exec_ownerDeferredAnswer {n : Nat} (hs : s.safe = false) (hr : s.recBad n = false) (hw : s.sweeping n = false) :
    exec (.ownerDeferredAnswer n) s = .next ((s.seam.deferred.filter fun x => reqGroup x.2 = n).foldl
      (fun s x => s.answerReq x.1 x.2)
      { s with seam := { s.seam with deferred := s.seam.deferred.filter fun x => reqGroup x.2 ≠ n } }) :=
  (if_neg (ne_true_of_eq_false hs)).trans
    (congrArg go ((withRec_of_same hr _).trans (if_neg (ne_true_of_eq_false hw))))

/-! ### The obligation -/

/-- Settles O31: a request is begun, held, or left waiting; what arrives for a gather, and what is asked of the owner, are one
chain of checks each. -/
theorem gathersFetchLinesFromTheirOwner : Obligations.GathersFetchLinesFromTheirOwner := by
  refine ⟨?requests, fun p gen b s => ⟨beginGather_badQueue rfl, beginGather_empty rfl, beginGather_changed rfl,
      beginGather_badDest rfl, beginGather_asks rfl⟩,
    fun p m g t s hr => ⟨exec_gatherResp hr, exec_returnMsg_gather hr, exec_digest_gather hr⟩,
    fun g d line b l s => ⟨fun h => gatherLines_skips h b l, fun hlo hhi => gatherLines_derives hlo hhi b l⟩,
    fun g m s => ⟨fun h => withRec_of_changed h _, fun h => withRec_of_same h _⟩,
    fun g m s => ⟨rxGatherDigest_refused, rxGatherDigest_complete, rxGatherDigest_suspect, rxGatherDigest_asks⟩,
    fun p tag g s => exec_seamGatherDeadline, ?owner, ?answers, fun g s => exec_ownerDeferredAnswer⟩
  case requests =>
    intro p tag gen b s hs hp full f
    have hbasted : exec (.gatherRequest p ⟨tag, gen⟩ b true) s = .next (f.1.gatherFate p gen b f.2) :=
      exec_gatherRequest hs hp ⟨tag, gen⟩ b rfl
    have hsewn {t : State} (ht : t.safe = false) : exec (.gatherRequest p ⟨tag, gen⟩ b false) t
        = .next (t.startGather p gen b) := exec_gatherRequest ht hp ⟨tag, gen⟩ b rfl
    have hsafe : f.1.safe = false :=
      (congrArg Flt.safe (fate_only s (0xC20 + p) (fun d => d = 1) (some tag) .flt (by simp))).trans hs
    refine ⟨fun n h => ?_, fun h => ?_, fun h => ?_, fun h => ?_, fun h => ?_⟩
    · rw [hbasted, h]
      rfl
    · rw [hbasted, h]
      rfl
    · rw [hbasted, h, hsewn hsafe]
      rfl
    · rw [hsewn hs]
      exact congrArg _ (if_pos h)
    · rw [hsewn hs]
      exact congrArg _ (if_neg h)
  case owner =>
    intro p m t s hr hty run n
    have hn : n = reqGroup m := rfl
    have hrun : run = .next (t.ownerReq p m) := by
      by_cases h : m.ty = 0x24
      · exact (if_pos h).trans (exec_rereq hr h)
      · exact (if_neg h).trans (exec_gatherReq hr (hty.resolve_left h))
    rw [hrun, hn]
    exact ⟨fun h => congrArg _ (ownerReq_changed h), fun h hw => congrArg _ (ownerReq_waits h hw),
      fun h hw => congrArg _ (ownerReq_answers h hw)⟩
  case answers =>
    exact fun p m s => ⟨fun h => if_pos h, fun h => if_neg (by rw [h]; decide), fun ty step first count => rfl⟩

end Sys2Proof.Machine
end

section
/-! PROOFS. The obligation on host accesses fails for a state whose extents overlap (spec/11_host_interface_and_command_tape.md
R352, spec/08_memory_system.md R257, R266). -/

namespace Sys2Proof.Machine

/-- A memory with two extents that overlap: the one of blocks 0 and 1 is second in the map, and the one that comes first
claims block 1 and begins at granule 8192, which is poisoned. R257 excludes such a map; the statement does not. -/
def overlapped : State :=
  { State.reset with mem := { State.reset.mem with exts := [⟨1, 1, 0⟩, ⟨0, 2, 2⟩], poison := [8192] } }

theorem overlapped_sound : overlapped.safe = false ∧ ∀ k < 8, overlapped.inTail (2097148 + k) = false := by decide +kernel

theorem overlapped_poisoned : ∃ g ∈ overlapped.granules 2097148 8, overlapped.mem.poison.contains g = true := by decide +kernel

/-- The answer to that read is not a poisoned completion. -/
theorem overlapped_answers : Out.poisoned 2097148 ∉ (overlapped.serveHdmRead 2097148 8 .ok).out := by decide +kernel

/-- Refutes O32: a read of 8 bytes across the end of block 0 touches the poisoned granule, so the statement wants a poisoned
completion. The model follows a run to the end of the granule that the extent of its first byte gives; where extents overlap,
that run covers bytes that another extent maps, and their granule is not checked. -/
theorem not_hostAccessesReachModuleMemory : ¬ Obligations.HostAccessesReachModuleMemory := by
  unfold Obligations.HostAccessesReachModuleMemory
  rintro ⟨-, hserve, -⟩
  obtain ⟨hsafe, htails⟩ := overlapped_sound
  exact overlapped_answers ((hserve 2097148 8 overlapped hsafe htails).2 overlapped_poisoned).1

end Sys2Proof.Machine
end

section
/-! PROOFS. Commits of the tape unit, tags abandoned, and commands to the packages
(spec/11_host_interface_and_command_tape.md R371, R372, R379, spec/08_memory_system.md R270, Table 8.7). -/

namespace Sys2Proof.Machine

/-! ### Two fields set together -/

theorem get_setAll_pair_fst (s : State) {f g : Fld} (v w : Nat) (h : f.key ≠ g.key) :
    (s.setAll [(f, v), (g, w)]).get f = v % 2 ^ f.width := (get_set_other (s.set f v) w h).trans (get_set_same s f v)

theorem get_setAll_pair_snd (s : State) {f g : Fld} (v w : Nat) : (s.setAll [(f, v), (g, w)]).get g = w % 2 ^ g.width :=
  get_set_same (s.set f v) g w

/-! ### The tape set back (spec/11_host_interface_and_command_tape.md R359, R362, R372) -/

/-- The replies begun anew. -/
def State.repliesAnew (s : State) : State := s.setAll [(R.TP_STATUS_STATE, 0), (R.TP_RSEQ_RSEQ, 0)]

/-- The tape read from its start. -/
def State.tapeAnew (s : State) : State :=
  { s with tape := { s.tape with torn := false } }.setAll [(R.TP_STATUS_POS, 0), (R.TP_STATUS_NEXT_SEQ, s.get R.TP_SEQ0_SEQ0)]

theorem resumeTape_of_not_kept {s : State} (h : s.tape.kept = false) : s.resumeTape = s :=
  if_neg (by rw [h, Bool.false_and]; decide)

/-- With no notice kept, a restart sets back the replies where it enables the tape, and the position where it enables or
moves it. -/
theorem tapeRestart_of_not_kept {s : State} (h : s.tape.kept = false) (en moved : Bool) :
    s.tapeRestart en moved = if en then s.repliesAnew.tapeAnew else if moved then s.tapeAnew else s := by
  have hanew : s.tapeAnew.resumeTape = s.tapeAnew := resumeTape_of_not_kept h
  have hboth : s.repliesAnew.tapeAnew.resumeTape = s.repliesAnew.tapeAnew := resumeTape_of_not_kept h
  cases en with
  | true => exact hboth
  | false =>
    cases moved with
    | true => exact hanew
    | false => exact resumeTape_of_not_kept h

theorem repliesAnew_only (s : State) : Only [.bar] s s.repliesAnew := s.setAll_only _

theorem tapeAnew_only (s : State) : Only [.bar, .tape] s s.tapeAnew :=
  ((tape_only s _).mono (by simp)).trans ((State.setAll_only _ _).mono (by simp))

theorem get_repliesAnew_other (s : State) {f : Fld} (hs : f.key ≠ R.TP_STATUS_STATE.key) (hr : f.key ≠ R.TP_RSEQ_RSEQ.key) :
    s.repliesAnew.get f = s.get f := get_setAll_other s (by simp [hs, hr])

theorem get_tapeAnew_other (s : State) {f : Fld} (hp : f.key ≠ R.TP_STATUS_POS.key)
    (hn : f.key ≠ R.TP_STATUS_NEXT_SEQ.key) : s.tapeAnew.get f = s.get f :=
  get_setAll_other _ (by simp [hp, hn])

theorem repliesAnew_state (s : State) : s.repliesAnew.get R.TP_STATUS_STATE = 0 :=
  get_setAll_pair_fst s 0 0 (by decide)

theorem repliesAnew_rseq (s : State) : s.repliesAnew.get R.TP_RSEQ_RSEQ = 0 := get_setAll_pair_snd s 0 0

theorem tapeAnew_pos (s : State) : s.tapeAnew.get R.TP_STATUS_POS = 0 :=
  have hkeys : R.TP_STATUS_POS.key ≠ R.TP_STATUS_NEXT_SEQ.key := by decide
  get_setAll_pair_fst _ 0 _ hkeys

theorem tapeAnew_nextSeq (s : State) : s.tapeAnew.get R.TP_STATUS_NEXT_SEQ = s.tapeAnew.get R.TP_SEQ0_SEQ0 % 2 ^ 32 := by
  have hseq0 : s.tapeAnew.get R.TP_SEQ0_SEQ0 = s.get R.TP_SEQ0_SEQ0 := get_tapeAnew_other s (by decide) (by decide)
  rw [hseq0]
  exact get_setAll_pair_snd _ _ _

@[simp] theorem tapeAnew_tape (s : State) : s.tapeAnew.tape = { s.tape with torn := false } := rfl

@[simp] theorem tapeAnew_barStage (s : State) : s.tapeAnew.barStage = s.barStage := rfl

@[simp] theorem repliesAnew_tape (s : State) : s.repliesAnew.tape = s.tape := rfl

@[simp] theorem repliesAnew_barStage (s : State) : s.repliesAnew.barStage = s.barStage := rfl

/-! ### The commit (spec/11_host_interface_and_command_tape.md R379) -/

/-- The fields that a tape commit puts in force. -/
def tapeFields : List Fld :=
  [R.TP_TAPE_BASE, R.TP_TAPE_SIZE, R.TP_SEQ0_SEQ0, R.TP_REPLY_RBASE, R.TP_RSIZE_RSIZE, R.TP_CFG_EN, R.TP_CFG_TORN_DL,
    R.TP_CFG_RPL_DL]

theorem tapeFields_staged : ∀ f ∈ tapeFields, f.lo < 64 ∧ blkTp.has f.off = true := by decide

theorem tapeFields_keys : ∀ f ∈ tapeFields, f.key ≠ R.TP_STATUS_STATE.key ∧ f.key ≠ R.TP_RSEQ_RSEQ.key
    ∧ f.key ≠ R.TP_STATUS_POS.key ∧ f.key ≠ R.TP_STATUS_NEXT_SEQ.key := by decide

theorem get_applyBlock_tape (s : State) {f : Fld} (h : f ∈ tapeFields) :
    (s.applyBlock blkTp).get f = staged s.bar s.barStage f := by
  obtain ⟨hlo, hhas⟩ := tapeFields_staged f h
  exact (rfGet_applyStage_if s.bar s.barStage blkTp.has hlo).trans (if_pos hhas)

section
variable {v : W32} {s : State}

theorem exec_tpCommit (hv : bit v.toNat 0 = true) (ha : bit v.toNat 1 = false) (hs : s.serves none 0x1000 = true)
    (hstaged : anyStaged s.barStage blkTp.has = true) : exec (.tpCommit v) s = .next (s.tapeCommit false) :=
  if_neg (by rw [hv, ha, hs, hstaged]; decide)

/-- Does the commit of what is staged enable the tape? -/
def State.enablesTape (s : State) : Bool :=
  isStaged s.barStage R.TP_CFG_EN && rfGet (s.wouldBe blkTp) R.TP_CFG_EN = 1

/-- Does the commit of what is staged move the tape, or change its size or `SEQ0`? -/
def State.movesTape (s : State) : Bool :=
  [R.TP_TAPE_BASE, R.TP_TAPE_SIZE, R.TP_SEQ0_SEQ0].any fun f => s.changes blkTp f

theorem tapeCommit_of_legal {abandon : Bool} (h : s.tapeCommitFail abandon = none) :
    s.tapeCommit abandon = (s.applyBlock blkTp).tapeRestart s.enablesTape s.movesTape := by
  unfold State.tapeCommit
  rw [h]
  rfl

theorem tapeCommit_of_refused {abandon : Bool} {f : Nat × Nat} (h : s.tapeCommitFail abandon = some f) :
    s.tapeCommit abandon = (s.dropBlock blkTp).raise f.1 0xC34 0 f.2 := by
  unfold State.tapeCommit
  rw [h]
  rfl

theorem tapeCommitFail_of_held {f : Fld} (hfail : s.tapeFail = none)
    (hheld : (tapeHeld.find? fun f => s.changes blkTp f) = some f) (hlive : s.tape.live ≠ 0) :
    s.tapeCommitFail false = some (Code.TAPE_BUSY, f.off - 0x1000) := by
  unfold State.tapeCommitFail
  rw [hfail, hheld]
  exact if_pos (by simp [hlive])

theorem enablesTape_iff : s.enablesTape = true
    ↔ isStaged s.barStage R.TP_CFG_EN = true ∧ rfGet (s.wouldBe blkTp) R.TP_CFG_EN = 1 := by
  rw [State.enablesTape, Bool.and_eq_true, decide_eq_true_iff]

theorem movesTape_iff : s.movesTape = true ↔ s.changes blkTp R.TP_TAPE_BASE = true
    ∨ s.changes blkTp R.TP_TAPE_SIZE = true ∨ s.changes blkTp R.TP_SEQ0_SEQ0 = true := by
  simp [State.movesTape]

end

/-- What a restart leaves, with no notice kept. -/
structure Restarted (s : State) (en moved : Bool) (t : State) : Prop where
  only : Only [.bar, .tape] s t
  kept : ∀ f ∈ tapeFields, t.get f = s.get f
  stage : t.barStage = s.barStage
  replies : en = true → t.get R.TP_STATUS_STATE = 0 ∧ t.get R.TP_RSEQ_RSEQ = 0
  start : en = true ∨ moved = true → t.get R.TP_STATUS_POS = 0
    ∧ t.get R.TP_STATUS_NEXT_SEQ = t.get R.TP_SEQ0_SEQ0 % 2 ^ 32 ∧ t.tape = { s.tape with torn := false }
  same : ¬ en = true → ¬ moved = true → t = s

theorem restarted_tapeAnew (s : State) : Restarted s false true s.tapeAnew where
  only := tapeAnew_only s
  kept f hf := by
    obtain ⟨-, -, hpos, hnext⟩ := tapeFields_keys f hf
    exact get_tapeAnew_other s hpos hnext
  stage := rfl
  replies h := absurd h (by decide)
  start _ := ⟨tapeAnew_pos s, tapeAnew_nextSeq s, rfl⟩
  same _ h := absurd rfl h

theorem restarted_both (s : State) (moved : Bool) : Restarted s true moved s.repliesAnew.tapeAnew where
  only := ((repliesAnew_only s).mono (by simp)).trans (tapeAnew_only _)
  kept f hf := by
    obtain ⟨hstate, hrseq, hpos, hnext⟩ := tapeFields_keys f hf
    exact (get_tapeAnew_other _ hpos hnext).trans (get_repliesAnew_other s hstate hrseq)
  stage := rfl
  replies _ := ⟨(get_tapeAnew_other _ (by decide) (by decide)).trans (repliesAnew_state s),
    (get_tapeAnew_other _ (by decide) (by decide)).trans (repliesAnew_rseq s)⟩
  start _ := ⟨tapeAnew_pos _, tapeAnew_nextSeq _, rfl⟩
  same h := absurd rfl h

theorem restarted_tapeRestart {s : State} (h : s.tape.kept = false) (en moved : Bool) :
    Restarted s en moved (s.tapeRestart en moved) := by
  rw [tapeRestart_of_not_kept h]
  cases en with
  | true => exact restarted_both s moved
  | false =>
    cases moved with
    | true => exact restarted_tapeAnew s
    | false => exact {
        only := Only.refl _ s
        kept := fun _ _ => rfl
        stage := rfl
        replies := fun h => absurd h (by decide)
        start := fun h => absurd h (by decide)
        same := fun _ _ => rfl }

/-! ### Tags abandoned (spec/11_host_interface_and_command_tape.md R371) -/

theorem undefer_only (s : State) (c : Cmd) : Only [.press] s (s.undefer c) := by
  unfold State.undefer
  split
  · exact press_only s _
  · exact Only.refl _ s

/-- The deferred `STEP_OPEN` of commands not begun forgotten. -/
def State.undeferAll (s : State) (l : List Cmd) : State := l.foldl (fun s c => if s.begun c then s else s.undefer c) s

theorem undeferAll_only (s : State) (l : List Cmd) : Only [.press] s (s.undeferAll l) := by
  refine Only.foldl (fun s c => ?_) l s
  split
  · exact Only.refl _ s
  · exact undefer_only s c

/-- What stays of the commands when every live tag is retired: work already begun, its tag retired. -/
def State.workBegun (s : State) : List Cmd :=
  (s.tape.cmds.filter fun c => c.gone || (s.begun c && !c.taken)).map fun c => { c with gone := true }

theorem abandonTags_tape (s : State) : s.abandonTags.tape = { (s.undeferAll (s.tape.cmds.filter fun c => !c.gone)).tape with
    cmds := s.workBegun
    lastEpoch := (s.tape.cmds.filter fun c => !c.gone).foldl (fun m c => kvSet m c.tag c.epoch) s.tape.lastEpoch
    replies := (s.undeferAll (s.tape.cmds.filter fun c => !c.gone)).tape.replies.filter fun r => !r.live } := rfl

theorem abandonTags_only (s : State) : Only [.tape, .press] s s.abandonTags :=
  ((undeferAll_only s _).mono (by simp)).trans ((tape_only _ _).mono (by simp))

theorem undeferAll_tape (s : State) (l : List Cmd) : (s.undeferAll l).tape = s.tape := undeferAll_only s l .tape (by decide)

theorem abandonTags_live (s : State) : s.abandonTags.tape.live = 0 := by
  have hnone : s.workBegun.filter (fun c => !c.gone) = [] := by
    refine List.filter_eq_nil_iff.2 fun c hc => ?_
    obtain ⟨d, -, rfl⟩ := List.mem_map.1 hc
    simp
  exact congrArg List.length hnone

theorem exec_tpAbandon_bare {v : W32} {s : State} (hv : bit v.toNat 0 = true) (ha : bit v.toNat 1 = true)
    (hw : s.takesWrite none 0x1000 = true) (hstaged : anyStaged s.barStage blkTp.has = false) (hk : s.tape.kept = false) :
    exec (.tpAbandon v) s = .next s.abandonTags := by
  have hkept : s.abandonTags.tape.kept = false := by rw [abandonTags_tape, undeferAll_tape]; exact hk
  have hrun : exec (.tpAbandon v) s = .next s.abandonTags.resumeTape :=
    (if_neg (by rw [hv, ha, hw]; decide)).trans (if_neg (by rw [hstaged]; decide))
  exact hrun.trans (congrArg _ (resumeTape_of_not_kept hkept))

/-! ### Commands to the packages (spec/08_memory_system.md R270, Table 8.7) -/

section
variable {n op : Nat} {v : W64} {s : State}

theorem repairCmd_acts (hd : s.debugOk = true) (hch : bit (s.get (R.MC_STATUS_CH_OK n)) (bits v.toNat 62 2) = false)
    (hdone : s.get (R.MC_REPAIR_ST_DONE n) = 1) (hop : bits v.toNat 36 4 = op) : s.repairCmd n op v
      = { s.set (R.MC_REPAIR_ST_DONE n) 0 with mem := { s.mem with repair := kvSet s.mem.repair n v } } := by
  have hflag : s.flag (R.MC_REPAIR_ST_DONE n) = true := decide_eq_true hdone
  exact if_pos (by simp [State.repairOk, hd, hch, hflag, hop])

theorem repairCmd_locked (h : s.debugOk = false ∨ bit (s.get (R.MC_STATUS_CH_OK n)) (bits v.toNat 62 2) = true
    ∨ s.get (R.MC_REPAIR_ST_DONE n) ≠ 1) :
    s.repairCmd n op v = s.raise Code.MEM_REPAIR_LOCKED (0xC00 + n) (4 * n + bits v.toNat 62 2) 0 := by
  refine if_neg ?_
  unfold State.repairOk
  obtain hd | hch | hdone := h
  · simp [hd]
  · simp [hch]
  · have hflag : s.flag (R.MC_REPAIR_ST_DONE n) = false := decide_eq_false hdone
    simp [hflag]

theorem exec_repair (hs : s.safe = false) : exec (.modeRegisterRead n v) s = .next (s.repairCmd n 1 v)
    ∧ exec (.modeRegisterWrite n v) s = .next (s.repairCmd n 2 v) ∧ exec (.hardPpr n v) s = .next (s.repairCmd n 3 v) := by
  have hsafe : ¬ s.safe = true := by rw [hs]; decide
  exact ⟨if_neg hsafe, if_neg hsafe, if_neg hsafe⟩

/-- The register of a package that a command names. -/
def repairReg (n : Nat) (v : W64) : Nat := (4 * n + bits v.toNat 62 2) * 256 + bits v.toNat 16 8

/-- The state in which a running command has ended, but for the value that a mode-register read leaves. -/
def State.repairEnded (s : State) (n : Nat) (v : W64) (fail : Bool) : State :=
  { s with mem := { s.mem with
      repair := kvErase s.mem.repair n
      modeRegs := if bits v.toNat 36 4 = 2 && !fail then kvSet s.mem.modeRegs (repairReg n v) (bits v.toNat 8 8)
        else s.mem.modeRegs } }.setAll [(R.MC_REPAIR_ST_DONE n, 1), (R.MC_REPAIR_ST_FAIL n, b2n fail)]

variable {fail : Bool} {rv : Byte}

theorem exec_mcRepairDone (h : kvGet? s.mem.repair n = some v) : exec (.mcRepairDone n fail rv) s
    = if bits v.toNat 36 4 = 1 && !fail then
        .next ((s.repairEnded n v fail).set (R.MC_REPAIR_ST_MRV n)
          ((kvGet? (s.repairEnded n v fail).mem.modeRegs (repairReg n v)).getD rv.toNat))
      else .next (s.repairEnded n v fail) := by
  show execMcRepairDone n fail rv s = _
  unfold execMcRepairDone
  rw [h]
  rfl

theorem repairKeys (n : Nat) : (R.MC_REPAIR_ST_DONE n).key ≠ (R.MC_REPAIR_ST_FAIL n).key
    ∧ (R.MC_REPAIR_ST_DONE n).key ≠ (R.MC_REPAIR_ST_MRV n).key
    ∧ (R.MC_REPAIR_ST_FAIL n).key ≠ (R.MC_REPAIR_ST_MRV n).key := by
  simp only [Fld.key, R.MC_REPAIR_ST_DONE, R.MC_REPAIR_ST_FAIL, R.MC_REPAIR_ST_MRV]
  omega

theorem repairEnded_only : Only [.bar, .mem] s (s.repairEnded n v fail) :=
  ((mem_only s _).mono (by simp)).trans ((State.setAll_only _ _).mono (by simp))

theorem repairEnded_done : (s.repairEnded n v fail).get (R.MC_REPAIR_ST_DONE n) = 1 :=
  get_setAll_pair_fst _ _ _ (repairKeys n).1

theorem repairEnded_fail : (s.repairEnded n v fail).get (R.MC_REPAIR_ST_FAIL n) = b2n fail := by
  refine (get_setAll_pair_snd _ _ _).trans ?_
  cases fail with
  | true => rfl
  | false => rfl

theorem repairEnded_onlyFields : OnlyFields [R.MC_REPAIR_ST_DONE n, R.MC_REPAIR_ST_FAIL n] s (s.repairEnded n v fail) := by
  intro f hf
  simp only [List.map_cons, List.map_nil, List.mem_cons, List.not_mem_nil, or_false, not_or] at hf
  exact get_setAll_other _ (by simp [hf])

theorem repairEnded_repair : kvGet? (s.repairEnded n v fail).mem.repair n = none := kvGet?_kvErase_same _ _

theorem repairEnded_modeReg (hop : bits v.toNat 36 4 = 2) :
    kvGet? (s.repairEnded n v false).mem.modeRegs (repairReg n v) = some (bits v.toNat 8 8) :=
  (congrArg (kvGet? · _) (if_pos (by rw [hop]; decide))).trans (kvGet?_kvSet_same _ _ _)

theorem repairEnded_modeRegs (hop : bits v.toNat 36 4 ≠ 2) : (s.repairEnded n v fail).mem.modeRegs = s.mem.modeRegs :=
  if_neg (by simp [hop])

theorem mrv_width (n : Nat) : (R.MC_REPAIR_ST_MRV n).width = 8 := rfl

end

/-- Settles O7: a legal commit by what a restart leaves of the applied stage, the others by their one branch. -/
theorem tapeCommitsAndPackageAccess : Obligations.TapeCommitsAndPackageAccess := by
  unfold Obligations.TapeCommitsAndPackageAccess
  refine ⟨?legal, ?refused, fun s f => tapeCommitFail_of_held, ?abandon, ?repair, ?ended⟩
  case legal =>
    intro v s hv ha hs hstaged hfail hk
    have hr : Restarted (s.applyBlock blkTp) s.enablesTape s.movesTape
        ((s.applyBlock blkTp).tapeRestart s.enablesTape s.movesTape) := restarted_tapeRestart (s := s.applyBlock blkTp) hk _ _
    simp only [← enablesTape_iff, ← movesTape_iff]
    exact ⟨_, (exec_tpCommit hv ha hs hstaged).trans (congrArg _ (tapeCommit_of_legal hfail)),
      (s.applyBlock_only blkTp).mono (by simp) |>.trans (hr.only.mono (by simp)),
      fun f hf => (hr.kept f hf).trans (get_applyBlock_tape s hf), hr.stage, hr.replies, hr.start,
      fun h => hr.same h.1 h.2⟩
  case refused =>
    intro v s f hv ha hs hstaged hfail
    exact (exec_tpCommit hv ha hs hstaged).trans (congrArg _ (tapeCommit_of_refused hfail))
  case abandon =>
    intro v s hv ha hw hstaged hk
    refine ⟨_, exec_tpAbandon_bare hv ha hw hstaged hk, abandonTags_only s, abandonTags_live s, rfl, ?_⟩
    rw [abandonTags_tape, undeferAll_tape]
  case repair =>
    intro n v s hs p hp
    obtain ⟨hread, hwrite, hppr⟩ := exec_repair (n := n) (v := v) hs
    have hcmd : exec p.2 s = .next (s.repairCmd n p.1 v) := by
      simp only [List.mem_cons, List.not_mem_nil, or_false] at hp
      obtain rfl | rfl | rfl := hp
      · exact hread
      · exact hwrite
      · exact hppr
    exact ⟨fun hd hch hdone hop => hcmd.trans (congrArg _ (repairCmd_acts hd hch hdone hop)),
      fun h => hcmd.trans (congrArg _ (repairCmd_locked h))⟩
  case ended =>
    intro n fail rv v s hv
    by_cases hread : bits v.toNat 36 4 = 1 ∧ fail = false
    · obtain ⟨hop, rfl⟩ := hread
      obtain ⟨-, hdone, hfail⟩ := repairKeys n
      refine ⟨_, (exec_mcRepairDone hv).trans (if_pos (by rw [hop]; decide)),
        repairEnded_only.trans ((State.set_only _ _ _).mono (by simp)), (get_set_other _ _ hdone).trans repairEnded_done,
        (get_set_other _ _ hfail).trans repairEnded_fail, repairEnded_repair, fun _ _ hnone => ?_,
        fun h2 => absurd (hop.symm.trans h2) (by decide), fun h => absurd h (by simp [hop])⟩
      rw [get_set_same, mrv_width, repairEnded_modeRegs (by rw [hop]; decide), repairReg, hnone]
      exact Nat.mod_eq_of_lt rv.isLt
    · refine ⟨_, (exec_mcRepairDone hv).trans (if_neg (by simpa using hread)), repairEnded_only, repairEnded_done,
        repairEnded_fail, repairEnded_repair, fun hop hf => absurd ⟨hop, hf⟩ hread, ?_, fun _ => repairEnded_onlyFields⟩
      rintro hop rfl
      exact repairEnded_modeReg hop

end Sys2Proof.Machine
end

section
/-! PROOFS. The host port: its link mode, configuration space, decoders, and the answers of the host
(spec/11_host_interface_and_command_tape.md R350 to R358, R374, R376, spec/14_reset_bringup_selftest.md R442, R455). -/

namespace Sys2Proof.Machine

theorem cxl_only (s : State) (c : Cxl) : Only [.cxl] s { s with cxl := c } := by
  intro p hp
  cases p <;> simp_all [Part.Same]

theorem freeVal_only (s : State) (w : Nat) : Only [.free] s (s.freeVal w).2 := by
  intro p hp
  cases p <;> simp_all [Part.Same, State.freeVal]

/-! ### The link (spec/11_host_interface_and_command_tape.md R349, R350) -/

section
variable {s : State}

theorem exec_linkModeSettle_first (hp : s.cxl.perst = false) (hr : s.cxl.released = true) (cxl : Bool) {speed width : Nat}
    (hm : s.cxl.mode = 0) (ht : linkTrains speed width = true) :
    exec (.linkModeSettle cxl speed width) s = .next { s with cxl := { s.cxl with
      mode := if cxl && !s.th.pcieOnly then 1 else 2, speed := speed, width := width, linkUp := true } } :=
  if_neg (by simp [hp, hr, hm, ht])

theorem exec_linkModeSettle_later (cxl : Bool) (speed width : Nat) (hm : s.cxl.mode ≠ 0) :
    exec (.linkModeSettle cxl speed width) s = .next s := if_pos (by simp [hm])

theorem exec_cxlLinkUp (hp : s.cxl.perst = false) (hr : s.cxl.released = true) (hm : s.cxl.mode ≠ 0) :
    exec .cxlLinkUp s = .next { s with cxl := { s.cxl with linkUp := true } } := if_neg (by simp [hp, hr, hm])

end

/-! ### Configuration space (spec/11_host_interface_and_command_tape.md R351, spec/14_reset_bringup_selftest.md R455) -/

/-- The state in which configuration space is known to answer. -/
def State.configured (s : State) : State := { s with cxl := { s.cxl with configReady := true } }

theorem cfgReady_of_ready {s : State} (h : s.cxl.configReady = true ∨ s.cxl.perstAt + 100000000 ≤ s.now) :
    s.cfgReady = (true, s.configured) := if_pos (by simpa using h)

/-- Configuration space is ready in the state that follows, or the request is answered before it is ready. -/
theorem cfgReady_cases (s : State) : (s.cfgReady.1 = true ∧ s.cfgReady.2.cxl.configReady = true)
    ∨ (s.cfgReady.1 = false ∧ s.cfgReady.2.out = s.out ∧ Only [.cxl, .free] s s.cfgReady.2) := by
  by_cases h : s.cxl.configReady = true ∨ s.cxl.perstAt + 100000000 ≤ s.now
  · rw [cfgReady_of_ready h]
    exact .inl ⟨rfl, rfl⟩
  · have hfree : s.cfgReady = (decide ((s.freeVal 1).1 = 1),
        { (s.freeVal 1).2 with cxl := { (s.freeVal 1).2.cxl with configReady := decide ((s.freeVal 1).1 = 1) } }) :=
      if_neg (by simpa using h)
    rw [hfree]
    cases decide ((s.freeVal 1).1 = 1) with
    | true => exact .inl ⟨rfl, rfl⟩
    | false => exact .inr ⟨rfl, rfl, ((freeVal_only s 1).mono (by simp)).trans ((cxl_only _ _).mono (by simp))⟩

section
variable {s : State} {off : Nat} {prot : Bool} (v : W32)

theorem exec_configAccess {write : Bool} (hl : s.cxl.linkUp = true) (hi : s.ideTakes 0 prot = true) (ha : off % 4 = 0)
    (ho : off < 0x1000) : exec (.configAccess write ⟨off, prot⟩ v) s =
      if !s.cfgReady.1 then .next (s.cfgReady.2.emit (.completion 2))
      else if write then
        .next ((if off = 0x50 then s.cfgReady.2.msixControl v.toNat else s.cfgReady.2.cfgWrite off v.toNat).emit (.completion 0))
      else .next (s.cfgReady.2.cfgRead off) :=
  if_neg (by simp [hl, hi, ha, ho])

theorem exec_configAccess_unprotected (write : Bool) (hi : s.ideTakes 0 false = false) :
    exec (.configAccess write ⟨off, false⟩ v) s = .next s := if_pos (by simp [hi])

end

theorem cfgWrite_of_power {off v : Nat} (s : State) (ho : off = 0x44) (hv : v % 4 = 1 ∨ v % 4 = 2) : s.cfgWrite off v = s :=
  if_pos (by obtain h | h := hv <;> simp [ho, h, inRange])

theorem cfgWrite_stores {off v : Nat} (s : State) (h : off = 0x44 → v % 4 = 0 ∨ v % 4 = 3) :
    s.cfgWrite off v = { s with cxl := { s.cxl with cfg := kvSet s.cxl.cfg off v } } := by
  refine if_neg fun hbad => ?_
  rw [Bool.and_eq_true, decide_eq_true_iff] at hbad
  obtain ⟨ho, hv⟩ := hbad
  obtain h | h := h ho
  · exact absurd hv (by rw [h]; decide)
  · exact absurd hv (by rw [h]; decide)

theorem cfgWrite_ready (s : State) (off v : Nat) : (s.cfgWrite off v).cxl.configReady = s.cxl.configReady := by
  unfold State.cfgWrite
  split
  · rfl
  · rfl

theorem cfgRead_of_given {s : State} {off w : Nat} (h : s.cfgDword off = some w) :
    s.cfgRead off = s.emit (.cfgRead off (w % 2 ^ 32)) := by
  unfold State.cfgRead
  rw [h]

/-- The dword that configuration space keeps of what was written. -/
def State.cfgKept (s : State) (off : Nat) : Option Nat :=
  if off = 0x44 then some (kvGet 0 s.cxl.cfg off) else kvGet? s.cxl.cfg off

theorem cfgRead_of_free {s : State} {off : Nat} (h : s.cfgDword off = none) : s.cfgRead off
    = { s.emit (.cfgRead off (overlay (((s.cfgKept off).map fun k =>
          overlay (Config.freeValue 32 s.free).toNat (cfgWritable off) (Nat.land k (cfgWritable off))).getD
            (Config.freeValue 32 s.free).toNat) (s.cfgFixed off).1 (s.cfgFixed off).2)) with free := s.free + 1 } := by
  unfold State.cfgRead
  rw [h]
  unfold State.cfgKept
  cases (if off = 0x44 then some (kvGet 0 s.cxl.cfg off) else kvGet? s.cxl.cfg off) with
  | some k => rfl
  | none => rfl

theorem cfgRead_ready (s : State) (off : Nat) : (s.cfgRead off).cxl = s.cxl := by
  unfold State.cfgRead
  split
  · rfl
  · rfl

/-- The state with the enable and the function mask of MSI-X written. -/
def State.msixSet (s : State) (v : Nat) : State :=
  { s with cxl := { s.cxl with msixFuncMask := bit v 30, msixEnable := bit v 31 } }

theorem msixControl_ready (s : State) (v : Nat) : (s.msixControl v).cxl.configReady = s.cxl.configReady := by
  have hvectors : Only [.tape, .out] (s.msixSet v) (s.msixControl v) := by
    refine Only.foldl (fun s k => ?_) _ _
    split
    · exact ((tape_only s _).mono (by simp)).trans (State.vector_only _ _)
    · exact Only.refl _ s
  have hcxl : (s.msixControl v).cxl = (s.msixSet v).cxl := hvectors .cxl (by decide)
  rw [hcxl]
  rfl

/-- A configuration request leaves configuration space ready, or is answered with retry status. -/
theorem exec_configAccess_ready {s : State} {off : Nat} {prot : Bool} {v : W32} (hl : s.cxl.linkUp = true)
    (hi : s.ideTakes 0 prot = true) (ha : off % 4 = 0) (ho : off < 0x1000) (write : Bool) :
    ∃ u, exec (.configAccess write ⟨off, prot⟩ v) s = .next u
      ∧ (u.cxl.configReady = true ∨ (u.out = s.out ++ [.completion 2] ∧ Only [.cxl, .free, .out] s u)) := by
  have hexec := exec_configAccess (write := write) v hl hi ha ho
  obtain ⟨hready, hconf⟩ | ⟨hnot, hout, honly⟩ := cfgReady_cases s
  · rw [hexec, if_neg (by rw [hready]; decide)]
    cases write with
    | true =>
      refine ⟨_, if_pos rfl, .inl ?_⟩
      split
      · exact (msixControl_ready _ _).trans hconf
      · exact (cfgWrite_ready _ _ _).trans hconf
    | false => exact ⟨_, if_neg (by decide), .inl ((congrArg Cxl.configReady (cfgRead_ready _ _)).trans hconf)⟩
  · exact ⟨_, hexec.trans (if_pos (by rw [hnot]; decide)), .inr ⟨congrArg (· ++ _) hout,
      (honly.mono (by simp)).trans ((State.emit_only _ _).mono (by simp))⟩⟩

section
variable {s : State} {off : Nat} {prot : Bool} (hl : s.cxl.linkUp = true) (hi : s.ideTakes 0 prot = true) (ha : off % 4 = 0)
  (ho : off < 0x1000) (hready : s.cxl.configReady = true ∨ s.cxl.perstAt + 100000000 ≤ s.now)
include hl hi ha ho hready

theorem exec_configRead (v : W32) : exec (.configAccess false ⟨off, prot⟩ v) s = .next (s.configured.cfgRead off) := by
  rw [exec_configAccess v hl hi ha ho, cfgReady_of_ready hready]
  rfl

theorem exec_configWrite (v : W32) : exec (.configAccess true ⟨off, prot⟩ v) s = .next
    ((if off = 0x50 then s.configured.msixControl v.toNat else s.configured.cfgWrite off v.toNat).emit (.completion 0)) := by
  rw [exec_configAccess v hl hi ha ho, cfgReady_of_ready hready]
  rfl

end

/-! ### Decoders (spec/11_host_interface_and_command_tape.md R353) -/

/-- The state with a decoder committed, its error set or cleared. -/
def State.withDecoder (s : State) (d base size : Nat) (ok : Bool) : State :=
  { s with cxl := { s.cxl with
      hdm := kvSet s.cxl.hdm d (base, size, ok)
      hdmErr := if ok then s.cxl.hdmErr.filter (· ≠ d) else (d :: s.cxl.hdmErr).dedup } }

theorem exec_hdmDecoderCommit {d : Nat} {s : State} (base size : Nat) (ways1 : Bool) (hd : d < 2) (hm : s.linkMode = 1) :
    exec (.hdmDecoderCommit d base size ways1) s = .next (s.withDecoder d base size (s.decoderOk d base size ways1)) :=
  if_neg (by simp [hd, hm])

theorem mem_withDecoder_hdmErr (s : State) (d base size : Nat) (ok : Bool) :
    d ∈ (s.withDecoder d base size ok).cxl.hdmErr ↔ ok = false := by
  cases ok with
  | true => simp [State.withDecoder]
  | false => simp [State.withDecoder]

theorem decoderOk_first (s : State) (base size : Nat) (ways1 : Bool) : s.decoderOk 0 base size ways1 = true
    ↔ ways1 = true ∧ size % 0x10000000 = 0 ∧ base = 0 ∧ size ≤ lpEnd := by
  simp [State.decoderOk, and_assoc]

/-! ### Snoops and bias (spec/11_host_interface_and_command_tape.md R355, R357) -/

theorem exec_hostSnoop {s : State} (a : Nat) (prot : Bool) (hm : s.linkMode = 1) :
    exec (.hostSnoop ⟨a, prot⟩) s = .next (if s.ideTakes 1 prot then s.emit (.snoopMiss a) else s) := by
  show execHostSnoop ⟨a, prot⟩ s = _
  unfold execHostSnoop
  cases hi : s.ideTakes 1 prot with
  | true => exact if_pos (by simp [hm])
  | false => exact if_neg (by simp)

theorem exec_hostBiasAnswer {k : Nat} {b : BiasReq} {s : State} (hb : s.cxl.biasReqs[k]? = some b) (hs : s.safe = false)
    (hfirst : (s.cxl.biasReqs.take k).all (fun c => s.orderKey c.addr ≠ s.orderKey b.addr) = true) :
    exec (.hostBiasAnswer k) s
      = .next ({ s with cxl := { s.cxl with biasReqs := s.cxl.biasReqs.eraseIdx k } }.serve b.seed b.req) := by
  show execHostBiasAnswer k s = _
  unfold execHostBiasAnswer
  rw [hb]
  refine if_neg ?_
  rw [hs, Bool.false_or, List.any_eq_true]
  rintro ⟨c, hc, hkey⟩
  exact absurd (of_decide_eq_true hkey) (of_decide_eq_true (List.all_eq_true.1 hfirst c hc))

/-! ### Answers to requests to host memory (spec/11_host_interface_and_command_tape.md R357, R374) -/

/-- The state without the request to host memory at a place. -/
def State.hostAnswered (s : State) (k : Nat) : State := { s with cxl := { s.cxl with reqs := s.cxl.reqs.eraseIdx k } }

section
variable {k : Nat} {r : HostReq} {s : State}

theorem allObserved_iff (s : State) (tag ep : Nat) :
    s.allObserved tag ep = true ↔ ∀ q ∈ s.cxl.reqs, q.agent ≠ .cmd tag ep := by
  simp [State.allObserved]

theorem exec_hostResponse_bob {tl b i ep : Nat} {data : List Byte} (hr : s.cxl.reqs[k]? = some r) (hl : s.cxl.linkUp = true)
    (ha : r.agent = .bob tl b i ep) : exec (.hostResponse k (.ok data)) s
      = .next ((s.hostAnswered k).respond 0xC30 (2 * tl + b) ep i 0 (if r.wr then [] else padTo r.len data)) := by
  show execHostResponse k (.ok data) s = _
  unfold execHostResponse
  rw [hr]
  refine (if_neg (by rw [hl]; decide)).trans ?_
  rw [ha]
  rfl

theorem exec_hostResponse_cmd {tag ep : Nat} {data : List Byte} (hr : s.cxl.reqs[k]? = some r) (hl : s.cxl.linkUp = true)
    (ha : r.agent = .cmd tag ep) : exec (.hostResponse k (.ok data)) s = if (s.hostAnswered k).allObserved tag ep then
        .next ((s.hostAnswered k).reply tag ep 1 0 ((s.hostAnswered k).resultOf tag ep)) else .next (s.hostAnswered k) := by
  show execHostResponse k (.ok data) s = _
  unfold execHostResponse
  rw [hr]
  refine (if_neg (by rw [hl]; decide)).trans ?_
  rw [ha]
  rfl

theorem exec_hostResponse_poisoned (hr : s.cxl.reqs[k]? = some r) (hl : s.cxl.linkUp = true) :
    exec (.hostResponse k .poisoned) s = .next ((s.hostAnswered k).hostFail r Code.HOST_POISON 2) := by
  show execHostResponse k .poisoned s = _
  unfold execHostResponse
  rw [hr]
  exact if_neg (by rw [hl]; decide)

theorem exec_hostResponse_unsupported (hr : s.cxl.reqs[k]? = some r) (hl : s.cxl.linkUp = true) :
    exec (.hostResponse k .unsupported) s = .next ((s.hostAnswered k).hostFail r Code.HOST_UNREACH 1) := by
  show execHostResponse k .unsupported s = _
  unfold execHostResponse
  rw [hr]
  exact if_neg (by rw [hl]; decide)

theorem exec_hostCompletionTimeout (hr : s.cxl.reqs[k]? = some r) :
    exec (.hostCompletionTimeout k) s = .next ((s.hostAnswered k).hostFail r Code.HOST_UNREACH 1) := by
  show execHostCompletionTimeout k s = _
  unfold execHostCompletionTimeout
  rw [hr]
  rfl

theorem hostFail_bob {tl b i ep : Nat} (ha : r.agent = .bob tl b i ep) (code status : Nat) :
    s.hostFail r code status = (s.raise code 0xC30 0 0).respond 0xC30 (2 * tl + b) ep i status [] := by
  unfold State.hostFail
  rw [ha]
  rfl

theorem hostFail_cmd {tag ep : Nat} (ha : r.agent = .cmd tag ep) (code status : Nat) : s.hostFail r code status
    = ((s.dropReqs r.agent).raiseTied code 0xC30 0 (tagArg tag ep)).reply tag ep 3 code [] := by
  unfold State.hostFail
  rw [ha]
  rfl

theorem mem_dropReqs (s : State) (a : HostAgent) (q : HostReq) :
    q ∈ (s.dropReqs a).cxl.reqs ↔ q ∈ s.cxl.reqs ∧ q.agent ≠ a := by
  simp [State.dropReqs]

end

/-- Settles O33: each command of the port by the one branch that its hypotheses leave. -/
theorem theHostPortSettlesAndAnswers : Obligations.TheHostPortSettlesAndAnswers := by
  unfold Obligations.TheHostPortSettlesAndAnswers
  refine ⟨?link, ?config, fun write off v s hi => exec_configAccess_unprotected v write hi, ?header, ?decoder, ?decoderOk,
    fun a prot s hm => exec_hostSnoop a prot hm, fun k b s hb hs hfirst => exec_hostBiasAnswer hb hs hfirst, ?answer,
    fun k r s hr => exec_hostCompletionTimeout hr, ?fail⟩
  case link =>
    refine fun cxl speed width s hp hr => ⟨fun hm hlo hhi hw => ?_, fun hm => ⟨exec_cxlLinkUp hp hr hm,
      exec_linkModeSettle_later cxl speed width hm⟩⟩
    have ht : linkTrains speed width = true := by simp_all [linkTrains, inRange]
    exact ⟨_, exec_linkModeSettle_first hp hr cxl hm ht, cxl_only s _, if_pos rfl, rfl, rfl, rfl, rfl, rfl⟩
  case config =>
    refine fun off v prot s hl hi ha ho => ⟨fun hready => ?_, exec_configAccess_ready hl hi ha ho⟩
    have hread := exec_configRead hl hi ha ho hready v
    have hwrite := exec_configWrite hl hi ha ho hready v
    refine ⟨fun w hw => ?_, fun hnone => ?_, fun hmsix hpower => ?_, fun hoff hv => ?_, fun hoff hv => ?_, fun hoff => ?_⟩
    · exact hread.trans (congrArg _ (cfgRead_of_given hw))
    · exact ⟨Config.freeValue 32 s.free, hread.trans (congrArg _ (cfgRead_of_free hnone))⟩
    · rw [hwrite, if_neg hmsix, cfgWrite_stores _ fun h => absurd h hpower]
      rfl
    · rw [hwrite, if_neg (by rw [hoff]; decide), cfgWrite_stores _ fun _ => hv]
      rfl
    · rw [hwrite, if_neg (by rw [hoff]; decide), cfgWrite_of_power _ hoff hv]
      rfl
    · rw [hwrite, if_pos hoff]
      rfl
  case header =>
    have hhalf (b : Bool) (n : Nat) : (b2n b + 2 * n) / 2 = n := by
      have hbit : b2n b < 2 := by cases b <;> decide
      omega
    exact fun s => ⟨rfl, rfl, hhalf _ _, hhalf _ _⟩
  case decoder =>
    intro d base size ways1 s hd hm
    exact ⟨_, exec_hdmDecoderCommit base size ways1 hd hm, cxl_only s _, kvGet?_kvSet_same _ _ _,
      mem_withDecoder_hdmErr s d base size _, rfl, rfl, hm⟩
  case decoderOk =>
    refine fun size s => ⟨(decoderOk_first s 0 size true).trans (by simp), fun base ways1 h => ?_⟩
    obtain ⟨hways, -, hbase, -⟩ := (decoderOk_first s base size ways1).1 h
    exact ⟨hbase, hways⟩
  case answer =>
    refine fun k r s hr hl => ⟨fun tl b i ep data => exec_hostResponse_bob hr hl, ?_, ?_,
      exec_hostResponse_poisoned hr hl, exec_hostResponse_unsupported hr hl⟩
    · rintro tag ep data ha ⟨q, hq, hqa⟩
      exact (exec_hostResponse_cmd hr hl ha).trans
        (if_neg fun h => (allObserved_iff (s.hostAnswered k) tag ep).1 h q hq (hqa.trans ha))
    · intro tag ep data ha hnone
      exact (exec_hostResponse_cmd hr hl ha).trans
        (if_pos ((allObserved_iff (s.hostAnswered k) tag ep).2 fun q hq => ha ▸ hnone q hq))
  case fail =>
    exact fun r code status s => ⟨fun tl b i ep ha => hostFail_bob ha code status,
      fun tag ep ha => ⟨_, cxl_only s _, mem_dropReqs s r.agent, hostFail_cmd ha code status⟩⟩

end Sys2Proof.Machine
end

section
/-! PROOFS. The commands of the tape unit: negotiation, cancels, bias and debug access
(spec/11_host_interface_and_command_tape.md Table 11.8, R355 to R357, R366, R367, R370, R374, R375). -/

namespace Sys2Proof.Machine

/-! ### Versions (spec/11_host_interface_and_command_tape.md R375) -/

theorem oneMajor_lists : ∀ k < 16, field (oneMajor 1 0) k 1 ≠ 0xFF → k = 1 ∧ field (oneMajor 1 0) k 1 = 0 := by decide

/-- Against the one version 1.0, a negotiation settles 1.0 or none. -/
theorem settleVer_one {theirs : List Byte} {ma mi : Nat} (h : settleVer (oneMajor 1 0) theirs = some (ma, mi)) :
    ma = 1 ∧ mi = 0 := by
  obtain ⟨k, hk, hver⟩ := Option.map_eq_some_iff.1 h
  have hlt : k < 16 := List.mem_range.1 (List.mem_reverse.1 (List.mem_of_find?_eq_some hk))
  have hlists := List.find?_some hk
  rw [Bool.and_eq_true, decide_eq_true_iff] at hlists
  obtain ⟨rfl, hminor⟩ := oneMajor_lists k hlt hlists.1
  obtain ⟨rfl, rfl⟩ := Prod.mk.injEq .. ▸ hver
  exact ⟨rfl, by rw [hminor, Nat.zero_min]⟩

/-- The version registers of an interface: major and minor. -/
def versionFields (i : Nat) : Fld × Fld :=
  if i = 0 then (R.TP_VERSION_MAJOR, R.TP_VERSION_MINOR)
  else if i = 1 then (R.PL_VERSION_MAJOR, R.PL_VERSION_MINOR)
  else (R.TP_VERSION_BOB_MAJOR, R.TP_VERSION_BOB_MINOR)

/-- The state with a version settled for an interface. -/
def State.setVersion (s : State) (i ma mi : Nat) : State := s.setAll [((versionFields i).1, ma), ((versionFields i).2, mi)]

theorem setVersion_only (s : State) (i ma mi : Nat) : Only [.bar] s (s.setVersion i ma mi) := s.setAll_only _

theorem setVersion_fields (s : State) {i : Nat} {f : Fld × Fld} (h : versionFields i = f) (hk : f.1.key ≠ f.2.key)
    (hw : 1 % 2 ^ f.1.width = 1) : (s.setVersion i 1 0).get f.1 = 1 ∧ (s.setVersion i 1 0).get f.2 = 0
      ∧ OnlyFields [f.1, f.2] s (s.setVersion i 1 0) := by
  subst h
  refine ⟨(get_setAll_pair_fst s 1 0 hk).trans hw, (get_setAll_pair_snd s 1 0).trans (Nat.zero_mod _), fun f hf => ?_⟩
  simp only [List.map_cons, List.map_nil, List.mem_cons, List.not_mem_nil, or_false, not_or] at hf
  exact get_setAll_other s (by simp [hf])

section
variable {tag : Nat} {c : Cmd} {s : State}

theorem exec_tapeNop (hs : s.safe = false) (hc : s.cmdFor tag Op.NOP = some c) :
    exec (.tapeNop tag) s = .next ((s.takeCmd c).reply c.tag c.epoch 1 0 []) :=
  congrArg go (withCmd_of_cmdFor hs hc _)

/-- What a negotiation leaves, by the version that it settles. -/
def State.negotiated (s : State) (c : Cmd) : Option (Nat × Nat) → State
  | none => s.refuseTag c Code.TAPE_VERSION 0
  | some v => (s.setVersion (c.p 0 1) v.1 v.2).reply c.tag c.epoch 1 0 (leBytes 1 v.1 ++ leBytes 1 v.2)

theorem exec_negotiate (hs : s.safe = false) (hc : s.cmdFor tag Op.NEGOTIATE = some c) :
    exec (.negotiate tag) s = .next (if c.p 0 1 ≠ 0 && (s.takeCmd c).plState ≠ 0 then
        (s.takeCmd c).refuseTag c Code.TAPE_STATE 0
      else (s.takeCmd c).negotiated c (settleVer (oneMajor 1 0) (slice c.params 8 16))) := by
  refine congrArg go ((withCmd_of_cmdFor hs hc _).trans (if_congr Iff.rfl rfl ?_))
  cases settleVer (oneMajor 1 0) (slice c.params 8 16) with
  | none => rfl
  | some v =>
    unfold State.negotiated State.setVersion versionFields
    dsimp only
    split
    · rfl
    · split
      · rfl
      · rfl

/-! ### Cancels (spec/11_host_interface_and_command_tape.md R370) -/

theorem exec_cancel_none (hs : s.safe = false) (hc : s.cmdFor tag Op.CANCEL = some c)
    (hd : (s.takeCmd c).tape.find (c.p 0 2) (c.p 2 1) = none) :
    exec (.cancel tag) s = .next ((s.takeCmd c).reply c.tag c.epoch 1 0 [1]) := by
  refine congrArg go ((withCmd_of_cmdFor hs hc _).trans ?_)
  rw [hd]
  rfl

/-- The result byte of a cancel. -/
theorem cancelResult (b : Bool) : leBytes 1 (if b then 0 else 1) = [if b then 0 else 1] := by cases b <;> rfl

theorem exec_cancel_found {d : Cmd} (hs : s.safe = false) (hc : s.cmdFor tag Op.CANCEL = some c)
    (hd : (s.takeCmd c).tape.find (c.p 0 2) (c.p 2 1) = some d) : exec (.cancel tag) s
      = .next (((s.takeCmd c).cancelCmd d).1.reply c.tag c.epoch 1 0 [if ((s.takeCmd c).cancelCmd d).2 then 0 else 1]) := by
  refine congrArg go ((withCmd_of_cmdFor hs hc _).trans ?_)
  rw [hd, ← cancelResult]
  rfl

theorem undefer_deferred (s : State) (d : Cmd) : (s.undefer d).press.deferred ≠ some (d.tag, d.epoch) := by
  unfold State.undefer
  split
  · exact nofun
  · assumption

theorem cancelCmd_waiting {d : Cmd} (h : s.begun d = false ∨ (d.opcode = Op.PATTERN_LOAD ∧ d.taken = false)) :
    s.cancelCmd d = ((s.undefer d).reply d.tag d.epoch 4 0 [], true) := if_pos (by simpa using h)

theorem cancelCmd_load {d : Cmd} (hb : s.begun d = true) (ho : d.opcode = Op.PATTERN_LOAD) (ht : d.taken = true)
    (hl : s.loader.live = true) (htag : s.loader.tag = d.tag) (hep : s.loader.epoch = d.epoch)
    (hgo : s.loader.goSent = false) (hd : s.loader.discarding = false) : s.cancelCmd d = (s.cancelLoad, true) :=
  (if_neg (by simp [hb, ht])).trans (if_pos (by simp [ho, hl, htag, hep, hgo, hd]))

theorem cancelCmd_begun {d : Cmd} (hb : s.begun d = true) (ho : d.opcode ≠ Op.PATTERN_LOAD) : s.cancelCmd d = (s, false) :=
  (if_neg (by simp [hb, ho])).trans (if_neg (by simp [ho]))

/-! ### Bias (spec/11_host_interface_and_command_tape.md R355, R356) -/

theorem exec_bias_waits (hc : s.cmdFor tag Op.BIAS = some c) (hp : c.p 12 1 = 0) (hm : s.linkMode = 1)
    (hb : s.pagesBusy (pagesOf (c.p 0 8) (c.p 8 4)) = true) : exec (.bias tag) s = .next s := by
  show execBias tag s = _
  unfold execBias
  rw [hc]
  exact if_pos (by simp [hp, hm, hb])

theorem exec_bias_acts (hs : s.safe = false) (hc : s.cmdFor tag Op.BIAS = some c)
    (h : c.p 12 1 ≠ 0 ∨ s.linkMode ≠ 1 ∨ s.pagesBusy (pagesOf (c.p 0 8) (c.p 8 4)) = false) : exec (.bias tag) s
      = .next (if s.cxl.mode = 2 then (s.takeCmd c).refuseTag c Code.TAPE_STATE 0
        else ((s.takeCmd c).setBias c).reply c.tag c.epoch 1 0 []) := by
  show execBias tag s = _
  unfold execBias
  rw [hc]
  refine (if_neg ?_).trans (congrArg go (withCmd_of_cmdFor hs hc _))
  simpa [or_iff_not_imp_left] using h

theorem linkMode_of_fallback (h : s.cxl.mode = 2) : s.linkMode ≠ 1 := by
  unfold State.linkMode
  split
  · rw [h]
    decide
  · decide

theorem mem_setBias (q : Nat) : q ∈ (s.setBias c).cxl.hostBias
    ↔ (q ∈ s.cxl.hostBias ∧ q ∉ pagesOf (c.p 0 8) (c.p 8 4)) ∨ (c.p 12 1 = 0 ∧ q ∈ pagesOf (c.p 0 8) (c.p 8 4)) := by
  by_cases h : c.p 12 1 = 0 <;> simp [State.setBias, h]

end

/-! ### The scratchpad window -/

/-- The byte of the scratchpad window at an address. -/
def State.spadWinByte (s : State) (a : Nat) : Byte :=
  memRead (s.tile ((a - spadBase) / 0x40000)).spad ((a - spadBase) % 0x40000)

/-- The state with one byte of the scratchpad window written. -/
def State.spadWinPut (s : State) (a : Nat) (b : Byte) : State :=
  s.onTile ((a - spadBase) / 0x40000) fun x => { x with spad := memWrite x.spad ((a - spadBase) % 0x40000) b }

theorem spadWinWrite_cons (s : State) (a : Nat) (b : Byte) (l : List Byte) :
    s.spadWinWrite a (b :: l) = (s.spadWinPut a b).spadWinWrite (a + 1) l := rfl

theorem spadWinRead_succ (s : State) (a n : Nat) : s.spadWinRead a (n + 1) = s.spadWinByte a :: s.spadWinRead (a + 1) n := by
  unfold State.spadWinRead
  rw [List.range_succ_eq_map, List.map_cons, List.map_map]
  refine congrArg₂ _ rfl (List.map_congr_left fun k _ => ?_)
  rw [Function.comp_apply, Nat.add_right_comm, Nat.add_assoc]

theorem spadWinByte_put_same (s : State) (a : Nat) (b : Byte) : (s.spadWinPut a b).spadWinByte a = b := by
  rw [State.spadWinByte, State.spadWinPut, State.tile_onTile_same, memRead_memWrite_same]

theorem spadWinByte_put_other (s : State) {a d : Nat} (b : Byte) (ha : spadBase ≤ a) (hd : spadBase ≤ d) (h : d ≠ a) :
    (s.spadWinPut a b).spadWinByte d = s.spadWinByte d := by
  unfold State.spadWinByte State.spadWinPut
  by_cases ht : (d - spadBase) / 0x40000 = (a - spadBase) / 0x40000
  · have hoff : (d - spadBase) % 0x40000 ≠ (a - spadBase) % 0x40000 := by omega
    rw [ht, State.tile_onTile_same, memRead_memWrite_other _ _ hoff]
  · rw [State.onTile, State.tile_setTile_other _ _ _ _ ht]

theorem spadWinByte_write_below (l : List Byte) (s : State) {a d : Nat} (hd : spadBase ≤ d) (h : d < a) :
    (s.spadWinWrite a l).spadWinByte d = s.spadWinByte d := by
  induction l generalizing s a with
  | nil => rfl
  | cons b l ih =>
    rw [spadWinWrite_cons, ih _ (Nat.lt_succ_of_lt h)]
    exact spadWinByte_put_other s b (by omega) hd (Nat.ne_of_lt h)

/-- What is written through the window is read back. -/
theorem spadWinRead_write (l : List Byte) (s : State) {a : Nat} (ha : spadBase ≤ a) :
    (s.spadWinWrite a l).spadWinRead a l.length = l := by
  induction l generalizing s a with
  | nil => rfl
  | cons b l ih =>
    rw [List.length_cons, spadWinRead_succ, spadWinWrite_cons, ih _ (Nat.le_succ_of_le ha),
      spadWinByte_write_below l _ ha (Nat.lt_succ_self a), spadWinByte_put_same]

theorem inSpadWin_of_all {a n : Nat} (hn : n ≠ 0) (h : allSpadWin a n = true) : inSpadWin a n = true := by
  have hpos : spadEnd = spadBase + (spadEnd - spadBase) := by decide
  have hwide : 0 < spadEnd - spadBase := by decide
  simp only [allSpadWin, inSpadWin, overlaps, Bool.and_eq_true, decide_eq_true_iff] at h ⊢
  omega

/-! ### Bytes sent to the host (spec/11_host_interface_and_command_tape.md R374) -/

section
variable {s : State} {c : Cmd} {a : Nat} {b res : List Byte}

theorem keepResult_only (s : State) (c : Cmd) (res : List Byte) : Only [.tape] s (s.keepResult c res) := tape_only s _

theorem busWrite_only (s : State) (a : Nat) (b : List Byte) : Only [.host, .out] s (s.busWrite a b) := by
  intro p hp
  cases p <;> simp_all [Part.Same, State.busWrite, State.emit]

theorem cmdToHost_down (h : s.cxl.linkUp = false) : s.cmdToHost c a b res = s.abortCmd c.tag c.epoch Code.HOST_UNREACH :=
  if_pos (by rw [h]; decide)

theorem cmdToHost_up (h : s.cxl.linkUp = true) : s.cmdToHost c a b res = State.busWrite { s.keepResult c res with
    cxl := { s.cxl with reqs := s.cxl.reqs ++ [⟨.cmd c.tag c.epoch, true, a, b.length⟩] } } a b := if_neg (by rw [h]; decide)

end

/-! ### Debug access (spec/11_host_interface_and_command_tape.md R367) -/

section
variable {s : State} {c : Cmd}

/-- What a debug read leaves, by what its fetch gives. -/
def State.dbgReadEnds (c : Cmd) : State × (Nat ⊕ List Byte) → State
  | (u, .inl code) => u.reply c.tag c.epoch 3 code []
  | (u, .inr b) => u.cmdToHost c (c.p 16 8) b []

/-- A debug read of fabric addresses outside the scratchpad window, or of an open one. -/
def State.dbgReadMem (s : State) (c : Cmd) (e : Ecc) : State :=
  if allSpadWin (c.p 8 8) (c.p 4 4) then s.cmdToHost c (c.p 16 8) (s.spadWinRead (c.p 8 8) (c.p 4 4)) []
  else if s.inHost (c.p 8 8) (c.p 4 4) then
    (s.freeBytes (c.p 4 4)).2.cmdToHost c (c.p 16 8) (s.freeBytes (c.p 4 4)).1 []
  else State.dbgReadEnds c (s.dbgFetch (s.dbgRuns (c.p 8 8) (c.p 4 4) (c.p 4 4 + 1)) e)

theorem exec_dbgRead {tag : Nat} (hs : s.safe = false) (hc : s.cmdFor tag Op.DBG_READ = some c) (e : Ecc) :
    exec (.dbgRead tag e) s = .next (
      if c.p 4 4 = 0 then (s.takeCmd c).reply c.tag c.epoch 1 0 []
      else if c.p 0 1 = 1 then ((s.takeCmd c).cfgWords (c.p 2 2) (c.p 8 8) (c.p 4 4 / 4)).1.cmdToHost c (c.p 16 8)
        ((s.takeCmd c).cfgWords (c.p 2 2) (c.p 8 8) (c.p 4 4 / 4)).2 []
      else if inSpadWin (c.p 8 8) (c.p 4 4) && !(s.takeCmd c).debugOk then
        (s.takeCmd c).refuseTag c Code.TAPE_DEBUG_LOCKED 0
      else (s.takeCmd c).dbgReadMem c e) := by
  refine congrArg go ((withCmd_of_cmdFor hs hc _).trans ?_)
  refine if_congr Iff.rfl rfl (if_congr Iff.rfl rfl (if_congr Iff.rfl rfl (if_congr Iff.rfl rfl (if_congr Iff.rfl rfl ?_))))
  split
  · rename_i hfetch
    rw [hfetch]
    rfl
  · rename_i hfetch
    rw [hfetch]
    rfl

/-- What a debug write leaves, by what its stores give. -/
def State.dbgWriteEnds (c : Cmd) : State × Option Nat → State
  | (u, some code) => u.reply c.tag c.epoch 3 code []
  | (u, none) => u.reply c.tag c.epoch 1 0 []

/-- A permitted debug write of data that the host gave. -/
def State.dbgPut (s : State) (c : Cmd) (b : List Byte) : State :=
  if c.p 0 1 = 1 then (s.cfgPuts (c.p 2 2) (c.p 8 8) (bytesWords b)).reply c.tag c.epoch 1 0 []
  else if allSpadWin (c.p 8 8) (c.p 4 4) then (s.spadWinWrite (c.p 8 8) b).reply c.tag c.epoch 1 0 []
  else if s.inHost (c.p 8 8) (c.p 4 4) then s.cmdToHost c (s.hostPhys (c.p 8 8)) b []
  else State.dbgWriteEnds c (s.dbgStore (c.p 8 8) b (s.dbgRuns (c.p 8 8) (c.p 4 4) (c.p 4 4 + 1)))

theorem exec_dbgWrite {tag : Nat} (hs : s.safe = false) (hc : s.cmdFor tag Op.DBG_WRITE = some c) (data : List Byte) :
    exec (.dbgWrite tag data) s = .next (
      if c.p 4 4 = 0 then (s.takeCmd c).reply c.tag c.epoch 1 0 []
      else if !(s.takeCmd c).debugOk then (s.takeCmd c).refuseTag c Code.TAPE_DEBUG_LOCKED 0
      else if !(s.takeCmd c).cxl.linkUp then (s.takeCmd c).abortCmd c.tag c.epoch Code.HOST_UNREACH
      else (s.takeCmd c).dbgPut c (padTo (c.p 4 4) data)) := by
  refine congrArg go ((withCmd_of_cmdFor hs hc _).trans ?_)
  refine if_congr Iff.rfl rfl (if_congr Iff.rfl rfl (if_congr Iff.rfl rfl (if_congr Iff.rfl rfl (if_congr Iff.rfl rfl
    (if_congr Iff.rfl rfl ?_)))))
  split
  · rename_i hstore
    rw [hstore]
    rfl
  · rename_i hstore
    rw [hstore]
    rfl

end

/-- Settles O35: each command by its equation, and its cases by the conditions of that equation. -/
theorem theTapeUnitsOwnCommandsAct : Obligations.TheTapeUnitsOwnCommandsAct := by
  unfold Obligations.TheTapeUnitsOwnCommandsAct
  refine ⟨fun tag c s hs => ⟨exec_tapeNop hs, ?negotiate, ?cancel, ?bias, ?dbgRead, ?dbgWrite⟩, ?cancels,
    fun a b s ha _ => spadWinRead_write b s ha, ?toHost⟩
  case negotiate =>
    intro hc
    have hexec := exec_negotiate hs hc
    refine ⟨fun hi hpl => ?_, fun hopen hv => ?_, fun ma mi hopen hv => ?_⟩
    · rw [hexec, if_pos (by simp [hi, hpl])]
    · rw [hexec, if_neg (by simpa [or_iff_not_imp_left] using hopen), hv]
      rfl
    · obtain ⟨rfl, rfl⟩ := settleVer_one hv
      refine ⟨(s.takeCmd c).setVersion (c.p 0 1) 1 0, ?_, setVersion_only _ _ _ _, fun hi => ?_, fun hi => ?_, fun hi => ?_⟩
      · rw [hexec, if_neg (by simpa [or_iff_not_imp_left] using hopen), hv]
        rfl
      · exact setVersion_fields _ (if_pos hi) (by decide) (by decide)
      · exact setVersion_fields _ ((if_neg (by rw [hi]; decide)).trans (if_pos hi)) (by decide) (by decide)
      · exact setVersion_fields _ ((if_neg (by omega)).trans (if_neg (by omega))) (by decide) (by decide)
  case cancel => exact fun hc => ⟨exec_cancel_none hs hc, fun d => exec_cancel_found hs hc⟩
  case bias =>
    refine fun hc => ⟨exec_bias_waits hc, fun hm => ?_, fun hm hfree => ?_⟩
    · exact (exec_bias_acts hs hc (.inr (.inl (linkMode_of_fallback hm)))).trans (congrArg _ (if_pos hm))
    · exact ⟨_, (exec_bias_acts hs hc (hfree.imp_right .inr)).trans (congrArg _ (if_neg hm)), cxl_only _ _, rfl,
        mem_setBias⟩
  case dbgRead =>
    intro hc
    have hexec := exec_dbgRead hs hc
    have hmem (e : Ecc) (hn : c.p 4 4 ≠ 0) (hsp : c.p 0 1 ≠ 1)
        (hopen : inSpadWin (c.p 8 8) (c.p 4 4) = false ∨ (s.takeCmd c).debugOk = true) :
        exec (.dbgRead tag e) s = .next ((s.takeCmd c).dbgReadMem c e) := by
      rw [hexec, if_neg hn, if_neg hsp, if_neg (by simpa [or_iff_not_imp_left] using hopen)]
    have houtside (hn : c.p 4 4 ≠ 0) (hin : inSpadWin (c.p 8 8) (c.p 4 4) = false) :
        ¬ allSpadWin (c.p 8 8) (c.p 4 4) = true := fun hall => by simp [inSpadWin_of_all hn hall] at hin
    refine ⟨fun e hn => ?_, fun e hn hsp => ?_, fun e hn hsp hin hlock => ?_, fun e hn hsp hall hopen => ?_,
      fun e hn hsp hin hhost => ?_, fun e hn hsp hin hhost => ?_⟩
    · rw [hexec, if_pos hn]
    · rw [hexec, if_neg hn, if_pos hsp]
    · rw [hexec, if_neg hn, if_neg hsp, if_pos (by simp [hin, hlock])]
    · exact (hmem e hn hsp (.inr hopen)).trans (congrArg _ (if_pos hall))
    · refine ⟨((s.takeCmd c).freeBytes (c.p 4 4)).1, by simp [State.freeBytes], ?_⟩
      exact (hmem e hn hsp (.inl hin)).trans (congrArg _ ((if_neg (houtside hn hin)).trans (if_pos hhost)))
    · have hends := (hmem e hn hsp (.inl hin)).trans
        (congrArg _ ((if_neg (houtside hn hin)).trans (if_neg (by rw [hhost]; decide))))
      constructor
      · intro b hb
        rw [hends, ← Prod.eta ((s.takeCmd c).dbgFetch _ e), hb]
        rfl
      · intro code hcode
        rw [hends, ← Prod.eta ((s.takeCmd c).dbgFetch _ e), hcode]
        rfl
  case dbgWrite =>
    intro hc
    have hexec := exec_dbgWrite hs hc
    refine ⟨fun data hn => ?_, fun data hn hlock => ?_, fun data hn hopen hdown => ?_, fun data hn hopen hup => ?_⟩
    · rw [hexec, if_pos hn]
    · rw [hexec, if_neg hn, if_pos (by rw [hlock]; decide)]
    · rw [hexec, if_neg hn, if_neg (by rw [hopen]; decide), if_pos (by rw [hdown]; decide)]
    · have hput := hexec data
      rw [if_neg hn, if_neg (by rw [hopen]; decide), if_neg (by rw [hup]; decide)] at hput
      refine ⟨fun hsp => ?_, fun hsp hall => ?_, fun hsp hall hhost => ?_, fun hsp hall hhost => ?_⟩
      · exact hput.trans (congrArg _ (if_pos hsp))
      · exact hput.trans (congrArg _ ((if_neg hsp).trans (if_pos hall)))
      · exact hput.trans (congrArg _ ((if_neg hsp).trans ((if_neg (by rw [hall]; decide)).trans (if_pos hhost))))
      · have hends := hput.trans (congrArg _ ((if_neg hsp).trans
          ((if_neg (by rw [hall]; decide)).trans (if_neg (by rw [hhost]; decide)))))
        constructor
        · intro hnone
          rw [hends, ← Prod.eta ((s.takeCmd c).dbgStore _ _ _), hnone]
          rfl
        · intro code hcode
          rw [hends, ← Prod.eta ((s.takeCmd c).dbgStore _ _ _), hcode]
          rfl
  case cancels =>
    exact fun d s => ⟨fun h => ⟨_, cancelCmd_waiting h, undefer_only s d, undefer_deferred s d⟩,
      cancelCmd_load, cancelCmd_begun⟩
  case toHost =>
    refine fun c a b res s => ⟨cmdToHost_down, fun h => ⟨_, cmdToHost_up h, ?_, rfl, rfl, rfl⟩⟩
    exact ((keepResult_only s c res).mono (by simp)).trans
      (((cxl_only _ _).mono (by simp)).trans ((busWrite_only _ a b).mono (by simp)))

end Sys2Proof.Machine
end

section
/-! PROOFS. Reads of sound data by the lining cache, and what they leave to the tape unit
(spec/08_memory_system.md R264, R266, R272, spec/11_host_interface_and_command_tape.md R361). -/

namespace Sys2Proof.Machine

/-! ### Lookups -/

/-- The first field key of the counters that a lookup in the lining cache raises. -/
def lookKey : Nat := 0x48030 * 64

/-- What lookups in the lining cache leave: the bytes, their extents and errors, and every field below their counters. -/
structure Looked (s t : State) : Prop where
  only : Only [.bar, .mem] s t
  data : t.mem.data = s.mem.data
  exts : t.mem.exts = s.mem.exts
  poison : t.mem.poison = s.mem.poison
  errs : t.mem.errs = s.mem.errs
  low : ∀ f : Fld, f.key < lookKey → t.get f = s.get f

theorem cacheTouch_low (s : State) (gran : Nat) (w x : Bool) {f : Fld} (h : f.key < lookKey) :
    (s.cacheTouch gran w x).get f = s.get f := by
  have hhit : f.key ≠ (R.LN_HIT (mcOfGran gran)).key := by
    simp only [Fld.key, R.LN_HIT, lookKey] at h ⊢
    omega
  have hmiss : f.key ≠ (R.LN_MISS (mcOfGran gran)).key := by
    simp only [Fld.key, R.LN_MISS, lookKey] at h ⊢
    omega
  unfold State.cacheTouch
  extract_lets mc gs put
  split
  · split
    · exact get_bump_other _ _ hhit
    · rfl
  · split
    · rfl
    · refine (get_bump_other _ _ hmiss).trans ?_
      split
      · rfl
      · rfl

namespace Looked

variable {s t u : State}

theorem refl (s : State) : Looked s s := ⟨.refl _ s, rfl, rfl, rfl, rfl, fun _ _ => rfl⟩

theorem trans (h : Looked s t) (g : Looked t u) : Looked s u :=
  ⟨h.only.trans g.only, g.data.trans h.data, g.exts.trans h.exts, g.poison.trans h.poison, g.errs.trans h.errs,
    fun f hf => (g.low f hf).trans (h.low f hf)⟩

theorem touchAt (s : State) (a : Nat) (w x : Bool) : Looked s (s.touchAt a w x) := by
  obtain ⟨l, hmem⟩ := touchAt_mem s a w x
  refine ⟨s.touchAt_only a w x, by rw [hmem], by rw [hmem], by rw [hmem], by rw [hmem], fun f hf => ?_⟩
  unfold State.touchAt
  split
  · exact cacheTouch_low s _ w x hf
  · rfl

section
variable (h : Looked s t)
include h

theorem rdN (a n : Nat) : t.rdN a n = s.rdN a n := rdN_congr h.data h.exts a n

theorem granules (a n : Nat) : t.granules a n = s.granules a n := by
  unfold State.granules
  rw [h.exts]

theorem clean {a : Nat} (hc : Clean s a) : Clean t a :=
  ⟨h.errs.trans hc.errs, by rw [State.memUnit, h.exts, h.poison]; exact hc.poison⟩

theorem reachAt (a : Nat) : t.reachAt a = s.reachAt a := by
  unfold State.reachAt
  rw [h.exts]
  split
  · rfl
  · split
    · have hgroup : (lnGroup a).1 < 24 := by
        simp only [lnGroup, lpEnd, lnEnd] at *
        omega
      have hmode : t.get (R.MC_CFG_LN_MODE (lnGroup a).1) = s.get (R.MC_CFG_LN_MODE (lnGroup a).1) := by
        refine h.low _ ?_
        simp only [Fld.key, R.MC_CFG_LN_MODE, lookKey]
        omega
      have hbusy : t.get (R.MC_STATUS_LN_BUSY (lnGroup a).1) = s.get (R.MC_STATUS_LN_BUSY (lnGroup a).1) := by
        refine h.low _ ?_
        simp only [Fld.key, R.MC_STATUS_LN_BUSY, lookKey]
        omega
      have hopen (g : Nat) : t.lnMode (lnGroup a).1 g = s.lnMode (lnGroup a).1 g := congrArg (bits · (2 * g) 2) hmode
      have hchanging (g : Nat) : t.lnBusy (lnGroup a).1 g = s.lnBusy (lnGroup a).1 g := congrArg (bit · g) hbusy
      dsimp only
      rw [hopen, hchanging]
    · rfl

theorem reach (a n : Nat) : t.reach a n = s.reach a n := by
  unfold State.reach
  simp only [h.reachAt]

theorem tapePos : t.tapePos = s.tapePos := congrArg (· * 64) (h.low R.TP_STATUS_POS (by decide))

theorem tapeArea : t.tapeArea = s.tapeArea := by
  rw [State.tapeArea, h.low R.TP_TAPE_BASE (by decide), h.low R.TP_TAPE_SIZE (by decide)]
  rfl

theorem nextSeq : t.get R.TP_STATUS_NEXT_SEQ = s.get R.TP_STATUS_NEXT_SEQ := h.low _ (by decide)

theorem seqDue (q : Nat) : t.seqDue q = s.seqDue q := by
  rw [State.seqDue, State.seqDue, h.nextSeq]

end

end Looked

/-! ### Reads of sound data -/

/-- Runs of sound data are read without refusal. -/
theorem loadRuns_clean (l : List (Nat × Nat)) {s : State} (h : ∀ r ∈ l, Clean s r.1) (noalloc : Bool) (r : Reader) :
    ∃ t, s.loadRuns noalloc r l .ok = (t, none) ∧ Looked s t := by
  induction l generalizing s with
  | nil => exact ⟨s, rfl, .refl s⟩
  | cons x l ih =>
    obtain ⟨a, n⟩ := x
    obtain ⟨hfirst, hrest⟩ := List.forall_mem_cons.1 h
    have htouch := Looked.touchAt s a false noalloc
    obtain ⟨t, hload, hlook⟩ := ih fun y hy => htouch.clean (hrest y hy)
    refine ⟨t, ?_, htouch.trans hlook⟩
    rw [State.loadRuns, hfirst.loadRun]
    exact (if_pos rfl).trans hload

/-- A run of a range begins within the range. -/
theorem runsOf_within (l : List Extent) {k a n : Nat} : ∀ r ∈ runsOf l k a n, ∃ j < n, r.1 = a + j := by
  induction k generalizing a n with
  | zero => exact fun r hr => absurd hr List.not_mem_nil
  | succ k ih =>
    intro r hr
    have hrest {m : Nat} (h : r ∈ runsOf l k (a + m) (n - m)) : ∃ j < n, r.1 = a + j := by
      obtain ⟨j, hj, hr⟩ := ih r h
      exact ⟨m + j, by omega, by omega⟩
    have hcons {m : Nat} (hn : n ≠ 0) (h : r ∈ (a, m) :: runsOf l k (a + m) (n - m)) : ∃ j < n, r.1 = a + j := by
      obtain rfl | h := List.mem_cons.1 h
      · exact ⟨0, Nat.pos_of_ne_zero hn, rfl⟩
      · exact hrest h
    rw [runsOf] at hr
    split at hr
    · exact absurd hr List.not_mem_nil
    · next hn =>
      split at hr
      · split at hr
        · exact hcons hn hr
        · exact hrest hr
        · exact absurd hr List.not_mem_nil
      · split at hr
        · exact hcons hn hr
        · exact absurd hr List.not_mem_nil

theorem reachAt_of_reach_lt {s : State} {a n j : Nat} (h : s.reach a n = .ok) (hj : j < n) : s.reachAt (a + j) = .ok := by
  unfold State.reach at h
  split at h
  · next k hk =>
    have hbad := List.find?_some hk
    exact absurd h (of_decide_eq_true hbad)
  · next hnone =>
    have hall := List.find?_eq_none.1 hnone j (List.mem_range.2 hj)
    by_contra hbad
    exact hall (decide_eq_true hbad)

theorem mem_granules {s : State} {a n j x : Nat} (hj : j < n) (ha : a + j < lpEnd) (hx : storOf s.mem.exts (a + j) = some x) :
    x / 256 ∈ s.granules a n := by
  refine List.mem_dedup.2 (List.mem_filterMap.2 ⟨j, List.mem_range.2 hj, ?_⟩)
  rw [if_pos ha, hx]
  rfl

/-- A range that its agent reaches, with no error waiting and no granule poisoned. -/
structure SoundRange (s : State) (a n : Nat) : Prop where
  reach : s.reach a n = .ok
  poison : ∀ g ∈ s.granules a n, s.mem.poison.contains g = false
  errs : s.mem.errs = []

theorem SoundRange.clean {s : State} {a n j : Nat} (h : SoundRange s a n) (hj : j < n) : Clean s (a + j) := by
  refine ⟨h.errs, ?_⟩
  by_cases ha : a + j < lpEnd
  · obtain ⟨x, hx⟩ := storOf_of_reachAt (reachAt_of_reach_lt h.reach hj) ha
    have hclean := h.poison _ (mem_granules hj ha hx)
    refine .inr ?_
    rw [State.memUnit, if_pos ha, hx]
    exact hclean
  · exact .inl (Nat.not_lt.1 ha)

theorem Looked.soundRange {s t : State} {a n : Nat} (h : Looked s t) (hs : SoundRange s a n) : SoundRange t a n :=
  ⟨(h.reach a n).trans hs.reach, by rw [h.granules, h.poison]; exact hs.poison, h.errs.trans hs.errs⟩

theorem load_sound {s : State} {a n : Nat} (h : SoundRange s a n) (noalloc : Bool) :
    ∃ t, s.load a n noalloc .ok = (t, none) ∧ Looked s t := by
  refine loadRuns_clean _ (fun r hr => ?_) noalloc .fabric
  obtain ⟨j, hj, hr⟩ := runsOf_within _ r hr
  rw [hr]
  exact h.clean hj

theorem load_looked {s : State} {a n : Nat} (h : SoundRange s a n) (noalloc : Bool) :
    (s.load a n noalloc .ok).2 = none ∧ Looked s (s.load a n noalloc .ok).1 := by
  obtain ⟨t, hload, hlook⟩ := load_sound h noalloc
  rw [hload]
  exact ⟨rfl, hlook⟩

/-- A read of sound bytes of the tape. -/
theorem tapeRead_sound {s : State} {off n : Nat} (h : SoundRange s (s.tapeArea.1 + off) n) : s.tapeRead off n .ok
    = ((s.load (s.tapeArea.1 + off) n false .ok).1, some (s.rdN (s.tapeArea.1 + off) n)) := by
  obtain ⟨t, hload, hlook⟩ := load_sound h false
  refine (if_neg (not_not_intro h.reach)).trans ?_
  rw [hload, ← hlook.rdN]
  rfl

end Sys2Proof.Machine
end

section
/-! PROOFS. The tape unit: packets examined and consumed, commands started, replies written
(spec/11_host_interface_and_command_tape.md R360 to R376). -/

namespace Sys2Proof.Machine

/-! ### Vectors and stops (spec/11_host_interface_and_command_tape.md R362, R376) -/

/-- A vector changes, of the tape unit, its pending bits only. -/
theorem vector_tape (s : State) (v : Nat) : ∃ l, (s.vector v).tape = { s.tape with msixPend := l } := by
  unfold State.vector
  split
  · split
    · exact ⟨_, rfl⟩
    · exact ⟨_, rfl⟩
  · exact ⟨_, rfl⟩

theorem get_vector (s : State) (v : Nat) (f : Fld) : (s.vector v).get f = s.get f := by
  have hbar : (s.vector v).bar = s.bar := s.vector_only v .bar (by decide)
  exact congrArg (rfGet · f) hbar

theorem set_onlyFields (s : State) (f : Fld) (v : Nat) : OnlyFields [f] s (s.set f v) :=
  fun g hg => get_set_other s v (by simpa using hg)

theorem bump_onlyFields (s : State) (f : Fld) (n : Nat) : OnlyFields [f] s (s.bump f n) :=
  fun g hg => get_bump_other s n (by simpa using hg)

section
variable {s : State}

theorem stopTape_state : s.stopTape.get R.TP_STATUS_STATE = 2 := (get_vector _ _ _).trans (get_set_same _ _ _)

theorem stopTape_torn : s.stopTape.tape.torn = false := by
  obtain ⟨l, h⟩ := vector_tape ({ s with tape := { s.tape with torn := false } }.set R.TP_STATUS_STATE 2) 4
  exact (congrArg Tape.torn h).trans rfl

theorem stopTape_only : Only [.bar, .tape, .out] s s.stopTape :=
  ((tape_only s _).mono (by simp)).trans (((State.set_only _ _ _).mono (by simp)).trans ((State.vector_only _ _).mono (by simp)))

theorem stopTape_onlyFields : OnlyFields [R.TP_STATUS_STATE] s s.stopTape :=
  fun f hf => (get_vector _ _ f).trans (set_onlyFields { s with tape := { s.tape with torn := false } } _ _ f hf)

theorem tornPacket_only : Only [.bar, .tape] s s.tornPacket :=
  ((tape_only s _).mono (by simp)).trans ((State.bump_only _ _ _).mono (by simp))

theorem tornPacket_onlyFields : OnlyFields [R.TORN_SEEN] s s.tornPacket :=
  bump_onlyFields { s with tape := { s.tape with torn := true } } _ _

theorem exec_tornTimeout (ht : s.tape.torn = true) (hp : s.takesPackets = true) :
    exec .tornTimeout s = .next (s.raise Code.TAPE_TORN 0xC34 0 0).stopTape := if_pos (by rw [ht, hp]; decide)

/-! ### The packet at `POS` (spec/11_host_interface_and_command_tape.md R361) -/

/-- The state with a notice taken off the list of those on their way. -/
def State.noticeTaken (s : State) (off n : Nat) : State :=
  { s with tape := { s.tape with notices := s.tape.notices.erase (off, n) } }

theorem exec_tapeNotice {off n : Nat} (h : s.tape.notices.contains (off, n) = true) (e : Ecc) : exec (.tapeNotice off n e) s
    = if s.takesPackets then .next ((s.noticeTaken off n).examine off n e)
      else .next { s.noticeTaken off n with tape := { (s.noticeTaken off n).tape with kept := true } } := if_pos h

/-- The header at `POS` cannot be reached. -/
theorem examine_unreached {off n : Nat} (e : Ecc) (hr : s.reach (s.tapeArea.1 + s.tapePos) 32 ≠ .ok)
    (ho : overlaps off n s.tapePos 32 = true) :
    s.examine off n e = (s.reachFault 0xC34 0 (s.tapeArea.1 + s.tapePos) 32).stopTape := by
  have hread : s.tapeRead s.tapePos 32 e = (s.reachFault 0xC34 0 (s.tapeArea.1 + s.tapePos) 32, none) := if_pos hr
  unfold State.examine
  dsimp only
  rw [hread]
  exact if_pos ho

/-- The packet at `POS` completed by the read of its parameters. -/
def State.completed (h : Pkt) (b : List Byte) : State × Option (List Byte) → State
  | (t, none) => t.stopTape
  | (t, some p) => if crc32 (b.take 28 ++ p) = h.crc then t.takePacket h p else t.tornPacket

/-- A due packet of the header at `POS`: out of order, too long, or read to its end. -/
def State.duePacket (s : State) (pos : Nat) (h : Pkt) (b : List Byte) : State :=
  if h.seq ≠ s.get R.TP_STATUS_NEXT_SEQ then (s.raise Code.TAPE_SEQ 0xC34 0 0).stopTape
  else if 4064 < h.plen then s.tornPacket
  else State.completed h b (if h.plen = 0 then (s, some []) else s.tapeRead (pos + 32) h.plen .ok)

/-- What of the tape a notice must meet for the packet at `POS` to be examined. -/
def examined (h : Pkt) : Nat := if h.magic = 0x45504154 && decide (h.plen ≤ 4064) then packetSpan h.plen else 32

theorem le_packetSpan (plen : Nat) : 32 ≤ packetSpan plen := by
  unfold packetSpan ceilDiv
  omega

theorem le_examined (h : Pkt) : 32 ≤ examined h := by
  unfold examined
  split
  · exact le_packetSpan _
  · exact Nat.le_refl _

theorem overlaps_wider {a n b m k : Nat} (h : overlaps a n b m = true) (hm : m ≤ k) : overlaps a n b k = true := by
  simp only [overlaps, Bool.and_eq_true, decide_eq_true_iff] at h ⊢
  omega

/-- With the header read, the packet at `POS` is examined where a notice meets it and its number is due. -/
theorem examine_read {t : State} {off n : Nat} {b : List Byte} {e : Ecc} (hread : s.tapeRead s.tapePos 32 e = (t, some b)) :
    s.examine off n e = if !overlaps off n s.tapePos (examined (parsePkt b)) then t
      else if (parsePkt b).magic ≠ 0x45504154 || !t.seqDue (parsePkt b).seq then t
      else t.duePacket s.tapePos (parsePkt b) b := by
  unfold State.examine
  dsimp only
  rw [hread]
  refine if_congr Iff.rfl rfl (if_congr Iff.rfl rfl (if_congr Iff.rfl rfl (if_congr Iff.rfl rfl ?_)))
  generalize (if (parsePkt b).plen = 0 then (t, some []) else t.tapeRead (s.tapePos + 32) (parsePkt b).plen .ok) = r
  obtain ⟨u, p⟩ := r
  cases p with
  | none => rfl
  | some p => rfl

/-- The parameters of a packet of sound bytes, read after its header. -/
theorem completed_sound {t : State} {h : Pkt} {b : List Byte} (hlook : Looked s t)
    (hp : h.plen = 0 ∨ SoundRange s (s.tapeArea.1 + s.tapePos + 32) h.plen) :
    let p := s.rdN (s.tapeArea.1 + s.tapePos + 32) h.plen
    let v := if h.plen = 0 then t else (t.load (s.tapeArea.1 + s.tapePos + 32) h.plen false .ok).1
    State.completed h b (if h.plen = 0 then (t, some []) else t.tapeRead (s.tapePos + 32) h.plen .ok)
      = if crc32 (b.take 28 ++ p) = h.crc then v.takePacket h p else v.tornPacket := by
  by_cases hz : h.plen = 0
  · rw [if_pos hz, if_pos hz, hz]
    rfl
  · have hplace : t.tapeArea.1 + (s.tapePos + 32) = s.tapeArea.1 + s.tapePos + 32 := by rw [hlook.tapeArea, Nat.add_assoc]
    have hsound := hlook.soundRange (hp.resolve_left hz)
    rw [← hplace] at hsound
    rw [if_neg hz, if_neg hz, tapeRead_sound hsound, hplace, hlook.rdN]
    rfl

/-! ### Packets consumed (spec/11_host_interface_and_command_tape.md R361, R364) -/

/-- The state in which a complete packet is counted. -/
def State.packetCounted (s : State) : State := { s with tape := { s.tape with torn := false } }.bump R.PACKETS 1

theorem packetCounted_only : Only [.bar, .tape] s s.packetCounted :=
  ((tape_only s _).mono (by simp)).trans ((State.bump_only _ _ _).mono (by simp))

theorem packetCounted_onlyFields : OnlyFields [R.PACKETS] s s.packetCounted :=
  bump_onlyFields { s with tape := { s.tape with torn := false } } _ _

theorem packetCounted_place : s.packetCounted.tapePos = s.tapePos ∧ s.packetCounted.tapeArea.2 = s.tapeArea.2 :=
  ⟨congrArg (· * 64) (packetCounted_onlyFields R.TP_STATUS_POS (by decide)),
    congrArg (· * 0x10000) (packetCounted_onlyFields R.TP_TAPE_SIZE (by decide))⟩

theorem takePacket_eq (h : Pkt) (p : List Byte) : s.takePacket h p = (s.packetCounted.acceptPacket h p).setAll
    [(R.TP_STATUS_POS, (if s.tapeArea.2 < s.tapePos + 64 * ceilDiv (32 + h.plen) 64 + 4096 then 0
        else s.tapePos + 64 * ceilDiv (32 + h.plen) 64) / 64),
      (R.TP_STATUS_NEXT_SEQ, ((s.packetCounted.acceptPacket h p).get R.TP_STATUS_NEXT_SEQ + 1) % 2 ^ 32)] := by
  obtain ⟨hpos, hsize⟩ := packetCounted_place (s := s)
  rw [← hpos, ← hsize]
  rfl

variable {h : Pkt} {p : List Byte}

/-- Is a command of the pair of a packet live? -/
def State.pairBusy (s : State) (h : Pkt) : Bool := s.tape.cmds.any fun c => !c.gone && c.tag = h.tag && c.epoch = h.epoch

theorem pairBusy_iff : s.pairBusy h = true ↔ ∃ c ∈ s.tape.cmds, c.gone = false ∧ c.tag = h.tag ∧ c.epoch = h.epoch := by
  simp [State.pairBusy, and_assoc]

/-- The command that a packet makes live. -/
def Pkt.cmd (h : Pkt) (p : List Byte) : Cmd :=
  { tag := h.tag, epoch := h.epoch, opcode := h.opcode, seq := h.seq, fence := bit h.flags 0, notify := bit h.flags 1,
    params := p }

theorem acceptPacket_faulty {code : Nat} (hf : s.packetFault h = some code) : s.acceptPacket h p = s.refusePacket h code := by
  unfold State.acceptPacket
  rw [hf]

theorem acceptPacket_busy (hf : s.packetFault h = none) (hb : s.pairBusy h = true) :
    s.acceptPacket h p = s.refusePacket h Code.TAPE_TAG_BUSY := by
  unfold State.acceptPacket
  rw [hf]
  exact if_pos hb

theorem acceptPacket_stale (hf : s.packetFault h = none) (hb : ¬ s.pairBusy h = true)
    (hl : kvGet? s.tape.lastEpoch h.tag = some h.epoch) : s.acceptPacket h p = s.bump R.STALE_TAG 1 := by
  unfold State.acceptPacket
  rw [hf]
  exact (if_neg hb).trans (if_pos hl)

theorem acceptPacket_badParams {code : Nat} (hf : s.packetFault h = none) (hb : ¬ s.pairBusy h = true)
    (hl : kvGet? s.tape.lastEpoch h.tag ≠ some h.epoch) (hp : paramFault h.opcode p = some code) :
    s.acceptPacket h p = s.refusePacket h code := by
  unfold State.acceptPacket
  rw [hf, hp]
  exact (if_neg hb).trans (if_neg hl)

theorem acceptPacket_live (hf : s.packetFault h = none) (hb : ¬ s.pairBusy h = true)
    (hl : kvGet? s.tape.lastEpoch h.tag ≠ some h.epoch) (hp : paramFault h.opcode p = none) :
    s.acceptPacket h p = { s with tape := { s.tape with cmds := s.tape.cmds ++ [h.cmd p] } } := by
  unfold State.acceptPacket
  rw [hf, hp]
  exact (if_neg hb).trans (if_neg hl)

end

/-! ### Commands started (spec/11_host_interface_and_command_tape.md R365) -/

section
variable {s : State} {tag : Nat} {before : List Cmd} {c : Cmd}

theorem exec_commandStart (hs : s.safe = false) (hsplit : splitCmd tag s.tape.cmds = some (before, c)) :
    exec (.commandStart tag) s = if s.mayStart before c then .next { s with tape := { s.tape with
      cmds := s.tape.cmds.map fun d => if d = c then { d with started := true } else d } } else .next s := by
  refine (if_neg (by rw [hs]; decide)).trans ?_
  rw [hsplit]

theorem mayStart_iff : s.mayStart before c = true ↔ (∀ d ∈ before, cmdUnit d.opcode ≠ cmdUnit c.opcode ∨ s.begun d = true)
    ∧ (c.fence = true → ∀ d ∈ before, d.gone = true) ∧ (cmdUnit c.opcode = 5 → s.th.restarting = false) := by
  have hfence : (!c.fence || before.all fun d => d.gone) = true ↔ (c.fence = true → ∀ d ∈ before, d.gone = true) := by
    cases c.fence <;> simp
  have hrest : (!(decide (cmdUnit c.opcode = 5) && s.th.restarting)) = true
      ↔ (cmdUnit c.opcode = 5 → s.th.restarting = false) := by
    by_cases hu : cmdUnit c.opcode = 5 <;> simp [hu]
  unfold State.mayStart
  rw [Bool.and_eq_true, Bool.and_eq_true, hfence, hrest, and_assoc]
  simp

end

/-! ### Replies (spec/11_host_interface_and_command_tape.md R364, R372 to R374) -/

section
variable {s : State} {r : Reply} {rest : List Reply} {w : W32}

theorem exec_replyWrite (hen : s.flag R.TP_CFG_EN = true) (hl : s.cxl.linkUp = true) (hr : s.tape.replies = r :: rest) :
    exec (.replyWrite w) s = if s.replySpace w.toNat then .next ((s.writeReply r rest).noteWait w.toNat).resumeTape
      else .next (s.noteWait w.toNat) := by
  refine (if_neg (by rw [hen, hl]; decide)).trans ?_
  rw [hr]

theorem noteWait_waits (hr : s.tape.replies = r :: rest) {n : Nat} (hspace : s.replySpace n = false) :
    (s.noteWait n).tape.waiting = true := by
  unfold State.noteWait
  rw [hr, hspace]
  rfl

theorem exec_replySpacePoll (hen : s.flag R.TP_CFG_EN = true) (hl : s.cxl.linkUp = true) (hw : s.tape.waiting = true) :
    exec (.replySpacePoll w) s = .next ((s.busRead (s.get R.TP_REPLY_RBASE * 64) 64).noteWait w.toNat) :=
  if_pos (by rw [hen, hl, hw]; decide)

/-- The state with the oldest reply written as a line and counted, before its vectors. -/
def State.lineWritten (s : State) (r : Reply) (rest : List Reply) : State :=
  ((State.busWrite { s with tape := { s.tape with replies := rest }.retire r } (s.replyAddr (s.get R.TP_RSEQ_RSEQ))
    (replyRecord (s.get R.TP_RSEQ_RSEQ) r)).set R.TP_RSEQ_RSEQ ((s.get R.TP_RSEQ_RSEQ + 1) % 2 ^ 32)).bump R.REPLIES 1

/-- The reply's vector for its completion. -/
def State.replyNotified (s : State) (r : Reply) : State := if r.notify then s.vector 1 else s

theorem writeReply_eq : s.writeReply r rest = if r.kind = 2 || r.kind = 3 || r.kind = 5 then
    ((s.lineWritten r rest).replyNotified r).vector 2 else (s.lineWritten r rest).replyNotified r := rfl

/-- What vectors leave. -/
structure Vectored (s t : State) : Prop where
  only : Only [.tape, .out] s t
  tape : ∃ l, t.tape = { s.tape with msixPend := l }

theorem Vectored.refl (s : State) : Vectored s s := ⟨.refl _ s, _, rfl⟩

theorem Vectored.vector {t : State} (h : Vectored s t) (v : Nat) : Vectored s (t.vector v) := by
  obtain ⟨l, hl⟩ := h.tape
  obtain ⟨k, hk⟩ := vector_tape t v
  exact ⟨h.only.trans (t.vector_only v), k, by rw [hk, hl]⟩

theorem Vectored.get {t : State} (h : Vectored s t) (f : Fld) : t.get f = s.get f := by
  have hbar : t.bar = s.bar := h.only .bar (by decide)
  exact congrArg (rfGet · f) hbar

theorem writeReply_vectored : Vectored (s.lineWritten r rest) (s.writeReply r rest) := by
  have hnotified : Vectored (s.lineWritten r rest) ((s.lineWritten r rest).replyNotified r) := by
    unfold State.replyNotified
    split
    · exact (Vectored.refl _).vector 1
    · exact .refl _
  rw [writeReply_eq]
  split
  · exact hnotified.vector 2
  · exact hnotified

theorem writeReply_tape : ∃ l, (s.writeReply r rest).tape = { { s.tape with replies := rest }.retire r with msixPend := l } :=
  writeReply_vectored.tape

theorem lineWritten_only : Only [.bar, .tape, .host, .out] s (s.lineWritten r rest) :=
  ((tape_only s _).mono (by simp)).trans (((busWrite_only _ _ _).mono (by simp)).trans
    (((State.set_only _ _ _).mono (by simp)).trans ((State.bump_only _ _ _).mono (by simp))))

theorem writeReply_only : Only [.bar, .tape, .host, .out] s (s.writeReply r rest) :=
  lineWritten_only.trans (writeReply_vectored.only.mono (by simp))

theorem lineWritten_rseq : (s.lineWritten r rest).get R.TP_RSEQ_RSEQ = (s.get R.TP_RSEQ_RSEQ + 1) % 2 ^ 32 :=
  (get_bump_other _ _ (by decide)).trans ((get_set_same _ _ _).trans (Nat.mod_mod _ _))

theorem lineWritten_onlyFields : OnlyFields [R.TP_RSEQ_RSEQ, R.REPLIES] s (s.lineWritten r rest) := by
  intro f hf
  simp only [List.map_cons, List.map_nil, List.mem_cons, List.not_mem_nil, or_false, not_or] at hf
  obtain ⟨hrseq, hreplies⟩ := hf
  exact (get_bump_other _ _ hreplies).trans (get_set_other _ _ hrseq)

theorem retire_replies (t : Tape) : (t.retire r).replies = t.replies := by
  unfold Tape.retire
  split
  · rfl
  · rfl

theorem retire_live (t : Tape) (hl : r.live = true) : t.retire r = { t with
    cmds := t.cmds.filter fun c => c.gone || c.tag ≠ r.tag || c.epoch ≠ r.epoch
    lastEpoch := kvSet t.lastEpoch r.tag r.epoch } := if_pos hl

theorem retire_dead (t : Tape) (hl : r.live = false) : t.retire r = t := if_neg (by rw [hl]; decide)

theorem mem_retire (t : Tape) (hl : r.live = true) (c : Cmd) :
    c ∈ (t.retire r).cmds ↔ c ∈ t.cmds ∧ ¬ (c.gone = false ∧ c.tag = r.tag ∧ c.epoch = r.epoch) := by
  rw [retire_live t hl, List.mem_filter]
  refine and_congr_right fun _ => ?_
  cases c.gone <;> simp [Decidable.imp_iff_not_or]

theorem exec_tapeReplyDeadline (hen : s.flag R.TP_CFG_EN = true) (hw : s.tape.waiting = true) (he : s.tape.episode = false) :
    exec .tapeReplyDeadline s = .next ({ s.raise Code.TAPE_REPLY_DEADLINE 0xC34 0 0 with
      tape := { (s.raise Code.TAPE_REPLY_DEADLINE 0xC34 0 0).tape with episode := true } }.vector 3) :=
  if_pos (by rw [hen, hw, he]; decide)

end

/-- Settles O34: a notice by the examination of the sound header, and each other row by its equation. -/
theorem theTapeTakesPacketsAndWritesReplies : Obligations.TheTapeTakesPacketsAndWritesReplies := by
  unfold Obligations.TheTapeTakesPacketsAndWritesReplies
  refine ⟨?notice, fun off n e s => examine_unreached e, ?read, ?packet, fun _ => ⟨rfl, tornPacket_onlyFields, tornPacket_only⟩,
    fun s => ⟨stopTape_state, stopTape_torn, stopTape_only, stopTape_onlyFields⟩, fun s => exec_tornTimeout, ?consumed, ?accepted,
    ?start, ?replies, ?line, fun s => resumeTape_of_not_kept, fun s => exec_tapeReplyDeadline⟩
  case notice =>
    exact fun off n e s hn => ⟨fun ht => (exec_tapeNotice hn e).trans (if_pos ht),
      fun ht => (exec_tapeNotice hn e).trans (if_neg (by rw [ht]; decide))⟩
  case read =>
    rintro off n s ⟨hreach, hpoison⟩ herrs
    obtain ⟨hnone, hlook⟩ := load_looked ⟨hreach, hpoison, herrs⟩ false
    exact ⟨hnone, hlook.only, hlook.data, hlook.poison, hlook.tapePos⟩
  case packet =>
    rintro off n s ⟨hreach, hpoison⟩ herrs
    have hhead : SoundRange s (s.tapeArea.1 + s.tapePos) 32 := ⟨hreach, hpoison, herrs⟩
    obtain ⟨-, hlook⟩ := load_looked hhead false
    have hexamine := examine_read (off := off) (n := n) (tapeRead_sound hhead)
    refine ⟨fun hbad => ?_, fun hmagic hdue hmeets => ?_⟩
    · rw [hexamine]
      split
      · rfl
      · refine if_pos ?_
        rw [hlook.seqDue]
        simpa using hbad
    · rw [if_neg (by rw [overlaps_wider hmeets (le_examined _)]; decide),
        if_neg (by rw [hlook.seqDue, hmagic, hdue]; decide)] at hexamine
      refine ⟨fun hseq => ?_, fun hseq hlong => ?_, fun hseq hshort hparams => ?_⟩
      · exact hexamine.trans (if_pos (by rw [hlook.nextSeq]; exact hseq))
      · exact hexamine.trans ((if_neg (by rw [hlook.nextSeq]; exact not_not_intro hseq)).trans (if_pos hlong))
      · refine hexamine.trans ((if_neg (by rw [hlook.nextSeq]; exact not_not_intro hseq)).trans
          ((if_neg (Nat.not_lt.2 hshort)).trans (completed_sound hlook (hparams.imp_right fun hp => ?_))))
        obtain ⟨hreach, hpoison⟩ := hp
        rw [Nat.add_assoc]
        exact ⟨hreach, hpoison, herrs⟩
  case consumed =>
    exact fun h p s => ⟨_, _, packetCounted_only, rfl, packetCounted_onlyFields, rfl, takePacket_eq h p⟩
  case accepted =>
    intro h p s busy
    refine ⟨fun code => acceptPacket_faulty, fun hf hb => acceptPacket_busy hf (pairBusy_iff.2 hb), fun hf hb hl => ?_,
      fun hf hb hl => ⟨fun code hp => ?_, fun hp => ⟨h.cmd p, ?_, rfl, rfl, rfl, rfl, rfl, rfl, rfl, rfl, rfl, rfl, rfl⟩⟩⟩
    · exact acceptPacket_stale hf (hb ∘ pairBusy_iff.1) hl
    · exact acceptPacket_badParams hf (hb ∘ pairBusy_iff.1) hl hp
    · exact acceptPacket_live hf (hb ∘ pairBusy_iff.1) hl hp
  case start =>
    refine fun tag before c s hs hsplit => ⟨fun h => ?_, fun h => ?_, fun hbefore hfence hrest => ?_, fun hfence hlive => ?_⟩
    · exact (exec_commandStart hs hsplit).trans (if_pos h)
    · exact (exec_commandStart hs hsplit).trans (if_neg (by rw [h]; decide))
    · exact mayStart_iff.2 ⟨hbefore, fun h => absurd (hfence.symm.trans h) (by decide), hrest⟩
    · obtain ⟨d, hd, hgone⟩ := hlive
      refine Bool.eq_false_iff.2 fun h => ?_
      obtain ⟨-, hall, -⟩ := mayStart_iff.1 h
      exact absurd (hgone.symm.trans (hall hfence d hd)) (by decide)
  case replies =>
    refine fun w r rest s hen hl hr => ⟨fun hspace => (exec_replyWrite hen hl hr).trans (if_pos hspace), fun hspace =>
      ⟨(exec_replyWrite hen hl hr).trans (if_neg (by rw [hspace]; decide)), noteWait_waits hr hspace⟩, fun hw =>
      ⟨_, exec_replySpacePoll hen hl hw, rfl, rfl⟩⟩
  case line =>
    intro r rest s
    have hvec := writeReply_vectored (s := s) (r := r) (rest := rest)
    obtain ⟨l, htape⟩ := writeReply_tape (s := s) (r := r) (rest := rest)
    have hhost : (s.writeReply r rest).host = (s.lineWritten r rest).host := hvec.only .host (by decide)
    refine ⟨hhost.trans rfl, (hvec.get _).trans lineWritten_rseq, ?_, writeReply_only,
      fun f hf => (hvec.get f).trans (lineWritten_onlyFields f hf), fun hl => ⟨fun c => ?_, ?_⟩, fun hl => ?_⟩
    · rw [htape]
      exact retire_replies _
    · rw [htape]
      exact mem_retire _ hl c
    · rw [htape, retire_live _ hl]
      exact kvGet?_kvSet_same _ _ _
    · rw [htape, retire_dead _ hl]
      exact ⟨rfl, rfl⟩

end Sys2Proof.Machine
end
